-- ==== Sys2Proof/Word.lean ====
section
/-! DEFINITION. The plainest types of the model: a byte, a sparse table, who makes a request, what the silicon finds, and the
status codes of R28. -/

namespace Sys2Proof

/-- A byte of memory. -/
abbrev Byte := BitVec 8

/-- A sparse table: pairs of a key and a value, keys strictly rising (`Machine/Tab.lean` holds its operations). -/
abbrev Tab (α : Type) := List (Nat × α)

/-- The status codes of R28, in the order of the table. -/
inductive Status where
  | ok | okRegularised | okSaturated | staleEpoch
  | badDescriptor | badLayout
  | queueFull | superseded | preempted
  | tileUncorrectable | lowerTierTimeout | poisonedInput | pageDropped
  | deadlineMissed | outputInvalidated | safeStateLatched
  | denied | nodeLost | linkDegraded
  deriving DecidableEq, Repr

/-- Who makes a register access, a dictionary request or another request (R19, R20, R357, R374, R419, R469):
the sideband board controller, the host through PF0, the host through PF1 (dictionary port 1), virtual function `v`,
the engines and DMA of Onyx `n`, Scarab, the management cores (firmware), the security unit, and the owner through
an authenticated session. -/
inductive Src where
  | sideband | pf0 | pf1 | vf (v : Nat) | onyx (n : Nat) | scarab | mgmt | secUnit | owner
  deriving DecidableEq, Repr

/-- The errors that the silicon finds while a command reads: the sectors (global sector addresses, multiples of 256)
whose read finds an uncorrectable error, and those in which it corrects one (R77, R78). Log entry 121 (DEDUCED). -/
structure ReadErrs where
  uncorrectable : List Nat := []
  corrected : List Nat := []
  deriving DecidableEq, Repr

/-- How a request of an owner's session authenticates (R423): the session, the counter that precedes the ciphertext, and whether
the GCM tag verifies. -/
structure Auth where
  session : Nat
  counter : Nat
  tagOk : Bool
  deriving DecidableEq, Repr

/-- What the silicon finds when a die or the package is tested (R446, R472 to R475): the nodes whose test fails, the faults found, as
entries of R477 without FOUND, whether the grown defect list is stored, the skip ratio at which each core's critical-path test passes
(`4 × node + core`; 0: not even at 1), and the firmware slots that do not verify (bit `2 (i - 1) + s`). -/
structure TestResult where
  bad : Nat := 0
  found : List Nat := []
  stored : Bool := true
  speeds : List Nat := []
  unverified : Nat := 0
  deriving DecidableEq, Repr

/-- A reading of a regulator (R455): VOUT in mV, IOUT in 0.01 A, POUT in 0.1 W where the regulator gives it, STATUS_BYTE, and whether
its status reports undervoltage. -/
abbrev Reading := Nat × Nat × Option Nat × Nat × Bool

/-- What a T0 switch meets: the errors of its reads, and for envelopes of the restage list, by index, how
their T3 accesses end: whether one runs into its timeout, and the sectors received, or else those that fail (R81, R304). -/
structure SwitchReads where
  errs : ReadErrs := {}
  t3 : List (Nat × Bool × List Nat) := []
  deriving DecidableEq, Repr

/-- A Frame Start short packet: virtual channel and frame number (R237). -/
structure FrameStart where
  vc : Nat
  no : Nat
  deriving DecidableEq, Repr

/-- What lies between a Frame Start and its Frame End: the virtual channel, and the long packets as data type and payload (R235). -/
structure FrameData where
  vc : Nat
  packets : List (Nat × List Byte)
  deriving DecidableEq, Repr

/-- Levels of lines A and B of an encoder input, and how long they last in units of 0.25 ns (R251). -/
structure EncLines where
  a : Bool
  b : Bool
  held : Nat
  deriving DecidableEq, Repr

/-- The voltages in nV at RFX_MEAS_P and RFX_MEAS_N of a channel (R318). -/
structure RfxMeas where
  chan : Nat
  p : Int
  n : Int
  deriving DecidableEq, Repr

/-- A level of RFX_DESAT of a channel, and how long it has lasted in units of 0.25 ns (R323). -/
structure DesatLevel where
  chan : Nat
  level : Bool
  held : Nat
  deriving DecidableEq, Repr

end Sys2Proof
end

