-- ==== Sys2Proof/Syntax.lean ====
section
/-! DEFINITION. The commands of the package, one constructor for each row of the table and in its order. A register write carries who
makes it (`src`) and the value of the whole register (`val`); a command of AGT_BU carries bits [63:8] of CMD (`arg`). An event carries
what the silicon or the outside world contributes to it: the errors that reads find (`errs`), the sectors of a transfer that a memory
outside answers with an error (`bad`), the sectors of tiles in flight that a die had received (`got`), the outcome of a test, the bytes
of a frame. A context is `c`, its command `seq`, an Onyx `node`. The docstring of each meaning says more. -/

namespace Sys2Proof

/-- The commands. -/
inductive Instr where
  /-- VDD_AON_APPLY (R467). -/
  | vddAonApply
  /-- VDD_AON_LOSS (R24). -/
  | vddAonLoss
  /-- BU_RESET_N_ASSERT (R482). -/
  | buResetNAssert
  /-- BU_RESET_N_DEASSERT (R482). -/
  | buResetNDeassert
  /-- REFCLK_LOSS (R444). -/
  | refclkLoss
  /-- REGISTER_WRITE (R18). -/
  | registerWrite (src : Src) (a val : Nat)
  /-- DOMAINS (R472). -/
  | domains (arg : Nat)
  /-- DOMAIN_SWITCH_DONE (R27). -/
  | domainSwitchDone
  /-- ROOT_PLL (R472). -/
  | rootPll (arg : Nat) (locks : Bool)
  /-- FUSE_LOAD (R472). -/
  | fuseLoad (arg : Nat) (agateOk : Bool) (bad : Nat)
  /-- START_TEST (R473). -/
  | startTest (arg : Nat) (r : TestResult)
  /-- FMAX (R446). -/
  | fmax (arg : Nat) (r : TestResult)
  /-- DISCOVER (R267). -/
  | discover (arg trained half info : Nat)
  /-- FW_LOAD (R475). -/
  | fwLoad (arg unverified : Nat)
  /-- CFG_LOAD (R367). -/
  | cfgLoad (arg sigOk : Nat)
  /-- INJECT (R408). -/
  | inject (arg pass : Nat)
  /-- OUTPUT_ENABLE (R395). -/
  | outputEnable (arg : Nat)
  /-- BU_STEP_COMPLETE (R472). -/
  | buStepComplete
  /-- BU_QUEUED_REQUEST_START (R470). -/
  | buQueuedRequestStart (got : List Nat)
  /-- DOMAIN_REQUEST (R487). -/
  | domainRequest (src : Src) (val : Nat)
  /-- RESET_REQUEST (R487). -/
  | resetRequest (src : Src) (val : Nat)
  /-- CORE_RESET (R480). -/
  | coreReset (arg : Nat) (got : List Nat)
  /-- DIE_RESET (R480). -/
  | dieReset (arg : Nat) (got : List Nat)
  /-- PARTITION_RESET (R480). -/
  | partitionReset (arg : Nat)
  /-- PACKAGE_RESET (R482). -/
  | packageReset (arg : Nat)
  /-- RESET_DRAIN_TIMEOUT (R479). -/
  | resetDrainTimeout (got : List Nat)
  /-- RESET_COMPLETE (R480). -/
  | resetComplete (r : TestResult)
  /-- SHUTDOWN (R483). -/
  | shutdown (arg : Nat)
  /-- QUIESCE_END (R483). -/
  | quiesceEnd
  /-- REGION_BIST_COMPLETE (R484). -/
  | regionBistComplete (d : Nat) (pass : Bool)
  /-- SHUTDOWN_OFF (R483). -/
  | shutdownOff
  /-- SHUTDOWN_ABORT (R486). -/
  | shutdownAbort
  /-- COPY (R72). -/
  | copy (c seq : Nat) (errs : ReadErrs) (bad : List Nat)
  /-- BROADCAST_COPY (R273). -/
  | broadcastCopy (c seq : Nat) (errs : ReadErrs)
  /-- FILL (R72). -/
  | fill (c seq : Nat) (bad : List Nat)
  /-- FLUSH (R72). -/
  | flush (c seq : Nat) (errs : ReadErrs)
  /-- EVICT (R72). -/
  | evict (c seq : Nat) (errs : ReadErrs)
  /-- DISCARD (R72). -/
  | discard (c seq : Nat)
  /-- PREFETCH (R72). -/
  | prefetch (c seq : Nat) (errs : ReadErrs)
  /-- WAYFLUSH (R72). -/
  | wayflush (c seq : Nat) (errs : ReadErrs)
  /-- TILE_START (R74). -/
  | tileStart (node : Nat)
  /-- TILE_COMPLETE (R75). -/
  | tileComplete (c seq index : Nat) (errs : ReadErrs) (bad : List Nat)
  /-- T3_TIMEOUT (R81). -/
  | t3Timeout (c seq index : Nat) (received : List Nat)
  /-- PATROL_SCRUB (R77). -/
  | patrolScrub (node sector found : Nat)
  /-- WAYMODE_WRITE (R69). -/
  | waymodeWrite (src : Src) (node val : Nat)
  /-- MATMUL (R91). -/
  | matmul (node : Nat) (errs : ReadErrs)
  /-- SCAN_ONLY (R39). -/
  | scanOnly (node : Nat) (errs : ReadErrs)
  /-- CONV (R114). -/
  | conv (node : Nat) (errs : ReadErrs)
  /-- DWCONV (R114). -/
  | dwconv (node : Nat) (errs : ReadErrs)
  /-- POOL_AVG (R125). -/
  | poolAvg (node : Nat) (errs : ReadErrs)
  /-- POOL_MAX (R125). -/
  | poolMax (node : Nat) (errs : ReadErrs)
  /-- TCONV (R116). -/
  | tconv (node : Nat) (errs : ReadErrs)
  /-- RELAYOUT (R121). -/
  | relayout (node : Nat) (errs : ReadErrs)
  /-- ADD (R106). -/
  | add (node : Nat) (errs : ReadErrs)
  /-- MUL (R106). -/
  | mul (node : Nat) (errs : ReadErrs)
  /-- FMA (R106). -/
  | fma (node : Nat) (errs : ReadErrs)
  /-- MAX (R106). -/
  | max (node : Nat) (errs : ReadErrs)
  /-- MIN (R106). -/
  | min (node : Nat) (errs : ReadErrs)
  /-- CVT (R106). -/
  | cvt (node : Nat) (errs : ReadErrs)
  /-- ACT (R107). -/
  | act (node : Nat) (errs : ReadErrs)
  /-- RSUM (R108). -/
  | rsum (node : Nat) (errs : ReadErrs)
  /-- RMAX (R108). -/
  | rmax (node : Nat) (errs : ReadErrs)
  /-- SOFTMAX (R106). -/
  | softmax (node : Nat) (errs : ReadErrs)
  /-- RMSNORM (R106). -/
  | rmsnorm (node : Nat) (errs : ReadErrs)
  /-- LAYERNORM (R106). -/
  | layernorm (node : Nat) (errs : ReadErrs)
  /-- PADD (R106). -/
  | padd (node : Nat) (errs : ReadErrs)
  /-- PROUND (R106). -/
  | pround (node : Nat) (errs : ReadErrs)
  /-- ISSUECAP_WRITE (R100). -/
  | issuecapWrite (src : Src) (node val : Nat)
  /-- SCORE (R136). -/
  | score (node : Nat) (errs : ReadErrs)
  /-- VALUE (R137). -/
  | value (node : Nat) (errs : ReadErrs)
  /-- KV_WRITE (R144). -/
  | kvWrite (node : Nat) (errs : ReadErrs)
  /-- KV_ALLOC (R144). -/
  | kvAlloc (node : Nat) (errs : ReadErrs)
  /-- KV_MARK (R144). -/
  | kvMark (node : Nat) (errs : ReadErrs)
  /-- KV_SEAL (R144). -/
  | kvSeal (node : Nat) (errs : ReadErrs)
  /-- KV_DROP (R144). -/
  | kvDrop (node : Nat) (errs : ReadErrs)
  /-- KV_FREE (R144). -/
  | kvFree (node : Nat) (errs : ReadErrs)
  /-- KV_ADOPT (R144). -/
  | kvAdopt (node : Nat) (errs : ReadErrs)
  /-- KV_PIN (R144). -/
  | kvPin (node : Nat) (errs : ReadErrs)
  /-- KVPOOL_WRITE (R146). -/
  | kvpoolWrite (src : Src) (node p val : Nat)
  /-- KVPOOL_INIT_DONE (R146). -/
  | kvpoolInitDone (node p : Nat)
  /-- BIAS_TABLE_WRITE (R140). -/
  | biasTableWrite (src : Src) (node off val : Nat)
  /-- SCAN (R156). -/
  | scan (node : Nat) (errs : ReadErrs)
  /-- STREAM_OPEN (R166). -/
  | streamOpen (node : Nat) (errs : ReadErrs)
  /-- STREAM_CLOSE (R167). -/
  | streamClose (node : Nat)
  /-- STREAM_DOORBELL (R166). -/
  | streamDoorbell (src : Src) (node slot val : Nat)
  /-- STREAM_STEP (R168). -/
  | streamStep (node : Nat)
  /-- STREAM_STEP_COMPLETE (R168). -/
  | streamStepComplete (node : Nat) (errs : ReadErrs)
  /-- MAP (R175). -/
  | map (node : Nat) (errs : ReadErrs)
  /-- GMUL (R175). -/
  | gmul (node : Nat) (errs : ReadErrs)
  /-- DECAY (R175). -/
  | decay (node : Nat) (errs : ReadErrs)
  /-- GATE_TABLE_WRITE (R174). -/
  | gateTableWrite (src : Src) (node off val : Nat)
  /-- FACTOR (R188). -/
  | factor (node : Nat) (errs : ReadErrs)
  /-- SOLVE (R191). -/
  | solve (node : Nat) (errs : ReadErrs)
  /-- UPDATE (R185). -/
  | update (node : Nat) (errs : ReadErrs)
  /-- TRSOLVE (R190). -/
  | trsolve (node : Nat) (errs : ReadErrs)
  /-- INTEGRATE (R209). -/
  | integrate (node : Nat) (errs : ReadErrs)
  /-- COMMIT (R210). -/
  | commit (node : Nat)
  /-- COMMIT_WAIT_END (R210). -/
  | commitWaitEnd (node : Nat) (errs : ReadErrs)
  /-- POINT (R217). -/
  | point (node pipe : Nat) (errs : ReadErrs)
  /-- EDGE (R220). -/
  | edge (node pipe : Nat) (errs : ReadErrs)
  /-- REPAIR (R222). -/
  | repair (node pipe : Nat) (errs : ReadErrs)
  /-- TREE (R224). -/
  | tree (node : Nat) (errs : ReadErrs)
  /-- ROADMAP (R224). -/
  | roadmap (node : Nat) (errs : ReadErrs)
  /-- PRIM (R225). -/
  | prim (node : Nat) (errs : ReadErrs)
  /-- MAPCFG_WRITE (R208). -/
  | mapcfgWrite (src : Src) (node m reg val : Nat)
  /-- MAP_INIT_DONE (R208). -/
  | mapInitDone (node m : Nat)
  /-- COMMAND_FETCH (R294). -/
  | commandFetch (c : Nat) (errs : ReadErrs)
  /-- SQ_FETCH_FAIL (R514). -/
  | sqFetchFail (c : Nat) (timeout : Bool)
  /-- COMMAND_DISPATCH (R299). -/
  | commandDispatch (node inst : Nat)
  /-- PREEMPTION_POINT (R301). -/
  | preemptionPoint (node inst units : Nat) (errs : ReadErrs)
  /-- COMMAND_COMPLETE (R295). -/
  | commandComplete (c seq : Nat)
  /-- T0_SWITCH (R303). -/
  | t0Switch (node core : Nat) (r : SwitchReads)
  /-- T0_SWITCH_COMPLETE (R306). -/
  | t0SwitchComplete (node core : Nat)
  /-- CTX_DB (R292). -/
  | ctxDb (src : Src) (c val : Nat)
  /-- CTX_ENABLE (R287). -/
  | ctxEnable (src : Src) (c : Nat)
  /-- CTX_HALT (R287). -/
  | ctxHalt (src : Src) (c : Nat)
  /-- CTX_RESUME (R287). -/
  | ctxResume (src : Src) (c : Nat)
  /-- CTX_ABORT (R287). -/
  | ctxAbort (src : Src) (c : Nat)
  /-- CTX_DISABLE (R287). -/
  | ctxDisable (src : Src) (c : Nat)
  /-- EVQ_WRITE (R296). -/
  | evqWrite (src : Src) (ring val : Nat)
  /-- PART_CFG_WRITE (R310). -/
  | partCfgWrite (src : Src) (p val : Nat)
  /-- RSV_WRITE (R316). -/
  | rsvWrite (src : Src) (val : Nat)
  /-- PACKET_CRC_ERROR (R263). -/
  | packetCrcError (l : Nat) (atUpper : Bool) (pkt : Nat) (got : List Nat)
  /-- LINK_DOWN (R266). -/
  | linkDown (l : Nat) (got : List Nat)
  /-- PACKET_AUTH_FAIL (R279). -/
  | packetAuthFail (c seq index j : Nat) (errs : ReadErrs)
  /-- HEARTBEAT_SEND (R276). -/
  | heartbeatSend
  /-- HEARTBEAT_ANSWER (R276). -/
  | heartbeatAnswer (n : Nat)
  /-- LOSS_TIMEOUT (R276). -/
  | lossTimeout (n : Nat) (got : List Nat)
  /-- UNCORE_FATAL (R276). -/
  | uncoreFatal (n : Nat) (got : List Nat)
  /-- FENCE (R277). -/
  | fence (src : Src) (val : Nat) (got : List Nat)
  /-- FENCE_DRAIN_END (R277). -/
  | fenceDrainEnd (got : List Nat)
  /-- ADMIT (R280). -/
  | admitDie (src : Src) (val : Nat)
  /-- EPOCH_RELEASE (R272). -/
  | epochRelease
  /-- CSI_FRAME_START (R240). -/
  | csiFrameStart (p : Nat) (f : FrameStart)
  /-- CSI_FRAME_END (R244). -/
  | csiFrameEnd (p : Nat) (err : Bool) (f : FrameData)
  /-- FRAME_READY (R239). -/
  | frameReady (p : Nat)
  /-- FRAME_MISSING (R245). -/
  | frameMissing (p : Nat)
  /-- CLAIM (R240). -/
  | claim (src : Src) (p : Nat)
  /-- RELEASE_BUFFER (R240). -/
  | releaseBuffer (src : Src) (p val : Nat)
  /-- EXCLUDE (R245). -/
  | exclude (src : Src) (val : Nat)
  /-- READMIT (R245). -/
  | readmit (src : Src) (val : Nat)
  /-- CAMCFG_WRITE (R246). -/
  | camcfgWrite (src : Src) (p reg val : Nat)
  /-- SNAP (R247). -/
  | snap (src : Src) (mask : Nat) (busy : Bool)
  /-- SNAP_HELD_RUN (R247). -/
  | snapHeldRun
  /-- IMU_DRDY (R250). -/
  | imuDrdy (unit : Nat)
  /-- IMU_BURST_COMPLETE (R250). -/
  | imuBurstComplete (unit : Nat) (burst : List Byte)
  /-- IMUCFG_WRITE (R260). -/
  | imucfgWrite (src : Src) (unit val : Nat)
  /-- ENCODER_EDGE (R251). -/
  | encoderEdge (e : Nat) (l : EncLines)
  /-- EGO_TICK (R252). -/
  | egoTick
  /-- EGO_EVAL (R252). -/
  | egoEval
  /-- EGOCFG_WRITE (R255). -/
  | egocfgWrite (src : Src) (val : Nat)
  /-- APPLY (R255). -/
  | apply
  /-- SAMPLE_BOUNDARY (R320). -/
  | sampleBoundary (sps vms : List Int) (desat : Nat)
  /-- COMPARATOR_CROSSING (R321). -/
  | comparatorCrossing (c : Nat) (upper : Bool) (p n : Int)
  /-- SWITCH_BLOCK_END (R321). -/
  | switchBlockEnd (c : Nat) (blank minRun : Bool)
  /-- DEADTIME_END (R321). -/
  | deadtimeEnd (c : Nat) (on : Bool)
  /-- CROWBAR_TRIP (R323). -/
  | crowbarTrip (m : RfxMeas)
  /-- DESAT_TRIP (R323). -/
  | desatTrip (d : DesatLevel)
  /-- SP_EDGE (R319). -/
  | spEdge (c high period : Nat) (dir : Bool)
  /-- SP_LOST (R319). -/
  | spLost (c : Nat)
  /-- ARM (R325). -/
  | arm (src : Src) (mask : Nat)
  /-- DISARM (R325). -/
  | disarm (src : Src) (mask : Nat)
  /-- REARM (R325). -/
  | rearm (src : Src) (mask : Nat)
  /-- SWAP (R327). -/
  | swap (src : Src) (val : Nat)
  /-- BRL_CH_TRIM_WRITE (R494). -/
  | brlChTrimWrite (src : Src) (c val : Nat)
  /-- NOW_READ (R340). -/
  | nowRead (src : Src)
  /-- PTP_SAMPLE (R345). -/
  | ptpSample (port clock domain t2 t1 : Nat) (corr : Int)
  /-- SWSAMPLE (R343). -/
  | swsample (src : Src) (val : Nat)
  /-- MODE_WRITE (R343). -/
  | modeWrite (src : Src) (val : Nat)
  /-- MASTER_WRITE (R345). -/
  | masterWrite (src : Src) (val : Nat)
  /-- ACCEPT (R345). -/
  | accept (src : Src)
  /-- HOLDOVER_TIMEOUT (R345). -/
  | holdoverTimeout
  /-- RATE_WRITE (R343). -/
  | rateWrite (src : Src) (val : Nat)
  /-- ADJ_WRITE (R343). -/
  | adjWrite (src : Src) (val : Nat)
  /-- TX_TIMESTAMP_POINT (R350). -/
  | txTimestampPoint (p : Nat)
  /-- TXTSQ_READ (R351). -/
  | txtsqRead (src : Src) (p : Nat)
  /-- PPS_PULSE (R348). -/
  | ppsPulse
  /-- DICT_READ (R358). -/
  | dictRead (p idx sub ofs : Nat)
  /-- DICT_WRITE (R358). -/
  | dictWrite (p idx sub ofs : Nat)
  /-- USDO_REQUEST (R357). -/
  | usdoRequest (c idx sub : Nat) (write : Option (List Byte))
  /-- COE_SDO_REQUEST (R357). -/
  | coeSdoRequest (n idx sub : Nat) (write : Option (List Byte))
  /-- SAFETY_DICT_REQUEST (R357). -/
  | safetyDictRequest (idx sub : Nat) (write : Option (List Byte))
  /-- SLOT_END (R364). -/
  | slotEnd (got : List Nat) (sigOk : Bool)
  /-- STORE_PARAMETERS (R368). -/
  | storeParameters (src : Src)
  /-- STORE_COMPLETE (R368). -/
  | storeComplete (ok : Bool)
  /-- RESTORE_DEFAULTS (R369). -/
  | restoreDefaults (src : Src)
  /-- HOST_DOWN (R376). -/
  | hostDown (got : List Nat)
  /-- FLR (R376). -/
  | flr (fn : Nat) (got : List Nat)
  /-- ECAT_CYCLE_START (R379). -/
  | ecatCycleStart
  /-- ECAT_FRAME_RETURN (R381). -/
  | ecatFrameReturn (f port : Nat) (grams : List (Nat × List Byte))
  /-- ECAT_RETURN_LIMIT (R379). -/
  | ecatReturnLimit
  /-- ECAT_LINK_LOSS (R380). -/
  | ecatLinkLoss (port : Nat) (positions : List Nat)
  /-- SUBDEVICE_ANSWER (R380). -/
  | subdeviceAnswer (n port : Nat)
  /-- IDENTITY_READ_COMPLETE (R380). -/
  | identityReadComplete (n : Nat) (id : Option (Nat × Nat × Nat))
  /-- RETRY_EXPIRE (R380). -/
  | retryExpire (n : Nat)
  /-- RECHECK (R380). -/
  | recheck (n : Nat)
  /-- MBX_READ (R381). -/
  | mbxRead (src : Src) (val : Nat)
  /-- MBX_WRITE (R381). -/
  | mbxWrite (src : Src) (val size : Nat)
  /-- MBX_RESPONSE (R381). -/
  | mbxResponse (abort : Nat) (bytes : List Byte)
  /-- MBX_TIMEOUT (R381). -/
  | mbxTimeout
  /-- FEED_WRITE_COMPLETE (R383). -/
  | feedWriteComplete (f : Nat)
  /-- CAN_BUS_OFF (R384). -/
  | canBusOff (c : Nat)
  /-- CAN_BUS_OFF_RECOVERY (R384). -/
  | canBusOffRecovery (c : Nat)
  /-- CAN_HEARTBEAT (R372). -/
  | canHeartbeat (c : Nat)
  /-- TX_DOORBELL (R387). -/
  | txDoorbell (src : Src) (p val : Nat)
  /-- ETH_FRAME_RECEIVE (R387). -/
  | ethFrameReceive (p : Nat) (f : List Byte)
  /-- HB_WRITE (R393). -/
  | hbWrite (src : Src) (val : Nat)
  /-- HEARTBEAT_CHECK (R393). -/
  | heartbeatCheck
  /-- SAFE_LINE_EDGE (R404). -/
  | safeLineEdge
  /-- GUARDED_FRAME_START (R395). -/
  | guardedFrameStart
  /-- GUARDED_BUFFER_WRITE (R397). -/
  | guardedBufferWrite (src : Src) (off : Nat) (b : List Byte) (poison : Bool)
  /-- OUTPUT_DEADLINE (R398). -/
  | outputDeadline (g : Nat)
  /-- LATCH_REQ (R403). -/
  | latchReq
  /-- RELEASE (R407). -/
  | release (src : Src)
  /-- GET_CERT (R421). -/
  | getCert (p : Nat)
  /-- ATTEST (R439). -/
  | attest (p : Nat) (nonce : List Byte)
  /-- SESSION_OPEN (R423). -/
  | sessionOpen (p : Nat) (request : List Byte)
  /-- SESSION_FINISH (R423). -/
  | sessionFinish (p : Nat)
  /-- SESSION_CLOSE (R423). -/
  | sessionClose (p : Nat) (a : Auth)
  /-- PART_PROTECT (R424). -/
  | partProtect (p : Nat) (a : Auth) (request : List Byte)
  /-- PART_RELEASE (R430). -/
  | partRelease (p : Nat) (a : Option Auth) (q : Nat)
  /-- CLEAR_START (R430). -/
  | clearStart (q : Nat)
  /-- CLEAR_COMPLETE (R430). -/
  | clearComplete (q : Nat)
  /-- KEY_IMPORT (R428). -/
  | keyImport (p : Nat) (a : Auth) (slot q : Nat) (blob : List Byte)
  /-- KEY_DESTROY (R428). -/
  | keyDestroy (p : Nat) (a : Auth) (slot : Nat)
  /-- MODEL_LOAD (R429). -/
  | modelLoad (p : Nat) (a : Auth) (slot imageId : Nat) (t3 : Bool) (src tags dst count : Nat)
  /-- COLLECT (R422). -/
  | collect (p id : Nat)
  /-- GET_NONCE (R421). -/
  | getNonce (p : Nat)
  /-- DEBUG_ENABLE (R434). -/
  | debugEnable (p : Nat) (tokenOk : Bool)
  /-- CFGKEY_FUSE (R418). -/
  | cfgkeyFuse (p slot : Nat) (revoke : Bool) (digest : Nat) (sigOk : Bool)
  /-- DEFECT_CLEAR (R478). -/
  | defectClear (p : Nat) (a : Auth) (tokenOk : Bool)
  /-- DICT (R421). -/
  | dict (p : Nat) (a : Auth) (idx sub : Nat) (write : Option (List Byte))
  /-- REGREAD (R421). -/
  | regread (p : Nat) (a : Auth) (addrs : List Nat)
  /-- MAILBOX_ANSWER (R420). -/
  | mailboxAnswer (p : Nat)
  /-- TICKET_OP_COMPLETE (R422). -/
  | ticketOpComplete (id : Nat) (ok : Bool)
  /-- TICKET_EXPIRE (R422). -/
  | ticketExpire (id : Nat)
  /-- SESSION_TIMEOUT (R423). -/
  | sessionTimeout (id : Nat)
  /-- DENIED_RESPONSE (R436). -/
  | deniedResponse (dict : Bool) (a b : Nat)
  /-- LOSS_OF_LOCK (R449). -/
  | lossOfLock
  /-- PLL_LOCK (R449). -/
  | pllLock
  /-- DIVIDER_RESTART (R449). -/
  | dividerRestart
  /-- RELOCK_TIMEOUT (R451). -/
  | relockTimeout
  /-- POWER_SAMPLE (R456). -/
  | powerSample (rails : List Reading)
  /-- PMB_ALERT (R457). -/
  | pmbAlert (status : List Nat) (overcurrent underVolt : Nat)
  /-- AVS_STEP_COMPLETE (R452). -/
  | avsStepComplete (n : Nat)
  /-- MATRIX_IDLE_TIMEOUT (R453). -/
  | matrixIdleTimeout (n : Nat)
  /-- HINT_WRITE (R454). -/
  | hintWrite (src : Src) (n val : Nat)
  /-- HINT_EXPIRE (R454). -/
  | hintExpire (n : Nat)
  /-- THERMAL_EVAL (R460). -/
  | thermalEval (readings : List (Option Int)) (got : List Nat)
  /-- THROTTLE_STEP (R460). -/
  | throttleStep
  /-- IMAGE (R489). -/
  | image (src : Src) (unit : Nat) (image : List Byte) (sigOk : Bool)
  /-- IMAGE_STAGE_COMPLETE (R489). -/
  | imageStageComplete (unit : Nat) (ok : Bool)
  /-- ACTIVATE (R491). -/
  | activate (src : Src) (unit val : Nat)
  /-- ACTIVATE_COMPLETE (R491). -/
  | activateComplete (unit unverified : Nat)
  /-- ADMIT_COMPLETE (R280). -/
  | admitComplete (ok : Bool) (half : List Nat)
  /-- VDD_IO18_LOSS (R404). -/
  | vddIo18Loss
  /-- VDD_IO18_APPLY (R501). -/
  | vddIo18Apply
  /-- SRDO_TRANSMIT (R405). -/
  | srdoTransmit (n : Nat)
  deriving DecidableEq, Repr

end Sys2Proof
end

