-- ==== Sys2Proof/WellFormed.lean ====
section
/-! DEFINITION. Which commands are well formed: every operand lies within the range that the spec gives what it names. The meanings are
total and do not rely on it: a command out of range changes nothing but what its meaning says. -/

namespace Sys2Proof

/-- Is an operand below its bound? -/
def below (v bound : Nat) : Bool := decide (v < bound)

/-- A requester that exists: 64 virtual functions (R375), four Onyx dies (R15). -/
def Src.wf : Src → Bool
  | .vf v => below v 64
  | .onyx n => below n 4
  | _ => true

/-- Errors are named by sector: multiples of 256 of the 52-bit address space (R57, R77). -/
def ReadErrs.wf (e : ReadErrs) : Bool :=
  (e.uncorrectable ++ e.corrected).all (fun a => below a (2 ^ 52) && a % 256 == 0)

/-- The nodes are 0 to 5, the skip ratios at most 16, the firmware slots 8 (R446, R473, R475). -/
def TestResult.wf (r : TestResult) : Bool := below r.bad 64 && r.speeds.all (fun k => below k 17) && below r.unverified 256

/-- Is the command well formed? -/
def Instr.wf : Instr → Bool
  | .vddAonApply => true
  | .vddAonLoss => true
  | .buResetNAssert => true
  | .buResetNDeassert => true
  | .refclkLoss => true
  | .registerWrite src a val => src.wf && below a (2 ^ 52) && below val (2 ^ 64)
  | .domains arg => below arg (2 ^ 56)
  | .domainSwitchDone => true
  | .rootPll arg _ => below arg (2 ^ 56)
  | .fuseLoad arg _ bad => below arg (2 ^ 56) && below bad (2 ^ 6)
  | .startTest arg r => below arg (2 ^ 56) && r.wf
  | .fmax arg r => below arg (2 ^ 56) && r.wf
  | .discover arg trained half info => below arg (2 ^ 56) && below trained (2 ^ 9) && below half (2 ^ 9) && below info (2 ^ 6)
  | .fwLoad arg unverified => below arg (2 ^ 56) && below unverified (2 ^ 8)
  | .cfgLoad arg sigOk => below arg (2 ^ 56) && below sigOk 4
  | .inject arg pass => below arg (2 ^ 56) && below pass (2 ^ 6)
  | .outputEnable arg => below arg (2 ^ 56)
  | .buStepComplete => true
  | .buQueuedRequestStart _ => true
  | .domainRequest src val => src.wf && below val (2 ^ 16)
  | .resetRequest src val => src.wf && below val (2 ^ 32)
  | .coreReset arg _ => below arg (2 ^ 56)
  | .dieReset arg _ => below arg (2 ^ 56)
  | .partitionReset arg => below arg (2 ^ 56)
  | .packageReset arg => below arg (2 ^ 56)
  | .resetDrainTimeout _ => true
  | .resetComplete r => r.wf
  | .shutdown arg => below arg (2 ^ 56)
  | .quiesceEnd => true
  | .regionBistComplete d _ => below d 44
  | .shutdownOff => true
  | .shutdownAbort => true
  | .copy c seq errs bad => below c 512 && below seq (2 ^ 32) && errs.wf && bad.all (fun v => v % 256 == 0)
  | .broadcastCopy c seq errs => below c 512 && below seq (2 ^ 32) && errs.wf
  | .fill c seq bad => below c 512 && below seq (2 ^ 32) && bad.all (fun v => v % 256 == 0)
  | .flush c seq errs => below c 512 && below seq (2 ^ 32) && errs.wf
  | .evict c seq errs => below c 512 && below seq (2 ^ 32) && errs.wf
  | .discard c seq => below c 512 && below seq (2 ^ 32)
  | .prefetch c seq errs => below c 512 && below seq (2 ^ 32) && errs.wf
  | .wayflush c seq errs => below c 512 && below seq (2 ^ 32) && errs.wf
  | .tileStart node => below node 4
  | .tileComplete c seq index errs bad =>
      below c 512 && below seq (2 ^ 32) && below index (2 ^ 13) && errs.wf && bad.all (fun v => v % 256 == 0)
  | .t3Timeout c seq index received =>
      below c 512 && below seq (2 ^ 32) && below index (2 ^ 13) && received.all (fun v => v % 256 == 0)
  | .patrolScrub node sector found => below node 4 && below sector (2 ^ 28) && below found 3
  | .waymodeWrite src node val => src.wf && below node 4 && below val (2 ^ 64)
  | .matmul node errs => below node 4 && errs.wf
  | .scanOnly node errs => below node 4 && errs.wf
  | .conv node errs => below node 4 && errs.wf
  | .dwconv node errs => below node 4 && errs.wf
  | .poolAvg node errs => below node 4 && errs.wf
  | .poolMax node errs => below node 4 && errs.wf
  | .tconv node errs => below node 4 && errs.wf
  | .relayout node errs => below node 4 && errs.wf
  | .add node errs => below node 4 && errs.wf
  | .mul node errs => below node 4 && errs.wf
  | .fma node errs => below node 4 && errs.wf
  | .max node errs => below node 4 && errs.wf
  | .min node errs => below node 4 && errs.wf
  | .cvt node errs => below node 4 && errs.wf
  | .act node errs => below node 4 && errs.wf
  | .rsum node errs => below node 4 && errs.wf
  | .rmax node errs => below node 4 && errs.wf
  | .softmax node errs => below node 4 && errs.wf
  | .rmsnorm node errs => below node 4 && errs.wf
  | .layernorm node errs => below node 4 && errs.wf
  | .padd node errs => below node 4 && errs.wf
  | .pround node errs => below node 4 && errs.wf
  | .issuecapWrite src node val => src.wf && below node 4 && below val (2 ^ 64)
  | .score node errs => below node 4 && errs.wf
  | .value node errs => below node 4 && errs.wf
  | .kvWrite node errs => below node 4 && errs.wf
  | .kvAlloc node errs => below node 4 && errs.wf
  | .kvMark node errs => below node 4 && errs.wf
  | .kvSeal node errs => below node 4 && errs.wf
  | .kvDrop node errs => below node 4 && errs.wf
  | .kvFree node errs => below node 4 && errs.wf
  | .kvAdopt node errs => below node 4 && errs.wf
  | .kvPin node errs => below node 4 && errs.wf
  | .kvpoolWrite src node p val => src.wf && below node 4 && below p 16 && below val (2 ^ 64)
  | .kvpoolInitDone node p => below node 4 && below p 16
  | .biasTableWrite src node off val => src.wf && below node 4 && below off (2 ^ 20) && below val (2 ^ 64)
  | .scan node errs => below node 4 && errs.wf
  | .streamOpen node errs => below node 4 && errs.wf
  | .streamClose node => below node 4
  | .streamDoorbell src node slot val => src.wf && below node 4 && below slot 8 && below val (2 ^ 64)
  | .streamStep node => below node 4
  | .streamStepComplete node errs => below node 4 && errs.wf
  | .map node errs => below node 4 && errs.wf
  | .gmul node errs => below node 4 && errs.wf
  | .decay node errs => below node 4 && errs.wf
  | .gateTableWrite src node off val => src.wf && below node 4 && below off (2 ^ 20) && below val (2 ^ 64)
  | .factor node errs => below node 4 && errs.wf
  | .solve node errs => below node 4 && errs.wf
  | .update node errs => below node 4 && errs.wf
  | .trsolve node errs => below node 4 && errs.wf
  | .integrate node errs => below node 4 && errs.wf
  | .commit node => below node 4
  | .commitWaitEnd node errs => below node 4 && errs.wf
  | .point node pipe errs => below node 4 && below pipe 4 && errs.wf
  | .edge node pipe errs => below node 4 && below pipe 4 && errs.wf
  | .repair node pipe errs => below node 4 && below pipe 4 && errs.wf
  | .tree node errs => below node 4 && errs.wf
  | .roadmap node errs => below node 4 && errs.wf
  | .prim node errs => below node 4 && errs.wf
  | .mapcfgWrite src node m reg val => src.wf && below node 4 && below m 4 && below reg 3 && below val (2 ^ 64)
  | .mapInitDone node m => below node 4 && below m 4
  | .commandFetch c errs => below c 512 && errs.wf
  | .sqFetchFail c _ => below c 512
  | .commandDispatch node inst => below node 4 && below inst 13
  | .preemptionPoint node inst units errs => below node 4 && below inst 13 && decide (0 < units) && below units (2 ^ 64) && errs.wf
  | .commandComplete c seq => below c 512 && below seq (2 ^ 32)
  | .t0Switch node core r => below node 4 && below core 4 && r.errs.wf && r.t3.all (fun e => below e.1 255)
  | .t0SwitchComplete node core => below node 4 && below core 4
  | .ctxDb src c val => src.wf && below c 512 && below val (2 ^ 64)
  | .ctxEnable src c => src.wf && below c 512
  | .ctxHalt src c => src.wf && below c 512
  | .ctxResume src c => src.wf && below c 512
  | .ctxAbort src c => src.wf && below c 512
  | .ctxDisable src c => src.wf && below c 512
  | .evqWrite src ring val => src.wf && below ring 17 && below val (2 ^ 64)
  | .partCfgWrite src p val => src.wf && below p 16 && below val (2 ^ 64)
  | .rsvWrite src val => src.wf && below val (2 ^ 64)
  | .packetCrcError l _ _ _ => below l 9
  | .linkDown l _ => below l 9
  | .packetAuthFail c seq index j errs => below c 512 && below seq (2 ^ 32) && below index (2 ^ 13) && below j (2 ^ 8) && errs.wf
  | .heartbeatSend => true
  | .heartbeatAnswer n => below n 4
  | .lossTimeout n _ => below n 4
  | .uncoreFatal n _ => below n 4
  | .fence src val _ => src.wf && below val (2 ^ 64)
  | .fenceDrainEnd _ => true
  | .admitDie src val => src.wf && below val (2 ^ 64)
  | .epochRelease => true
  | .csiFrameStart p f => below p 12 && below f.vc 4 && below f.no (2 ^ 16)
  | .csiFrameEnd p _ f => below p 12 && below f.vc 4 && f.packets.all (fun l => below l.1 64)
  | .frameReady p => below p 12
  | .frameMissing p => below p 12
  | .claim src p => src.wf && below p 12
  | .releaseBuffer src p val => src.wf && below p 12 && below val (2 ^ 64)
  | .exclude src val => src.wf && below val (2 ^ 64)
  | .readmit src val => src.wf && below val (2 ^ 64)
  | .camcfgWrite src p reg val => src.wf && below p 12 && below reg 2 && below val (2 ^ 64)
  | .snap src mask _ => src.wf && below mask (2 ^ 12)
  | .snapHeldRun => true
  | .imuDrdy unit => below unit 4
  | .imuBurstComplete unit _ => below unit 4
  | .imucfgWrite src unit val => src.wf && below unit 4 && below val (2 ^ 64)
  | .encoderEdge e _ => below e 8
  | .egoTick => true
  | .egoEval => true
  | .egocfgWrite src val => src.wf && below val (2 ^ 64)
  | .apply => true
  | .sampleBoundary sps vms desat => sps.length == 32 && vms.length == 32 && below desat (2 ^ 32)
  | .comparatorCrossing c _ _ _ => below c 32
  | .switchBlockEnd c _ _ => below c 32
  | .deadtimeEnd c _ => below c 32
  | .crowbarTrip m => below m.chan 32
  | .desatTrip d => below d.chan 32 && below d.held (2 ^ 32)
  | .spEdge c high period _ => below c 32 && below high (2 ^ 32) && below period (2 ^ 32)
  | .spLost c => below c 32
  | .arm src mask => src.wf && below mask (2 ^ 32)
  | .disarm src mask => src.wf && below mask (2 ^ 32)
  | .rearm src mask => src.wf && below mask (2 ^ 32)
  | .swap src val => src.wf && below val (2 ^ 64)
  | .brlChTrimWrite src c val => src.wf && below c 32 && below val (2 ^ 64)
  | .nowRead src => src.wf
  | .ptpSample port clock domain t2 t1 _ =>
      below port 2 && below clock (2 ^ 64) && below domain 128 && below t2 (2 ^ 64) && below t1 (2 ^ 64)
  | .swsample src val => src.wf && below val (2 ^ 64)
  | .modeWrite src val => src.wf && below val (2 ^ 64)
  | .masterWrite src val => src.wf && below val (2 ^ 64)
  | .accept src => src.wf
  | .holdoverTimeout => true
  | .rateWrite src val => src.wf && below val (2 ^ 64)
  | .adjWrite src val => src.wf && below val (2 ^ 64)
  | .txTimestampPoint p => below p 2
  | .txtsqRead src p => src.wf && below p 2
  | .ppsPulse => true
  | .dictRead p idx sub ofs => below p 2 && below idx (2 ^ 16) && below sub (2 ^ 8) && below ofs (2 ^ 24)
  | .dictWrite p idx sub ofs => below p 2 && below idx (2 ^ 16) && below sub (2 ^ 8) && below ofs (2 ^ 24)
  | .usdoRequest c idx sub _ => below c 2 && below idx (2 ^ 16) && below sub (2 ^ 8)
  | .coeSdoRequest n idx sub _ => below n 128 && below idx (2 ^ 16) && below sub (2 ^ 8)
  | .safetyDictRequest idx sub _ => below idx (2 ^ 16) && below sub (2 ^ 8)
  | .slotEnd _ _ => true
  | .storeParameters src => src.wf
  | .storeComplete _ => true
  | .restoreDefaults src => src.wf
  | .hostDown _ => true
  | .flr fn _ => below fn 66
  | .ecatCycleStart => true
  | .ecatFrameReturn f port _ => below f 4 && below port 2
  | .ecatReturnLimit => true
  | .ecatLinkLoss port positions => below port 2 && positions.all (fun v => below v 128)
  | .subdeviceAnswer n port => below n 128 && below port 2
  | .identityReadComplete n _ => below n 128
  | .retryExpire n => below n 128
  | .recheck n => below n 128
  | .mbxRead src val => src.wf && below val (2 ^ 64)
  | .mbxWrite src val size => src.wf && below val (2 ^ 64) && below size (2 ^ 24)
  | .mbxResponse abort _ => below abort (2 ^ 32)
  | .mbxTimeout => true
  | .feedWriteComplete f => below f 4
  | .canBusOff c => below c 2
  | .canBusOffRecovery c => below c 2
  | .canHeartbeat c => below c 2
  | .txDoorbell src p val => src.wf && below p 2 && below val (2 ^ 64)
  | .ethFrameReceive p f => below p 2 && decide (f.length ≤ 9216)
  | .hbWrite src val => src.wf && below val (2 ^ 64)
  | .heartbeatCheck => true
  | .safeLineEdge => true
  | .guardedFrameStart => true
  | .guardedBufferWrite src off _ _ => src.wf && below off (2 ^ 20)
  | .outputDeadline g => below g 32
  | .latchReq => true
  | .release src => src.wf
  | .getCert p => below p 2
  | .attest p nonce => below p 2 && nonce.length == 48
  | .sessionOpen p request => below p 2 && decide (request.length ≤ 4095)
  | .sessionFinish p => below p 2
  | .sessionClose p a => below p 2 && below a.counter (2 ^ 64)
  | .partProtect p a request => below p 2 && below a.counter (2 ^ 64) && decide (request.length ≤ 4095)
  | .partRelease p _ q => below p 2 && below q 16
  | .clearStart q => below q 16
  | .clearComplete q => below q 16
  | .keyImport p a slot q blob =>
      below p 2 && below a.counter (2 ^ 64) && below slot 32 && below q 16 && decide (blob.length ≤ 4095)
  | .keyDestroy p a slot => below p 2 && below a.counter (2 ^ 64) && below slot 32
  | .modelLoad p a slot imageId _ src tags dst count =>
      below p 2 && below a.counter (2 ^ 64) && below slot 32 && below imageId (2 ^ 32) && below src (2 ^ 64)
      && below tags (2 ^ 64) && below dst (2 ^ 52) && below count (2 ^ 21)
  | .collect p id => below p 2 && below id (2 ^ 32)
  | .getNonce p => below p 2
  | .debugEnable p _ => below p 2
  | .cfgkeyFuse p slot _ digest _ => below p 2 && below slot 4 && below digest (2 ^ 384)
  | .defectClear p a _ => below p 2 && below a.counter (2 ^ 64)
  | .dict p a idx sub _ => below p 2 && below a.counter (2 ^ 64) && below idx (2 ^ 16) && below sub (2 ^ 8)
  | .regread p a addrs => below p 2 && below a.counter (2 ^ 64) && addrs.all (fun v => below v (2 ^ 52))
  | .mailboxAnswer p => below p 2
  | .ticketOpComplete _ _ => true
  | .ticketExpire _ => true
  | .sessionTimeout _ => true
  | .deniedResponse _ a b => below a 512 && below b (2 ^ 32)
  | .lossOfLock => true
  | .pllLock => true
  | .dividerRestart => true
  | .relockTimeout => true
  | .powerSample rails => rails.length == 12
  | .pmbAlert status overcurrent underVolt =>
      status.all (fun v => below v 256) && below overcurrent (2 ^ 12) && below underVolt (2 ^ 12)
  | .avsStepComplete n => below n 4
  | .matrixIdleTimeout n => below n 4
  | .hintWrite src n val => src.wf && below n 4 && below val (2 ^ 64)
  | .hintExpire n => below n 4
  | .thermalEval readings _ => readings.length == 40
  | .throttleStep => true
  | .image src unit _ _ => src.wf && below unit 5
  | .imageStageComplete unit _ => below unit 5
  | .activate src unit val => src.wf && below unit 5 && below val (2 ^ 8)
  | .activateComplete unit unverified => below unit 5 && below unverified (2 ^ 8)
  | .admitComplete _ half => half.all (fun v => below v 9)
  | .vddIo18Loss => true
  | .vddIo18Apply => true
  | .srdoTransmit n => below n 65

end Sys2Proof
end

