-- ==== Sys2Proof/Decode.lean ====
section
/-! DEFINITION. The package is a block: its commands come as register writes, requests and events, and no row of the table gives its
command an encoding. -/

namespace Sys2Proof

/-- The command that a word spells by the table's bits: no row has bits. -/
def decodeTableWord (_nbits _w : Nat) : Option Instr := none

end Sys2Proof
end

