-- ==== Sys2Proof/Machine/Tab.lean ====
section
/-! DEFINITION. Operations of sparse tables (sorted key and value lists), bit fields and byte order. -/

namespace Sys2Proof.Machine

/-- The value a table holds at `k`, or `d` where it lists none. -/
def tget {α : Type} (d : α) : Tab α → Nat → α
  | [], _ => d
  | (k', v) :: t, k => if k' = k then v else tget d t k

/-- Is the key listed? -/
def thas {α : Type} : Tab α → Nat → Bool
  | [], _ => false
  | (k', _) :: t, k => k' == k || thas t k

/-- The value listed at `k`, if any. -/
def tfind {α : Type} : Tab α → Nat → Option α
  | [], _ => none
  | (k', v) :: t, k => if k' = k then some v else tfind t k

/-- List `v` at `k`, keeping the keys rising. -/
def tset {α : Type} : Tab α → Nat → α → Tab α
  | [], k, v => [(k, v)]
  | (k', v') :: t, k, v =>
    if k < k' then (k, v) :: (k', v') :: t
    else if k' = k then (k, v) :: t
    else (k', v') :: tset t k v

/-- Take `k` off the table. -/
def tdel {α : Type} : Tab α → Nat → Tab α
  | [], _ => []
  | (k', v') :: t, k => if k' = k then tdel t k else (k', v') :: tdel t k

/-- Store `v` at `k` in a table whose unlisted keys read as `d`: writing `d` takes the entry off. -/
def tput {α : Type} [DecidableEq α] (d : α) (t : Tab α) (k : Nat) (v : α) : Tab α :=
  if v = d then tdel t k else tset t k v

/-- Keep the entries whose key satisfies `p`. -/
def tkeep {α : Type} (p : Nat → Bool) (t : Tab α) : Tab α := t.filter (fun e => p e.1)

/-- Keys strictly rising. -/
def tsorted {α : Type} : Tab α → Bool
  | [] => true
  | [_] => true
  | (a, _) :: (b, v) :: t => decide (a < b) && tsorted ((b, v) :: t)

/-- The bits `[lo + w - 1 : lo]` of `v` (R5). -/
def bits (v lo w : Nat) : Nat := v / 2 ^ lo % 2 ^ w

/-- Bit `i` of `v`. -/
def bit (v i : Nat) : Bool := v / 2 ^ i % 2 == 1

/-- `v` with bit `i` set to `b`. -/
def setBit (v i : Nat) (b : Bool) : Nat :=
  v - v / 2 ^ i % 2 * 2 ^ i + (if b then 2 ^ i else 0)

/-- A Boolean as the bit it is read as. -/
def b2n (b : Bool) : Nat := if b then 1 else 0

/-- Two's complement reading of a `w`-bit value. -/
def sx (w v : Nat) : Int := if 2 ^ (w - 1) ≤ v % 2 ^ w then (v % 2 ^ w : Nat) - (2 ^ w : Nat) else (v % 2 ^ w : Nat)

/-- The `w`-bit two's complement pattern of an integer. -/
def ux (w : Nat) (i : Int) : Nat := (i % (2 ^ w : Nat)).toNat

/-- A count that saturates at the largest `w`-bit value (the counters of R70, R83 and others). -/
def satAdd (w a b : Nat) : Nat := min (a + b) (2 ^ w - 1)

/-- Least significant byte first (R511): the value of a run of bytes. -/
def leVal : List Byte → Nat
  | [] => 0
  | b :: t => b.toNat + 256 * leVal t

/-- The `n` bytes of a value, least significant first (R511). -/
def leBytes : Nat → Nat → List Byte
  | 0, _ => []
  | n + 1, v => BitVec.ofNat 8 v :: leBytes n (v / 256)

/-- A value saturated into `[lo, hi]`. -/
def clampI (lo hi i : Int) : Int := if i < lo then lo else if hi < i then hi else i

/-- `⌈a / b⌉`. -/
def cdiv (a b : Nat) : Nat := (a + b - 1) / b

/-- Position of the highest set bit, plus one (0 for 0). -/
def bitLen (n : Nat) : Nat := if n = 0 then 0 else Nat.log2 n + 1

/-- The bits of a mask, as the list of their positions below `n`. -/
def maskList (n m : Nat) : List Nat := (List.range n).filter (fun i => bit m i)

/-- The mask with the listed bits set. -/
def maskOf (l : List Nat) : Nat := l.foldl (fun m i => if bit m i then m else m + 2 ^ i) 0

/-- Insert into a sorted list without repeats. -/
def sinsert : List Nat → Nat → List Nat
  | [], k => [k]
  | a :: t, k => if k < a then k :: a :: t else if a = k then a :: t else a :: sinsert t k

/-- Take a key off a sorted list. -/
def sdel (l : List Nat) (k : Nat) : List Nat := l.filter (fun a => a != k)

/-- Replace the element at index `i`. -/
def lset {α : Type} : List α → Nat → α → List α
  | [], _, _ => []
  | _ :: t, 0, v => v :: t
  | a :: t, i + 1, v => a :: lset t i v

/-- The element at index `i`, or `d`. -/
def lget {α : Type} (d : α) : List α → Nat → α
  | [], _ => d
  | a :: _, 0 => a
  | _ :: t, i + 1 => lget d t i

end Sys2Proof.Machine
end

