-- ==== Sys2Proof/Machine/Fp.lean ====
section
/-! DEFINITION. Exact numbers and correctly rounded floating point: the formats of R32, the rounding of R43 and R44,
and the fp32 operations that the vector unit, the solver, the gate unit, the ego integrator and the time servo use. -/

namespace Sys2Proof.Machine

/-- An exact value: NaN, an infinity, or `(-1)^neg × m × 2^e`. -/
inductive Num where
  | nan
  | inf (neg : Bool)
  | fin (neg : Bool) (m : Nat) (e : Int)
  deriving DecidableEq, Repr

/-- A floating-point format: significand bits `p` (hidden bit counted), exponent `emin` of the least subnormal, the
patterns of the largest finite value, of infinity and of the delivered NaN (R44, R512), and the place of the sign. -/
structure FloatFmt where
  p : Nat
  emin : Int
  maxBits : Nat
  infBits : Nat
  nanBits : Nat
  signPos : Nat
  deriving DecidableEq, Repr

def fp32 : FloatFmt := ⟨24, -149, 0x7F7FFFFF, 0x7F800000, 0x7FC00000, 31⟩
def bf16 : FloatFmt := ⟨8, -133, 0x7F7F, 0x7F80, 0x7FC0, 15⟩
def fp16 : FloatFmt := ⟨11, -24, 0x7BFF, 0x7C00, 0x7E00, 15⟩
/-- E4M3 has no infinity: an infinite result is delivered as the largest finite value (R44). -/
def e4m3 : FloatFmt := ⟨4, -9, 0x7E, 0x7E, 0x7F, 7⟩
def e5m2 : FloatFmt := ⟨3, -16, 0x7B, 0x7C, 0x7F, 7⟩

/-- Round a magnitude `m × 2^e` of sign `neg` to `p` significant bits, never below weight `2^emin`, in a mode of R36:
0 nearest even, 1 toward zero, 2 toward +∞, 3 toward −∞. Answers the rounded integer and its weight's exponent. -/
def roundMag (p : Nat) (emin : Int) (mode : Nat) (neg : Bool) (m : Nat) (e : Int) : Nat × Int :=
  let q := max ((bitLen m : Int) + e - p) emin
  if q ≤ e then (m * 2 ^ (e - q).toNat, q)
  else
    let s := (q - e).toNat
    let r := m / 2 ^ s
    let rem := m % 2 ^ s
    let up := match mode with
      | 0 => decide (2 ^ (s - 1) < rem) || (rem == 2 ^ (s - 1) && r % 2 == 1)
      | 1 => false
      | 2 => rem != 0 && !neg
      | _ => rem != 0 && neg
    (if up then r + 1 else r, q)

/-- The pattern of a magnitude in a format, its exponent range taken as unbounded above. -/
def FloatFmt.pack (f : FloatFmt) (mode : Nat) (neg : Bool) (m : Nat) (e : Int) : Nat :=
  if m = 0 then 0 else
    let r := roundMag f.p f.emin mode neg m e
    (r.2 - f.emin).toNat * 2 ^ (f.p - 1) + r.1

/-- A pattern with its sign. -/
def FloatFmt.sign (f : FloatFmt) (neg : Bool) (b : Nat) : Nat := if neg then b + 2 ^ f.signPos else b

/-- What a finite overflow becomes without saturation: infinity or the largest finite value, as IEEE 754-2019 has
it for the mode (R44). -/
def overflowToInf (mode : Nat) (neg : Bool) : Bool :=
  match mode with
  | 0 => true
  | 1 => false
  | 2 => !neg
  | _ => neg

/-- Round an exact value into a format under R43 and R44. The flag says that a finite overflow was delivered as a
finite value (R45). `sat` is SAT_INF; formats without infinity always saturate. -/
def FloatFmt.deliver (f : FloatFmt) (mode : Nat) (sat : Bool) : Num → Nat × Bool
  | .nan => (f.nanBits, false)
  | .inf neg => (f.sign neg f.infBits, false)
  | .fin neg m e =>
    let b := f.pack mode neg m e
    if b ≤ f.maxBits then (f.sign neg b, false)
    else if sat || f.p < 8 || !overflowToInf mode neg then (f.sign neg f.maxBits, true)
    else (f.sign neg f.infBits, false)

/-- Read a pattern of a format. `ieee` says whether an all-ones exponent holds infinities (E4M3: only S.1111.111 is
special, and it is NaN). -/
def FloatFmt.decode (f : FloatFmt) (b : Nat) : Num :=
  let neg := bit b f.signPos
  let mag := b % 2 ^ f.signPos
  let ex := mag / 2 ^ (f.p - 1)
  let fr := mag % 2 ^ (f.p - 1)
  if f.p = 4 then
    if mag = 0x7F then .nan
    else if ex = 0 then .fin neg fr f.emin else .fin neg (2 ^ (f.p - 1) + fr) (f.emin + ex - 1)
  else if f.infBits ≤ mag then (if mag = f.infBits then .inf neg else .nan)
  else if ex = 0 then .fin neg fr f.emin
  else .fin neg (2 ^ (f.p - 1) + fr) (f.emin + ex - 1)

/-- Unbiased exponent of an element of an IEEE-like format; the least normal exponent for subnormals (R38). -/
def FloatFmt.exponent (f : FloatFmt) (b : Nat) : Int :=
  let ex := b % 2 ^ f.signPos / 2 ^ (f.p - 1)
  f.emin + (f.p - 1 : Nat) + (if ex = 0 then 0 else (ex : Int) - 1)

/-- The signed integer of a finite value at weight `2^e0` (`e0` at most its exponent). -/
def scaled (neg : Bool) (m : Nat) (e e0 : Int) : Int :=
  let v : Int := (m * 2 ^ (e - e0).toNat : Nat)
  if neg then -v else v

/-- A signed integer times `2^e` as a number; zero is +0. -/
def Num.ofInt (i : Int) (e : Int) : Num := .fin (decide (i < 0)) i.natAbs e

def Num.isZero : Num → Bool
  | .fin _ m _ => m == 0
  | _ => false

def Num.isNan : Num → Bool
  | .nan => true
  | _ => false

def Num.isFinite : Num → Bool
  | .fin .. => true
  | _ => false

def Num.neg : Num → Num
  | .nan => .nan
  | .inf s => .inf (!s)
  | .fin s m e => .fin (!s) m e

def Num.abs : Num → Num
  | .nan => .nan
  | .inf _ => .inf false
  | .fin _ m e => .fin false m e

/-- Exact sum (IEEE special values; an exact zero sum is +0 unless both terms are negative zero). -/
def Num.add : Num → Num → Num
  | .nan, _ => .nan
  | _, .nan => .nan
  | .inf a, .inf b => if a = b then .inf a else .nan
  | .inf a, .fin .. => .inf a
  | .fin .., .inf b => .inf b
  | .fin s m e, .fin s' m' e' =>
    let e0 := min e e'
    let i := scaled s m e e0 + scaled s' m' e' e0
    if i = 0 then .fin (m == 0 && m' == 0 && s && s') 0 e0 else .ofInt i e0

def Num.sub (a b : Num) : Num := a.add b.neg

/-- Exact product. -/
def Num.mul : Num → Num → Num
  | .nan, _ => .nan
  | _, .nan => .nan
  | .inf a, .inf b => .inf (a != b)
  | .inf a, .fin s m _ => if m = 0 then .nan else .inf (a != s)
  | .fin s m _, .inf b => if m = 0 then .nan else .inf (s != b)
  | .fin s m e, .fin s' m' e' => .fin (s != s') (m * m') (e + e')

/-- Exact multiplication by a power of two. -/
def Num.shift (n : Num) (k : Int) : Num :=
  match n with
  | .fin s m e => .fin s m (e + k)
  | x => x

/-- Quotient, with enough digits and a sticky digit that any rounding of at most 60 bits is correct. -/
def Num.div : Num → Num → Num
  | .nan, _ => .nan
  | _, .nan => .nan
  | .inf _, .inf _ => .nan
  | .inf a, .fin s _ _ => .inf (a != s)
  | .fin s _ _, .inf b => .fin (s != b) 0 0
  | .fin s m e, .fin s' m' e' =>
    if m' = 0 then (if m = 0 then .nan else .inf (s != s'))
    else
      let k := 64 + bitLen m'
      let n := m * 2 ^ k
      .fin (s != s') (2 * (n / m') + (if n % m' = 0 then 0 else 1)) (e - e' - k - 1)

/-- Integer square root, digit by digit. -/
def isqrtAux : Nat → Nat → Nat → Nat
  | 0, _, r => r
  | i + 1, n, r => if (r + 2 ^ i) * (r + 2 ^ i) ≤ n then isqrtAux i n (r + 2 ^ i) else isqrtAux i n r

/-- `⌊√n⌋`. -/
def isqrt (n : Nat) : Nat := isqrtAux (bitLen n / 2 + 1) n 0

/-- Square root, with enough digits and a sticky digit for a correct rounding of at most 60 bits; NaN below zero. -/
def Num.sqrt : Num → Num
  | .nan => .nan
  | .inf neg => if neg then .nan else .inf false
  | .fin neg m e =>
    if m = 0 then .fin neg 0 0
    else if neg then .nan
    else
      let odd := e % 2 = 1
      let n := m * 2 ^ (if odd then 129 else 128)
      let e' : Int := if odd then (e - 129) / 2 else (e - 128) / 2
      let r := isqrt n
      .fin false (2 * r + (if r * r = n then 0 else 1)) (e' - 1)

/-- `a < b` of finite or infinite values; false when either is NaN. -/
def Num.lt : Num → Num → Bool
  | .nan, _ => false
  | _, .nan => false
  | .inf a, .inf b => a && !b
  | .inf a, .fin .. => a
  | .fin .., .inf b => !b
  | .fin s m e, .fin s' m' e' =>
    let e0 := min e e'
    decide (scaled s m e e0 < scaled s' m' e' e0)

def Num.le (a b : Num) : Bool := !a.isNan && !b.isNan && !(b.lt a)

/-- The largest integer at most a finite value (0 for others, which no caller passes). -/
def Num.floor : Num → Int
  | .fin s m e =>
    if 0 ≤ e then (if s then -((m * 2 ^ e.toNat : Nat) : Int) else ((m * 2 ^ e.toNat : Nat) : Int))
    else (if s then -(cdiv m (2 ^ (-e).toNat) : Nat) else (m / 2 ^ (-e).toNat : Nat))
  | _ => 0

/-- The nearest integer of a finite value, ties to even. -/
def Num.roundInt (mode : Nat) : Num → Int
  | .fin s m e =>
    if 0 ≤ e then (if s then -((m * 2 ^ e.toNat : Nat) : Int) else ((m * 2 ^ e.toNat : Nat) : Int))
    else
      let r := (roundMag (bitLen m + 1) 0 mode s m e).1
      if s then -(r : Int) else (r : Int)
  | _ => 0

/-! fp32 operations on patterns: each exact result rounded once, to nearest even, with gradual underflow and the NaN
pattern of R512. -/

def f32 (n : Num) : Nat := (fp32.deliver 0 false n).1
def f32num (b : Nat) : Num := fp32.decode (b % 2 ^ 32)
def f32add (a b : Nat) : Nat := f32 ((f32num a).add (f32num b))
def f32sub (a b : Nat) : Nat := f32 ((f32num a).sub (f32num b))
def f32mul (a b : Nat) : Nat := f32 ((f32num a).mul (f32num b))
/-- `a × b + c`, rounded once. -/
def f32fma (a b c : Nat) : Nat := f32 (((f32num a).mul (f32num b)).add (f32num c))
def f32div (a b : Nat) : Nat := f32 ((f32num a).div (f32num b))
def f32sqrt (a : Nat) : Nat := f32 (f32num a).sqrt
def f32neg (a : Nat) : Nat := f32 (f32num a).neg
def f32abs (a : Nat) : Nat := f32 (f32num a).abs
def f32lt (a b : Nat) : Bool := (f32num a).lt (f32num b)
def f32le (a b : Nat) : Bool := (f32num a).le (f32num b)
def f32isNan (a : Nat) : Bool := (f32num a).isNan
def f32isFinite (a : Nat) : Bool := (f32num a).isFinite
/-- An integer rounded to fp32. -/
def f32ofInt (i : Int) : Nat := f32 (.ofInt i 0)
def f32one : Nat := 0x3F800000
def f32half : Nat := 0x3F000000

end Sys2Proof.Machine
end

