-- ==== Sys2Proof/Machine/Fixed.lean ====
section
/-! DEFINITION. Fixed-point numbers of 160 fractional bits, for values whose formula the spec gives and whose rounding it leaves
to one final step: square and cube roots, sine, cosine, arc tangent. -/

namespace Sys2Proof.Machine

/-- A fixed-point value: an integer in units of 2^-160. -/
abbrev Fx := Int

def fxOne : Fx := 2 ^ 160
def fxMul (a b : Fx) : Fx := a * b / 2 ^ 160
/-- Quotient; 0 for a zero divisor, which no caller passes. -/
def fxDiv (a b : Fx) : Fx := if b = 0 then 0 else a * 2 ^ 160 / b
def fxSqrt (a : Fx) : Fx := if a ≤ 0 then 0 else (isqrt (a.toNat * 2 ^ 160) : Nat)

/-- The value of an fp32 pattern; 0 for one that is not finite. -/
def fxOf (b : Nat) : Fx :=
  match f32num b with
  | .fin neg m e => scaled neg m e (-160)
  | _ => 0

/-- The number that a fixed-point value is. -/
def fxNum (a : Fx) : Num := .ofInt a (-160)

/-- The fp32 pattern nearest to a value. -/
def fxF32 (a : Fx) : Nat := f32 (fxNum a)

/-- `⌊π × 2^400⌋`. -/
def piWide : Int := 8112377246730971238862271351300894519161151600179265203591191037615230905373990498745523360926816815427566779727327576236
def fxPi : Fx := piWide / 2 ^ 240

/-- An angle wrapped into (−π, π]. -/
def fxWrap (a : Fx) : Fx :=
  let w := a * 2 ^ 240
  let k := -((piWide - w) / (2 * piWide))
  (w - k * (2 * piWide)) / 2 ^ 240

/-- Taylor series whose term `i` is followed by `- term × r² / ((i + 1)(i + 2))`. -/
def fxSeries : Nat → Int → Fx → Fx → Fx → Fx
  | 0, _, _, _, acc => acc
  | k + 1, i, r2, t, acc => fxSeries k (i + 2) r2 (-(fxMul t r2) / ((i + 1) * (i + 2))) (acc + t)

def fxSin (a : Fx) : Fx := let r := fxWrap a; fxSeries 40 1 (fxMul r r) r 0
def fxCos (a : Fx) : Fx := let r := fxWrap a; fxSeries 40 0 (fxMul r r) fxOne 0

/-- Series of the arc tangent: power `p`, its divisor `i`. -/
def atanSeries : Nat → Int → Fx → Fx → Fx → Fx
  | 0, _, _, _, acc => acc
  | k + 1, i, x2, p, acc => atanSeries k (i + 2) x2 (-(fxMul p x2)) (acc + p / i)

/-- Halve the angle whose tangent is `x`. -/
def atanHalf (x : Fx) : Fx := fxDiv x (fxOne + fxSqrt (fxOne + fxMul x x))

/-- Arc tangent of a value in [0, 1]. -/
def atanUnit (x : Fx) : Fx :=
  let y := atanHalf (atanHalf (atanHalf x))
  8 * atanSeries 40 1 (fxMul y y) y 0

/-- The angle of the vector (x, y), in (−π, π]; 0 for the zero vector. -/
def fxAtan2 (y x : Fx) : Fx :=
  let ay : Fx := y.natAbs
  let ax : Fx := x.natAbs
  if ay = 0 ∧ ax = 0 then 0
  else
    let base := if ay ≤ ax then atanUnit (fxDiv ay ax) else fxPi / 2 - atanUnit (fxDiv ax ay)
    let q := if x < 0 then fxPi - base else base
    if y < 0 then -q else q

/-- `⌊n^(1/3)⌋`, digit by digit. -/
def icbrtAux : Nat → Nat → Nat → Nat
  | 0, _, r => r
  | i + 1, n, r => if (r + 2 ^ i) ^ 3 ≤ n then icbrtAux i n (r + 2 ^ i) else icbrtAux i n r

def fxCbrt (a : Fx) : Fx := if a ≤ 0 then 0 else (icbrtAux (bitLen (a.toNat * 2 ^ 320) / 3 + 1) (a.toNat * 2 ^ 320) 0 : Nat)

end Sys2Proof.Machine
end

