-- ==== Sys2Proof/Config.lean ====
section
/-! DEFINITION. The free values: constants without a body, so that nothing can be proved of a value that the spec leaves
open. Each is named in the assumption log. -/

namespace Sys2Proof.Config

/-- The free value drawn at a counter reading (DESIGN CHOICE, log entry 3). -/
opaque free : Nat → BitVec 64

/-- The free bytes of a run that a draw of the counter leaves undefined, one for each address (DESIGN CHOICE, log entry 3). -/
opaque freeByte : (draw addr : Nat) → BitVec 8

/-- Offset, in units in the last place, of the value the vector unit delivers for a function of R107 from the
correctly rounded one; the meaning keeps it within the stated bound (DEDUCED, log entry 20). -/
opaque ulpOffset : (func v : Nat) → Int

/-- The value delivered for an argument at which the spec states none: the limit of a function at an infinity, a piece of a
formula that has no value there (DESIGN CHOICE, log entry 21). -/
opaque unstated : (what v : Nat) → BitVec 64

/-- Whether the maximum or minimum of a NaN and a number is NaN (DEDUCED, log entry 24). -/
opaque nanWins : Bool

/-- Bytes that a cryptographic function of the security unit gives: byte `i` for function `fn` of its input (DESIGN CHOICE, log entry 60). -/
opaque crypto : (fn : Nat) → (input : List (BitVec 8)) → (i : Nat) → BitVec 8

/-- How far the slope (`part` 0) and the intercept (`part` 1) of a segment of a built-in gate table stand from the rounded ones of the least
maximum error, modulo 9 and less 4, in units in the last place (DESIGN CHOICE, log entry 28). -/
opaque gateSegment : (code segment part : Nat) → BitVec 32

/-- Offset, in units in the last place, of a coordinate of a sphere centre from the correctly rounded one: for a model, two rows,
a path parameter and the coordinate; kept within the bound that R218 leaves (DEDUCED, log entry 32). -/
opaque kinOffset : (model rowA rowB s which : Nat) → Int

/-- Whether a brick that reads the same when ABSENT is written as ABSENT (R210, DEDUCED, log entry 33). -/
opaque absentFree : Bool

/-- The local address of the configuration array that PRIM reads, for its descriptor body (DESIGN CHOICE, log entry 34). -/
opaque primArray : (body : Nat) → Nat

/-- Which order of its operations a part uses in place `which`, where the spec does not state one (DEDUCED, log entry 38). -/
opaque openOrder : (which : Nat) → Nat

/-- The first 28 bytes of a packet header, whose layout the spec leaves open; the CRC follows (R263, DEDUCED, log entry 151). -/
opaque packetHeader : (src dst epoch part : Nat) → (poison : Bool) → (slot : Nat) → List (BitVec 8)

/-- Does a received frame match a receive ring's setting of object 0x2C30 + p, whose coding the spec leaves open (DEDUCED, log entry 45)? -/
opaque ethMatch : (setting : Nat) → (frame : List (BitVec 8)) → Bool

/-- The code by which object 0x2C80 + n, subindex 4, names a state of a subdevice position (DEDUCED, log entry 46). -/
opaque subCode : (state : Nat) → BitVec 8

/-- The voltage in mV that a die's fused voltage-frequency table asks for at the skip ratios of its cores, with the droop margin for a
LOOP_CAP (R452). -/
opaque railNeed : (die : Nat) → (ratios : List Nat) → (cap : Nat) → Nat

/-- Silicon stepping of a node (R21, fused). -/
opaque stepping : (node : Nat) → BitVec 8

/-- The revision of object 0x1018, fixed per part (PRESUMED, log entry 51). -/
opaque revision : BitVec 32

/-- Texts fixed per part, of 1 to 256 bytes: 1 object 0x1009, 2 object 0x100A (PRESUMED, log entry 51). -/
opaque partText : (which i : Nat) → BitVec 8

/-- The length of such a text, less 1. -/
opaque partTextLen : (which : Nat) → BitVec 8

end Sys2Proof.Config
end

