-- ==== Sys2Proof/Machine/Functions.lean ====
section
/-! DEFINITION. The functions of the vector unit and the row reductions (R106 to R108): values within the stated error bound,
the fixed pairwise tree, maximum and minimum. -/

namespace Sys2Proof.Machine

/-! ## Values to within 2^-60 of their size -/

/-- `⌊ln 2 × 2^100⌋` and `⌊√(2/π) × 2^100⌋`. -/
def ln2Fix : Int := 878668439483319573618263538048
def sqrt2PiFix : Int := 1011438842414589465875856631813

/-- Sum of the Taylor series of exp in fixed point of 100 bits: `k` terms left, term `i` is `t`. -/
def expTaylor : Nat → Int → Int → Int → Int → Int
  | 0, _, _, _, acc => acc
  | k + 1, i, r, t, acc => expTaylor k (i + 1) r (t * r / (2 ^ 100 * (i + 1))) (acc + t)

/-- exp of a finite value; beyond ±2^9 a value far outside the range of fp32. -/
def expNum (x : Num) : Num :=
  if Num.lt (.ofInt 512 0) x then .fin false 1 1000
  else if Num.lt x (.ofInt (-512) 0) then .fin false 1 (-1000)
  else
    let xi := (x.shift 100).floor
    let k := xi / ln2Fix
    .fin false (expTaylor 32 0 (xi - k * ln2Fix) (2 ^ 100) 0).toNat (k - 100)

def oneNum : Num := .fin false 1 0

/-- 1 / (1 + exp(-x)). -/
def sigmoidNum (x : Num) : Num := oneNum.div (oneNum.add (expNum x.neg))

/-- tanh, by its series near 0. -/
def tanhNum (x : Num) : Num :=
  if Num.lt x.abs (.fin false 1 (-13)) then
    let x3 := x.mul (x.mul x)
    (x.sub (x3.div (.ofInt 3 0))).add ((x3.mul (x.mul x)).mul ((Num.ofInt 2 0).div (.ofInt 15 0)))
  else
    let e := expNum (x.shift 1)
    (e.sub oneNum).div (e.add oneNum)

/-- GELU in tanh form: x/2 × (1 + tanh u) = x × sigmoid(2u), u = √(2/π) (x + 0.044715 x³). -/
def geluNum (x : Num) : Num :=
  let x3 := x.mul (x.mul x)
  let u := (Num.ofInt sqrt2PiFix (-100)).mul (x.add (x3.mul ((Num.ofInt 44715 0).div (.ofInt 1000000 0))))
  x.mul (sigmoidNum (u.shift 1))

/-! ## Delivered values (R107) -/

/-- The patterns of fp32 in rising order, as integers. -/
def f32key (b : Nat) : Int := if bit b 31 then -((b % 2 ^ 31 : Nat) : Int) else (b % 2 ^ 31 : Nat)
def f32ofKey (k : Int) : Nat := if k < 0 then k.natAbs + 2 ^ 31 else k.toNat

/-- Exponent of one unit in the last place at a value. -/
def ulpExp : Num → Int
  | .fin _ m e => max ((bitLen m : Int) + e - 24) (-149)
  | _ => 0

/-- Does a pattern lie within `n` ulp of a value? -/
def withinUlp (n : Nat) (v : Num) (b : Nat) : Bool :=
  f32isFinite b && ((f32num b).sub v).abs.le (.fin false n (ulpExp v))

/-- The fp32 value delivered for a function whose exact value is `v`: any pattern within `n` ulp, chosen freely (DEDUCED, log entry 20). -/
def freeUlp (n func arg : Nat) (v : Num) : Nat :=
  let nominal := f32 v
  let cand := f32ofKey (f32key nominal + clampI (-(n : Int)) n (Config.ulpOffset func arg))
  if withinUlp n v cand then cand else nominal

/-- A value that the spec does not state (DESIGN CHOICE, log entry 21). -/
def unstated32 (what arg : Nat) : Nat := (Config.unstated what arg).toNat % 2 ^ 32

/-- exp (FUNC 0x05): 2 ulp. -/
def actExp (v : Nat) : Nat :=
  match f32num v with
  | .nan => 0x7FC00000
  | .inf neg => if neg then 0 else 0x7F800000
  | x => freeUlp 2 5 v (expNum x)

/-- Reciprocal square root (FUNC 0x07): 1 ulp. -/
def actRsqrt (v : Nat) : Nat :=
  match f32num v with
  | .nan => 0x7FC00000
  | .inf neg => if neg then 0x7FC00000 else 0
  | .fin neg m e =>
    if m = 0 then (if neg then 0xFF800000 else 0x7F800000)
    else if neg then 0x7FC00000
    else freeUlp 1 7 v (oneNum.div (Num.sqrt (.fin false m e)))

/-- The function that FUNC selects (R107), on an fp32 pattern. -/
def actFunc (func v : Nat) : Nat :=
  match func with
  | 0 => if f32isNan v then 0x7FC00000 else if bit v 31 then 0 else v
  | 5 => actExp v
  | 7 => actRsqrt v
  | _ =>
    match f32num v with
    | .nan => 0x7FC00000
    | .inf neg =>
      match func with
      | 1 => if neg then unstated32 1 v else 0x7F800000
      | 2 => if neg then unstated32 2 v else 0x7F800000
      | 3 => if neg then 0 else 0x3F800000
      | 4 => if neg then 0xBF800000 else 0x3F800000
      | _ => if neg then 0x80000000 else 0
    | .fin neg m e =>
      let x : Num := .fin neg m e
      match func with
      | 1 => freeUlp 4 1 v (geluNum x)
      | 2 => freeUlp 4 2 v (x.mul (sigmoidNum x))
      | 3 => freeUlp 2 3 v (sigmoidNum x)
      | 4 => freeUlp 2 4 v (tanhNum x)
      | _ => if m = 0 then (if neg then 0xFF800000 else 0x7F800000) else freeUlp 1 6 v (oneNum.div x)

/-! ## Maximum, minimum and the tree (R106, R108) -/

/-- The larger of two patterns, +0 above -0; with one NaN the answer is open (DEDUCED, log entry 24). -/
def f32max (a b : Nat) : Nat :=
  if f32isNan a || f32isNan b then
    (if (f32isNan a && f32isNan b) || Config.nanWins then 0x7FC00000 else if f32isNan a then b else a)
  else if f32lt a b then b else if f32lt b a then a else if bit a 31 then b else a

def f32min (a b : Nat) : Nat :=
  if f32isNan a || f32isNan b then
    (if (f32isNan a && f32isNan b) || Config.nanWins then 0x7FC00000 else if f32isNan a then b else a)
  else if f32lt a b then a else if f32lt b a then b else if bit a 31 then a else b

/-- Combine neighbours of a level of the tree; the last of an odd level meets the padding. -/
def treeLevel (f : Nat → Nat → Nat) (pad : Nat) : List Nat → List Nat
  | [] => []
  | [a] => [f a pad]
  | a :: b :: t => f a b :: treeLevel f pad t

/-- The fixed pairwise tree over a row padded to a power of two, level by level. -/
def treeRun (f : Nat → Nat → Nat) : Nat → Nat → List Nat → Nat
  | _, pad, [] => pad
  | _, _, [a] => a
  | 0, pad, _ => pad
  | k + 1, pad, l => treeRun f k (f pad pad) (treeLevel f pad l)

/-- Tree sum and tree maximum of a row (R108). -/
def treeSum (l : List Nat) : Nat := treeRun f32add (bitLen l.length + 1) 0 l
def treeMax (l : List Nat) : Nat := treeRun f32max (bitLen l.length + 1) 0xFF800000 l

end Sys2Proof.Machine
end

