-- ==== Sys2Proof/Machine/Formats.lean ====
section
/-! DEFINITION. Chapter 2: operand and output formats, the anchored accumulator, its special states, single rounding
and the exact partial (R32 to R48). -/

namespace Sys2Proof.Machine

/-- The special state of an accumulator (R42). -/
inductive Special where
  | finite | nan | posInf | negInf | overrange
  deriving DecidableEq, Repr

/-- The join of special states (R42). -/
def Special.join : Special → Special → Special
  | .nan, _ => .nan
  | _, .nan => .nan
  | .posInf, .negInf => .nan
  | .negInf, .posInf => .nan
  | .posInf, _ => .posInf
  | _, .posInf => .posInf
  | .negInf, _ => .negInf
  | _, .negInf => .negInf
  | .overrange, _ => .overrange
  | _, .overrange => .overrange
  | .finite, .finite => .finite

/-- One accumulator: T, sticky bit and special state (R40, R41). -/
structure Acc where
  t : Int := 0
  sticky : Bool := false
  sp : Special := .finite
  deriving DecidableEq, Repr

/-- Is the format code one with block scales? -/
def isMx (f : Nat) : Bool := f == 5 || f == 6 || f == 7 || f == 8

/-- Is the code valid as a matrix operand (R32)? -/
def operandFmt (f : Nat) : Bool := f ≤ 0xA

/-- Is the code valid as a rounded output (R32)? -/
def outputFmt (f : Nat) : Bool := f == 1 || f == 3 || f == 4 || f == 9 || f == 0xA || f == 0xB

/-- Bits of an element of a format (R32). -/
def fmtBits (f : Nat) : Nat :=
  if f = 0 || f = 2 || f = 5 then 4 else if f = 9 || f = 0xA then 16 else if f = 0xB then 32 else 8

/-- Whole bytes of an element of a format of 8 bits or more. -/
def fmtBytes (f : Nat) : Nat := fmtBits f / 8

/-- The floating-point layout of a code, where it has one. -/
def floatOf (f : Nat) : FloatFmt :=
  if f = 3 || f = 6 then e4m3 else if f = 4 || f = 7 then e5m2 else if f = 9 then bf16
  else if f = 0xA then fp16 else fp32

/-- The value of an FP4 E2M1 pattern, in halves. -/
def e2m1Halves (b : Nat) : Nat := lget 0 [0, 1, 2, 3, 4, 6, 8, 12] (b % 8)

/-- The value of an element, without scales (R32). -/
def decodeElt (f b : Nat) : Num :=
  if f = 0 then .ofInt (sx 4 b) 0
  else if f = 1 then .ofInt (sx 8 b) 0
  else if f = 8 then .ofInt (sx 8 b) (-6)
  else if f = 2 || f = 5 then .fin (bit b 3) (e2m1Halves b) (-1)
  else (floatOf f).decode b

/-- The exponents `c` and `d` of a format in 0x0 to 0x8 (R32). -/
def fmtC (f : Nat) : Int := lget 0 [3, 7, 3, 9, 16, 3, 9, 16, 1] f
def fmtD (f : Nat) : Int := lget 0 [0, 0, -1, -9, -16, -1, -9, -16, -6] f

/-- An operand element ready for multiplication: its value with all scales, its terms of E(p) and D(p) (R38), and
whether it meets its operand's condition for an anchor candidate. -/
structure Elt where
  num : Num
  e : Int
  d : Int
  cand : Bool
  deriving DecidableEq, Repr

/-- An element of format `f`, pattern `b`, tensor scale byte `ts` and block scale byte `bs` (R33, R38). A NaN or an infinity in a format of
0x0 to 0x8 meets its operand's condition, as R38 has it, although R34 lets no special product take part (DESIGN CHOICE, log entry 137). -/
def mkElt (f b ts bs : Nat) : Elt :=
  let t : Int := (ts : Int) - 127
  if isMx f then
    let s := t + (bs : Int) - 127
    ⟨if bs = 0xFF then .nan else (decodeElt f b).shift s, s + fmtC f, s + fmtD f, bs != 0xFF⟩
  else if f ≤ 4 then ⟨(decodeElt f b).shift t, t + fmtC f, t + fmtD f, true⟩
  else
    let fm := floatOf f
    let ex := fm.exponent b
    let n := fm.decode b
    ⟨n.shift t, t + ex + 1, t + ex - (fm.p - 1 : Nat), n.isFinite && !n.isZero⟩

/-- The product of two operand elements: value, bound exponent E and resolution exponent D (R34, R38). -/
structure Product where
  num : Num
  e : Int
  d : Int
  deriving DecidableEq, Repr

def mulElt (a b : Elt) : Product := ⟨a.num.mul b.num, a.e + b.e, a.d + b.d⟩

/-- Clamp an anchor into −112 to +143 (R38). Where the clamp raises it, products below the window are truncated and the sticky bit is
set, although R53 promises formats 0x0 to 0x4 a clear one for any tensor scales (DESIGN CHOICE, log entry 135). -/
def clampAnchor (a : Int) : Int := clampI (-112) 143 a

/-- The larger of two bound exponents, `none` standing for no candidate. -/
def omax : Option Int → Option Int → Option Int
  | none, b => b
  | a, none => a
  | some a, some b => some (max a b)

/-- The anchor of R38 from the largest E(p) of the candidates. -/
def anchorOf (maxE : Option Int) (l : Nat) : Int :=
  match maxE with
  | none => -112
  | some e => clampAnchor (e + l + 2)

/-- Add one product to an accumulator with anchor `A` and headroom `L` (R34, R40, R41). A zero product adds nothing. A SUPPLIED command
whose own K exceeds 2^L is not refused (R37) and may drive T out of the range of R40 with products alone: T is kept unbounded for the
rounded output, and cut to the 96 bits of its word in a partial (DESIGN CHOICE, log entry 136). -/
def Acc.addProduct (A : Int) (L : Nat) (acc : Acc) (p : Product) : Acc :=
  match p.num with
  | .nan => { acc with sp := acc.sp.join .nan }
  | .inf neg => { acc with sp := acc.sp.join (if neg then .negInf else .posInf) }
  | .fin neg m e =>
    if m = 0 then acc
    else if A - L - 2 < p.e then { acc with sp := acc.sp.join .overrange }
    else
      let w := A - 95
      if w ≤ e then { acc with t := acc.t + scaled neg m e w }
      else
        let s := 2 ^ (w - e).toNat
        let i : Int := if neg then -(m : Int) else (m : Int)
        { acc with t := acc.t + i / s, sticky := acc.sticky || i % s != 0 }

/-- Is a finite accumulator outside the range of R40? -/
def Acc.outOfRange (a : Acc) : Bool :=
  decide (a.t < -(2 ^ 93)) || decide (2 ^ 93 < a.t) || (a.t == 2 ^ 93 && a.sticky)

/-- Add an imported exact partial (R40, R42, R48). -/
def Acc.addPartial (a b : Acc) : Acc :=
  let s : Acc := ⟨a.t + b.t, a.sticky || b.sticky, a.sp.join b.sp⟩
  if s.outOfRange then { s with sp := s.sp.join .overrange } else s

/-- The exact value that R43 rounds: T × 2^(A − 95 + scale), plus an ε below every step when the sticky bit is set. With R41's truncation
toward −∞ this number may lie below the exact sum, which the interval of R50 does not allow: R41 and R43 are followed (DESIGN CHOICE,
log entry 134). -/
def Acc.value (A : Int) (scale : Int) (a : Acc) : Num :=
  let w := A - 95 + scale
  if a.sticky then .ofInt (a.t * 2 ^ 600 + 1) (w - 600) else .ofInt a.t w

/-- Round an exact value to INT8 under R43 and R44: a pattern, and whether it saturated. -/
def deliverInt8 (mode : Nat) (n : Num) : Nat × Bool :=
  match n with
  | .nan => (0x80, false)
  | .inf neg => (if neg then 0x81 else 0x7F, false)
  | .fin .. =>
    let i := n.roundInt mode
    if 127 < i then (0x7F, true) else if i < -127 then (0x81, true) else (ux 8 i, false)

/-- Round an exact value into an output format (R43, R44). An exact zero keeps the sign given. -/
def deliverNum (fmt mode : Nat) (sat : Bool) (n : Num) : Nat × Bool :=
  if fmt = 1 then deliverInt8 mode n else (floatOf fmt).deliver mode sat n

/-- Deliver an accumulator as a rounded output (R43 to R45): the pattern and the OK_SATURATED condition. -/
def Acc.deliver (fmt mode : Nat) (sat : Bool) (A scale : Int) (a : Acc) : Nat × Bool :=
  match a.sp with
  | .nan => ((deliverNum fmt mode sat .nan).1, false)
  | .overrange => ((deliverNum fmt mode sat .nan).1, true)
  | .posInf => ((deliverNum fmt mode sat (.inf false)).1, false)
  | .negInf => ((deliverNum fmt mode sat (.inf true)).1, false)
  | .finite =>
    if a.t = 0 && !a.sticky then deliverNum fmt mode sat (.fin (mode == 3) 0 0)
    else deliverNum fmt mode sat (a.value A scale)

/-- The 96-bit word of an exact partial element (R46). -/
def Acc.word (a : Acc) : Nat :=
  match a.sp with
  | .finite => ux 96 (2 * a.t + (if a.sticky then 1 else 0))
  | .nan => 2 ^ 94 + 1
  | .posInf => 2 ^ 94 + 2
  | .negInf => 2 ^ 94 + 3
  | .overrange => 2 ^ 94 + 4

/-- Read a 96-bit word of an exact partial (R46). -/
def Acc.ofWord (w : Nat) : Acc :=
  if bit w 95 == bit w 94 then ⟨sx 96 w / 2, bit w 0, .finite⟩
  else if w % 2 ^ 96 = 2 ^ 94 then ⟨2 ^ 93, false, .finite⟩
  else if w % 2 ^ 96 = 2 ^ 94 + 2 then ⟨0, false, .posInf⟩
  else if w % 2 ^ 96 = 2 ^ 94 + 3 then ⟨0, false, .negInf⟩
  else if w % 2 ^ 96 = 2 ^ 94 + 4 then ⟨0, false, .overrange⟩
  else ⟨0, false, .nan⟩

/-- The fields of the arithmetic control word (R36). -/
structure Acw where
  raw : Nat
  deriving DecidableEq, Repr

def Acw.fmtA (w : Acw) : Nat := bits w.raw 0 4
def Acw.fmtB (w : Acw) : Nat := bits w.raw 4 4
def Acw.fmtOut (w : Acw) : Nat := bits w.raw 8 4
def Acw.round (w : Acw) : Nat := bits w.raw 12 2
def Acw.satInf (w : Acw) : Bool := bit w.raw 14
def Acw.anchorMode (w : Acw) : Nat := bits w.raw 16 2
def Acw.outKind (w : Acw) : Nat := bits w.raw 18 2
def Acw.accIn (w : Acw) : Bool := bit w.raw 20
def Acw.anchor (w : Acw) : Int := (bits w.raw 24 8 : Nat) - (112 : Int)
def Acw.outScale (w : Acw) : Int := sx 8 (bits w.raw 32 8)
def Acw.kLog2 (w : Acw) : Nat := bits w.raw 40 5
def Acw.tscaleA (w : Acw) : Nat := bits w.raw 48 8
def Acw.tscaleB (w : Acw) : Nat := bits w.raw 56 8

/-- The conditions of R32, R36 and R37 under which a control word makes its command BAD_DESCRIPTOR, for a command whose
own K extent is `k`. -/
def Acw.bad (w : Acw) (k : Nat) : Bool :=
  bit w.raw 15 || bits w.raw 21 3 != 0 || bits w.raw 45 3 != 0 ||
  w.anchorMode == 3 || w.outKind == 3 || w.kLog2 > 20 || w.tscaleA == 0xFF || w.tscaleB == 0xFF ||
  !operandFmt w.fmtA || !operandFmt w.fmtB || !outputFmt w.fmtOut ||
  (w.anchorMode != 1 && (decide (2 ^ w.kLog2 < k) || w.accIn))

/-- The 64-byte header of an exact-partial tile (R47). -/
def partialHeader (A : Int) (l : Nat) (accs : List Acc) : Nat :=
  (A + 112).toNat + l * 2 ^ 8 + b2n (accs.any (fun a => a.sticky && a.sp == .finite)) * 2 ^ 16 + b2n (accs.any (fun a => a.sp != .finite)) * 2 ^ 17

end Sys2Proof.Machine
end

