-- ==== Sys2Proof/Machine/RegMap.lean ====
section
/-! DEFINITION. The register map: every register field that the spec names, with its block, offset, access and reset
value (R18, R21, R70, R100, R140, R146, R178, R200, R234, R260, R282, R283, R315, R332, R334, R352, R358, R381, R387,
R411, R413, R419, R463 to R465, R469). Offsets are within a block of 1 MiB; the Beryl registers are those that AGT_BRL
relays (R11). -/

namespace Sys2Proof.Machine

/-- Access codes of R6 (no register of the spec has code RWL). -/
inductive Access where
  | ro | rw | wo | w1c | rc
  deriving DecidableEq, Repr

/-- The kind of die that holds a register block. -/
inductive DieKind where
  | onyx | agate | scarab
  deriving DecidableEq, Repr

/-- One field of a register, or of an array of registers: instance `i` lies at
`off + stride × (i mod count) + stride2 × (i / count)` of block `blk`. `rst0` is the reset value of instance 0. -/
structure Fld where
  die : DieKind
  blk : Nat
  off : Nat
  stride : Nat
  count : Nat
  stride2 : Nat
  count2 : Nat
  lo : Nat
  width : Nat
  acc : Access
  rst : Nat
  rst0 : Nat
  deriving DecidableEq, Repr

namespace Reg

/-! ONX_T1_WAYMODE (R70) -/
def ONX_T1_WAYMODE.SCRATCH : Fld := ⟨.onyx, 0x500000, 0x0, 0, 1, 0, 1, 0, 16, .rw, 0x0, 0x0⟩
/-! ONX_T1_STATUS (R70) -/
def ONX_T1_STATUS.DIRTY_A : Fld := ⟨.onyx, 0x500000, 0x8, 0, 1, 0, 1, 0, 1, .ro, 0x0, 0x0⟩
def ONX_T1_STATUS.DIRTY_B : Fld := ⟨.onyx, 0x500000, 0x8, 0, 1, 0, 1, 1, 1, .ro, 0x0, 0x0⟩
def ONX_T1_STATUS.CFG_ERR : Fld := ⟨.onyx, 0x500000, 0x8, 0, 1, 0, 1, 2, 1, .w1c, 0x0, 0x0⟩
/-! ONX_T1_DIRTYCNT (R70) -/
def ONX_T1_DIRTYCNT.SECTORS : Fld := ⟨.onyx, 0x500000, 0x10, 0, 1, 0, 1, 0, 19, .ro, 0x0, 0x0⟩
/-! ONX_T1_ECCCNT (R70) -/
def ONX_T1_ECCCNT.CORRECTED : Fld := ⟨.onyx, 0x500000, 0x18, 0, 1, 0, 1, 0, 16, .rc, 0x0, 0x0⟩
def ONX_T1_ECCCNT.REFETCHED : Fld := ⟨.onyx, 0x500000, 0x18, 0, 1, 0, 1, 16, 16, .rc, 0x0, 0x0⟩
/-! ONX_T1_WAYMASK (R70) -/
def ONX_T1_WAYMASK.ALLOC : Fld := ⟨.onyx, 0x500000, 0x100, 8, 16, 0, 1, 0, 16, .rw, 0x0, 0xFFFF⟩
/-! ONX_M_ISSUECAP (R100) -/
def ONX_M_ISSUECAP.LOOP_CAP : Fld := ⟨.onyx, 0x100000, 0x0, 0, 1, 0, 1, 0, 7, .ro, 0x40, 0x40⟩
def ONX_M_ISSUECAP.SW_CAP : Fld := ⟨.onyx, 0x100000, 0x0, 0, 1, 0, 1, 8, 7, .rw, 0x40, 0x40⟩
def ONX_M_ISSUECAP.EFFECTIVE : Fld := ⟨.onyx, 0x100000, 0x0, 0, 1, 0, 1, 16, 7, .ro, 0x40, 0x40⟩
/-! ONX_M_STATUS (R100) -/
def ONX_M_STATUS.MX_BUSY : Fld := ⟨.onyx, 0x100000, 0x8, 0, 1, 0, 1, 0, 1, .ro, 0x0, 0x0⟩
def ONX_M_STATUS.VEC_BUSY : Fld := ⟨.onyx, 0x100000, 0x8, 0, 1, 0, 1, 1, 1, .ro, 0x0, 0x0⟩
def ONX_M_STATUS.MX_FLOW : Fld := ⟨.onyx, 0x100000, 0x8, 0, 1, 0, 1, 2, 1, .ro, 0x0, 0x0⟩
/-! ONX_M_MACCNT (R100) -/
def ONX_M_MACCNT.COUNT : Fld := ⟨.onyx, 0x100000, 0x10, 0, 1, 0, 1, 0, 64, .ro, 0x0, 0x0⟩
/-! ONX_M_ACTCNT (R100) -/
def ONX_M_ACTCNT.COUNT : Fld := ⟨.onyx, 0x100000, 0x18, 0, 1, 0, 1, 0, 64, .ro, 0x0, 0x0⟩
/-! ONX_M_CAPCNT (R100) -/
def ONX_M_CAPCNT.COUNT : Fld := ⟨.onyx, 0x100000, 0x20, 0, 1, 0, 1, 0, 64, .ro, 0x0, 0x0⟩
/-! ONX_M_BIASCFG (R140) -/
def ONX_M_BIASCFG.H_LOG2 : Fld := ⟨.onyx, 0x100000, 0x200, 8, 16, 0, 1, 0, 3, .rw, 0x0, 0x0⟩
def ONX_M_BIASCFG.MODE : Fld := ⟨.onyx, 0x100000, 0x200, 8, 16, 0, 1, 3, 1, .rw, 0x0, 0x0⟩
def ONX_M_BIASCFG.WX_LOG2 : Fld := ⟨.onyx, 0x100000, 0x200, 8, 16, 0, 1, 4, 4, .rw, 0x0, 0x0⟩
/-! ONX_Q_STATUS (R178) -/
def ONX_Q_STATUS.SCAN_BUSY : Fld := ⟨.onyx, 0x200000, 0x0, 0, 1, 0, 1, 0, 1, .ro, 0x0, 0x0⟩
def ONX_Q_STATUS.GATE_BUSY : Fld := ⟨.onyx, 0x200000, 0x0, 0, 1, 0, 1, 1, 1, .ro, 0x0, 0x0⟩
def ONX_Q_STATUS.STEP_BUSY : Fld := ⟨.onyx, 0x200000, 0x0, 0, 1, 0, 1, 2, 1, .ro, 0x0, 0x0⟩
def ONX_Q_STATUS.CFG_ERR : Fld := ⟨.onyx, 0x200000, 0x0, 0, 1, 0, 1, 3, 1, .w1c, 0x0, 0x0⟩
def ONX_Q_STATUS.OPEN : Fld := ⟨.onyx, 0x200000, 0x0, 0, 1, 0, 1, 8, 8, .ro, 0x0, 0x0⟩
/-! ONX_Q_ESTEPCNT (R178) -/
def ONX_Q_ESTEPCNT.COUNT : Fld := ⟨.onyx, 0x200000, 0x8, 0, 1, 0, 1, 0, 64, .ro, 0x0, 0x0⟩
/-! ONX_Q_STREAM (R178) -/
def ONX_Q_STREAM.OPEN : Fld := ⟨.onyx, 0x200000, 0x100, 16, 8, 0, 1, 0, 1, .ro, 0x0, 0x0⟩
def ONX_Q_STREAM.OVF : Fld := ⟨.onyx, 0x200000, 0x100, 16, 8, 0, 1, 1, 1, .w1c, 0x0, 0x0⟩
def ONX_Q_STREAM.POISON : Fld := ⟨.onyx, 0x200000, 0x100, 16, 8, 0, 1, 2, 1, .w1c, 0x0, 0x0⟩
def ONX_Q_STREAM.PENDING : Fld := ⟨.onyx, 0x200000, 0x100, 16, 8, 0, 1, 8, 8, .ro, 0x0, 0x0⟩
def ONX_Q_STREAM.NEXT : Fld := ⟨.onyx, 0x200000, 0x100, 16, 8, 0, 1, 32, 32, .ro, 0x0, 0x0⟩
/-! ONX_Q_STEP (R178) -/
def ONX_Q_STEP.ADD : Fld := ⟨.onyx, 0x200000, 0x108, 16, 8, 0, 1, 0, 8, .wo, 0x0, 0x0⟩
/-! ONX_Q_GCFG (R178) -/
def ONX_Q_GCFG.XMIN : Fld := ⟨.onyx, 0x200000, 0x200, 8, 8, 0, 1, 0, 32, .rw, 0x0, 0x0⟩
def ONX_Q_GCFG.WIDTH_LOG2 : Fld := ⟨.onyx, 0x200000, 0x200, 8, 8, 0, 1, 32, 5, .rw, 0x0, 0x0⟩
def ONX_Q_GCFG.OOR_LO : Fld := ⟨.onyx, 0x200000, 0x200, 8, 8, 0, 1, 37, 1, .rw, 0x0, 0x0⟩
def ONX_Q_GCFG.OOR_HI : Fld := ⟨.onyx, 0x200000, 0x200, 8, 8, 0, 1, 38, 1, .rw, 0x0, 0x0⟩
/-! ONX_L_STATUS (R200) -/
def ONX_L_STATUS.BUSY : Fld := ⟨.onyx, 0x300000, 0x0, 0, 1, 0, 1, 0, 1, .ro, 0x0, 0x0⟩
/-! ONX_L_PROBCNT (R200) -/
def ONX_L_PROBCNT.COUNT : Fld := ⟨.onyx, 0x300000, 0x8, 0, 1, 0, 1, 0, 64, .ro, 0x0, 0x0⟩
/-! ONX_L_REGCNT (R200) -/
def ONX_L_REGCNT.COUNT : Fld := ⟨.onyx, 0x300000, 0x10, 0, 1, 0, 1, 0, 32, .rc, 0x0, 0x0⟩
/-! ONX_L_ACTCNT (R200) -/
def ONX_L_ACTCNT.COUNT : Fld := ⟨.onyx, 0x300000, 0x18, 0, 1, 0, 1, 0, 64, .ro, 0x0, 0x0⟩
/-! ONX_G_MAPCFG (R234) -/
def ONX_G_MAPCFG.DIR_BASE : Fld := ⟨.onyx, 0x400000, 0x100, 32, 4, 0, 1, 0, 28, .rw, 0x0, 0x0⟩
def ONX_G_MAPCFG.ENABLE : Fld := ⟨.onyx, 0x400000, 0x100, 32, 4, 0, 1, 28, 1, .rw, 0x0, 0x0⟩
def ONX_G_MAPCFG.UNKNOWN_BLOCKS : Fld := ⟨.onyx, 0x400000, 0x100, 32, 4, 0, 1, 29, 1, .rw, 0x0, 0x0⟩
def ONX_G_MAPCFG.DCLIP : Fld := ⟨.onyx, 0x400000, 0x100, 32, 4, 0, 1, 32, 9, .rw, 0x100, 0x100⟩
def ONX_G_MAPCFG.LO_OCC : Fld := ⟨.onyx, 0x400000, 0x100, 32, 4, 0, 1, 48, 8, .rw, 0x10, 0x10⟩
def ONX_G_MAPCFG.LO_FREE : Fld := ⟨.onyx, 0x400000, 0x100, 32, 4, 0, 1, 56, 8, .rw, 0xF0, 0xF0⟩
/-! ONX_G_MAPPOOL (R234) -/
def ONX_G_MAPPOOL.POOL_BASE : Fld := ⟨.onyx, 0x400000, 0x108, 32, 4, 0, 1, 0, 28, .rw, 0x0, 0x0⟩
def ONX_G_MAPPOOL.POOL_BRICKS : Fld := ⟨.onyx, 0x400000, 0x108, 32, 4, 0, 1, 32, 21, .rw, 0x0, 0x0⟩
/-! ONX_G_MAPORG (R234) -/
def ONX_G_MAPORG.OX : Fld := ⟨.onyx, 0x400000, 0x110, 32, 4, 0, 1, 0, 24, .rw, 0x0, 0x0⟩
def ONX_G_MAPORG.OY : Fld := ⟨.onyx, 0x400000, 0x110, 32, 4, 0, 1, 24, 24, .rw, 0x0, 0x0⟩
def ONX_G_MAPORG.OZ : Fld := ⟨.onyx, 0x400000, 0x110, 32, 4, 0, 1, 48, 16, .rw, 0x0, 0x0⟩
/-! ONX_G_MAPSTAT (R234) -/
def ONX_G_MAPSTAT.EPOCH : Fld := ⟨.onyx, 0x400000, 0x118, 32, 4, 0, 1, 0, 32, .ro, 0x0, 0x0⟩
def ONX_G_MAPSTAT.BUF : Fld := ⟨.onyx, 0x400000, 0x118, 32, 4, 0, 1, 32, 1, .ro, 0x0, 0x0⟩
def ONX_G_MAPSTAT.PENDING : Fld := ⟨.onyx, 0x400000, 0x118, 32, 4, 0, 1, 33, 1, .ro, 0x0, 0x0⟩
def ONX_G_MAPSTAT.CFG_ERR : Fld := ⟨.onyx, 0x400000, 0x118, 32, 4, 0, 1, 34, 1, .w1c, 0x0, 0x0⟩
def ONX_G_MAPSTAT.FREE : Fld := ⟨.onyx, 0x400000, 0x118, 32, 4, 0, 1, 36, 21, .ro, 0x0, 0x0⟩
/-! ONX_G_MODEL (R234) -/
def ONX_G_MODEL.ADDR : Fld := ⟨.onyx, 0x400000, 0x200, 8, 4, 0, 1, 0, 28, .rw, 0x0, 0x0⟩
def ONX_G_MODEL.VALID : Fld := ⟨.onyx, 0x400000, 0x200, 8, 4, 0, 1, 28, 1, .rw, 0x0, 0x0⟩
/-! AGT_ING_STATUS (R260) -/
def AGT_ING_STATUS.CAM_ACTIVE : Fld := ⟨.agate, 0xB00000, 0x0, 0, 1, 0, 1, 0, 12, .ro, 0x0, 0x0⟩
def AGT_ING_STATUS.IMU_USED : Fld := ⟨.agate, 0xB00000, 0x0, 0, 1, 0, 1, 12, 4, .ro, 0x0, 0x0⟩
def AGT_ING_STATUS.EGO_VALID : Fld := ⟨.agate, 0xB00000, 0x0, 0, 1, 0, 1, 16, 1, .ro, 0x0, 0x0⟩
def AGT_ING_STATUS.EGO_DEGRADED : Fld := ⟨.agate, 0xB00000, 0x0, 0, 1, 0, 1, 17, 1, .ro, 0x0, 0x0⟩
def AGT_ING_STATUS.ODO_MISMATCH : Fld := ⟨.agate, 0xB00000, 0x0, 0, 1, 0, 1, 18, 1, .ro, 0x0, 0x0⟩
def AGT_ING_STATUS.CFG_ERR : Fld := ⟨.agate, 0xB00000, 0x0, 0, 1, 0, 1, 19, 1, .w1c, 0x0, 0x0⟩
def AGT_ING_STATUS.SNAP_HELD : Fld := ⟨.agate, 0xB00000, 0x0, 0, 1, 0, 1, 20, 1, .ro, 0x0, 0x0⟩
/-! AGT_ING_READMIT (R260) -/
def AGT_ING_READMIT.CAM : Fld := ⟨.agate, 0xB00000, 0x8, 0, 1, 0, 1, 0, 12, .wo, 0x0, 0x0⟩
def AGT_ING_READMIT.IMU : Fld := ⟨.agate, 0xB00000, 0x8, 0, 1, 0, 1, 12, 4, .wo, 0x0, 0x0⟩
/-! AGT_ING_EXCLUDE (R260) -/
def AGT_ING_EXCLUDE.CAM : Fld := ⟨.agate, 0xB00000, 0x10, 0, 1, 0, 1, 0, 12, .wo, 0x0, 0x0⟩
/-! AGT_ING_SNAP (R260) -/
def AGT_ING_SNAP.MASK : Fld := ⟨.agate, 0xB00000, 0x18, 0, 1, 0, 1, 0, 12, .wo, 0x0, 0x0⟩
/-! AGT_ING_SNAPRING (R260) -/
def AGT_ING_SNAPRING.BASE : Fld := ⟨.agate, 0xB00000, 0x20, 0, 1, 0, 1, 0, 28, .rw, 0x0, 0x0⟩
def AGT_ING_SNAPRING.NODE : Fld := ⟨.agate, 0xB00000, 0x20, 0, 1, 0, 1, 28, 4, .rw, 0x0, 0x0⟩
def AGT_ING_SNAPRING.DEPTH_M1 : Fld := ⟨.agate, 0xB00000, 0x20, 0, 1, 0, 1, 32, 8, .rw, 0x0, 0x0⟩
/-! AGT_ING_IMURING (R260) -/
def AGT_ING_IMURING.BASE : Fld := ⟨.agate, 0xB00000, 0x408, 32, 4, 0, 1, 0, 28, .rw, 0x0, 0x0⟩
def AGT_ING_IMURING.NODE : Fld := ⟨.agate, 0xB00000, 0x408, 32, 4, 0, 1, 28, 4, .rw, 0x0, 0x0⟩
def AGT_ING_IMURING.DEPTH_M1 : Fld := ⟨.agate, 0xB00000, 0x408, 32, 4, 0, 1, 32, 8, .rw, 0x0, 0x0⟩
/-! AGT_ING_EGORING (R260) -/
def AGT_ING_EGORING.BASE : Fld := ⟨.agate, 0xB00000, 0x608, 0, 1, 0, 1, 0, 28, .rw, 0x0, 0x0⟩
def AGT_ING_EGORING.NODE : Fld := ⟨.agate, 0xB00000, 0x608, 0, 1, 0, 1, 28, 4, .rw, 0x0, 0x0⟩
def AGT_ING_EGORING.DEPTH_M1 : Fld := ⟨.agate, 0xB00000, 0x608, 0, 1, 0, 1, 32, 8, .rw, 0x0, 0x0⟩
/-! AGT_ING_SNAPCNT (R260) -/
def AGT_ING_SNAPCNT.COUNT : Fld := ⟨.agate, 0xB00000, 0x28, 0, 1, 0, 1, 0, 32, .ro, 0x0, 0x0⟩
/-! AGT_ING_EGOCNT (R260) -/
def AGT_ING_EGOCNT.COUNT : Fld := ⟨.agate, 0xB00000, 0x610, 0, 1, 0, 1, 0, 32, .ro, 0x0, 0x0⟩
/-! AGT_ING_CAMCFG (R260) -/
def AGT_ING_CAMCFG.ENABLE : Fld := ⟨.agate, 0xB00000, 0x100, 64, 12, 0, 1, 0, 1, .rw, 0x0, 0x0⟩
def AGT_ING_CAMCFG.VC : Fld := ⟨.agate, 0xB00000, 0x100, 64, 12, 0, 1, 1, 2, .rw, 0x0, 0x0⟩
def AGT_ING_CAMCFG.DT : Fld := ⟨.agate, 0xB00000, 0x100, 64, 12, 0, 1, 4, 6, .rw, 0x0, 0x0⟩
def AGT_ING_CAMCFG.OUTFMT : Fld := ⟨.agate, 0xB00000, 0x100, 64, 12, 0, 1, 10, 2, .rw, 0x0, 0x0⟩
def AGT_ING_CAMCFG.TSIZE : Fld := ⟨.agate, 0xB00000, 0x100, 64, 12, 0, 1, 12, 2, .rw, 0x2, 0x2⟩
def AGT_ING_CAMCFG.DEPTH_M1 : Fld := ⟨.agate, 0xB00000, 0x100, 64, 12, 0, 1, 14, 3, .rw, 0x3, 0x3⟩
def AGT_ING_CAMCFG.WIDTH_M1 : Fld := ⟨.agate, 0xB00000, 0x100, 64, 12, 0, 1, 32, 12, .rw, 0x0, 0x0⟩
def AGT_ING_CAMCFG.HEIGHT_M1 : Fld := ⟨.agate, 0xB00000, 0x100, 64, 12, 0, 1, 44, 12, .rw, 0x0, 0x0⟩
/-! AGT_ING_CAMBUF (R260) -/
def AGT_ING_CAMBUF.BASE : Fld := ⟨.agate, 0xB00000, 0x108, 64, 12, 0, 1, 0, 28, .rw, 0x0, 0x0⟩
def AGT_ING_CAMBUF.NODE : Fld := ⟨.agate, 0xB00000, 0x108, 64, 12, 0, 1, 28, 4, .rw, 0x0, 0x0⟩
/-! AGT_ING_CAMSTAT (R260) -/
def AGT_ING_CAMSTAT.STATE : Fld := ⟨.agate, 0xB00000, 0x110, 64, 12, 0, 1, 0, 3, .ro, 0x0, 0x0⟩
def AGT_ING_CAMSTAT.CAUSE : Fld := ⟨.agate, 0xB00000, 0x110, 64, 12, 0, 1, 8, 5, .ro, 0x0, 0x0⟩
def AGT_ING_CAMSTAT.FRZ_RUN : Fld := ⟨.agate, 0xB00000, 0x110, 64, 12, 0, 1, 16, 4, .ro, 0x0, 0x0⟩
def AGT_ING_CAMSTAT.FLAT_RUN : Fld := ⟨.agate, 0xB00000, 0x110, 64, 12, 0, 1, 20, 4, .ro, 0x0, 0x0⟩
def AGT_ING_CAMSTAT.BUFSTATE : Fld := ⟨.agate, 0xB00000, 0x110, 64, 12, 0, 1, 32, 16, .ro, 0x0, 0x0⟩
/-! AGT_ING_CAMLOSS (R260) -/
def AGT_ING_CAMLOSS.SHED : Fld := ⟨.agate, 0xB00000, 0x118, 64, 12, 0, 1, 0, 16, .rc, 0x0, 0x0⟩
def AGT_ING_CAMLOSS.DISCARD : Fld := ⟨.agate, 0xB00000, 0x118, 64, 12, 0, 1, 16, 16, .rc, 0x0, 0x0⟩
def AGT_ING_CAMLOSS.ERRORED : Fld := ⟨.agate, 0xB00000, 0x118, 64, 12, 0, 1, 32, 16, .rc, 0x0, 0x0⟩
/-! AGT_ING_CLAIM (R260) -/
def AGT_ING_CLAIM.BUF : Fld := ⟨.agate, 0xB00000, 0x120, 64, 12, 0, 1, 0, 3, .rc, 0x0, 0x0⟩
def AGT_ING_CLAIM.VALID : Fld := ⟨.agate, 0xB00000, 0x120, 64, 12, 0, 1, 3, 1, .rc, 0x0, 0x0⟩
def AGT_ING_CLAIM.SHED_NOW : Fld := ⟨.agate, 0xB00000, 0x120, 64, 12, 0, 1, 8, 8, .rc, 0x0, 0x0⟩
def AGT_ING_CLAIM.SEQ : Fld := ⟨.agate, 0xB00000, 0x120, 64, 12, 0, 1, 32, 32, .rc, 0x0, 0x0⟩
/-! AGT_ING_RELEASE (R260) -/
def AGT_ING_RELEASE.MASK : Fld := ⟨.agate, 0xB00000, 0x128, 64, 12, 0, 1, 0, 8, .wo, 0x0, 0x0⟩
/-! AGT_ING_IMUCFG (R260) -/
def AGT_ING_IMUCFG.ENABLE : Fld := ⟨.agate, 0xB00000, 0x400, 32, 4, 0, 1, 0, 1, .rw, 0x0, 0x0⟩
def AGT_ING_IMUCFG.RATE : Fld := ⟨.agate, 0xB00000, 0x400, 32, 4, 0, 1, 1, 2, .rw, 0x3, 0x3⟩
def AGT_ING_IMUCFG.BE : Fld := ⟨.agate, 0xB00000, 0x400, 32, 4, 0, 1, 3, 1, .rw, 0x0, 0x0⟩
def AGT_ING_IMUCFG.OFS : Fld := ⟨.agate, 0xB00000, 0x400, 32, 4, 0, 1, 4, 5, .rw, 0x0, 0x0⟩
def AGT_ING_IMUCFG.LEN_M1 : Fld := ⟨.agate, 0xB00000, 0x400, 32, 4, 0, 1, 9, 5, .rw, 0xD, 0xD⟩
def AGT_ING_IMUCFG.RDCMD : Fld := ⟨.agate, 0xB00000, 0x400, 32, 4, 0, 1, 16, 8, .rw, 0x0, 0x0⟩
/-! AGT_ING_IMUSTAT (R260) -/
def AGT_ING_IMUSTAT.STATE : Fld := ⟨.agate, 0xB00000, 0x410, 32, 4, 0, 1, 0, 2, .ro, 0x0, 0x0⟩
def AGT_ING_IMUSTAT.DEV : Fld := ⟨.agate, 0xB00000, 0x410, 32, 4, 0, 1, 2, 1, .ro, 0x0, 0x0⟩
def AGT_ING_IMUSTAT.MISSING : Fld := ⟨.agate, 0xB00000, 0x410, 32, 4, 0, 1, 3, 1, .ro, 0x0, 0x0⟩
def AGT_ING_IMUSTAT.SAMPLES : Fld := ⟨.agate, 0xB00000, 0x410, 32, 4, 0, 1, 32, 32, .ro, 0x0, 0x0⟩
/-! AGT_ING_ENCCFG (R260) -/
def AGT_ING_ENCCFG.ENABLE : Fld := ⟨.agate, 0xB00000, 0x500, 16, 8, 0, 1, 0, 1, .rw, 0x0, 0x0⟩
def AGT_ING_ENCCFG.MODE : Fld := ⟨.agate, 0xB00000, 0x500, 16, 8, 0, 1, 1, 2, .rw, 0x0, 0x0⟩
def AGT_ING_ENCCFG.INVERT : Fld := ⟨.agate, 0xB00000, 0x500, 16, 8, 0, 1, 3, 1, .rw, 0x0, 0x0⟩
def AGT_ING_ENCCFG.FILTER : Fld := ⟨.agate, 0xB00000, 0x500, 16, 8, 0, 1, 4, 4, .rw, 0x2, 0x2⟩
/-! AGT_ING_ENCCNT (R260) -/
def AGT_ING_ENCCNT.COUNT : Fld := ⟨.agate, 0xB00000, 0x508, 16, 8, 0, 1, 0, 32, .ro, 0x0, 0x0⟩
/-! AGT_ING_EGOCFG (R260) -/
def AGT_ING_EGOCFG.ENABLE : Fld := ⟨.agate, 0xB00000, 0x600, 0, 1, 0, 1, 0, 1, .rw, 0x0, 0x0⟩
def AGT_ING_EGOCFG.RATE : Fld := ⟨.agate, 0xB00000, 0x600, 0, 1, 0, 1, 1, 2, .rw, 0x1, 0x1⟩
def AGT_ING_EGOCFG.ODO_EN : Fld := ⟨.agate, 0xB00000, 0x600, 0, 1, 0, 1, 3, 1, .rw, 0x0, 0x0⟩
def AGT_ING_EGOCFG.ENC_L : Fld := ⟨.agate, 0xB00000, 0x600, 0, 1, 0, 1, 4, 3, .rw, 0x0, 0x0⟩
def AGT_ING_EGOCFG.ENC_R : Fld := ⟨.agate, 0xB00000, 0x600, 0, 1, 0, 1, 7, 3, .rw, 0x0, 0x0⟩
/-! AGT_FAB_STATUS (R282) -/
def AGT_FAB_STATUS.EPOCH : Fld := ⟨.agate, 0xD00000, 0x0, 0, 1, 0, 1, 0, 32, .ro, 0x0, 0x0⟩
def AGT_FAB_STATUS.ADMITTED : Fld := ⟨.agate, 0xD00000, 0x0, 0, 1, 0, 1, 32, 4, .ro, 0x0, 0x0⟩
def AGT_FAB_STATUS.FENCED : Fld := ⟨.agate, 0xD00000, 0x0, 0, 1, 0, 1, 36, 4, .ro, 0x0, 0x0⟩
def AGT_FAB_STATUS.LOST : Fld := ⟨.agate, 0xD00000, 0x0, 0, 1, 0, 1, 40, 4, .ro, 0x0, 0x0⟩
def AGT_FAB_STATUS.EPOCH_PENDING : Fld := ⟨.agate, 0xD00000, 0x0, 0, 1, 0, 1, 44, 1, .ro, 0x0, 0x0⟩
/-! AGT_FAB_CMD (R282) -/
def AGT_FAB_CMD.OP : Fld := ⟨.agate, 0xD00000, 0x8, 0, 1, 0, 1, 0, 4, .wo, 0x0, 0x0⟩
def AGT_FAB_CMD.NODE : Fld := ⟨.agate, 0xD00000, 0x8, 0, 1, 0, 1, 4, 4, .wo, 0x0, 0x0⟩
def AGT_FAB_CMD.DRAIN : Fld := ⟨.agate, 0xD00000, 0x8, 0, 1, 0, 1, 8, 1, .wo, 0x0, 0x0⟩
/-! AGT_FAB_CMDSTAT (R282) -/
def AGT_FAB_CMDSTAT.BUSY : Fld := ⟨.agate, 0xD00000, 0x10, 0, 1, 0, 1, 0, 1, .ro, 0x0, 0x0⟩
def AGT_FAB_CMDSTAT.CMD_ERR : Fld := ⟨.agate, 0xD00000, 0x10, 0, 1, 0, 1, 1, 1, .w1c, 0x0, 0x0⟩
def AGT_FAB_CMDSTAT.STATUS : Fld := ⟨.agate, 0xD00000, 0x10, 0, 1, 0, 1, 8, 8, .ro, 0x0, 0x0⟩
/-! AGT_FAB_LOSS (R282) -/
def AGT_FAB_LOSS.SEQ : Fld := ⟨.agate, 0xD00000, 0x18, 0, 1, 0, 1, 0, 16, .ro, 0x0, 0x0⟩
def AGT_FAB_LOSS.NODE : Fld := ⟨.agate, 0xD00000, 0x18, 0, 1, 0, 1, 16, 4, .ro, 0x0, 0x0⟩
def AGT_FAB_LOSS.CAUSE : Fld := ⟨.agate, 0xD00000, 0x18, 0, 1, 0, 1, 20, 4, .ro, 0x0, 0x0⟩
def AGT_FAB_LOSS.EPOCH : Fld := ⟨.agate, 0xD00000, 0x18, 0, 1, 0, 1, 32, 32, .ro, 0x0, 0x0⟩
/-! AGT_FAB_LOSSCTX (R282) -/
def AGT_FAB_LOSSCTX.CTX : Fld := ⟨.agate, 0xD00000, 0x40, 8, 8, 0, 1, 0, 64, .ro, 0x0, 0x0⟩
/-! AGT_FAB_LINK (R282) -/
def AGT_FAB_LINK.STATE : Fld := ⟨.agate, 0xD00000, 0x100, 8, 9, 0, 1, 0, 2, .ro, 0x0, 0x0⟩
def AGT_FAB_LINK.HALF : Fld := ⟨.agate, 0xD00000, 0x100, 8, 9, 0, 1, 2, 1, .ro, 0x0, 0x0⟩
def AGT_FAB_LINK.REPLAY : Fld := ⟨.agate, 0xD00000, 0x100, 8, 9, 0, 1, 16, 16, .rc, 0x0, 0x0⟩
def AGT_FAB_LINK.CRCERR : Fld := ⟨.agate, 0xD00000, 0x100, 8, 9, 0, 1, 32, 16, .rc, 0x0, 0x0⟩
/-! ONX_FAB_PORT (R282) -/
def ONX_FAB_PORT.STATE : Fld := ⟨.onyx, 0x700000, 0x0, 8, 3, 0, 1, 0, 2, .ro, 0x0, 0x0⟩
def ONX_FAB_PORT.HALF : Fld := ⟨.onyx, 0x700000, 0x0, 8, 3, 0, 1, 2, 1, .ro, 0x0, 0x0⟩
def ONX_FAB_PORT.REPLAY : Fld := ⟨.onyx, 0x700000, 0x0, 8, 3, 0, 1, 16, 16, .rc, 0x0, 0x0⟩
def ONX_FAB_PORT.CRCERR : Fld := ⟨.onyx, 0x700000, 0x0, 8, 3, 0, 1, 32, 16, .rc, 0x0, 0x0⟩
/-! AGT_SCHED_STATUS (R315) -/
def AGT_SCHED_STATUS.CFG_ERR : Fld := ⟨.agate, 0x200000, 0x0, 0, 1, 0, 1, 0, 1, .w1c, 0x0, 0x0⟩
def AGT_SCHED_STATUS.STEPCTX : Fld := ⟨.agate, 0x200000, 0x0, 0, 1, 0, 1, 1, 6, .ro, 0x0, 0x0⟩
/-! AGT_SCHED_RSV (R315) -/
def AGT_SCHED_RSV.RSV : Fld := ⟨.agate, 0x200000, 0x8, 0, 1, 0, 1, 0, 7, .rw, 0x8, 0x8⟩
/-! AGT_SCHED_HOSTEVQ (R315) -/
def AGT_SCHED_HOSTEVQ.LOC : Fld := ⟨.agate, 0x200000, 0x10, 0, 1, 0, 1, 0, 1, .rw, 0x0, 0x0⟩
def AGT_SCHED_HOSTEVQ.SIZE_LOG2 : Fld := ⟨.agate, 0x200000, 0x10, 0, 1, 0, 1, 1, 4, .rw, 0x4, 0x4⟩
def AGT_SCHED_HOSTEVQ.BASE : Fld := ⟨.agate, 0x200000, 0x10, 0, 1, 0, 1, 12, 52, .rw, 0x0, 0x0⟩
/-! AGT_SCHED_PART_EVQ (R315) -/
def AGT_SCHED_PART_EVQ.LOC : Fld := ⟨.agate, 0x200000, 0x108, 32, 16, 0, 1, 0, 1, .rw, 0x0, 0x0⟩
def AGT_SCHED_PART_EVQ.SIZE_LOG2 : Fld := ⟨.agate, 0x200000, 0x108, 32, 16, 0, 1, 1, 4, .rw, 0x4, 0x4⟩
def AGT_SCHED_PART_EVQ.BASE : Fld := ⟨.agate, 0x200000, 0x108, 32, 16, 0, 1, 12, 52, .rw, 0x0, 0x0⟩
/-! AGT_SCHED_HOSTEVQSTAT (R315) -/
def AGT_SCHED_HOSTEVQSTAT.TAIL : Fld := ⟨.agate, 0x200000, 0x18, 0, 1, 0, 1, 0, 15, .ro, 0x0, 0x0⟩
def AGT_SCHED_HOSTEVQSTAT.HEAD : Fld := ⟨.agate, 0x200000, 0x18, 0, 1, 0, 1, 16, 15, .rw, 0x0, 0x0⟩
def AGT_SCHED_HOSTEVQSTAT.LOST : Fld := ⟨.agate, 0x200000, 0x18, 0, 1, 0, 1, 32, 16, .rc, 0x0, 0x0⟩
/-! AGT_SCHED_PART_EVQSTAT (R315) -/
def AGT_SCHED_PART_EVQSTAT.TAIL : Fld := ⟨.agate, 0x200000, 0x110, 32, 16, 0, 1, 0, 15, .ro, 0x0, 0x0⟩
def AGT_SCHED_PART_EVQSTAT.HEAD : Fld := ⟨.agate, 0x200000, 0x110, 32, 16, 0, 1, 16, 15, .rw, 0x0, 0x0⟩
def AGT_SCHED_PART_EVQSTAT.LOST : Fld := ⟨.agate, 0x200000, 0x110, 32, 16, 0, 1, 32, 16, .rc, 0x0, 0x0⟩
/-! AGT_SCHED_PART_CFG (R315) -/
def AGT_SCHED_PART_CFG.MODE : Fld := ⟨.agate, 0x200000, 0x100, 32, 16, 0, 1, 0, 1, .rw, 0x0, 0x0⟩
def AGT_SCHED_PART_CFG.RATE : Fld := ⟨.agate, 0x200000, 0x100, 32, 16, 0, 1, 1, 7, .rw, 0x0, 0x0⟩
def AGT_SCHED_PART_CFG.BURST : Fld := ⟨.agate, 0x200000, 0x100, 32, 16, 0, 1, 16, 16, .rw, 0x100, 0x100⟩
def AGT_SCHED_PART_CFG.CHMASK : Fld := ⟨.agate, 0x200000, 0x100, 32, 16, 0, 1, 32, 16, .rw, 0x0, 0x0⟩
/-! AGT_SCHED_CTX_CFG (R315) -/
def AGT_SCHED_CTX_CFG.PART : Fld := ⟨.agate, 0x200000, 0x10000, 128, 512, 0, 1, 0, 4, .rw, 0x0, 0x0⟩
def AGT_SCHED_CTX_CFG.CLASS : Fld := ⟨.agate, 0x200000, 0x10000, 128, 512, 0, 1, 4, 2, .rw, 0x0, 0x0⟩
def AGT_SCHED_CTX_CFG.PRIO : Fld := ⟨.agate, 0x200000, 0x10000, 128, 512, 0, 1, 6, 3, .rw, 0x0, 0x0⟩
def AGT_SCHED_CTX_CFG.NOPREEMPT : Fld := ⟨.agate, 0x200000, 0x10000, 128, 512, 0, 1, 9, 1, .rw, 0x0, 0x0⟩
def AGT_SCHED_CTX_CFG.SQ_LOG2 : Fld := ⟨.agate, 0x200000, 0x10000, 128, 512, 0, 1, 16, 4, .rw, 0x4, 0x4⟩
def AGT_SCHED_CTX_CFG.DEPTH_M1 : Fld := ⟨.agate, 0x200000, 0x10000, 128, 512, 0, 1, 20, 12, .rw, 0xE, 0xE⟩
def AGT_SCHED_CTX_CFG.SQ_LOC : Fld := ⟨.agate, 0x200000, 0x10000, 128, 512, 0, 1, 32, 1, .rw, 0x0, 0x0⟩
def AGT_SCHED_CTX_CFG.CQ_LOC : Fld := ⟨.agate, 0x200000, 0x10000, 128, 512, 0, 1, 33, 1, .rw, 0x0, 0x0⟩
def AGT_SCHED_CTX_CFG.VECTOR : Fld := ⟨.agate, 0x200000, 0x10000, 128, 512, 0, 1, 36, 11, .rw, 0x0, 0x0⟩
/-! AGT_SCHED_CTX_SQ (R315) -/
def AGT_SCHED_CTX_SQ.BASE : Fld := ⟨.agate, 0x200000, 0x10008, 128, 512, 0, 1, 0, 64, .rw, 0x0, 0x0⟩
/-! AGT_SCHED_CTX_CQ (R315) -/
def AGT_SCHED_CTX_CQ.BASE : Fld := ⟨.agate, 0x200000, 0x10010, 128, 512, 0, 1, 0, 64, .rw, 0x0, 0x0⟩
/-! AGT_SCHED_CTX_SAVE (R315) -/
def AGT_SCHED_CTX_SAVE.BASE : Fld := ⟨.agate, 0x200000, 0x10028, 128, 512, 0, 1, 0, 28, .rw, 0x0, 0x0⟩
/-! AGT_SCHED_CTX_RESTAGE (R315) -/
def AGT_SCHED_CTX_RESTAGE.BASE : Fld := ⟨.agate, 0x200000, 0x10030, 128, 512, 0, 1, 0, 28, .rw, 0x0, 0x0⟩
def AGT_SCHED_CTX_RESTAGE.COUNT : Fld := ⟨.agate, 0x200000, 0x10030, 128, 512, 0, 1, 28, 8, .rw, 0x0, 0x0⟩
/-! AGT_SCHED_CTX_CTRL (R315) -/
def AGT_SCHED_CTX_CTRL.OP : Fld := ⟨.agate, 0x200000, 0x10038, 128, 512, 0, 1, 0, 3, .wo, 0x0, 0x0⟩
/-! AGT_SCHED_CTX_DB (R315) -/
def AGT_SCHED_CTX_DB.SQ_TAIL : Fld := ⟨.agate, 0x200000, 0x10040, 128, 512, 0, 1, 0, 15, .wo, 0x0, 0x0⟩
def AGT_SCHED_CTX_DB.CQ_HEAD : Fld := ⟨.agate, 0x200000, 0x10040, 128, 512, 0, 1, 16, 15, .wo, 0x0, 0x0⟩
def AGT_SCHED_CTX_DB.SQ_V : Fld := ⟨.agate, 0x200000, 0x10040, 128, 512, 0, 1, 32, 1, .wo, 0x0, 0x0⟩
def AGT_SCHED_CTX_DB.CQ_V : Fld := ⟨.agate, 0x200000, 0x10040, 128, 512, 0, 1, 33, 1, .wo, 0x0, 0x0⟩
/-! AGT_SCHED_CTX_STAT (R315) -/
def AGT_SCHED_CTX_STAT.STATE : Fld := ⟨.agate, 0x200000, 0x10048, 128, 512, 0, 1, 0, 3, .ro, 0x0, 0x0⟩
def AGT_SCHED_CTX_STAT.RESTAGE_ERR : Fld := ⟨.agate, 0x200000, 0x10048, 128, 512, 0, 1, 3, 1, .w1c, 0x0, 0x0⟩
def AGT_SCHED_CTX_STAT.OUTSTANDING : Fld := ⟨.agate, 0x200000, 0x10048, 128, 512, 0, 1, 4, 13, .ro, 0x0, 0x0⟩
def AGT_SCHED_CTX_STAT.SQ_HEAD : Fld := ⟨.agate, 0x200000, 0x10048, 128, 512, 0, 1, 17, 15, .ro, 0x0, 0x0⟩
def AGT_SCHED_CTX_STAT.CDONE : Fld := ⟨.agate, 0x200000, 0x10048, 128, 512, 0, 1, 32, 32, .ro, 0xFFFFFFFF, 0xFFFFFFFF⟩
/-! AGT_RFX_STATUS (R332) -/
def AGT_RFX_STATUS.ARMED : Fld := ⟨.agate, 0x400000, 0x0, 0, 1, 0, 1, 0, 32, .ro, 0x0, 0x0⟩
def AGT_RFX_STATUS.FAULT : Fld := ⟨.agate, 0x400000, 0x0, 0, 1, 0, 1, 32, 32, .ro, 0x0, 0x0⟩
/-! AGT_RFX_CMD (R332) -/
def AGT_RFX_CMD.OP : Fld := ⟨.agate, 0x400000, 0x8, 0, 1, 0, 1, 0, 3, .wo, 0x0, 0x0⟩
def AGT_RFX_CMD.CHMASK : Fld := ⟨.agate, 0x400000, 0x8, 0, 1, 0, 1, 32, 32, .wo, 0x0, 0x0⟩
/-! AGT_RFX_CMDSTAT (R332) -/
def AGT_RFX_CMDSTAT.STATUS : Fld := ⟨.agate, 0x400000, 0x10, 0, 1, 0, 1, 0, 8, .ro, 0x0, 0x0⟩
def AGT_RFX_CMDSTAT.CFG_ERR : Fld := ⟨.agate, 0x400000, 0x10, 0, 1, 0, 1, 8, 1, .w1c, 0x0, 0x0⟩
def AGT_RFX_CMDSTAT.FAILMASK : Fld := ⟨.agate, 0x400000, 0x10, 0, 1, 0, 1, 32, 32, .ro, 0x0, 0x0⟩
/-! AGT_RFX_SWAP (R332) -/
def AGT_RFX_SWAP.CHMASK : Fld := ⟨.agate, 0x400000, 0x18, 0, 1, 0, 1, 0, 32, .wo, 0x0, 0x0⟩
/-! AGT_RFX_TELRING (R332) -/
def AGT_RFX_TELRING.BASE : Fld := ⟨.agate, 0x400000, 0x20, 0, 1, 0, 1, 0, 28, .rw, 0x0, 0x0⟩
def AGT_RFX_TELRING.NODE : Fld := ⟨.agate, 0x400000, 0x20, 0, 1, 0, 1, 28, 4, .rw, 0x0, 0x0⟩
def AGT_RFX_TELRING.DEPTH_M1 : Fld := ⟨.agate, 0x400000, 0x20, 0, 1, 0, 1, 32, 8, .rw, 0x0, 0x0⟩
/-! AGT_RFX_TELCNT (R332) -/
def AGT_RFX_TELCNT.RECORDS : Fld := ⟨.agate, 0x400000, 0x28, 0, 1, 0, 1, 0, 32, .ro, 0x0, 0x0⟩
def AGT_RFX_TELCNT.LOST : Fld := ⟨.agate, 0x400000, 0x28, 0, 1, 0, 1, 32, 16, .rc, 0x0, 0x0⟩
/-! AGT_RFX_CFG (R332) -/
def AGT_RFX_CFG.VECTOR : Fld := ⟨.agate, 0x400000, 0x30, 0, 1, 0, 1, 0, 11, .rw, 0x0, 0x0⟩
def AGT_RFX_CFG.IRQ_EN : Fld := ⟨.agate, 0x400000, 0x30, 0, 1, 0, 1, 11, 1, .rw, 0x0, 0x0⟩
/-! AGT_RFX_CH_CFG (R332) -/
def AGT_RFX_CH_CFG.SRC : Fld := ⟨.agate, 0x400000, 0x1000, 64, 32, 0, 1, 0, 2, .rw, 0x0, 0x0⟩
def AGT_RFX_CH_CFG.COMPL : Fld := ⟨.agate, 0x400000, 0x1000, 64, 32, 0, 1, 2, 1, .rw, 0x1, 0x1⟩
def AGT_RFX_CH_CFG.CB_POL : Fld := ⟨.agate, 0x400000, 0x1000, 64, 32, 0, 1, 3, 1, .rw, 0x0, 0x0⟩
def AGT_RFX_CH_CFG.CB_THRESH : Fld := ⟨.agate, 0x400000, 0x1000, 64, 32, 0, 1, 4, 10, .rw, 0x3FF, 0x3FF⟩
def AGT_RFX_CH_CFG.DESAT_EN : Fld := ⟨.agate, 0x400000, 0x1000, 64, 32, 0, 1, 14, 1, .rw, 0x1, 0x1⟩
def AGT_RFX_CH_CFG.DESAT_POL : Fld := ⟨.agate, 0x400000, 0x1000, 64, 32, 0, 1, 15, 1, .rw, 0x0, 0x0⟩
def AGT_RFX_CH_CFG.DESAT_FILT : Fld := ⟨.agate, 0x400000, 0x1000, 64, 32, 0, 1, 16, 4, .rw, 0x0, 0x0⟩
def AGT_RFX_CH_CFG.SAFE_LINK : Fld := ⟨.agate, 0x400000, 0x1000, 64, 32, 0, 1, 20, 1, .rw, 0x1, 0x1⟩
def AGT_RFX_CH_CFG.TEL : Fld := ⟨.agate, 0x400000, 0x1000, 64, 32, 0, 1, 21, 2, .rw, 0x0, 0x0⟩
def AGT_RFX_CH_CFG.STEP_INC : Fld := ⟨.agate, 0x400000, 0x1000, 64, 32, 0, 1, 24, 16, .rw, 0x1, 0x1⟩
/-! AGT_RFX_CH_BANKA0 (R332) -/
def AGT_RFX_CH_BANKA0.BAND : Fld := ⟨.agate, 0x400000, 0x1008, 64, 32, 0, 1, 0, 8, .rw, 0x0, 0x0⟩
def AGT_RFX_CH_BANKA0.SP_GAIN : Fld := ⟨.agate, 0x400000, 0x1008, 64, 32, 0, 1, 8, 16, .rw, 0x0, 0x0⟩
def AGT_RFX_CH_BANKA0.SP_OFS : Fld := ⟨.agate, 0x400000, 0x1008, 64, 32, 0, 1, 24, 11, .rw, 0x200, 0x200⟩
/-! AGT_RFX_CH_BANKB0 (R332) -/
def AGT_RFX_CH_BANKB0.BAND : Fld := ⟨.agate, 0x400000, 0x1018, 64, 32, 0, 1, 0, 8, .rw, 0x0, 0x0⟩
def AGT_RFX_CH_BANKB0.SP_GAIN : Fld := ⟨.agate, 0x400000, 0x1018, 64, 32, 0, 1, 8, 16, .rw, 0x0, 0x0⟩
def AGT_RFX_CH_BANKB0.SP_OFS : Fld := ⟨.agate, 0x400000, 0x1018, 64, 32, 0, 1, 24, 11, .rw, 0x200, 0x200⟩
/-! AGT_RFX_CH_BANKA1 (R332) -/
def AGT_RFX_CH_BANKA1.BLANK : Fld := ⟨.agate, 0x400000, 0x1010, 64, 32, 0, 1, 0, 8, .rw, 0x28, 0x28⟩
def AGT_RFX_CH_BANKA1.DEADTIME : Fld := ⟨.agate, 0x400000, 0x1010, 64, 32, 0, 1, 8, 8, .rw, 0x14, 0x14⟩
def AGT_RFX_CH_BANKA1.MIN_ON : Fld := ⟨.agate, 0x400000, 0x1010, 64, 32, 0, 1, 16, 12, .rw, 0x32, 0x32⟩
def AGT_RFX_CH_BANKA1.MIN_OFF : Fld := ⟨.agate, 0x400000, 0x1010, 64, 32, 0, 1, 28, 12, .rw, 0x32, 0x32⟩
/-! AGT_RFX_CH_BANKB1 (R332) -/
def AGT_RFX_CH_BANKB1.BLANK : Fld := ⟨.agate, 0x400000, 0x1020, 64, 32, 0, 1, 0, 8, .rw, 0x28, 0x28⟩
def AGT_RFX_CH_BANKB1.DEADTIME : Fld := ⟨.agate, 0x400000, 0x1020, 64, 32, 0, 1, 8, 8, .rw, 0x14, 0x14⟩
def AGT_RFX_CH_BANKB1.MIN_ON : Fld := ⟨.agate, 0x400000, 0x1020, 64, 32, 0, 1, 16, 12, .rw, 0x32, 0x32⟩
def AGT_RFX_CH_BANKB1.MIN_OFF : Fld := ⟨.agate, 0x400000, 0x1020, 64, 32, 0, 1, 28, 12, .rw, 0x32, 0x32⟩
/-! AGT_RFX_CH_SP (R332) -/
def AGT_RFX_CH_SP.U : Fld := ⟨.agate, 0x400000, 0x1028, 64, 32, 0, 1, 0, 16, .rw, 0x0, 0x0⟩
/-! AGT_RFX_CH_STAT (R332) -/
def AGT_RFX_CH_STAT.STATE : Fld := ⟨.agate, 0x400000, 0x1030, 64, 32, 0, 1, 0, 2, .ro, 0x0, 0x0⟩
def AGT_RFX_CH_STAT.PHASE : Fld := ⟨.agate, 0x400000, 0x1030, 64, 32, 0, 1, 2, 1, .ro, 0x0, 0x0⟩
def AGT_RFX_CH_STAT.BANK : Fld := ⟨.agate, 0x400000, 0x1030, 64, 32, 0, 1, 3, 1, .ro, 0x0, 0x0⟩
def AGT_RFX_CH_STAT.SWAP_PEND : Fld := ⟨.agate, 0x400000, 0x1030, 64, 32, 0, 1, 4, 1, .ro, 0x0, 0x0⟩
def AGT_RFX_CH_STAT.CAUSE : Fld := ⟨.agate, 0x400000, 0x1030, 64, 32, 0, 1, 5, 4, .ro, 0x0, 0x0⟩
def AGT_RFX_CH_STAT.CB_NOW : Fld := ⟨.agate, 0x400000, 0x1030, 64, 32, 0, 1, 9, 1, .ro, 0x0, 0x0⟩
def AGT_RFX_CH_STAT.DESAT_NOW : Fld := ⟨.agate, 0x400000, 0x1030, 64, 32, 0, 1, 10, 1, .ro, 0x0, 0x0⟩
def AGT_RFX_CH_STAT.U : Fld := ⟨.agate, 0x400000, 0x1030, 64, 32, 0, 1, 16, 16, .ro, 0x0, 0x0⟩
def AGT_RFX_CH_STAT.THR_HI : Fld := ⟨.agate, 0x400000, 0x1030, 64, 32, 0, 1, 32, 10, .ro, 0x0, 0x0⟩
def AGT_RFX_CH_STAT.THR_LO : Fld := ⟨.agate, 0x400000, 0x1030, 64, 32, 0, 1, 42, 10, .ro, 0x0, 0x0⟩
/-! AGT_RFX_CH_CNT (R332) -/
def AGT_RFX_CH_CNT.ON_EDGES : Fld := ⟨.agate, 0x400000, 0x1038, 64, 32, 0, 1, 0, 32, .ro, 0x0, 0x0⟩
def AGT_RFX_CH_CNT.LAST_PERIOD : Fld := ⟨.agate, 0x400000, 0x1038, 64, 32, 0, 1, 32, 32, .ro, 0x0, 0x0⟩
/-! BRL_CH_THRESH (R334) -/
def BRL_CH_THRESH.HI : Fld := ⟨.agate, 0x500000, 0x0, 32, 32, 0, 1, 0, 10, .ro, 0x3FF, 0x3FF⟩
def BRL_CH_THRESH.LO : Fld := ⟨.agate, 0x500000, 0x0, 32, 32, 0, 1, 16, 10, .ro, 0x0, 0x0⟩
/-! BRL_CH_CB (R334) -/
def BRL_CH_CB.CODE : Fld := ⟨.agate, 0x500000, 0x8, 32, 32, 0, 1, 0, 10, .ro, 0x3FF, 0x3FF⟩
/-! BRL_CH_TRIM (R334) -/
def BRL_CH_TRIM.HI_OFS : Fld := ⟨.agate, 0x500000, 0x10, 32, 32, 0, 1, 0, 6, .rw, 0x0, 0x0⟩
def BRL_CH_TRIM.LO_OFS : Fld := ⟨.agate, 0x500000, 0x10, 32, 32, 0, 1, 6, 6, .rw, 0x0, 0x0⟩
def BRL_CH_TRIM.CB_OFS : Fld := ⟨.agate, 0x500000, 0x10, 32, 32, 0, 1, 12, 6, .rw, 0x0, 0x0⟩
/-! AGT_TIME_CTRL (R352) -/
def AGT_TIME_CTRL.MODE : Fld := ⟨.agate, 0x300000, 0x0, 0, 1, 0, 1, 0, 2, .rw, 0x0, 0x0⟩
def AGT_TIME_CTRL.SRC_PORT : Fld := ⟨.agate, 0x300000, 0x0, 0, 1, 0, 1, 2, 1, .rw, 0x0, 0x0⟩
def AGT_TIME_CTRL.PPS_EN : Fld := ⟨.agate, 0x300000, 0x0, 0, 1, 0, 1, 3, 1, .rw, 0x0, 0x0⟩
def AGT_TIME_CTRL.IRQ_EN : Fld := ⟨.agate, 0x300000, 0x0, 0, 1, 0, 1, 4, 1, .rw, 0x0, 0x0⟩
def AGT_TIME_CTRL.VECTOR : Fld := ⟨.agate, 0x300000, 0x0, 0, 1, 0, 1, 16, 11, .rw, 0x0, 0x0⟩
def AGT_TIME_CTRL.DOMAIN : Fld := ⟨.agate, 0x300000, 0x0, 0, 1, 0, 1, 27, 8, .rw, 0x0, 0x0⟩
/-! AGT_TIME_STATUS (R352) -/
def AGT_TIME_STATUS.STATE : Fld := ⟨.agate, 0x300000, 0x8, 0, 1, 0, 1, 0, 2, .ro, 0x0, 0x0⟩
def AGT_TIME_STATUS.JUMP : Fld := ⟨.agate, 0x300000, 0x8, 0, 1, 0, 1, 2, 1, .w1c, 0x0, 0x0⟩
def AGT_TIME_STATUS.RELOCK : Fld := ⟨.agate, 0x300000, 0x8, 0, 1, 0, 1, 3, 1, .ro, 0x0, 0x0⟩
def AGT_TIME_STATUS.MASTER_CHG : Fld := ⟨.agate, 0x300000, 0x8, 0, 1, 0, 1, 4, 1, .w1c, 0x0, 0x0⟩
def AGT_TIME_STATUS.STEPPED : Fld := ⟨.agate, 0x300000, 0x8, 0, 1, 0, 1, 5, 1, .w1c, 0x0, 0x0⟩
def AGT_TIME_STATUS.HELD : Fld := ⟨.agate, 0x300000, 0x8, 0, 1, 0, 1, 6, 1, .ro, 0x0, 0x0⟩
def AGT_TIME_STATUS.CFG_ERR : Fld := ⟨.agate, 0x300000, 0x8, 0, 1, 0, 1, 7, 1, .w1c, 0x0, 0x0⟩
/-! AGT_TIME_NOW (R352) -/
def AGT_TIME_NOW.TIME : Fld := ⟨.agate, 0x300000, 0x10, 0, 1, 0, 1, 0, 64, .ro, 0x0, 0x0⟩
/-! AGT_TIME_PTPL (R352) -/
def AGT_TIME_PTPL.TIME : Fld := ⟨.agate, 0x300000, 0x18, 0, 1, 0, 1, 0, 64, .ro, 0x0, 0x0⟩
/-! AGT_TIME_OFFSET (R352) -/
def AGT_TIME_OFFSET.OFFSET : Fld := ⟨.agate, 0x300000, 0x20, 0, 1, 0, 1, 0, 64, .ro, 0x0, 0x0⟩
/-! AGT_TIME_RATE (R352) -/
def AGT_TIME_RATE.RATE : Fld := ⟨.agate, 0x300000, 0x28, 0, 1, 0, 1, 0, 32, .rw, 0x0, 0x0⟩
/-! AGT_TIME_ADJ (R352) -/
def AGT_TIME_ADJ.ADD : Fld := ⟨.agate, 0x300000, 0x30, 0, 1, 0, 1, 0, 64, .wo, 0x0, 0x0⟩
/-! AGT_TIME_CMD (R352) -/
def AGT_TIME_CMD.ACCEPT : Fld := ⟨.agate, 0x300000, 0x38, 0, 1, 0, 1, 0, 1, .wo, 0x0, 0x0⟩
/-! AGT_TIME_MASTER (R352) -/
def AGT_TIME_MASTER.CLOCK_ID : Fld := ⟨.agate, 0x300000, 0x40, 0, 1, 0, 1, 0, 64, .rw, 0x0, 0x0⟩
/-! AGT_TIME_PATHDLY (R352) -/
def AGT_TIME_PATHDLY.DELAY : Fld := ⟨.agate, 0x300000, 0x48, 0, 1, 0, 1, 0, 32, .rw, 0x0, 0x0⟩
/-! AGT_TIME_SAMPLE (R352) -/
def AGT_TIME_SAMPLE.THETA : Fld := ⟨.agate, 0x300000, 0x50, 0, 1, 0, 1, 0, 32, .ro, 0x0, 0x0⟩
def AGT_TIME_SAMPLE.COUNT : Fld := ⟨.agate, 0x300000, 0x50, 0, 1, 0, 1, 32, 32, .ro, 0x0, 0x0⟩
/-! AGT_TIME_SWSAMPLE (R352) -/
def AGT_TIME_SWSAMPLE.THETA : Fld := ⟨.agate, 0x300000, 0x58, 0, 1, 0, 1, 0, 32, .wo, 0x0, 0x0⟩
/-! AGT_TIME_JUMPCNT (R352) -/
def AGT_TIME_JUMPCNT.COUNT : Fld := ⟨.agate, 0x300000, 0x60, 0, 1, 0, 1, 0, 16, .rc, 0x0, 0x0⟩
/-! AGT_TIME_TXTSQ (R352) -/
def AGT_TIME_TXTSQ.TSID : Fld := ⟨.agate, 0x300000, 0x100, 32, 2, 0, 1, 0, 16, .rc, 0x0, 0x0⟩
def AGT_TIME_TXTSQ.VALID : Fld := ⟨.agate, 0x300000, 0x100, 32, 2, 0, 1, 16, 1, .rc, 0x0, 0x0⟩
def AGT_TIME_TXTSQ.GAP : Fld := ⟨.agate, 0x300000, 0x100, 32, 2, 0, 1, 17, 1, .rc, 0x0, 0x0⟩
def AGT_TIME_TXTSQ.LEVEL : Fld := ⟨.agate, 0x300000, 0x100, 32, 2, 0, 1, 18, 5, .ro, 0x0, 0x0⟩
/-! AGT_TIME_TXTSV (R352) -/
def AGT_TIME_TXTSV.TIME : Fld := ⟨.agate, 0x300000, 0x108, 32, 2, 0, 1, 0, 64, .ro, 0x0, 0x0⟩
/-! AGT_TIME_TXTSCNT (R352) -/
def AGT_TIME_TXTSCNT.LOST : Fld := ⟨.agate, 0x300000, 0x110, 32, 2, 0, 1, 0, 16, .rc, 0x0, 0x0⟩
/-! AGT_UNC_DICT_REQ (R358) -/
def AGT_UNC_DICT_REQ.OP : Fld := ⟨.agate, 0x0, 0x1000, 32, 2, 0, 1, 0, 2, .wo, 0x0, 0x0⟩
def AGT_UNC_DICT_REQ.SUB : Fld := ⟨.agate, 0x0, 0x1000, 32, 2, 0, 1, 8, 8, .wo, 0x0, 0x0⟩
def AGT_UNC_DICT_REQ.INDEX : Fld := ⟨.agate, 0x0, 0x1000, 32, 2, 0, 1, 16, 16, .wo, 0x0, 0x0⟩
def AGT_UNC_DICT_REQ.OFFSET : Fld := ⟨.agate, 0x0, 0x1000, 32, 2, 0, 1, 32, 24, .wo, 0x0, 0x0⟩
/-! AGT_UNC_DICT_DATA (R358) -/
def AGT_UNC_DICT_DATA.VALUE : Fld := ⟨.agate, 0x0, 0x1008, 32, 2, 0, 1, 0, 64, .rw, 0x0, 0x0⟩
/-! AGT_UNC_DICT_RSP (R358) -/
def AGT_UNC_DICT_RSP.BUSY : Fld := ⟨.agate, 0x0, 0x1010, 32, 2, 0, 1, 0, 1, .ro, 0x0, 0x0⟩
def AGT_UNC_DICT_RSP.CFG_ERR : Fld := ⟨.agate, 0x0, 0x1010, 32, 2, 0, 1, 1, 1, .w1c, 0x0, 0x0⟩
def AGT_UNC_DICT_RSP.STATUS : Fld := ⟨.agate, 0x0, 0x1010, 32, 2, 0, 1, 8, 8, .ro, 0x0, 0x0⟩
def AGT_UNC_DICT_RSP.SIZE : Fld := ⟨.agate, 0x0, 0x1010, 32, 2, 0, 1, 16, 24, .ro, 0x0, 0x0⟩
/-! AGT_UNC_DICT_ABORT (R358) -/
def AGT_UNC_DICT_ABORT.CODE : Fld := ⟨.agate, 0x0, 0x1018, 32, 2, 0, 1, 0, 32, .ro, 0x0, 0x0⟩
/-! AGT_ECAT_CTRL (R381) -/
def AGT_ECAT_CTRL.RUN : Fld := ⟨.agate, 0x800000, 0x0, 0, 1, 0, 1, 0, 1, .rw, 0x0, 0x0⟩
def AGT_ECAT_CTRL.RING : Fld := ⟨.agate, 0x800000, 0x0, 0, 1, 0, 1, 1, 1, .rw, 0x0, 0x0⟩
def AGT_ECAT_CTRL.IRQ_EN : Fld := ⟨.agate, 0x800000, 0x0, 0, 1, 0, 1, 2, 1, .rw, 0x0, 0x0⟩
def AGT_ECAT_CTRL.VECTOR : Fld := ⟨.agate, 0x800000, 0x0, 0, 1, 0, 1, 16, 11, .rw, 0x0, 0x0⟩
/-! AGT_ECAT_STATUS (R381) -/
def AGT_ECAT_STATUS.LINK0 : Fld := ⟨.agate, 0x800000, 0x8, 0, 1, 0, 1, 0, 1, .ro, 0x0, 0x0⟩
def AGT_ECAT_STATUS.LINK1 : Fld := ⟨.agate, 0x800000, 0x8, 0, 1, 0, 1, 1, 1, .ro, 0x0, 0x0⟩
def AGT_ECAT_STATUS.RING_BROKEN : Fld := ⟨.agate, 0x800000, 0x8, 0, 1, 0, 1, 2, 1, .ro, 0x0, 0x0⟩
def AGT_ECAT_STATUS.CFG_ERR : Fld := ⟨.agate, 0x800000, 0x8, 0, 1, 0, 1, 3, 1, .w1c, 0x0, 0x0⟩
def AGT_ECAT_STATUS.LATE : Fld := ⟨.agate, 0x800000, 0x8, 0, 1, 0, 1, 4, 1, .w1c, 0x0, 0x0⟩
def AGT_ECAT_STATUS.LATECNT : Fld := ⟨.agate, 0x800000, 0x8, 0, 1, 0, 1, 16, 16, .rc, 0x0, 0x0⟩
def AGT_ECAT_STATUS.CYCLE : Fld := ⟨.agate, 0x800000, 0x8, 0, 1, 0, 1, 32, 32, .ro, 0x0, 0x0⟩
/-! AGT_ECAT_IMG (R381) -/
def AGT_ECAT_IMG.OUT_SIZE : Fld := ⟨.agate, 0x800000, 0x10, 0, 1, 0, 1, 0, 13, .rw, 0x0, 0x0⟩
def AGT_ECAT_IMG.IN_SIZE : Fld := ⟨.agate, 0x800000, 0x10, 0, 1, 0, 1, 16, 13, .rw, 0x0, 0x0⟩
/-! AGT_ECAT_INSEQ (R381) -/
def AGT_ECAT_INSEQ.SEQ : Fld := ⟨.agate, 0x800000, 0x18, 0, 1, 0, 1, 0, 32, .ro, 0x0, 0x0⟩
/-! AGT_ECAT_VALID (R381) -/
def AGT_ECAT_VALID.POS : Fld := ⟨.agate, 0x800000, 0x20, 8, 2, 0, 1, 0, 64, .ro, 0x0, 0x0⟩
/-! AGT_ECAT_MBX_REQ (R381) -/
def AGT_ECAT_MBX_REQ.OP : Fld := ⟨.agate, 0x800000, 0x40, 0, 1, 0, 1, 0, 2, .wo, 0x0, 0x0⟩
def AGT_ECAT_MBX_REQ.POS : Fld := ⟨.agate, 0x800000, 0x40, 0, 1, 0, 1, 8, 7, .wo, 0x0, 0x0⟩
def AGT_ECAT_MBX_REQ.SUB : Fld := ⟨.agate, 0x800000, 0x40, 0, 1, 0, 1, 16, 8, .wo, 0x0, 0x0⟩
def AGT_ECAT_MBX_REQ.INDEX : Fld := ⟨.agate, 0x800000, 0x40, 0, 1, 0, 1, 24, 16, .wo, 0x0, 0x0⟩
def AGT_ECAT_MBX_REQ.OFFSET : Fld := ⟨.agate, 0x800000, 0x40, 0, 1, 0, 1, 40, 12, .wo, 0x0, 0x0⟩
/-! AGT_ECAT_MBX_DATA (R381) -/
def AGT_ECAT_MBX_DATA.VALUE : Fld := ⟨.agate, 0x800000, 0x48, 0, 1, 0, 1, 0, 64, .rw, 0x0, 0x0⟩
/-! AGT_ECAT_MBX_RSP (R381) -/
def AGT_ECAT_MBX_RSP.BUSY : Fld := ⟨.agate, 0x800000, 0x50, 0, 1, 0, 1, 0, 1, .ro, 0x0, 0x0⟩
def AGT_ECAT_MBX_RSP.CFG_ERR : Fld := ⟨.agate, 0x800000, 0x50, 0, 1, 0, 1, 1, 1, .w1c, 0x0, 0x0⟩
def AGT_ECAT_MBX_RSP.STATUS : Fld := ⟨.agate, 0x800000, 0x50, 0, 1, 0, 1, 8, 8, .ro, 0x0, 0x0⟩
def AGT_ECAT_MBX_RSP.SIZE : Fld := ⟨.agate, 0x800000, 0x50, 0, 1, 0, 1, 16, 16, .ro, 0x0, 0x0⟩
def AGT_ECAT_MBX_RSP.ABORT : Fld := ⟨.agate, 0x800000, 0x50, 0, 1, 0, 1, 32, 32, .ro, 0x0, 0x0⟩
/-! AGT_NET_CTRL (R387) -/
def AGT_NET_CTRL.ENABLE : Fld := ⟨.agate, 0x900000, 0x0, 4096, 2, 0, 1, 0, 1, .rw, 0x0, 0x0⟩
def AGT_NET_CTRL.IRQ_EN : Fld := ⟨.agate, 0x900000, 0x0, 4096, 2, 0, 1, 1, 1, .rw, 0x0, 0x0⟩
def AGT_NET_CTRL.VECTOR : Fld := ⟨.agate, 0x900000, 0x0, 4096, 2, 0, 1, 16, 11, .rw, 0x0, 0x0⟩
/-! AGT_NET_STAT (R387) -/
def AGT_NET_STAT.LINK : Fld := ⟨.agate, 0x900000, 0x8, 4096, 2, 0, 1, 0, 1, .ro, 0x0, 0x0⟩
def AGT_NET_STAT.FEC_ACTIVE : Fld := ⟨.agate, 0x900000, 0x8, 4096, 2, 0, 1, 1, 1, .ro, 0x0, 0x0⟩
def AGT_NET_STAT.CFG_ERR : Fld := ⟨.agate, 0x900000, 0x8, 4096, 2, 0, 1, 2, 1, .w1c, 0x0, 0x0⟩
/-! AGT_NET_TXRING (R387) -/
def AGT_NET_TXRING.BASE : Fld := ⟨.agate, 0x900000, 0x10, 4096, 2, 0, 1, 0, 28, .rw, 0x0, 0x0⟩
def AGT_NET_TXRING.NODE : Fld := ⟨.agate, 0x900000, 0x10, 4096, 2, 0, 1, 28, 4, .rw, 0x0, 0x0⟩
def AGT_NET_TXRING.DEPTH_M1 : Fld := ⟨.agate, 0x900000, 0x10, 4096, 2, 0, 1, 32, 8, .rw, 0x0, 0x0⟩
/-! AGT_NET_RXRING (R387) -/
def AGT_NET_RXRING.BASE : Fld := ⟨.agate, 0x900000, 0x100, 32, 8, 4096, 2, 0, 28, .rw, 0x0, 0x0⟩
def AGT_NET_RXRING.NODE : Fld := ⟨.agate, 0x900000, 0x100, 32, 8, 4096, 2, 28, 4, .rw, 0x0, 0x0⟩
def AGT_NET_RXRING.DEPTH_M1 : Fld := ⟨.agate, 0x900000, 0x100, 32, 8, 4096, 2, 32, 8, .rw, 0x0, 0x0⟩
/-! AGT_NET_TXDB (R387) -/
def AGT_NET_TXDB.TAIL : Fld := ⟨.agate, 0x900000, 0x18, 4096, 2, 0, 1, 0, 8, .wo, 0x0, 0x0⟩
/-! AGT_NET_TXHEAD (R387) -/
def AGT_NET_TXHEAD.HEAD : Fld := ⟨.agate, 0x900000, 0x20, 4096, 2, 0, 1, 0, 8, .ro, 0x0, 0x0⟩
/-! AGT_NET_RXBUF (R387) -/
def AGT_NET_RXBUF.BASE : Fld := ⟨.agate, 0x900000, 0x108, 32, 8, 4096, 2, 0, 28, .rw, 0x0, 0x0⟩
def AGT_NET_RXBUF.NODE : Fld := ⟨.agate, 0x900000, 0x108, 32, 8, 4096, 2, 28, 4, .rw, 0x0, 0x0⟩
def AGT_NET_RXBUF.SIZE_LOG2 : Fld := ⟨.agate, 0x900000, 0x108, 32, 8, 4096, 2, 32, 4, .rw, 0xB, 0xB⟩
/-! AGT_NET_RXDB (R387) -/
def AGT_NET_RXDB.HEAD : Fld := ⟨.agate, 0x900000, 0x110, 32, 8, 4096, 2, 0, 8, .wo, 0x0, 0x0⟩
/-! AGT_NET_RXSTAT (R387) -/
def AGT_NET_RXSTAT.TAIL : Fld := ⟨.agate, 0x900000, 0x118, 32, 8, 4096, 2, 0, 8, .ro, 0x0, 0x0⟩
def AGT_NET_RXSTAT.DROP : Fld := ⟨.agate, 0x900000, 0x118, 32, 8, 4096, 2, 16, 16, .rc, 0x0, 0x0⟩
/-! AGT_NET_CANSTAT (R387) -/
def AGT_NET_CANSTAT.STATE : Fld := ⟨.agate, 0x900000, 0x4000, 256, 2, 0, 1, 0, 2, .ro, 0x0, 0x0⟩
def AGT_NET_CANSTAT.TEC : Fld := ⟨.agate, 0x900000, 0x4000, 256, 2, 0, 1, 8, 8, .ro, 0x0, 0x0⟩
def AGT_NET_CANSTAT.REC : Fld := ⟨.agate, 0x900000, 0x4000, 256, 2, 0, 1, 16, 8, .ro, 0x0, 0x0⟩
def AGT_NET_CANSTAT.BUSOFF_CNT : Fld := ⟨.agate, 0x900000, 0x4000, 256, 2, 0, 1, 32, 16, .rc, 0x0, 0x0⟩
/-! AGT_CMP_STATUS (R411) -/
def AGT_CMP_STATUS.ENABLED : Fld := ⟨.agate, 0x600000, 0x0, 0, 1, 0, 1, 0, 1, .ro, 0x0, 0x0⟩
def AGT_CMP_STATUS.LATCHED : Fld := ⟨.agate, 0x600000, 0x0, 0, 1, 0, 1, 1, 1, .ro, 0x0, 0x0⟩
def AGT_CMP_STATUS.CAUSE : Fld := ⟨.agate, 0x600000, 0x0, 0, 1, 0, 1, 2, 4, .ro, 0x0, 0x0⟩
def AGT_CMP_STATUS.CFG_ERR : Fld := ⟨.agate, 0x600000, 0x0, 0, 1, 0, 1, 7, 1, .w1c, 0x0, 0x0⟩
def AGT_CMP_STATUS.WIN_COUNT : Fld := ⟨.agate, 0x600000, 0x0, 0, 1, 0, 1, 8, 8, .ro, 0x0, 0x0⟩
def AGT_CMP_STATUS.CONSEC_RUN : Fld := ⟨.agate, 0x600000, 0x0, 0, 1, 0, 1, 16, 4, .ro, 0x0, 0x0⟩
/-! AGT_CMP_FRAME (R411) -/
def AGT_CMP_FRAME.INDEX : Fld := ⟨.agate, 0x600000, 0x8, 0, 1, 0, 1, 0, 32, .ro, 0x0, 0x0⟩
/-! AGT_CMP_RING (R411) -/
def AGT_CMP_RING.BASE : Fld := ⟨.agate, 0x600000, 0x10, 0, 1, 0, 1, 0, 28, .rw, 0x0, 0x0⟩
def AGT_CMP_RING.NODE : Fld := ⟨.agate, 0x600000, 0x10, 0, 1, 0, 1, 28, 4, .rw, 0x0, 0x0⟩
def AGT_CMP_RING.DEPTH_M1 : Fld := ⟨.agate, 0x600000, 0x10, 0, 1, 0, 1, 32, 8, .rw, 0x0, 0x0⟩
/-! AGT_CMP_CNT (R411) -/
def AGT_CMP_CNT.NONAGREE : Fld := ⟨.agate, 0x600000, 0x18, 0, 1, 0, 1, 0, 32, .rc, 0x0, 0x0⟩
def AGT_CMP_CNT.BADREC : Fld := ⟨.agate, 0x600000, 0x18, 0, 1, 0, 1, 32, 16, .rc, 0x0, 0x0⟩
def AGT_CMP_CNT.LATCHES : Fld := ⟨.agate, 0x600000, 0x18, 0, 1, 0, 1, 48, 16, .rc, 0x0, 0x0⟩
/-! AGT_CMP_HB (R411) -/
def AGT_CMP_HB.COUNT : Fld := ⟨.agate, 0x600000, 0x20, 0, 1, 0, 1, 0, 32, .rw, 0x0, 0x0⟩
/-! AGT_CMP_INJ (R411) -/
def AGT_CMP_INJ.PASS : Fld := ⟨.agate, 0x600000, 0x28, 0, 1, 0, 1, 0, 6, .ro, 0x0, 0x0⟩
def AGT_CMP_INJ.DONE : Fld := ⟨.agate, 0x600000, 0x28, 0, 1, 0, 1, 8, 1, .ro, 0x0, 0x0⟩
/-! AGT_CMP_OUTCFG (R411) -/
def AGT_CMP_OUTCFG.ENABLE : Fld := ⟨.agate, 0x600000, 0x100, 16, 32, 0, 1, 0, 1, .rw, 0x0, 0x0⟩
def AGT_CMP_OUTCFG.KIND : Fld := ⟨.agate, 0x600000, 0x100, 16, 32, 0, 1, 1, 1, .rw, 0x0, 0x0⟩
def AGT_CMP_OUTCFG.FWD : Fld := ⟨.agate, 0x600000, 0x100, 16, 32, 0, 1, 2, 1, .rw, 0x0, 0x0⟩
def AGT_CMP_OUTCFG.COUNT_M1 : Fld := ⟨.agate, 0x600000, 0x100, 16, 32, 0, 1, 16, 10, .rw, 0x0, 0x0⟩
def AGT_CMP_OUTCFG.DEADLINE : Fld := ⟨.agate, 0x600000, 0x100, 16, 32, 0, 1, 32, 10, .rw, 0x0, 0x0⟩
/-! AGT_CMP_BAND (R411) -/
def AGT_CMP_BAND.ABS : Fld := ⟨.agate, 0x600000, 0x108, 16, 32, 0, 1, 0, 32, .rw, 0x0, 0x0⟩
def AGT_CMP_BAND.REL : Fld := ⟨.agate, 0x600000, 0x108, 16, 32, 0, 1, 32, 32, .rw, 0x0, 0x0⟩
/-! AGT_SEC_MB_CMD (R419) -/
def AGT_SEC_MB_CMD.OP : Fld := ⟨.agate, 0x700000, 0x0, 8192, 2, 0, 1, 0, 8, .wo, 0x0, 0x0⟩
def AGT_SEC_MB_CMD.LEN : Fld := ⟨.agate, 0x700000, 0x0, 8192, 2, 0, 1, 8, 12, .wo, 0x0, 0x0⟩
/-! AGT_SEC_MB_RSP (R419) -/
def AGT_SEC_MB_RSP.DONE : Fld := ⟨.agate, 0x700000, 0x8, 8192, 2, 0, 1, 0, 1, .ro, 0x1, 0x1⟩
def AGT_SEC_MB_RSP.CFG_ERR : Fld := ⟨.agate, 0x700000, 0x8, 8192, 2, 0, 1, 1, 1, .w1c, 0x0, 0x0⟩
def AGT_SEC_MB_RSP.STATUS : Fld := ⟨.agate, 0x700000, 0x8, 8192, 2, 0, 1, 8, 8, .ro, 0x0, 0x0⟩
def AGT_SEC_MB_RSP.LEN : Fld := ⟨.agate, 0x700000, 0x8, 8192, 2, 0, 1, 16, 12, .ro, 0x0, 0x0⟩
def AGT_SEC_MB_RSP.TICKET : Fld := ⟨.agate, 0x700000, 0x8, 8192, 2, 0, 1, 32, 32, .ro, 0x0, 0x0⟩
/-! AGT_PWR_CLKSTAT (R463) -/
def AGT_PWR_CLKSTAT.ROOT_LOCK : Fld := ⟨.agate, 0xC00000, 0x0, 0, 1, 0, 1, 0, 1, .ro, 0x0, 0x0⟩
def AGT_PWR_CLKSTAT.RELOCK : Fld := ⟨.agate, 0xC00000, 0x0, 0, 1, 0, 1, 1, 1, .ro, 0x0, 0x0⟩
def AGT_PWR_CLKSTAT.ROOT_FAIL : Fld := ⟨.agate, 0xC00000, 0x0, 0, 1, 0, 1, 2, 1, .ro, 0x0, 0x0⟩
def AGT_PWR_CLKSTAT.RELOCK_CNT : Fld := ⟨.agate, 0xC00000, 0x0, 0, 1, 0, 1, 8, 16, .ro, 0x0, 0x0⟩
/-! AGT_PWR_CAPSTAT (R463) -/
def AGT_PWR_CAPSTAT.PKG : Fld := ⟨.agate, 0xC00000, 0x8, 0, 1, 0, 1, 0, 16, .ro, 0x0, 0x0⟩
def AGT_PWR_CAPSTAT.CAP_PRESSURE : Fld := ⟨.agate, 0xC00000, 0x8, 0, 1, 0, 1, 16, 1, .ro, 0x0, 0x0⟩
def AGT_PWR_CAPSTAT.ALERT : Fld := ⟨.agate, 0xC00000, 0x8, 0, 1, 0, 1, 17, 1, .w1c, 0x0, 0x0⟩
def AGT_PWR_CAPSTAT.CAP_OVER : Fld := ⟨.agate, 0xC00000, 0x8, 0, 1, 0, 1, 32, 16, .rc, 0x0, 0x0⟩
/-! AGT_PWR_THSTAT (R463) -/
def AGT_PWR_THSTAT.STATE : Fld := ⟨.agate, 0xC00000, 0x10, 0, 1, 0, 1, 0, 14, .ro, 0x0, 0x0⟩
def AGT_PWR_THSTAT.HOTTEST : Fld := ⟨.agate, 0xC00000, 0x10, 0, 1, 0, 1, 16, 16, .ro, 0x0, 0x0⟩
/-! AGT_PWR_RAIL (R463) -/
def AGT_PWR_RAIL.VOUT : Fld := ⟨.agate, 0xC00000, 0x100, 8, 12, 0, 1, 0, 16, .ro, 0x0, 0x0⟩
def AGT_PWR_RAIL.IOUT : Fld := ⟨.agate, 0xC00000, 0x100, 8, 12, 0, 1, 16, 16, .ro, 0x0, 0x0⟩
def AGT_PWR_RAIL.POUT : Fld := ⟨.agate, 0xC00000, 0x100, 8, 12, 0, 1, 32, 16, .ro, 0x0, 0x0⟩
def AGT_PWR_RAIL.STATUS : Fld := ⟨.agate, 0xC00000, 0x100, 8, 12, 0, 1, 48, 8, .ro, 0x0, 0x0⟩
/-! ONX_UNC_CLK (R464) -/
def ONX_UNC_CLK.K : Fld := ⟨.onyx, 0x0, 0x100, 8, 4, 0, 1, 0, 5, .ro, 0x0, 0x0⟩
def ONX_UNC_CLK.KMAX : Fld := ⟨.onyx, 0x0, 0x100, 8, 4, 0, 1, 5, 5, .ro, 0x0, 0x0⟩
/-! ONX_UNC_HINT (R464) -/
def ONX_UNC_HINT.HEAVY : Fld := ⟨.onyx, 0x0, 0x180, 0, 1, 0, 1, 0, 1, .rw, 0x0, 0x0⟩
def ONX_UNC_HINT.HOLD : Fld := ⟨.onyx, 0x0, 0x180, 0, 1, 0, 1, 8, 8, .rw, 0x0, 0x0⟩
/-! AGT_BU_CMD (R469) -/
def AGT_BU_CMD.OP : Fld := ⟨.agate, 0x100000, 0x0, 0, 1, 0, 1, 0, 8, .wo, 0x0, 0x0⟩
def AGT_BU_CMD.ARG : Fld := ⟨.agate, 0x100000, 0x0, 0, 1, 0, 1, 8, 56, .wo, 0x0, 0x0⟩
/-! AGT_BU_STAT (R469) -/
def AGT_BU_STAT.BUSY : Fld := ⟨.agate, 0x100000, 0x8, 0, 1, 0, 1, 0, 1, .ro, 0x0, 0x0⟩
def AGT_BU_STAT.CFG_ERR : Fld := ⟨.agate, 0x100000, 0x8, 0, 1, 0, 1, 1, 1, .w1c, 0x0, 0x0⟩
def AGT_BU_STAT.RESET_N_LOW : Fld := ⟨.agate, 0x100000, 0x8, 0, 1, 0, 1, 2, 1, .ro, 0x0, 0x0⟩
def AGT_BU_STAT.STATUS : Fld := ⟨.agate, 0x100000, 0x8, 0, 1, 0, 1, 8, 8, .ro, 0x0, 0x0⟩
def AGT_BU_STAT.LAST_OP : Fld := ⟨.agate, 0x100000, 0x8, 0, 1, 0, 1, 16, 8, .ro, 0x0, 0x0⟩
/-! AGT_BU_RESULT (R469) -/
def AGT_BU_RESULT.VALUE : Fld := ⟨.agate, 0x100000, 0x10, 0, 1, 0, 1, 0, 64, .ro, 0x0, 0x0⟩
/-! AGT_BU_STEPS (R469) -/
def AGT_BU_STEPS.DONE : Fld := ⟨.agate, 0x100000, 0x18, 0, 1, 0, 1, 0, 10, .ro, 0x0, 0x0⟩
/-! AGT_BU_SHUT (R469) -/
def AGT_BU_SHUT.PHASE : Fld := ⟨.agate, 0x100000, 0x20, 0, 1, 0, 1, 0, 3, .ro, 0x0, 0x0⟩
def AGT_BU_SHUT.ABORTED : Fld := ⟨.agate, 0x100000, 0x20, 0, 1, 0, 1, 3, 1, .ro, 0x0, 0x0⟩
def AGT_BU_SHUT.REGION : Fld := ⟨.agate, 0x100000, 0x20, 0, 1, 0, 1, 4, 6, .ro, 0x0, 0x0⟩
/-! AGT_BU_RETPASS (R469) -/
def AGT_BU_RETPASS.PASS : Fld := ⟨.agate, 0x100000, 0x28, 0, 1, 0, 1, 0, 44, .ro, 0x0, 0x0⟩
def AGT_BU_RETPASS.SEALED : Fld := ⟨.agate, 0x100000, 0x28, 0, 1, 0, 1, 44, 1, .ro, 0x0, 0x0⟩
/-! AGT_BU_RETRUN (R469) -/
def AGT_BU_RETRUN.RUN : Fld := ⟨.agate, 0x100000, 0x30, 0, 1, 0, 1, 0, 44, .ro, 0x0, 0x0⟩
/-! ONX_UNC_NODEINFO (R21) -/
def ONX_UNC_NODEINFO.NODE_ID : Fld := ⟨.onyx, 0x0, 0x0, 0, 1, 0, 1, 0, 4, .ro, 0x0, 0x0⟩
def ONX_UNC_NODEINFO.DIE_KIND : Fld := ⟨.onyx, 0x0, 0x0, 0, 1, 0, 1, 4, 4, .ro, 0x0, 0x0⟩
def ONX_UNC_NODEINFO.ADMITTED : Fld := ⟨.onyx, 0x0, 0x0, 0, 1, 0, 1, 8, 1, .ro, 0x0, 0x0⟩
def ONX_UNC_NODEINFO.FENCED : Fld := ⟨.onyx, 0x0, 0x0, 0, 1, 0, 1, 9, 1, .ro, 0x0, 0x0⟩
def ONX_UNC_NODEINFO.STEPPING : Fld := ⟨.onyx, 0x0, 0x0, 0, 1, 0, 1, 16, 8, .ro, 0x0, 0x0⟩
/-! AGT_UNC_NODEINFO (R21) -/
def AGT_UNC_NODEINFO.NODE_ID : Fld := ⟨.agate, 0x0, 0x0, 0, 1, 0, 1, 0, 4, .ro, 0x0, 0x0⟩
def AGT_UNC_NODEINFO.DIE_KIND : Fld := ⟨.agate, 0x0, 0x0, 0, 1, 0, 1, 4, 4, .ro, 0x0, 0x0⟩
def AGT_UNC_NODEINFO.ADMITTED : Fld := ⟨.agate, 0x0, 0x0, 0, 1, 0, 1, 8, 1, .ro, 0x0, 0x0⟩
def AGT_UNC_NODEINFO.FENCED : Fld := ⟨.agate, 0x0, 0x0, 0, 1, 0, 1, 9, 1, .ro, 0x0, 0x0⟩
def AGT_UNC_NODEINFO.STEPPING : Fld := ⟨.agate, 0x0, 0x0, 0, 1, 0, 1, 16, 8, .ro, 0x0, 0x0⟩
/-! SCB_UNC_NODEINFO (R21) -/
def SCB_UNC_NODEINFO.NODE_ID : Fld := ⟨.scarab, 0x0, 0x0, 0, 1, 0, 1, 0, 4, .ro, 0x0, 0x0⟩
def SCB_UNC_NODEINFO.DIE_KIND : Fld := ⟨.scarab, 0x0, 0x0, 0, 1, 0, 1, 4, 4, .ro, 0x0, 0x0⟩
def SCB_UNC_NODEINFO.ADMITTED : Fld := ⟨.scarab, 0x0, 0x0, 0, 1, 0, 1, 8, 1, .ro, 0x0, 0x0⟩
def SCB_UNC_NODEINFO.FENCED : Fld := ⟨.scarab, 0x0, 0x0, 0, 1, 0, 1, 9, 1, .ro, 0x0, 0x0⟩
def SCB_UNC_NODEINFO.STEPPING : Fld := ⟨.scarab, 0x0, 0x0, 0, 1, 0, 1, 16, 8, .ro, 0x0, 0x0⟩
/-! ONX_M_KVPOOL (R146) -/
def ONX_M_KVPOOL.BASE : Fld := ⟨.onyx, 0x100000, 0x100, 8, 16, 0, 1, 0, 28, .rw, 0x0, 0x0⟩
def ONX_M_KVPOOL.PSIZE : Fld := ⟨.onyx, 0x100000, 0x100, 8, 16, 0, 1, 28, 2, .rw, 0x0, 0x0⟩
def ONX_M_KVPOOL.ENABLE : Fld := ⟨.onyx, 0x100000, 0x100, 8, 16, 0, 1, 30, 1, .rw, 0x0, 0x0⟩
def ONX_M_KVPOOL.PAGES : Fld := ⟨.onyx, 0x100000, 0x100, 8, 16, 0, 1, 32, 18, .rw, 0x0, 0x0⟩
/-! ONX_M_KVSTAT (R146) -/
def ONX_M_KVSTAT.CFG_ERR : Fld := ⟨.onyx, 0x100000, 0x280, 0, 1, 0, 1, 0, 1, .w1c, 0x0, 0x0⟩
/-! ONX_M_KVCMD (R146) -/
def ONX_M_KVCMD.COUNT : Fld := ⟨.onyx, 0x100000, 0x288, 0, 1, 0, 1, 0, 32, .ro, 0x0, 0x0⟩
/-! ONX_G_STATUS (R234) -/
def ONX_G_STATUS.VX_BUSY : Fld := ⟨.onyx, 0x400000, 0x0, 0, 1, 0, 1, 0, 1, .ro, 0x0, 0x0⟩
def ONX_G_STATUS.PIPE_BUSY : Fld := ⟨.onyx, 0x400000, 0x0, 0, 1, 0, 1, 1, 4, .ro, 0x0, 0x0⟩
def ONX_G_STATUS.SMP_BUSY : Fld := ⟨.onyx, 0x400000, 0x0, 0, 1, 0, 1, 5, 1, .ro, 0x0, 0x0⟩
/-! ONX_G_QCNT (R234) -/
def ONX_G_QCNT.COUNT : Fld := ⟨.onyx, 0x400000, 0x8, 0, 1, 0, 1, 0, 64, .ro, 0x0, 0x0⟩
/-! ONX_G_MISSCNT (R234) -/
def ONX_G_MISSCNT.COUNT : Fld := ⟨.onyx, 0x400000, 0x10, 0, 1, 0, 1, 0, 64, .ro, 0x0, 0x0⟩
/-! AGT_SCHED_CTX_MAP (R315) -/
def AGT_SCHED_CTX_MAP.PHYS_0 : Fld := ⟨.agate, 0x200000, 0x10018, 128, 512, 0, 1, 0, 2, .rw, 0x0, 0x0⟩
def AGT_SCHED_CTX_MAP.ALT_0 : Fld := ⟨.agate, 0x200000, 0x10018, 128, 512, 0, 1, 2, 2, .rw, 0x0, 0x0⟩
def AGT_SCHED_CTX_MAP.ALT_EN_0 : Fld := ⟨.agate, 0x200000, 0x10018, 128, 512, 0, 1, 4, 1, .rw, 0x0, 0x0⟩
def AGT_SCHED_CTX_MAP.VALID_0 : Fld := ⟨.agate, 0x200000, 0x10018, 128, 512, 0, 1, 5, 1, .rw, 0x0, 0x0⟩
def AGT_SCHED_CTX_MAP.PHYS_1 : Fld := ⟨.agate, 0x200000, 0x10018, 128, 512, 0, 1, 8, 2, .rw, 0x0, 0x0⟩
def AGT_SCHED_CTX_MAP.ALT_1 : Fld := ⟨.agate, 0x200000, 0x10018, 128, 512, 0, 1, 10, 2, .rw, 0x0, 0x0⟩
def AGT_SCHED_CTX_MAP.ALT_EN_1 : Fld := ⟨.agate, 0x200000, 0x10018, 128, 512, 0, 1, 12, 1, .rw, 0x0, 0x0⟩
def AGT_SCHED_CTX_MAP.VALID_1 : Fld := ⟨.agate, 0x200000, 0x10018, 128, 512, 0, 1, 13, 1, .rw, 0x0, 0x0⟩
def AGT_SCHED_CTX_MAP.PHYS_2 : Fld := ⟨.agate, 0x200000, 0x10018, 128, 512, 0, 1, 16, 2, .rw, 0x0, 0x0⟩
def AGT_SCHED_CTX_MAP.ALT_2 : Fld := ⟨.agate, 0x200000, 0x10018, 128, 512, 0, 1, 18, 2, .rw, 0x0, 0x0⟩
def AGT_SCHED_CTX_MAP.ALT_EN_2 : Fld := ⟨.agate, 0x200000, 0x10018, 128, 512, 0, 1, 20, 1, .rw, 0x0, 0x0⟩
def AGT_SCHED_CTX_MAP.VALID_2 : Fld := ⟨.agate, 0x200000, 0x10018, 128, 512, 0, 1, 21, 1, .rw, 0x0, 0x0⟩
def AGT_SCHED_CTX_MAP.PHYS_3 : Fld := ⟨.agate, 0x200000, 0x10018, 128, 512, 0, 1, 24, 2, .rw, 0x0, 0x0⟩
def AGT_SCHED_CTX_MAP.ALT_3 : Fld := ⟨.agate, 0x200000, 0x10018, 128, 512, 0, 1, 26, 2, .rw, 0x0, 0x0⟩
def AGT_SCHED_CTX_MAP.ALT_EN_3 : Fld := ⟨.agate, 0x200000, 0x10018, 128, 512, 0, 1, 28, 1, .rw, 0x0, 0x0⟩
def AGT_SCHED_CTX_MAP.VALID_3 : Fld := ⟨.agate, 0x200000, 0x10018, 128, 512, 0, 1, 29, 1, .rw, 0x0, 0x0⟩
/-! AGT_SCHED_CTX_T0 (R315) -/
def AGT_SCHED_CTX_T0.START_0 : Fld := ⟨.agate, 0x200000, 0x10020, 128, 512, 0, 1, 0, 5, .rw, 0x0, 0x0⟩
def AGT_SCHED_CTX_T0.SIZE_0 : Fld := ⟨.agate, 0x200000, 0x10020, 128, 512, 0, 1, 5, 5, .rw, 0x0, 0x0⟩
def AGT_SCHED_CTX_T0.START_1 : Fld := ⟨.agate, 0x200000, 0x10020, 128, 512, 0, 1, 10, 5, .rw, 0x0, 0x0⟩
def AGT_SCHED_CTX_T0.SIZE_1 : Fld := ⟨.agate, 0x200000, 0x10020, 128, 512, 0, 1, 15, 5, .rw, 0x0, 0x0⟩
def AGT_SCHED_CTX_T0.START_2 : Fld := ⟨.agate, 0x200000, 0x10020, 128, 512, 0, 1, 20, 5, .rw, 0x0, 0x0⟩
def AGT_SCHED_CTX_T0.SIZE_2 : Fld := ⟨.agate, 0x200000, 0x10020, 128, 512, 0, 1, 25, 5, .rw, 0x0, 0x0⟩
def AGT_SCHED_CTX_T0.START_3 : Fld := ⟨.agate, 0x200000, 0x10020, 128, 512, 0, 1, 30, 5, .rw, 0x0, 0x0⟩
def AGT_SCHED_CTX_T0.SIZE_3 : Fld := ⟨.agate, 0x200000, 0x10020, 128, 512, 0, 1, 35, 5, .rw, 0x0, 0x0⟩
/-! BRL_TEMP (R465) -/
def BRL_TEMP.TEMP : Fld := ⟨.agate, 0x500000, 0x1000, 4, 40, 0, 1, 0, 12, .ro, 0x0, 0x0⟩
def BRL_TEMP.VALID : Fld := ⟨.agate, 0x500000, 0x1000, 4, 40, 0, 1, 12, 1, .ro, 0x0, 0x0⟩
/-! SCB_CMP_STATUS (R413) -/
def SCB_CMP_STATUS.RUN : Fld := ⟨.scarab, 0x100000, 0x0, 0, 1, 0, 1, 0, 1, .ro, 0x0, 0x0⟩
def SCB_CMP_STATUS.INPUT_LOSS : Fld := ⟨.scarab, 0x100000, 0x0, 0, 1, 0, 1, 1, 1, .w1c, 0x0, 0x0⟩

end Reg

def regFields0 : List Fld := [
  Reg.ONX_T1_WAYMODE.SCRATCH, Reg.ONX_T1_STATUS.DIRTY_A, Reg.ONX_T1_STATUS.DIRTY_B,
  Reg.ONX_T1_STATUS.CFG_ERR, Reg.ONX_T1_DIRTYCNT.SECTORS, Reg.ONX_T1_ECCCNT.CORRECTED,
  Reg.ONX_T1_ECCCNT.REFETCHED, Reg.ONX_T1_WAYMASK.ALLOC, Reg.ONX_M_ISSUECAP.LOOP_CAP,
  Reg.ONX_M_ISSUECAP.SW_CAP, Reg.ONX_M_ISSUECAP.EFFECTIVE, Reg.ONX_M_STATUS.MX_BUSY,
  Reg.ONX_M_STATUS.VEC_BUSY, Reg.ONX_M_STATUS.MX_FLOW, Reg.ONX_M_MACCNT.COUNT,
  Reg.ONX_M_ACTCNT.COUNT, Reg.ONX_M_CAPCNT.COUNT, Reg.ONX_M_BIASCFG.H_LOG2,
  Reg.ONX_M_BIASCFG.MODE, Reg.ONX_M_BIASCFG.WX_LOG2, Reg.ONX_Q_STATUS.SCAN_BUSY,
  Reg.ONX_Q_STATUS.GATE_BUSY, Reg.ONX_Q_STATUS.STEP_BUSY, Reg.ONX_Q_STATUS.CFG_ERR]

def regFields1 : List Fld := [
  Reg.ONX_Q_STATUS.OPEN, Reg.ONX_Q_ESTEPCNT.COUNT, Reg.ONX_Q_STREAM.OPEN,
  Reg.ONX_Q_STREAM.OVF, Reg.ONX_Q_STREAM.POISON, Reg.ONX_Q_STREAM.PENDING,
  Reg.ONX_Q_STREAM.NEXT, Reg.ONX_Q_STEP.ADD, Reg.ONX_Q_GCFG.XMIN,
  Reg.ONX_Q_GCFG.WIDTH_LOG2, Reg.ONX_Q_GCFG.OOR_LO, Reg.ONX_Q_GCFG.OOR_HI,
  Reg.ONX_L_STATUS.BUSY, Reg.ONX_L_PROBCNT.COUNT, Reg.ONX_L_REGCNT.COUNT,
  Reg.ONX_L_ACTCNT.COUNT, Reg.ONX_G_MAPCFG.DIR_BASE, Reg.ONX_G_MAPCFG.ENABLE,
  Reg.ONX_G_MAPCFG.UNKNOWN_BLOCKS, Reg.ONX_G_MAPCFG.DCLIP, Reg.ONX_G_MAPCFG.LO_OCC,
  Reg.ONX_G_MAPCFG.LO_FREE, Reg.ONX_G_MAPPOOL.POOL_BASE, Reg.ONX_G_MAPPOOL.POOL_BRICKS]

def regFields2 : List Fld := [
  Reg.ONX_G_MAPORG.OX, Reg.ONX_G_MAPORG.OY, Reg.ONX_G_MAPORG.OZ,
  Reg.ONX_G_MAPSTAT.EPOCH, Reg.ONX_G_MAPSTAT.BUF, Reg.ONX_G_MAPSTAT.PENDING,
  Reg.ONX_G_MAPSTAT.CFG_ERR, Reg.ONX_G_MAPSTAT.FREE, Reg.ONX_G_MODEL.ADDR,
  Reg.ONX_G_MODEL.VALID, Reg.AGT_ING_STATUS.CAM_ACTIVE, Reg.AGT_ING_STATUS.IMU_USED,
  Reg.AGT_ING_STATUS.EGO_VALID, Reg.AGT_ING_STATUS.EGO_DEGRADED, Reg.AGT_ING_STATUS.ODO_MISMATCH,
  Reg.AGT_ING_STATUS.CFG_ERR, Reg.AGT_ING_STATUS.SNAP_HELD, Reg.AGT_ING_READMIT.CAM,
  Reg.AGT_ING_READMIT.IMU, Reg.AGT_ING_EXCLUDE.CAM, Reg.AGT_ING_SNAP.MASK,
  Reg.AGT_ING_SNAPRING.BASE, Reg.AGT_ING_SNAPRING.NODE, Reg.AGT_ING_SNAPRING.DEPTH_M1]

def regFields3 : List Fld := [
  Reg.AGT_ING_IMURING.BASE, Reg.AGT_ING_IMURING.NODE, Reg.AGT_ING_IMURING.DEPTH_M1,
  Reg.AGT_ING_EGORING.BASE, Reg.AGT_ING_EGORING.NODE, Reg.AGT_ING_EGORING.DEPTH_M1,
  Reg.AGT_ING_SNAPCNT.COUNT, Reg.AGT_ING_EGOCNT.COUNT, Reg.AGT_ING_CAMCFG.ENABLE,
  Reg.AGT_ING_CAMCFG.VC, Reg.AGT_ING_CAMCFG.DT, Reg.AGT_ING_CAMCFG.OUTFMT,
  Reg.AGT_ING_CAMCFG.TSIZE, Reg.AGT_ING_CAMCFG.DEPTH_M1, Reg.AGT_ING_CAMCFG.WIDTH_M1,
  Reg.AGT_ING_CAMCFG.HEIGHT_M1, Reg.AGT_ING_CAMBUF.BASE, Reg.AGT_ING_CAMBUF.NODE,
  Reg.AGT_ING_CAMSTAT.STATE, Reg.AGT_ING_CAMSTAT.CAUSE, Reg.AGT_ING_CAMSTAT.FRZ_RUN,
  Reg.AGT_ING_CAMSTAT.FLAT_RUN, Reg.AGT_ING_CAMSTAT.BUFSTATE, Reg.AGT_ING_CAMLOSS.SHED]

def regFields4 : List Fld := [
  Reg.AGT_ING_CAMLOSS.DISCARD, Reg.AGT_ING_CAMLOSS.ERRORED, Reg.AGT_ING_CLAIM.BUF,
  Reg.AGT_ING_CLAIM.VALID, Reg.AGT_ING_CLAIM.SHED_NOW, Reg.AGT_ING_CLAIM.SEQ,
  Reg.AGT_ING_RELEASE.MASK, Reg.AGT_ING_IMUCFG.ENABLE, Reg.AGT_ING_IMUCFG.RATE,
  Reg.AGT_ING_IMUCFG.BE, Reg.AGT_ING_IMUCFG.OFS, Reg.AGT_ING_IMUCFG.LEN_M1,
  Reg.AGT_ING_IMUCFG.RDCMD, Reg.AGT_ING_IMUSTAT.STATE, Reg.AGT_ING_IMUSTAT.DEV,
  Reg.AGT_ING_IMUSTAT.MISSING, Reg.AGT_ING_IMUSTAT.SAMPLES, Reg.AGT_ING_ENCCFG.ENABLE,
  Reg.AGT_ING_ENCCFG.MODE, Reg.AGT_ING_ENCCFG.INVERT, Reg.AGT_ING_ENCCFG.FILTER,
  Reg.AGT_ING_ENCCNT.COUNT, Reg.AGT_ING_EGOCFG.ENABLE, Reg.AGT_ING_EGOCFG.RATE]

def regFields5 : List Fld := [
  Reg.AGT_ING_EGOCFG.ODO_EN, Reg.AGT_ING_EGOCFG.ENC_L, Reg.AGT_ING_EGOCFG.ENC_R,
  Reg.AGT_FAB_STATUS.EPOCH, Reg.AGT_FAB_STATUS.ADMITTED, Reg.AGT_FAB_STATUS.FENCED,
  Reg.AGT_FAB_STATUS.LOST, Reg.AGT_FAB_STATUS.EPOCH_PENDING, Reg.AGT_FAB_CMD.OP,
  Reg.AGT_FAB_CMD.NODE, Reg.AGT_FAB_CMD.DRAIN, Reg.AGT_FAB_CMDSTAT.BUSY,
  Reg.AGT_FAB_CMDSTAT.CMD_ERR, Reg.AGT_FAB_CMDSTAT.STATUS, Reg.AGT_FAB_LOSS.SEQ,
  Reg.AGT_FAB_LOSS.NODE, Reg.AGT_FAB_LOSS.CAUSE, Reg.AGT_FAB_LOSS.EPOCH,
  Reg.AGT_FAB_LOSSCTX.CTX, Reg.AGT_FAB_LINK.STATE, Reg.AGT_FAB_LINK.HALF,
  Reg.AGT_FAB_LINK.REPLAY, Reg.AGT_FAB_LINK.CRCERR, Reg.ONX_FAB_PORT.STATE]

def regFields6 : List Fld := [
  Reg.ONX_FAB_PORT.HALF, Reg.ONX_FAB_PORT.REPLAY, Reg.ONX_FAB_PORT.CRCERR,
  Reg.AGT_SCHED_STATUS.CFG_ERR, Reg.AGT_SCHED_STATUS.STEPCTX, Reg.AGT_SCHED_RSV.RSV,
  Reg.AGT_SCHED_HOSTEVQ.LOC, Reg.AGT_SCHED_HOSTEVQ.SIZE_LOG2, Reg.AGT_SCHED_HOSTEVQ.BASE,
  Reg.AGT_SCHED_PART_EVQ.LOC, Reg.AGT_SCHED_PART_EVQ.SIZE_LOG2, Reg.AGT_SCHED_PART_EVQ.BASE,
  Reg.AGT_SCHED_HOSTEVQSTAT.TAIL, Reg.AGT_SCHED_HOSTEVQSTAT.HEAD, Reg.AGT_SCHED_HOSTEVQSTAT.LOST,
  Reg.AGT_SCHED_PART_EVQSTAT.TAIL, Reg.AGT_SCHED_PART_EVQSTAT.HEAD, Reg.AGT_SCHED_PART_EVQSTAT.LOST,
  Reg.AGT_SCHED_PART_CFG.MODE, Reg.AGT_SCHED_PART_CFG.RATE, Reg.AGT_SCHED_PART_CFG.BURST,
  Reg.AGT_SCHED_PART_CFG.CHMASK, Reg.AGT_SCHED_CTX_CFG.PART, Reg.AGT_SCHED_CTX_CFG.CLASS]

def regFields7 : List Fld := [
  Reg.AGT_SCHED_CTX_CFG.PRIO, Reg.AGT_SCHED_CTX_CFG.NOPREEMPT, Reg.AGT_SCHED_CTX_CFG.SQ_LOG2,
  Reg.AGT_SCHED_CTX_CFG.DEPTH_M1, Reg.AGT_SCHED_CTX_CFG.SQ_LOC, Reg.AGT_SCHED_CTX_CFG.CQ_LOC,
  Reg.AGT_SCHED_CTX_CFG.VECTOR, Reg.AGT_SCHED_CTX_SQ.BASE, Reg.AGT_SCHED_CTX_CQ.BASE,
  Reg.AGT_SCHED_CTX_SAVE.BASE, Reg.AGT_SCHED_CTX_RESTAGE.BASE, Reg.AGT_SCHED_CTX_RESTAGE.COUNT,
  Reg.AGT_SCHED_CTX_CTRL.OP, Reg.AGT_SCHED_CTX_DB.SQ_TAIL, Reg.AGT_SCHED_CTX_DB.CQ_HEAD,
  Reg.AGT_SCHED_CTX_DB.SQ_V, Reg.AGT_SCHED_CTX_DB.CQ_V, Reg.AGT_SCHED_CTX_STAT.STATE,
  Reg.AGT_SCHED_CTX_STAT.RESTAGE_ERR, Reg.AGT_SCHED_CTX_STAT.OUTSTANDING, Reg.AGT_SCHED_CTX_STAT.SQ_HEAD,
  Reg.AGT_SCHED_CTX_STAT.CDONE, Reg.AGT_RFX_STATUS.ARMED, Reg.AGT_RFX_STATUS.FAULT]

def regFields8 : List Fld := [
  Reg.AGT_RFX_CMD.OP, Reg.AGT_RFX_CMD.CHMASK, Reg.AGT_RFX_CMDSTAT.STATUS,
  Reg.AGT_RFX_CMDSTAT.CFG_ERR, Reg.AGT_RFX_CMDSTAT.FAILMASK, Reg.AGT_RFX_SWAP.CHMASK,
  Reg.AGT_RFX_TELRING.BASE, Reg.AGT_RFX_TELRING.NODE, Reg.AGT_RFX_TELRING.DEPTH_M1, Reg.AGT_RFX_TELCNT.RECORDS, Reg.AGT_RFX_TELCNT.LOST,
  Reg.AGT_RFX_CFG.VECTOR, Reg.AGT_RFX_CFG.IRQ_EN, Reg.AGT_RFX_CH_CFG.SRC,
  Reg.AGT_RFX_CH_CFG.COMPL, Reg.AGT_RFX_CH_CFG.CB_POL, Reg.AGT_RFX_CH_CFG.CB_THRESH,
  Reg.AGT_RFX_CH_CFG.DESAT_EN, Reg.AGT_RFX_CH_CFG.DESAT_POL, Reg.AGT_RFX_CH_CFG.DESAT_FILT,
  Reg.AGT_RFX_CH_CFG.SAFE_LINK, Reg.AGT_RFX_CH_CFG.TEL, Reg.AGT_RFX_CH_CFG.STEP_INC,
  Reg.AGT_RFX_CH_BANKA0.BAND, Reg.AGT_RFX_CH_BANKA0.SP_GAIN, Reg.AGT_RFX_CH_BANKA0.SP_OFS]

def regFields9 : List Fld := [
  Reg.AGT_RFX_CH_BANKB0.BAND, Reg.AGT_RFX_CH_BANKB0.SP_GAIN, Reg.AGT_RFX_CH_BANKB0.SP_OFS,
  Reg.AGT_RFX_CH_BANKA1.BLANK, Reg.AGT_RFX_CH_BANKA1.DEADTIME, Reg.AGT_RFX_CH_BANKA1.MIN_ON,
  Reg.AGT_RFX_CH_BANKA1.MIN_OFF, Reg.AGT_RFX_CH_BANKB1.BLANK, Reg.AGT_RFX_CH_BANKB1.DEADTIME,
  Reg.AGT_RFX_CH_BANKB1.MIN_ON, Reg.AGT_RFX_CH_BANKB1.MIN_OFF, Reg.AGT_RFX_CH_SP.U,
  Reg.AGT_RFX_CH_STAT.STATE, Reg.AGT_RFX_CH_STAT.PHASE, Reg.AGT_RFX_CH_STAT.BANK,
  Reg.AGT_RFX_CH_STAT.SWAP_PEND, Reg.AGT_RFX_CH_STAT.CAUSE, Reg.AGT_RFX_CH_STAT.CB_NOW,
  Reg.AGT_RFX_CH_STAT.DESAT_NOW, Reg.AGT_RFX_CH_STAT.U, Reg.AGT_RFX_CH_STAT.THR_HI,
  Reg.AGT_RFX_CH_STAT.THR_LO, Reg.AGT_RFX_CH_CNT.ON_EDGES, Reg.AGT_RFX_CH_CNT.LAST_PERIOD]

def regFields10 : List Fld := [
  Reg.BRL_CH_THRESH.HI, Reg.BRL_CH_THRESH.LO, Reg.BRL_CH_CB.CODE,
  Reg.BRL_CH_TRIM.HI_OFS, Reg.BRL_CH_TRIM.LO_OFS, Reg.BRL_CH_TRIM.CB_OFS,
  Reg.AGT_TIME_CTRL.MODE, Reg.AGT_TIME_CTRL.SRC_PORT, Reg.AGT_TIME_CTRL.PPS_EN,
  Reg.AGT_TIME_CTRL.IRQ_EN, Reg.AGT_TIME_CTRL.VECTOR, Reg.AGT_TIME_CTRL.DOMAIN,
  Reg.AGT_TIME_STATUS.STATE, Reg.AGT_TIME_STATUS.JUMP, Reg.AGT_TIME_STATUS.RELOCK,
  Reg.AGT_TIME_STATUS.MASTER_CHG, Reg.AGT_TIME_STATUS.STEPPED, Reg.AGT_TIME_STATUS.HELD,
  Reg.AGT_TIME_STATUS.CFG_ERR, Reg.AGT_TIME_NOW.TIME, Reg.AGT_TIME_PTPL.TIME,
  Reg.AGT_TIME_OFFSET.OFFSET, Reg.AGT_TIME_RATE.RATE, Reg.AGT_TIME_ADJ.ADD]

def regFields11 : List Fld := [
  Reg.AGT_TIME_CMD.ACCEPT, Reg.AGT_TIME_MASTER.CLOCK_ID, Reg.AGT_TIME_PATHDLY.DELAY,
  Reg.AGT_TIME_SAMPLE.THETA, Reg.AGT_TIME_SAMPLE.COUNT, Reg.AGT_TIME_SWSAMPLE.THETA,
  Reg.AGT_TIME_JUMPCNT.COUNT, Reg.AGT_TIME_TXTSQ.TSID, Reg.AGT_TIME_TXTSQ.VALID,
  Reg.AGT_TIME_TXTSQ.GAP, Reg.AGT_TIME_TXTSQ.LEVEL, Reg.AGT_TIME_TXTSV.TIME,
  Reg.AGT_TIME_TXTSCNT.LOST, Reg.AGT_UNC_DICT_REQ.OP, Reg.AGT_UNC_DICT_REQ.SUB,
  Reg.AGT_UNC_DICT_REQ.INDEX, Reg.AGT_UNC_DICT_REQ.OFFSET, Reg.AGT_UNC_DICT_DATA.VALUE,
  Reg.AGT_UNC_DICT_RSP.BUSY, Reg.AGT_UNC_DICT_RSP.CFG_ERR, Reg.AGT_UNC_DICT_RSP.STATUS,
  Reg.AGT_UNC_DICT_RSP.SIZE, Reg.AGT_UNC_DICT_ABORT.CODE, Reg.AGT_ECAT_CTRL.RUN]

def regFields12 : List Fld := [
  Reg.AGT_ECAT_CTRL.RING, Reg.AGT_ECAT_CTRL.IRQ_EN, Reg.AGT_ECAT_CTRL.VECTOR,
  Reg.AGT_ECAT_STATUS.LINK0, Reg.AGT_ECAT_STATUS.LINK1, Reg.AGT_ECAT_STATUS.RING_BROKEN,
  Reg.AGT_ECAT_STATUS.CFG_ERR, Reg.AGT_ECAT_STATUS.LATE, Reg.AGT_ECAT_STATUS.LATECNT,
  Reg.AGT_ECAT_STATUS.CYCLE, Reg.AGT_ECAT_IMG.OUT_SIZE, Reg.AGT_ECAT_IMG.IN_SIZE,
  Reg.AGT_ECAT_INSEQ.SEQ, Reg.AGT_ECAT_VALID.POS, Reg.AGT_ECAT_MBX_REQ.OP,
  Reg.AGT_ECAT_MBX_REQ.POS, Reg.AGT_ECAT_MBX_REQ.SUB, Reg.AGT_ECAT_MBX_REQ.INDEX,
  Reg.AGT_ECAT_MBX_REQ.OFFSET, Reg.AGT_ECAT_MBX_DATA.VALUE, Reg.AGT_ECAT_MBX_RSP.BUSY,
  Reg.AGT_ECAT_MBX_RSP.CFG_ERR, Reg.AGT_ECAT_MBX_RSP.STATUS, Reg.AGT_ECAT_MBX_RSP.SIZE]

def regFields13 : List Fld := [
  Reg.AGT_ECAT_MBX_RSP.ABORT, Reg.AGT_NET_CTRL.ENABLE, Reg.AGT_NET_CTRL.IRQ_EN,
  Reg.AGT_NET_CTRL.VECTOR, Reg.AGT_NET_STAT.LINK, Reg.AGT_NET_STAT.FEC_ACTIVE,
  Reg.AGT_NET_STAT.CFG_ERR, Reg.AGT_NET_TXRING.BASE, Reg.AGT_NET_TXRING.NODE, Reg.AGT_NET_TXRING.DEPTH_M1, Reg.AGT_NET_RXRING.BASE, Reg.AGT_NET_RXRING.NODE, Reg.AGT_NET_RXRING.DEPTH_M1,
  Reg.AGT_NET_TXDB.TAIL, Reg.AGT_NET_TXHEAD.HEAD, Reg.AGT_NET_RXBUF.BASE,
  Reg.AGT_NET_RXBUF.NODE, Reg.AGT_NET_RXBUF.SIZE_LOG2, Reg.AGT_NET_RXDB.HEAD,
  Reg.AGT_NET_RXSTAT.TAIL, Reg.AGT_NET_RXSTAT.DROP, Reg.AGT_NET_CANSTAT.STATE,
  Reg.AGT_NET_CANSTAT.TEC, Reg.AGT_NET_CANSTAT.REC, Reg.AGT_NET_CANSTAT.BUSOFF_CNT,
  Reg.AGT_CMP_STATUS.ENABLED, Reg.AGT_CMP_STATUS.LATCHED, Reg.AGT_CMP_STATUS.CAUSE]

def regFields14 : List Fld := [
  Reg.AGT_CMP_STATUS.CFG_ERR, Reg.AGT_CMP_STATUS.WIN_COUNT, Reg.AGT_CMP_STATUS.CONSEC_RUN,
  Reg.AGT_CMP_FRAME.INDEX, Reg.AGT_CMP_RING.BASE, Reg.AGT_CMP_RING.NODE, Reg.AGT_CMP_RING.DEPTH_M1, Reg.AGT_CMP_CNT.NONAGREE,
  Reg.AGT_CMP_CNT.BADREC, Reg.AGT_CMP_CNT.LATCHES, Reg.AGT_CMP_HB.COUNT,
  Reg.AGT_CMP_INJ.PASS, Reg.AGT_CMP_INJ.DONE, Reg.AGT_CMP_OUTCFG.ENABLE,
  Reg.AGT_CMP_OUTCFG.KIND, Reg.AGT_CMP_OUTCFG.FWD, Reg.AGT_CMP_OUTCFG.COUNT_M1,
  Reg.AGT_CMP_OUTCFG.DEADLINE, Reg.AGT_CMP_BAND.ABS, Reg.AGT_CMP_BAND.REL,
  Reg.AGT_SEC_MB_CMD.OP, Reg.AGT_SEC_MB_CMD.LEN, Reg.AGT_SEC_MB_RSP.DONE,
  Reg.AGT_SEC_MB_RSP.CFG_ERR, Reg.AGT_SEC_MB_RSP.STATUS, Reg.AGT_SEC_MB_RSP.LEN]

def regFields15 : List Fld := [
  Reg.AGT_SEC_MB_RSP.TICKET, Reg.AGT_PWR_CLKSTAT.ROOT_LOCK, Reg.AGT_PWR_CLKSTAT.RELOCK,
  Reg.AGT_PWR_CLKSTAT.ROOT_FAIL, Reg.AGT_PWR_CLKSTAT.RELOCK_CNT, Reg.AGT_PWR_CAPSTAT.PKG,
  Reg.AGT_PWR_CAPSTAT.CAP_PRESSURE, Reg.AGT_PWR_CAPSTAT.ALERT, Reg.AGT_PWR_CAPSTAT.CAP_OVER,
  Reg.AGT_PWR_THSTAT.STATE, Reg.AGT_PWR_THSTAT.HOTTEST, Reg.AGT_PWR_RAIL.VOUT,
  Reg.AGT_PWR_RAIL.IOUT, Reg.AGT_PWR_RAIL.POUT, Reg.AGT_PWR_RAIL.STATUS,
  Reg.ONX_UNC_CLK.K, Reg.ONX_UNC_CLK.KMAX, Reg.ONX_UNC_HINT.HEAVY,
  Reg.ONX_UNC_HINT.HOLD, Reg.AGT_BU_CMD.OP, Reg.AGT_BU_CMD.ARG,
  Reg.AGT_BU_STAT.BUSY, Reg.AGT_BU_STAT.CFG_ERR, Reg.AGT_BU_STAT.RESET_N_LOW]

def regFields16 : List Fld := [
  Reg.AGT_BU_STAT.STATUS, Reg.AGT_BU_STAT.LAST_OP, Reg.AGT_BU_RESULT.VALUE,
  Reg.AGT_BU_STEPS.DONE, Reg.AGT_BU_SHUT.PHASE, Reg.AGT_BU_SHUT.ABORTED,
  Reg.AGT_BU_SHUT.REGION, Reg.AGT_BU_RETPASS.PASS, Reg.AGT_BU_RETPASS.SEALED,
  Reg.AGT_BU_RETRUN.RUN, Reg.ONX_UNC_NODEINFO.NODE_ID, Reg.ONX_UNC_NODEINFO.DIE_KIND,
  Reg.ONX_UNC_NODEINFO.ADMITTED, Reg.ONX_UNC_NODEINFO.FENCED, Reg.ONX_UNC_NODEINFO.STEPPING,
  Reg.AGT_UNC_NODEINFO.NODE_ID, Reg.AGT_UNC_NODEINFO.DIE_KIND, Reg.AGT_UNC_NODEINFO.ADMITTED,
  Reg.AGT_UNC_NODEINFO.FENCED, Reg.AGT_UNC_NODEINFO.STEPPING, Reg.SCB_UNC_NODEINFO.NODE_ID,
  Reg.SCB_UNC_NODEINFO.DIE_KIND, Reg.SCB_UNC_NODEINFO.ADMITTED, Reg.SCB_UNC_NODEINFO.FENCED]

def regFields17 : List Fld := [
  Reg.SCB_UNC_NODEINFO.STEPPING, Reg.ONX_M_KVPOOL.BASE, Reg.ONX_M_KVPOOL.PSIZE,
  Reg.ONX_M_KVPOOL.ENABLE, Reg.ONX_M_KVPOOL.PAGES, Reg.ONX_M_KVSTAT.CFG_ERR,
  Reg.ONX_M_KVCMD.COUNT, Reg.ONX_G_STATUS.VX_BUSY, Reg.ONX_G_STATUS.PIPE_BUSY,
  Reg.ONX_G_STATUS.SMP_BUSY, Reg.ONX_G_QCNT.COUNT, Reg.ONX_G_MISSCNT.COUNT,
  Reg.AGT_SCHED_CTX_MAP.PHYS_0, Reg.AGT_SCHED_CTX_MAP.ALT_0, Reg.AGT_SCHED_CTX_MAP.ALT_EN_0,
  Reg.AGT_SCHED_CTX_MAP.VALID_0, Reg.AGT_SCHED_CTX_MAP.PHYS_1, Reg.AGT_SCHED_CTX_MAP.ALT_1,
  Reg.AGT_SCHED_CTX_MAP.ALT_EN_1, Reg.AGT_SCHED_CTX_MAP.VALID_1, Reg.AGT_SCHED_CTX_MAP.PHYS_2,
  Reg.AGT_SCHED_CTX_MAP.ALT_2, Reg.AGT_SCHED_CTX_MAP.ALT_EN_2, Reg.AGT_SCHED_CTX_MAP.VALID_2]

def regFields18 : List Fld := [
  Reg.AGT_SCHED_CTX_MAP.PHYS_3, Reg.AGT_SCHED_CTX_MAP.ALT_3, Reg.AGT_SCHED_CTX_MAP.ALT_EN_3,
  Reg.AGT_SCHED_CTX_MAP.VALID_3, Reg.AGT_SCHED_CTX_T0.START_0, Reg.AGT_SCHED_CTX_T0.SIZE_0,
  Reg.AGT_SCHED_CTX_T0.START_1, Reg.AGT_SCHED_CTX_T0.SIZE_1, Reg.AGT_SCHED_CTX_T0.START_2,
  Reg.AGT_SCHED_CTX_T0.SIZE_2, Reg.AGT_SCHED_CTX_T0.START_3, Reg.AGT_SCHED_CTX_T0.SIZE_3,
  Reg.BRL_TEMP.TEMP, Reg.BRL_TEMP.VALID, Reg.SCB_CMP_STATUS.RUN,
  Reg.SCB_CMP_STATUS.INPUT_LOSS]

/-- Every register field of the package. -/
def regFields : List Fld :=
  regFields0 ++ regFields1 ++ regFields2 ++ regFields3 ++ regFields4 ++ regFields5 ++
  regFields6 ++ regFields7 ++ regFields8 ++ regFields9 ++ regFields10 ++ regFields11 ++
  regFields12 ++ regFields13 ++ regFields14 ++ regFields15 ++ regFields16 ++ regFields17 ++
  regFields18

end Sys2Proof.Machine
end

