-- ==== Sys2Proof/Machine/State.lean ====
section
/-! DEFINITION. The state of the package as plain data: the register fields, the dictionary, memory, and the state that
the spec gives each unit beside its registers; the queue of waiting commands; reset. -/

namespace Sys2Proof.Machine

/-! ## Package, power and memory (chapters 1, 3, 19, 20) -/

/-- State of a power domain (R22, R27): off, on, or switching. -/
inductive DomState where
  | off | on | switchingOn | switchingOff
  deriving DecidableEq, Repr

/-- Supplies, pins and power domains. Log entry 119 (DEDUCED). -/
structure Pkg where
  /-- VDD_AON is present (R24). -/
  vddAon : Bool := false
  /-- VDD_IO18 is within range (R404, R501). -/
  vddIo18 : Bool := false
  /-- REFCLK runs (R444). -/
  refclk : Bool := false
  /-- BU_RESET_N is low (R482). -/
  resetNLow : Bool := false
  /-- TEST_MODE is high (R498). -/
  testMode : Bool := false
  /-- State of domain `d`; unlisted is off (R22). -/
  dom : Tab DomState := []
  /-- Domains still to be switched by the request that runs, in order, and the direction (R23, R27). -/
  switchPlan : List Nat := []
  switchOn : Bool := false
  /-- Every RWL field is locked (R6), set by bring-up step 8. -/
  rwlLocked : Bool := false
  deriving DecidableEq, Repr

/-- One T1 line: its tag (T2 offset divided by 4 MiB), the valid and the dirty bits of its 16 sectors (R65). -/
structure T1Line where
  tag : Nat
  valid : Nat
  dirty : Nat
  deriving DecidableEq, Repr

/-! ## Commands and contexts (chapters 3 and 12) -/

/-- Where an accepted command stands (R287, R295, R299, R301, R304). -/
inductive CmdPhase where
  | waiting | running | stopped | finished
  deriving DecidableEq, Repr

/-- An accepted command that has not completed: its envelope, the enable generation of WAIT_CTX at fetch (R291), its
place, the node and instance it is bound to, the work units done and what its resume record keeps (R304), the status
conditions met so far, and, once finished, its status and result field. -/
structure Cmd where
  ctx : Nat
  seq : Nat
  env : Nat
  waitGen : Nat := 0
  phase : CmdPhase := .waiting
  /-- Its wait of R289 was met (a met wait stays met, R291). -/
  waitMet : Bool := false
  node : Nat := 0xF
  /-- Engine instance, numbered as the resume records of R304. -/
  inst : Nat := 0
  /-- Work units whose outputs are written (R104, R111, R153, R170, R177, R195, R229). -/
  unitsDone : Nat := 0
  /-- The anchor kept in the resume record (R104), as A + 112. -/
  anchor : Option Nat := none
  /-- Working values kept in the resume record. -/
  saved : List Nat := []
  /-- Status conditions met so far (R31 picks one at the end). -/
  met : List Status := []
  /-- It was in the current step when a fence fixed it (R313). -/
  inStep : Bool := false
  status : Status := .ok
  /-- Its result field, once it has stopped or finished. -/
  result : Nat := 0
  deriving DecidableEq, Repr

/-- What a context holds beside its registers (R287 to R294, R300, R313). -/
structure Ctx where
  sqTail : Nat := 0
  cqHead : Nat := 0
  cqTail : Nat := 0
  phase : Bool := true
  nextSeq : Nat := 0
  /-- Enable generation (R291). -/
  gen : Nat := 0
  /-- Completed SEQs above CDONE, in rising order of distance from it (R289). -/
  doneAbove : List Nat := []
  /-- CQ entries reserved for commands fetched and not completed (R294). -/
  reserved : Nat := 0
  /-- A step is in progress (R300). -/
  inStep : Bool := false
  /-- The highest SEQ of a command that has started (R300). -/
  started : Option Nat := none
  /-- SEQs of fetched commands that end a step whose boundary has not been reached (R300). -/
  ends : List Nat := []
  /-- Commands outside the current step are held (R313): until the boundary, and after a remap that could not move
  every entry until RESUME. -/
  held : Bool := false
  /-- Fenced nodes whose map entries are still to be moved at the boundary (R313). -/
  lostNodes : List Nat := []
  deriving DecidableEq, Repr

/-- One tile of a transfer in flight: its index, the fabric epoch of its route, the links and the dies of the route, the
targets of a broadcast that are still served, whether a target was lost, and package time at its start (R74, R81, R271, R273). -/
structure TileFlight where
  index : Nat
  epoch : Nat
  links : List Nat
  dies : List Nat
  targets : List Nat
  lost : Bool := false
  start : Nat := 0
  deriving DecidableEq, Repr

/-- Progress of a transfer command (R74, R75). -/
structure Transfer where
  /-- Tiles of the command. -/
  count : Nat
  /-- Tiles started so far; the next to start has this index. -/
  started : Nat := 0
  flight : List TileFlight := []
  delivered : Nat := 0
  /-- Index of the first tile, in tile order, that failed. -/
  firstFail : Option Nat := none
  outcomes : List Status := []
  /-- A failure was detected with CONTINUE = 0: no further tile starts. -/
  closed : Bool := false
  deriving DecidableEq, Repr

/-- A T0 switch in progress on one core of one node (R303, R304): the context that waits, those whose region is saved,
and the next restage envelope. -/
structure T0Switch where
  ctx : Nat
  out : List Nat
  restage : Nat := 0
  deriving DecidableEq, Repr

/-- Everything of chapter 12 beside the registers of AGT_SCHED. Commands are keyed by `ctx × 2^32 + seq`; a core of a
node by `4 × node + core`; an engine instance by `16 × node + instance`. -/
structure Sched where
  ctxs : Tab Ctx := []
  cmds : Tab Cmd := []
  /-- The order of acceptance. -/
  order : List Nat := []
  transfers : Tab Transfer := []
  /-- Dispatched transfer commands in the order of issue (R74). -/
  issue : List Nat := []
  /-- The command each engine instance executes. -/
  busy : Tab Nat := []
  /-- The context last granted on each engine instance (R299). -/
  lastGrant : Tab Nat := []
  /-- Regions held: `ctx × 16 + 4 × node + core` (R303). -/
  held : List Nat := []
  /-- Regions saved (R303). -/
  saved : List Nat := []
  switches : Tab T0Switch := []
  /-- PHASE of the next record of an event ring: 0 to 15 partitions, 16 host; and whether EVQ was written. -/
  evPhase : Tab Bool := []
  deriving DecidableEq, Repr

/-! ## Host port and time unit (chapters 14 and 16) -/

/-- The PCIe side that software does not see in a register: the enabled virtual functions (R373, R375; log entry 112, DEDUCED). -/
structure HostPort where
  vfEnabled : List Nat := []
  deriving DecidableEq, Repr

/-- An entry of a transmit-timestamp queue (R350). -/
structure TxStamp where
  tsid : Nat
  time : Nat
  gap : Bool
  deriving DecidableEq, Repr

/-- The time unit beside its registers (R336 to R351). -/
structure TimeUnit where
  /-- Package time in units of 0.25 ns, and its 32 fractional bits (R336). -/
  now : Nat := 0
  frac : Nat := 0
  /-- Cycles of 400 MHz that package time has counted, which are the ticks of the reflex timing logic (R317, R336). -/
  ticks : Nat := 0
  /-- Servo integral I, an fp32 pattern (R344). -/
  integral : Nat := 0
  /-- The held jump θ (R345). -/
  heldJump : Option Int := none
  lockRun : Nat := 0
  /-- Package time of the previous accepted sample; none where Δ is taken as 0.125 s (R344). -/
  lastAccepted : Option Nat := none
  /-- Package time of the last sample, accepted or not (HOLD_TO of R345). -/
  lastSample : Nat := 0
  /-- Package time of the last MODE write or ACCEPT, in whose cycle a sample is discarded (R346). -/
  rebased : Option Nat := none
  /-- The RATEs of the servo that are still to take effect, oldest first, each with the time-clock cycles until then (R344). -/
  nextRate : List (Nat × Nat) := []
  /-- Servo events of this cycle that R346 puts behind one which is still to come. -/
  waiting : List Instr := []
  /-- The whole second of PTP time of the last TIME_PPS edge (R348). -/
  lastPps : Option Nat := none
  /-- Transmit-timestamp queues of the two ports, oldest first, and the GAP mark of the next entry (R350). -/
  queue0 : List TxStamp := []
  queue1 : List TxStamp := []
  gap0 : Bool := false
  gap1 : Bool := false
  deriving DecidableEq, Repr

/-! ## The fabric (chapter 11) -/

/-- A route table: the fabric epoch it governs and, keyed by `8 × source + destination`, the nodes of each route, both ends
included (R269 to R272). -/
structure RouteTable where
  epoch : Nat := 0
  routes : Tab (List Nat) := []
  deriving DecidableEq, Repr

/-- The fabric beside the registers of AGT_FAB (R262 to R285). -/
structure Fabric where
  table : RouteTable := {}
  /-- The retained table of the previous epoch (R272). -/
  retained : Option RouteTable := none
  /-- Dies whose admission waits for an epoch (R272). -/
  pendingAdmit : List Nat := []
  /-- Dies whose die reset and start test have passed since they were fenced (R280). -/
  restored : List Nat := []
  /-- Package times of the replays of each link in the last 1 ms, oldest first (R265). -/
  replays : Tab (List Nat) := []
  /-- Replays of each packet that is not acknowledged, keyed by `32 × packet + 2 × link`, and 1 more in the direction of the second node of
  R262 (R265). -/
  packetReplays : Tab Nat := []
  /-- Packets sent under the fabric key of slot `p` by a node, the counter of the nonce, keyed by `8 × slot + node` (R279). -/
  sent : Tab Nat := []
  /-- Package time of the last heartbeats sent, and of the last answer of each die (R276). -/
  lastBeat : Option Nat := none
  lastAnswer : Tab Nat := []
  /-- The die whose planned fence waits for its drain, and when that wait began (R277). -/
  drain : Option (Nat × Nat) := none
  /-- The die that ADMIT is training (R280). -/
  admitting : Option Nat := none
  deriving DecidableEq, Repr

/-! ## Fused values (chapters 2, 18, 19, 20). Non-volatile. -/

/-- The fuses and other values fixed at test (R2, R416 to R418, R434, R439, R446). Log entry 6 (DESIGN CHOICE). -/
structure Fuses where
  /-- 0 E, 1 S, 2 X (R2, R439). -/
  grade : Nat := 2
  /-- Serial of object 0x1018. -/
  serial : Nat := 0
  /-- 1 TEST, 2 SECURED (R439). -/
  lifecycle : Nat := 2
  debugDisable : Bool := false
  debugCount : Nat := 0
  /-- Digests of the fused configuration key slots, and the revoked slots (R418). -/
  cfgDigest : Tab Nat := []
  cfgRevoked : Nat := 0
  /-- KFUSE of each core and LOWERED bits blown (R446), keyed by `4 × node + core`. -/
  kfuse : Tab Nat := []
  lowered : Tab Nat := []
  deriving DecidableEq, Repr

/-! ## The security unit (chapter 18) -/

/-- A partition that is PROTECTED or CLEARING (R424, R430). Ranges are in units of 256 MiB, one per die. -/
structure Prot where
  isProt : Bool := false
  clearing : Bool := false
  owner : Nat := 0
  base : List Nat := []
  size : List Nat := []
  ways : List Nat := []
  /-- Number of the XTS and fabric keys in force; none once destroyed (R430 step 1). -/
  keys : Option Nat := none
  /-- Package time of step 1 of a release. -/
  start : Nat := 0
  /-- Step 3 of R430 runs; dies that it clears. -/
  filling : Bool := false
  outcome : Nat := 0
  deriving DecidableEq, Repr

/-- A die of a released partition whose clear is deferred (R431): its areas as local offset and length. -/
structure Deferral where
  part : Nat
  owner : Nat
  die : Nat
  areas : List (Nat × Nat)
  start : Nat
  deriving DecidableEq, Repr

/-- An owner's session (R423). -/
structure Session where
  id : Nat
  owner : Nat
  /-- Number of the pair of session keys. -/
  keys : Nat
  /-- Mailbox port on which it was opened. -/
  port : Nat := 1
  counter : Nat := 0
  lastRequest : Nat
  deriving DecidableEq, Repr

/-- A ticket (R422): the operation, what completes it, and its result. -/
structure Ticket where
  id : Nat
  port : Nat
  op : Nat
  session : Option Nat
  args : List Nat := []
  /-- None while the operation runs; then whether it completed successfully. -/
  ended : Option Bool := none
  endTime : Nat := 0
  result : List Byte := []
  deriving DecidableEq, Repr

/-- A model key slot (R428): its partition and the number of the key it holds. -/
structure KeySlot where
  part : Nat
  keyId : Nat
  key : Nat
  deriving DecidableEq, Repr

/-- A clear record (R433). -/
structure ClearRec where
  seq : Nat
  part : Nat
  outcome : Nat
  start : Nat
  stop : Nat
  owner : Nat
  deriving DecidableEq, Repr

/-- The answer that a mailbox port posts 20 µs after its request (R420). -/
structure MbAnswer where
  ok : Bool
  ticket : Nat := 0
  bytes : List Byte := []
  deriving DecidableEq, Repr

/-- The security unit. -/
structure SecUnit where
  prots : Tab Prot := []
  deferrals : List Deferral := []
  sessions : List Session := []
  nextSession : Nat := 1
  /-- A SESSION_OPEN that has completed and waits for SESSION_FINISH: owner D_O and key number (R423). -/
  opening : Option (Nat × Nat) := none
  tickets : List Ticket := []
  nextTicket : Nat := 1
  slots : Tab KeySlot := []
  /-- The latest nonce issued by GET_NONCE on port 0 (R434). -/
  nonce : Option Nat := none
  debugNow : Bool := false
  clearsTotal : Nat := 0
  /-- The latest 16 clear records, newest first. -/
  clears : List ClearRec := []
  retentionLost : Bool := false
  /-- Answers not yet posted, keyed by port. -/
  answers : Tab MbAnswer := []
  /-- Numbers of keys drawn so far (R424, R428). -/
  nextKey : Nat := 1
  /-- Refusals since reset (object 0x4010). -/
  refusals : Nat := 0
  /-- Packets that failed authentication (R279). -/
  authFails : Nat := 0
  deriving DecidableEq, Repr

/-! ## Engines (chapters 6, 7 and 9) -/

/-- Owner record of a held page (R146, R147): local offset of the entry that holds it, and the recorded command count. -/
structure KvOwner where
  entry : Nat
  count : Nat
  deriving DecidableEq, Repr

/-- The key-value store beside its registers. -/
structure KvStore where
  /-- Held pages, keyed by `(16 × node + partition) × 2^18 + page`. -/
  owners : Tab KvOwner := []
  /-- Pools whose owner records are still being zeroed, as `16 × node + partition` (R146). -/
  zeroing : List Nat := []
  /-- Writes to bias tables and their configuration that are held: node, offset in ONX_M, value (R140). -/
  heldBias : List (Nat × Nat × Nat) := []
  deriving DecidableEq, Repr

/-- An open stream slot: its context and the STREAM_OPEN body (R166), and whether its context has ended, so that it closes when its step
in progress does (R167). -/
structure Stream where
  ctx : Nat
  body : Nat
  closing : Bool := false
  deriving DecidableEq, Repr

/-- The Q cores beside their registers (R166 to R169, R174). -/
structure SeqCore where
  /-- Open slots, keyed by `8 × node + slot`. -/
  streams : Tab Stream := []
  /-- Steps accepted and not yet started on each node, in the order in which they are served: package time of the doorbell, and slot. -/
  queue : Tab (List (Nat × Nat)) := []
  /-- The slot whose step is in progress on each node. -/
  stepping : Tab Nat := []
  /-- Held writes to gate tables and their configuration: node, offset in ONX_Q, value. -/
  heldGate : List (Nat × Nat × Nat) := []
  deriving DecidableEq, Repr

/-- A map slot of a node beside its registers (R208 to R212): the pending table as pool bricks by brick index, whether the
epoch before the published one is retained and its origin (as MAPORG), and whether the map area is being zeroed.
Log entry 75 (DEDUCED). -/
structure GeoMap where
  pending : Tab Nat := []
  retained : Bool := false
  prevOrg : Nat := 0
  zeroing : Bool := false
  deriving DecidableEq, Repr

/-! ## Sensor ingest (chapter 10) -/

/-- What a frame record holds (R238). -/
structure CamFrame where
  seq : Nat := 0
  sof : Nat := 0
  eof : Nat := 0
  no : Nat := 0
  timing : Bool := false
  deriving DecidableEq, Repr

/-- The dictionary values of a port, latched at a Frame Start (R261). -/
structure CamLimits where
  period : Nat := 33333
  frzN : Nat := 3
  bands : Nat := 16
  flatSpan : Nat := 2
  fnumChk : Bool := true
  deriving DecidableEq, Repr

/-- An error-free frame whose tile writes are still to complete (R239): the buffer it fills, if it has one, its signature and span (R242),
and the image forwarded to Scarab (R392). The oldest is `judged`: it has passed R244, and keeps the detector state before it. -/
structure CamWait where
  buf : Option Nat
  frame : CamFrame
  sig : List Nat
  span : Nat
  judged : Bool := false
  oldRef : Option (List Nat) := none
  frz : Nat := 0
  flat : Nat := 0
  state : Nat := 0
  thumb : List Byte
  deriving DecidableEq, Repr

/-- A camera port beside its registers (R235 to R247). -/
structure CamPort where
  /-- Frame Starts since enable. -/
  seq : Nat := 0
  lastSof : Option Nat := none
  lastNo : Option Nat := none
  lim : CamLimits := {}
  /-- Frames of the READY and HELD buffers, by buffer. -/
  frames : Tab CamFrame := []
  /-- The frame being received and the buffer it fills, if it has one. -/
  cur : Option (CamFrame × Option Nat) := none
  /-- Band CRCs of the previous error-free frame (R243). -/
  ref : Option (List Nat) := none
  waits : List CamWait := []
  /-- The frame last claimed by a snapshot (R248). -/
  claimed : CamFrame := {}
  /-- The cycle in which EXCLUDE last named the port (R246). -/
  excludedAt : Option Nat := none
  deriving DecidableEq, Repr

/-- An IMU port beside its registers (R250 to R253): a burst in progress, the latest sample, the deviation run and the run of
ticks at which it was no member. -/
structure ImuPort where
  edge : Option Nat := none
  stamp : Option Nat := none
  sample : List Nat := []
  devRun : Nat := 0
  missRun : Nat := 0
  /-- The cycle in which a tick last excluded the IMU (R252). -/
  excludedAt : Option Nat := none
  deriving DecidableEq, Repr

/-- The ego integrator beside its registers (R252 to R256): q, p and v as ten fp32 patterns. -/
structure Ego where
  st : List Nat := []
  fresh : Bool := false
  staged : Option (List Nat) := none
  /-- A tick that is not evaluated yet, the encoder counts latched at it and at the tick before. -/
  tick : Option Nat := none
  counts : List Nat := []
  before : List Nat := []
  yawRun : Nat := 0
  /-- q and p of the last pose record. -/
  pose : List Nat := []
  deriving DecidableEq, Repr

/-- The ingest block. -/
structure Ingest where
  cams : Tab CamPort := []
  imus : Tab ImuPort := []
  ego : Ego := {}
  /-- MASK of a held SNAP (R247). -/
  snapHeld : Option Nat := none
  /-- Filtered levels of lines A and B of the encoder inputs (R251). -/
  enc : Tab (Bool × Bool) := []
  /-- Camera events of this cycle that R241 puts behind others of it that are still to come. -/
  waiting : List Instr := []
  deriving DecidableEq, Repr

/-! ## The reflex engine (chapter 13) -/

/-- A reflex channel beside its registers (R317 to R327): its gate outputs, whether it waits for its first sample boundary after
ARM, the dead time that runs (the output it asserts, high side or low side, and the deciding threshold), whether BLANK and
MIN_ON or MIN_OFF still run, the comparator outputs V_M ≥ V_T(THR_HI) and V_M ≤ V_T(THR_LO), the set-point complete before the
next boundary, the analogue samples on their way, oldest first, the time of the last set-point edge, whether an ON edge has
occurred, and a held trim write. -/
structure RfxChan where
  gh : Bool := false
  gl : Bool := false
  arming : Bool := false
  /-- The dead time that runs: whether an ON edge follows, the threshold that decided, and the tick at which it ends. -/
  dead : Option (Bool × Nat × Nat) := none
  /-- The ticks at which BLANK and the minimum time that run end. -/
  blank : Option Nat := none
  minRun : Option Nat := none
  /-- V_M as the comparators last saw it, in nV; none before the first. -/
  vm : Option Int := none
  u : Nat := 0
  samples : List Nat := []
  lastEdge : Nat := 0
  /-- The tick of the last ON edge. -/
  lastOn : Option Nat := none
  /-- The tick at which DISARM took the channel out of ARMED (R324). -/
  disarmedAt : Option Nat := none
  heldTrim : Option Nat := none
  deriving DecidableEq, Repr

/-- The reflex engine beside its registers: the channels, and the telemetry records in the buffer, oldest first (R331). -/
structure Reflex where
  chans : Tab RfxChan := []
  buffer : List (List Byte) := []
  deriving DecidableEq, Repr

/-! ## The comparator and the safe state (chapter 17) -/

/-- A record on its way into an output buffer (R396, R397): the bytes written since the cutoff, as starts and lengths, and the
elements of the record once it has arrived. -/
structure RecTrack where
  cov : List (Nat × Nat) := []
  vals : Option (List Nat) := none
  deriving DecidableEq, Repr

/-- What the EtherCAT image carries for a guarded output (R406): VALID and the fp32 elements, the elements of its last valid frame,
and what its latest decision assigns to the cycles from 3 µs after that decision. -/
structure Carry where
  valid : Bool := false
  vals : List Nat := []
  lastValid : List Nat := []
  next : Option (Nat × Bool × List Nat) := none
  deriving DecidableEq, Repr

/-- A decision (R398): outcome 0 AGREE, 1 DISAGREE, 2 LATE for the main record, 3 LATE for the check record; the status, and the
status apart from SAFE_STATE_LATCHED. -/
structure Decision where
  outcome : Nat
  status : Status
  plain : Status
  deriving DecidableEq, Repr

/-- The comparator beside its registers. -/
structure Comparator where
  /-- Guarded outputs are enabled and the first frame has started. -/
  running : Bool := false
  /-- Package time of the start of the current frame. -/
  start : Nat := 0
  /-- Records of the frames still to be decided, keyed by `64 × channel + 2 × output + buffer` (channel 0 main, 1 check), and of
  the current frame's outputs that were decided without them. -/
  tracks : Tab RecTrack := []
  late : Tab RecTrack := []
  /-- Decisions of the current frame, by output. -/
  decided : Tab Decision := []
  /-- The current frame is non-AGREE; the same of the earlier frames, latest first; the consecutive run. -/
  bad : Bool := false
  history : List Bool := []
  run : Nat := 0
  /-- Frames that have ended since the enable in an unbroken run, in which every output was OK apart from SAFE_STATE_LATCHED. -/
  goodFrames : Nat := 0
  /-- Frame records written since the ring was. -/
  records : Nat := 0
  carries : Tab Carry := []
  /-- Package time of the latch. -/
  latchedAt : Nat := 0
  releasing : Bool := false
  /-- Outputs whose deadline waits for the writes of its cycle into their record buffers (R397). -/
  waiting : List Nat := []
  safeA : Bool := false
  safeB : Bool := false
  /-- The heartbeat value at the last check, the checks without a change, and the last four checks: time, and whether it changed. -/
  hbSeen : Nat := 0
  hbSame : Nat := 0
  hbChecks : List (Nat × Bool) := []
  deriving DecidableEq, Repr

/-! ## EtherCAT, feeds and Ethernet (chapter 16) -/

/-- State of a subdevice position (R380). -/
inductive SubState where
  | present | absent | checking | lost | refused
  deriving DecidableEq, Repr

/-- A subdevice position: its state, the consecutive cycles without valid inputs, and when RETRY began. -/
structure SubPos where
  st : SubState := .lost
  missed : Nat := 0
  retry : Nat := 0
  deriving DecidableEq, Repr

/-- What came back of a datagram: for each port that returned it, its working counter and its bytes. -/
structure DatagramBack where
  port : Nat
  wkc : Nat
  bytes : List Byte
  deriving DecidableEq, Repr

/-- A mailbox request that runs (R381): write or read, position, index and subindex, and the bytes of a write. -/
structure MbxJob where
  write : Bool
  pos : Nat
  idx : Nat
  sub : Nat
  bytes : List Byte := []
  deriving DecidableEq, Repr

/-- The EtherCAT MainDevice beside its registers. -/
structure Ecat where
  subs : Tab SubPos := []
  /-- A cycle is under way: the frames not yet back, as `2 × frame + port`, and what came back of each datagram. -/
  open' : Bool := false
  waiting : List Nat := []
  back : Tab (List DatagramBack) := []
  /-- Ports through which frames of the cycle returned. -/
  ports : List Nat := []
  mbx : Option MbxJob := none
  /-- The 4 KiB staging buffer and the object it belongs to: `2^24 × position + 256 × index + subindex`, and 2^40 more for a write. -/
  staging : List Byte := []
  stagingOf : Option Nat := none
  /-- Feeds whose row write has not completed, and the ON_EDGES of the previous row of each (R383). -/
  feedWaits : List Nat := []
  feedEdges : Tab (List Nat) := []
  deriving DecidableEq, Repr

/-! ## The dictionary (chapter 15) -/

/-- A write that waits for the end of its slot (R363): the rank of its interface (R357), who sent it, the object as
`256 × index + subindex` or, for a register of R360, 2^24 and its byte offset above, the value, and, of a request whose answer is
discarded (R376), a mark. -/
structure SlotWrite where
  rank : Nat
  src : Src
  obj : Nat
  bytes : List Byte
  mute : Bool := false
  /-- The write is one of the register that the object mirrors (R102, R316); `bytes` is then the 64-bit word written. -/
  reg : Bool := false
  deriving DecidableEq, Repr

/-- A record of a configuration image: an object as `256 × index + subindex`, the code of its type, and its value (R366). -/
structure CfgRecord where
  obj : Nat
  typ : Nat
  value : List Byte
  deriving DecidableEq, Repr

/-- A store of the configuration image that runs (R368): the target copy, its SEQ and the snapshot. -/
structure StoreJob where
  copy : Nat
  seq : Nat
  records : List CfgRecord
  src : Src
  mute : Bool := false
  deriving DecidableEq, Repr

/-- A valid copy of the configuration image (R366). Log entry 117 (DEDUCED). -/
structure CfgCopy where
  seq : Nat
  records : List CfgRecord
  deriving DecidableEq, Repr

/-- The dictionary unit. -/
structure DictUnit where
  slot : List SlotWrite := []
  /-- Segmented writes in progress, keyed by rank: object and bytes (R358). -/
  staged : Tab (Nat × List Byte) := []
  store : Option StoreJob := none
  /-- The copies in flash, non-volatile; the copy loaded, the current copy and the records skipped (R367 to R370). -/
  copy0 : Option CfgCopy := none
  copy1 : Option CfgCopy := none
  /-- Ranks of the interfaces that wait for the answer to a refused request (R436). -/
  denied : List Nat := []
  loaded : Option Nat := none
  /-- The records of the loaded image that were applied, by object, which a register takes again when its unit is reset (R356, R367). -/
  image : Tab (List Byte) := []
  current : Option Nat := none
  skipped : Nat := 0
  deriving DecidableEq, Repr

/-! ## Power, clocks and heat (chapter 19) -/

/-- What the power controls hold of an Onyx beside its registers (R452 to R460): cap_n of R456, whether its M core has been idle,
the skip ratio that a core is to take once its rail or the re-lock permits, and whether THROTTLE lowered Q, L or G. -/
structure DiePower where
  cap : Nat := 64
  idle : Bool := false
  kGoal : Tab Nat := []
  cooled : Bool := false
  deriving DecidableEq, Repr

/-- The clock, power and thermal controls beside their registers. -/
structure Power where
  dies : Tab DiePower := []
  /-- Attempts of the re-lock that runs, and whether it has locked and waits for the dividers (R449, R451). -/
  tries : Nat := 0
  locked : Bool := false
  /-- Rails whose status reported undervoltage at the last reading (R462). -/
  underVolt : Nat := 0
  /-- The 100 ms window under way, the samples in it and their sums, and the sums of the window before with their number (R438):
  rail `r` at `2r` (current) and `2r + 1` (power), the package at 24. -/
  window : Nat := 0
  samples : Nat := 0
  sums : Tab Nat := []
  oldSamples : Nat := 0
  oldSums : Tab Nat := []
  /-- Package time of the last valid reading of each diode, or of the switching on of domain 42 (R459). -/
  diodeSeen : Tab Nat := []
  /-- Values of the registers of R438 at the latest multiple of 1 ms of package time. -/
  coarse : Tab Nat := []
  /-- Scarab's cores are halted by TRIP (R460). -/
  scarabHalted : Bool := false
  deriving DecidableEq, Repr

/-! ## Bring-up, reset and shutdown (chapter 20) -/

/-- The command of AGT_BU, or the request of object 0x5C00 (origin 1) or 0x5C02 (origin 2), that runs (R470, R487): its code and
arguments, and its status and RESULT once they are settled. -/
structure BuRun where
  origin : Nat := 0
  op : Nat
  arg : Nat := 0
  done : Option (Status × Nat) := none
  deriving DecidableEq, Repr

/-- A reset that runs (R479, R480): its level, its unit, whether it still drains and since when. -/
structure ResetJob where
  level : Nat
  node : Nat := 0
  core : Nat := 0
  part : Nat := 0
  draining : Bool
  start : Nat
  deriving DecidableEq, Repr

/-- A shutdown that runs (R483, R484): the regions still to be tested, the regions under test, those that were tested and those that
passed, PWROFF, when it began, and whether it was aborted. -/
structure ShutJob where
  plan : List Nat
  testing : List Nat := []
  run : Nat := 0
  pass : Nat := 0
  pwroff : Bool
  start : Nat
  aborted : Bool := false
  deriving DecidableEq, Repr

/-- A copy of the defect list (R477). -/
structure DefectCopy where
  seq : Nat
  entries : List Nat
  deriving DecidableEq, Repr

/-- A firmware slot whose contents verify (R475): ACT_SEQ, VERSION, the SHA-384 of its image, and the bytes of its header and image
(none: the factory image, log entry 61). -/
structure FwSlot where
  seq : Nat
  version : Nat
  digest : List Byte
  image : List Byte := []
  deriving DecidableEq, Repr

/-- A firmware component (R475, R488 to R491): its two slots (none: not valid), the running slot, whether it has been loaded since
the last package reset, STATE of object 0x2020 + i, and the image that is being written. -/
structure Component where
  slot0 : Option FwSlot := none
  slot1 : Option FwSlot := none
  running : Nat := 0
  loaded : Bool := false
  state : Nat := 0
  writing : Option FwSlot := none
  deriving DecidableEq, Repr

/-- Bring-up, resets, shutdown, the defect list and the firmware. -/
structure BringUp where
  run : Option BuRun := none
  /-- Requests of objects 0x5C00 and 0x5C02 that wait, as origin and value. -/
  queue : List (Nat × Nat) := []
  reset : Option ResetJob := none
  shut : Option ShutJob := none
  /-- Steps that have run since the package reset, by number (R471). -/
  ran : Nat := 0
  /-- Nodes that passed step 4, and Onyx dies that failed step 3, 4 or 5 since the package reset. -/
  passed : Nat := 0
  failed : Nat := 0
  /-- Package resets since VDD_AON was applied (R477). -/
  resets : Nat := 0
  /-- The copies of the defect list in flash, and DEFECT_LOST (R477). -/
  defects0 : Option DefectCopy := some ⟨0, []⟩
  defects1 : Option DefectCopy := none
  defectLost : Bool := false
  /-- DEFECT_CLEAR was made since the last start test, which the next makes FULL for every node (R478). -/
  fullNext : Bool := false
  comps : Tab Component := []
  /-- Onyx dies that run the image of the valid slot of component 3 with the later ACT_SEQ (object 0x2023:0x06). -/
  newer : Nat := 0
  deriving DecidableEq, Repr

/-! ## Outcomes that are no next state -/

/-- Why the package stops. No command of this model stops it. -/
inductive Fault where
  /-- Raised by no meaning: the spec names no condition in which the package as a whole stops. Safe. -/
  | stopped
  deriving DecidableEq, Repr

/-- Why a command has no meaning. -/
inductive Refusal where
  /-- The command has no meaning in the model yet: answered by its arm in Dispatch.lean alone. Safe. -/
  | notModelled (mnemonic : String)
  deriving DecidableEq, Repr

/-! ## What the package sends out -/

/-- What the package sends to the outside, in the order sent: MSI-X vectors of a PCIe function (0 PF0, 1 PF1, 2 + v VF v),
in-band interrupts of the sideband (R468), messages of the field buses, and the like. -/
inductive Output where
  | msix (fn vector : Nat)
  | ibi
  | emcy (channel code : Nat)
  /-- The value that a read with an effect returns, or the answer to a request. -/
  | value (v : Nat)
  /-- A cyclic EtherCAT frame: its number, the system time of the distributed-clock datagram at the head of frame 0, and command,
  address and data of each datagram (R349, R382). -/
  | ecat (frame dc : Nat) (datagrams : List (Nat × Nat × List Byte))
  /-- A CoE request to the subdevice at a position (R380, R381). -/
  | coe (pos idx sub : Nat) (write : Bool) (bytes : List Byte)
  /-- A frame sent by an Ethernet port (R387). -/
  | eth (port : Nat) (frame : List Byte)
  /-- A heartbeat of a CAN FD channel (R372). -/
  | heartbeat (channel : Nat)
  /-- The two messages of an SRDO (R372, R405). -/
  | srdo (n : Nat) (data inverted : List Byte)
  /-- The answer to a dictionary request that came over a field bus: rank of the interface, abort code and bytes (R359). -/
  | sdo (rank abort : Nat) (bytes : List Byte)
  /-- TIME_PPS rises, at this PTP time (R348). -/
  | pps (ptp : Nat)
  /-- An input forwarded to the rings of Scarab (R392): kind and index of the source, and the bytes. -/
  | scarab (kind index : Nat) (bytes : List Byte)
  /-- The command byte that IMU port `port` sends, and the bytes that its burst reads (R250). -/
  | imuRead (port cmd len : Nat)
  /-- PMBus OPERATION off to every regulator except that of VDD_AON (R483). -/
  | operationOff
  deriving DecidableEq, Repr

/-! ## The whole state -/

/-- The package. -/
structure State where
  /-- Commands that wait, first in first out (the model's own queue). -/
  pending : List Instr
  /-- Reading of the counter of free values (the model's own field, DESIGN CHOICE, log entry 3). -/
  freeCount : Nat
  /-- Register fields, keyed by the bit address of the field; unlisted fields hold their reset values (R8). -/
  regs : Tab Nat
  /-- Dictionary objects, keyed by `256 × index + subindex`; unlisted objects hold their defaults (R355). -/
  dict : Tab Nat
  /-- Objects of type DOMAIN and VISIBLE_STRING. -/
  blobs : Tab (List Byte)
  /-- Memory by 52-bit global address; an unlisted byte reads as `State.blank` says. -/
  mem : List Host.Cell
  /-- Units of 256 MiB of T2 whose contents a channel remap left undefined (R310) or a fresh key cannot decrypt (R425), keyed by
  `256 × node + unit`: a number drawn for the free contents of their unlisted bytes. -/
  scrambled : Tab Nat
  /-- Host memory (tier T3) by bus address; unlisted bytes read 0. -/
  hostMem : List Host.Cell
  /-- Poisoned sectors by address, rising (R77). -/
  poison : List Nat
  /-- T1 lines, keyed by `16384 × node + 1024 × way + set` (R65). -/
  t1 : Tab T1Line
  /-- Pseudo-LRU bits of a set, keyed by `1024 × node + set` (R67). -/
  plru : Tab Nat
  out : List Output
  pkg : Pkg
  sched : Sched
  host : HostPort
  time : TimeUnit
  fabric : Fabric
  fuses : Fuses
  sec : SecUnit
  kv : KvStore
  seq : SeqCore
  /-- Map slots, keyed by `4 × node + slot`. -/
  geo : Tab GeoMap
  /-- RING registers written since their last reset, by byte address, with the count of records lost (R249). -/
  rings : Tab Nat
  ing : Ingest
  /-- Reflex channels. -/
  rfx : Reflex
  cmp : Comparator
  ecat : Ecat
  dic : DictUnit
  pwr : Power
  bu : BringUp
  deriving DecidableEq, Repr

/-- The package right after VDD_AON is applied (R467): only domain 32 runs, every register field holds its reset value,
package time is 0 (R338). Log entry 7 (DESIGN CHOICE). -/
def State.reset : State where
  pending := []
  freeCount := 0
  regs := []
  dict := []
  blobs := []
  mem := []
  scrambled := []
  hostMem := []
  poison := []
  t1 := []
  plru := []
  out := []
  pkg := { vddAon := true, vddIo18 := true, refclk := true, dom := [(32, .on)] }
  sched := {}
  host := {}
  time := {}
  fabric := {}
  fuses := {}
  sec := {}
  kv := {}
  seq := {}
  geo := []
  rings := []
  ing := {}
  rfx := {}
  cmp := {}
  ecat := {}
  dic := {}
  pwr := {}
  bu := {}

end Sys2Proof.Machine
end

