-- ==== Sys2Proof/Machine/Ops.lean ====
section
/-! DEFINITION. The named operations over register fields, memory, poison and T1 (chapters 0, 1 and 3). -/

namespace Sys2Proof.Machine

/-! ## Register fields (R6, R8, R18) -/

/-- The fabric node that holds a field: the Onyx named, Agate (0x4) or Scarab (0x5) (R9). -/
def Fld.node (f : Fld) (n : Nat) : Nat :=
  match f.die with
  | .onyx => n
  | .agate => 4
  | .scarab => 5

/-- Byte offset of instance `i` of the register within register space. -/
def Fld.offset (f : Fld) (i : Nat) : Nat := f.blk + f.off + f.stride * (i % f.count) + f.stride2 * (i / f.count)

/-- Global address of byte `off` of register space of a node (R17, R19, R20). -/
def regSpace (node off : Nat) : Nat := node * 2 ^ 48 + 0x2000000000 + off

/-- Global address of the register. -/
def Fld.addr (f : Fld) (n i : Nat) : Nat := regSpace (f.node n) (f.offset i)

/-- The key of a field in the register file: the bit address of its lowest bit. -/
def Fld.key (f : Fld) (n i : Nat) : Nat := 8 * f.addr n i + f.lo

/-- Reset value of instance `i`. -/
def Fld.reset (f : Fld) (i : Nat) : Nat := if i = 0 then f.rst0 else f.rst

/-- Read a field: instance `i`, on Onyx `n` for the blocks of the Onyx dies. -/
def State.getO (s : State) (f : Fld) (n i : Nat) : Nat := tget (f.reset i) s.regs (f.key n i)

/-- Write a field, cut to its width. -/
def State.setO (s : State) (f : Fld) (n i v : Nat) : State :=
  { s with regs := tput (f.reset i) s.regs (f.key n i) (v % 2 ^ f.width) }

/-- Read a field of Agate or Scarab. -/
def State.get (s : State) (f : Fld) (i : Nat) : Nat := s.getO f 4 i

/-- Write a field of Agate or Scarab. -/
def State.set (s : State) (f : Fld) (i v : Nat) : State := s.setO f 4 i v

/-- Is a one-bit field set? -/
def State.isSet (s : State) (f : Fld) (i : Nat) : Bool := s.get f i == 1

/-- Add to a count that saturates at the field's width. -/
def State.countO (s : State) (f : Fld) (n i k : Nat) : State := s.setO f n i (satAdd f.width (s.getO f n i) k)

def State.count (s : State) (f : Fld) (i k : Nat) : State := s.countO f 4 i k

/-- Give every field and window of the address range `[a, a + len)` its reset value (R8). -/
def State.resetRange (s : State) (a len : Nat) : State :=
  { s with
    regs := tkeep (fun k => decide (k < 8 * a) || decide (8 * (a + len) ≤ k)) s.regs
    mem := tkeep (fun k => decide (k < a) || decide (a + len ≤ k)) s.mem
    poison := s.poison.filter (fun k => decide (k < a) || decide (a + len ≤ k))
    rings := tkeep (fun k => decide (k < a) || decide (a + len ≤ k)) s.rings }

/-- Give every field of block `blk` of a node its reset value (R8). A block is 1 MiB (R18). -/
def State.resetBlock (s : State) (node blk : Nat) : State := s.resetRange (regSpace node (0x100000 * blk)) 0x100000

/-- Draw a free value. -/
def State.draw (s : State) : Nat × State :=
  ((Config.free s.freeCount).toNat, { s with freeCount := s.freeCount + 1 })

def State.emit (s : State) (o : Output) : State := { s with out := s.out ++ [o] }

/-! ## Dictionary objects -/

/-- The stored value of an object of a numeric type, or its default `d`. -/
def State.obj (s : State) (d idx sub : Nat) : Nat := tget d s.dict (256 * idx + sub)

/-- Store a value into an object whose default is `d`. -/
def State.setObj (s : State) (d idx sub v : Nat) : State :=
  { s with dict := tput d s.dict (256 * idx + sub) v }

/-- The bytes of an object of type DOMAIN. -/
def State.blob (s : State) (idx sub : Nat) : List Byte := tget [] s.blobs (256 * idx + sub)

def State.setBlob (s : State) (idx sub : Nat) (b : List Byte) : State :=
  { s with blobs := tput [] s.blobs (256 * idx + sub) b }

/-! ## Bytes -/

/-- Cells of a run of bytes from `a`, the bytes left out that an unlisted address reads as. -/
def cellsOf (blank : Nat → Byte) : Nat → List Byte → List Host.Cell
  | _, [] => []
  | a, b :: t => if b = blank a then cellsOf blank (a + 1) t else (a, b) :: cellsOf blank (a + 1) t

/-- Replace the bytes from `a` on. -/
def cellsWrite (blank : Nat → Byte) (m : List Host.Cell) (a : Nat) (b : List Byte) : List Host.Cell :=
  m.filter (fun c => decide (c.1 < a)) ++ cellsOf blank a b ++ m.filter (fun c => decide (a + b.length ≤ c.1))

/-- Read `n` bytes from `a`. -/
def cellsRead (blank : Nat → Byte) (m : List Host.Cell) (a n : Nat) : List Byte :=
  let near := m.filter (fun c => decide (a ≤ c.1) && decide (c.1 < a + n))
  (List.range n).map (fun i => tget (blank (a + i)) near (a + i))

/-- What an unlisted byte of memory reads as: 0 (DESIGN CHOICE, log entry 2), but in T2 that a channel remap or a fresh key left undefined a
free value (R310, R425). -/
def State.blank (s : State) (a : Nat) : Byte :=
  match s.scrambled with
  | [] => 0
  | t =>
    if a / 2 ^ 48 < 4 ∧ a % 2 ^ 48 < 0x1000000000 then
      match tfind t (256 * (a / 2 ^ 48) + a % 2 ^ 48 / 0x10000000) with
      | some g => Config.freeByte g a
      | none => 0
    else 0

/-- An unlisted byte of host memory reads 0 (DESIGN CHOICE, log entry 2). -/
def hostBlank (_ : Nat) : Byte := 0

def State.hostRead (s : State) (a n : Nat) : List Byte := cellsRead hostBlank s.hostMem a n
def State.hostWrite (s : State) (a : Nat) (b : List Byte) : State :=
  { s with hostMem := cellsWrite hostBlank s.hostMem a b }

/-! ## Where a byte stands: T1 over T2 (R17, R55, R65 to R69) -/

def nodeOf (a : Nat) : Nat := a / 2 ^ 48
def localOf (a : Nat) : Nat := a % 2 ^ 48
/-- The sector (256 bytes, R57) that holds an address. -/
def sectorOf (a : Nat) : Nat := a / 256 * 256

def glob (node off : Nat) : Nat := node * 2 ^ 48 + off

/-- Is the address in the T2 of an Onyx? -/
def isT2 (a : Nat) : Bool := decide (nodeOf a < 4) && decide (localOf a < 0x1000000000)

/-- Set of a T2 offset and its tag (R65). -/
def t1Set (off : Nat) : Nat := off / 4096 % 1024
def t1Tag (off : Nat) : Nat := off / 0x400000

def t1Key (node way set : Nat) : Nat := 16384 * node + 1024 * way + set

/-- Where the data of a line stands: the place of its way in the T1 window (R17, R69). -/
def t1Home (node way set : Nat) : Nat := glob node (0x1000000000 + way * 0x400000 + set * 4096)

/-- The way whose line matches a T2 address, if any (R65, R66). -/
def State.t1Find (s : State) (a : Nat) : Option Nat :=
  let off := localOf a
  (List.range 16).find? (fun w =>
    match tfind s.t1 (t1Key (nodeOf a) w (t1Set off)) with
    | some l => l.tag == t1Tag off
    | none => false)

/-- The line at a way. -/
def State.t1Line (s : State) (node way set : Nat) : Option T1Line := tfind s.t1 (t1Key node way set)

/-- Is the sector of a T2 address valid in the line of way `w`? -/
def State.t1Valid (s : State) (a w : Nat) : Bool :=
  match s.t1Line (nodeOf a) w (t1Set (localOf a)) with
  | some l => bit l.valid (a / 256 % 16)
  | none => false

/-- The address at which the bytes of `a` stand: in T1 where a valid sector covers a T2 address, else `a` itself. -/
def State.place (s : State) (a : Nat) : Nat :=
  if isT2 a then
    match s.t1Find a with
    | some w => if s.t1Valid a w then t1Home (nodeOf a) w (t1Set (localOf a)) + a % 4096 else a
    | none => a
  else a

/-- One byte of memory as any requester sees it (R55). -/
def State.byte (s : State) (a : Nat) : Byte := tget (s.blank (s.place a)) s.mem (s.place a)

/-- A run of bytes as any requester sees it. Runs are read sector by sector. -/
def State.bytes (s : State) (a n : Nat) : List Byte :=
  if isT2 a then
    let first := a / 256
    let last := (a + n - 1) / 256
    if n = 0 then [] else
    ((List.range (last - first + 1)).flatMap (fun i =>
      let lo := max a ((first + i) * 256)
      let hi := min (a + n) ((first + i + 1) * 256)
      cellsRead s.blank s.mem (s.place lo) (hi - lo)))
  else cellsRead s.blank s.mem a n

/-- A little-endian value of `n` bytes (R511). -/
def State.word (s : State) (a n : Nat) : Nat := leVal (s.bytes a n)

/-- Is the sector that holds `a` poisoned (R77)? -/
def State.poisoned (s : State) (a : Nat) : Bool := s.poison.contains (sectorOf (s.place a))

/-- Mark or clear the poison of the sector that stands at physical address `p`. -/
def State.setPoison (s : State) (p : Nat) (b : Bool) : State :=
  { s with poison := if b then sinsert s.poison (sectorOf p) else sdel s.poison (sectorOf p) }

/-- Put bytes at a physical address. -/
def State.poke (s : State) (p : Nat) (b : List Byte) : State := { s with mem := cellsWrite s.blank s.mem p b }

/-- Copy a sector, poison included, between physical places. -/
def State.moveSector (s : State) (src dst : Nat) : State :=
  (s.poke dst (cellsRead s.blank s.mem src 256)).setPoison dst (s.poison.contains src)

/-! ### Tree pseudo-LRU of a set (R67). Node `i` of the tree has children `2i + 1` and `2i + 2`; ways hang under nodes
7 to 14. A bit of 0 points to the lower half (DESIGN CHOICE, log entry 8). -/

/-- Does any allowed way lie among the `2^k` ways from `lo`? -/
def anyWay (mask lo k : Nat) : Bool := bits mask lo (2 ^ k) != 0

/-- Follow the bits to a victim among the allowed ways; a half without an allowed way is skipped. -/
def plruVictim (tree mask : Nat) : Nat → Nat → Nat → Nat
  | 0, _, lo => lo
  | k + 1, node, lo =>
    let hi := lo + 2 ^ k
    let goHi := if !anyWay mask lo k then true else if !anyWay mask hi k then false else bit tree node
    if goHi then plruVictim tree mask k (2 * node + 2) hi else plruVictim tree mask k (2 * node + 1) lo

/-- Point every bit on the way's path away from it. -/
def plruTouch (way : Nat) : Nat → Nat → Nat → Nat → Nat
  | 0, _, _, tree => tree
  | k + 1, node, lo, tree =>
    let inHi := decide (lo + 2 ^ k ≤ way)
    let t := setBit tree node (!inHi)
    if inHi then plruTouch way k (2 * node + 2) (lo + 2 ^ k) t else plruTouch way k (2 * node + 1) lo t

def State.touchWay (s : State) (node set way : Nat) : State :=
  let k := 1024 * node + set
  { s with plru := tput 0 s.plru k (plruTouch way 4 0 0 (tget 0 s.plru k)) }

/-- Write the dirty sectors of a line back to T2 (R66). The line stays as it is but clean. -/
def State.writeBack (s : State) (node way set : Nat) : State :=
  match s.t1Line node way set with
  | none => s
  | some l =>
    let base := glob node (l.tag * 0x400000 + set * 4096)
    let home := t1Home node way set
    let s1 := (maskList 16 l.dirty).foldl (fun st i => st.moveSector (home + 256 * i) (base + 256 * i)) s
    { s1 with t1 := tset s1.t1 (t1Key node way set) { l with dirty := 0 } }

/-- Invalidate a line without writing it back. -/
def State.dropLine (s : State) (node way set : Nat) : State :=
  { s with t1 := tdel s.t1 (t1Key node way set) }

/-- Is region `d` under test in a shutdown, so that its functions are absent (R484)? -/
def State.underTest (s : State) (d : Nat) : Bool :=
  match s.bu.shut with
  | some j => j.testing.contains d
  | none => false

/-- Is power domain `d` on (neither off nor switching, R26)? -/
def State.domPowered (s : State) (d : Nat) : Bool := tget DomState.off s.pkg.dom d == .on

/-- Does what power domain `d` holds work: it is on and not under test (R26, R484)? -/
def State.domOn (s : State) (d : Nat) : Bool := s.domPowered d && !s.underTest d

/-- Is the device held in package reset: BU_RESET_N low, or TEST_MODE high (R482, R498)? -/
def Pkg.held (p : Pkg) : Bool := p.resetNLow || p.testMode

/-- Do the clocks of Agate and the Onyx dies run, out of package reset (R24, R444, R467, R482, R498)? Where they do not, no command of
theirs has an effect. -/
def State.clocked (s : State) : Bool := s.pkg.vddAon && s.pkg.refclk && !s.pkg.held

/-- The outcome of a command of Agate or of an Onyx: nothing where no clock runs. Log entry 4 (DEDUCED). -/
def State.onClock (s : State) (o : Host.Outcome State Fault Refusal) : Host.Outcome State Fault Refusal :=
  if s.clocked then o else .next s

/-- Ways that may hold lines: cache ways (R69) of a T1 group that is on (R22). -/
def State.cacheWays (s : State) (node : Nat) : Nat :=
  let powered := (if s.domOn (8 * node + 2) then 0xFF else 0) + (if s.domOn (8 * node + 3) then 0xFF00 else 0)
  powered &&& (0xFFFF - s.getO Reg.ONX_T1_WAYMODE.SCRATCH node 0)

/-- Allocation mask of a partition on a die (R67, R69). -/
def State.allocMask (s : State) (node part : Nat) : Nat :=
  s.getO Reg.ONX_T1_WAYMASK.ALLOC node part &&& s.cacheWays node

/-- Allocate a line for a T2 address: the lowest empty allowed way, else the pseudo-LRU victim, written back first
(R67). Answers the way, or none where the partition allocates nowhere. -/
def State.t1Alloc (s : State) (part a : Nat) : Option Nat × State :=
  let node := nodeOf a
  let set := t1Set (localOf a)
  let mask := s.allocMask node part
  if mask = 0 then (none, s) else
    let empty := (List.range 16).find? (fun w => bit mask w && !thas s.t1 (t1Key node w set))
    let way := match empty with
      | some w => w
      | none => plruVictim (tget 0 s.plru (1024 * node + set)) mask 4 0 0
    let s1 := (s.writeBack node way set).dropLine node way set
    (some way, { s1 with t1 := tset s1.t1 (t1Key node way set) ⟨t1Tag (localOf a), 0, 0⟩ })

/-- Mark a sector of a line valid, and dirty where `d`. -/
def State.markSector (s : State) (node way set i : Nat) (d : Bool) : State :=
  match s.t1Line node way set with
  | none => s
  | some l =>
    let l' : T1Line := ⟨l.tag, setBit l.valid i true, if d then setBit l.dirty i true else l.dirty⟩
    { s with t1 := tset s.t1 (t1Key node way set) l' }

/-- What a read of the sector at `a` does to T1: a hit fetches a missing sector into its line, a miss allocates where it
may, and otherwise T2 is read directly (R66 to R68). Addresses outside T2 are read where they stand. -/
def State.touchRead (s : State) (part : Nat) (alloc : Bool) (a : Nat) : State :=
  if !isT2 a then s else
    let node := nodeOf a
    let set := t1Set (localOf a)
    let i := a / 256 % 16
    let fetch (st : State) (w : Nat) : State :=
      ((st.moveSector (sectorOf a) (t1Home node w set + 256 * i)).markSector node w set i false).touchWay node set w
    match s.t1Find a with
    | some w => if s.t1Valid a w then s.touchWay node set w else fetch s w
    | none =>
      if !alloc then s else
        match s.t1Alloc part a with
        | (some w, s1) => fetch s1 w
        | (none, s1) => s1

/-- A write inside one sector (R66 to R68, R79.4). `b` starts at `a` and stays in its sector. A whole sector is placed
with the poison given; a partial write keeps the poison the sector has. -/
def State.writeSector (s : State) (part : Nat) (alloc : Bool) (a : Nat) (b : List Byte) (poison : Bool) : State :=
  let whole := b.length == 256
  let put (st : State) (p : Nat) : State :=
    let st1 := st.poke p b
    if whole then st1.setPoison p poison else if poison then st1.setPoison p true else st1
  if !isT2 a then put s a else
    let node := nodeOf a
    let set := t1Set (localOf a)
    let i := a / 256 % 16
    let into (st : State) (w : Nat) (valid : Bool) : State :=
      let home := t1Home node w set
      let st1 := if valid || whole then st else st.moveSector (sectorOf a) (home + 256 * i)
      ((put st1 (home + a % 4096)).markSector node w set i true).touchWay node set w
    match s.t1Find a with
    | some w => into s w (s.t1Valid a w)
    | none =>
      if !alloc then put s a else
        match s.t1Alloc part a with
        | (some w, s1) => into s1 w false
        | (none, s1) => put s1 a

/-- Cut a run of bytes at sector boundaries: pairs of an address and the bytes there. -/
def sectorRuns : Nat → Nat → List Byte → List (Nat × List Byte)
  | 0, _, _ => []
  | n + 1, a, b =>
    if b.isEmpty then [] else
      let k := 256 - a % 256
      (a, b.take k) :: sectorRuns n (a + k) (b.drop k)

/-- A write of a run of bytes, sector by sector. -/
def State.writeRun (s : State) (part : Nat) (alloc : Bool) (a : Nat) (b : List Byte) (poison : Bool := false) : State :=
  (sectorRuns (b.length / 256 + 2) a b).foldl (fun st r => st.writeSector part alloc r.1 r.2 poison) s

/-- A little-endian value of `n` bytes written through T1 with allocation for partition `part`. -/
def State.writeWord (s : State) (part a n v : Nat) : State := s.writeRun part true a (leBytes n v)

/-- The sectors that a run of bytes touches. -/
def sectorsOf (a n : Nat) : List Nat :=
  if n = 0 then [] else (List.range ((a + n - 1) / 256 - a / 256 + 1)).map (fun i => (a / 256 + i) * 256)

/-! ## Errors found by a read (R77, R78, R80) -/

/-- Count a corrected error of sector `a` (R70, R77, R83): in ECCCNT of T1 where T1 holds it, in object 0x3401 for T2. -/
def State.countCorrected (s : State) (a : Nat) : State :=
  let node := nodeOf a
  if isT2 a then
    if s.place a = a then s.setObj 0 0x3401 (node + 1) (satAdd 32 (s.obj 0 0x3401 (node + 1)) 1)
    else s.countO Reg.ONX_T1_ECCCNT.CORRECTED node 0 1
  else if decide (node < 4) && decide (0x1000000000 ≤ localOf a) && decide (localOf a < 0x1004000000) then
    s.countO Reg.ONX_T1_ECCCNT.CORRECTED node 0 1
  else s

/-- Is the T2 address held in a clean T1 sector (R80)? -/
def State.cleanInT1 (s : State) (a : Nat) : Bool :=
  match s.t1Find a with
  | some w =>
    match s.t1Line (nodeOf a) w (t1Set (localOf a)) with
    | some l => bit l.valid (a / 256 % 16) && !bit l.dirty (a / 256 % 16)
    | none => false
  | none => false

/-- An uncorrectable error found in sector `a`: a clean T1 sector is fetched again and counted (R80); any other sector
becomes poisoned (R78), a T2 sector being counted in object 0x3402 (R83). The flag says that data was lost. -/
def State.foundError (s : State) (a : Nat) : State × Bool :=
  let node := nodeOf a
  if isT2 a && s.cleanInT1 a then
    match s.t1Find a with
    | some w =>
      ((s.moveSector (sectorOf a) (t1Home node w (t1Set (localOf a)) + 256 * (a / 256 % 16))).countO
        Reg.ONX_T1_ECCCNT.REFETCHED node 0 1, false)
    | none => (s, false)
  else
    let s1 := s.setPoison (s.place a) true
    (if isT2 a && s.place a == a then s1.setObj 0 0x3402 (node + 1) (satAdd 32 (s1.obj 0 0x3402 (node + 1)) 1)
     else s1, true)

/-- The outcome of reading sectors: the state, whether a read found an uncorrectable error that lost data, and whether
any sector carried poison beforehand. -/
structure ReadResult where
  st : State
  lost : Bool
  poison : Bool

/-- What an access does with the errors that it finds in the sector at `a`, judged where the sector stands before the access moves it: a
sector that T1 does not hold is read from T2, and its error is T2's (R77, R78, R80, R83). The flag says that data was lost. -/
def State.meetErrors (s : State) (errs : ReadErrs) (a : Nat) : State × Bool :=
  let s1 := if errs.corrected.contains a then s.countCorrected a else s
  if errs.uncorrectable.contains a then s1.foundError a else (s1, false)

/-- Read a list of sectors: of each, the errors found in it take effect where it stands, and then T1 is updated, so that a poisoned
sector is placed in T1 with its poison (R66 to R68, R77 to R80). An error is found once, by the first read of its sector. -/
def State.readSectors (s : State) (part : Nat) (alloc : Bool) (errs : ReadErrs) (secs : List Nat) : ReadResult :=
  let before := secs.any s.poisoned
  let r := (secs.foldl sinsert []).foldl
    (fun (p : State × Bool) a => let q := p.1.meetErrors errs a; (q.1.touchRead part alloc a, p.2 || q.2)) (s, false)
  ⟨r.1, r.2, before⟩

end Sys2Proof.Machine

namespace Sys2Proof

/-! ## Statuses (R28, R31) -/

/-- The 8-bit code of a status (R28). -/
def Status.code : Status → Nat
  | .ok => 0x00 | .okRegularised => 0x01 | .okSaturated => 0x02 | .staleEpoch => 0x04
  | .badDescriptor => 0x10 | .badLayout => 0x11
  | .queueFull => 0x20 | .superseded => 0x21 | .preempted => 0x22
  | .tileUncorrectable => 0x30 | .lowerTierTimeout => 0x31 | .poisonedInput => 0x32 | .pageDropped => 0x33
  | .deadlineMissed => 0x40 | .outputInvalidated => 0x50 | .safeStateLatched => 0x51
  | .denied => 0x60 | .nodeLost => 0x70 | .linkDegraded => 0x71

/-- Place in the order of R31; the lowest is reported. -/
def Status.rank : Status → Nat
  | .denied => 0 | .safeStateLatched => 1 | .nodeLost => 2 | .queueFull => 3 | .badDescriptor => 4
  | .badLayout => 5 | .superseded => 6 | .preempted => 7 | .tileUncorrectable => 8 | .lowerTierTimeout => 9
  | .poisonedInput => 10 | .pageDropped => 11 | .deadlineMissed => 12 | .outputInvalidated => 13
  | .linkDegraded => 14 | .staleEpoch => 15 | .okSaturated => 16 | .okRegularised => 17 | .ok => 18

/-- The status that R31 reports of two. -/
def Status.first (a b : Status) : Status := if b.rank < a.rank then b else a

/-- The status that R31 reports when all of a list apply. -/
def Machine.pickStatus (l : List Status) : Status := l.foldl Status.first .ok

/-- Is the result of the status usable (R28)? -/
def Status.usable : Status → Bool
  | .ok | .okRegularised | .okSaturated | .staleEpoch | .linkDegraded => true
  | _ => false

end Sys2Proof
end

