-- ==== Sys2Proof/Machine/AddrMap.lean ====
section
/-! DEFINITION. Chapter 1: global addresses, who may reach what, and which power domain backs an address. -/

namespace Sys2Proof.Machine

/-- Is Onyx `n` admitted to the fabric (R21, R282)? Log entry 118 (DEDUCED). -/
def State.admitted (s : State) (n : Nat) : Bool := decide (n < 4) && bit (s.get Reg.AGT_FAB_STATUS.ADMITTED 0) n

/-- Is Onyx `n` fenced? -/
def State.fenced (s : State) (n : Nat) : Bool := decide (n < 4) && bit (s.get Reg.AGT_FAB_STATUS.FENCED 0) n

/-- The fenced or admitted mark of a die; never both (R21). -/
def State.setAdmitted (s : State) (n : Nat) (a f : Bool) : State :=
  (s.set Reg.AGT_FAB_STATUS.ADMITTED 0 (setBit (s.get Reg.AGT_FAB_STATUS.ADMITTED 0) n a)).set
    Reg.AGT_FAB_STATUS.FENCED 0 (setBit (s.get Reg.AGT_FAB_STATUS.FENCED 0) n f)

/-- The kinds of place a mapped offset names. -/
inductive Region where
  | t2 | t1Window (way : Nat) | t0 (core : Nat) | regs (block : Nat) | dram | flash | sram
  deriving DecidableEq, Repr

/-- Size of the T0 of a core (0 M, 1 Q, 2 L, 3 G; R54) in bytes. -/
def t0Size (core : Nat) : Nat := lget 0 [24, 4, 4, 8] core * 0x100000

/-- First local offset of a core's T0 window (R17). -/
def t0Base (core : Nat) : Nat := 0x1800000000 + core * 0x10000000

/-- Decode a local offset of a node (R17 to R20); none where it is unmapped. -/
def region (node off : Nat) : Option Region :=
  if node < 4 then
    if off < 0x1000000000 then some .t2
    else if off < 0x1004000000 then some (.t1Window ((off - 0x1000000000) / 0x400000))
    else if 0x1800000000 ≤ off ∧ off < 0x1840000000 then
      let core := (off - 0x1800000000) / 0x10000000
      if off - t0Base core < t0Size core then some (.t0 core) else none
    else if 0x2000000000 ≤ off ∧ off < 0x2010000000 then
      let b := (off - 0x2000000000) / 0x100000
      if b < 9 then some (.regs b) else none
    else none
  else if node = 4 then
    if off < 0x200000000 then some .dram
    else if 0x2000000000 ≤ off ∧ off < 0x2010000000 then
      let b := (off - 0x2000000000) / 0x100000
      if b < 14 then some (.regs b) else none
    else if 0x2800000000 ≤ off ∧ off < 0x2810000000 then some .flash
    else none
  else if node = 5 then
    if off < 0x2000000 then some .sram
    else if 0x2000000000 ≤ off ∧ off < 0x2010000000 then
      let b := (off - 0x2000000000) / 0x100000
      if b < 3 then some (.regs b) else none
    else none
  else none

/-- The power domain that backs a place (R22, R513). -/
def backing (node : Nat) (r : Region) : Nat :=
  if node < 4 then
    match r with
    | .t2 => 8 * node + 1
    | .t1Window w => if w < 8 then 8 * node + 2 else 8 * node + 3
    | .t0 c => 8 * node + 4 + c
    | .regs b => if 1 ≤ b ∧ b ≤ 4 then 8 * node + 3 + b else if b = 6 then 8 * node + 1 else 8 * node
    | _ => 8 * node
  else if node = 4 then
    match r with
    | .dram => 39
    | .regs b => lget 32 [32, 32, 32, 32, 36, 32, 32, 32, 34, 34, 33, 35, 32, 37] b
    | _ => 32
  else
    match r with
    | .sram => 41
    | _ => 40

/-- The instance of a field's register that lies at byte `off` of register space, if one does. -/
def Fld.instance? (f : Fld) (off : Nat) : Option Nat :=
  if off < f.blk + f.off then none else
    let r := off - (f.blk + f.off)
    let j := if f.stride2 = 0 then 0 else r / f.stride2
    let r1 := r - j * f.stride2
    let k := if f.stride = 0 then 0 else r1 / f.stride
    if r1 = k * f.stride ∧ k < f.count ∧ j < f.count2 then some (f.count * j + k) else none

/-- Kind of the die at a node. -/
def dieKind (node : Nat) : DieKind := if node < 4 then .onyx else if node = 4 then .agate else .scarab

/-- The fields of the register at byte `off` of the register space of a node, each with its instance. -/
def fieldsAt (node off : Nat) : List (Fld × Nat) :=
  regFields.filterMap (fun f => if f.die == dieKind node then (f.instance? off).map (fun i => (f, i)) else none)

/-- Does byte `off` of the register space of Agate relay to a Beryl register (R11, R513)? -/
def relaysToBeryl (off : Nat) : Bool :=
  decide (0x500000 ≤ off) && decide (off < 0x600000) && !(fieldsAt 4 off).isEmpty

/-- Can a global address be reached: it is mapped, its domain is on and does not switch, a T1 way is a scratch way, and a relayed
access finds domain 42 on (R18, R26, R69, R513)? -/
def State.mapped (s : State) (a : Nat) : Bool :=
  match region (nodeOf a) (localOf a) with
  | none => false
  | some r =>
    s.domOn (backing (nodeOf a) r) &&
    (match r with
     | .t1Window w => bit (s.getO Reg.ONX_T1_WAYMODE.SCRATCH (nodeOf a) 0) w
     | .regs b => !(nodeOf a == 4 && b == 5) || s.domOn 42 || !relaysToBeryl (localOf a - 0x2000000000)
     | _ => true)

/-- Is the requester part of Agate itself (R19, R20)? -/
def Src.inAgate : Src → Bool
  | .mgmt | .secUnit => true
  | _ => false

/-- The status with which a request to a global address is refused, if it is (R15, R16, R18 to R20, R26, R31). `regWrite`
says that it is a write to register space, which alone may name the broadcast node. -/
def State.requestRefused (s : State) (src : Src) (a : Nat) (regWrite : Bool) : Option Status :=
  let node := nodeOf a
  let off := localOf a
  if src = .scarab ∧ (node < 4 ∨ node = 0xF) then some .denied
  else if node = 5 ∧ !(Src.inAgate src) ∧ src ≠ .scarab then some .denied
  else if node = 4 ∧ (region 4 off = some .dram ∨ region 4 off = some .flash) ∧ !(Src.inAgate src) then some .denied
  else if node < 4 then
    if !s.admitted node then some .nodeLost
    else if s.mapped a then none else some .badDescriptor
  else if node = 4 ∨ node = 5 then (if s.mapped a then none else some .badDescriptor)
  else if node = 0xF then
    (if regWrite ∧ 0x2000000000 ≤ off ∧ off < 0x2010000000 then none else some .badDescriptor)
  else some .badDescriptor

/-- Has bring-up step `n` completed OK since the last package reset (R469)? -/
def State.stepDone (s : State) (n : Nat) : Bool := bit (s.get Reg.AGT_BU_STEPS.DONE 0) (n - 1)

/-- Store a word into a register: RW fields take it, W1C fields are cleared where it holds 1, and the head of a receive ring, which
reads 0, is kept (R6, R387). -/
def State.putReg (s : State) (node off val : Nat) : State :=
  (fieldsAt node off).foldl (fun st e =>
    let v := bits val e.1.lo e.1.width
    match e.1.acc with
    | .rw => st.setO e.1 node e.2 v
    | .w1c => if v = 1 then st.setO e.1 node e.2 0 else st
    | .wo => if e.1 = Reg.AGT_NET_RXDB.HEAD then st.setO e.1 node e.2 v else st
    | _ => st) s

/-- Does a request cross link 8 where it carries nothing: the link is DOWN (R20, R265)? -/
def State.scarabCut (s : State) (src : Src) (node : Nat) : Bool :=
  ((src == .scarab) != (node == 5)) && s.get Reg.AGT_FAB_LINK.STATE 8 == 0

/-- May a write by `src` that R15 to R20 admit arrive at byte `off` of register block `blk` of a node (R374, R419, R468, R469, R476)? A write
that does not arrive is ignored. A DOWN link carries nothing (R265). The sideband answers with VDD_IO18 present (R501), and AGT_BU is reached over it only; PF0 does not reach AGT_UNC, AGT_BU, AGT_BRL,
AGT_SEC and AGT_PWR; VF `v` reaches CTX_DB and CTX_CTRL of the contexts of its partition; PF1 reaches dictionary port 1
and mailbox port 1. Before step 8 the BARs ignore writes. -/
def State.arrives (s : State) (src : Src) (node blk off : Nat) : Bool :=
  !s.scarabCut src node &&
  match src with
  | .sideband => s.pkg.vddIo18 && node == 4 && !(blk == 7 && decide (0x2000 ≤ off))
  | .pf0 => s.domOn 33 && s.stepDone 8 && node == 4 && !([0, 1, 5, 7, 12].contains blk)
  | .pf1 => s.domOn 33 && s.stepDone 8 && node == 4 &&
      ((blk == 0 && decide (0x1020 ≤ off) && decide (off < 0x1040)) ||
       (blk == 7 && decide (0x2000 ≤ off) && decide (off < 0x4000)))
  | .vf v =>
      let c := (off - 0x10000) / 128
      s.domOn 33 && s.stepDone 8 && node == 4 && blk == 2 && decide (0x10000 ≤ off) && decide (off < 0x20000) &&
      s.host.vfEnabled.contains v && s.obj 0xFF 0x2C00 (v + 1) == s.get Reg.AGT_SCHED_CTX_CFG.PART c &&
      (off % 128 == 0x38 || off % 128 == 0x40)
  | .owner => false
  | _ => !(node == 4 && (blk == 1 || blk == 7))

/-- Does a write by `src` to byte `off` of register block `blk` of a node take effect: it is not refused (R15 to R20, R26, R513), and
it arrives (R374, R419, R468, R469, R476)? -/
def State.reaches (s : State) (src : Src) (node blk off : Nat) : Bool :=
  (s.requestRefused src (regSpace node (0x100000 * blk + off)) true).isNone && s.arrives src node blk off

/-- An access that does not arrive: one that an enabled virtual function makes is counted in object 0x2C00, subindex 0x41
(R374). -/
def State.turned (s : State) (src : Src) : State :=
  match src with
  | .vf v => if s.host.vfEnabled.contains v then s.setObj 0 0x2C00 0x41 (satAdd 32 (s.obj 0 0x2C00 0x41) 1) else s
  | _ => s

/-- Is a write of this requester posted, so that no completion comes back? -/
def Src.posted (src : Src) : Bool :=
  match src with
  | .pf0 | .pf1 | .vf _ | .sideband => true
  | _ => false

/-- The status with which a write completes, where its requester sees one. -/
def State.completeWrite (s : State) (src : Src) (st : Status) : State := if Src.posted src then s else s.emit (.value st.code)

/-- Count a refusal for a security reason (R436, object 0x4010). Log entry 100 (DEDUCED). -/
def State.countRefusal (s : State) : State :=
  { s with sec := { s.sec with refusals := satAdd 32 s.sec.refusals 1 } }

/-- A request that R15 to R20, R26 or R513 refuses: it changes nothing and completes with its status; DENIED is counted (R436), and so
is what a virtual function tries (R374). -/
def State.refuseRequest (s : State) (src : Src) (st : Status) : State :=
  (if st = .denied then s.countRefusal else s.turned src).completeWrite src st

/-- A write by `src` to byte `off` of register block `blk` of a node that takes no effect: it is refused with a status, or does not
arrive. The status of a write that does take effect is given out by REGISTER_WRITE alone (DESIGN CHOICE, log entry 132). -/
def State.turnAway (s : State) (src : Src) (node blk off : Nat) : State :=
  match s.requestRefused src (regSpace node (0x100000 * blk + off)) true with
  | some st => s.refuseRequest src st
  | none => s.turned src

end Sys2Proof.Machine
end

