-- ==== Sys2Proof/Machine/Sched.lean ====
section
/-! DEFINITION. Chapter 12: contexts, queues, records, events, ranks, T0 regions and remapping. The operations that the
commands of `Commands.lean` share. -/

namespace Sys2Proof.Machine

open Reg

/-! ## Records to rings in T2 or host memory -/

/-- Is the data function reachable: PCIe is powered (R373)? -/
def State.hostUp (s : State) : Bool := s.domOn 33

/-- Is T2 of a node reachable: the die admitted and its memory controller on? -/
def State.t2Up (s : State) (n : Nat) : Bool := s.admitted n && s.domOn (8 * n + 1)

/-- Can a record reach its place: host memory (`loc` = 1) with the data function up, or T2 of a die that answers (R293, R376)? -/
def State.dmaReaches (s : State) (loc a : Nat) : Bool := if loc = 1 then s.hostUp else isT2 a && s.t2Up (nodeOf a)

/-- The package writes a record to host memory (`loc` = 1) or to a global T2 address; a record bound for a place that
cannot be reached is discarded. Log entry 125 (DEDUCED). -/
def State.dma (s : State) (part loc a : Nat) (b : List Byte) : State :=
  if !s.dmaReaches loc a then s
  else if loc = 1 then s.hostWrite a b
  else s.writeRun part true a b

/-- Raise MSI-X vector `v` (R375): an enabled VF presents its own 32 vectors, PF0 the others. Log entry 68 (DESIGN CHOICE). -/
def State.msix (s : State) (v : Nat) : State :=
  if s.host.vfEnabled.contains (v / 32) then s.emit (.msix (2 + v / 32) (v % 32)) else s.emit (.msix 0 v)

/-- The function whose requester ID serves partition `p`: the enabled VF bound to it, else PF0 (R375). PF0 is 0, VF v is
2 + v. -/
def State.partFn (s : State) (p : Nat) : Nat :=
  match s.host.vfEnabled.find? (fun v => s.obj 0xFF 0x2C00 (v + 1) == p) with
  | some v => 2 + v
  | none => 0

/-! ## Event rings (R296 to R298). Ring 0 to 15 is a partition's, 16 the host's. -/

def evq (r : Nat) (host part : Fld) : Fld := if r = 16 then host else part
def evi (r : Nat) : Nat := if r = 16 then 0 else r

/-- The 32-byte event record of R296 without its PHASE. -/
def eventRecord (st : Status) (kind node part arg0 addr time arg1 : Nat) : Nat :=
  st.code + kind % 256 * 2 ^ 16 + node % 16 * 2 ^ 24 + part % 16 * 2 ^ 28 + arg0 % 2 ^ 32 * 2 ^ 32 +
  addr % 2 ^ 64 * 2 ^ 64 + time % 2 ^ 64 * 2 ^ 128 + arg1 % 2 ^ 32 * 2 ^ 192

/-- Send an event to a ring: written at TAIL with the ring's PHASE, or discarded and counted in LOST when the ring is full
or cannot be reached (R293, R296, R298). A ring whose EVQ register holds its reset values stands where they say (R315). -/
def State.event (s : State) (ring : Nat) (st : Status) (kind node part arg0 addr arg1 : Nat) : State :=
  let i := evi ring
  let loc := s.get (evq ring AGT_SCHED_HOSTEVQ.LOC AGT_SCHED_PART_EVQ.LOC) i
  let base := s.get (evq ring AGT_SCHED_HOSTEVQ.BASE AGT_SCHED_PART_EVQ.BASE) i * 4096
  let size := 2 ^ s.get (evq ring AGT_SCHED_HOSTEVQ.SIZE_LOG2 AGT_SCHED_PART_EVQ.SIZE_LOG2) i
  let fTail := evq ring AGT_SCHED_HOSTEVQSTAT.TAIL AGT_SCHED_PART_EVQSTAT.TAIL
  let tail := s.get fTail i
  let head := s.get (evq ring AGT_SCHED_HOSTEVQSTAT.HEAD AGT_SCHED_PART_EVQSTAT.HEAD) i
  if (tail + 1) % size = head || !s.dmaReaches loc base then
    s.count (evq ring AGT_SCHED_HOSTEVQSTAT.LOST AGT_SCHED_PART_EVQSTAT.LOST) i 1
  else
    let ph := tget true s.sched.evPhase ring
    let rec32 := eventRecord st kind node part arg0 addr s.time.now arg1 + b2n ph * 2 ^ 8
    let s1 := s.dma (if ring = 16 then 0 else ring) loc (base + 32 * tail) (leBytes 32 rec32)
    let next := (tail + 1) % size
    let s2 := s1.set fTail i next
    if next = 0 then { s2 with sched := { s2.sched with evPhase := tset s2.sched.evPhase ring (!ph) } } else s2

/-! ## The command envelope (R288) -/

def Cmd.lnode (c : Cmd) : Nat := bits c.env 0 2
def Cmd.core (c : Cmd) : Nat := bits c.env 4 3
def Cmd.engine (c : Cmd) : Nat := bits c.env 8 4
def Cmd.depAll (c : Cmd) : Bool := bit c.env 12
def Cmd.waitEn (c : Cmd) : Bool := bit c.env 13
def Cmd.stepEnd (c : Cmd) : Bool := bit c.env 14
def Cmd.irq (c : Cmd) : Bool := bit c.env 15
def Cmd.quiet (c : Cmd) : Bool := bit c.env 16
def Cmd.waitCtx (c : Cmd) : Nat := bits c.env 32 9
def Cmd.waitSeq (c : Cmd) : Nat := bits c.env 64 32
def Cmd.user (c : Cmd) : Nat := bits c.env 96 16
/-- The 48-byte descriptor body. -/
def Cmd.body (c : Cmd) : Nat := c.env / 2 ^ 128
def Cmd.key (c : Cmd) : Nat := c.ctx * 2 ^ 32 + c.seq

/-- A reserved bit or value set in the header (R290). -/
def headerReserved (env : Nat) : Bool :=
  bits env 2 2 != 0 || bit env 7 || bits env 17 15 != 0 || bits env 41 23 != 0 || bits env 112 16 != 0

/-- Does an engine of this code exist in this core (R13, R288)? -/
def engineExists (core engine : Nat) : Bool :=
  (core == 0 && engine ≤ 2) || (core == 1 && (engine == 3 || engine == 4)) || (core == 2 && engine == 5) ||
  (core == 3 && (engine == 6 || engine == 7 || engine == 8)) || (core == 4 && engine == 9)

/-- The engine code of an instance, instances numbered as the resume records of R304. Log entry 64 (DESIGN CHOICE). -/
def instEngine (inst : Nat) : Nat := if inst ≤ 6 then inst else if inst ≤ 10 then 7 else if inst = 11 then 8 else 9

/-- The core of an engine code (R13). -/
def engineCore (e : Nat) : Nat := if e ≤ 2 then 0 else if e ≤ 4 then 1 else if e = 5 then 2 else if e ≤ 8 then 3 else 4

/-! ## Contexts -/

def State.ctx (s : State) (c : Nat) : Ctx := tget {} s.sched.ctxs c
def State.setCtx (s : State) (c : Nat) (x : Ctx) : State := { s with sched := { s.sched with ctxs := tset s.sched.ctxs c x } }
def State.ctxState (s : State) (c : Nat) : Nat := s.get AGT_SCHED_CTX_STAT.STATE c
def State.ctxClass (s : State) (c : Nat) : Nat := s.get AGT_SCHED_CTX_CFG.CLASS c
def State.ctxPart (s : State) (c : Nat) : Nat := s.get AGT_SCHED_CTX_CFG.PART c
def State.cdone (s : State) (c : Nat) : Nat := s.get AGT_SCHED_CTX_STAT.CDONE c

/-- Physical node of a logical node of a context (R312), and whether the entry is VALID. -/
def mapPhys (i : Nat) : Fld := lget AGT_SCHED_CTX_MAP.PHYS_0 [AGT_SCHED_CTX_MAP.PHYS_0, AGT_SCHED_CTX_MAP.PHYS_1, AGT_SCHED_CTX_MAP.PHYS_2, AGT_SCHED_CTX_MAP.PHYS_3] i
def mapAlt (i : Nat) : Fld := lget AGT_SCHED_CTX_MAP.ALT_0 [AGT_SCHED_CTX_MAP.ALT_0, AGT_SCHED_CTX_MAP.ALT_1, AGT_SCHED_CTX_MAP.ALT_2, AGT_SCHED_CTX_MAP.ALT_3] i
def mapAltEn (i : Nat) : Fld := lget AGT_SCHED_CTX_MAP.ALT_EN_0 [AGT_SCHED_CTX_MAP.ALT_EN_0, AGT_SCHED_CTX_MAP.ALT_EN_1, AGT_SCHED_CTX_MAP.ALT_EN_2, AGT_SCHED_CTX_MAP.ALT_EN_3] i
def mapValid (i : Nat) : Fld := lget AGT_SCHED_CTX_MAP.VALID_0 [AGT_SCHED_CTX_MAP.VALID_0, AGT_SCHED_CTX_MAP.VALID_1, AGT_SCHED_CTX_MAP.VALID_2, AGT_SCHED_CTX_MAP.VALID_3] i
def t0Start (k : Nat) : Fld := lget AGT_SCHED_CTX_T0.START_0 [AGT_SCHED_CTX_T0.START_0, AGT_SCHED_CTX_T0.START_1, AGT_SCHED_CTX_T0.START_2, AGT_SCHED_CTX_T0.START_3] k
def t0SizeF (k : Nat) : Fld := lget AGT_SCHED_CTX_T0.SIZE_0 [AGT_SCHED_CTX_T0.SIZE_0, AGT_SCHED_CTX_T0.SIZE_1, AGT_SCHED_CTX_T0.SIZE_2, AGT_SCHED_CTX_T0.SIZE_3] k

def State.phys (s : State) (c i : Nat) : Nat := s.get (mapPhys i) c
def State.mapOk (s : State) (c i : Nat) : Bool := s.isSet (mapValid i) c

def State.cmd (s : State) (k : Nat) : Option Cmd := tfind s.sched.cmds k
def State.setCmd (s : State) (c : Cmd) : State := { s with sched := { s.sched with cmds := tset s.sched.cmds c.key c } }
/-- Accepted commands in the order of acceptance. -/
def State.cmdList (s : State) : List Cmd := s.sched.order.filterMap s.cmd
def State.ctxCmds (s : State) (c : Nat) : List Cmd := s.cmdList.filter (fun x => x.ctx == c)

/-- Serial-number comparison of R289: `a` at or past `b`. -/
def serialGe (a b : Nat) : Bool := decide ((a + 2 ^ 32 - b % 2 ^ 32) % 2 ^ 32 < 2 ^ 31)

/-- Is the wait of a command met (R289, R291)? One that was not met when WAIT_CTX entered ABORTING is never met. -/
def State.waitDone (s : State) (x : Cmd) : Bool :=
  !x.waitEn || x.waitMet ||
  ((s.ctx x.waitCtx).gen == x.waitGen && serialGe (s.cdone x.waitCtx) x.waitSeq && s.ctxState x.waitCtx != 0 &&
    s.ctxState x.waitCtx != 3)

/-- Latch the waits on context `c` that are now met (R291: a met wait stays met). -/
def State.latchWaits (s : State) (c : Nat) : State :=
  (s.cmdList.filter (fun x => x.waitEn && !x.waitMet && x.waitCtx == c && s.waitDone x)).foldl
    (fun st x => st.setCmd { x with waitMet := true }) s

/-- The 32-byte completion record of R295 without its PHASE. -/
def completionRecord (st : Status) (ctx part seq result user node engine time head : Nat) : Nat :=
  st.code + ctx % 512 * 2 ^ 16 + part % 16 * 2 ^ 28 + seq % 2 ^ 32 * 2 ^ 32 + result % 2 ^ 32 * 2 ^ 64 +
  user % 2 ^ 16 * 2 ^ 96 + node % 16 * 2 ^ 112 + engine % 16 * 2 ^ 116 + time % 2 ^ 64 * 2 ^ 128 + head % 2 ^ 15 * 2 ^ 192

/-- Write a completion record into the CQ entry reserved for it, or release the entry unused (R294, R295). A record bound
for a CQ that cannot be reached is discarded (R293). Log entry 126 (DEDUCED). -/
def State.record (s : State) (c seq : Nat) (st : Status) (result user node engine : Nat) (quiet irq : Bool) : State :=
  let x := s.ctx c
  if quiet && st == .ok then s.setCtx c { x with reserved := x.reserved - 1 } else
    let size := 2 ^ s.get AGT_SCHED_CTX_CFG.SQ_LOG2 c
    let r := completionRecord st c (s.ctxPart c) seq result user node engine s.time.now (s.get AGT_SCHED_CTX_STAT.SQ_HEAD c) +
      b2n x.phase * 2 ^ 8
    let a := s.get AGT_SCHED_CTX_CQ.BASE c + 32 * x.cqTail
    if !s.dmaReaches (s.get AGT_SCHED_CTX_CFG.CQ_LOC c) a then s.setCtx c { x with reserved := x.reserved - 1 } else
    let s1 := s.dma (s.ctxPart c) (s.get AGT_SCHED_CTX_CFG.CQ_LOC c) a (leBytes 32 r)
    let next := (x.cqTail + 1) % size
    let s2 := s1.setCtx c { x with reserved := x.reserved - 1, cqTail := next, phase := if next = 0 then !x.phase else x.phase }
    if irq then s2.msix (s.get AGT_SCHED_CTX_CFG.VECTOR c) else s2

/-- Advance CDONE over the completed SEQs that follow it (R289), with fuel for each. -/
def cdoneRun : Nat → Nat → List Nat → Nat × List Nat
  | 0, d, l => (d, l)
  | k + 1, d, l => if l.contains ((d + 1) % 2 ^ 32) then cdoneRun k ((d + 1) % 2 ^ 32) (sdel l ((d + 1) % 2 ^ 32)) else (d, l)

/-- Count a SEQ as completed (R289) and latch the waits that this meets. -/
def State.seqDone (s : State) (c seq : Nat) : State :=
  let x := s.ctx c
  let l := sinsert x.doneAbove seq
  let r := cdoneRun l.length (s.cdone c) l
  ((s.setCtx c { x with doneAbove := r.2 }).set AGT_SCHED_CTX_STAT.CDONE c r.1).latchWaits c

/-- Release every region that context `c` holds, unsaved, and discard the saved ones (R287). -/
def State.dropRegions (s : State) (c : Nat) : State :=
  { s with sched := { s.sched with
      held := s.sched.held.filter (fun k => k / 16 != c)
      saved := s.sched.saved.filter (fun k => k / 16 != c)
      switches := s.sched.switches.filter (fun e => e.2.ctx != c) } }

/-! ## Step boundary and remapping (R300, R313) -/

/-- Move the map entries of context `c` that name node `n` to their alternates, or halt the context, and send the events of
kind 0x06 (R313). -/
def State.remapNode (s : State) (c n : Nat) : State :=
  let hit := (List.range 4).filter (fun i => s.mapOk c i && s.phys c i == n)
  let can := fun i => s.isSet (mapAltEn i) c && s.admitted (s.get (mapAlt i) c)
  let heldSeqs := (s.ctxCmds c).filter (fun x => x.phase == .waiting && !x.inStep)
  let arg1 := match heldSeqs with
    | x :: _ => x.seq
    | [] => (s.ctx c).nextSeq
  let part := s.ctxPart c
  let s1 := hit.foldl (fun st i =>
    if can i then
      let alt := s.get (mapAlt i) c
      ((st.set (mapPhys i) c alt).set (mapAltEn i) c 0).event part .ok 0x06 n part (c + i * 2 ^ 16 + alt * 2 ^ 20) 0 arg1
    else st.event part .nodeLost 0x06 n part (c + i * 2 ^ 16 + 0xF * 2 ^ 20) 0 arg1) s
  if hit.all can then s1
  else if s1.ctxState c = 1 then s1.set AGT_SCHED_CTX_STAT.STATE c 2 else s1

/-- What a step boundary of context `c` brings: the remaps owed (R313); dispatch goes on where every entry moved, but in HALTED the
held commands stay held until RESUME (R287). A context that is DISABLED or ABORTING dispatches nothing more and is not remapped (R293).
`next` says that a command of the step that follows has started (R300). Log entry 128 (DEDUCED). -/
def State.boundary (s : State) (c : Nat) (next : Bool) : State :=
  let x := s.ctx c
  if !x.held then s.setCtx c { x with inStep := next } else
    let s1 := if s.ctxState c = 1 ∨ s.ctxState c = 2 then x.lostNodes.foldl (fun st n => st.remapNode c n) s else s
    s1.setCtx c { s1.ctx c with inStep := next, lostNodes := [], held := s1.ctxState c == 2 }

/-- Is context `c` at a step boundary (R300, R313)? For STEP and SAFETY, its first unreached STEP_END lies at or below CDONE;
for ORDINARY, nothing is outstanding, or, where commands are held, no command of the current step is left. -/
def State.atBoundary (s : State) (c : Nat) : Bool :=
  let x := s.ctx c
  if x.held && (s.ctxClass c == 0 || !x.inStep) then !((s.ctxCmds c).any (·.inStep))
  else if s.ctxClass c = 0 then s.get AGT_SCHED_CTX_STAT.OUTSTANDING c == 0
  else match x.ends with
    | e :: _ => serialGe (s.cdone c) e
    | [] => false

/-- Act on a boundary that has been reached, and forget the STEP_ENDs below CDONE. -/
def State.checkBoundary (s : State) (c : Nat) : State :=
  let x := s.ctx c
  let past := x.ends.filter (fun e => !serialGe (s.cdone c) e)
  if s.atBoundary c then
    let next := match x.started, (x.ends.filter (serialGe (s.cdone c))).getLast? with
      | some q, some e => !serialGe e q
      | _, _ => false
    let s1 := s.boundary c next
    s1.setCtx c { s1.ctx c with ends := past }
  else s.setCtx c { x with ends := past }

/-! ## Tables that commands hold unchanged while they use them (R140, R174) -/

/-- Is bias table `t` of a node in use by an accepted SCORE that has begun (R140)? The body is that of R133. -/
def State.biasInUse (s : State) (node t : Nat) : Bool :=
  s.cmdList.any (fun x => x.engine == 2 && (x.phase == .running || x.phase == .stopped) && x.node == node &&
    bits x.body 0 4 == 0 && bit x.body 28 && bits x.body 24 4 == t)

/-- Table that an offset of ONX_M belongs to, as configuration or entry (R140). -/
def biasOf (off : Nat) : Option Nat :=
  if 0x200 ≤ off ∧ off < 0x280 then some ((off - 0x200) / 8)
  else if 0x10000 ≤ off ∧ off < 0x30000 then some ((off - 0x10000) / 0x2000) else none

/-- Apply a write to a bias table or its configuration. -/
def State.applyBias (s : State) (node off val : Nat) : State :=
  if off < 0x10000 then
    let t := (off - 0x200) / 8
    ((s.setO ONX_M_BIASCFG.H_LOG2 node t (bits val 0 3)).setO ONX_M_BIASCFG.MODE node t (bits val 3 1)).setO
      ONX_M_BIASCFG.WX_LOG2 node t (bits val 4 4)
  else s.poke (regSpace node (0x100000 + off / 4 * 4)) (leBytes 4 val)

/-- Apply the held writes whose table is free (R140). -/
def State.releaseBias (s : State) : State :=
  let free := s.kv.heldBias.filter (fun h => match biasOf h.2.1 with
    | some t => !s.biasInUse h.1 t
    | none => true)
  let rest := s.kv.heldBias.filter (fun h => !free.contains h)
  free.foldl (fun st h => st.applyBias h.1 h.2.1 h.2.2) { s with kv := { s.kv with heldBias := rest } }

/-- Is writable table `t` in use by a gate command, a SCAN or a stream step in progress (R174)? The bodies are those of R162 and R175. -/
def State.gateInUse (s : State) (node t : Nat) : Bool :=
  s.cmdList.any (fun x => (x.phase == .running || x.phase == .stopped) && x.node == node &&
    ((x.engine == 3 && bits x.body 0 4 == 0 && bits x.body 24 4 == t + 8) || (x.engine == 4 && bits x.body 4 4 == t + 8))) ||
  (match tfind s.seq.stepping node with
   | some slot =>
     match tfind s.seq.streams (8 * node + slot) with
     | some w => bits w.body 24 4 == t + 8
     | none => false
   | none => false)

/-- Table that an offset of ONX_Q belongs to. -/
def gateOf (off : Nat) : Option Nat :=
  if 0x200 ≤ off ∧ off < 0x240 then some ((off - 0x200) / 8)
  else if 0x10000 ≤ off ∧ off < 0x14000 then some ((off - 0x10000) / 0x800) else none

/-- Apply a write to a gate table or its configuration. -/
def State.applyGate (s : State) (node off val : Nat) : State :=
  if off < 0x10000 then
    let t := (off - 0x200) / 8
    (((s.setO ONX_Q_GCFG.XMIN node t (bits val 0 32)).setO ONX_Q_GCFG.WIDTH_LOG2 node t (bits val 32 5)).setO
      ONX_Q_GCFG.OOR_LO node t (bits val 37 1)).setO ONX_Q_GCFG.OOR_HI node t (bits val 38 1)
  else s.poke (regSpace node (0x200000 + off / 8 * 8)) (leBytes 8 val)

/-- Apply the held writes whose table is free (R174). -/
def State.releaseGate (s : State) : State :=
  let free := s.seq.heldGate.filter (fun h => match gateOf h.2.1 with
    | some t => !s.gateInUse h.1 t
    | none => true)
  let rest := s.seq.heldGate.filter (fun h => !free.contains h)
  free.foldl (fun st h => st.applyGate h.1 h.2.1 h.2.2) { s with seq := { s.seq with heldGate := rest } }

/-! ## Completion -/

/-- Take a command out of the tables. -/
def State.removeCmd (s : State) (k : Nat) : State :=
  { s with sched := { s.sched with
      cmds := tdel s.sched.cmds k
      order := sdel s.sched.order k
      transfers := tdel s.sched.transfers k
      issue := sdel s.sched.issue k
      busy := s.sched.busy.filter (fun e => e.2 != k) } }

/-- Complete one accepted command: record, CDONE, OUTSTANDING, boundary, the end of ABORTING, and the table writes that it held
(R140, R174, R287, R289, R295). Waits that can no longer be met are settled by `settleWaits`. -/
def State.completeOne (s : State) (x : Cmd) (st : Status) (result node : Nat) : State :=
  let s1 := s.record x.ctx x.seq st result x.user node x.engine x.quiet x.irq
  let s2 := (s1.removeCmd x.key).set AGT_SCHED_CTX_STAT.OUTSTANDING x.ctx (s1.get AGT_SCHED_CTX_STAT.OUTSTANDING x.ctx - 1)
  let s3 := (s2.seqDone x.ctx x.seq).checkBoundary x.ctx
  (if s3.ctxState x.ctx = 3 && (s3.ctxCmds x.ctx).isEmpty then s3.set AGT_SCHED_CTX_STAT.STATE x.ctx 0 else s3).releaseBias.releaseGate

/-- Is the wait of a command one that is never met (R291)? -/
def State.waitDead (s : State) (x : Cmd) : Bool :=
  x.waitEn && !x.waitMet && x.phase == .waiting &&
  ((s.ctx x.waitCtx).gen != x.waitGen || s.ctxState x.waitCtx == 0 || s.ctxState x.waitCtx == 3) && !s.waitDone x

/-- Complete, one after another, the commands whose waits are never met (R291). -/
def State.settleWaits : Nat → State → State
  | 0, s => s
  | k + 1, s =>
    match s.cmdList.find? s.waitDead with
    | some x => State.settleWaits k (s.completeOne x .badDescriptor 0 0xF)
    | none => s

/-- Complete a command and settle what follows. -/
def State.complete (s : State) (x : Cmd) (st : Status) (result node : Nat) : State :=
  (s.completeOne x st result node).settleWaits (s.sched.order.length + 1)

/-- Complete a command of an aborted context with PREEMPTED; one that had stopped is completed by its unit, and the attention unit counts
those that it completes (R147). -/
def State.preemptOne (s : State) (x : Cmd) : State :=
  if x.phase == .waiting then s.completeOne x .preempted 0 0xF
  else
    let s1 := s.completeOne x .preempted x.result x.node
    if x.engine = 2 then s1.setO ONX_M_KVCMD.COUNT x.node 0 (s1.getO ONX_M_KVCMD.COUNT x.node 0 + 1) else s1

/-- In ABORTING, once no command of the context runs, every accepted command that has not completed completes with PREEMPTED
(R287); the result field of one that had stopped is that of its engine for what it used (R95, R153, R232). -/
def State.abortSweep (s : State) (c : Nat) : State :=
  if s.ctxState c != 3 then s
  else if (s.ctxCmds c).any (fun x => x.phase == .running || x.phase == .finished) then s
  else
    let s1 := (s.ctxCmds c).foldl State.preemptOne s
    (if s1.ctxState c = 3 then s1.set AGT_SCHED_CTX_STAT.STATE c 0 else s1).settleWaits (s.sched.order.length + 1)

/-! ## Rank and readiness (R299 to R303) -/

/-- Class and priority as one number, higher ranks larger (R299, items 1 and 2). -/
def State.rankOf (s : State) (c : Nat) : Nat := s.ctxClass c * 8 + s.get AGT_SCHED_CTX_CFG.PRIO c

/-- Round robin: distance of context `c` after the context last granted (R299, item 3). -/
def rrDistance (last : Option Nat) (c : Nat) : Nat :=
  match last with
  | some l => (c + 512 - l - 1) % 512
  | none => c

/-- The node a command goes to: the node it stopped on, else that of its LNODE in the map (R312). -/
def State.cmdNode (s : State) (x : Cmd) : Nat := if x.phase == .waiting then s.phys x.ctx x.lnode else x.node

/-- Is it the next command of its context for its engine instance, in SEQ order (R289)? -/
def State.nextInOrder (s : State) (x : Cmd) : Bool :=
  !((s.ctxCmds x.ctx).any (fun y => y.engine == x.engine && y.seq != x.seq && serialGe x.seq y.seq &&
    (y.phase == .waiting || y.phase == .stopped) && s.cmdNode y == s.cmdNode x))

/-- The cores whose T0 a tile-mover body reads or writes on a node: those whose window a tile of its source or destination lies in, a
broadcast's destination on every node (R273, R303). -/
def moverCores (node body : Nat) : List Nat :=
  let size := 4096 * 4 ^ bits body 4 2
  let stride (v : Nat) : Nat := if v = 0 then size else v
  let tiles := List.range (bits body 8 12 + 1)
  let lies (t3 : Bool) (a step k : Nat) : Bool :=
    !t3 && tiles.any (fun i => nodeOf (a + step * i) == node && region node (localOf (a + step * i)) == some (.t0 k))
  let dst := bits body 128 52
  let dst' := if bits body 0 4 = 0 && nodeOf dst == 0xF then glob node (localOf dst) else dst
  (List.range 4).filter (fun k =>
    (bits body 0 4 == 0 && lies (bit body 6) (bits body 64 52) (stride (bits body 192 32)) k) ||
    (decide (bits body 0 4 ≤ 1) && lies (bit body 7) dst' (stride (bits body 224 32)) k))

/-- The cores of its node whose T0 a command works in (R303). -/
def State.coresNamed (s : State) (x : Cmd) : List Nat :=
  if x.core < 4 then [x.core] else moverCores (s.cmdNode x) x.body

def heldKey (c node core : Nat) : Nat := c * 16 + 4 * node + core

/-- Do the declared regions of two contexts on a core overlap (R303)? -/
def State.regionsOverlap (s : State) (c d core : Nat) : Bool :=
  let a := s.get (t0Start core) c
  let b := s.get (t0Start core) d
  decide (a < b + s.get (t0SizeF core) d) && decide (b < a + s.get (t0SizeF core) c) &&
  s.get (t0SizeF core) c != 0 && s.get (t0SizeF core) d != 0

/-- The other contexts that hold a region on a core overlapping that of `c` (R303). -/
def State.blockers (s : State) (c node core : Nat) : List Nat :=
  (s.sched.held.filter (fun k => k % 16 == 4 * node + core && k / 16 != c && s.regionsOverlap c (k / 16) core)).map (· / 16)

/-- Does a context need a switch before it may run on a core of a node (R303)? -/
def State.needsSwitch (s : State) (c node core : Nat) : Bool :=
  !s.sched.held.contains (heldKey c node core) &&
  ((s.get (t0SizeF core) c != 0 && !(s.blockers c node core).isEmpty) || s.sched.saved.contains (heldKey c node core))

/-- Ready but for a switch (R299). -/
def State.readyButSwitch (s : State) (x : Cmd) : Bool :=
  let st := s.ctxState x.ctx
  (x.phase == .waiting || x.phase == .stopped) && (st == 1 || st == 2) &&
  (!(s.ctx x.ctx).held || x.inStep) && s.waitDone x &&
  (!x.depAll || (s.cdone x.ctx + 1) % 2 ^ 32 == x.seq) && s.nextInOrder x

/-- Does a switch that is in progress on a core of a node hold up a context: it is that context's own, or one of a region that overlaps the
context's (R299, R303)? -/
def State.switchHolds (s : State) (c node core : Nat) : Bool :=
  match tfind s.sched.switches (4 * node + core) with
  | some w => w.ctx == c || (w.ctx :: w.out).any (fun d => s.regionsOverlap c d core)
  | none => false

/-- Ready (R299). -/
def State.ready (s : State) (x : Cmd) : Bool :=
  s.readyButSwitch x && (s.coresNamed x).all (fun k => !s.needsSwitch x.ctx (s.cmdNode x) k && !s.switchHolds x.ctx (s.cmdNode x) k)

/-- The better of two candidates under R299, for the G core too (R202, DEDUCED, log entry 157). -/
def State.better (s : State) (last : Option Nat) (a b : Cmd) : Cmd :=
  if s.rankOf a.ctx < s.rankOf b.ctx then b
  else if s.rankOf b.ctx < s.rankOf a.ctx then a
  else if rrDistance last b.ctx < rrDistance last a.ctx then b else a

/-- The command that an engine instance of a node picks among those satisfying `ok` (R299). -/
def State.pick (s : State) (node inst : Nat) (ok : Cmd → Bool) : Option Cmd :=
  let last := tfind s.sched.lastGrant (16 * node + inst)
  (s.cmdList.filter (fun x => x.engine == instEngine inst && s.cmdNode x == node && ok x &&
    (x.phase == .waiting || x.inst == inst))).foldl
    (fun best x => match best with
      | none => some x
      | some b => some (s.better last b x)) none

/-- The command that an engine instance executes. -/
def State.running (s : State) (node inst : Nat) : Option Cmd := (tfind s.sched.busy (16 * node + inst)).bind s.cmd

/-- Mark a command finished with a status and result; its record is written by COMMAND_COMPLETE (R295). -/
def State.finish (s : State) (x : Cmd) (st : Status) (result : Nat) : State :=
  s.setCmd { x with phase := .finished, status := st, result := result }

end Sys2Proof.Machine
end

