-- ==== Sys2Proof/Machine/Guard.lean ====
section
/-! DEFINITION. Chapter 18: protected areas and the check that refuses access to them (R424, R426, R431). -/

namespace Sys2Proof.Machine

open Reg

/-- A run of bytes: in host memory or at a global address. -/
structure Run where
  t3 : Bool := false
  addr : Nat
  len : Nat
  deriving DecidableEq, Repr

/-- Do two intervals, each a start and a length, share a byte? -/
def overlaps (a b : Nat × Nat) : Bool := decide (a.1 < b.1 + b.2) && decide (b.1 < a.1 + a.2)

/-- What is left of an interval when another is taken from it. -/
def cutInterval (a b : Nat × Nat) : List (Nat × Nat) :=
  if !overlaps a b then [a] else
    (if a.1 < b.1 then [(a.1, b.1 - a.1)] else []) ++
    (if b.1 + b.2 < a.1 + a.2 then [(b.1 + b.2, a.1 + a.2 - (b.1 + b.2))] else [])

/-- Does a list of intervals cover one? -/
def covers (l : List (Nat × Nat)) (a : Nat × Nat) : Bool :=
  (l.foldl (fun rest b => rest.flatMap (fun x => cutInterval x b)) [a]).isEmpty

/-- The unit of the ranges of R424. -/
def rangeUnit : Nat := 0x10000000

/-- The T0 regions that the contexts of partition `p` declare on node `n`, as local intervals (R303, R426). -/
def State.t0Areas (s : State) (p n : Nat) : List (Nat × Nat) :=
  ((List.range 512).filter (fun c => s.ctxPart c == p && (List.range 4).any (fun i => s.mapOk c i && s.phys c i == n))).flatMap
    (fun c => ((List.range 4).filter (fun k => s.get (t0SizeF k) c != 0)).map
      (fun k => (t0Base k + s.get (t0Start k) c * 0x100000, s.get (t0SizeF k) c * 0x100000)))

/-- The range and the owned ways of a protected partition on node `n`, as local intervals (R424). -/
def Prot.areas (x : Prot) (n : Nat) : List (Nat × Nat) :=
  (if lget 0 x.size n = 0 then [] else [(lget 0 x.base n * rangeUnit, lget 0 x.size n * rangeUnit)]) ++
  (maskList 16 (lget 0 x.ways n)).map (fun w => (0x1000000000 + w * 0x400000, 0x400000))

def State.prot (s : State) (p : Nat) : Prot := tget {} s.sec.prots p
def State.setProt (s : State) (p : Nat) (x : Prot) : State := { s with sec := { s.sec with prots := tput {} s.sec.prots p x } }

/-- The protected areas of partition `p` on node `n` (R426). -/
def State.protAreas (s : State) (p n : Nat) : List (Nat × Nat) := (s.prot p).areas n ++ s.t0Areas p n

/-- Is partition `p` PROTECTED or CLEARING? -/
def State.guardedPart (s : State) (p : Nat) : Bool := (s.prot p).isProt || (s.prot p).clearing

/-- Does a run at a global address touch an area refused to partition `part` (`none`: a requester of no partition): an area
of another partition, an area that is being cleared, or one whose clear is deferred (R426, R431)? -/
def State.areaRefused (s : State) (part : Option Nat) (a len : Nat) : Bool :=
  let n := nodeOf a
  let iv := (localOf a, len)
  s.sec.prots.any (fun e =>
    (e.2.isProt || e.2.clearing) && (e.2.clearing || part != some e.1) && (s.protAreas e.1 n).any (overlaps iv)) ||
  s.sec.deferrals.any (fun d => d.die == n && d.areas.any (overlaps iv))

/-- Does a run touch the protected areas of partition `p`? -/
def State.inProt (s : State) (p a len : Nat) : Bool := (s.protAreas p (nodeOf a)).any (overlaps (localOf a, len))

/-- Does a run lie wholly in the protected areas of partition `p`? -/
def State.coveredProt (s : State) (p a len : Nat) : Bool := covers (s.protAreas p (nodeOf a)) (localOf a, len)

/-- Is a command of partition `part` refused with DENIED for what it reads and writes (R426)? -/
def State.denied (s : State) (part : Nat) (transfer : Bool) (reads writes : List Run) : Bool :=
  (!s.sec.prots.isEmpty || !s.sec.deferrals.isEmpty) &&
  ((reads ++ writes).any (fun r => !r.t3 && s.areaRefused (some part) r.addr r.len) ||
   (transfer && s.guardedPart part && reads.any (fun r => !r.t3 && s.inProt part r.addr r.len) &&
    writes.any (fun r => r.t3 || !s.coveredProt part r.addr r.len)))

/-- A write that is refused for a security reason: it changes nothing and completes with DENIED (R436). -/
def State.denyWrite (s : State) (src : Src) : State := s.countRefusal.completeWrite src .denied

/-- May the requester write an object that MAINT and HOST alone may write (R354, R357)? -/
def Src.maintHost (src : Src) : Bool :=
  match src with
  | .sideband | .pf0 | .pf1 | .mgmt => true
  | _ => false

/-- Does a write of a register field that is such an object take effect: it reaches the register, and for a role that may write it (R102,
R316)? -/
def State.objWrites (s : State) (src : Src) (node blk off : Nat) : Bool := s.reaches src node blk off && Src.maintHost src

/-- Such a write that takes no effect: it does not reach the register, or it is refused with DENIED (log entry 57). -/
def State.objTurned (s : State) (src : Src) (node blk off : Nat) : State :=
  if s.reaches src node blk off then s.denyWrite src else s.turnAway src node blk off

/-- Does an interval of another partition's declared T0 region overlap one of context `c` (R426)? -/
def State.t0Clash (s : State) (p c : Nat) : Bool :=
  (List.range 4).any (fun i => s.mapOk c i && (List.range 4).any (fun k => s.get (t0SizeF k) c != 0 &&
    (s.t0Areas p (s.phys c i)).any (overlaps (t0Base k + s.get (t0Start k) c * 0x100000, s.get (t0SizeF k) c * 0x100000))))

/-- Does the save area or the restage list of context `c` lie outside the ranges of its partition on a mapped node (R304,
R426)? -/
def State.saveOutside (s : State) (c : Nat) : Bool :=
  let x := s.prot (s.ctxPart c)
  let save := (s.get AGT_SCHED_CTX_SAVE.BASE c * 4096, 41996288)
  let re := (s.get AGT_SCHED_CTX_RESTAGE.BASE c * 4096, s.get AGT_SCHED_CTX_RESTAGE.COUNT c * 64)
  (List.range 4).any (fun i => s.mapOk c i &&
    (let n := s.phys c i
     let range := (lget 0 x.base n * rangeUnit, lget 0 x.size n * rangeUnit)
     !covers [range] save || (re.2 != 0 && !covers [range] re)))

/-- Is an ENABLE of context `c` refused for its partition or for another partition's protection (R426, R431)? -/
def State.enableForbidden (s : State) (c : Nat) : Bool :=
  let p := s.ctxPart c
  (s.prot p).clearing || ((s.prot p).isProt && s.saveOutside c) ||
  s.sec.prots.any (fun e => e.2.isProt && e.1 != p && s.t0Clash e.1 c)

end Sys2Proof.Machine
end

