-- ==== Sys2Proof/Machine/Commands.lean ====
section
/-! DEFINITION. The commands of chapter 12: fetching, dispatching and completing commands, doorbells, context control and
the registers of the scheduler (R286 to R316, R514). -/

namespace Sys2Proof.Machine

open Reg Host

/-- Set CFG_ERR in AGT_SCHED_STATUS. -/
def State.schedErr (s : State) : State := s.set AGT_SCHED_STATUS.CFG_ERR 0 1

/-! ## COMMAND_FETCH and SQ_FETCH_FAIL (R289 to R294, R514) -/

def State.sqHead (s : State) (c : Nat) : Nat := s.get AGT_SCHED_CTX_STAT.SQ_HEAD c
def State.ringSize (s : State) (c : Nat) : Nat := 2 ^ s.get AGT_SCHED_CTX_CFG.SQ_LOG2 c

/-- May the front end fetch for context `c`: ACTIVE, a command published, and a CQ entry free (R294)? -/
def State.canFetch (s : State) (c : Nat) : Bool :=
  let x := s.ctx c
  let size := s.ringSize c
  s.ctxState c == 1 && s.sqHead c != x.sqTail &&
  decide ((x.cqTail + size - x.cqHead) % size + x.reserved < size - 1)

/-- Address of the SQ entry at SQ_HEAD. -/
def State.sqEntry (s : State) (c : Nat) : Nat := s.get AGT_SCHED_CTX_SQ.BASE c + 64 * s.sqHead c

/-- Take the next SEQ, advance SQ_HEAD, reserve the CQ entry, and note a STEP_END (R289, R294, R300). -/
def State.takeSeq (s : State) (c : Nat) (stepEnd : Bool) : Nat × State :=
  let x := s.ctx c
  (x.nextSeq, (s.setCtx c { x with
      nextSeq := (x.nextSeq + 1) % 2 ^ 32
      reserved := x.reserved + 1
      ends := if stepEnd then x.ends ++ [x.nextSeq] else x.ends }).set
    AGT_SCHED_CTX_STAT.SQ_HEAD c ((s.sqHead c + 1) % s.ringSize c))

/-- Complete a fetched command that was not accepted: its record, CDONE and the boundary (R289, R300). -/
def State.refuseFetched (s : State) (c seq : Nat) (st : Status) (user engine : Nat) (irq : Bool) : State :=
  (((s.record c seq st 0 user 0xF engine false irq).seqDone c seq).checkBoundary c).settleWaits (s.sched.order.length + 1)

/-- A failed fetch (R514). -/
def State.fetchFail (s : State) (c : Nat) (st : Status) : State :=
  let p := s.takeSeq c true
  p.2.refuseFetched c p.1 st 0 0 false

/-- The header checks of R290 made at fetch. -/
def State.headerBad (s : State) (c env : Nat) : Bool :=
  let x : Cmd := { ctx := c, seq := 0, env := env }
  headerReserved env || !engineExists x.core x.engine || !s.mapOk c x.lnode ||
  (x.waitEn && (s.ctxPart x.waitCtx != s.ctxPart c || s.ctxState x.waitCtx == 0))

/-- Act on a fetched envelope: refuse it with QUEUE_FULL or BAD_DESCRIPTOR, or accept it (R289 to R294). -/
def State.accept (s : State) (c env : Nat) : State :=
  let x : Cmd := { ctx := c, seq := 0, env := env }
  let p := s.takeSeq c x.stepEnd
  let s1 := p.2
  let out := s.get AGT_SCHED_CTX_STAT.OUTSTANDING c
  if s.get AGT_SCHED_CTX_CFG.DEPTH_M1 c + 1 ≤ out then s1.refuseFetched c p.1 .queueFull x.user x.engine x.irq
  else if s.headerBad c env then s1.refuseFetched c p.1 .badDescriptor x.user x.engine x.irq
  else
    let k := s.ctx c
    let y : Cmd := { x with
      seq := p.1
      waitGen := if x.waitEn then (s.ctx x.waitCtx).gen else 0
      inStep := k.held && s.ctxClass c != 0 && k.inStep && k.ends.isEmpty }
    let s2 := (s1.set AGT_SCHED_CTX_STAT.OUTSTANDING c (out + 1)).setCmd
      { y with waitMet := y.waitEn && serialGe (s1.cdone y.waitCtx) y.waitSeq }
    { s2 with sched := { s2.sched with order := s2.sched.order ++ [y.key] } }.settleWaits (s2.sched.order.length + 2)

/-- COMMAND_FETCH (R294): the entry is read from the SQ; an uncorrectable error or poison in it is a failed fetch (R514). -/
def execCommandFetch (c : Nat) (errs : ReadErrs) (s : State) : Outcome State Fault Refusal := s.onClock <|
  if !s.canFetch c then .next s
  else if s.get AGT_SCHED_CTX_CFG.SQ_LOC c = 1 then
    .next (s.accept c (leVal (s.hostRead (s.sqEntry c) 64)))
  else
    let a := s.sqEntry c
    let r := s.readSectors (s.ctxPart c) true errs [sectorOf a]
    .next (if r.lost || r.poison then r.st.fetchFail c .tileUncorrectable else r.st.accept c (r.st.word a 64))

/-- SQ_FETCH_FAIL (R514): no answer within the T3 timeout, or an error answer. -/
def execSqFetchFail (c : Nat) (timeout : Bool) (s : State) : Outcome State Fault Refusal := s.onClock <|
  .next (if s.canFetch c then s.fetchFail c (if timeout then .lowerTierTimeout else .tileUncorrectable) else s)

/-! ## COMMAND_DISPATCH and COMMAND_COMPLETE (R16, R295, R299, R312) -/

def State.geoMap (s : State) (node m : Nat) : GeoMap := tget {} s.geo (4 * node + m)
def State.setGeo (s : State) (node m : Nat) (g : GeoMap) : State := { s with geo := tput {} s.geo (4 * node + m) g }

/-- The epoch that the engine fixes when it starts a query or sampler command (R211); none where the one that it names is
neither published nor retained. -/
def State.startEpoch (s : State) (node : Nat) (x : Cmd) : Option Nat :=
  let m := bits x.body 4 2
  let now := s.getO ONX_G_MAPSTAT.EPOCH node m
  let e := bits x.body 32 32
  if !bit x.body 8 then some now
  else if e = now ∨ ((s.geoMap node m).retained ∧ (e + 1) % 2 ^ 32 = now) then some e else none

/-- The M core of a die is idle no longer (R453 item 3). -/
def Power.awake (p : Power) (n : Nat) : Power := { p with dies := tput {} p.dies n { tget ({} : DiePower) p.dies n with idle := false } }

/-- Has a reset stopped dispatch to a unit (R479): the core of an engine instance, or the die? -/
def State.unitHeld (s : State) (node inst : Nat) : Bool :=
  match s.bu.reset with
  | some j => (j.level == 1 && j.node == node) || (j.level == 0 && j.node == node && j.core == engineCore (instEngine inst) && inst != 12)
  | none => false

/-- Does a reset stop a tile-mover command from starting: it names the T0 of a core under reset (R479)? -/
def State.tilesHeld (s : State) (x : Cmd) : Bool :=
  match s.bu.reset with
  | some j => j.level == 0 && s.cmdNode x == j.node && (s.coresNamed x).contains j.core
  | none => false

/-- Start or resume the command picked on an engine instance: it holds its regions (R303), its step is in progress (R300). -/
def State.grant (s : State) (node inst : Nat) (x : Cmd) : State :=
  let cores := (s.coresNamed x).filter (fun k => s.get (t0SizeF k) x.ctx != 0)
  let query := x.phase == .waiting && (x.engine == 7 || x.engine == 8)
  let s1 := s.setCmd { x with
    phase := .running, node := node, inst := inst, anchor := if query then s.startEpoch node x else x.anchor }
  let s2 : State := { s1 with pwr := (if inst = 0 || inst = 2 then s1.pwr.awake node else s1.pwr), sched := { s1.sched with
    busy := if inst = 12 then s1.sched.busy else tset s1.sched.busy (16 * node + inst) x.key
    issue := if inst = 12 then s1.sched.issue ++ [x.key] else s1.sched.issue
    lastGrant := tset s1.sched.lastGrant (16 * node + inst) x.ctx
    held := cores.foldl (fun l k => sinsert l (heldKey x.ctx node k)) s1.sched.held } }
  if s.ctxClass x.ctx = 0 then s2 else
    let k := s2.ctx x.ctx
    s2.setCtx x.ctx { k with inStep := true, started := some (match k.started with
      | some q => if serialGe q x.seq then q else x.seq
      | none => x.seq) }

/-- Is the core of an engine instance powered (R22)? -/
def State.instOn (s : State) (node inst : Nat) : Bool :=
  s.domOn (if inst = 12 then 8 * node else 8 * node + 4 + engineCore (instEngine inst))

/-- Is an instance the one that takes a new command of its engine: of the query pipes, the first that is free (R202)? -/
def State.firstPipe (s : State) (node inst : Nat) : Bool :=
  (List.range 4).all (fun k => !(decide (7 + k < inst) && decide (inst ≤ 10)) || thas s.sched.busy (16 * node + 7 + k))

/-- COMMAND_DISPATCH (R299): a free engine instance picks the highest-ranked ready command and starts or resumes it. A node
that is not admitted gives NODE_LOST (R16), an unpowered core BAD_DESCRIPTOR (R26). -/
def execCommandDispatch (node inst : Nat) (s : State) : Outcome State Fault Refusal := s.onClock <|
  if thas s.sched.busy (16 * node + inst) || s.unitHeld node inst then .next s else
    match s.pick node inst (fun x => s.ready x && !s.tilesHeld x && (x.phase != .waiting || s.firstPipe node inst)) with
    | none => .next s
    | some x =>
      if !s.admitted node then .next (s.finish { x with node := 0xF } .nodeLost 0)
      else if !s.instOn node inst then .next (s.finish { x with node := 0xF } .badDescriptor 0)
      else .next (s.grant node inst x)

/-- Does a status say that the command was not executed, so that NODE reads 0xF (R28, R295)? Log entry 63 (DEDUCED). -/
def Status.notExecuted : Status → Bool
  | .badDescriptor | .badLayout | .denied => true
  | _ => false

/-- The status that a finished command completes with: a query or sampler command whose epoch has been superseded since meets
STALE_EPOCH (R212). -/
def State.doneStatus (s : State) (x : Cmd) : Status :=
  match x.anchor with
  | some e => if (x.engine = 7 || x.engine = 8) && s.getO ONX_G_MAPSTAT.EPOCH x.node (bits x.body 4 2) != e
      then x.status.first .staleEpoch else x.status
  | none => x.status

/-- COMMAND_COMPLETE (R295): a finished command writes its record; CDONE, OUTSTANDING and the waits follow. One that was refused with
DENIED waits for DENIED_RESPONSE (R436). -/
def execCommandComplete (c seq : Nat) (s : State) : Outcome State Fault Refusal := s.onClock <|
  match s.cmd (c * 2 ^ 32 + seq) with
  | none => .next s
  | some x =>
    if x.phase != .finished || x.status == .denied then .next s
    else .next ((s.complete x (s.doneStatus x) x.result (if Status.notExecuted x.status then 0xF else x.node)).abortSweep c)

/-! ## CTX_DB and context control (R286, R287, R292, R312, R476) -/

/-- CTX_DB (R292): SQ_TAIL and CQ_HEAD are published, or the whole write is ignored with CFG_ERR. -/
def execCtxDb (src : Src) (c val : Nat) (s : State) : Outcome State Fault Refusal := s.onClock <|
  let sqv := bit val 32
  let cqv := bit val 33
  let tail := bits val 0 15
  let head := bits val 16 15
  let x := s.ctx c
  if 512 ≤ c then .next s
  else if !s.reaches src 4 2 (0x10040 + 128 * c) then .next (s.turnAway src 4 2 (0x10040 + 128 * c))
  else if (sqv && decide (s.ringSize c ≤ tail)) || (cqv && decide (s.ringSize c ≤ head)) then .next s.schedErr
  else .next (s.setCtx c { x with sqTail := if sqv then tail else x.sqTail, cqHead := if cqv then head else x.cqHead })

/-- Enabled STEP and SAFETY contexts (R286, R315). -/
def State.stepContexts (s : State) : Nat :=
  ((List.range 512).filter (fun c => s.ctxState c != 0 && s.ctxClass c != 0)).length

/-- Does a VALID map entry of context `c` name a fenced die (R312)? -/
def State.mapFenced (s : State) (c : Nat) : Bool := (List.range 4).any (fun i => s.mapOk c i && s.fenced (s.phys c i))

/-- Is the configuration of context `c` valid for ENABLE (R286, R287, R292, R312, R315, R426, R431, R476)? -/
def State.configValid (s : State) (c : Nat) : Bool :=
  s.stepDone 8 && s.ctxClass c != 3 && decide (4 ≤ s.get AGT_SCHED_CTX_CFG.SQ_LOG2 c) &&
  decide (s.get AGT_SCHED_CTX_CFG.DEPTH_M1 c + 1 < s.ringSize c) &&
  s.get AGT_SCHED_CTX_SQ.BASE c % 4096 == 0 && s.get AGT_SCHED_CTX_CQ.BASE c % 4096 == 0 &&
  (List.range 4).all (fun k => decide ((s.get (t0Start k) c + s.get (t0SizeF k) c) * 0x100000 ≤ t0Size k) ||
    s.get (t0SizeF k) c == 0) &&
  !s.mapFenced c && (s.ctxClass c == 0 || decide (s.stepContexts < 32)) && !s.enableForbidden c

/-- Does a CTX_CTRL write of `op` by `src` arrive (R374: a VF may only HALT and ABORT)? -/
def State.ctrlReaches (s : State) (src : Src) (c op : Nat) : Bool :=
  decide (c < 512) && s.reaches src 4 2 (0x10038 + 128 * c) &&
  (match src with
   | .vf _ => op == 2 || op == 4
   | _ => true)

/-- A CTX_CTRL write that does not arrive. -/
def State.ctrlTurned (s : State) (src : Src) (c : Nat) : State :=
  if c < 512 then s.turnAway src 4 2 (0x10038 + 128 * c) else s

/-- CTX_ENABLE (R287). -/
def execCtxEnable (src : Src) (c : Nat) (s : State) : Outcome State Fault Refusal := s.onClock <|
  if !s.ctrlReaches src c 1 then .next (s.ctrlTurned src c)
  else if s.ctxState c ≠ 0 || !s.configValid c then .next s.schedErr
  else
    let s1 := (s.dropRegions c).setCtx c { gen := (s.ctx c).gen + 1 }
    let s2 := ((s1.set AGT_SCHED_CTX_STAT.STATE c 1).set AGT_SCHED_CTX_STAT.SQ_HEAD c 0).set AGT_SCHED_CTX_STAT.CDONE c 0xFFFFFFFF
    .next (s2.settleWaits (s.sched.order.length + 1))

/-- The effect of HALT on an ACTIVE context (R287). -/
def State.haltCtx (s : State) (c : Nat) : State :=
  if s.ctxState c = 1 then
    s.set AGT_SCHED_CTX_STAT.STATE c 2
  else s

/-- CTX_HALT (R287). -/
def execCtxHalt (src : Src) (c : Nat) (s : State) : Outcome State Fault Refusal := s.onClock <|
  if !s.ctrlReaches src c 2 then .next (s.ctrlTurned src c)
  else if s.ctxState c = 1 then .next (s.haltCtx c) else .next s.schedErr

/-- CTX_RESUME (R287, R312, R313): held commands are dispatched under the map in force. -/
def execCtxResume (src : Src) (c : Nat) (s : State) : Outcome State Fault Refusal := s.onClock <|
  if !s.ctrlReaches src c 3 then .next (s.ctrlTurned src c)
  else if s.ctxState c ≠ 2 || s.mapFenced c then .next s.schedErr
  else
    let x := s.ctx c
    .next ((s.set AGT_SCHED_CTX_STAT.STATE c 1).setCtx c { x with held := !x.lostNodes.isEmpty })

/-- Close one stream slot: its pending steps are discarded (R167). -/
def State.closeSlot (s : State) (node slot : Nat) : State :=
  let s1 := (((s.setO ONX_Q_STREAM.OPEN node slot 0).setO ONX_Q_STREAM.PENDING node slot 0).setO ONX_Q_STATUS.OPEN node 0
    (setBit (s.getO ONX_Q_STATUS.OPEN node 0) slot false))
  { s1 with seq := { s1.seq with
      streams := tdel s1.seq.streams (8 * node + slot)
      queue := tset s1.seq.queue node ((tget [] s1.seq.queue node).filter (fun x => x.2 != slot))
      stepping := if tfind s1.seq.stepping node = some slot then tdel s1.seq.stepping node else s1.seq.stepping } }

/-- Close an open slot whose context ends, keyed as in the table of streams: with a step in progress it closes when that step is complete,
and its pending steps start no more (R167). -/
def State.closeStream (s : State) (k : Nat) (w : Stream) : State :=
  if tfind s.seq.stepping (k / 8) = some (k % 8) then
    { s with seq := { s.seq with streams := tset s.seq.streams k { w with closing := true } } }
  else s.closeSlot (k / 8) (k % 8)

/-- Close the open streams of a context (R167, R287). -/
def State.closeStreamsOf (s : State) (c : Nat) : State :=
  (s.seq.streams.filter (fun e => e.2.ctx == c)).foldl (fun st e => st.closeStream e.1 e.2) s

/-- A context enters ABORTING, or DISABLED at once where nothing is accepted (R287). -/
def State.abortCtx (s : State) (c : Nat) : State :=
  if s.ctxState c = 1 ∨ s.ctxState c = 2 then
    let s1 := ((s.set AGT_SCHED_CTX_STAT.STATE c 3).dropRegions c).closeStreamsOf c
    (s1.abortSweep c).settleWaits (s.sched.order.length + 1)
  else s

/-- CTX_ABORT (R287). -/
def execCtxAbort (src : Src) (c : Nat) (s : State) : Outcome State Fault Refusal := s.onClock <|
  if !s.ctrlReaches src c 4 then .next (s.ctrlTurned src c)
  else if s.ctxState c = 1 ∨ s.ctxState c = 2 then .next (s.abortCtx c) else .next s.schedErr

/-- CTX_DISABLE (R287). -/
def execCtxDisable (src : Src) (c : Nat) (s : State) : Outcome State Fault Refusal := s.onClock <|
  if !s.ctrlReaches src c 5 then .next (s.ctrlTurned src c)
  else if s.ctxState c = 2 ∧ s.get AGT_SCHED_CTX_STAT.OUTSTANDING c = 0 then
    .next ((((s.dropRegions c).closeStreamsOf c).set AGT_SCHED_CTX_STAT.STATE c 0).settleWaits (s.sched.order.length + 1))
  else .next s.schedErr

/-! ## Scheduler registers with a row of their own (R296, R307 to R310, R316) -/

/-- EVQ_WRITE (R296): ring 0 to 15 is a partition's, 16 the host's. The ring restarts whatever is written; a SIZE_LOG2 outside
4 to 15 sets CFG_ERR and is not stored (R315). -/
def execEvqWrite (src : Src) (ring val : Nat) (s : State) : Outcome State Fault Refusal := s.onClock <|
  let off := if ring = 16 then 0x10 else 0x108 + 32 * ring
  if 16 < ring then .next s
  else if !s.reaches src 4 2 off then .next (s.turnAway src 4 2 off) else
    let i := evi ring
    let s1 := ((s.set (evq ring AGT_SCHED_HOSTEVQSTAT.TAIL AGT_SCHED_PART_EVQSTAT.TAIL) i 0).set
      (evq ring AGT_SCHED_HOSTEVQSTAT.HEAD AGT_SCHED_PART_EVQSTAT.HEAD) i 0)
    let s2 : State := { s1 with sched := { s1.sched with evPhase := tset s1.sched.evPhase ring true } }
    if bits val 1 4 < 4 then .next s2.schedErr
    else .next (((s2.set (evq ring AGT_SCHED_HOSTEVQ.LOC AGT_SCHED_PART_EVQ.LOC) i (bits val 0 1)).set
      (evq ring AGT_SCHED_HOSTEVQ.SIZE_LOG2 AGT_SCHED_PART_EVQ.SIZE_LOG2) i (bits val 1 4)).set
      (evq ring AGT_SCHED_HOSTEVQ.BASE AGT_SCHED_PART_EVQ.BASE) i (bits val 12 52))

/-- Partitions that are SEGREGATED (R307). -/
def State.segregated (s : State) (p : Nat) : Bool := s.isSet AGT_SCHED_PART_CFG.MODE p

/-- RSV plus the RATEs of the REGULATED partitions, partition `p` counted as given (R310). -/
def State.rateSum (s : State) (p mode rate rsv : Nat) : Nat :=
  rsv + ((List.range 16).map (fun q =>
    if q = p then (if mode = 0 then rate else 0)
    else if s.segregated q then 0 else s.get AGT_SCHED_PART_CFG.RATE q)).sum

/-- Number of bits set among the low 16. -/
def popcount16 (m : Nat) : Nat := (maskList 16 m).length

/-- Is any T1 sector of any die dirty (R310)? -/
def State.anyDirty (s : State) : Bool := s.t1.any (fun e => e.2.dirty != 0)

/-- Does the T1 way mask of partition `p` overlap any other partition's on some die (R310)? -/
def State.waysOverlap (s : State) (p : Nat) : Bool :=
  (List.range 4).any (fun n => (List.range 16).any (fun q => q != p &&
    (s.getO ONX_T1_WAYMASK.ALLOC n p &&& s.getO ONX_T1_WAYMASK.ALLOC n q) != 0))

/-- The channel set that backs region `r` under given CHMASKs (R308): the mask of the SEGREGATED partition that owns it, or
the channels that none owns. -/
def channelSet (masks : List Nat) (r : Nat) : Nat :=
  match masks.find? (fun m => bit m r) with
  | some m => m
  | none => 0xFFFF - masks.foldl (fun a m => a ||| m) 0

/-- CHMASKs of the SEGREGATED partitions, partition `p` taken with the mode and mask given. -/
def State.chMasks (s : State) (p mode mask : Nat) : List Nat :=
  (List.range 16).filterMap (fun q =>
    if q = p then (if mode = 1 then some mask else none)
    else if s.segregated q then some (s.get AGT_SCHED_PART_CFG.CHMASK q) else none)

/-- Forget the contents of T2 region `r` of die `n` (R310): its T1 lines are invalidated, and every byte of it is a free
value from then on. -/
def State.scrambleRegion (s : State) (n r : Nat) : State :=
  let lo := glob n (r * 0x100000000)
  { s with
    t1 := s.t1.filter (fun e => !(e.1 / 16384 == n && e.2.tag / 1024 == r))
    mem := s.mem.filter (fun c => !(decide (lo ≤ c.1) && decide (c.1 < lo + 0x100000000)))
    scrambled := (List.range (min 16 (256 - 16 * r))).foldl (fun t i => tset t (256 * n + 16 * r + i) s.freeCount) s.scrambled
    freeCount := s.freeCount + 1 }

/-- PART_CFG_WRITE (R307, R308, R310). -/
def execPartCfgWrite (src : Src) (p val : Nat) (s : State) : Outcome State Fault Refusal := s.onClock <|
  let mode := bits val 0 1
  let rate := bits val 1 7
  let burst := bits val 16 16
  let mask := bits val 32 16
  let oldMode := s.get AGT_SCHED_PART_CFG.MODE p
  let oldMask := s.get AGT_SCHED_PART_CFG.CHMASK p
  let change := mode != oldMode || mask != oldMask
  let masks := s.chMasks p mode mask
  if 16 ≤ p then .next s
  else if !s.reaches src 4 2 (0x100 + 32 * p) then .next (s.turnAway src 4 2 (0x100 + 32 * p))
  else if burst = 0 || 64 < s.rateSum p mode rate (s.get AGT_SCHED_RSV.RSV 0) ||
    (mode == 1 && ((s.chMasks p 0 0).any (fun m => m &&& mask != 0) || !([1, 2, 4, 8].contains (popcount16 mask)) ||
      s.waysOverlap p)) ||
    (change && ((List.range 512).any (fun c => s.ctxState c != 0 &&
        (s.ctxPart c == p || !s.segregated (s.ctxPart c))) || s.anyDirty)) then .next s.schedErr
  else
    let old := s.chMasks p oldMode oldMask
    let s1 := (((s.set AGT_SCHED_PART_CFG.MODE p mode).set AGT_SCHED_PART_CFG.RATE p rate).set
      AGT_SCHED_PART_CFG.BURST p burst).set AGT_SCHED_PART_CFG.CHMASK p mask
    let moved := (List.range 16).filter (fun r => channelSet old r != channelSet masks r)
    .next ((List.range 4).foldl (fun st n => moved.foldl (fun st' r => st'.scrambleRegion n r) st) s1)

/-- RSV_WRITE (R310, R315, R316): register AGT_SCHED_RSV and object 0x3000 are one, which MAINT and HOST write. This is the write as its
slot decides it (log entry 59). -/
def execRsvWrite (src : Src) (val : Nat) (s : State) : Outcome State Fault Refusal := s.onClock <|
  let v := bits val 0 7
  if !s.objWrites src 4 2 0x8 then .next (s.objTurned src 4 2 0x8)
  else if 32 < v || 64 < s.rateSum 16 0 0 v then .next s.schedErr
  else .next (s.set AGT_SCHED_RSV.RSV 0 v)

end Sys2Proof.Machine
end

