-- ==== Sys2Proof/Machine/Routes.lean ====
section
/-! DEFINITION. Chapter 11: links, routes and route tables (R262, R265, R269 to R272). -/

namespace Sys2Proof.Machine

open Reg

/-- The link that joins two nodes (R262). -/
def linkOf (a b : Nat) : Option Nat :=
  if a < 4 ∧ b = (a + 1) % 4 then some a
  else if b < 4 ∧ a = (b + 1) % 4 then some b
  else if a < 4 ∧ b = 4 then some (4 + a)
  else if b < 4 ∧ a = 4 then some (4 + b)
  else if (a = 4 ∧ b = 5) ∨ (a = 5 ∧ b = 4) then some 8
  else none

/-- State of a link: 0 DOWN, 1 UP, 2 DEGRADED (R282). -/
def State.linkState (s : State) (l : Nat) : Nat := s.get AGT_FAB_LINK.STATE l

/-- The two ends of a link (R262). -/
def linkEnds (l : Nat) : Nat × Nat := if l < 4 then (l, (l + 1) % 4) else if l < 8 then (l - 4, 4) else (4, 5)

/-- The ONX_FAB_PORT that shows a link on Onyx `n`: 0 counter-clockwise, 1 clockwise, 2 hub (R283). -/
def portOf (l n : Nat) : Nat := if 4 ≤ l then 2 else if l = n then 1 else 0

/-- Set the state of a link, on both registers that show it (R282, R283). -/
def State.setLink (s : State) (l v : Nat) (half : Bool) : State :=
  let e := linkEnds l
  let s1 := (s.set AGT_FAB_LINK.STATE l v).set AGT_FAB_LINK.HALF l (b2n half)
  let onPort (st : State) (n : Nat) : State :=
    if n < 4 then (st.setO ONX_FAB_PORT.STATE n (portOf l n) v).setO ONX_FAB_PORT.HALF n (portOf l n) (b2n half) else st
  onPort (onPort s1 e.1) e.2

/-- The links of a path of nodes; none where two neighbours of the path share no link. -/
def pathLinks : List Nat → Option (List Nat)
  | [] => some []
  | [_] => some []
  | a :: b :: t =>
    match linkOf a b, pathLinks (b :: t) with
    | some l, some r => some (l :: r)
    | _, _ => none

/-- Is a path usable: every link not DOWN, every die passed through admitted (R270)? -/
def State.pathOk (s : State) (p : List Nat) : Bool :=
  (match pathLinks p with
   | some l => l.all (fun k => s.linkState k != 0)
   | none => false) &&
  (p.drop 1).dropLast.all (fun n => n == 4 || s.admitted n)

/-- The two ways round the ring. -/
def clockwise (i j : Nat) : List Nat := (List.range ((j + 4 - i) % 4 + 1)).map (fun k => (i + k) % 4)
def counterClockwise (i j : Nat) : List Nat := (List.range ((i + 4 - j) % 4 + 1)).map (fun k => (i + 4 - k) % 4)

/-- Every path from `i` to `j` through one to three other nodes, fewest links first: the last resort of R270 (DEDUCED, log
entry 31). -/
def lastResort (i j : Nat) : List (List Nat) :=
  let ks := (List.range 5).filter (fun k => k != i && k != j)
  let two := ks.flatMap (fun k => (ks.filter (· != k)).map (fun l => [k, l]))
  let three := two.flatMap (fun p => (ks.filter (fun l => !p.contains l)).map (fun l => p ++ [l]))
  (ks.map (fun k => [k]) ++ two ++ three).map (fun p => i :: (p ++ [j]))

/-- Candidate paths in the order of R269 and R270. `via` is VIA of the source (R285). -/
def candidates (via i j : Nat) : List (List Nat) :=
  let cw := clockwise i j
  let ccw := counterClockwise i j
  (if i = 4 || j = 4 then [[i, j]]
   else if (i + 2) % 4 = j then
     (if via = 0 then [cw, ccw, [i, 4, j]] else if via = 1 then [ccw, cw, [i, 4, j]] else [[i, 4, j], cw, ccw])
   else if (i + 1) % 4 = j then [cw, ccw, [i, 4, j]] else [ccw, cw, [i, 4, j]]) ++ lastResort i j

/-- VIA of a source (object 0x3801, default 0). -/
def State.via (s : State) (i : Nat) : Nat := s.obj 0 0x3801 (i + 1)

/-- The route of new tiles from `i` to `j` under the link states in force (R269, R270). -/
def State.findRoute (s : State) (i j : Nat) : Option (List Nat) := (candidates (s.via i) i j).find? s.pathOk

/-- The nodes that have routes: admitted Onyx dies and Agate. -/
def State.routedNodes (s : State) : List Nat := (List.range 4).filter s.admitted ++ [4]

/-- The table computed in full from the links and VIA in force (R271). -/
def State.buildTable (s : State) (epoch : Nat) : RouteTable :=
  let ns := s.routedNodes
  { epoch := epoch
    routes := (ns.flatMap (fun i => ns.map (fun j => (i, j)))).foldl
      (fun t p => if p.1 = p.2 then t else
        match s.findRoute p.1 p.2 with
        | some r => tset t (8 * p.1 + p.2) r
        | none => t) [] }

/-- The path of a tile that starts now from one node to another (R271). -/
def State.route (s : State) (i j : Nat) : List Nat :=
  if i = j then [i] else tget [] s.fabric.table.routes (8 * i + j)

/-- The path of a broadcast tile to one target: that of the table where it keeps to the ring, else a way round the ring (R270, R274).
Log entry 18 (DEDUCED). -/
def State.ringRoute (s : State) (i j : Nat) : List Nat :=
  let r := s.route i j
  if r.contains 4 then (([clockwise i j, counterClockwise i j].find? s.pathOk).getD []) else r

/-- The links of a path. -/
def linksOf (p : List Nat) : List Nat := (pathLinks p).getD []

end Sys2Proof.Machine
end

