-- ==== Sys2Proof/Machine/TileMover.lean ====
section
/-! DEFINITION. Chapter 3: the tile mover, tiles in flight, poison, lower-tier failures, the patrol scrub and the scratch
ways (R57, R69, R71 to R83), and the broadcast copy of chapter 11 (R273). -/

namespace Sys2Proof.Machine

open Reg Host

/-! ## The descriptor (R71) -/

/-- A tile-transfer descriptor, decoded. `count` is the number of tiles. -/
structure Xfer where
  body : Nat
  op : Nat
  size : Nat
  srcT3 : Bool
  dstT3 : Bool
  count : Nat
  cont : Bool
  alloc : Bool
  pattern : Nat
  src : Nat
  dst : Nat
  srcStride : Nat
  dstStride : Nat
  deriving DecidableEq, Repr

def xfer (b : Nat) : Xfer :=
  let size := 4096 * 4 ^ bits b 4 2
  let st (v : Nat) : Nat := if v = 0 then size else v
  { body := b, op := bits b 0 4, size := size, srcT3 := bit b 6, dstT3 := bit b 7, count := bits b 8 12 + 1,
    cont := bit b 20, alloc := bit b 21, pattern := bits b 32 32, src := bits b 64 64, dst := bits b 128 64,
    srcStride := st (bits b 192 32), dstStride := st (bits b 224 32) }

/-- T3_TIMEOUT of the descriptor in package time (R71, R336); 0 selects object 0x3400 (R83). -/
def State.t3Limit (s : State) (b : Nat) : Nat := 40000 * (if bits b 256 16 = 0 then s.obj 200 0x3400 0 else bits b 256 16)

def Xfer.srcTile (x : Xfer) (i : Nat) : Run := ⟨x.srcT3, x.src + x.srcStride * i, x.size⟩
def Xfer.dstTile (x : Xfer) (i : Nat) : Run := ⟨x.dstT3, x.dst + x.dstStride * i, x.size⟩
def Xfer.srcRun (x : Xfer) : List Run := (List.range x.count).map x.srcTile
def Xfer.dstRun (x : Xfer) : List Run := (List.range x.count).map x.dstTile

/-- Is it a broadcast copy (R273)? -/
def Xfer.broadcast (x : Xfer) : Bool := x.op == 0 && !x.dstT3 && nodeOf x.dst == 0xF

/-- First byte and length of the interval of R73 item 5. -/
def Xfer.srcSpan (x : Xfer) : Nat × Nat := (x.src, x.srcStride * (x.count - 1) + x.size)
def Xfer.dstSpan (x : Xfer) : Nat × Nat := (x.dst, x.dstStride * (x.count - 1) + x.size)

/-- Item 1 of R73: a reserved value or bit, or a field that must be 0. -/
def Xfer.reservedBad (x : Xfer) : Bool :=
  bits x.body 22 10 != 0 || bits x.body 272 112 != 0 || bits x.body 4 2 == 3 || decide (6 < x.op) ||
  (!x.srcT3 && decide (2 ^ 52 ≤ x.src)) || (!x.dstT3 && decide (2 ^ 52 ≤ x.dst)) ||
  (x.op == 1 && x.src != 0) || (x.op != 1 && x.op != 6 && x.pattern != 0) ||
  (x.op == 6 && (decide (2 ^ 16 ≤ x.pattern) || bits x.body 4 2 != 0 || x.count != 1 || x.src != 0 || x.dst != 0))

/-- Item 2 of R73. -/
def Xfer.alignBad (x : Xfer) : Bool :=
  x.src % x.size != 0 || x.dst % x.size != 0 || x.srcStride % x.size != 0 || x.dstStride % x.size != 0 ||
  decide (x.srcStride < x.size) || decide (x.dstStride < x.size)

/-- Items 3 to 5 of R73 and the source rule of R273, for executing die `n`. -/
def Xfer.placeBad (x : Xfer) (n : Nat) : Bool :=
  let on (t3 : Bool) (r : List Run) : Bool := !t3 && r.all (fun t => nodeOf t.addr == n)
  let dst := if x.broadcast then glob n (localOf x.dst) else x.dst
  (x.op == 0 && !on x.srcT3 x.srcRun && (x.broadcast || !on x.dstT3 x.dstRun)) ||
  ([2, 3, 4, 5].contains x.op && (x.dstT3 || !(x.dstRun.all (fun t => nodeOf t.addr == n && isT2 t.addr)))) ||
  (x.op == 0 && x.srcT3 == x.dstT3 && overlaps x.srcSpan (dst, x.dstSpan.2))

/-- Does a T2 address lie in a region that a SEGREGATED partition other than `part` owns (R308)? -/
def State.segForeign (s : State) (part a : Nat) : Bool :=
  isT2 a && (List.range 16).any (fun q => q != part && s.segregated q &&
    bit (s.get AGT_SCHED_PART_CFG.CHMASK q) (localOf a / 0x100000000))

/-- Does a run of the T2 of a node touch a region that a SEGREGATED partition other than `part` owns (R308)? -/
def State.rangeForeign (s : State) (part node a len : Nat) : Bool :=
  len != 0 && (List.range 16).any (fun r => s.segForeign part (glob node (r * 0x100000000)) && overlaps (r * 0x100000000, 0x100000000) (a, len))

/-- May the tile mover reach the place: T0, T1 or T2 (R73 item 6)? -/
def tierReached (a : Nat) : Bool :=
  match region (nodeOf a) (localOf a) with
  | some .t2 => true
  | some (.t1Window _) => true
  | some (.t0 _) => true
  | _ => false

/-- The status for which a tile at a global address is refused, if it is (R16, R18, R73 item 6, R308). -/
def State.tileRefused (s : State) (n part : Nat) (a : Nat) : Option Status :=
  match s.requestRefused (.onyx n) a false with
  | some st => some st
  | none => if !tierReached a || s.segForeign part a then some .badDescriptor else none

/-- The tiles a transfer touches: for a broadcast, the destinations on every admitted Onyx. -/
def State.dstPlaces (s : State) (x : Xfer) : List Run :=
  if x.broadcast then
    ((List.range 4).filter s.admitted).flatMap (fun m => x.dstRun.map (fun t => { t with addr := glob m (localOf t.addr) }))
  else x.dstRun

/-- Reads and writes of a transfer. -/
def State.xferReads (_s : State) (x : Xfer) : List Run := if x.op = 0 then x.srcRun else if x.op = 5 then x.dstRun else []
def State.xferWrites (s : State) (x : Xfer) : List Run := if 5 ≤ x.op then [] else s.dstPlaces x

/-- The status for which a whole transfer is refused before any tile starts, if it is (R73, R426, R31). -/
def State.transferRefused (s : State) (n part : Nat) (x : Xfer) : Option Status :=
  let reads := s.xferReads x
  let writes := s.xferWrites x
  let sts := (reads ++ writes).filterMap (fun r => if r.t3 then none else s.tileRefused n part r.addr)
  let bad := x.reservedBad || x.alignBad || x.placeBad n
  if s.denied part (x.op == 0) reads writes then some .denied
  else match if bad then .badDescriptor :: sts else sts with
    | [] => none
    | a :: t => some (t.foldl Status.first a)

/-! ## Moving one tile -/

/-- What the silicon reports of a tile's T3 accesses: sectors answered with an error (for a T3 destination, any entry
stands for an error answer to the closing read), or a timeout with the sectors received before it (R81). -/
inductive T3End where
  | done (bad : List Nat)
  | timeout (received : List Nat)
  deriving DecidableEq, Repr

/-- Free bytes for host memory whose contents software must take as undefined (R81). -/
def freeBytes (g a n : Nat) : List Byte := (List.range n).map (fun i => Config.freeByte g (a + i))

/-- Write one sector of a tile to a destination: on the device with its poison; to T3 unless it is poisoned (R79). -/
def State.putSector (s : State) (part : Nat) (alloc : Bool) (d : Run) (j : Nat) (b : List Byte) (p : Bool) : State :=
  if d.t3 then (if p then s else s.hostWrite (d.addr + 256 * j) b)
  else s.writeSector part alloc (d.addr + 256 * j) b p

/-- Mark a destination sector whose data did not arrive: its bytes stay, poisoned (R78, R81). -/
def State.missSector (s : State) (part : Nat) (alloc : Bool) (d : Run) (j : Nat) : State :=
  if d.t3 then s else s.writeSector part alloc (d.addr + 256 * j) (s.bytes (d.addr + 256 * j) 256) true

/-- The closing read of a T3 write (R81): if it fails, the destination bytes are undefined. -/
def State.closeT3 (s : State) (d : Run) (e : T3End) : State × List Status :=
  if !d.t3 then (s, []) else
    let spoil (st : Status) : State × List Status :=
      let u := s.hostWrite d.addr (freeBytes s.freeCount d.addr d.len)
      ({ u with freeCount := u.freeCount + 1 }, [st])
    match e with
    | .timeout _ => spoil .lowerTierTimeout
    | .done [] => (s, [])
    | .done _ => spoil .tileUncorrectable

/-- Copy a tile to its destinations: the state and the outcomes (R72, R77 to R81). -/
def State.copyTile (s : State) (part : Nat) (alloc : Bool) (src : Run) (dsts : List Run) (errs : ReadErrs) (e : T3End) :
    State × List Status :=
  let js := List.range (src.len / 256)
  if src.t3 then
    let got (j : Nat) : Bool := match e with
      | .timeout r => r.contains j
      | .done bad => !bad.contains j
    let st := js.foldl (fun st j => dsts.foldl (fun st' d =>
      if got j then st'.putSector part alloc d j (s.hostRead (src.addr + 256 * j) 256) false
      else st'.missSector part alloc d j) st) s
    (st, match e with
      | .timeout _ => [.lowerTierTimeout]
      | .done bad => if bad.isEmpty then [] else [.tileUncorrectable])
  else
    let r := s.readSectors part alloc errs (sectorsOf src.addr src.len)
    let st := js.foldl (fun st j =>
      let b := r.st.bytes (src.addr + 256 * j) 256
      let p := r.st.poisoned (src.addr + 256 * j)
      dsts.foldl (fun st' d => st'.putSector part alloc d j b p) st) r.st
    let close := dsts.foldl (fun (q : State × List Status) d =>
      let c := q.1.closeT3 d e
      (c.1, q.2 ++ c.2)) (st, [])
    (close.1, (if r.lost then [.tileUncorrectable] else []) ++ (if r.poison then [.poisonedInput] else []) ++ close.2)

/-- Fill a tile (R72). -/
def State.fillTile (s : State) (part : Nat) (alloc : Bool) (pattern : Nat) (d : Run) (e : T3End) : State × List Status :=
  let b := (List.range 64).flatMap (fun _ => leBytes 4 pattern)
  let st := (List.range (d.len / 256)).foldl (fun st j => st.putSector part alloc d j b false) s
  st.closeT3 d e

/-- Write a line back (when `back`) and invalidate it (when `drop`); errors found in its dirty sectors poison them (R72,
R80). The list tells of an error found. -/
def State.flushLine (s : State) (back drop : Bool) (errs : ReadErrs) (node way set : Nat) : State × List Status :=
  match s.t1Line node way set with
  | none => (s, [])
  | some l =>
    let base := glob node (l.tag * 0x400000 + set * 4096)
    let dirty := (maskList 16 l.dirty).map (fun i => base + 256 * i)
    let bad := if back then errs.uncorrectable.filter dirty.contains else []
    let s1 := bad.foldl (fun st a => st.setPoison (st.place a) true) s
    let s2 := if back then (errs.corrected.filter dirty.contains).foldl (fun st a => st.countCorrected a) s1 else s1
    let s3 := if back then s2.writeBack node way set else s2
    (if drop then s3.dropLine node way set else s3, if bad.isEmpty then [] else [.tileUncorrectable])

/-- FLUSH, EVICT or DISCARD of the lines that cover a tile (R72). Finding a line there leaves the pseudo-LRU bits of its set as they
are: R67 speaks of hits and allocations, and the spec does not say whether this finding is a hit (DESIGN CHOICE, log entry 133). -/
def State.flushTile (s : State) (back drop : Bool) (errs : ReadErrs) (d : Run) : State × List Status :=
  (List.range (d.len / 4096)).foldl (fun (q : State × List Status) i =>
    let a := d.addr + 4096 * i
    match q.1.t1Find a with
    | some w =>
      let r := q.1.flushLine back drop errs (nodeOf a) w (t1Set (localOf a))
      (r.1, q.2 ++ r.2)
    | none => q) (s, [])

/-- WAYFLUSH of the named ways of a die (R72). -/
def State.wayFlush (s : State) (errs : ReadErrs) (node mask : Nat) : State × List Status :=
  (s.t1.filter (fun e => e.1 / 16384 == node && bit mask (e.1 % 16384 / 1024))).foldl
    (fun (q : State × List Status) e =>
      let r := q.1.flushLine true true errs node (e.1 % 16384 / 1024) (e.1 % 1024)
      (r.1, q.2 ++ r.2)) (s, [])

/-- Carry out tile `f.index` of a transfer executed by die `n` for partition `part`. Where the data function is down, a T3
access ends with the timeout of R81 or R376. -/
def State.moveTile (s : State) (n part : Nat) (x : Xfer) (f : TileFlight) (errs : ReadErrs) (e : T3End) :
    State × List Status :=
  let src := x.srcTile f.index
  let dst := x.dstTile f.index
  let dsts := if x.broadcast then f.targets.map (fun m => { dst with addr := glob m (localOf dst.addr) }) else [dst]
  let e' := if (x.op = 0 && x.srcT3 || x.op ≤ 1 && x.dstT3) && !s.hostUp then T3End.timeout [] else e
  let r : State × List Status := match x.op with
    | 0 => s.copyTile part x.alloc src dsts errs e'
    | 1 => s.fillTile part x.alloc x.pattern dst e'
    | 2 => s.flushTile true false errs dst
    | 3 => s.flushTile true true errs dst
    | 4 => s.flushTile false true errs dst
    | 5 =>
      let q := s.readSectors part x.alloc errs (sectorsOf dst.addr dst.len)
      (q.st, (if q.lost then [.tileUncorrectable] else []) ++ (if q.poison then [.poisonedInput] else []))
    | _ => s.wayFlush errs n x.pattern
  (r.1, r.2 ++ (if f.lost then [.nodeLost] else []) ++
    (if f.links.any (fun l => s.linkState l == 2) then [.linkDegraded] else []))

/-! ## Tiles in flight (R74, R75) -/

/-- The node that a tile of a transfer of die `n` comes from; host memory lies behind Agate. -/
def Xfer.tileFrom (x : Xfer) (n i : Nat) : Nat := if x.op = 0 then (if x.srcT3 then 4 else nodeOf (x.srcTile i).addr) else n

/-- The node that a tile goes to, for a transfer that is no broadcast. -/
def Xfer.tileTo (x : Xfer) (n i : Nat) : Nat := if x.op ≤ 1 then (if x.dstT3 then 4 else nodeOf (x.dstTile i).addr) else n

/-- The nodes and links a tile uses when it starts (R271, R273, R274). Log entry 18 (DEDUCED). -/
def State.flightOf (s : State) (n : Nat) (x : Xfer) (i : Nat) : TileFlight :=
  let from' := x.tileFrom n i
  let admitted := (List.range 4).filter s.admitted
  let targets := if x.broadcast then admitted.filter (fun m => !(s.ringRoute from' m).isEmpty) else []
  let paths := if x.broadcast then targets.map (s.ringRoute from') else [s.route from' (x.tileTo n i)]
  { index := i
    epoch := s.fabric.table.epoch
    links := (paths.flatMap linksOf).foldl sinsert []
    dies := paths.flatten.foldl sinsert []
    targets := targets
    lost := x.broadcast && decide (targets.length < admitted.length)
    start := s.time.now }

/-- Start the next tile. -/
def State.startTile (s : State) (n : Nat) (x : Xfer) (t : Transfer) : Transfer :=
  { t with started := t.started + 1, flight := t.flight ++ [s.flightOf n x t.started] }

/-- Start tiles while slots are free, with fuel for each. -/
def State.startTiles (s : State) (n : Nat) (x : Xfer) : Nat → Nat → Transfer → Transfer
  | 0, _, t => t
  | k + 1, free, t =>
    if t.closed || t.count ≤ t.started || free ≤ t.flight.length then t
    else s.startTiles n x k free (s.startTile n x t)

/-- Book the outcome of a tile that ends (R75). -/
def Transfer.book (t : Transfer) (x : Xfer) (i : Nat) (st : Status) : Transfer :=
  let ok := st.usable
  { t with
    flight := t.flight.filter (fun f => f.index != i)
    delivered := if ok then t.delivered + 1 else t.delivered
    firstFail := if ok then t.firstFail else some (match t.firstFail with
      | some j => min i j
      | none => i)
    outcomes := if t.outcomes.contains st then t.outcomes else t.outcomes ++ [st]
    closed := t.closed || (!ok && !x.cont) }

/-- Has the command nothing left to start or to end (R75)? -/
def Transfer.over (t : Transfer) : Bool := t.flight.isEmpty && (t.closed || decide (t.count ≤ t.started))

/-- Status and result field of a transfer that is over (R75). Log entry 127 (DEDUCED). -/
def Transfer.status (t : Transfer) : Status := pickStatus t.outcomes
def Transfer.result (t : Transfer) (x : Xfer) : Nat :=
  if x.op = 6 then t.delivered else t.delivered + (match t.firstFail with
    | some i => i
    | none => 0x1FFF) * 2 ^ 16

/-- Packets that a tile sends over the fabric: one for each sector on each link that leaves its source node (R263, R274). -/
def Xfer.packets (x : Xfer) (n : Nat) (f : TileFlight) : Nat :=
  x.size / 256 * (f.links.filter (fun l => (linkEnds l).1 == x.tileFrom n f.index || (linkEnds l).2 == x.tileFrom n f.index)).length

/-- The packets of a tile of a protected partition advance the counter of the partition's key slot in the node that sends them (R279); they
count when the tile ends (DESIGN CHOICE, log entry 151). -/
def State.sentPackets (s : State) (n part : Nat) (x : Xfer) (f : TileFlight) : State :=
  let k := 8 * part + x.tileFrom n f.index
  if (s.prot part).isProt && !f.links.isEmpty then
    { s with fabric := { s.fabric with sent := tset s.fabric.sent k ((tget 0 s.fabric.sent k + x.packets n f) % 2 ^ 64) } }
  else s

/-- Complete one tile in flight. -/
def State.endTile (s : State) (n part : Nat) (x : Xfer) (t : Transfer) (f : TileFlight) (errs : ReadErrs) (e : T3End) :
    State × Transfer :=
  let r := s.moveTile n part x f errs e
  (r.1.sentPackets n part x f, t.book x f.index (pickStatus r.2))

/-- Run a transfer to its end, each round starting what the slots allow and completing the oldest tile in flight. -/
def State.runTransfer (n part : Nat) (x : Xfer) (free : Nat) (errs : ReadErrs) (e : T3End) :
    Nat → State → Transfer → State × Transfer
  | 0, s, t => (s, t)
  | k + 1, s, t =>
    let t1 := s.startTiles n x t.count free t
    match t1.flight with
    | [] => (s, t1)
    | f :: _ =>
      let r := s.endTile n part x t1 f errs e
      State.runTransfer n part x free errs e k r.1 r.2

/-- Slots of die `n` taken by commands other than `k` (R74). -/
def State.slotsUsed (s : State) (n k : Nat) : Nat :=
  (s.sched.transfers.map (fun e => if e.1 = k then 0 else
    match s.cmd e.1 with
    | some x => if x.node = n then e.2.flight.length else 0
    | none => 0)).sum

/-! ## Transfer commands -/

/-- A transfer command that runs: the command and its descriptor. -/
def State.mover (s : State) (c seq : Nat) : Option Cmd :=
  match s.cmd (c * 2 ^ 32 + seq) with
  | some x => if x.phase == .running && x.engine == 9 then some x else none
  | none => none

/-- Where a command stands before its first tile: refused, with no tile delivered and none failed in its result field (R75), or its
transfer opened. -/
def State.openTransfer (s : State) (x : Cmd) : State × Option Transfer :=
  match tfind s.sched.transfers x.key with
  | some t => (s, some t)
  | none =>
    match s.transferRefused x.node (s.ctxPart x.ctx) (xfer x.body) with
    | some st =>
      ((if st = .denied then s.countRefusal else s).finish x st (Transfer.result { count := 0 } (xfer x.body)), none)
    | none => (s, some { count := (xfer x.body).count })

/-- Keep a transfer, or finish its command where it is over. -/
def State.keepTransfer (s : State) (x : Cmd) (t : Transfer) : State :=
  let s1 : State := { s with sched := { s.sched with transfers := tset s.sched.transfers x.key t } }
  if t.over then s1.finish x t.status (t.result (xfer x.body)) else s1

/-- The command of die `node` whose tile starts next, in issue order (R74). -/
def State.nextIssue (s : State) (node : Nat) : Option Cmd :=
  (s.sched.issue.filterMap s.cmd).find? (fun x => x.phase == .running && x.node == node &&
    (match tfind s.sched.transfers x.key with
     | some t => !t.closed && decide (t.started < t.count)
     | none => true))

/-- The slots that a command's tiles may fill: none while a command of its die that was issued before it has a tile left to start
(R74), else those that other commands leave free. -/
def State.slotsFor (s : State) (x : Cmd) : Nat :=
  match s.nextIssue x.node with
  | some y => if y.key = x.key then 1024 - s.slotsUsed x.node x.key else 0
  | none => 1024 - s.slotsUsed x.node x.key

/-- Run a transfer command whose operation satisfies `is` to its end, as far as the slots go. -/
def State.transferCommand (s : State) (is : Xfer → Bool) (c seq : Nat) (errs : ReadErrs) (bad : List Nat) : State :=
  match s.mover c seq with
  | none => s
  | some x =>
    let xf := xfer x.body
    if !is xf then s else
      match s.openTransfer x with
      | (s1, none) => s1
      | (s1, some t) =>
        let r := State.runTransfer x.node (s.ctxPart c) xf (s.slotsFor x) errs (.done bad) (t.count + 1) s1 t
        r.1.keepTransfer x r.2

/-- COPY (R72 to R81). -/
def execCopy (c seq : Nat) (errs : ReadErrs) (bad : List Nat) (s : State) : Outcome State Fault Refusal := s.onClock <|
  .next (s.transferCommand (fun x => x.op == 0 && !x.broadcast) c seq errs bad)
/-- BROADCAST_COPY (R273, R274). -/
def execBroadcastCopy (c seq : Nat) (errs : ReadErrs) (s : State) : Outcome State Fault Refusal := s.onClock <|
  .next (s.transferCommand (fun x => x.broadcast) c seq errs [])
/-- FILL (R72, R84). -/
def execFill (c seq : Nat) (bad : List Nat) (s : State) : Outcome State Fault Refusal := s.onClock <|
  .next (s.transferCommand (fun x => x.op == 1) c seq {} bad)
/-- FLUSH (R72). -/
def execFlush (c seq : Nat) (errs : ReadErrs) (s : State) : Outcome State Fault Refusal := s.onClock <|
  .next (s.transferCommand (fun x => x.op == 2) c seq errs [])
/-- EVICT (R72). -/
def execEvict (c seq : Nat) (errs : ReadErrs) (s : State) : Outcome State Fault Refusal := s.onClock <|
  .next (s.transferCommand (fun x => x.op == 3) c seq errs [])
/-- DISCARD (R72). -/
def execDiscard (c seq : Nat) (s : State) : Outcome State Fault Refusal := s.onClock <|
  .next (s.transferCommand (fun x => x.op == 4) c seq {} [])
/-- PREFETCH (R72, R79.5). -/
def execPrefetch (c seq : Nat) (errs : ReadErrs) (s : State) : Outcome State Fault Refusal := s.onClock <|
  .next (s.transferCommand (fun x => x.op == 5) c seq errs [])
/-- WAYFLUSH (R72, R75). A reserved operation is refused here too. -/
def execWayflush (c seq : Nat) (errs : ReadErrs) (s : State) : Outcome State Fault Refusal := s.onClock <|
  .next (s.transferCommand (fun x => decide (6 ≤ x.op)) c seq errs [])

/-- TILE_START (R74, R271): the first waiting tile of a die takes a free slot and the route of the current epoch. -/
def execTileStart (node : Nat) (s : State) : Outcome State Fault Refusal := s.onClock <|
  match s.nextIssue node with
  | none => .next s
  | some x =>
    if 1024 ≤ s.slotsUsed node (2 ^ 64) then .next s else
      match s.openTransfer x with
      | (s1, none) => .next s1
      | (s1, some t) => .next (s1.keepTransfer x (s1.startTile node (xfer x.body) t))

/-- End tile `index` of a command if it is in flight. -/
def State.tileEnds (s : State) (c seq index : Nat) (errs : ReadErrs) (e : T3End) : State :=
  match s.mover c seq with
  | none => s
  | some x =>
    match tfind s.sched.transfers x.key with
    | none => s
    | some t =>
      match t.flight.find? (fun f => f.index == index) with
      | none => s
      | some f =>
        let r := s.endTile x.node (s.ctxPart c) (xfer x.body) t f errs e
        r.1.keepTransfer x r.2

/-- TILE_COMPLETE (R75): `bad` names the sectors that a T3 read answered with an error; for a T3 destination any entry stands for
an error answer to the closing read (R81). -/
def execTileComplete (c seq index : Nat) (errs : ReadErrs) (bad : List Nat) (s : State) : Outcome State Fault Refusal := s.onClock <|
  .next (s.tileEnds c seq index errs (.done bad))

/-- Has the T3 timeout of tile `index` of a command run out (R81)? -/
def State.t3Expired (s : State) (x : Cmd) (index : Nat) : Bool :=
  match tfind s.sched.transfers x.key with
  | none => false
  | some t => t.flight.any (fun f => f.index == index && decide (f.start + s.t3Limit x.body ≤ s.time.now))

/-- T3_TIMEOUT (R81): a tile that T3 has not answered within its T3_TIMEOUT ends with LOWER_TIER_TIMEOUT, the sectors not received
poisoned. -/
def execT3Timeout (c seq index : Nat) (received : List Nat) (s : State) : Outcome State Fault Refusal := s.onClock <|
  match s.mover c seq with
  | none => .next s
  | some x =>
    let xf := xfer x.body
    .next (if ((xf.op = 0 && xf.srcT3) || (xf.op ≤ 1 && xf.dstT3)) && s.t3Expired x index then s.tileEnds c seq index {} (.timeout received) else s)

/-! ## Patrol scrub and scratch ways -/

/-- PATROL_SCRUB (R77, R78, R83): the scrub reads the T2 sector at offset `256 × sector` of die `node`; `found` is 0 no error, 1 a
corrected error, 2 an uncorrectable one, which poisons the T2 sector and sends an event (kind 0x04). -/
def execPatrolScrub (node sector found : Nat) (s : State) : Outcome State Fault Refusal := s.onClock <|
  let a := glob node (256 * sector)
  if 4 ≤ node || 0x10000000 ≤ sector || !s.t2Up node then .next s
  else if found = 1 then .next (s.setObj 0 0x3401 (node + 1) (satAdd 32 (s.obj 0 0x3401 (node + 1)) 1))
  else if found = 2 then
    let s1 := (s.setPoison a true).setObj 0 0x3402 (node + 1) (satAdd 32 (s.obj 0 0x3402 (node + 1)) 1)
    .next (s1.event 16 .tileUncorrectable 0x04 node 0 0 a 0)
  else .next s

/-- Does a way of a die hold a line with a valid sector? -/
def State.wayHolds (s : State) (node way : Nat) : Bool :=
  s.t1.any (fun e => e.1 / 16384 == node && e.1 % 16384 / 1024 == way && e.2.valid != 0)

/-- WAYMODE_WRITE (R69, R70): a bit that would make a way holding a valid line scratch stays and sets CFG_ERR. -/
def execWaymodeWrite (src : Src) (node val : Nat) (s : State) : Outcome State Fault Refusal := s.onClock <|
  if 4 ≤ node then .next s
  else if !s.reaches src node 5 0 then .next (s.turnAway src node 5 0) else
    let old := s.getO ONX_T1_WAYMODE.SCRATCH node 0
    let want := bits val 0 16
    let refused := (List.range 16).filter (fun w => bit want w && !bit old w && s.wayHolds node w)
    let new := refused.foldl (fun m w => setBit m w false) want
    let s1 := s.setO ONX_T1_WAYMODE.SCRATCH node 0 new
    .next (if refused.isEmpty then s1 else s1.setO ONX_T1_STATUS.CFG_ERR node 0 1)

end Sys2Proof.Machine
end

