-- ==== Sys2Proof/Machine/Switch.lean ====
section
/-! DEFINITION. Chapter 12: the T0 region switch, with its save, restore and restage list (R303 to R306). -/

namespace Sys2Proof.Machine

open Reg Host

/-- Offset of a core's part in a save area (R304). -/
def savePart (core : Nat) : Nat := lget 0 [0, 24, 28, 32] core * 0x100000

/-- Local offset of the save area of a context (R304). -/
def State.saveArea (s : State) (c : Nat) : Nat := s.get AGT_SCHED_CTX_SAVE.BASE c * 4096

/-- Copy sectors with their poison between two places of a node, T1 allocating nothing (R305). A sector that lies in a region of a
SEGREGATED partition other than that of the context is not accessed (R308, DESIGN CHOICE, log entry 152). -/
def State.moveRun (s : State) (part src dst sectors : Nat) (errs : ReadErrs) : State :=
  (List.range sectors).foldl (fun st j =>
    if st.segForeign part (src + 256 * j) || st.segForeign part (dst + 256 * j) then st
    else
      let r := st.readSectors part false errs [src + 256 * j]
      r.st.writeSector part false (dst + 256 * j) (r.st.bytes (src + 256 * j) 256) (r.st.poisoned (src + 256 * j))) s

/-- Where the region of a context stands in T0 and in its save area, and its sectors. -/
def State.regionPlaces (s : State) (c node core : Nat) : Nat × Nat × Nat :=
  let off := s.get (t0Start core) c * 0x100000
  (glob node (t0Base core + off), glob node (s.saveArea c + savePart core + off), s.get (t0SizeF core) c * 4096)

def State.saveRegion (s : State) (c node core : Nat) (errs : ReadErrs) : State :=
  let p := s.regionPlaces c node core
  s.moveRun (s.ctxPart c) p.1 p.2.1 p.2.2 errs

def State.restoreRegion (s : State) (c node core : Nat) (errs : ReadErrs) : State :=
  let p := s.regionPlaces c node core
  s.moveRun (s.ctxPart c) p.2.1 p.1 p.2.2 errs

/-- Does an accepted command name a core of a node, by its CORE or by the T0 window that its tiles lie in, where CTX_MAP maps its LNODE now
(R303)? -/
def State.names (s : State) (node core : Nat) (x : Cmd) : Bool :=
  s.phys x.ctx x.lnode == node && (if x.core < 4 then x.core == core else (moverCores node x.body).contains core)

/-- May the region of context `c` be switched out (R303): every command of it on the engines of the core has stopped, and there is one, or it
has no accepted command that names the core? -/
def State.canSwitchOut (s : State) (node core c : Nat) : Bool :=
  let on := (s.ctxCmds c).filter (fun x => x.core == core && x.node == node && x.phase != .waiting)
  (!on.isEmpty && on.all (fun x => x.phase == .stopped)) || !(s.ctxCmds c).any (s.names node core)

/-- The command for whose context the core of a node switches next: the highest ranked one that waits for a switch. -/
def State.switchFor (s : State) (node core : Nat) : Option Cmd :=
  (s.cmdList.filter (fun x => s.readyButSwitch x && s.cmdNode x == node && (s.coresNamed x).contains core &&
    s.needsSwitch x.ctx node core && (s.blockers x.ctx node core).all (s.canSwitchOut node core))).foldl
    (fun best x => match best with
      | none => some x
      | some b => some (if s.rankOf b.ctx < s.rankOf x.ctx then x else b)) none

/-- Carry a transfer of a restage list to its end. -/
def State.runEnvelope (s : State) (node part : Nat) (x : Xfer) (errs : ReadErrs) (e : T3End) : State × Status :=
  let q := State.runTransfer node part x (1024 - s.slotsUsed node (2 ^ 64)) errs e (x.count + 1) s { count := x.count }
  (q.1, q.2.status)

/-- How the T3 accesses of envelope `i` end: `t3` names the envelopes, and whether one runs into its timeout, with the sectors received, or is
answered with errors, with the sectors that fail (R81); the others end well. -/
def envelopeEnd (t3 : List (Nat × Bool × List Nat)) (i : Nat) : T3End :=
  match t3.find? (fun e => e.1 == i) with
  | some (_, true, r) => .timeout r
  | some (_, false, bad) => .done bad
  | none => .done []

/-- Run one envelope of a restage list: its status (R304). -/
def State.restageOne (s : State) (c node : Nat) (errs : ReadErrs) (e : T3End) (i : Nat) : State × Status :=
  let a := glob node (s.get AGT_SCHED_CTX_RESTAGE.BASE c * 4096 + 64 * i)
  let part := s.ctxPart c
  if s.segForeign part a then (s, .badDescriptor) else
  let r := s.readSectors part true errs [sectorOf a]
  let env := r.st.word a 64
  let x : Cmd := { ctx := c, seq := 0, env := env }
  if r.lost || r.poison then (r.st, .tileUncorrectable)
  else if x.core != 4 || x.engine != 9 then (r.st, .badDescriptor)
  else
    let xf := xfer x.body
    match r.st.transferRefused node part xf with
    | some st => (r.st, st)
    | none => r.st.runEnvelope node part xf errs e

/-- Run the restage list from envelope `i`, stopping at the first failure: its index and status. Log entry 17 (DEDUCED). -/
def State.restage (c node : Nat) (errs : ReadErrs) (t3 : List (Nat × Bool × List Nat)) : Nat → Nat → State → State × Option (Nat × Status)
  | 0, _, s => (s, none)
  | k + 1, i, s =>
    let r := s.restageOne c node errs (envelopeEnd t3 i) i
    if r.2.usable then State.restage c node errs t3 k (i + 1) r.1 else (r.1, some (i, r.2))

/-- A restage failure halts the context (R287, R304). -/
def State.restageFailed (s : State) (c node i : Nat) (st : Status) : State :=
  let s1 := (s.set AGT_SCHED_CTX_STAT.RESTAGE_ERR c 1).haltCtx c
  s1.event (s.ctxPart c) st 0x07 node (s.ctxPart c) (c + i * 2 ^ 16) 0 0

/-- T0_SWITCH (R303, R304): the held regions that overlap are saved, the saved region of the waiting context is restored, and
after a restore its restage list runs, its reads and T3 accesses ending as `r` says. -/
def execT0Switch (node core : Nat) (r : SwitchReads) (s : State) : Outcome State Fault Refusal := s.onClock <|
  if 4 ≤ node || 4 ≤ core || thas s.sched.switches (4 * node + core) then .next s else
    match s.switchFor node core with
    | none => .next s
    | some y =>
      let outs := s.blockers y.ctx node core
      let s1 := outs.foldl (fun st c => st.saveRegion c node core r.errs) s
      let hk := heldKey y.ctx node core
      let back := s1.sched.saved.contains hk
      let s2 := if back then s1.restoreRegion y.ctx node core r.errs else s1
      let s3 : State := { s2 with sched := { s2.sched with
        held := s2.sched.held.filter (fun k => !(k % 16 == 4 * node + core && outs.contains (k / 16)))
        saved := outs.foldl (fun l c => sinsert l (heldKey c node core)) (sdel s2.sched.saved hk)
        switches := tset s2.sched.switches (4 * node + core) { ctx := y.ctx, out := outs } } }
      if !back then .next s3 else
        match State.restage y.ctx node r.errs r.t3 (s3.get AGT_SCHED_CTX_RESTAGE.COUNT y.ctx) 0 s3 with
        | (s4, none) => .next s4
        | (s4, some f) => .next (s4.restageFailed y.ctx node f.1 f.2)

/-- T0_SWITCH_COMPLETE (R303, R306): the waiting context holds its region. -/
def execT0SwitchComplete (node core : Nat) (s : State) : Outcome State Fault Refusal := s.onClock <|
  match tfind s.sched.switches (4 * node + core) with
  | none => .next s
  | some w => .next { s with sched := { s.sched with
      switches := tdel s.sched.switches (4 * node + core)
      held := sinsert s.sched.held (heldKey w.ctx node core) } }

end Sys2Proof.Machine
end

