-- ==== Sys2Proof/Machine/Engine.lean ====
section
/-! DEFINITION. What the engine commands share: tile grids (R59, R60, R96), where operands may lie (R93), the plan of a command
and how it runs, is poisoned, stops and finishes (R79, R104, R295, R301, R304). -/

namespace Sys2Proof.Machine

open Reg Host

/-! ## Places -/

/-- Does a run of local bytes lie in the T0 window of a core or in scratch T1 ways that are powered (R93 item 8)? -/
def State.placeOk (s : State) (node core a len : Nat) : Bool :=
  (decide (t0Base core ≤ a) && decide (a + len ≤ t0Base core + t0Size core)) ||
  (decide (0x1000000000 ≤ a) && decide (a + len ≤ 0x1004000000) &&
    (let w0 := (a - 0x1000000000) / 0x400000
     let w1 := (a + len - 1 - 0x1000000000) / 0x400000
     (List.range (w1 - w0 + 1)).all (fun i =>
       bit (s.getO ONX_T1_WAYMODE.SCRATCH node 0) (w0 + i) && s.domOn (if w0 + i < 8 then 8 * node + 2 else 8 * node + 3))))

/-! ## MT grids (R59, R60, R96) -/

/-- A grid of MT tiles: element format, tile size in bytes, local address of tile (0, 0), bytes between tile rows, and the rows
and columns of elements. -/
structure Grid where
  fmt : Nat
  size : Nat
  addr : Nat
  stride : Nat
  rows : Nat
  cols : Nat
  deriving DecidableEq, Repr

/-- Tile size of a TSIZE code. -/
def tileSize (code : Nat) : Nat := 4096 * 4 ^ code

/-- Elements of a 256-byte row. -/
def perRow (fmt : Nat) : Nat := 2048 / fmtBits fmt
/-- Scale bytes of a row (R60). -/
def rowScales (fmt : Nat) : Nat := if isMx fmt then perRow fmt / 32 else 0
/-- Rows of a tile (R59, R60). -/
def rowsPerTile (fmt size : Nat) : Nat := size / (256 + rowScales fmt)

/-- A grid of MT tiles packed as R119 has it. -/
def packed (fmt size addr rows cols : Nat) : Grid := ⟨fmt, size, addr, cdiv cols (perRow fmt) * size, rows, cols⟩

def Grid.tileRows (g : Grid) : Nat := cdiv g.rows (rowsPerTile g.fmt g.size)
def Grid.tileCols (g : Grid) : Nat := cdiv g.cols (perRow g.fmt)
/-- Local address of a tile. -/
def Grid.tile (g : Grid) (r c : Nat) : Nat := g.addr + r * g.stride + c * g.size
/-- Local address of the 256-byte row of element row `m` in tile column `c`. -/
def Grid.row (g : Grid) (m c : Nat) : Nat :=
  g.tile (m / rowsPerTile g.fmt g.size) c + 256 * (m % rowsPerTile g.fmt g.size)
/-- Local address of the scales of that row. -/
def Grid.scales (g : Grid) (m c : Nat) : Nat :=
  g.tile (m / rowsPerTile g.fmt g.size) c + 256 * rowsPerTile g.fmt g.size + rowScales g.fmt * (m % rowsPerTile g.fmt g.size)
/-- Every tile of a grid, as local addresses. -/
def Grid.tiles (g : Grid) : List Nat :=
  (List.range g.tileRows).flatMap (fun r => (List.range g.tileCols).map (fun c => g.tile r c))
/-- First byte and length of the extent of R93 item 9. -/
def Grid.span (g : Grid) : Nat × Nat := (g.addr, g.tile (g.tileRows - 1) (g.tileCols - 1) + g.size - g.addr)

/-- Items 6 and 7 of R93 for one grid. -/
def Grid.bad (g : Grid) : Bool :=
  g.addr % g.size != 0 || g.stride % g.size != 0 || (decide (1 < g.tileRows) && decide (g.stride < g.tileCols * g.size))

/-- Item 8 of R93 for one grid. -/
def State.gridPlaced (s : State) (node core : Nat) (g : Grid) : Bool := g.tiles.all (fun a => s.placeOk node core a g.size)

/-- Do any two of a list of extents share a byte (R93 item 9)? -/
def anyOverlap : List (Nat × Nat) → Bool
  | [] => false
  | a :: t => t.any (overlaps a) || anyOverlap t

/-- Elements of a row that the grid holds in tile column `c`. -/
def Grid.inCol (g : Grid) (c : Nat) : Nat := min (perRow g.fmt) (g.cols - c * perRow g.fmt)

/-- Patterns and block scales of the elements of row `m`, in order (scale 0 where the format has none). -/
def State.gridRow (s : State) (node : Nat) (g : Grid) (m : Nat) : List (Nat × Nat) :=
  (List.range g.tileCols).flatMap (fun c =>
    let v := s.word (glob node (g.row m c)) 256
    let sc := if isMx g.fmt then s.word (glob node (g.scales m c)) (rowScales g.fmt) else 0
    (List.range (g.inCol c)).map (fun j => (bits v (j * fmtBits g.fmt) (fmtBits g.fmt), bits sc (8 * (j / 32)) 8)))

/-- Sectors of a grid that hold elements, scales included, as global addresses (R97). -/
def Grid.sectors (g : Grid) (node : Nat) : List Nat :=
  (List.range g.rows).flatMap (fun m => (List.range g.tileCols).flatMap (fun c =>
    glob node (g.row m c) ::
    (if isMx g.fmt then sectorsOf (glob node (g.scales m c)) (cdiv (g.inCol c) 32) else [])))

/-- Local address of an element of a format of whole bytes. -/
def Grid.eltAddr (g : Grid) (m k : Nat) : Nat := g.row m (k / perRow g.fmt) + k % perRow g.fmt * fmtBytes g.fmt

/-! ## Exact-partial grids (R46, R47, R96) -/

/-- A grid of exact partials: local address, stride in bytes, rows and columns of elements. -/
structure PGrid where
  addr : Nat
  stride : Nat
  rows : Nat
  cols : Nat
  deriving DecidableEq, Repr

def PGrid.tileRows (g : PGrid) : Nat := cdiv g.rows 64
def PGrid.tileCols (g : PGrid) : Nat := cdiv g.cols 64
def PGrid.tile (g : PGrid) (r c : Nat) : Nat := g.addr + r * g.stride + c * 65536
def PGrid.tiles (g : PGrid) : List Nat :=
  (List.range g.tileRows).flatMap (fun r => (List.range g.tileCols).map (fun c => g.tile r c))
def PGrid.span (g : PGrid) : Nat × Nat := (g.addr, g.tile (g.tileRows - 1) (g.tileCols - 1) + 65536 - g.addr)
def PGrid.bad (g : PGrid) : Bool :=
  g.addr % 65536 != 0 || g.stride % 65536 != 0 || (decide (1 < g.tileRows) && decide (g.stride < g.tileCols * 65536))
/-- Local address of element (m, n). -/
def PGrid.elt (g : PGrid) (m n : Nat) : Nat := g.tile (m / 64) (n / 64) + 12 * (64 * (m % 64) + n % 64)

def State.pgridPlaced (s : State) (node core : Nat) (g : PGrid) : Bool := g.tiles.all (fun a => s.placeOk node core a 65536)

/-- Sectors of a partial grid that are read: those with elements, and the header. -/
def PGrid.readSectors (g : PGrid) (node : Nat) : List Nat :=
  ((List.range g.rows).flatMap (fun m => (List.range g.tileCols).flatMap (fun c =>
    sectorsOf (glob node (g.elt m (64 * c))) (12 * min 64 (g.cols - 64 * c)))) ++
   g.tiles.map (fun a => glob node (a + 49152))).foldl sinsert []
/-- Sectors of a partial grid that are written: whole tiles. -/
def PGrid.sectors (g : PGrid) (node : Nat) : List Nat := g.tiles.flatMap (fun a => sectorsOf (glob node a) 65536)

/-- Does a tile carry the anchor and K_LOG2 (R48)? -/
def State.headerOk (s : State) (node a : Nat) (anchor : Int) (l : Nat) : Bool :=
  let h := s.word (glob node (a + 49152)) 2
  ((bits h 0 8 : Nat) : Int) == anchor + 112 && bits h 8 5 == l

def State.partialElt (s : State) (node : Nat) (g : PGrid) (m n : Nat) : Acc :=
  Acc.ofWord (s.word (glob node (g.elt m n)) 12)

/-- The bytes of a partial tile (R47): `elt i j` gives the accumulator of each element inside the grid. -/
def partialTile (anchor : Int) (l rows cols : Nat) (elt : Nat → Nat → Acc) : List Byte :=
  let accs := (List.range 64).flatMap (fun i => (List.range 64).map (fun j =>
    if i < rows ∧ j < cols then elt i j else ({} : Acc)))
  accs.flatMap (fun a => leBytes 12 a.word) ++ leBytes 64 (partialHeader anchor l accs) ++ List.replicate 16320 0

/-! ## Scattered writes -/

/-- Group cells in rising order of address into contiguous runs inside one sector. -/
def cellRuns : List (Nat × Byte) → List (Nat × List Byte)
  | [] => []
  | (a, b) :: t =>
    match cellRuns t with
    | (a', bs) :: r => if a' = a + 1 ∧ a' % 256 ≠ 0 then (a, b :: bs) :: r else (a, [b]) :: (a', bs) :: r
    | [] => [(a, [b])]

/-- Write cells (global addresses, each at most once): a sector written whole loses its poison, a part of one keeps it (R79.4). -/
def State.scatter (s : State) (part : Nat) (cells : List (Nat × Byte)) : State :=
  (cellRuns (cells.foldr (fun c t => tset t c.1 c.2) [])).foldl (fun st r => st.writeSector part true r.1 r.2 false) s

/-- The cells of a value of `n` bytes at an address. -/
def valueCells (a n v : Nat) : List (Nat × Byte) := (leBytes n v).zipIdx.map (fun p => (a + p.2, p.1))

/-! ## Plans -/

/-- What an accepted body does on its engine: its work units, the sectors it reads, every sector of its destinations, the value
kept in the resume record, the result field, and the outputs of units `[lo, hi)` with the status conditions they meet. -/
structure Plan where
  units : Nat
  reads : List Nat
  dests : List Nat
  anchor : Option Nat := none
  result : State → Nat := fun _ => 0
  run : Nat → Nat → State → State × List Status
  /-- Working values that the resume record keeps when the command stops after the units below the first argument. -/
  keep : Nat → State → List Nat := fun _ _ => []

/-- A body is refused with a status, or planned. -/
inductive Planned where
  | refused (st : Status)
  | plan (p : Plan)

/-- The statuses that a body which fails its descriptor check or its layout check meets. -/
def faultsOf (descriptor layout : Bool) : List Status :=
  (if descriptor then [.badDescriptor] else []) ++ (if layout then [.badLayout] else [])

/-- A body is checked before its command does anything, and not again when a command that has stopped resumes (DEDUCED, log entry 146). -/
def Cmd.onStart (x : Cmd) (l : List Status) : List Status := if x.unitsDone = 0 then l else []

/-- The command that touches these sectors is refused or planned: DENIED comes first (R426), then BAD_DESCRIPTOR, for the channel sets of
R308 or for its body, then what else its body meets, in the order of R31. -/
def State.guardPlan (s : State) (part : Nat) (p : Plan) (met : List Status := []) : Planned :=
  if s.denied part false (p.reads.map (fun a => ⟨false, a, 256⟩)) (p.dests.map (fun a => ⟨false, a, 256⟩)) then .refused .denied
  else if met.contains .badDescriptor || (p.reads ++ p.dests).any (s.segForeign part) then .refused .badDescriptor
  else match met with
    | [] => .plan p
    | a :: t => .refused (t.foldl Status.first a)

/-- Where the resume record of an engine instance lies (R304). Log entry 12 (DEDUCED). -/
def State.resumeRecord (s : State) (x : Cmd) : Nat := glob x.node (s.saveArea x.ctx + 0x2800000 + 4096 * x.inst)

/-- Stop a command at a preemption point (R301, R304): its resume record, whose layout the spec leaves to the device, is written,
where its partition may write there (R308, log entry 152). -/
def State.stopCmd (s : State) (x : Cmd) : State :=
  let a := s.resumeRecord x
  let s1 := if s.segForeign (s.ctxPart x.ctx) a then s
    else ({ s with freeCount := s.freeCount + 1 } : State).writeRun (s.ctxPart x.ctx) false a (freeBytes s.freeCount a 4096)
  let s2 := s1.setCmd { x with phase := .stopped }
  { s2 with sched := { s2.sched with busy := s2.sched.busy.filter (fun e => e.2 != x.key) } }

/-- Poison every sector of a list (R79.3). -/
def State.poisonAll (s : State) (l : List Nat) : State := l.foldl (fun st a => st.setPoison (st.place a) true) s

/-- Add conditions to those met, each once. -/
def addMet (l new : List Status) : List Status := new.foldl (fun a x => if a.contains x then a else a ++ [x]) l

/-- Run a planned command up to unit `hi`: it finishes there, or stops. -/
def State.runPlan (s : State) (x : Cmd) (p : Plan) (hi : Nat) (errs : ReadErrs) : State :=
  let r := s.readSectors (s.ctxPart x.ctx) true errs p.reads
  let q := p.run x.unitsDone hi r.st
  let met := addMet x.met (q.2 ++ (if r.lost then [.tileUncorrectable] else []) ++ (if r.poison then [.poisonedInput] else []))
  let s1 := if met.contains .tileUncorrectable || met.contains .poisonedInput then q.1.poisonAll p.dests else q.1
  if p.units ≤ hi then s1.finish { x with met := met, unitsDone := p.units } (pickStatus met) (p.result q.1)
  else s1.stopCmd { x with met := met, unitsDone := hi, anchor := p.anchor, saved := p.keep hi r.st, result := p.result q.1 }

/-- The result field of a command whose body is refused: of a query or sampler command, which has been started, its epoch (R211, R232); of
every other, of a matrix command too, 0 (DESIGN CHOICE, log entry 30). -/
def Cmd.refusedResult (x : Cmd) : Nat := if x.engine = 7 || x.engine = 8 then x.anchor.getD 0 else 0

/-- Carry an engine command to its end: a refused body finishes with its status, writes nothing and counts no cycles. -/
def State.runToEnd (s : State) (x : Cmd) (pl : Planned) (errs : ReadErrs) : State :=
  match pl with
  | .refused st => (if st = .denied then s.countRefusal else s).finish x st x.refusedResult
  | .plan p => s.runPlan x p p.units errs

/-- The command that an engine instance executes, if its engine has begun it and not finished. -/
def State.executing (s : State) (node inst : Nat) : Option Cmd :=
  match s.running node inst with
  | some x => if x.phase == .running then some x else none
  | none => none

end Sys2Proof.Machine
end

