-- ==== Sys2Proof/Machine/Matrix.lean ====
section
/-! DEFINITION. Chapter 4: the matrix engine, its descriptor, dataflows, cycle counts and anchor (R85 to R104). -/

namespace Sys2Proof.Machine

open Reg Host

/-! ## The descriptor (R91) -/

/-- A matrix descriptor body, with the fields that MATMUL and WINDOW share. -/
structure MBody where
  raw : Nat
  deriving DecidableEq, Repr

def MBody.op (b : MBody) : Nat := bits b.raw 0 4
def MBody.flow (b : MBody) : Nat := bits b.raw 4 2
def MBody.tsA (b : MBody) : Nat := bits b.raw 8 2
def MBody.tsB (b : MBody) : Nat := bits b.raw 10 2
def MBody.tsC (b : MBody) : Nat := bits b.raw 12 2
def MBody.layA (b : MBody) : Nat := bits b.raw 16 3
def MBody.layB (b : MBody) : Nat := bits b.raw 19 3
def MBody.layC (b : MBody) : Nat := bits b.raw 22 3
def MBody.m (b : MBody) : Nat := bits b.raw 32 16 + 1
def MBody.n (b : MBody) : Nat := bits b.raw 48 16 + 1
def MBody.k (b : MBody) : Nat := bits b.raw 64 20 + 1
def MBody.acw (b : MBody) : Acw := ⟨bits b.raw 96 64⟩
def MBody.aAddr (b : MBody) : Nat := bits b.raw 160 28
def MBody.bAddr (b : MBody) : Nat := bits b.raw 192 28
def MBody.cAddr (b : MBody) : Nat := bits b.raw 224 28
def MBody.pAddr (b : MBody) : Nat := bits b.raw 256 28
def MBody.aStride (b : MBody) : Nat := bits b.raw 288 20
def MBody.bStride (b : MBody) : Nat := bits b.raw 308 20
def MBody.cStride (b : MBody) : Nat := bits b.raw 328 20
def MBody.pStride (b : MBody) : Nat := bits b.raw 348 20

/-- Reserved bits and values of the shared fields (R93 item 1). -/
def MBody.reserved (b : MBody) : Bool :=
  decide (1 < b.op) || b.flow == 3 || b.tsA == 3 || b.tsB == 3 || b.tsC == 3 ||
  bits b.raw 6 2 != 0 || bits b.raw 14 2 != 0 || bits b.raw 25 7 != 0 || bits b.raw 84 12 != 0 ||
  bits b.raw 188 4 != 0 || bits b.raw 220 4 != 0 || bits b.raw 252 4 != 0 || bits b.raw 284 4 != 0

def MBody.gridA (b : MBody) : Grid := ⟨b.acw.fmtA, tileSize b.tsA, 4096 * b.aAddr, 4096 * b.aStride, b.m, b.k⟩
def MBody.gridB (b : MBody) : Grid := ⟨b.acw.fmtB, tileSize b.tsB, 4096 * b.bAddr, 4096 * b.bStride, b.n, b.k⟩
def MBody.gridC (b : MBody) : Grid := ⟨b.acw.fmtOut, tileSize b.tsC, 4096 * b.cAddr, 4096 * b.cStride, b.m, b.n⟩
def MBody.gridP (b : MBody) : PGrid := ⟨4096 * b.pAddr, 4096 * b.pStride, b.m, b.n⟩

/-- Is a rounded output written, is a partial written, is any partial used (R36)? -/
def Acw.rounded (w : Acw) : Bool := w.outKind != 1
def Acw.exports (w : Acw) : Bool := w.outKind == 1 || w.outKind == 2
def Acw.partials (w : Acw) : Bool := w.exports || w.accIn

/-! ## Gangs and timing (R35, R85, R98, R99) -/

/-- Gang side a format needs (R35). -/
def gangOf (f : Nat) : Nat := if f = 0xA then 4 else if f = 1 || f = 8 || f = 9 then 2 else 1

/-- Has the format an exponent pre-scan? -/
def preScan (f : Nat) : Bool := f == 9 || f == 0xA

/-- Terms of a cycle count: chunks, blocks, rows of a chunk, cycles of a unit, and the closing P + X. -/
structure Timing where
  nM : Nat
  nN : Nat
  mc : Nat
  s : Nat
  x : Nat
  p : Nat
  cpre : Nat
  deriving DecidableEq, Repr

def Timing.unit (t : Timing) : Nat := max t.s t.x
def Timing.total (t : Timing) : Nat := t.cpre + t.nM * t.nN * t.unit + t.p + t.x

/-- Bytes through the bank port per output element (R99). -/
def portBytes (w : Acw) : Nat :=
  (if w.rounded then fmtBytes w.fmtOut else 0) + (if w.exports then 12 else 0) + (if w.accIn then 12 else 0)

/-- Load time of a full block of B (R87). -/
def loadTime (fmtB ka na : Nat) : Nat :=
  cdiv (ka * na * fmtBits fmtB / 8 + (if isMx fmtB then na * (ka / 32) else 0)) 2048

/-- Cycles of the pre-pass (R98). -/
def prePass (w : Acw) (m n k : Nat) (pass : Nat) : Nat :=
  if w.anchorMode = 1 then 0 else
    let bs := (if isMx w.fmtA then m * k / 32 else 0) + (if isMx w.fmtB then n * k / 32 else 0)
    cdiv bs 2048 + (if preScan w.fmtA || preScan w.fmtB then cdiv pass 8 else 0)

/-- Timing in a dataflow (R99). Log entry 122 (DEDUCED). -/
def MBody.timing (b : MBody) (os : Bool) : Timing :=
  let w := b.acw
  let g := max (gangOf w.fmtA) (gangOf w.fmtB)
  let ka := 512 / g
  let na := 512 / g
  let nN := cdiv b.n na
  let port := cdiv (na * portBytes w) 2048
  let nM := if os then cdiv b.m na else cdiv b.m (512 * g)
  let mc := if os then na else cdiv b.m nM
  let s := if os then b.k else cdiv b.k ka * max mc (loadTime w.fmtB ka na)
  ⟨nM, nN, mc, s, mc * port, (if os then na else ka) + na + 24, prePass w b.m b.n b.k (nM * nN * s)⟩

/-- Does the command run output-stationary (R89)? -/
def MBody.useOs (b : MBody) : Bool :=
  b.flow == 1 || (b.flow == 2 && decide ((b.timing true).total < (b.timing false).total))

/-! ## Anchors and sums -/

/-- Is a pair of elements a candidate, and its bound exponent (R38). -/
def pairBound (p : Elt × Elt) : Option Int := if p.1.cand && p.2.cand then some (p.1.e + p.2.e) else none

/-- Add the products of a list of pairs to an accumulator (R34, R40, R41). -/
def sumPairs (A : Int) (L : Nat) (init : Acc) (l : List (Elt × Elt)) : Acc :=
  l.foldl (fun acc p => acc.addProduct A L (mulElt p.1 p.2)) init

/-- Elements of row `m` of an operand grid. -/
def State.rowElts (s : State) (node : Nat) (g : Grid) (ts m : Nat) : List Elt :=
  (s.gridRow node g m).map (fun p => mkElt g.fmt p.1 ts p.2)

/-- The pairs of output element (m, n) of a MATMUL. -/
def State.matPairs (s : State) (node : Nat) (b : MBody) (m n : Nat) : List (Elt × Elt) :=
  (s.rowElts node b.gridA b.acw.tscaleA m).zip (s.rowElts node b.gridB b.acw.tscaleB n)

/-- Every (m, n) of a shape. -/
def indexPairs (m n : Nat) : List (Nat × Nat) := (List.range m).flatMap (fun i => (List.range n).map (fun j => (i, j)))

/-- The anchor over the pairs of every output element (R38). A command with no pair at all has the anchor −112, in formats 0x0 to 0x4 too
(DESIGN CHOICE, log entry 138). -/
def anchorOver (m n l : Nat) (pairs : Nat → Nat → List (Elt × Elt)) : Int :=
  anchorOf ((indexPairs m n).foldl (fun a p => (pairs p.1 p.2).foldl (fun a' q => omax a' (pairBound q)) a) none) l

/-- The anchor of a command: kept from before a preemption, supplied, or computed (R38, R39, R104). -/
def chooseAnchor (kept : Option Nat) (w : Acw) (computed : Int) : Int :=
  if w.anchorMode = 1 then w.anchor else
    match kept with
    | some a => (a : Int) - 112
    | none => computed

/-! ## Outputs -/

/-- The outputs of the elements of a unit: each element of an MT output grid, and the saturation condition (R43 to R45).
Log entry 11 (DEDUCED). -/
def roundedCells (node : Nat) (addr : Nat → Nat → Nat) (w : Acw) (A : Int) (elts : List (Nat × Nat)) (acc : Nat → Nat → Acc) :
    List (Nat × Byte) × Bool :=
  elts.foldr (fun p (q : List (Nat × Byte) × Bool) =>
    let d := (acc p.1 p.2).deliver w.fmtOut w.round w.satInf A w.outScale
    (valueCells (glob node (addr p.1 p.2)) (fmtBytes w.fmtOut) d.1 ++ q.1, q.2 || d.2)) ([], false)

/-- Write the partial tiles that a unit's elements touch: elements outside the unit keep what the tile holds (R47, R97). -/
def State.exportTiles (s : State) (part node : Nat) (g : PGrid) (A : Int) (l : Nat) (elts : List (Nat × Nat))
    (acc : Nat → Nat → Acc) : State :=
  let touched := (indexPairs g.tileRows g.tileCols).filter (fun t => elts.any (fun p => p.1 / 64 == t.1 && p.2 / 64 == t.2))
  touched.foldl (fun st t =>
    let elt (i j : Nat) : Acc :=
      let m := 64 * t.1 + i
      let n := 64 * t.2 + j
      if elts.contains (m, n) then acc m n else s.partialElt node g m n
    st.writeRun part true (glob node (g.tile t.1 t.2)) (partialTile A l (g.rows - 64 * t.1) (g.cols - 64 * t.2) elt)) s

/-- Write the outputs of one unit of a dot-product command (R43 to R47). The flag is the condition of OK_SATURATED: a rounded output that
saturates, or an element delivered as OVERRANGE, rounded or in an exact partial (R45, R103). -/
def State.writeUnit (s : State) (part node : Nat) (w : Acw) (A : Int) (addr : Nat → Nat → Nat) (pg : PGrid)
    (elts : List (Nat × Nat)) (acc : Nat → Nat → Acc) : State × Bool :=
  let r := if w.rounded then roundedCells node addr w A elts acc else ([], false)
  let s1 := s.scatter part r.1
  (if w.exports then s1.exportTiles part node pg A w.kLog2 elts acc else s1,
   r.2 || (w.exports && elts.any (fun p => (acc p.1 p.2).sp == .overrange)))

/-- The elements of unit `u`: chunk `u / nN`, block `u % nN` (the order of units is the model's, DESIGN CHOICE, log entry 22). -/
def unitElts (t : Timing) (na m n u : Nat) : List (Nat × Nat) :=
  let i := u / t.nN
  let j := u % t.nN
  (List.range (min t.mc (m - i * t.mc))).flatMap (fun a => (List.range (min na (n - j * na))).map (fun c => (i * t.mc + a, j * na + c)))

/-! ## Counters (R100, R101) -/

/-- Issue cycles that the cap allows per 64 (R100). -/
def State.effectiveCap (s : State) (node : Nat) : Nat :=
  min (s.getO ONX_M_ISSUECAP.LOOP_CAP node 0) (s.getO ONX_M_ISSUECAP.SW_CAP node 0)

/-- Cycles that `c` issue cycles take when each window of 64 begins with the cycles allowed (R101, DEDUCED, log entry 23). -/
def cappedCycles (cap c : Nat) : Nat := if cap = 0 || c = 0 then c else (c - 1) / cap * 64 + (c - 1) % cap + 1

/-- Count a run of the matrix engine: products, cycles and withheld cycles. Log entry 16 (DEDUCED). -/
def State.countMatrix (s : State) (node products cycles : Nat) : State :=
  let total := cappedCycles (s.effectiveCap node) cycles
  let add (f : Fld) (v : Nat) (st : State) : State := st.setO f node 0 (st.getO f node 0 + v)
  add ONX_M_CAPCNT.COUNT (total - cycles) (add ONX_M_ACTCNT.COUNT total (add ONX_M_MACCNT.COUNT products s))

/-- Cycles of units `[lo, hi)` of a command (R99, R104). A run that a preemption point ends drains as well, so that its P + X count, and
those of the run that resumes count again; Cpre counts once (DESIGN CHOICE, log entry 140). -/
def Timing.span (t : Timing) (lo hi : Nat) : Nat :=
  (if lo = 0 then t.cpre else 0) + (hi - lo) * t.unit + t.p + t.x

/-! ## MATMUL and SCAN_ONLY -/

/-- Item 4 of R93 (the stride fields only where the body has them). -/
def MBody.unusedBad (b : MBody) (strides : Bool) : Bool :=
  (b.acw.outKind == 1 && (b.tsC != 0 || b.cAddr != 0 || (strides && b.cStride != 0))) ||
  (b.acw.outKind == 0 && !b.acw.accIn && (b.pAddr != 0 || (strides && b.pStride != 0)))

/-- The grids that a MATMUL uses for its output. -/
def MBody.outSpans (b : MBody) : List (Nat × Nat) :=
  (if b.acw.rounded then [b.gridC.span] else []) ++ (if b.acw.partials then [b.gridP.span] else [])

/-- BAD_DESCRIPTOR under R93. -/
def State.matmulBad (s : State) (node : Nat) (b : MBody) : Bool :=
  let w := b.acw
  b.reserved || bits b.raw 368 16 != 0 || w.bad b.k || (w.outKind == 0 && w.accIn) || b.unusedBad true ||
  ((isMx w.fmtA || isMx w.fmtB) && b.k % 32 != 0) ||
  b.gridA.bad || b.gridB.bad || (w.rounded && b.gridC.bad) || (w.partials && b.gridP.bad) ||
  !s.gridPlaced node 0 b.gridA || !s.gridPlaced node 0 b.gridB || (w.rounded && !s.gridPlaced node 0 b.gridC) ||
  (w.partials && !s.pgridPlaced node 0 b.gridP) || anyOverlap ([b.gridA.span, b.gridB.span] ++ b.outSpans)

/-- Do the imported tiles fail the header check (R48, R94)? -/
def State.importBad (s : State) (node : Nat) (w : Acw) (g : PGrid) : Bool :=
  w.accIn && !(g.tiles.all (fun a => s.headerOk node a w.anchor w.kLog2))

/-- BAD_LAYOUT under R94 for MATMUL. -/
def State.matmulLayoutBad (s : State) (node : Nat) (b : MBody) : Bool :=
  b.layA != 0 || b.layB != 0 || b.layC != 0 || s.importBad node b.acw b.gridP

/-- Sectors that the anchor alone reads of an operand (R38, R39). -/
def scanSectors (node : Nat) (g : Grid) : List Nat :=
  if isMx g.fmt then
    (List.range g.rows).flatMap (fun m => (List.range g.tileCols).flatMap (fun c =>
      sectorsOf (glob node (g.scales m c)) (cdiv (g.inCol c) 32)))
  else if preScan g.fmt then g.sectors node else []

/-- The result field of a matrix command (R95). -/
def matResult (A : Int) (os : Bool) : Nat := (A + 112).toNat + (if os then 256 else 0)

/-- The plan of a MATMUL or SCAN_ONLY body (R91 to R104). A SCAN_ONLY command leaves MX_FLOW as it was (DESIGN CHOICE, log entry 139). -/
def State.matmulPlan (s : State) (node : Nat) (x : Cmd) : Plan :=
  let b : MBody := ⟨x.body⟩
  let w := b.acw
  let part := s.ctxPart x.ctx
  let os := b.useOs
  let t := b.timing os
  let na := 512 / max (gangOf w.fmtA) (gangOf w.fmtB)
  let A := chooseAnchor x.anchor w (anchorOver b.m b.n w.kLog2 (s.matPairs node b))
  if w.anchorMode = 2 then
      { units := 1, reads := (scanSectors node b.gridA ++ scanSectors node b.gridB).foldl sinsert [], dests := [],
        result := fun _ => matResult A false, run := fun _ _ st => (st.countMatrix node 0 (t.cpre + 64), []) }
  else
      { units := t.nM * t.nN
        reads := (b.gridA.sectors node ++ b.gridB.sectors node ++ (if w.accIn then b.gridP.readSectors node else [])).foldl sinsert []
        dests := ((if w.rounded then b.gridC.sectors node else []) ++ (if w.exports then b.gridP.sectors node else [])).foldl sinsert []
        anchor := some (A + 112).toNat
        result := fun _ => matResult A os
        run := fun lo hi st =>
          let q := (List.range (hi - lo)).foldl (fun (q : State × Bool) i =>
            let elts := unitElts t na b.m b.n (lo + i)
            let acc (m n : Nat) : Acc :=
              let own := sumPairs A w.kLog2 {} (q.1.matPairs node b m n)
              if w.accIn then own.addPartial (q.1.partialElt node b.gridP m n) else own
            let r := q.1.writeUnit part node w A b.gridC.eltAddr b.gridP elts acc
            (r.1, q.2 || r.2)) (st, false)
          let products := ((List.range (hi - lo)).map (fun i => (unitElts t na b.m b.n (lo + i)).length * b.k)).sum
          ((q.1.setO ONX_M_STATUS.MX_FLOW node 0 (b2n os)).countMatrix node products (t.span lo hi),
           if q.2 then [.okSaturated] else []) }

/-- What the body of a MATMUL or SCAN_ONLY meets as it starts (R93, R94). -/
def State.matmulFaults (s : State) (node : Nat) (x : Cmd) : List Status :=
  x.onStart (faultsOf (s.matmulBad node ⟨x.body⟩) (s.matmulLayoutBad node ⟨x.body⟩))

/-- Plan a MATMUL or SCAN_ONLY body; R31 puts DENIED before what else its body meets. -/
def State.planMatmul (s : State) (node : Nat) (x : Cmd) : Planned :=
  s.guardPlan (s.ctxPart x.ctx) (s.matmulPlan node x) (s.matmulFaults node x)

/-- Run the matrix command on a node where its body satisfies `is`. Log entry 66 (DEDUCED). -/
def State.matrixCommand (s : State) (is : MBody → Bool) (plan : State → Nat → Cmd → Planned) (node : Nat) (errs : ReadErrs) :
    State :=
  match s.executing node 0 with
  | some x => if is ⟨x.body⟩ then s.runToEnd x (plan s node x) errs else s
  | none => s

/-- MATMUL (R91 to R104). A reserved OP is refused here. -/
def execMatmul (node : Nat) (errs : ReadErrs) (s : State) : Outcome State Fault Refusal := s.onClock <|
  .next (s.matrixCommand (fun b => b.op != 1 && b.acw.anchorMode != 2) State.planMatmul node errs)

/-- SCAN_ONLY (R39, R95, R98). -/
def execScanOnly (node : Nat) (errs : ReadErrs) (s : State) : Outcome State Fault Refusal := s.onClock <|
  .next (s.matrixCommand (fun b => b.op != 1 && b.acw.anchorMode == 2) State.planMatmul node errs)

/-- ISSUECAP_WRITE (R100, R102): SW_CAP is object 0x5800, which MAINT and HOST write. This is the write as its slot decides it (log entry
59); one that reaches the register for another role is refused with DENIED. -/
def execIssuecapWrite (src : Src) (node val : Nat) (s : State) : Outcome State Fault Refusal := s.onClock <|
  let v := bits val 8 7
  if 4 ≤ node then .next s
  else if !s.objWrites src node 1 0 then .next (s.objTurned src node 1 0)
  else if v = 0 || 64 < v then .next s
  else .next (s.setO ONX_M_ISSUECAP.SW_CAP node 0 v)

end Sys2Proof.Machine
end

