-- ==== Sys2Proof/Machine/Vector.lean ====
section
/-! DEFINITION. Chapter 4: the vector unit (R105 to R111). -/

namespace Sys2Proof.Machine

open Reg Host

/-- A vector descriptor body (R105). -/
structure VBody where
  raw : Nat
  deriving DecidableEq, Repr

def VBody.vop (b : VBody) : Nat := bits b.raw 0 6
def VBody.ts (b : VBody) : Nat := bits b.raw 6 2
def VBody.fx (b : VBody) : Nat := bits b.raw 8 4
def VBody.fy (b : VBody) : Nat := bits b.raw 12 4
def VBody.fz (b : VBody) : Nat := bits b.raw 16 4
def VBody.round (b : VBody) : Nat := bits b.raw 20 2
def VBody.satInf (b : VBody) : Bool := bit b.raw 22
def VBody.yBcast (b : VBody) : Bool := bit b.raw 23
def VBody.func (b : VBody) : Nat := bits b.raw 24 8
def VBody.rows (b : VBody) : Nat := bits b.raw 32 16 + 1
def VBody.cols (b : VBody) : Nat := bits b.raw 48 20 + 1
def VBody.xAddr (b : VBody) : Nat := bits b.raw 96 28
def VBody.yAddr (b : VBody) : Nat := bits b.raw 128 28
def VBody.zAddr (b : VBody) : Nat := bits b.raw 160 28
def VBody.xStride (b : VBody) : Nat := bits b.raw 192 20
def VBody.yStride (b : VBody) : Nat := bits b.raw 212 20
def VBody.zStride (b : VBody) : Nat := bits b.raw 232 20
def VBody.alpha (b : VBody) : Nat := bits b.raw 256 32
def VBody.beta (b : VBody) : Nat := bits b.raw 288 32
def VBody.outScale (b : VBody) : Nat := bits b.raw 320 8

/-- Operation codes of R106. -/
def vopValid (v : Nat) : Bool := decide (v ≤ 0x06) || (decide (0x08 ≤ v) && decide (v ≤ 0x0C)) || v == 0x10 || v == 0x11
/-- Operations that read Y. -/
def vopReadsY (v : Nat) : Bool := decide (v ≤ 0x04) || v == 0x0B || v == 0x0C || v == 0x10
/-- Row reductions with one output column. -/
def VBody.oneCol (b : VBody) : Bool := b.vop == 0x08 || b.vop == 0x09
/-- Exact-partial operations. -/
def VBody.exact (b : VBody) : Bool := b.vop == 0x10 || b.vop == 0x11

def VBody.gridX (b : VBody) : Grid := ⟨b.fx, tileSize b.ts, 4096 * b.xAddr, 4096 * b.xStride, b.rows, b.cols⟩
def VBody.gridY (b : VBody) : Grid :=
  ⟨b.fy, tileSize b.ts, 4096 * b.yAddr, 4096 * b.yStride, if b.yBcast then 1 else b.rows, b.cols⟩
def VBody.gridZ (b : VBody) : Grid :=
  ⟨b.fz, tileSize b.ts, 4096 * b.zAddr, 4096 * b.zStride, b.rows, if b.oneCol then 1 else b.cols⟩
def VBody.partX (b : VBody) : PGrid := ⟨4096 * b.xAddr, 4096 * b.xStride, b.rows, b.cols⟩
def VBody.partY (b : VBody) : PGrid := ⟨4096 * b.yAddr, 4096 * b.yStride, if b.yBcast then 1 else b.rows, b.cols⟩
def VBody.partZ (b : VBody) : PGrid := ⟨4096 * b.zAddr, 4096 * b.zStride, b.rows, b.cols⟩

/-- Formats of vector operands (R105). -/
def vecFmt (f : Nat) : Bool := outputFmt f

/-- Fields with a wrong or reserved value (R110). Under PROUND, TSIZE is Z's tile size and need not be 2 (R106, DESIGN CHOICE, log entry 141).
FMT_Y of an operation that reads no Y is held to R105's list, PROUND's too; Y_STRIDE of such an operation is not looked at (DESIGN CHOICE,
log entry 142). -/
def VBody.fieldBad (b : VBody) : Bool :=
  !vopValid b.vop || b.ts == 3 || decide (7 < b.func) || bits b.raw 68 28 != 0 || bits b.raw 124 4 != 0 ||
  bits b.raw 156 4 != 0 || bits b.raw 188 4 != 0 || bits b.raw 252 4 != 0 || bits b.raw 328 56 != 0 ||
  (!vopReadsY b.vop && b.yAddr != 0) || (b.vop != 0x11 && b.outScale != 0) ||
  (if b.vop = 0x10 then b.fx != 0 || b.fy != 0 || b.fz != 0 || b.alpha != 0 || b.beta != 0
   else if b.vop = 0x11 then b.fx != 0 || !vecFmt b.fy || !vecFmt b.fz
   else !vecFmt b.fx || !vecFmt b.fy || !vecFmt b.fz)

/-- BAD_DESCRIPTOR of a vector command (R93 items 6 to 9, R110). -/
def State.vectorBad (s : State) (node : Nat) (b : VBody) : Bool :=
  b.fieldBad ||
  (if b.vop = 0x10 then
    b.partX.bad || b.partY.bad || b.partZ.bad || !s.pgridPlaced node 0 b.partX || !s.pgridPlaced node 0 b.partY ||
    !s.pgridPlaced node 0 b.partZ || anyOverlap [b.partX.span, b.partY.span, b.partZ.span]
   else if b.vop = 0x11 then
    b.partX.bad || b.gridZ.bad || !s.pgridPlaced node 0 b.partX || !s.gridPlaced node 0 b.gridZ ||
    anyOverlap [b.partX.span, b.gridZ.span]
   else
    b.gridX.bad || (vopReadsY b.vop && b.gridY.bad) || b.gridZ.bad || !s.gridPlaced node 0 b.gridX ||
    (vopReadsY b.vop && !s.gridPlaced node 0 b.gridY) || !s.gridPlaced node 0 b.gridZ ||
    anyOverlap ([b.gridX.span, b.gridZ.span] ++ (if vopReadsY b.vop then [b.gridY.span] else [])))

/-- Anchor and K_LOG2 that the header of a partial tile carries (R47). -/
def State.tileHeader (s : State) (node a : Nat) : Nat := s.word (glob node (a + 49152)) 64

/-- BAD_LAYOUT of PADD and PROUND: under PADD a tile size that R58 does not permit to exact partials, a header with a reserved bit or
value, or tiles that differ in ANCHOR or K_LOG2 (R47, R48, R58, R110, DEDUCED, log entry 25). -/
def State.partialsBad (s : State) (node : Nat) (b : VBody) : Bool :=
  let h0 := s.tileHeader node (b.partX.tile 0 0)
  (b.vop == 0x10 && b.ts != 2) ||
  b.exact && ((b.partX.tiles ++ (if b.vop = 0x10 then b.partY.tiles else [])).any (fun a =>
    let h := s.tileHeader node a
    bits h 0 13 != bits h0 0 13 || bits h 13 3 != 0 || bits h 18 494 != 0 || decide (20 < bits h 8 5)))

/-! ## Rows (R106) -/

/-- The fp32 patterns of a row of an operand. -/
def State.vecRow (s : State) (node : Nat) (g : Grid) (m : Nat) : List Nat :=
  (s.gridRow node g m).map (fun p => f32 (decodeElt g.fmt p.1))

/-- The fp32 results of a row, each operation rounded in the order the formula is written (DEDUCED, log entry 26). -/
def vectorRow (vop func al be : Nat) (xs ys zs : List Nat) : List Nat :=
  let n := f32ofInt xs.length
  match vop with
  | 0x00 => xs.zipWith (fun x y => f32add (f32mul al x) (f32mul be y)) ys
  | 0x01 => xs.zipWith (fun x y => f32mul (f32mul al x) y) ys
  | 0x02 => (xs.zipWith (fun x y => f32mul (f32mul al x) y) ys).zipWith (fun p z => f32add p (f32mul be z)) zs
  | 0x03 => xs.zipWith f32max ys
  | 0x04 => xs.zipWith f32min ys
  | 0x05 => xs
  | 0x06 => xs.map (fun x => actFunc func (f32add (f32mul al x) be))
  | 0x08 => [treeSum xs]
  | 0x09 => [treeMax xs]
  | 0x0A =>
    let t := xs.map (f32mul al)
    let m := treeMax t
    let e := t.map (fun v => actExp (f32sub v m))
    let sum := treeSum e
    e.map (fun v => f32div v sum)
  | 0x0B =>
    let r := actRsqrt (f32add (f32div (treeSum (xs.map (fun x => f32mul x x))) n) be)
    xs.zipWith (fun x y => f32mul (f32mul x y) r) ys
  | _ =>
    let mu := f32div (treeSum xs) n
    let d := xs.map (fun x => f32sub x mu)
    let r := actRsqrt (f32add (f32div (treeSum (d.map (fun x => f32mul x x))) n) be)
    d.zipWith (fun x y => f32mul (f32mul x y) r) ys

/-- Cells and saturation of a row of Z from fp32 patterns. -/
def zCells (node : Nat) (b : VBody) (m : Nat) (vals : List Nat) : List (Nat × Byte) × Bool :=
  (vals.zipIdx).foldr (fun p (q : List (Nat × Byte) × Bool) =>
    let d := deliverNum b.fz b.round b.satInf (f32num p.1)
    (valueCells (glob node (b.gridZ.eltAddr m p.2)) (fmtBytes b.fz) d.1 ++ q.1, q.2 || d.2)) ([], false)

/-- One row of an elementwise, reduction or normalisation operation. -/
def State.vectorOneRow (s : State) (part node : Nat) (b : VBody) (m : Nat) : State × Bool :=
  let xs := s.vecRow node b.gridX m
  let ys := if vopReadsY b.vop then s.vecRow node b.gridY (if b.yBcast then 0 else m) else []
  let zs := if b.vop = 0x02 then s.vecRow node b.gridZ m else []
  let r := zCells node b m (vectorRow b.vop b.func b.alpha b.beta xs ys zs)
  (s.scatter part r.1, r.2)

/-- One row of PROUND. -/
def State.proundRow (s : State) (part node : Nat) (b : VBody) (m : Nat) : State × Bool :=
  let A : Int := (bits (s.tileHeader node (b.partX.tile 0 0)) 0 8 : Nat) - (112 : Int)
  let r := (List.range b.cols).foldr (fun n (q : List (Nat × Byte) × Bool) =>
    let d := (s.partialElt node b.partX m n).deliver b.fz b.round b.satInf A (sx 8 b.outScale)
    (valueCells (glob node (b.gridZ.eltAddr m n)) (fmtBytes b.fz) d.1 ++ q.1, q.2 || d.2)) ([], false)
  (s.scatter part r.1, r.2)

/-- Element (m, n) of the sum that PADD forms; under Y_BCAST the one row of Y meets every row (R48, R105). -/
def State.paddElt (s : State) (node : Nat) (b : VBody) (m n : Nat) : Acc :=
  (s.partialElt node b.partX m n).addPartial (s.partialElt node b.partY (if b.yBcast then 0 else m) n)

/-- One tile row of PADD (R48). -/
def State.paddTileRow (s : State) (part node : Nat) (b : VBody) (r : Nat) : State :=
  let h := s.tileHeader node (b.partX.tile 0 0)
  let A : Int := (bits h 0 8 : Nat) - (112 : Int)
  (List.range b.partZ.tileCols).foldl (fun st c =>
    st.writeRun part true (glob node (b.partZ.tile r c))
      (partialTile A (bits h 8 5) (b.rows - 64 * r) (b.cols - 64 * c) (fun i j =>
        s.paddElt node b (64 * r + i) (64 * c + j)))) s

/-- Unit `u` of a vector command: 64 rows (R111). The flag is the condition of R45 applied to Z: under PADD an element delivered as
OVERRANGE. -/
def State.vectorUnit (s : State) (part node : Nat) (b : VBody) (u : Nat) : State × Bool :=
  if b.vop = 0x10 then
    (s.paddTileRow part node b u,
     (indexPairs (min 64 (b.rows - 64 * u)) b.cols).any (fun p => (s.paddElt node b (64 * u + p.1) p.2).sp == .overrange)) else
    (List.range (min 64 (b.rows - 64 * u))).foldl (fun (q : State × Bool) i =>
      let r := if b.vop = 0x11 then q.1.proundRow part node b (64 * u + i) else q.1.vectorOneRow part node b (64 * u + i)
      (r.1, q.2 || r.2)) (s, false)

/-- The plan of a vector body (R105 to R111). -/
def State.vectorPlan (s : State) (node : Nat) (x : Cmd) : Plan :=
  let b : VBody := ⟨x.body⟩
  let part := s.ctxPart x.ctx
  let reads := if b.exact then b.partX.readSectors node ++ (if b.vop = 0x10 then b.partY.readSectors node else [])
    else b.gridX.sectors node ++ (if vopReadsY b.vop then b.gridY.sectors node else []) ++
      (if b.vop = 0x02 then b.gridZ.sectors node else [])
  { units := cdiv b.rows 64
    reads := reads.foldl sinsert []
    dests := if b.vop = 0x10 then b.partZ.sectors node else b.gridZ.sectors node
    run := fun lo hi st =>
      let q := (List.range (hi - lo)).foldl (fun (q : State × Bool) i =>
        let r := q.1.vectorUnit part node b (lo + i)
        (r.1, q.2 || r.2)) (st, false)
      (q.1, if q.2 then [.okSaturated] else []) }

/-- What a vector body meets as it starts (R109, R110). -/
def State.vectorFaults (s : State) (node : Nat) (x : Cmd) : List Status :=
  x.onStart (faultsOf (s.vectorBad node ⟨x.body⟩) (s.partialsBad node ⟨x.body⟩))

/-- Plan a vector body; R31 puts DENIED before what else its body meets. -/
def State.planVector (s : State) (node : Nat) (x : Cmd) : Planned :=
  s.guardPlan (s.ctxPart x.ctx) (s.vectorPlan node x) (s.vectorFaults node x)

/-- Run the vector command of a node where its operation satisfies `is`. -/
def State.vectorCommand (s : State) (is : Nat → Bool) (node : Nat) (errs : ReadErrs) : State :=
  match s.executing node 1 with
  | some x => if is (VBody.vop ⟨x.body⟩) then s.runToEnd x (s.planVector node x) errs else s
  | none => s

/-- ADD (R106). A reserved operation is refused here. -/
def execAdd (node : Nat) (errs : ReadErrs) (s : State) : Outcome State Fault Refusal := s.onClock <|
  .next (s.vectorCommand (fun v => v == 0x00 || !vopValid v) node errs)
/-- MUL (R106). -/
def execMul (node : Nat) (errs : ReadErrs) (s : State) : Outcome State Fault Refusal := s.onClock <|
  .next (s.vectorCommand (fun v => v == 0x01) node errs)
/-- FMA (R106). -/
def execFma (node : Nat) (errs : ReadErrs) (s : State) : Outcome State Fault Refusal := s.onClock <|
  .next (s.vectorCommand (fun v => v == 0x02) node errs)
/-- MAX (R106). -/
def execMax (node : Nat) (errs : ReadErrs) (s : State) : Outcome State Fault Refusal := s.onClock <|
  .next (s.vectorCommand (fun v => v == 0x03) node errs)
/-- MIN (R106). -/
def execMin (node : Nat) (errs : ReadErrs) (s : State) : Outcome State Fault Refusal := s.onClock <|
  .next (s.vectorCommand (fun v => v == 0x04) node errs)
/-- CVT (R106). -/
def execCvt (node : Nat) (errs : ReadErrs) (s : State) : Outcome State Fault Refusal := s.onClock <|
  .next (s.vectorCommand (fun v => v == 0x05) node errs)
/-- ACT (R106, R107). -/
def execAct (node : Nat) (errs : ReadErrs) (s : State) : Outcome State Fault Refusal := s.onClock <|
  .next (s.vectorCommand (fun v => v == 0x06) node errs)
/-- RSUM (R106, R108). -/
def execRsum (node : Nat) (errs : ReadErrs) (s : State) : Outcome State Fault Refusal := s.onClock <|
  .next (s.vectorCommand (fun v => v == 0x08) node errs)
/-- RMAX (R106, R108). -/
def execRmax (node : Nat) (errs : ReadErrs) (s : State) : Outcome State Fault Refusal := s.onClock <|
  .next (s.vectorCommand (fun v => v == 0x09) node errs)
/-- SOFTMAX (R106). -/
def execSoftmax (node : Nat) (errs : ReadErrs) (s : State) : Outcome State Fault Refusal := s.onClock <|
  .next (s.vectorCommand (fun v => v == 0x0A) node errs)
/-- RMSNORM (R106). -/
def execRmsnorm (node : Nat) (errs : ReadErrs) (s : State) : Outcome State Fault Refusal := s.onClock <|
  .next (s.vectorCommand (fun v => v == 0x0B) node errs)
/-- LAYERNORM (R106). -/
def execLayernorm (node : Nat) (errs : ReadErrs) (s : State) : Outcome State Fault Refusal := s.onClock <|
  .next (s.vectorCommand (fun v => v == 0x0C) node errs)
/-- PADD (R106, R48). -/
def execPadd (node : Nat) (errs : ReadErrs) (s : State) : Outcome State Fault Refusal := s.onClock <|
  .next (s.vectorCommand (fun v => v == 0x10) node errs)
/-- PROUND (R106). -/
def execPround (node : Nat) (errs : ReadErrs) (s : State) : Outcome State Fault Refusal := s.onClock <|
  .next (s.vectorCommand (fun v => v == 0x11) node errs)

end Sys2Proof.Machine
end

