-- ==== Sys2Proof/Machine/Attention.lean ====
section
/-! DEFINITION. Chapter 6: the attention unit, distance bias, and the key-value store with its pages and pools (R131 to
R153). -/

namespace Sys2Proof.Machine

open Reg Host

/-! ## The descriptor (R133) -/

/-- An attention descriptor body. -/
structure ABody where
  raw : Nat
  deriving DecidableEq, Repr

def ABody.op (b : ABody) : Nat := bits b.raw 0 4
def ABody.tsKv (b : ABody) : Nat := bits b.raw 4 2
def ABody.tsIo (b : ABody) : Nat := bits b.raw 6 2
def ABody.heads (b : ABody) : Nat := bits b.raw 8 3 + 1
def ABody.qph (b : ABody) : Nat := bits b.raw 11 3 + 1
def ABody.causal (b : ABody) : Bool := bit b.raw 14
def ABody.maskEn (b : ABody) : Bool := bit b.raw 15
def ABody.hdim (b : ABody) : Nat := bits b.raw 16 8 + 1
def ABody.biasTbl (b : ABody) : Nat := bits b.raw 24 4
def ABody.biasEn (b : ABody) : Bool := bit b.raw 28
def ABody.pinVal (b : ABody) : Bool := bit b.raw 31
def ABody.nq (b : ABody) : Nat := bits b.raw 32 16 + 1
def ABody.qPos (b : ABody) : Nat := bits b.raw 48 32
def ABody.gridW (b : ABody) : Nat := bits b.raw 80 16
def ABody.acw (b : ABody) : Acw := ⟨bits b.raw 96 64⟩
def ABody.pt (b : ABody) : Nat := 4096 * bits b.raw 160 28
def ABody.first (b : ABody) : Nat := bits b.raw 192 16
def ABody.count (b : ABody) : Nat := bits b.raw 208 16 + 1
def ABody.io (b : ABody) : Nat := 4096 * bits b.raw 224 28
def ABody.out (b : ABody) : Nat := 4096 * bits b.raw 256 28
def ABody.maskAddr (b : ABody) : Nat := 4096 * bits b.raw 288 28
def ABody.scale (b : ABody) : Nat := bits b.raw 320 32

/-- Query heads and key columns (R133). -/
def ABody.hq (b : ABody) : Nat := b.heads * b.qph
def ABody.nk (b : ABody) : Nat := 64 * b.count
def ABody.pageSize (b : ABody) : Nat := tileSize b.tsKv
/-- Bytes of a page element. -/
def ABody.esz (b : ABody) : Nat := fmtBytes b.acw.fmtB

/-! ## Grids (R135) -/

def ABody.gridQ (b : ABody) : Grid := packed b.acw.fmtA (tileSize b.tsIo) b.io (b.hq * b.nq) b.hdim
def ABody.gridS (b : ABody) : Grid := packed 0xB (tileSize b.tsIo) b.out (b.hq * b.nq) b.nk
def ABody.gridP (b : ABody) : Grid := packed b.acw.fmtA (tileSize b.tsIo) b.io (b.hq * b.nq) b.nk
def ABody.gridO (b : ABody) : Grid := packed b.acw.fmtOut (tileSize b.tsIo) b.out (b.hq * b.nq) b.hdim
def ABody.gridMask (b : ABody) : Grid := packed 9 (tileSize b.tsIo) b.maskAddr b.nq b.nk
def ABody.gridKsrc (b : ABody) : Grid := packed b.acw.fmtB (tileSize b.tsIo) b.io b.nq (b.heads * b.hdim)
def ABody.gridVsrc (b : ABody) : Grid := packed b.acw.fmtB (tileSize b.tsIo) b.out b.nq (b.heads * b.hdim)

/-- The exact-partial grid of VALUE (R137): at OUT_ADDR, or, when a rounded output is written there too, at the first multiple of
64 KiB after it (DEDUCED, log entry 27). -/
def ABody.partO (b : ABody) : PGrid :=
  let o := b.gridO.span
  ⟨if b.acw.rounded then cdiv (o.1 + o.2) 65536 * 65536 else b.out, 65536 * cdiv b.hdim 64, b.hq * b.nq, b.hdim⟩

/-! ## Page-table entries (R142) -/

/-- A page-table entry, decoded. States: 0 VACANT, 1 RESIDENT, 2 DROPPED, 3 RECOMPUTING. -/
structure PtEntry where
  state : Nat
  pin : Bool
  fill : Nat
  target : Nat
  page : Nat
  tag : Nat
  deriving DecidableEq, Repr

def PtEntry.ofWord (w : Nat) : PtEntry := ⟨bits w 0 2, bit w 2, bits w 8 7, bits w 16 7, bits w 24 28, bits w 52 12⟩
def PtEntry.word (e : PtEntry) : Nat :=
  e.state + b2n e.pin * 4 + e.fill * 2 ^ 8 + e.target * 2 ^ 16 + e.page * 2 ^ 24 + e.tag * 2 ^ 52

/-- Local offset of entry `i` of the table of a body. -/
def ABody.entryAt (b : ABody) (i : Nat) : Nat := b.pt + 8 * i
def State.ptEntry (s : State) (node a : Nat) : PtEntry := .ofWord (s.word (glob node a) 8)
def State.setPtEntry (s : State) (node part a : Nat) (e : PtEntry) : State := s.writeWord part (glob node a) 8 e.word
/-- Local offsets of the entries of the range. -/
def ABody.range (b : ABody) : List Nat := (List.range b.count).map (fun i => b.entryAt (b.first + i))

/-! ## The pool (R146, R147) -/

def State.poolPages (s : State) (node p : Nat) : Nat :=
  if s.getO ONX_M_KVPOOL.ENABLE node p = 1 then s.getO ONX_M_KVPOOL.PAGES node p else 0
def State.poolSize (s : State) (node p : Nat) : Nat := tileSize (s.getO ONX_M_KVPOOL.PSIZE node p)
/-- Local offset of page `i` of a pool. -/
def State.poolPage (s : State) (node p i : Nat) : Nat :=
  cdiv (s.getO ONX_M_KVPOOL.BASE node p * 4096 + 16 * s.getO ONX_M_KVPOOL.PAGES node p) (s.poolSize node p) * s.poolSize node p +
  i * s.poolSize node p
def ownerKey (node p i : Nat) : Nat := (16 * node + p) * 2 ^ 18 + i
def State.setOwners (s : State) (t : Tab KvOwner) : State := { s with kv := { s.kv with owners := t } }

/-- Write the owner record of a page; its 16 bytes in T2 have a layout of the device's own. -/
def State.ownPage (s : State) (node p i entry count : Nat) : State :=
  let a := glob node (s.getO ONX_M_KVPOOL.BASE node p * 4096 + 16 * i)
  (({ s with freeCount := s.freeCount + 1 } : State).writeRun p false a (freeBytes s.freeCount a 16)).setOwners
    (tset s.kv.owners (ownerKey node p i) ⟨entry, count⟩)

/-- The held page that stands at a local offset, if any: its pool, its index there and its owner record. -/
def State.heldPage (s : State) (node a : Nat) : Option (Nat × Nat × KvOwner) :=
  (s.kv.owners.find? (fun e => e.1 / 2 ^ 22 == node && s.poolPage node (e.1 / 2 ^ 18 % 16) (e.1 % 2 ^ 18) == a)).map
    (fun e => (e.1 / 2 ^ 18 % 16, e.1 % 2 ^ 18, e.2))

/-- Return a held page to the pool that it is of, whichever that is (R144). -/
def State.freePage (s : State) (node a : Nat) : State :=
  match s.heldPage node a with
  | some h => s.setOwners (tdel s.kv.owners (ownerKey node h.1 h.2.1))
  | none => s

/-- Record a use of a held page (R147). -/
def State.usePage (s : State) (node a count : Nat) : State :=
  match s.heldPage node a with
  | some h => s.ownPage node h.1 h.2.1 h.2.2.entry count
  | none => s

/-- The victim of R147: page index and owner. -/
def State.kvVictim (s : State) (node p count : Nat) (range : List Nat) : Option (Nat × KvOwner) :=
  (List.range (s.poolPages node p)).foldl (fun best i =>
    match tfind s.kv.owners (ownerKey node p i) with
    | none => best
    | some o =>
      let e := s.ptEntry node o.entry
      if e.state != 1 || e.pin || range.contains o.entry then best else
        let age := (count + 2 ^ 32 - o.count) % 2 ^ 32
        match best with
        | none => some (i, o)
        | some b => if (count + 2 ^ 32 - b.2.count) % 2 ^ 32 < age then some (i, o) else best) none

/-- An entry as it is dropped (R144). Log entry 14 (DEDUCED). -/
def PtEntry.dropped (e : PtEntry) : PtEntry :=
  if e.state = 1 then { e with state := 2, target := if 0 < e.fill then e.fill else 1, page := 0 } else { e with state := 2, page := 0 }

/-- Take a page for the entry at `a`: the lowest free page, else a victim (R147, R148). None where there is neither. -/
def State.takePage (s : State) (node p c count a : Nat) (range : List Nat) : Option (Nat × State) :=
  match (List.range (s.poolPages node p)).find? (fun i => !thas s.kv.owners (ownerKey node p i)) with
  | some i => some (i, s.ownPage node p i a count)
  | none =>
    match s.kvVictim node p count range with
    | none => none
    | some (i, o) =>
      let e := s.ptEntry node o.entry
      let s1 := s.setPtEntry node p o.entry e.dropped
      let s2 := s1.event p .pageDropped 0x01 node p e.tag o.entry c
      some (i, s2.ownPage node p i a count)

/-! ## Refusals (R134, R138) -/

/-- Reserved bits and values, and fields that the operation does not name (R134, R138 item 1). -/
def ABody.fieldBad (b : ABody) : Bool :=
  decide (9 < b.op) || b.tsKv == 3 || b.tsIo == 3 || bits b.raw 29 2 != 0 || bits b.raw 188 4 != 0 || bits b.raw 252 4 != 0 ||
  bits b.raw 284 4 != 0 || bits b.raw 316 4 != 0 || bits b.raw 352 32 != 0 ||
  (b.op != 0 && (bits b.raw 14 2 != 0 || bits b.raw 24 5 != 0 || bits b.raw 48 48 != 0 || bits b.raw 288 28 != 0 || b.scale != 0)) ||
  (decide (3 ≤ b.op) && (bits b.raw 6 8 != 0 || bits b.raw 16 8 != 0 || b.io != 0 || b.out != 0)) ||
  (!([3, 4, 9].contains b.op) && b.op != 0 && b.pinVal) ||
  (decide (3 ≤ b.op) && b.op != 8 && b.nq != 1) || (b.op == 8 && decide (64 < b.nq)) || (b.op == 2 && b.count != 1)

/-- Formats (R138 item 2), and the control word where it is used. VALUE may import exact partials whatever it writes (R137, R48); SCORE
has none (DEDUCED, log entry 27). -/
def ABody.formatBad (b : ABody) : Bool :=
  let w := b.acw
  !([3, 4, 9, 0xA].contains w.fmtB) ||
  (decide (b.op ≤ 1) && (isMx w.fmtA || w.bad (if b.op = 0 then b.hdim else b.nk))) ||
  (b.op == 0 && (w.fmtOut != 0xB || w.outKind != 0 || w.accIn))

/-- Grids of a body that lie in T0 or scratch ways, with the extents that must not overlap (R131, R135, R138 item 4). -/
def ABody.grids (b : ABody) : List Grid :=
  match b.op with
  | 0 => [b.gridQ, b.gridS] ++ (if b.maskEn then [b.gridMask] else [])
  | 1 => [b.gridP] ++ (if b.acw.rounded then [b.gridO] else [])
  | 2 => [b.gridKsrc, b.gridVsrc]
  | _ => []

def State.attnPlaceBad (s : State) (node : Nat) (b : ABody) : Bool :=
  let parts := b.op == 1 && b.acw.partials
  !s.domOn (8 * node + 1) || decide (0x1000000000 < b.pt + 8 * (b.first + b.count)) ||
  b.grids.any (fun g => g.addr % g.size != 0 || !s.gridPlaced node 0 g) ||
  (parts && (b.partO.addr % 65536 != 0 || !s.pgridPlaced node 0 b.partO)) ||
  anyOverlap (b.grids.map Grid.span ++ (if parts then [b.partO.span] else []))

/-- Does a bias table break R139? -/
def State.biasBad (s : State) (node : Nat) (b : ABody) : Bool :=
  let h := s.getO ONX_M_BIASCFG.H_LOG2 node b.biasTbl
  b.op == 0 && b.biasEn && (decide (5 < h) || (h != 0 && 2 ^ h != b.hq) ||
    (s.getO ONX_M_BIASCFG.MODE node b.biasTbl == 1 && (b.gridW == 0 ||
      decide (2048 / 2 ^ h < 2 ^ s.getO ONX_M_BIASCFG.WX_LOG2 node b.biasTbl))))

/-- Does a KV operation accept an entry (R144, R138 items 6 and 7)? -/
def ABody.accepts (b : ABody) (e : PtEntry) : Bool :=
  match b.op with
  | 2 => (e.state == 1 || e.state == 3) && decide (e.fill + b.nq ≤ if e.state = 3 then e.target else 64)
  | 3 => e.state == 0
  | 4 => e.state == 2
  | 5 => e.state == 3
  | 6 => e.state == 1 || e.state == 3
  | 7 => true
  | 8 => e.state == 0
  | _ => e.state != 0

/-- Do the owner records of the pool that a command works on lie in the channels of another partition (R308)? -/
def State.poolForeign (s : State) (node part : Nat) : Bool :=
  s.rangeForeign part node (s.getO ONX_M_KVPOOL.BASE node part * 4096) (16 * s.poolPages node part)

/-- BAD_DESCRIPTOR of an attention body, the entries of its range apart (R138 items 1 to 5, R308). -/
def State.attnBad (s : State) (node part : Nat) (b : ABody) : Bool :=
  b.fieldBad || b.formatBad || decide (65536 < b.first + b.count) || s.attnPlaceBad node b || s.biasBad node b || s.poolForeign node part

/-- BAD_LAYOUT of an attention body (R138, R48). Log entry 13 (DEDUCED). -/
def State.attnLayoutBad (s : State) (node part : Nat) (b : ABody) : Bool :=
  decide (b.pageSize / 128 < b.heads * b.hdim * b.esz) || b.tsKv != s.getO ONX_M_KVPOOL.PSIZE node part ||
  (b.op == 1 && s.importBad node b.acw b.partO)

/-- What a SCORE or VALUE body is refused for. -/
def State.attnFaults (s : State) (node part : Nat) (b : ABody) : List Status :=
  faultsOf (s.attnBad node part b) (s.attnLayoutBad node part b)

/-- What the body of a KV operation is refused for: the entries of its range are checked before any changes (R138 items 6 and 7, R145). -/
def State.kvFaults (s : State) (node part : Nat) (b : ABody) : List Status :=
  faultsOf (s.attnBad node part b || b.range.any (fun a => !b.accepts (s.ptEntry node a))) (s.attnLayoutBad node part b)

/-! ## SCORE and VALUE (R136, R137) -/

/-- Entry of key column `c`, and whether its key row is filled. -/
def State.colEntry (s : State) (node : Nat) (b : ABody) (c : Nat) : PtEntry := s.ptEntry node (b.entryAt (b.first + c / 64))
def State.colFilled (s : State) (node : Nat) (b : ABody) (c : Nat) : Bool := decide (c % 64 < (s.colEntry node b c).fill)

/-- Local address of the row of column `c` in its page: keys, or values (R62). -/
def State.pageRow (s : State) (node : Nat) (b : ABody) (value : Bool) (c : Nat) : Nat :=
  (s.colEntry node b c).page * 4096 + (if value then b.pageSize / 2 else 0) + c % 64 * (b.pageSize / 128)

/-- Elements of KV head `hk` of a page row. -/
def State.pageElts (s : State) (node : Nat) (b : ABody) (value : Bool) (c hk : Nat) : List Elt :=
  let v := s.word (glob node (s.pageRow node b value c + hk * b.hdim * b.esz)) (b.hdim * b.esz)
  (List.range b.hdim).map (fun j => mkElt b.acw.fmtB (bits v (j * 8 * b.esz) (8 * b.esz)) b.acw.tscaleB 0)

/-- KV head that row `r` of Q, S, P and O reads. -/
def ABody.kvHead (b : ABody) (r : Nat) : Nat := r / b.nq / b.qph

/-- Pairs of the score of row `r` and column `c`; none where the key row is not filled. -/
def State.scorePairs (s : State) (node : Nat) (b : ABody) (r c : Nat) : List (Elt × Elt) :=
  if s.colFilled node b c then
    (s.rowElts node b.gridQ b.acw.tscaleA r).zip (s.pageElts node b false c (b.kvHead r))
  else []

/-- Pairs of output (r, j) of VALUE over columns `[lo, hi)`. -/
def State.valuePairs (s : State) (node : Nat) (b : ABody) (lo hi r j : Nat) : List (Elt × Elt) :=
  let p := s.rowElts node b.gridP b.acw.tscaleA r
  ((List.range (hi - lo)).map (fun i => lo + i)).filterMap (fun c =>
    if s.colFilled node b c then
      some (lget ⟨.nan, 0, 0, false⟩ p c, lget ⟨.nan, 0, 0, false⟩ (s.pageElts node b true c (b.kvHead r)) j)
    else none)

/-- A clamped index (R139). -/
def clampN (i : Int) (hi : Nat) : Nat := (clampI 0 hi i).toNat

/-- Entry of a bias table that query head `h`, query position `p` and key position `k` select (R139). -/
def State.biasIndex (s : State) (node : Nat) (b : ABody) (h p k : Nat) : Nat :=
  let hl := s.getO ONX_M_BIASCFG.H_LOG2 node b.biasTbl
  let w := 2048 / 2 ^ hl
  let hb := if hl = 0 then 0 else h
  let wx := 2 ^ s.getO ONX_M_BIASCFG.WX_LOG2 node b.biasTbl
  let wy := w / wx
  let i := if s.getO ONX_M_BIASCFG.MODE node b.biasTbl = 0 then clampN ((k : Int) - p + (w / 2 : Nat)) (w - 1)
    else clampN (((k / b.gridW : Nat) : Int) - (p / b.gridW : Nat) + (wy / 2 : Nat)) (wy - 1) * wx +
      clampN (((k % b.gridW : Nat) : Int) - (p % b.gridW : Nat) + (wx / 2 : Nat)) (wx - 1)
  hb * w + i

/-- A bias-table entry (R140). -/
def State.biasValue (s : State) (node t i : Nat) : Nat := s.word (regSpace node (0x110000 + 0x2000 * t + 4 * i)) 4

/-- The score of row `r`, column `c` (R136): pattern and saturation. -/
def State.scoreOut (s : State) (node : Nat) (b : ABody) (A : Int) (r c : Nat) : Nat × Bool :=
  let w := b.acw
  let q := r % b.nq
  let k := 64 * b.first + c
  if !s.colFilled node b c || (b.causal && decide (b.qPos + q < k)) then (0xFF800000, false)
  else
    let d := (sumPairs A w.kLog2 {} (s.scorePairs node b r c)).deliver 0xB w.round w.satInf A w.outScale
    let s1 := f32mul d.1 b.scale
    let s2 := if b.biasEn then f32add s1 (s.biasValue node b.biasTbl (s.biasIndex node b (r / b.nq) (b.qPos + q) k)) else s1
    let s3 := if b.maskEn then
      f32add s2 (f32 (decodeElt 9 (s.word (glob node (b.gridMask.eltAddr q c)) 2))) else s2
    (s3, d.2)

/-- Sectors of the page table range. -/
def ABody.tableSectors (b : ABody) (node : Nat) : List Nat := sectorsOf (glob node (b.entryAt b.first)) (8 * b.count)

/-- Sectors of the filled rows of the pages. -/
def State.pageSectors (s : State) (node : Nat) (b : ABody) (value : Bool) : List Nat :=
  ((List.range b.nk).filter (s.colFilled node b)).flatMap (fun c =>
    sectorsOf (glob node (s.pageRow node b value c)) (b.heads * b.hdim * b.esz))

/-- Sectors that a KV_WRITE writes: the rows of the page from FILL on, and its entry. -/
def State.kvWriteSectors (s : State) (node : Nat) (b : ABody) : List Nat :=
  let e := s.ptEntry node (b.entryAt b.first)
  let rows (off : Nat) := (List.range b.nq).flatMap (fun i =>
    sectorsOf (glob node (e.page * 4096 + off + (e.fill + i) * (b.pageSize / 128))) (b.heads * b.hdim * b.esz))
  rows 0 ++ rows (b.pageSize / 2)

/-- Pages of 64 per unit (R153). -/
def ABody.unitCols (b : ABody) (lo hi : Nat) : Nat × Nat := (4096 * lo, min b.nk (4096 * hi))

/-- The working accumulators of VALUE before unit `lo`. -/
def valueStart (x : Cmd) (b : ABody) (s : State) (node r j : Nat) : Acc :=
  if x.unitsDone = 0 then (if b.acw.accIn then s.partialElt node b.partO r j else {})
  else Acc.ofWord (lget 0 x.saved (r * b.hdim + j))

/-- What a SCORE does (R136, R153). -/
def State.scorePlan (s : State) (node : Nat) (x : Cmd) : Plan :=
  let b : ABody := ⟨x.body⟩
  let w := b.acw
  let rows := b.hq * b.nq
  let A := chooseAnchor x.anchor w (anchorOver rows b.nk w.kLog2 (s.scorePairs node b))
  { units := if w.anchorMode = 2 then 1 else cdiv b.count 64
    reads := (b.tableSectors node ++ b.gridQ.sectors node ++ s.pageSectors node b false ++
      (if b.maskEn then b.gridMask.sectors node else [])).foldl sinsert []
    dests := if w.anchorMode = 2 then [] else b.gridS.sectors node
    anchor := some (A + 112).toNat
    result := fun _ => matResult A false
    run := fun lo hi st =>
      if w.anchorMode = 2 then (st, []) else
        let cols := b.unitCols lo hi
        let elts := (indexPairs rows (cols.2 - cols.1)).map (fun p => (p.1, cols.1 + p.2))
        let r := elts.foldr (fun p (q : List (Nat × Byte) × Bool) =>
          let d := st.scoreOut node b A p.1 p.2
          (valueCells (glob node (b.gridS.eltAddr p.1 p.2)) 4 d.1 ++ q.1, q.2 || d.2)) ([], false)
        (st.scatter (s.ctxPart x.ctx) r.1, if r.2 then [.okSaturated] else []) }

/-- What a VALUE does (R137, R153): its outputs are written with its last unit. -/
def State.valuePlan (s : State) (node : Nat) (x : Cmd) : Plan :=
  let b : ABody := ⟨x.body⟩
  let w := b.acw
  let rows := b.hq * b.nq
  let units := cdiv b.count 64
  let A := chooseAnchor x.anchor w (anchorOver rows b.hdim w.kLog2 (s.valuePairs node b 0 b.nk))
  let acc (hi : Nat) (st : State) (r j : Nat) : Acc :=
    let cols := b.unitCols x.unitsDone hi
    (sumPairs A w.kLog2 {} (st.valuePairs node b cols.1 cols.2 r j)).addPartial (valueStart x b st node r j)
  { units := if w.anchorMode = 2 then 1 else units
    reads := (b.tableSectors node ++ b.gridP.sectors node ++ s.pageSectors node b true ++
      (if w.accIn then b.partO.readSectors node else [])).foldl sinsert []
    dests := if w.anchorMode = 2 then [] else
      (if w.rounded then b.gridO.sectors node else []) ++ (if w.exports then b.partO.sectors node else [])
    anchor := some (A + 112).toNat
    result := fun _ => matResult A false
    run := fun _ hi st =>
      if w.anchorMode = 2 || hi < units then (st, []) else
        let r := st.writeUnit (s.ctxPart x.ctx) node w A b.gridO.eltAddr b.partO (indexPairs rows b.hdim) (acc hi st)
        (r.1, if r.2 then [.okSaturated] else [])
    keep := fun hi st => (indexPairs rows b.hdim).map (fun p => (acc hi st p.1 p.2).word) }

/-- Is an entry of the range not RESIDENT (R145)? -/
def State.pagesDropped (s : State) (node : Nat) (b : ABody) : Bool := b.range.any (fun a => (s.ptEntry node a).state != 1)

/-- What a SCORE or VALUE does whose range holds an entry that is not RESIDENT: it reads the entries and writes nothing (R145). Log entry
144 (DEDUCED). -/
def State.droppedPlan (node : Nat) (b : ABody) (dests : List Nat) : Plan :=
  { units := 1, reads := b.tableSectors node, dests := dests, run := fun _ _ st => (st, [.pageDropped]) }

/-- What a SCORE or VALUE does (R136, R137, R145). -/
def State.attnPlan (s : State) (node : Nat) (x : Cmd) : Plan :=
  let b : ABody := ⟨x.body⟩
  let p := if b.op = 0 then s.scorePlan node x else s.valuePlan node x
  if s.pagesDropped node b then State.droppedPlan node b p.dests else p

/-- Plan SCORE or VALUE (R138, R153). -/
def State.planAttention (s : State) (node : Nat) (x : Cmd) : Planned :=
  s.guardPlan (s.ctxPart x.ctx) (s.attnPlan node x) (x.onStart (s.attnFaults node (s.ctxPart x.ctx) ⟨x.body⟩))

/-! ## The end of an attention command (R140, R147) -/

/-- Count a command that the attention unit completes (R147). -/
def State.countAttn (s : State) (node : Nat) : State :=
  s.setO ONX_M_KVCMD.COUNT node 0 (s.getO ONX_M_KVCMD.COUNT node 0 + 1)

/-- Record the use of the pages of a SCORE or VALUE that ended usable (R147). Log entry 15 (DEDUCED). -/
def State.recordUse (s : State) (node : Nat) (b : ABody) : State :=
  let n := s.getO ONX_M_KVCMD.COUNT node 0
  b.range.foldl (fun st a => st.usePage node ((st.ptEntry node a).page * 4096) n) s

/-- Does a command wait for its pool (R146)? -/
def State.poolWaits (s : State) (node part : Nat) : Bool := s.kv.zeroing.contains (16 * node + part)

/-- The attention command of a node with operation `op`, ready to run. -/
def State.attnCmd (s : State) (is : Nat → Bool) (node : Nat) : Option Cmd :=
  match s.executing node 2 with
  | some x => if is (ABody.op ⟨x.body⟩) && !s.poolWaits node (s.ctxPart x.ctx) then some x else none
  | none => none

/-- SCORE and VALUE. -/
def State.attnRead (s : State) (is : Nat → Bool) (node : Nat) (errs : ReadErrs) : State :=
  match s.attnCmd is node with
  | none => s
  | some x =>
    let s1 := (s.runToEnd x (s.planAttention node x) errs).countAttn node
    let s2 := match s1.cmd x.key with
      | some y => if y.status.usable then s1.recordUse node ⟨x.body⟩ else s1
      | none => s1
    s2.releaseBias

/-- SCORE (R136). A reserved operation is refused here. -/
def execScore (node : Nat) (errs : ReadErrs) (s : State) : Outcome State Fault Refusal := s.onClock <|
  .next (s.attnRead (fun o => o == 0 || decide (9 < o)) node errs)

/-- VALUE (R137). -/
def execValue (node : Nat) (errs : ReadErrs) (s : State) : Outcome State Fault Refusal := s.onClock <|
  .next (s.attnRead (fun o => o == 1) node errs)

/-! ## KV operations (R134, R144 to R148) -/

/-- Give each entry of a list a page, in order: state, entries changed, and whether every entry got one (R147, R148). -/
def State.givePages (node p c count : Nat) (b : ABody) : List Nat → State → State × Nat × Bool
  | [], s => (s, 0, true)
  | a :: t, s =>
    match s.takePage node p c count a b.range with
    | none => (s, 0, false)
    | some (i, s1) =>
      let e := s1.ptEntry node a
      let s2 := s1.setPtEntry node p a
        { e with state := if b.op = 3 then 1 else 3, pin := b.pinVal, fill := 0, page := s1.poolPage node p i / 4096 }
      let r := State.givePages node p c count b t s2
      (r.1, r.2.1 + 1, r.2.2)

/-- Rows of KV_WRITE copied into the page, then FILL and the state (R144). -/
def State.kvWriteRows (s : State) (node p count : Nat) (b : ABody) : State :=
  let a := b.entryAt b.first
  let e := s.ptEntry node a
  let width := b.heads * b.hdim
  let row (g : Grid) (off i : Nat) (st : State) : State :=
    st.writeRun p true (glob node (e.page * 4096 + off + (e.fill + i) * (b.pageSize / 128)))
      ((s.gridRow node g i).flatMap (fun q => leBytes b.esz q.1) |>.take (width * b.esz))
  let s1 := (List.range b.nq).foldl (fun st i => row b.gridVsrc (b.pageSize / 2) i (row b.gridKsrc 0 i st)) s
  let fill := e.fill + b.nq
  let s2 := s1.setPtEntry node p a { e with fill := fill, state := if e.state = 3 && fill == e.target then 1 else e.state }
  s2.usePage node (e.page * 4096) count

/-- Change one entry of a range by an operation that takes no page (R144). -/
def State.kvEntry (s : State) (node p : Nat) (b : ABody) (a : Nat) : State :=
  let e := s.ptEntry node a
  let put := fun (st : State) (e' : PtEntry) => st.setPtEntry node p a e'
  match b.op with
  | 5 => put s { e with state := 1, fill := e.target }
  | 6 => put (s.freePage node (e.page * 4096)) e.dropped
  | 7 => put (if e.page = 0 then s else s.freePage node (e.page * 4096)) ⟨0, false, 0, 0, 0, e.tag⟩
  | 8 => put s { e with state := 2, target := if a = b.entryAt (b.first + b.count - 1) then b.nq else 64, page := 0 }
  | _ => put s { e with pin := b.pinVal }

/-- Carry out an accepted KV operation: state, status, result. -/
def State.kvApply (s : State) (node p c : Nat) (b : ABody) : State × Status × Nat :=
  let count := (s.getO ONX_M_KVCMD.COUNT node 0 + 1) % 2 ^ 32
  if b.op = 3 || b.op = 4 then
    let r := State.givePages node p c count b b.range s
    if r.2.2 then (r.1, .ok, 0) else (r.1, .queueFull, r.2.1)
  else if b.op = 2 then (s.kvWriteRows node p count b, .ok, 0)
  else (b.range.foldl (fun st a => st.kvEntry node p b a) s, .ok, 0)

/-- Sectors of a KV operation: those read, and those written. -/
def State.kvReads (_s : State) (node : Nat) (b : ABody) : List Nat :=
  b.tableSectors node ++ (if b.op = 2 then b.gridKsrc.sectors node ++ b.gridVsrc.sectors node else [])
def State.kvWrites (s : State) (node : Nat) (b : ABody) : List Nat :=
  b.tableSectors node ++ (if b.op = 2 then s.kvWriteSectors node b else [])

/-- The sectors that a KV operation touches. -/
def State.kvPlan (s : State) (node : Nat) (b : ABody) : Plan :=
  { units := 1, reads := s.kvReads node b, dests := s.kvWrites node b, run := fun _ _ st => (st, []) }

/-- A KV operation of a node (R138, R144, R145): refused before it changes anything, else carried out where its reads find the data
good. -/
def State.kvCommand (s : State) (op node : Nat) (errs : ReadErrs) : State :=
  match s.attnCmd (fun o => o == op) node with
  | none => s
  | some x =>
    let b : ABody := ⟨x.body⟩
    let p := s.ctxPart x.ctx
    let done (st : State) (code : Status) (res : Nat) : State := ((st.finish x code res).countAttn node).releaseBias
    match s.guardPlan p (s.kvPlan node b) (s.kvFaults node p b) with
    | .refused st => done (if st = .denied then s.countRefusal else s) st 0
    | .plan q =>
      let r := s.readSectors p true errs q.reads
      if r.lost || r.poison then
        done (r.st.poisonAll q.dests) (pickStatus ((if r.lost then [.tileUncorrectable] else []) ++ (if r.poison then [.poisonedInput] else []))) 0
      else
        let o := r.st.kvApply node p x.ctx b
        done o.1 o.2.1 o.2.2

/-- KV_WRITE (R144). -/
def execKvWrite (node : Nat) (errs : ReadErrs) (s : State) : Outcome State Fault Refusal := s.onClock <| .next (s.kvCommand 2 node errs)
/-- KV_ALLOC (R144, R147, R148). -/
def execKvAlloc (node : Nat) (errs : ReadErrs) (s : State) : Outcome State Fault Refusal := s.onClock <| .next (s.kvCommand 3 node errs)
/-- KV_MARK (R144). -/
def execKvMark (node : Nat) (errs : ReadErrs) (s : State) : Outcome State Fault Refusal := s.onClock <| .next (s.kvCommand 4 node errs)
/-- KV_SEAL (R144). -/
def execKvSeal (node : Nat) (errs : ReadErrs) (s : State) : Outcome State Fault Refusal := s.onClock <| .next (s.kvCommand 5 node errs)
/-- KV_DROP (R144). -/
def execKvDrop (node : Nat) (errs : ReadErrs) (s : State) : Outcome State Fault Refusal := s.onClock <| .next (s.kvCommand 6 node errs)
/-- KV_FREE (R144). -/
def execKvFree (node : Nat) (errs : ReadErrs) (s : State) : Outcome State Fault Refusal := s.onClock <| .next (s.kvCommand 7 node errs)
/-- KV_ADOPT (R144). -/
def execKvAdopt (node : Nat) (errs : ReadErrs) (s : State) : Outcome State Fault Refusal := s.onClock <| .next (s.kvCommand 8 node errs)
/-- KV_PIN (R144). -/
def execKvPin (node : Nat) (errs : ReadErrs) (s : State) : Outcome State Fault Refusal := s.onClock <| .next (s.kvCommand 9 node errs)

/-! ## Registers with rows of their own (R140, R146) -/

/-- Does a register write of `src` reach a block of an Onyx that is admitted and powered? -/
def State.onyxWrites (s : State) (src : Src) (node blk : Nat) : Bool :=
  decide (node < 4) && s.reaches src node blk 0

/-- A register write of `src` to a block of an Onyx that takes no effect (R15, R16, R20, R26). -/
def State.onyxTurned (s : State) (src : Src) (node blk : Nat) : State := if node < 4 then s.turnAway src node blk 0 else s

/-- Pages of a pool that are held. -/
def State.poolHeld (s : State) (node p : Nat) : Bool := s.kv.owners.any (fun e => e.1 / 2 ^ 18 == 16 * node + p)

/-- KVPOOL_WRITE (R146). -/
def execKvpoolWrite (src : Src) (node p val : Nat) (s : State) : Outcome State Fault Refusal := s.onClock <|
  if 16 ≤ p then .next s
  else if !s.onyxWrites src node 1 then .next (s.onyxTurned src node 1) else
    let en := bit val 30
    let was := s.getO ONX_M_KVPOOL.ENABLE node p == 1
    if was && (en || s.poolHeld node p) then .next (s.setO ONX_M_KVSTAT.CFG_ERR node 0 1)
    else
      let s1 := (((s.setO ONX_M_KVPOOL.BASE node p (bits val 0 28)).setO ONX_M_KVPOOL.PSIZE node p (bits val 28 2)).setO
        ONX_M_KVPOOL.ENABLE node p (b2n en)).setO ONX_M_KVPOOL.PAGES node p (bits val 32 18)
      if en && !was then
        .next { s1.writeRun p false (glob node (bits val 0 28 * 4096)) (List.replicate (16 * bits val 32 18) 0) with
          kv := { s1.kv with zeroing := sinsert s1.kv.zeroing (16 * node + p) } }
      else .next s1

/-- KVPOOL_INIT_DONE (R146). -/
def execKvpoolInitDone (node p : Nat) (s : State) : Outcome State Fault Refusal := s.onClock <|
  .next { s with kv := { s.kv with zeroing := sdel s.kv.zeroing (16 * node + p) } }

/-- BIAS_TABLE_WRITE (R140): `off` is the offset in ONX_M, of a BIASCFG or of a table entry. -/
def execBiasTableWrite (src : Src) (node off val : Nat) (s : State) : Outcome State Fault Refusal := s.onClock <|
  if !s.onyxWrites src node 1 then .next (s.onyxTurned src node 1) else
    match biasOf off with
    | none => .next s
    | some t =>
      if s.biasInUse node t then .next { s with kv := { s.kv with heldBias := s.kv.heldBias ++ [(node, off, val)] } }
      else .next (s.applyBias node off val)

end Sys2Proof.Machine
end

