-- ==== Sys2Proof/Machine/Sequence.lean ====
section
/-! DEFINITION. Chapter 7: the scan engine with its SCAN commands and streams, and the piecewise-linear gate unit (R154 to
R178). -/

namespace Sys2Proof.Machine

open Reg Host

/-! ## Gates (R172, R173) -/

/-- Natural logarithm of a positive finite value, by the series of 2 artanh((m - 1)/(m + 1)) in fixed point of 100 bits. -/
def lnNum : Num → Num
  | .fin _ m e =>
    if m = 0 then .inf true else
      let n := bitLen m
      let x : Int := ((m * 2 ^ 101 / 2 ^ n : Nat) : Int)
      let t := (x - 2 ^ 100) * 2 ^ 100 / (x + 2 ^ 100)
      let t2 := t * t / 2 ^ 100
      let sum := (List.range 60).foldl (fun (p : Int × Int) i => (p.1 * t2 / 2 ^ 100, p.2 + p.1 / (2 * (i : Int) + 1))) (t, 0)
      .ofInt (2 * sum.2 + (e + n - 1) * ln2Fix) (-100)
  | x => x

/-- The curves of R173, at a finite value. -/
def gateCurve (code : Nat) (x : Num) : Num :=
  match code with
  | 1 => sigmoidNum x
  | 2 => tanhNum x
  | 3 => x.mul (sigmoidNum x)
  | 4 => if Num.lt (.ofInt 64 0) x then x else lnNum (oneNum.add (expNum x))
  | _ => if Num.lt x (.ofInt 0 0) then oneNum else expNum x.neg

/-- A gate table: XMIN, k, the sides and the segments. -/
structure GateTable where
  xmin : Nat
  k : Int
  extLo : Bool
  extHi : Bool
  m : Nat → Nat
  c : Nat → Nat

/-- The segment and the input after the side rule, exactly (R172). -/
def GateTable.locate (t : GateTable) (x : Num) : Nat × Num :=
  let lo := f32num t.xmin
  let hi := lo.add (.fin false 1 t.k)
  if x.lt lo then (0, if t.extLo then x else lo)
  else if !(x.lt hi) then (255, if t.extHi then x else hi)
  else (((x.sub lo).shift (8 - t.k)).floor.toNat, x)

/-- The value of a table: one rounding of `m × x′ + c` (R172). -/
def GateTable.eval (t : GateTable) (x : Nat) : Nat :=
  if f32isNan x then 0x7FC00000 else
    let p := t.locate (f32num x)
    let m := f32num (t.m p.1)
    let c := f32num (t.c p.1)
    if !p.2.isFinite && m.isZero then f32 c else f32 ((m.mul p.2).add c)

/-! ### The built-in tables (R173) -/

/-- XMIN of a built-in table. -/
def builtinXmin (code : Nat) : Nat := lget 0 [0, 0xC1800000, 0xC1000000, 0xC1800000, 0xC1800000, 0] code
/-- WIDTH_LOG2 of a built-in table. -/
def builtinLog2 (code : Nat) : Int := lget 0 [0, 5, 4, 5, 5, 4] code

/-- A point of segment `i` of a built-in table, in 32nds of the segment's width. -/
def builtinPoint (code i j : Nat) : Num :=
  (f32num (builtinXmin code)).add (Num.ofInt ((32 * i + j : Nat) : Int) (builtinLog2 code - 13))

/-- The slope of the chord of a curve over segment `i`: the segment of that slope that lies midway between the extremes of its distance
from the curve has the least maximum error (R173). -/
def chordSlope (code i : Nat) : Num :=
  ((gateCurve code (builtinPoint code i 32)).sub (gateCurve code (builtinPoint code i 0))).shift (8 - builtinLog2 code)

/-- The intercept midway between the extremes of the curve's distance from a line of slope `m` over segment `i`, taken at 33 points. -/
def midIntercept (code i : Nat) (m : Num) : Num :=
  let gap (j : Nat) : Num := (gateCurve code (builtinPoint code i j)).sub (m.mul (builtinPoint code i j))
  let q := (List.range 33).foldl (fun (q : Num × Num) j =>
    (if (gap j).lt q.1 then gap j else q.1, if q.2.lt (gap j) then gap j else q.2)) (gap 0, gap 0)
  (q.1.add q.2).shift (-1)

/-- An fp32 pattern moved by an open number of units in the last place, at most 4 (DESIGN CHOICE, log entry 28). -/
def openPattern (code i part : Nat) (v : Num) : Nat :=
  let p := f32 v
  if p % 2 ^ 31 < 4 then p else p + (Config.gateSegment code i part).toNat % 9 - 4

/-- The built-in tables: domains and sides as stated; each segment is the line that minimises its maximum error, its coefficients open in
their last places; the last segment of an EXTEND side is y = x (R173). Log entry 28 (DEDUCED). -/
def builtinGate (code : Nat) : GateTable :=
  let asymptote (i : Nat) : Bool := i == 255 && (code == 3 || code == 4)
  { xmin := builtinXmin code
    k := builtinLog2 code
    extLo := false
    extHi := code == 3 || code == 4
    m := fun i => if asymptote i then 0x3F800000 else openPattern code i 0 (chordSlope code i)
    c := fun i => if asymptote i then 0 else openPattern code i 1 (midIntercept code i (chordSlope code i)) }

/-- Writable table `t` of a node (R174, R178). -/
def State.gateTable (s : State) (node t : Nat) : GateTable :=
  { xmin := s.getO ONX_Q_GCFG.XMIN node t
    k := sx 5 (s.getO ONX_Q_GCFG.WIDTH_LOG2 node t)
    extLo := s.getO ONX_Q_GCFG.OOR_LO node t == 1
    extHi := s.getO ONX_Q_GCFG.OOR_HI node t == 1
    m := fun i => s.word (regSpace node (0x210000 + 0x800 * t + 8 * i)) 4
    c := fun i => s.word (regSpace node (0x210000 + 0x800 * t + 8 * i + 4)) 4 }

/-- The gate of a code (R172). -/
def State.gate (s : State) (node code x : Nat) : Nat :=
  if code = 0 then x else if code < 8 then (builtinGate code).eval x else (s.gateTable node (code - 8)).eval x

/-! ## The scan descriptor (R162, R163) -/

/-- A scan-engine body. -/
structure SBody where
  raw : Nat
  deriving DecidableEq, Repr

def SBody.op (b : SBody) : Nat := bits b.raw 0 4
def SBody.order (b : SBody) : Nat := bits b.raw 4 1
def SBody.aConst (b : SBody) : Bool := bit b.raw 5
def SBody.yMode (b : SBody) : Nat := bits b.raw 6 2
def SBody.fx (b : SBody) : Nat := bits b.raw 8 4
def SBody.fy (b : SBody) : Nat := bits b.raw 12 4
def SBody.fs (b : SBody) : Nat := bits b.raw 16 4
def SBody.seg (b : SBody) : Nat := bits b.raw 20 3
def SBody.stateIn (b : SBody) : Bool := bit b.raw 23
def SBody.gateTbl (b : SBody) : Nat := bits b.raw 24 4
def SBody.ts (b : SBody) : Nat := bits b.raw 28 2
def SBody.satInf (b : SBody) : Bool := bit b.raw 30
def SBody.n (b : SBody) : Nat := bits b.raw 32 16 + 1
def SBody.t (b : SBody) : Nat := bits b.raw 48 24 + 1
def SBody.origin (b : SBody) : Nat := bits b.raw 80 32
def SBody.slot (b : SBody) : Nat := bits b.raw 288 3
def SBody.ring (b : SBody) : Nat := bits b.raw 296 8 + 1
def SBody.addr (b : SBody) (i : Nat) : Nat := 4096 * bits b.raw (128 + 32 * i) 28
/-- L of R156. -/
def SBody.segLen (b : SBody) : Nat := 2 ^ b.seg
/-- Values per channel or section: 1 or 2. -/
def SBody.k (b : SBody) : Nat := b.order + 1
/-- Rows of X: steps, or ring rows. -/
def SBody.rows (b : SBody) : Nat := if b.op = 0 then b.t else b.ring

def SBody.gridX (b : SBody) : Grid := packed b.fx (tileSize b.ts) (b.addr 0) b.rows b.n
def SBody.gridA (b : SBody) : Grid :=
  packed (if b.gateTbl = 0 then 0xB else b.fx) (tileSize b.ts) (b.addr 1) (if b.aConst then 1 else b.rows) (if b.order = 0 then b.n else 4 * b.n)
def SBody.gridY (b : SBody) : Grid := packed b.fy (tileSize b.ts) (b.addr 2) b.rows (if b.yMode = 1 then b.k * b.n else b.n)
def SBody.gridP (b : SBody) : Grid := packed 0xB (tileSize b.ts) (b.addr 3) 3 (b.k * b.n)
def SBody.gridS (b : SBody) : Grid := packed b.fs (tileSize b.ts) (b.addr 4) 1 (b.k * b.n)
def SBody.grids (b : SBody) : List Grid := [b.gridX, b.gridA, b.gridP, b.gridS] ++ (if b.yMode = 0 then [] else [b.gridY])

/-- Items 1 to 5 of R164. -/
def SBody.fieldBad (b : SBody) : Bool :=
  decide (2 < b.op) || b.yMode == 3 || b.seg == 7 || b.ts == 3 || bit b.raw 31 || bits b.raw 72 8 != 0 || bits b.raw 112 16 != 0 ||
  (List.range 5).any (fun i => bits b.raw (156 + 32 * i) 4 != 0) || bits b.raw 291 5 != 0 || bits b.raw 304 80 != 0 ||
  (b.yMode == 0 && b.addr 2 != 0) || (b.op == 0 && (b.slot != 0 || b.ring != 1)) || (b.op != 0 && b.t != 1) ||
  !([9, 0xA, 0xB].contains b.fx) || !([3, 4, 9, 0xA, 0xB].contains b.fy) || !([9, 0xB].contains b.fs) ||
  (b.order == 1 && b.gateTbl != 0) || b.gateTbl == 6 || b.gateTbl == 7 || (b.order == 1 && decide (32768 < b.n)) ||
  (b.op != 0 && (b.seg != 0 || decide ((if b.order = 0 then 16384 else 4096) < b.n)))

/-- BAD_DESCRIPTOR of a scan-engine command (R164). -/
def State.scanBad (s : State) (node : Nat) (x : Cmd) : Bool :=
  let b : SBody := ⟨x.body⟩
  let slot := tfind s.seq.streams (8 * node + b.slot)
  b.fieldBad || (b.op == 1 && slot.isSome) ||
  (b.op == 2 && (match slot with
    | some w => w.ctx != x.ctx
    | none => true)) ||
  b.grids.any (fun g => g.addr % g.size != 0 || !s.gridPlaced node 1 g) || anyOverlap (b.grids.map Grid.span)

/-! ## The recurrence (R155 to R157, R161) -/

/-- One channel or section: state h, segment product P, segment sum U and the state at the segment's start. -/
structure Chan where
  h : List Nat
  p : List Nat
  u : List Nat
  hin : List Nat
  deriving DecidableEq, Repr

/-- Round an exact sum once to fp32 and once to the state format, an overflow saturating (R156, R161). -/
def roundState (fs : Nat) (v : Num) : Nat × Bool :=
  let r := fp32.deliver 0 true v
  if fs = 0xB then r else
    let q := bf16.deliver 0 true (f32num r.1)
    (f32 (bf16.decode q.1), r.2 || q.2)

def fmaNum (a b c : Nat) : Num := ((f32num a).mul (f32num b)).add (f32num c)

def at' (l : List Nat) (i : Nat) : Nat := lget 0 l i

/-- One step of the first-order kind: the channel and whether its state saturated. -/
def chanStep0 (fs : Nat) (first : Bool) (a b x : Nat) (ch : Chan) : Chan × Bool :=
  let u := f32mul b x
  let P := if first then a else f32mul (at' ch.p 0) a
  let U := if first then u else f32fma a (at' ch.u 0) u
  let hin := if first then at' ch.h 0 else at' ch.hin 0
  let r := roundState fs (fmaNum P hin U)
  (⟨[r.1], [P], [U], [hin]⟩, r.2)

/-- One step of a second-order section (R157). -/
def chanStep1 (fs : Nat) (first : Bool) (a b : List Nat) (x : Nat) (ch : Chan) : Chan × Bool :=
  let el (i j : Nat) : Nat := at' a (2 * i + j)
  let pOld (i j : Nat) : Nat := at' ch.p (2 * i + j)
  let prod (i j : Nat) : Nat := f32fma (el i 0) (pOld 0 j) (f32mul (el i 1) (pOld 1 j))
  let P := if first then a else [prod 0 0, prod 0 1, prod 1 0, prod 1 1]
  let sum (i : Nat) : Nat :=
    f32fma (el i 0) (at' ch.u 0) (f32fma (el i 1) (at' ch.u 1) (f32mul (at' b i) x))
  let U := if first then [f32mul (at' b 0) x, f32mul (at' b 1) x] else [sum 0, sum 1]
  let hin := if first then ch.h else ch.hin
  let out (i : Nat) : Nat × Bool :=
    roundState fs (fmaNum (at' P (2 * i)) (at' hin 0) (f32fma (at' P (2 * i + 1)) (at' hin 1) (at' U i)))
  (⟨[(out 0).1, (out 1).1], P, U, hin⟩, (out 0).2 || (out 1).2)

/-- Output values of a channel at a step (R155, R156). -/
def chanOut (b : SBody) (c : List Nat) (d x : Nat) (ch : Chan) : List Nat :=
  if b.yMode = 1 then ch.h
  else if b.order = 0 then [f32fma (at' c 0) (at' ch.h 0) (f32mul d x)]
  else [f32fma (at' c 0) (at' ch.h 0) (f32fma (at' c 1) (at' ch.h 1) (f32mul d x))]

/-- The parameter rows b, c and d. -/
structure ScanParams where
  b : List Nat
  c : List Nat
  d : List Nat
  deriving DecidableEq, Repr

def State.scanParams (s : State) (node : Nat) (b : SBody) : ScanParams :=
  ⟨s.vecRow node b.gridP 0, s.vecRow node b.gridP 1, s.vecRow node b.gridP 2⟩

/-- The slice of a row that belongs to channel `i`, `k` values wide. -/
def slice (l : List Nat) (k i : Nat) : List Nat := (l.drop (k * i)).take k

/-- One step of every channel: channels, output row, saturation of the state. -/
def scanStep (b : SBody) (q : ScanParams) (first : Bool) (as xs : List Nat) (chs : List Chan) : List Chan × List Nat × Bool :=
  (chs.zipIdx).foldr (fun e (acc : List Chan × List Nat × Bool) =>
    let x := at' xs e.2
    let r := if b.order = 0 then chanStep0 b.fs first (at' as e.2) (at' q.b e.2) x e.1
      else chanStep1 b.fs first (slice as 4 e.2) (slice q.b 2 e.2) x e.1
    (r.1 :: acc.1, chanOut b (slice q.c b.k e.2) (at' q.d e.2) x r.1 ++ acc.2.1, acc.2.2 || r.2)) ([], [], false)

/-- The A row of a step, through the gate (R156). -/
def State.scanA (s : State) (node : Nat) (b : SBody) (row : Nat) : List Nat :=
  (s.vecRow node b.gridA (if b.aConst then 0 else row)).map (s.gate node b.gateTbl)

/-- Cells and saturation of a Y row. -/
def yCells (node : Nat) (b : SBody) (row : Nat) (ys : List Nat) : List (Nat × Byte) × Bool :=
  ys.zipIdx.foldr (fun p (q : List (Nat × Byte) × Bool) =>
    let d := deliverNum b.fy 0 b.satInf (f32num p.1)
    (valueCells (glob node (b.gridY.eltAddr row p.2)) (fmtBytes b.fy) d.1 ++ q.1, q.2 || d.2)) ([], false)

/-- Cells of the state row. -/
def stateCells (node : Nat) (b : SBody) (hs : List Nat) : List (Nat × Byte) :=
  hs.zipIdx.flatMap (fun p => valueCells (glob node (b.gridS.eltAddr 0 p.2)) (fmtBytes b.fs)
    (if b.fs = 0xB then p.1 else (bf16.deliver 0 true (f32num p.1)).1))

/-- Channels that start from a list of state values. -/
def startChans (b : SBody) (hs : List Nat) : List Chan :=
  (List.range b.n).map (fun i => ⟨slice hs b.k i, [], [], []⟩)

/-- Run steps `[i, i + k)` of a SCAN, writing Y rows: state, channels, saturation. -/
def State.scanSteps (part node : Nat) (b : SBody) (q : ScanParams) (src : State) : Nat → Nat → Bool → State → List Chan → Bool →
    State × List Chan × Bool
  | 0, _, _, s, chs, sat => (s, chs, sat)
  | k + 1, i, fresh, s, chs, sat =>
    let first := fresh || (b.origin + i) % b.segLen == 0
    let r := scanStep b q first (src.scanA node b i) (src.vecRow node b.gridX i) chs
    let y := if b.yMode = 0 then ([], false) else yCells node b i r.2.1
    State.scanSteps part node b q src k (i + 1) false (s.scatter part y.1) r.1 (sat || r.2.2 || y.2)

/-- First step of unit `u`: units end at absolute steps that are multiples of 4,096 (R170). -/
def SBody.unitStart (b : SBody) (u : Nat) : Nat := if u = 0 then 0 else min b.t ((b.origin / 4096 + u) * 4096 - b.origin)
def SBody.units (b : SBody) : Nat := (b.origin + b.t - 1) / 4096 - b.origin / 4096 + 1

/-- Add to ONX_Q_ESTEPCNT (R178). -/
def State.countSteps (s : State) (node k : Nat) : State :=
  s.setO ONX_Q_ESTEPCNT.COUNT node 0 (s.getO ONX_Q_ESTEPCNT.COUNT node 0 + k)

/-- The initial state values of a scan-engine body (R156). -/
def State.scanStart (s : State) (node : Nat) (b : SBody) : List Nat :=
  if b.stateIn then s.vecRow node b.gridS 0 else List.replicate (b.k * b.n) 0

/-- Carry a SCAN over units `[lo, hi)`. -/
def State.scanUnits (s : State) (part node : Nat) (b : SBody) (start : List Nat) (lo hi : Nat) : State × List Chan × Bool :=
  State.scanSteps part node b (s.scanParams node b) s (b.unitStart hi - b.unitStart lo) (b.unitStart lo) true s (startChans b start) false

/-- What a SCAN does (R156 to R163, R170). -/
def State.scanPlan (s : State) (node : Nat) (x : Cmd) : Plan :=
  let b : SBody := ⟨x.body⟩
  let part := s.ctxPart x.ctx
  let begin' (st : State) : List Nat := if x.unitsDone = 0 then st.scanStart node b else x.saved
  { units := b.units
    reads := (b.gridX.sectors node ++ b.gridA.sectors node ++ b.gridP.sectors node ++
      (if b.stateIn then b.gridS.sectors node else [])).foldl sinsert []
    dests := (if b.yMode = 0 then [] else b.gridY.sectors node) ++ b.gridS.sectors node
    run := fun lo hi st =>
      let r := st.scanUnits part node b (begin' st) lo hi
      let s1 := if b.units ≤ hi then r.1.scatter part (stateCells node b (r.2.1.flatMap (·.h))) else r.1
      (s1.countSteps node (b.n * (b.unitStart hi - b.unitStart lo)), if r.2.2 then [.okSaturated] else [])
    keep := fun hi st => (st.scanUnits part node b (begin' st) x.unitsDone hi).2.1.flatMap (·.h) }

/-- Plan a SCAN (R164, R171). -/
def State.planScan (s : State) (node : Nat) (x : Cmd) : Planned :=
  s.guardPlan (s.ctxPart x.ctx) (s.scanPlan node x) (x.onStart (faultsOf (s.scanBad node x) false))

/-! ## Held table writes (R174) -/

/-- Is XMIN a multiple of 2^(k - 8) (R174)? -/
def gcfgOk (val : Nat) : Bool :=
  match f32num (bits val 0 32) with
  | .fin neg m e =>
    let n : Num := (Num.fin neg m e).shift (8 - sx 5 (bits val 32 5))
    ((Num.ofInt n.floor 0).sub n).isZero
  | _ => false

/-- GATE_TABLE_WRITE (R174): `off` is the offset in ONX_Q, of a GCFG or of a pair of a table. -/
def execGateTableWrite (src : Src) (node off val : Nat) (s : State) : Outcome State Fault Refusal := s.onClock <|
  if !s.onyxWrites src node 2 then .next (s.onyxTurned src node 2) else
    match gateOf off with
    | none => .next s
    | some t =>
      if off < 0x10000 && !gcfgOk val then .next (s.setO ONX_Q_STATUS.CFG_ERR node 0 1)
      else if s.gateInUse node t then .next { s with seq := { s.seq with heldGate := s.seq.heldGate ++ [(node, off, val)] } }
      else .next (s.applyGate node off val)

/-! ## Scan-engine commands -/

/-- The scan-engine command of a node with an operation. -/
def State.scanCmd (s : State) (is : Nat → Bool) (node : Nat) : Option Cmd :=
  match s.executing node 3 with
  | some x => if is (SBody.op ⟨x.body⟩) then some x else none
  | none => none

/-- SCAN (R156). A reserved operation is refused here. -/
def execScan (node : Nat) (errs : ReadErrs) (s : State) : Outcome State Fault Refusal := s.onClock <|
  match s.scanCmd (fun o => o == 0 || decide (2 < o)) node with
  | none => .next s
  | some x => .next (s.runToEnd x (s.planScan node x) errs).releaseGate

/-- The sectors that a stream works on: its grids, and its state row, which STREAM_OPEN loads or zeroes (R166). -/
def State.openPlan (node : Nat) (b : SBody) : Plan :=
  { units := 1, reads := (b.grids.flatMap (fun g => g.sectors node)).foldl sinsert [], dests := b.gridS.sectors node
    run := fun _ _ st => (st, []) }

/-- STREAM_OPEN (R166). -/
def execStreamOpen (node : Nat) (errs : ReadErrs) (s : State) : Outcome State Fault Refusal := s.onClock <|
  match s.scanCmd (fun o => o == 1) node with
  | none => .next s
  | some x =>
    let b : SBody := ⟨x.body⟩
    let part := s.ctxPart x.ctx
    match s.guardPlan part (State.openPlan node b) (faultsOf (s.scanBad node x) false) with
    | .refused st => .next ((if st = .denied then s.countRefusal else s).finish x st 0)
    | .plan q =>
      let r := s.readSectors part true errs (if b.stateIn then q.dests else [])
      let bad := r.lost || r.poison
      let s1 := if b.stateIn then (if bad then r.st.poisonAll q.dests else r.st)
        else r.st.scatter part (stateCells node b (List.replicate (b.k * b.n) 0))
      let slot := b.slot
      let s2 := ((((s1.setO ONX_Q_STREAM.OPEN node slot 1).setO ONX_Q_STREAM.POISON node slot 0).setO ONX_Q_STREAM.PENDING node slot 0).setO
        ONX_Q_STREAM.NEXT node slot b.origin).setO ONX_Q_STATUS.OPEN node 0 (setBit (s1.getO ONX_Q_STATUS.OPEN node 0) slot true)
      let s3 : State := { s2 with seq := { s2.seq with streams := tset s2.seq.streams (8 * node + slot) { ctx := x.ctx, body := x.body } } }
      .next (s3.finish x (pickStatus ((if r.lost then [.tileUncorrectable] else []) ++ (if r.poison then [.poisonedInput] else []))) 0)

/-- STREAM_CLOSE (R167): waits while a step of the slot is in progress. -/
def execStreamClose (node : Nat) (s : State) : Outcome State Fault Refusal := s.onClock <|
  match s.scanCmd (fun o => o == 2) node with
  | none => .next s
  | some x =>
    let slot := SBody.slot ⟨x.body⟩
    if s.scanBad node x then .next (s.finish x .badDescriptor 0)
    else if tfind s.seq.stepping node = some slot then .next s
    else
      let st := if s.getO ONX_Q_STREAM.POISON node slot = 1 then Status.poisonedInput else .ok
      .next ((s.closeSlot node slot).releaseGate.finish x st (s.getO ONX_Q_STREAM.PENDING node slot))

/-! ## Streams (R166 to R169) -/

/-- Put `add` steps of a slot accepted at package time `now` into the queue: after every step accepted earlier, and among those accepted in
the same cycle after the slots below it (R168). -/
def queueSteps (now slot add : Nat) (q : List (Nat × Nat)) : List (Nat × Nat) :=
  let ahead := fun e : Nat × Nat => e.1 != now || decide (e.2 ≤ slot)
  q.filter ahead ++ List.replicate add (now, slot) ++ q.filter (fun e => !ahead e)

/-- Ring the doorbell of a slot (R166, R168). -/
def State.ringDoorbell (s : State) (node slot add : Nat) : State :=
  if add = 0 || s.getO ONX_Q_STREAM.OPEN node slot = 0 then s
  else if 255 < s.getO ONX_Q_STREAM.PENDING node slot + add then s.setO ONX_Q_STREAM.OVF node slot 1
  else
    let s1 := s.setO ONX_Q_STREAM.PENDING node slot (s.getO ONX_Q_STREAM.PENDING node slot + add)
    { s1 with seq := { s1.seq with queue := tset s1.seq.queue node (queueSteps s.time.now slot add (tget [] s1.seq.queue node)) } }

/-- STREAM_DOORBELL (R166): a write of ADD to ONX_Q_STEP_s. -/
def execStreamDoorbell (src : Src) (node slot val : Nat) (s : State) : Outcome State Fault Refusal := s.onClock <|
  if !s.onyxWrites src node 2 then .next (s.onyxTurned src node 2)
  else if 8 ≤ slot then .next s
  else .next (s.ringDoorbell node slot (bits val 0 8))

/-- Is a slot being closed, so that none of its pending steps starts (R167): its context has ended, or a STREAM_CLOSE of it waits? -/
def State.slotCloses (s : State) (node slot : Nat) : Bool :=
  (match tfind s.seq.streams (8 * node + slot) with
   | some w => w.closing
   | none => true) ||
  (match s.scanCmd (fun o => o == 2) node with
   | some x => SBody.slot ⟨x.body⟩ == slot && !s.scanBad node x
   | none => false)

/-- The step that starts next on a node: the oldest accepted one whose slot is not being closed, and whose doorbell was accepted in an
earlier cycle, so that the order of one cycle is settled (R168: a step is issued 2 cycles after its doorbell). -/
def State.nextStep (s : State) (node : Nat) : Option (Nat × Nat) :=
  (tget [] s.seq.queue node).find? (fun e => e.1 != s.time.now && !s.slotCloses node e.2)

/-- STREAM_STEP (R168): the next step starts on the lanes if none is in progress. -/
def execStreamStep (node : Nat) (s : State) : Outcome State Fault Refusal := s.onClock <|
  match s.nextStep node with
  | none => .next s
  | some e =>
    if thas s.seq.stepping node then .next s else
      .next { s with seq := { s.seq with
        queue := tset s.seq.queue node ((tget [] s.seq.queue node).erase e), stepping := tset s.seq.stepping node e.2 } }

/-- Sectors of one row of a grid. -/
def Grid.rowSectors (g : Grid) (node m : Nat) : List Nat := (List.range g.tileCols).map (fun c => glob node (g.row m c))

/-- The step of a stream: rows read, one pass of R156 with L = 1, Y row and state row written (R159, R166, R169). -/
def State.streamPass (s : State) (node slot : Nat) (w : Stream) (errs : ReadErrs) : State :=
  let b : SBody := ⟨w.body⟩
  let part := s.ctxPart w.ctx
  let next := s.getO ONX_Q_STREAM.NEXT node slot
  let row := (next + 2 ^ 32 - b.origin) % 2 ^ 32 % b.ring
  let reads := b.gridX.rowSectors node row ++ b.gridA.rowSectors node (if b.aConst then 0 else row) ++ b.gridP.sectors node ++
    b.gridS.sectors node
  let r := s.readSectors part true errs reads
  let q := scanStep b (r.st.scanParams node b) true (r.st.scanA node b row) (r.st.vecRow node b.gridX row)
    (startChans b (r.st.vecRow node b.gridS 0))
  let y := if b.yMode = 0 then [] else (yCells node b row q.2.1).1
  let s1 := r.st.scatter part (y ++ stateCells node b (q.1.flatMap (·.h)))
  let bad := r.lost || r.poison
  let s2 := if bad then s1.poisonAll ((if b.yMode = 0 then [] else b.gridY.rowSectors node row) ++ b.gridS.sectors node) else s1
  let s3 := if bad && s2.getO ONX_Q_STREAM.POISON node slot = 0 then
      (s2.setO ONX_Q_STREAM.POISON node slot 1).event part .poisonedInput 0x03 node part slot 0 w.ctx
    else s2
  ((s3.setO ONX_Q_STREAM.NEXT node slot (next + 1)).setO ONX_Q_STREAM.PENDING node slot (s3.getO ONX_Q_STREAM.PENDING node slot - 1)).countSteps
    node b.n

/-- The step in progress of a slot ends: one pass; a slot whose context has ended closes then (R166 to R169, R174). -/
def State.endStep (s : State) (node slot : Nat) (w : Stream) (errs : ReadErrs) : State :=
  let s1 := s.streamPass node slot w errs
  let s2 : State := { s1 with seq := { s1.seq with stepping := tdel s1.seq.stepping node } }
  (if w.closing then s2.closeSlot node slot else s2).releaseGate

/-- A reset of the Q core of a node waits for the step in progress (R167). -/
def State.drainStep (s : State) (node : Nat) : State :=
  match tfind s.seq.stepping node with
  | none => s
  | some slot =>
    match tfind s.seq.streams (8 * node + slot) with
    | none => s
    | some w => s.endStep node slot w {}

/-- STREAM_STEP_COMPLETE (R166, R168, R169). -/
def execStreamStepComplete (node : Nat) (errs : ReadErrs) (s : State) : Outcome State Fault Refusal := s.onClock <|
  match tfind s.seq.stepping node with
  | none => .next s
  | some slot =>
    match tfind s.seq.streams (8 * node + slot) with
    | none => .next s
    | some w => .next (s.endStep node slot w errs)

/-! ## The gate unit (R175 to R177) -/

/-- A gate body. -/
structure GBody where
  raw : Nat
  deriving DecidableEq, Repr

def GBody.gop (b : GBody) : Nat := bits b.raw 0 4
def GBody.tbl (b : GBody) : Nat := bits b.raw 4 4
def GBody.fx (b : GBody) : Nat := bits b.raw 8 4
def GBody.fy (b : GBody) : Nat := bits b.raw 12 4
def GBody.fz (b : GBody) : Nat := bits b.raw 16 4
def GBody.round (b : GBody) : Nat := bits b.raw 20 2
def GBody.satInf (b : GBody) : Bool := bit b.raw 22
def GBody.yBcast (b : GBody) : Bool := bit b.raw 23
def GBody.ts (b : GBody) : Nat := bits b.raw 24 2
def GBody.rows (b : GBody) : Nat := bits b.raw 32 16 + 1
def GBody.cols (b : GBody) : Nat := bits b.raw 48 20 + 1
def GBody.addr (b : GBody) (i : Nat) : Nat := 4096 * bits b.raw (96 + 32 * i) 28
def GBody.alpha (b : GBody) : Nat := bits b.raw 192 32
def GBody.beta (b : GBody) : Nat := bits b.raw 224 32

def GBody.gridX (b : GBody) : Grid := packed b.fx (tileSize b.ts) (b.addr 0) b.rows b.cols
def GBody.gridY (b : GBody) : Grid := packed b.fy (tileSize b.ts) (b.addr 1) (if b.yBcast then 1 else b.rows) b.cols
def GBody.gridZ (b : GBody) : Grid := packed b.fz (tileSize b.ts) (b.addr 2) b.rows b.cols
def GBody.grids (b : GBody) : List Grid := [b.gridX, b.gridZ] ++ (if b.gop = 0 then [] else [b.gridY])

/-- BAD_DESCRIPTOR of a gate command (R110, R175, R176). -/
def State.gateBad (s : State) (node : Nat) (b : GBody) : Bool :=
  decide (2 < b.gop) || b.tbl == 6 || b.tbl == 7 || !([9, 0xA, 0xB].contains b.fx) ||
  (if b.gop = 0 then b.fy != 0 || b.addr 1 != 0 else !([9, 0xA, 0xB].contains b.fy)) || !([3, 4, 9, 0xA, 0xB].contains b.fz) ||
  b.ts == 3 || bits b.raw 26 6 != 0 || bits b.raw 68 28 != 0 || bits b.raw 124 4 != 0 || bits b.raw 156 4 != 0 ||
  bits b.raw 188 4 != 0 || bits b.raw 256 128 != 0 ||
  b.grids.any (fun g => g.addr % g.size != 0 || !s.gridPlaced node 1 g) || anyOverlap (b.grids.map Grid.span)

/-- The fp32 result of one element (R175). -/
def State.gateElt (s : State) (node : Nat) (b : GBody) (x y : Nat) : Nat :=
  match b.gop with
  | 0 => s.gate node b.tbl (f32fma b.alpha x b.beta)
  | 1 => f32mul (s.gate node b.tbl (f32fma b.alpha x b.beta)) y
  | _ => s.gate node b.tbl (f32mul x y)

/-- One row of a gate command. -/
def State.gateRow (s : State) (part node : Nat) (b : GBody) (m : Nat) : State × Bool :=
  let xs := s.vecRow node b.gridX m
  let ys := if b.gop = 0 then xs else s.vecRow node b.gridY (if b.yBcast then 0 else m)
  let r := (xs.zipWith (s.gateElt node b) ys).zipIdx.foldr (fun p (q : List (Nat × Byte) × Bool) =>
    let d := deliverNum b.fz b.round b.satInf (f32num p.1)
    (valueCells (glob node (b.gridZ.eltAddr m p.2)) (fmtBytes b.fz) d.1 ++ q.1, q.2 || d.2)) ([], false)
  (s.scatter part r.1, r.2)

/-- What a gate command does (R175, R177). -/
def State.gatePlan (s : State) (node : Nat) (x : Cmd) : Plan :=
  let b : GBody := ⟨x.body⟩
  { units := cdiv b.rows 64
    reads := (b.gridX.sectors node ++ (if b.gop = 0 then [] else b.gridY.sectors node)).foldl sinsert []
    dests := b.gridZ.sectors node
    run := fun lo hi st =>
      let rows := (List.range (min b.rows (64 * hi) - 64 * lo)).map (fun i => 64 * lo + i)
      let q := rows.foldl (fun (q : State × Bool) m =>
        let r := q.1.gateRow (s.ctxPart x.ctx) node b m
        (r.1, q.2 || r.2)) (st, false)
      (q.1, if q.2 then [.okSaturated] else []) }

/-- Plan a gate body (R110, R176). -/
def State.planGate (s : State) (node : Nat) (x : Cmd) : Planned :=
  s.guardPlan (s.ctxPart x.ctx) (s.gatePlan node x) (x.onStart (faultsOf (s.gateBad node ⟨x.body⟩) false))

/-- Does a SCAN or a stream step with a gate run on the node (R176)? -/
def State.gateTaken (s : State) (node : Nat) : Bool :=
  (match s.executing node 3 with
   | some x => SBody.op ⟨x.body⟩ == 0 && SBody.gateTbl ⟨x.body⟩ != 0
   | none => false) ||
  (match tfind s.seq.stepping node with
   | some slot =>
     match tfind s.seq.streams (8 * node + slot) with
     | some w => SBody.gateTbl ⟨w.body⟩ != 0
     | none => false
   | none => false)

/-- Run the gate command of a node where its operation satisfies `is`; it waits under R176. -/
def State.gateCommand (s : State) (is : Nat → Bool) (node : Nat) (errs : ReadErrs) : State :=
  match s.executing node 4 with
  | some x =>
    if is (GBody.gop ⟨x.body⟩) && !s.gateTaken node then (s.runToEnd x (s.planGate node x) errs).releaseGate else s
  | none => s

/-- MAP (R175). A reserved operation is refused here. -/
def execMap (node : Nat) (errs : ReadErrs) (s : State) : Outcome State Fault Refusal := s.onClock <|
  .next (s.gateCommand (fun o => o == 0 || decide (2 < o)) node errs)
/-- GMUL (R175). -/
def execGmul (node : Nat) (errs : ReadErrs) (s : State) : Outcome State Fault Refusal := s.onClock <|
  .next (s.gateCommand (fun o => o == 1) node errs)
/-- DECAY (R175). -/
def execDecay (node : Nat) (errs : ReadErrs) (s : State) : Outcome State Fault Refusal := s.onClock <|
  .next (s.gateCommand (fun o => o == 2) node errs)

end Sys2Proof.Machine
end

