-- ==== Sys2Proof/Machine/Solver.lean ====
section
/-! DEFINITION. Chapter 8: the factorisation engine: FACTOR, SOLVE, UPDATE and TRSOLVE over problem records (R179 to R200). -/

namespace Sys2Proof.Machine

open Reg Host

/-- A solver descriptor body (R186). -/
structure LBody where
  raw : Nat
  deriving DecidableEq, Repr

def LBody.op (b : LBody) : Nat := bits b.raw 0 4
/-- KIND: LDLᵀ rather than Cholesky. -/
def LBody.ldlt (b : LBody) : Bool := bit b.raw 4
def LBody.trans (b : LBody) : Bool := bit b.raw 5
def LBody.steps (b : LBody) : Nat := bits b.raw 6 2
def LBody.pack (b : LBody) : Nat := 2 ^ bits b.raw 8 2
def LBody.nrhs (b : LBody) : Nat := bits b.raw 10 3 + 1
def LBody.n (b : LBody) : Nat := bits b.raw 16 7
def LBody.batch (b : LBody) : Nat := bits b.raw 24 9 + 1
def LBody.dcount (b : LBody) : Nat := bits b.raw 48 16
def LBody.pbUnits (b : LBody) : Nat := bits b.raw 64 28
def LBody.dlUnits (b : LBody) : Nat := bits b.raw 96 28
def LBody.pivRel (b : LBody) : Nat := bits b.raw 128 32
def LBody.pivAbs (b : LBody) : Nat := bits b.raw 160 32
def LBody.regVal (b : LBody) : Nat := bits b.raw 192 32
def LBody.pb (b : LBody) : Nat := 4096 * b.pbUnits
def LBody.dl (b : LBody) : Nat := 4096 * b.dlUnits

/-! ## Problem records (R181) -/

/-- Elements of area A and of area B. -/
def LBody.a (b : LBody) : Nat := b.n * (b.n + 1) / 2
def LBody.v (b : LBody) : Nat := b.n * b.nrhs

def LBody.offF (b : LBody) : Nat := 64 + 4 * b.a
def LBody.offRdiag (b : LBody) : Nat := 64 + 8 * b.a
def LBody.offDelta (b : LBody) : Nat := b.offRdiag + 4 * b.n
def LBody.offB (b : LBody) : Nat := b.offRdiag + 8 * b.n
def LBody.offXh (b : LBody) : Nat := b.offB + 4 * b.v
def LBody.offXl (b : LBody) : Nat := b.offB + 8 * b.v
def LBody.offRes (b : LBody) : Nat := b.offB + 12 * b.v
def LBody.recEnd (b : LBody) : Nat := b.offB + 16 * b.v

/-- Local address of the record of problem `q`. -/
def LBody.record (b : LBody) (q : Nat) : Nat := b.pb + 65536 * (q / b.pack) + q % b.pack * (65536 / b.pack)
def LBody.tileCount (b : LBody) : Nat := cdiv b.batch b.pack
def LBody.problems (b : LBody) : List Nat := List.range b.batch
/-- Waves of 64 problems (R180). -/
def LBody.waves (b : LBody) : Nat := cdiv b.batch 64

/-- Global address of byte `off` of the record of problem `q`. -/
def LBody.recAddr (b : LBody) (node q off : Nat) : Nat := glob node (b.record q + off)

/-- `k` fp32 patterns from a global address. -/
def State.floats (s : State) (a k : Nat) : List Nat :=
  let v := s.word a (4 * k)
  (List.range k).map (fun i => bits v (32 * i) 32)

/-- The bytes of fp32 patterns. -/
def floatBytes (l : List Nat) : List Byte := l.flatMap (leBytes 4)

/-- Rows of a packed lower triangle: row `i` has `i + 1` entries. -/
def triRows (n : Nat) (l : List Nat) : List (List Nat) :=
  (List.range n).map (fun i => (l.drop (i * (i + 1) / 2)).take (i + 1))

/-- Element (i, j), j ≤ i. -/
def triAt (t : List (List Nat)) (i j : Nat) : Nat := at' (lget [] t i) j

/-- Element (i, j) of the symmetric matrix whose lower triangle is held. -/
def symAt (t : List (List Nat)) (i j : Nat) : Nat := if j ≤ i then triAt t i j else triAt t j i

/-- Column `r` of right-hand sides stored column-major. -/
def colOf (n r : Nat) (l : List Nat) : List Nat := (l.drop (n * r)).take n

/-! ## What the engine computes (R188 to R191) -/

/-- `s − Σ l × w`, one fused step per term, terms in order. -/
def fmsFold (s : Nat) (ls ws : List Nat) : Nat := (ls.zip ws).foldl (fun acc p => f32fma (f32neg p.1) p.2 acc) s

/-- The pivot rule (R189): the pivot used, its DELTA, and whether it was regularised. `ajj` is a(j, j), `neg` says that the
expected sign is −1. -/
def pivotRule (b : LBody) (neg : Bool) (ajj d : Nat) : Nat × Nat × Bool :=
  let rel := f32mul b.pivRel (f32abs ajj)
  let tau := if f32lt b.pivAbs rel then rel else b.pivAbs
  let wrong := !(f32num d).isZero && (bit d 31 != neg)
  if f32isFinite d && (f32le (f32abs d) tau || wrong) then
    let mag := if f32lt b.regVal tau then tau else b.regVal
    let d' := if neg then f32neg mag else mag
    (d', f32sub d' d, true)
  else (d, 0, false)

/-- A factorisation in progress after columns `0 … j − 1`: the rows of L so far (each with its first `j` entries), D, the
reciprocals, the DELTAs, the pivots and how many were regularised. -/
structure Factoring where
  l : List (List Nat)
  d : List Nat
  rd : List Nat
  delta : List Nat
  pivots : List Nat
  regs : Nat
  deriving DecidableEq, Repr

/-- Column `j` of R188; a NaN that passes through takes the one pattern of R512. -/
def factorColumn (b : LBody) (sign : Nat) (t : List (List Nat)) (f : Factoring) (j : Nat) : Factoring :=
  let lj := lget [] f.l j
  let w := if b.ldlt then lj.zipWith f32mul f.d else lj
  let ajj := triAt t j j
  let p := pivotRule b (b.ldlt && bit sign j) ajj (fmsFold ajj lj w)
  let dj := if b.ldlt then f32 (f32num p.1) else f32sqrt p.1
  let rd := f32div f32one dj
  { l := f.l.zipIdx.map (fun r => if j < r.2 then r.1 ++ [f32mul (fmsFold (triAt t r.2 j) r.1 w) rd] else r.1)
    d := f.d ++ [dj], rd := f.rd ++ [rd], delta := f.delta ++ [p.2.1], pivots := f.pivots ++ [p.1]
    regs := f.regs + b2n p.2.2 }

/-- FACTOR on a triangle (R188). -/
def factorise (b : LBody) (sign : Nat) (t : List (List Nat)) : Factoring :=
  (List.range b.n).foldl (factorColumn b sign t) ⟨List.replicate b.n [], [], [], [], [], 0⟩

/-- Rows of area F: L below the diagonal, D on it. -/
def Factoring.rows (f : Factoring) : List (List Nat) := f.l.zipWith (fun r d => r ++ [d]) f.d

/-- Forward loop: `fin i s` gives y(i) from its sum. -/
def forward (t : List (List Nat)) (fin : Nat → Nat → Nat) (rhs : List Nat) : List Nat :=
  rhs.zipIdx.foldl (fun y p => y ++ [fin p.2 (fmsFold p.1 (lget [] t p.2) y)]) []

/-- Backward loop over rows `n − 1` down to 0: `init i` starts the sum, `fin i s` gives x(i). Answers x(i) for `i ≥ n − k`. -/
def backward (t : List (List Nat)) (n : Nat) (init : Nat → Nat) (fin : Nat → Nat → Nat) : Nat → List Nat
  | 0 => []
  | k + 1 =>
    let i := n - (k + 1)
    let xs := backward t n init fin k
    fin i (fmsFold (init i) ((t.drop (i + 1)).map (fun r => at' r i)) xs) :: xs

/-- One solve with a factor (R190). -/
def solveFactor (ldlt : Bool) (t : List (List Nat)) (rd rhs : List Nat) : List Nat :=
  let n := rhs.length
  let scale (i s : Nat) : Nat := f32mul s (at' rd i)
  let y := forward t (fun i s => if ldlt then s else scale i s) rhs
  backward t n (fun i => if ldlt then scale i (at' y i) else at' y i) (fun i s => if ldlt then s else scale i s) n

/-- One triangular solve (R190, TRSOLVE). -/
def solveTriangle (trans : Bool) (t : List (List Nat)) (rhs : List Nat) : List Nat :=
  let n := rhs.length
  let dvd (i s : Nat) : Nat := f32div s (triAt t i i)
  if trans then backward t n (at' rhs) dvd n else forward t dvd rhs

/-- Element `i` of the residual (R191): the exact sum of its 2n + 3 terms in the anchored accumulator, rounded once. -/
def residualElt (t : List (List Nat)) (delta rhs xh xl : List Nat) (i : Nat) : Nat :=
  let n := rhs.length
  let term (p q : Nat) : Elt × Elt := (mkElt 0xB p 127 0, mkElt 0xB q 127 0)
  let terms := term (at' rhs i) f32one ::
    ((List.range n).flatMap (fun j => [term (f32neg (symAt t i j)) (at' xh j), term (f32neg (symAt t i j)) (at' xl j)]) ++
     [term (f32neg (at' delta i)) (at' xh i), term (f32neg (at' delta i)) (at' xl i)])
  let A := anchorOf (terms.foldl (fun m p => omax m (pairBound p)) none) 8
  ((terms.foldl (fun acc p => acc.addProduct A 8 (mulElt p.1 p.2)) ({} : Acc)).deliver 0xB 0 false A 0).1

/-- The correction of one element (R191): XH and XL from xh, xl and c. -/
def correct (xh xl c : Nat) : Nat × Nat :=
  let s := f32add xh c
  let u := f32sub s xh
  let e := f32add (f32add (f32sub xh (f32sub s u)) (f32sub c u)) xl
  let h := f32add s e
  (h, f32sub e (f32sub h s))

/-- Refinement steps of one right-hand side: XH, XL and the last residual (R191). -/
def refine (t : List (List Nat)) (delta rhs : List Nat) (solve : List Nat → List Nat) :
    Nat → List Nat × List Nat × Option (List Nat) → List Nat × List Nat × Option (List Nat)
  | 0, x => x
  | k + 1, (xh, xl, _) =>
    let r := (List.range rhs.length).map (residualElt t delta rhs xh xl)
    let c := solve r
    let p := ((xh.zip xl).zip c).map (fun q => correct q.1.1 q.1.2 q.2)
    refine t delta rhs solve k (p.map (·.1), p.map (·.2), some r)

/-! ## One problem -/

/-- What SOLVE and the solving part of FACTOR write: the solutions, the residuals and the header fields (R187, R191, R193). -/
def State.solveRecord (s : State) (part node : Nat) (b : LBody) (q : Nat) (f : List (List Nat)) (rd delta : List Nat)
    (pivotsOk : Bool) (head : Nat → Nat) : State :=
  let t := triRows b.n (s.floats (b.recAddr node q 64) b.a)
  let rhs := s.floats (b.recAddr node q b.offB) b.v
  let cols := (List.range b.nrhs).map (fun r =>
    let c := colOf b.n r rhs
    let x := solveFactor b.ldlt f rd c
    refine t delta c (solveFactor b.ldlt f rd) b.steps (x, List.replicate b.n 0, none))
  let xh := cols.flatMap (·.1)
  let xl := cols.flatMap (·.2.1)
  let res := cols.flatMap (fun c => c.2.2.getD [])
  let norm := (res.map f32abs).foldl f32max 0
  let bad := !pivotsOk || (xh ++ xl).any (fun x => !f32isFinite x)
  let s1 := s.writeRun part true (b.recAddr node q b.offXh) (floatBytes (xh ++ xl ++ res))
  let h := head (s.word (b.recAddr node q 0) 8)
  let h1 := setBit h 10 bad
  let h2 := h1 % 2 ^ 24 + b.steps * 2 ^ 24 + norm * 2 ^ 32
  s1.writeWord part (b.recAddr node q 0) 8 h2

/-- FACTOR on the record of problem `q` (R187 to R191, R193). -/
def State.factorRecord (s : State) (part node : Nat) (b : LBody) (q : Nat) : State :=
  let t := triRows b.n (s.floats (b.recAddr node q 64) b.a)
  let f := factorise b (s.word (b.recAddr node q 8) 12) t
  let s1 := s.writeRun part true (b.recAddr node q b.offF) (floatBytes (f.rows.flatten ++ f.rd ++ f.delta))
  let s2 := s1.solveRecord part node b q f.rows f.rd f.delta (f.pivots.all f32isFinite)
    (fun h => setBit (setBit (h % 2 ^ 16 + f.regs * 2 ^ 16) 8 true) 9 b.ldlt)
  s2.countO ONX_L_REGCNT.COUNT node 0 f.regs

/-- SOLVE on the record of problem `q`. -/
def State.solveOnly (s : State) (part node : Nat) (b : LBody) (q : Nat) : State :=
  let f := triRows b.n (s.floats (b.recAddr node q b.offF) b.a)
  s.solveRecord part node b q f (s.floats (b.recAddr node q b.offRdiag) b.n) (s.floats (b.recAddr node q b.offDelta) b.n)
    ((List.range b.n).all (fun j => f32isFinite (triAt f j j))) (fun h => h % 2 ^ 24)

/-- TRSOLVE on the record of problem `q`. -/
def State.triangleRecord (s : State) (part node : Nat) (b : LBody) (q : Nat) : State :=
  let t := triRows b.n (s.floats (b.recAddr node q 64) b.a)
  let rhs := s.floats (b.recAddr node q b.offB) b.v
  let xh := (List.range b.nrhs).flatMap (fun r => solveTriangle b.trans t (colOf b.n r rhs))
  let s1 := s.writeRun part true (b.recAddr node q b.offXh) (floatBytes (xh ++ List.replicate b.v 0))
  let h := setBit (s.word (b.recAddr node q 0) 8 % 2 ^ 24) 10 (xh.any (fun x => !f32isFinite x))
  s1.writeWord part (b.recAddr node q 0) 8 h

/-! ## Delta lists (R184, R185) -/

/-- The entries of the delta list. -/
def State.deltas (s : State) (node : Nat) (b : LBody) : List Nat :=
  let v := s.word (glob node b.dl) (8 * b.dcount)
  (List.range b.dcount).map (fun i => bits v (64 * i) 64)

def deltaIndex (e : Nat) : Nat := bits e 32 13
def deltaProb (e : Nat) : Nat := bits e 48 9
def deltaAdd (e : Nat) : Bool := bit e 63

/-- Is an entry refused (R196)? -/
def LBody.deltaBad (b : LBody) (e : Nat) : Bool :=
  bits e 45 3 != 0 || bits e 57 6 != 0 || decide (b.batch ≤ deltaProb e) || decide (b.a + b.v ≤ deltaIndex e) ||
  (b.op == 1 && decide (deltaIndex e < b.a))

/-- Global address of the element that an entry names. -/
def LBody.deltaAddr (b : LBody) (node e : Nat) : Nat :=
  b.recAddr node (deltaProb e) (if deltaIndex e < b.a then 64 + 4 * deltaIndex e else b.offB + 4 * (deltaIndex e - b.a))

/-- Apply one entry; an UPDATE of an A element clears FACTORED (R185). -/
def State.applyDelta (s : State) (part node : Nat) (b : LBody) (e : Nat) : State :=
  let a := b.deltaAddr node e
  let val := bits e 0 32
  let s1 := s.writeWord part a 4 (if deltaAdd e then f32add (s.word a 4) val else val)
  if b.op = 2 ∧ deltaIndex e < b.a then
    let h := b.recAddr node (deltaProb e) 0
    s1.writeWord part h 8 (setBit (s1.word h 8) 8 false)
  else s1

/-! ## Refusals (R196, R197) -/

def LBody.fieldBad (b : LBody) : Bool :=
  decide (3 < b.op) || (decide (2 ≤ b.op) && (b.ldlt || b.steps != 0)) || (b.op != 3 && b.trans) ||
  bits b.raw 13 3 != 0 || b.n == 0 || decide (96 < b.n) || bit b.raw 23 || bits b.raw 33 15 != 0 || bits b.raw 92 4 != 0 ||
  (b.dcount == 0 && b.dlUnits != 0) || bits b.raw 124 4 != 0 || bits b.raw 224 160 != 0 ||
  (b.op == 0 && (!f32isFinite b.pivRel || f32lt b.pivRel 0 || !f32isFinite b.pivAbs || f32lt b.pivAbs 0 ||
    !f32isFinite b.regVal || !f32lt 0 b.regVal))

/-- BAD_DESCRIPTOR of a solver command (R196). -/
def State.solverBad (s : State) (node : Nat) (b : LBody) : Bool :=
  b.fieldBad || b.pbUnits % 16 != 0 ||
  (List.range b.tileCount).any (fun i => !s.placeOk node 2 (b.pb + 65536 * i) 65536) ||
  (b.dcount != 0 && (!s.placeOk node 2 b.dl (8 * b.dcount) || overlaps (b.dl, 8 * b.dcount) (b.pb, 65536 * b.tileCount) ||
    (s.deltas node b).any b.deltaBad))

/-- BAD_LAYOUT of a solver command (R197). Log entry 69 (DEDUCED). -/
def State.solverLayoutBad (s : State) (node : Nat) (b : LBody) : Bool :=
  decide (65536 / b.pack < b.recEnd) ||
  b.problems.any (fun q =>
    let h := s.word (b.recAddr node q 0) 8
    bits h 0 7 != b.n || (b.op == 1 && (!bit h 8 || bit h 9 != b.ldlt)))

/-! ## Timing (R194) -/

def LBody.factorCycles (b : LBody) : Nat :=
  ((List.range b.n).map (fun j =>
    let m := cdiv (b.n - j) 16
    if b.ldlt then m * j + cdiv j 16 + 10 else m * j + 12)).sum
def LBody.solveCycles (b : LBody) : Nat :=
  2 * ((List.range b.n).map (fun j => cdiv (b.n - j) 16 + 4)).sum + (if b.ldlt then cdiv b.n 16 else 0)
def LBody.refineCycles (b : LBody) : Nat := cdiv (b.n * (2 * b.n + 3)) 16 + 16 + b.solveCycles + 8 * cdiv b.n 16
/-- Cycles per wave, T. -/
def LBody.problemCycles (b : LBody) : Nat :=
  let rhs := b.nrhs * (b.solveCycles + b.steps * b.refineCycles)
  match b.op with
  | 0 => b.factorCycles + rhs
  | 1 => rhs
  | 3 => b.nrhs * ((List.range b.n).map (fun j => cdiv (b.n - j) 16 + 8)).sum
  | _ => 0
/-- Cycles of waves `[lo, hi)`. -/
def LBody.cycles (b : LBody) (lo hi : Nat) : Nat :=
  (if lo = 0 then 64 + 2 * cdiv b.dcount 8 else 0) + (hi - lo) * b.problemCycles + (if hi = b.waves then 32 else 0)

/-- Do every record and the delta list lie in T0, where the count of cycles is exact (R195)? -/
def LBody.inT0 (b : LBody) : Bool :=
  decide (t0Base 2 ≤ b.pb) && (b.dcount == 0 || decide (t0Base 2 ≤ b.dl))

/-- Does another request use the T1 of the die: another engine instance or a stream step at work, or a tile in flight there (R195)? Log
entry 29 (DEDUCED). -/
def State.t1Shared (s : State) (node : Nat) : Bool :=
  (List.range 12).any (fun i => i != 5 && thas s.sched.busy (16 * node + i)) || thas s.seq.stepping node ||
  s.sched.transfers.any (fun e => e.2.flight.any (fun f => f.dies.contains node || (match s.cmd e.1 with
    | some x => x.node == node
    | none => false)))

/-- Count active cycles: where another request uses the T1 that holds a record or the list, the command may take longer by a free number
of cycles (R195). Log entry 29 (DEDUCED). -/
def State.countSolver (s : State) (node : Nat) (b : LBody) (lo hi : Nat) : State :=
  let r := if b.inT0 || !s.t1Shared node then (0, s) else s.draw
  r.2.setO ONX_L_ACTCNT.COUNT node 0 (r.2.getO ONX_L_ACTCNT.COUNT node 0 + b.cycles lo hi + r.1)

/-! ## Plans -/

/-- The areas of a record that the operation reads, as offsets and lengths. -/
def LBody.readAreas (b : LBody) : List (Nat × Nat) :=
  match b.op with
  | 0 => [(0, 64), (64, 4 * b.a), (b.offB, 4 * b.v)]
  | 1 => [(0, 64)] ++ (if b.steps = 0 then [] else [(64, 4 * b.a)]) ++ [(b.offF, b.offXh - b.offF)]
  | 2 => [(0, 64)]
  | _ => [(0, 64), (64, 4 * b.a), (b.offB, 4 * b.v)]

/-- Sectors that a solver command reads. -/
def State.solverReads (s : State) (node : Nat) (b : LBody) : List Nat :=
  (sectorsOf (glob node b.dl) (8 * b.dcount) ++
   ((s.deltas node b).filter deltaAdd).map (fun e => sectorOf (b.deltaAddr node e)) ++
   b.problems.flatMap (fun q => b.readAreas.flatMap (fun r => sectorsOf (b.recAddr node q r.1) r.2))).foldl sinsert []

/-- Sectors of the records. -/
def LBody.recSectors (b : LBody) (node : Nat) : List Nat :=
  (b.problems.flatMap (fun q => sectorsOf (b.recAddr node q 0) b.recEnd)).foldl sinsert []

/-- The operation on one problem (R187). -/
def State.solveProblem (s : State) (part node : Nat) (b : LBody) (q : Nat) : State :=
  match b.op with
  | 0 => s.factorRecord part node b q
  | 1 => s.solveOnly part node b q
  | 2 => s
  | _ => s.triangleRecord part node b q

/-- Problems of waves `[lo, hi)`. -/
def LBody.waveProblems (b : LBody) (lo hi : Nat) : List Nat := b.problems.filter (fun q => decide (64 * lo ≤ q) && decide (q < 64 * hi))

/-- Problems of the command whose header counts a regularised pivot (R198). -/
def State.regularised (s : State) (node : Nat) (b : LBody) (l : List Nat) : Nat :=
  (l.filter (fun q => bits (s.word (b.recAddr node q 0) 8) 16 7 != 0)).length

/-- What a solver command does (R185 to R198): the deltas before its first wave, then its waves. -/
def State.solverPlan (s : State) (node : Nat) (x : Cmd) : Plan :=
  let b : LBody := ⟨x.body⟩
  let part := s.ctxPart x.ctx
  { units := b.waves
    reads := s.solverReads node b
    dests := b.recSectors node
    result := fun st => st.regularised node b b.problems
    run := fun lo hi st =>
      let s1 := if lo = 0 then (st.deltas node b).foldl (fun t e => t.applyDelta part node b e) st else st
      let qs := b.waveProblems lo hi
      let s2 := qs.foldl (fun t q => t.solveProblem part node b q) s1
      let s3 := if b.op = 2 then s2
        else s2.setO ONX_L_PROBCNT.COUNT node 0 (s2.getO ONX_L_PROBCNT.COUNT node 0 + qs.length)
      (s3.countSolver node b lo hi, if b.op = 0 ∧ s3.regularised node b qs ≠ 0 then [.okRegularised] else []) }

/-- What a solver body is refused for: the list and the headers are checked before any delta is applied (R185, R196, R197). -/
def State.solverFaults (s : State) (node : Nat) (b : LBody) : List Status := faultsOf (s.solverBad node b) (s.solverLayoutBad node b)

/-- Plan a solver body (R196 to R198). Log entry 30 (DESIGN CHOICE). -/
def State.planSolver (s : State) (node : Nat) (x : Cmd) : Planned :=
  s.guardPlan (s.ctxPart x.ctx) (s.solverPlan node x) (x.onStart (s.solverFaults node ⟨x.body⟩))

/-- Run the solver command of a node where its operation satisfies `is`. -/
def State.solverCommand (s : State) (is : Nat → Bool) (node : Nat) (errs : ReadErrs) : State :=
  match s.executing node 5 with
  | some x => if is (LBody.op ⟨x.body⟩) then s.runToEnd x (s.planSolver node x) errs else s
  | none => s

/-- FACTOR (R187 to R191). A reserved operation is refused here. -/
def execFactor (node : Nat) (errs : ReadErrs) (s : State) : Outcome State Fault Refusal := s.onClock <|
  .next (s.solverCommand (fun o => o == 0 || decide (3 < o)) node errs)
/-- SOLVE (R187, R190, R191). -/
def execSolve (node : Nat) (errs : ReadErrs) (s : State) : Outcome State Fault Refusal := s.onClock <|
  .next (s.solverCommand (fun o => o == 1) node errs)
/-- UPDATE (R185, R187). -/
def execUpdate (node : Nat) (errs : ReadErrs) (s : State) : Outcome State Fault Refusal := s.onClock <|
  .next (s.solverCommand (fun o => o == 2) node errs)
/-- TRSOLVE (R187, R190). -/
def execTrsolve (node : Nat) (errs : ReadErrs) (s : State) : Outcome State Fault Refusal := s.onClock <|
  .next (s.solverCommand (fun o => o == 3) node errs)

end Sys2Proof.Machine
end

