-- ==== Sys2Proof/Machine/Voxel.lean ====
section
/-! DEFINITION. Chapter 9: map slots and the voxel unit (R201 to R213, R227 to R229, R234). -/

namespace Sys2Proof.Machine

open Reg Host

/-- A geometry descriptor body (R227). -/
structure NBody where
  raw : Nat
  deriving DecidableEq, Repr

def NBody.op (b : NBody) : Nat := bits b.raw 0 4
def NBody.map (b : NBody) : Nat := bits b.raw 4 2
def NBody.model (b : NBody) : Nat := bits b.raw 6 2
def NBody.epochSel (b : NBody) : Bool := bit b.raw 8
def NBody.k (b : NBody) : Nat := bits b.raw 9 3 + 1
def NBody.count (b : NBody) : Nat := bits b.raw 16 16 + 1
def NBody.epoch (b : NBody) : Nat := bits b.raw 32 32
def NBody.units (b : NBody) (i : Nat) : Nat := bits b.raw (64 + 32 * i) 28
def NBody.addr (b : NBody) (i : Nat) : Nat := 4096 * b.units i
def NBody.param (b : NBody) : Nat := bits b.raw 160 32
def NBody.seed (b : NBody) : Nat := bits b.raw 192 32
def NBody.shift (b : NBody) (axis : Nat) : Int :=
  match axis with
  | 0 => sx 8 (bits b.raw 192 8)
  | 1 => sx 8 (bits b.raw 200 8)
  | _ => sx 6 (bits b.raw 208 6)
def NBody.limit (b : NBody) : Nat := bits b.raw 224 16 + 1
def NBody.goalBias (b : NBody) : Nat := bits b.raw 240 8

/-- Reserved bits and values of R227 and the address fields of R228. -/
def NBody.fieldBad (b : NBody) : Bool :=
  decide (7 < b.op) || bits b.raw 12 4 != 0 || bits b.raw 92 4 != 0 || bits b.raw 124 4 != 0 || bits b.raw 156 4 != 0 ||
  bits b.raw 248 136 != 0 ||
  (b.op == 1 && (bits b.raw 214 10 != 0 || b.count != 1)) ||
  ((b.op == 1 || b.op == 6) && b.units 0 != 0) || (b.op == 1 && b.units 1 != 0) || (decide (b.op ≤ 2) && b.units 2 != 0)

/-! ## Map slots -/

/-- Bytes of a map area (R208). -/
def mapAreaLen : Nat := 8650752

def State.mapArea (s : State) (node m : Nat) : Nat := 4096 * s.getO ONX_G_MAPCFG.DIR_BASE node m
def State.mapOn (s : State) (node m : Nat) : Bool := s.getO ONX_G_MAPCFG.ENABLE node m == 1
def State.unknownBlocks (s : State) (node m : Nat) : Bool := s.getO ONX_G_MAPCFG.UNKNOWN_BLOCKS node m == 1
def State.mapEpoch (s : State) (node m : Nat) : Nat := s.getO ONX_G_MAPSTAT.EPOCH node m
def State.poolBricks (s : State) (node m : Nat) : Nat := s.getO ONX_G_MAPPOOL.POOL_BRICKS node m

/-- Global address of directory buffer `k`. -/
def State.dirBase (s : State) (node m k : Nat) : Nat := glob node (s.mapArea node m + 0x400000 * k)
/-- Global address of pool brick `b`. -/
def State.brickAddr (s : State) (node m b : Nat) : Nat := glob node (4096 * s.getO ONX_G_MAPPOOL.POOL_BASE node m + 16384 * b)

/-- Does a run of local bytes lie in T2 or in scratch T1 ways (R201)? -/
def State.mapPlace (s : State) (node a len : Nat) : Bool :=
  decide (a + len ≤ 0x1000000000) || (decide (a < t0Base 0) && s.placeOk node 3 a len)

/-- Do the map area and the pool of a slot lie where R201 wants them? -/
def State.mapPlaced (s : State) (node m : Nat) : Bool :=
  s.mapPlace node (s.mapArea node m) mapAreaLen &&
  (s.poolBricks node m == 0 || s.mapPlace node (4096 * s.getO ONX_G_MAPPOOL.POOL_BASE node m) (16384 * s.poolBricks node m))

/-- Is a slot zeroing its map area, so that commands that name it wait (R208)? -/
def State.mapWaits (s : State) (node m : Nat) : Bool := (s.geoMap node m).zeroing

/-! ### Directory entries (R205) and bricks (R203, R204) -/

def dirBrick (e : Nat) : Nat := bits e 0 21
def dirPresent (e : Nat) : Bool := bits e 21 2 == 1
def dirBlocks (e : Nat) : Bool := bit e 23
def dirEpoch (e : Nat) : Nat := bits e 32 32
def dirEntry (brick : Nat) (blocks : Bool) (epoch : Nat) : Nat := brick + 2 ^ 21 + b2n blocks * 2 ^ 23 + epoch * 2 ^ 32

/-- Index of a brick in the directory. -/
def brickIndex (bx by' bz : Nat) : Nat := bx + 128 * by' + 16384 * bz
def brickX (i : Nat) : Nat := i % 128
def brickY (i : Nat) : Nat := i / 128 % 128
def brickZ (i : Nat) : Nat := i / 16384
def brickCount : Nat := 524288

/-- The brick displaced from brick `i`, if it lies in the extent. -/
def brickShift (i : Nat) (dx dy dz : Int) : Option Nat :=
  let x := (brickX i : Int) + dx
  let y := (brickY i : Int) + dy
  let z := (brickZ i : Int) + dz
  if 0 ≤ x ∧ x < 128 ∧ 0 ≤ y ∧ y < 128 ∧ 0 ≤ z ∧ z < 32 then some (brickIndex x.toNat y.toNat z.toNat) else none

/-- The 26 neighbours of a brick inside the extent. -/
def brickNeighbours (i : Nat) : List Nat :=
  let d : List Int := [-1, 0, 1]
  d.flatMap (fun dx => d.flatMap (fun dy => d.filterMap (fun dz =>
    if dx = 0 ∧ dy = 0 ∧ dz = 0 then none else brickShift i dx dy dz)))

/-- Entries of a directory buffer. -/
def State.dirList (s : State) (base : Nat) : List Nat :=
  (List.range 16384).flatMap (fun i =>
    let v := s.word (base + 256 * i) 256
    (List.range 32).map (fun j => bits v (64 * j) 64))

/-- Pool bricks that a directory buffer references. -/
def State.dirBricks (s : State) (base : Nat) : List Nat := ((s.dirList base).filter dirPresent).map dirBrick

/-- The cells of a brick (R204). -/
def State.brickCells (s : State) (node m b : Nat) : List Nat :=
  (List.range 64).flatMap (fun i =>
    let v := s.word (s.brickAddr node m b + 256 * i) 256
    (List.range 64).map (fun j => bits v (32 * j) 32))

def absentCells : List Nat := List.replicate 4096 0

/-- The cells of a directory entry's brick; those of an ABSENT brick are zeros. -/
def State.entryCells (s : State) (node m e : Nat) : List Nat := if dirPresent e then s.brickCells node m (dirBrick e) else absentCells

def cellLog (c : Nat) : Int := sx 8 (bits c 0 8)
def cellSeen (c : Nat) : Bool := bit c 8
def cellClass (c : Nat) : Nat := bits c 9 2
def cellDist (c : Nat) : Nat := bits c 16 16
def mkCell (log : Int) (seen : Bool) (cls dist : Nat) : Nat := ux 8 log + b2n seen * 2 ^ 8 + cls * 2 ^ 9 + dist * 2 ^ 16

def State.writeBrick (s : State) (part node m b : Nat) (cells : List Nat) : State :=
  s.writeRun part true (s.brickAddr node m b) (cells.flatMap (leBytes 4))

def State.brickSectors (s : State) (node m b : Nat) : List Nat := sectorsOf (s.brickAddr node m b) 16384

/-! ### The pool -/

/-- Pool bricks in use: referenced by the published epoch, by the retained one, or by the pending table (R209, R210). -/
def State.usedBricks (s : State) (node m : Nat) : List Nat :=
  let buf := s.getO ONX_G_MAPSTAT.BUF node m
  let g := s.geoMap node m
  (s.dirBricks (s.dirBase node m buf) ++ (if g.retained then s.dirBricks (s.dirBase node m (1 - buf)) else []) ++
    g.pending.map (·.2)).foldl sinsert []

/-- Free bricks: brick 0 is not used (R234). -/
def State.freeBricks (s : State) (node m : Nat) : Nat := s.poolBricks node m - 1 - (s.usedBricks node m).length

/-- Show FREE and PENDING (R234). -/
def State.showPool (s : State) (node m : Nat) : State :=
  (s.setO ONX_G_MAPSTAT.FREE node m (s.freeBricks node m)).setO ONX_G_MAPSTAT.PENDING node m
    (b2n !(s.geoMap node m).pending.isEmpty)

/-- The next brick of a pool not in `used`, from `i` on, brick 0 left out. -/
def nextFree (pool : Nat) (used : List Nat) : Nat → Nat → Nat
  | 0, i => i
  | k + 1, i => if i = 0 ∨ pool ≤ i ∨ used.contains i then nextFree pool used k (if pool ≤ i + 1 then 1 else i + 1) else i

/-- Take a fresh brick of the pool: which one is open (DEDUCED, log entry 35). -/
def State.takeBrick (s : State) (node m : Nat) (used : List Nat) : Nat × State :=
  let pool := s.poolBricks node m
  let d := s.draw
  (nextFree pool used (used.length + 2) (1 + d.1 % (pool - 1)), d.2)

/-! ## INTEGRATE (R209) -/

/-- Entry `i` of an INTEGRATE. -/
def State.intEntry (s : State) (node : Nat) (b : NBody) (i : Nat) : Nat := s.word (glob node (b.addr 0 + 8 * i)) 8
def intBrick (e : Nat) : Nat := brickIndex (bits e 0 7) (bits e 7 7) (bits e 14 5)

/-- Add a tile of increments to cells. -/
def addIncrements (cells : List Nat) (inc : List Byte) : List Nat :=
  cells.zipWith (fun c (d : Byte) =>
    mkCell (clampI (-128) 127 (cellLog c + sx 8 d.toNat)) (cellSeen c || d != 0) (cellClass c) (cellDist c)) inc

/-- Why INTEGRATE stopped short, and how far it came. -/
structure Integrated where
  st : State
  applied : Nat := 0
  full : Bool := false
  bricks : List Nat := []

/-- Apply entry `i`, unless an earlier one found no brick. -/
def integrateOne (part node : Nat) (b : NBody) (q : Integrated) (i : Nat) : Integrated :=
  if q.full then q else
    let m := b.map
    let s := q.st
    let idx := intBrick (s.intEntry node b i)
    let g := s.geoMap node m
    let inc := s.bytes (glob node (b.addr 1 + 4096 * i)) 4096
    match tfind g.pending idx with
    | some p => { q with
        st := s.writeBrick part node m p (addIncrements (s.brickCells node m p) inc), applied := i + 1, bricks := sinsert q.bricks p }
    | none =>
      let used := s.usedBricks node m
      if 65536 ≤ g.pending.length ∨ s.poolBricks node m ≤ 1 + used.length then { q with full := true }
      else
        let e := s.word (s.dirBase node m (s.getO ONX_G_MAPSTAT.BUF node m) + 8 * idx) 8
        let t := s.takeBrick node m used
        let cells := addIncrements (s.entryCells node m e) inc
        let slot := glob node (s.mapArea node m + 0x800000 + 4 * g.pending.length)
        let s1 := (t.2.writeBrick part node m t.1 cells).writeWord part slot 4 t.2.draw.1
        { st := ({ s1 with freeCount := s1.freeCount + 1 } : State).setGeo node m { g with pending := tset g.pending idx t.1 }
          applied := i + 1, full := false, bricks := sinsert q.bricks t.1 }

/-- Sectors that INTEGRATE reads. -/
def State.integrateReads (s : State) (node : Nat) (b : NBody) : List Nat :=
  let m := b.map
  let dir := s.dirBase node m (s.getO ONX_G_MAPSTAT.BUF node m)
  (sectorsOf (glob node (b.addr 0)) (8 * b.count) ++ sectorsOf (glob node (b.addr 1)) (4096 * b.count) ++
   (List.range b.count).flatMap (fun i =>
     let idx := intBrick (s.intEntry node b i)
     match tfind (s.geoMap node m).pending idx with
     | some p => s.brickSectors node m p
     | none =>
       let e := s.word (dir + 8 * idx) 8
       sectorOf (dir + 8 * idx) :: (if dirPresent e then s.brickSectors node m (dirBrick e) else []))).foldl sinsert []

/-- May a partition touch the map of a slot (R426)? -/
def State.mapDenied (s : State) (part node m : Nat) (reads : List Run) : Bool :=
  let area : List Run := [⟨false, glob node (s.mapArea node m), mapAreaLen⟩, ⟨false, s.brickAddr node m 0, 16384 * s.poolBricks node m⟩]
  s.denied part false (reads ++ area) area

/-- Does a map lie in the channels of another partition (R308)? -/
def State.mapForeign (s : State) (part node m : Nat) : Bool :=
  s.rangeForeign part node (s.mapArea node m) mapAreaLen ||
  s.rangeForeign part node (4096 * s.getO ONX_G_MAPPOOL.POOL_BASE node m) (16384 * s.poolBricks node m)

/-- Does EPOCH_SEL name an epoch that is neither published nor retained (R211, R229 item 3)? -/
def State.epochBad (s : State) (node : Nat) (b : NBody) : Bool :=
  b.epochSel && b.epoch != s.mapEpoch node b.map && !((s.geoMap node b.map).retained && (b.epoch + 1) % 2 ^ 32 == s.mapEpoch node b.map)

/-- BAD_DESCRIPTOR of a voxel-unit command (R229). -/
def State.voxelBad (s : State) (node : Nat) (b : NBody) : Bool :=
  b.fieldBad || decide (1 < b.op) || s.epochBad node b || !s.mapOn node b.map || !s.mapPlaced node b.map || !f32isFinite b.param || f32lt b.param 0 ||
  (b.op == 0 &&
    (!s.placeOk node 3 (b.addr 0) (8 * b.count) || !s.placeOk node 3 (b.addr 1) (4096 * b.count) ||
     overlaps (b.addr 0, 8 * b.count) (b.addr 1, 4096 * b.count) ||
     (List.range b.count).any (fun i => bits (s.intEntry node b i) 19 45 != 0)))

/-- Carry out an INTEGRATE. -/
def State.runIntegrate (s : State) (node : Nat) (x : Cmd) (errs : ReadErrs) : State :=
  let b : NBody := ⟨x.body⟩
  let part := s.ctxPart x.ctx
  let r := s.readSectors part true errs (s.integrateReads node b)
  let q := (List.range b.count).foldl (integrateOne part node b) { st := r.st }
  let s1 := if r.lost || r.poison then q.st.poisonAll (q.bricks.flatMap (q.st.brickSectors node b.map)) else q.st
  let met := (if q.full then [Status.queueFull] else []) ++ (if r.lost then [.tileUncorrectable] else []) ++
    (if r.poison then [.poisonedInput] else [])
  (s1.showPool node b.map).finish x (pickStatus met) q.applied

/-- The voxel-unit command of a node. -/
def State.voxelCmd (s : State) (is : NBody → Bool) (node : Nat) : Option Cmd :=
  match s.executing node 6 with
  | some x => if is ⟨x.body⟩ then some x else none
  | none => none

/-- The status for which a voxel-unit command is refused, if it is: DENIED first (R31). -/
def State.voxelRefused (s : State) (node : Nat) (x : Cmd) : Option Status :=
  let b : NBody := ⟨x.body⟩
  if s.mapDenied (s.ctxPart x.ctx) node b.map
      (if b.op = 0 then [⟨false, glob node (b.addr 0), 8 * b.count⟩, ⟨false, glob node (b.addr 1), 4096 * b.count⟩] else [])
    then some .denied
  else if s.voxelBad node b || s.mapForeign (s.ctxPart x.ctx) node b.map then some .badDescriptor
  else none

/-- Finish a refused command. Log entry 65 (DEDUCED). -/
def State.refuse (s : State) (x : Cmd) (st : Status) : State := (if st = .denied then s.countRefusal else s).finish x st 0

/-- INTEGRATE (R209). An operation that is not the voxel unit's is refused here. -/
def execIntegrate (node : Nat) (errs : ReadErrs) (s : State) : Outcome State Fault Refusal := s.onClock <|
  match s.voxelCmd (fun b => b.op != 1) node with
  | none => .next s
  | some x =>
    match s.voxelRefused node x with
    | some st => .next (s.refuse x st)
    | none => if s.mapWaits node (NBody.map ⟨x.body⟩) then .next s else .next (s.runIntegrate node x errs)

/-! ## COMMIT (R210) -/

/-- COMMIT: it is checked, and step 1 begins. -/
def execCommit (node : Nat) (s : State) : Outcome State Fault Refusal := s.onClock <|
  match s.voxelCmd (fun b => b.op == 1) node with
  | none => .next s
  | some x =>
    if x.unitsDone ≠ 0 then .next s
    else match s.voxelRefused node x with
    | some st => .next (s.refuse x st)
    | none => if s.mapWaits node (NBody.map ⟨x.body⟩) then .next s else .next (s.setCmd { x with unitsDone := 1 })

/-- Does a running or preempted command hold the epoch before the published one (R210, step 1)? -/
def State.epochHeld (s : State) (node m : Nat) : Bool :=
  s.cmdList.any (fun x => (x.phase == .running || x.phase == .stopped) && x.node == node && (x.engine == 7 || x.engine == 8) &&
    NBody.map ⟨x.body⟩ == m &&
    (match x.anchor with
     | some e => (e + 1) % 2 ^ 32 == s.mapEpoch node m
     | none => false))

/-- The class of a leaf (R206). -/
def classOf (occ free : Int) (c : Nat) : Nat :=
  if !cellSeen c then 0 else if occ ≤ cellLog c then 2 else if cellLog c ≤ free then 1 else 0

/-- Is a class blocking? Log entry 72 (DEDUCED). -/
def classBlocks (unknown : Bool) (cls : Nat) : Bool := cls == 2 || (cls == 0 && unknown)

/-- `⌊1,024 × 0.02 × √k⌋` (R207). -/
def distUnits (k : Nat) : Nat := isqrt (4194304 * k / 10000)

/-- The square of the gap of a leaf offset along one axis. -/
def gapSq (d : Int) : Nat := (d.natAbs - 1) * (d.natAbs - 1)

/-- Leaf offsets within which a distance below DCLIP can lie. -/
def nearLeaves : List Int := (List.range 33).map (fun (i : Nat) => (i : Int) - 16)

/-- DIST of leaf (x, y, z) where `blocking` says which leaves block (R207). -/
def leafDist (dclip : Nat) (blocking : Int → Int → Int → Bool) (x y z : Int) : Nat :=
  (nearLeaves.flatMap (fun dx => nearLeaves.flatMap (fun dy => nearLeaves.filterMap (fun dz =>
    if blocking (x + dx) (y + dy) (z + dz) then some (distUnits (gapSq dx + gapSq dy + gapSq dz)) else none)))).foldl min dclip

/-- What a commit works on: the slot, the entry of each brick of the new epoch before step 6, by its new index. -/
structure CommitView where
  node : Nat
  m : Nat
  epoch : Nat
  dx : Int
  dy : Int
  dz : Int
  oldDir : Nat
  /-- Pending bricks by new index: pool brick and whether their classes changed. -/
  pend : Tab (Nat × Bool × Bool)

def CommitView.shifted (v : CommitView) : Bool := v.dx != 0 || v.dy != 0 || v.dz != 0

/-- The old entry that a new index takes over. -/
def CommitView.oldEntry (v : CommitView) (s : State) (i : Nat) : Nat :=
  match brickShift i v.dx v.dy v.dz with
  | some j => s.word (v.oldDir + 8 * j) 8
  | none => 0

/-- Is the brick PRESENT in the new epoch before step 6, and the pool brick that holds it. -/
def CommitView.brick (v : CommitView) (s : State) (i : Nat) : Option Nat :=
  match tfind v.pend i with
  | some p => some p.1
  | none => let e := v.oldEntry s i; if dirPresent e then some (dirBrick e) else none

/-- BLOCKS of a brick after step 4. -/
def CommitView.blocks (v : CommitView) (s : State) (i : Nat) : Bool :=
  match tfind v.pend i with
  | some p => p.2.2
  | none => dirBlocks (v.oldEntry s i)

/-- The affected set (R210, step 5). -/
def CommitView.affected (v : CommitView) (s : State) : List Nat :=
  let changed := (v.pend.filter (fun e => e.2.2.1)).map (·.1)
  let near := changed.flatMap (fun i => (brickNeighbours i).filter (fun n =>
    (v.brick s n).isSome || (brickNeighbours n).any (v.blocks s)))
  let all := if v.shifted then (List.range brickCount).filter (fun i => (v.brick s i).isSome) else []
  (changed ++ near ++ all).foldl sinsert []

/-- Does leaf (x, y, z) of the new epoch block (R206)? -/
def CommitView.blocking (v : CommitView) (s : State) (x y z : Int) : Bool :=
  let u := s.unknownBlocks v.node v.m
  if x < 0 ∨ 2048 ≤ x ∨ y < 0 ∨ 2048 ≤ y ∨ z < 0 ∨ 512 ≤ z then u
  else
    let lx := x.toNat
    let ly := y.toNat
    let lz := z.toNat
    match v.brick s (brickIndex (lx / 16) (ly / 16) (lz / 16)) with
    | none => u
    | some p => classBlocks u (cellClass (s.word (s.brickAddr v.node v.m p + 4 * (lx % 16 + 16 * (ly % 16) + 256 * (lz % 16))) 4))

/-- The cells of brick `i` with DIST recomputed. Log entry 70 (DEDUCED). -/
def CommitView.recompute (v : CommitView) (s : State) (i : Nat) (cells : List Nat) : List Nat :=
  cells.zipIdx.map (fun c =>
    mkCell (cellLog c.1) (cellSeen c.1) (cellClass c.1)
      (leafDist (s.getO ONX_G_MAPCFG.DCLIP v.node v.m) (v.blocking s)
        (16 * brickX i + c.2 % 16) (16 * brickY i + c.2 / 16 % 16) (16 * brickZ i + c.2 / 256)))

/-- The bricks that steps 4 to 6 work on, with the pool brick that each ends in: pending bricks, then copies of the others. -/
def CommitView.targets (v : CommitView) (part : Nat) (s : State) (l : List Nat) : Tab Nat × State :=
  l.foldl (fun (q : Tab Nat × State) i =>
    match tfind v.pend i with
    | some p => (tset q.1 i p.1, q.2)
    | none =>
      let used := (q.2.usedBricks v.node v.m ++ q.1.map (·.2)).foldl sinsert []
      let t := q.2.takeBrick v.node v.m used
      (tset q.1 i t.1, t.2.writeBrick part v.node v.m t.1 (q.2.entryCells v.node v.m (v.oldEntry q.2 i)))) ([], s)

/-- The new entry of brick `i`, whose cells were `old` and are `new` in pool brick `p` (R205, R210 steps 6 and 7). -/
def CommitView.newEntry (v : CommitView) (s : State) (i p : Nat) (new : List Nat) : Nat :=
  let e := v.oldEntry s i
  let u := s.unknownBlocks v.node v.m
  let blocks := new.any (fun c => classBlocks u (cellClass c))
  let reads := !u && new.all (fun c => cellClass c == 1 && cellDist c == s.getO ONX_G_MAPCFG.DCLIP v.node v.m)
  let absent := reads && Config.absentFree
  let same := if dirPresent e then !absent && s.entryCells v.node v.m e == new else absent
  let ch := if v.shifted || !same then v.epoch else dirEpoch e
  if absent then ch * 2 ^ 32 else dirEntry p blocks ch

/-- Sectors that a commit reads: the published directory, the bricks it works on and their neighbours.
Log entry 73 (DEDUCED). -/
def CommitView.reads (v : CommitView) (s : State) (l : List Nat) : List Nat :=
  (sectorsOf v.oldDir 0x400000 ++
   ((l ++ l.flatMap brickNeighbours).foldl sinsert []).flatMap (fun i =>
     (match v.brick s i with
      | some p => s.brickSectors v.node v.m p
      | none => []) ++
     (let e := v.oldEntry s i
      if (tfind v.pend i).isSome && dirPresent e then s.brickSectors v.node v.m (dirBrick e) else []))).foldl sinsert []

/-- Does a brick or a neighbour of it carry poison? -/
def CommitView.tainted (v : CommitView) (s : State) (i : Nat) : Bool :=
  (i :: brickNeighbours i).any (fun n => match v.brick s n with
    | some p => (s.brickSectors v.node v.m p).any s.poisoned
    | none => false)

/-- Steps 3 and 4: the pending bricks by new index, with their classes set. -/
def State.classify (s : State) (part node m : Nat) (v : CommitView) : CommitView × State :=
  let occ := sx 8 (s.getO ONX_G_MAPCFG.LO_OCC node m)
  let free := sx 8 (s.getO ONX_G_MAPCFG.LO_FREE node m)
  let u := s.unknownBlocks node m
  (s.geoMap node m).pending.foldl (fun (q : CommitView × State) e =>
    let old := q.2.brickCells node m e.2
    let new := old.map (fun c => mkCell (cellLog c) (cellSeen c) (classOf occ free c) (cellDist c))
    let before := (q.2.entryCells node m (q.2.word (v.oldDir + 8 * e.1) 8)).map cellClass
    let s1 := q.2.writeBrick part node m e.2 new
    let mark := (e.2, new.map cellClass != before, new.any (fun c => classBlocks u (cellClass c)))
    match brickShift e.1 (-v.dx) (-v.dy) (-v.dz) with
    | some i => ({ q.1 with pend := tset q.1.pend i mark }, s1)
    | none => (q.1, s1)) (v, s)

/-- Write MAPORG as a shift leaves it. -/
def State.shiftOrigin (s : State) (node m : Nat) (v : CommitView) : State :=
  let add (f : Fld) (w : Nat) (d : Int) (t : State) : State := t.setO f node m (ux w (sx w (t.getO f node m) + d))
  add ONX_G_MAPORG.OX 24 v.dx (add ONX_G_MAPORG.OY 24 v.dy (add ONX_G_MAPORG.OZ 16 v.dz s))

def State.mapOrg (s : State) (node m : Nat) : Nat :=
  s.getO ONX_G_MAPORG.OX node m + s.getO ONX_G_MAPORG.OY node m * 2 ^ 24 + s.getO ONX_G_MAPORG.OZ node m * 2 ^ 48

/-- Steps 2 to 8 of R210. Log entry 71 (DEDUCED). -/
def State.runCommit (s : State) (node : Nat) (x : Cmd) (errs : ReadErrs) : State :=
  let b : NBody := ⟨x.body⟩
  let m := b.map
  let part := s.ctxPart x.ctx
  let buf := s.getO ONX_G_MAPSTAT.BUF node m
  let n1 := (s.mapEpoch node m + 1) % 2 ^ 32
  let s2 := s.setGeo node m { s.geoMap node m with retained := false }
  let v0 : CommitView := ⟨node, m, n1, b.shift 0, b.shift 1, b.shift 2, s.dirBase node m buf, []⟩
  let c := s2.classify part node m v0
  let v := c.1
  let aff := v.affected c.2
  let fresh := (aff.filter (fun i => !thas v.pend i)).length
  if c.2.freeBricks node m < fresh then (c.2.showPool node m).finish x .queueFull (s.mapEpoch node m)
  else
    let wasAbsent := (v.pend.filter (fun e => !dirPresent (v.oldEntry c.2 e.1))).map (·.1)
    let work := (aff ++ wasAbsent).foldl sinsert []
    let all := (work ++ v.pend.map (·.1)).foldl sinsert []
    let r := c.2.readSectors part true errs (v.reads c.2 all)
    let t := v.targets part r.st all
    let done := all.foldl (fun (q : Tab Nat × State) i =>
      let p := tget 0 t.1 i
      let now := t.2.brickCells node m p
      let new := if work.contains i then v.recompute t.2 i now else now
      let s3 := q.2.writeBrick part node m p new
      let s4 := if v.tainted r.st i then s3.poisonAll (s3.brickSectors node m p) else s3
      (tset q.1 i (v.newEntry r.st i p new), s4)) ([], t.2)
    let entries := (List.range brickCount).map (fun i =>
      match tfind done.1 i with
      | some e => e
      | none =>
        let e := v.oldEntry r.st i
        if v.shifted then e % 2 ^ 32 + n1 * 2 ^ 32 else e)
    let newDir := s.dirBase node m (1 - buf)
    let s5 := done.2.writeRun part true newDir (entries.flatMap (leBytes 8))
    let s6 := if (sectorsOf v.oldDir 0x400000).any r.st.poisoned then s5.poisonAll (sectorsOf newDir 0x400000) else s5
    let s7 := ((s6.setO ONX_G_MAPSTAT.EPOCH node m n1).setO ONX_G_MAPSTAT.BUF node m (1 - buf)).setGeo node m
      { s6.geoMap node m with pending := [], retained := true, prevOrg := s.mapOrg node m }
    let met := (if r.lost then [Status.tileUncorrectable] else []) ++ (if r.poison then [.poisonedInput] else [])
    ((s7.shiftOrigin node m v).showPool node m).finish x (pickStatus met) n1

/-- COMMIT_WAIT_END: once no command holds epoch n − 1, the rest of the commit. -/
def execCommitWaitEnd (node : Nat) (errs : ReadErrs) (s : State) : Outcome State Fault Refusal := s.onClock <|
  match s.voxelCmd (fun b => b.op == 1) node with
  | none => .next s
  | some x =>
    if x.unitsDone = 0 || s.epochHeld node (NBody.map ⟨x.body⟩) then .next s else .next (s.runCommit node x errs)

/-! ## Map configuration (R208, R234) -/

/-- Does a running or preempted command use the map of a slot? -/
def State.mapInUse (s : State) (node m : Nat) : Bool :=
  s.cmdList.any (fun x => (x.phase == .running || x.phase == .stopped) && x.node == node &&
    (x.engine == 6 || x.engine == 7 || x.engine == 8) && NBody.map ⟨x.body⟩ == m && NBody.op ⟨x.body⟩ != 7)

/-- Is a value of MAPCFG, MAPPOOL or MAPORG one that the register takes (R234)? Log entry 74 (DEDUCED). -/
def mapValueOk (reg val : Nat) : Bool :=
  match reg with
  | 0 => decide (1 ≤ bits val 32 9) && decide (bits val 32 9 ≤ 327) && decide (sx 8 (bits val 56 8) < sx 8 (bits val 48 8))
  | 1 => bits val 0 2 == 0
  | _ => true

/-- Store MAPCFG, MAPPOOL or MAPORG. -/
def State.storeMap (s : State) (node m reg val : Nat) : State :=
  match reg with
  | 0 => (((((s.setO ONX_G_MAPCFG.DIR_BASE node m (bits val 0 28)).setO ONX_G_MAPCFG.ENABLE node m (bits val 28 1)).setO
      ONX_G_MAPCFG.UNKNOWN_BLOCKS node m (bits val 29 1)).setO ONX_G_MAPCFG.DCLIP node m (bits val 32 9)).setO
      ONX_G_MAPCFG.LO_OCC node m (bits val 48 8)).setO ONX_G_MAPCFG.LO_FREE node m (bits val 56 8)
  | 1 => (s.setO ONX_G_MAPPOOL.POOL_BASE node m (bits val 0 28)).setO ONX_G_MAPPOOL.POOL_BRICKS node m (bits val 32 21)
  | _ => ((s.setO ONX_G_MAPORG.OX node m (bits val 0 24)).setO ONX_G_MAPORG.OY node m (bits val 24 24)).setO
      ONX_G_MAPORG.OZ node m (bits val 48 16)

/-- MAPCFG_WRITE (R208, R234): `reg` is 0 MAPCFG, 1 MAPPOOL, 2 MAPORG of slot `m`. -/
def execMapcfgWrite (src : Src) (node m reg val : Nat) (s : State) : Outcome State Fault Refusal := s.onClock <|
  if decide (3 < m) || decide (2 < reg) then .next s
  else if !s.onyxWrites src node 4 then .next (s.onyxTurned src node 4)
  else
    let on := s.mapOn node m
    let clears := reg == 0 && !bit val 28
    if (on && !(clears && !s.mapInUse node m)) || !mapValueOk reg val then .next (s.setO ONX_G_MAPSTAT.CFG_ERR node m 1)
    else
      let s1 := s.storeMap node m reg val
      if reg = 0 && !on && bit val 28 then
        let s2 := ((s1.setO ONX_G_MAPSTAT.EPOCH node m 0).setO ONX_G_MAPSTAT.BUF node m 0).setGeo node m { zeroing := true }
        .next (s2.setO ONX_G_MAPSTAT.PENDING node m 0)
      else .next s1

/-- MAP_INIT_DONE (R208): the map area holds zeros. -/
def execMapInitDone (node m : Nat) (s : State) : Outcome State Fault Refusal := s.onClock <|
  if !(s.geoMap node m).zeroing then .next s
  else
    let s1 := s.setGeo node m { s.geoMap node m with zeroing := false }
    let s2 := if s.mapPlaced node m then s1.writeRun 0 false (s.dirBase node m 0) (List.replicate mapAreaLen 0) else s1
    .next (s2.showPool node m)

end Sys2Proof.Machine
end

