-- ==== Sys2Proof/Machine/Query.lean ====
section
/-! DEFINITION. Chapter 9: robot models, configurations, and the query pipes: POINT, EDGE and REPAIR (R214 to R222, R229 to
R233). -/

namespace Sys2Proof.Machine

open Reg Host

/-! ## Robot models (R214) -/

/-- A joint: PARENT, TYPE and the FP32 patterns of its words. -/
structure Joint where
  parent : Nat
  kind : Nat
  words : List Nat
  deriving DecidableEq, Repr

def Joint.w (j : Joint) (i : Nat) : Nat := at' j.words i
def Joint.qmin (j : Joint) : Nat := j.w 11
def Joint.qmax (j : Joint) : Nat := j.w 12
def Joint.vmax (j : Joint) : Nat := j.w 13
def Joint.amax (j : Joint) : Nat := j.w 14
def Joint.jmax (j : Joint) : Nat := j.w 15
def Joint.reach (j : Joint) : Nat := j.w 16
/-- A FIXED joint ignores its value (R216). -/
def Joint.moves (j : Joint) : Bool := j.kind != 2

/-- A sphere: LINK, centre and radius. -/
structure Ball where
  link : Nat
  centre : List Nat
  radius : Nat
  deriving DecidableEq, Repr

/-- A robot model as read from memory. -/
structure Robot where
  raw : Nat
  head : Nat
  joints : List Joint
  balls : List Ball
  deriving DecidableEq, Repr

def Robot.nj (r : Robot) : Nat := bits r.head 0 7
def Robot.ns (r : Robot) : Nat := bits r.head 8 9 + 1
/-- BASE: 0 FIXED, 1 HOLO, 2 DIFF. -/
def Robot.base (r : Robot) : Nat := bits r.head 18 2
def Robot.word (r : Robot) (i : Nat) : Nat := bits r.head (32 * i) 32
def Robot.inflate (r : Robot) : Nat := r.word 1
def Robot.baseZ (r : Robot) : Nat := r.word 2
def Robot.reachBase (r : Robot) : Nat := r.word 3
/-- Limits of the base translation, then of the yaw: velocity, acceleration, jerk. -/
def Robot.baseLim (r : Robot) (i : Nat) : Nat := r.word (4 + i)
def Robot.yawLim (r : Robot) (i : Nat) : Nat := r.word (7 + i)

/-- Bytes of a robot model. -/
def modelLen : Nat := 21568

/-- The robot model of a slot. -/
def State.robot (s : State) (node k : Nat) : Robot :=
  let a := glob node (4096 * s.getO ONX_G_MODEL.ADDR node k)
  let head := s.word a 64
  { raw := s.word a modelLen
    head := head
    joints := (List.range (bits head 0 7)).map (fun j =>
      let v := s.word (a + 64 + 80 * j) 80
      ⟨bits v 0 8, bits v 8 2, (List.range 17).map (fun i => bits v (32 * i) 32)⟩)
    balls := (List.range (bits head 8 9 + 1)).map (fun i =>
      let v := s.word (a + 5184 + 32 * i) 32
      ⟨bits v 128 8, [bits v 0 32, bits v 32 32, bits v 64 32], bits v 96 32⟩) }

/-- Is a reserved bit of a model set, of its header, of a joint it has or of a sphere (R214)? -/
def Robot.reservedSet (r : Robot) : Bool :=
  bit r.head 7 || bit r.head 17 || bits r.head 20 12 != 0 || bits r.head 320 192 != 0 ||
  (List.range r.nj).any (fun j => bits r.raw (8 * (64 + 80 * j) + 10) 22 != 0 || bits r.raw (8 * (64 + 80 * j) + 544) 96 != 0) ||
  (List.range r.ns).any (fun i => bits r.raw (8 * (5184 + 32 * i) + 136) 120 != 0)

/-- Does a model hold a reserved value (R214, R229)? Log entry 77 (DEDUCED). -/
def Robot.bad (r : Robot) : Bool :=
  r.reservedSet || decide (64 < r.nj) || decide (512 < r.ns) || r.base == 3 ||
  r.joints.zipIdx.any (fun j => j.1.kind == 3 || (j.1.parent != 0xFF && decide (j.2 ≤ j.1.parent))) ||
  r.balls.any (fun b => b.link != 0xFF && decide (r.nj ≤ b.link))

/-! ## Configurations and kinematics (R216) -/

/-- A configuration row: its 68 words. -/
structure Conf where
  raw : Nat
  deriving DecidableEq, Repr

def Conf.q (c : Conf) (j : Nat) : Nat := bits c.raw (32 * j) 32
def Conf.x (c : Conf) : Nat := c.q 64
def Conf.y (c : Conf) : Nat := c.q 65
def Conf.psi (c : Conf) : Nat := c.q 66

def State.confRow (s : State) (a i : Nat) : Conf := ⟨s.word (a + 272 * i) 272⟩

/-- Is a value of a row outside [QMIN, QMAX], or not finite (R218, R220)? -/
def Robot.limits (r : Robot) (c : Conf) : Bool :=
  r.joints.zipIdx.any (fun j => j.1.moves && (!f32isFinite (c.q j.2) || !f32le j.1.qmin (c.q j.2) || !f32le (c.q j.2) j.1.qmax)) ||
  !f32isFinite c.x || !f32isFinite c.y || !f32isFinite c.psi

/-- The words of a row that its kinematics read: the values of the joints that move and the base; word 268, values beyond NJ and those of
FIXED joints are ignored (R216). -/
def Robot.relevant (r : Robot) (c : Conf) : Nat :=
  let used (j : Nat) : Bool := (decide (64 ≤ j) && decide (j < 67)) || (match r.joints[j]? with
    | some t => t.moves
    | none => false)
  (List.range 68).foldl (fun acc j => acc + (if used j then c.q j else 0) * 2 ^ (32 * j)) 0

/-- A pose: joint values and the base, as fixed-point numbers. -/
structure Pose where
  q : List Fx
  x : Fx
  y : Fx
  psi : Fx
  deriving DecidableEq, Repr

def Robot.pose (r : Robot) (c : Conf) : Pose :=
  ⟨(List.range r.nj).map (fun j => fxOf (c.q j)), fxOf c.x, fxOf c.y, fxOf c.psi⟩

/-- A vector, and a rotation given by the images of the three axes. -/
structure V3 where
  x : Fx
  y : Fx
  z : Fx
  deriving DecidableEq, Repr

structure Frame where
  p : V3
  ex : V3
  ey : V3
  ez : V3
  deriving DecidableEq, Repr

def V3.add (a b : V3) : V3 := ⟨a.x + b.x, a.y + b.y, a.z + b.z⟩
def V3.scale (k : Fx) (a : V3) : V3 := ⟨fxMul k a.x, fxMul k a.y, fxMul k a.z⟩
def V3.cross (a b : V3) : V3 :=
  ⟨fxMul a.y b.z - fxMul a.z b.y, fxMul a.z b.x - fxMul a.x b.z, fxMul a.x b.y - fxMul a.y b.x⟩
def V3.dot (a b : V3) : Fx := fxMul a.x b.x + fxMul a.y b.y + fxMul a.z b.z

/-- A vector of a frame, in the world. -/
def Frame.turn (f : Frame) (v : V3) : V3 := ((V3.scale v.x f.ex).add (V3.scale v.y f.ey)).add (V3.scale v.z f.ez)
def Frame.place (f : Frame) (v : V3) : V3 := f.p.add (f.turn v)

/-- Rotation by a quaternion (w, u). -/
def quatTurn (w : Fx) (u v : V3) : V3 :=
  let t := (u.cross v).scale (2 * fxOne)
  (v.add (V3.scale w t)).add (u.cross t)

/-- Rotation by an angle about a unit axis. -/
def axisTurn (axis : V3) (c s : Fx) (v : V3) : V3 :=
  ((V3.scale c v).add (V3.scale s (axis.cross v))).add (V3.scale (fxMul (fxOne - c) (axis.dot v)) axis)

/-- A frame rotated by `g` in its own axes. -/
def Frame.rotate (f : Frame) (g : V3 → V3) : Frame :=
  { f with
    ex := f.turn (g ⟨fxOne, 0, 0⟩)
    ey := f.turn (g ⟨0, fxOne, 0⟩)
    ez := f.turn (g ⟨0, 0, fxOne⟩) }

def v3Of (a b c : Nat) : V3 := ⟨fxOf a, fxOf b, fxOf c⟩

def baseFrame (r : Robot) (p : Pose) : Frame :=
  let c := fxCos p.psi
  let s := fxSin p.psi
  ⟨⟨p.x, p.y, fxOf r.baseZ⟩, ⟨c, s, 0⟩, ⟨-s, c, 0⟩, ⟨0, 0, fxOne⟩⟩

/-- A joint's frame from its parent's. -/
def jointFrame (j : Joint) (q : Fx) (f : Frame) : Frame :=
  let f1 : Frame := { f with p := f.place (v3Of (j.w 1) (j.w 2) (j.w 3)) }
  let f2 := f1.rotate (quatTurn (fxOf (j.w 4)) (v3Of (j.w 5) (j.w 6) (j.w 7)))
  let axis := v3Of (j.w 8) (j.w 9) (j.w 10)
  match j.kind with
  | 0 => f2.rotate (axisTurn axis (fxCos q) (fxSin q))
  | 1 => { f2 with p := f2.place (V3.scale q axis) }
  | _ => f2

/-- The frame of a link: 0xFF is the base. -/
def linkFrame (base : Frame) (fs : List Frame) (link : Nat) : Frame := if link = 0xFF then base else lget base fs link

/-- The frames of all joints. -/
def Robot.frames (r : Robot) (p : Pose) : List Frame :=
  (r.joints.zip p.q).foldl (fun fs j => fs ++ [jointFrame j.1 j.2 (linkFrame (baseFrame r p) fs j.1.parent)]) []

/-- Centres of all spheres by exact kinematics. -/
def Robot.centres (r : Robot) (p : Pose) : List V3 :=
  let fs := r.frames p
  r.balls.map (fun b => (linkFrame (baseFrame r p) fs b.link).place (v3Of (at' b.centre 0) (at' b.centre 1) (at' b.centre 2)))

/-- What fixes the rounding of a query's kinematics: the model, what the rows hold for it, and the path parameter (R216, R230). -/
structure KinKey where
  model : Nat
  rowA : Nat
  rowB : Nat
  s : Nat
  deriving DecidableEq, Repr

/-- A coordinate of a sphere centre in fp32: its rounding is open within what R218 leaves (DEDUCED, log entry 32). -/
def kinRound (k : KinKey) (which : Nat) (exact : Fx) : Nat :=
  let nominal := fxF32 exact
  let cand := f32ofKey (f32key nominal + Config.kinOffset k.model k.rowA k.rowB k.s which)
  if f32isFinite cand && decide ((fxOf cand - exact).natAbs ≤ 2 ^ 150) then cand else nominal

/-! ## The map of an epoch -/

/-- Where the queries of a command read. -/
structure MapView where
  node : Nat
  dir : Nat
  pool : Nat
  org : Nat
  unknown : Bool
  dclip : Nat
  deriving DecidableEq, Repr

/-- The view of epoch `e` of a slot: the published one or the retained one (R211). -/
def State.mapView (s : State) (node m e : Nat) : MapView :=
  let now := e == s.mapEpoch node m
  let buf := s.getO ONX_G_MAPSTAT.BUF node m
  { node := node
    dir := s.dirBase node m (if now then buf else 1 - buf)
    pool := s.brickAddr node m 0
    org := if now then s.mapOrg node m else (s.geoMap node m).prevOrg
    unknown := s.unknownBlocks node m
    dclip := s.getO ONX_G_MAPCFG.DCLIP node m }

/-- Origin along an axis, in bricks. -/
def MapView.origin (v : MapView) (axis : Nat) : Int :=
  if axis = 2 then sx 16 (bits v.org 48 16) else sx 24 (bits v.org (24 * axis) 24)

/-- Leaf index along an axis, computed in fp32 (R203); none where the quotient is not finite. -/
def MapView.leaf (v : MapView) (axis p : Nat) : Option Int :=
  let q := f32div (f32sub p (f32mul 0x3EA3D70A (f32ofInt (v.origin axis)))) 0x3CA3D70A
  if f32isFinite q then some (f32num q).floor else none

/-- The leaf of a point, if it lies in the map. Log entry 78 (DEDUCED). -/
def MapView.locate (v : MapView) (x y z : Nat) : Option (Nat × Nat × Nat) :=
  match v.leaf 0 x, v.leaf 1 y, v.leaf 2 z with
  | some i, some j, some k =>
    if 0 ≤ i ∧ i < 2048 ∧ 0 ≤ j ∧ j < 2048 ∧ 0 ≤ k ∧ k < 512 then some (i.toNat, j.toNat, k.toNat) else none
  | _, _, _ => none

/-- DIST of a leaf, and the sectors of the directory entry and of the cell that are read (R207). -/
def State.distAt (s : State) (v : MapView) (l : Nat × Nat × Nat) : Nat × Nat × Option Nat :=
  let a := v.dir + 8 * brickIndex (l.1 / 16) (l.2.1 / 16) (l.2.2 / 16)
  let e := s.word a 8
  if dirPresent e then
    let c := v.pool + 16384 * dirBrick e + 4 * (l.1 % 16 + 16 * (l.2.1 % 16) + 256 * (l.2.2 % 16))
    (cellDist (s.word c 4), sectorOf a, some (sectorOf c))
  else (if v.unknown then 0 else v.dclip, sectorOf a, none)

/-! ## Clearance (R217) -/

/-- fp32 operations rounded in mode `m`; a zero sum of unlike terms is −0 when rounding down. -/
def f32addM (m a b : Nat) : Nat :=
  let n := (f32num a).add (f32num b)
  if n.isZero && m == 3 && !((f32num a).isZero && !bit a 31 && (f32num b).isZero && !bit b 31) then 0x80000000
  else (fp32.deliver m false n).1
def f32subM (m a b : Nat) : Nat := f32addM m a (f32neg b)
def f32mulM (m a b : Nat) : Nat := (fp32.deliver m false ((f32num a).mul (f32num b))).1
def f32divM (m a b : Nat) : Nat := (fp32.deliver m false ((f32num a).div (f32num b))).1

/-- The clearance of one sphere: (DIST − 2) × 2⁻¹⁰ − r − INFLATE, rounded down. -/
def ballClear (dist radius inflate : Nat) : Nat :=
  f32subM 3 (f32subM 3 (f32 (.ofInt ((dist : Int) - 2) (-10))) radius) inflate

/-- One evaluation of a configuration: its clearance, the sphere that gives it, whether a sphere lay outside, the bricks of the
centres, the sectors read, and the cell sectors among them. -/
structure Eval where
  clear : Nat
  sphere : Nat
  outside : Bool
  bricks : List (Nat × Nat × Nat)
  secs : List Nat
  cells : List Nat
  deriving DecidableEq, Repr

/-- Evaluate a pose. -/
def State.evalPose (s : State) (v : MapView) (r : Robot) (k : KinKey) (p : Pose) : Eval :=
  ((r.balls.zip (r.centres p)).zipIdx.foldl (fun (acc : Option Eval) e =>
    let i := e.2
    let c := e.1.2
    let loc := v.locate (kinRound k (3 * i) c.x) (kinRound k (3 * i + 1) c.y) (kinRound k (3 * i + 2) c.z)
    let d : Nat × List Nat × List Nat := match loc with
      | some l => let q := s.distAt v l; (q.1, q.2.1 :: q.2.2.toList, q.2.2.toList)
      | none => (0, [], [])
    let cl := ballClear d.1 e.1.1.radius r.inflate
    let brick : List (Nat × Nat × Nat) := match loc with
      | some l => [(l.1 / 16, l.2.1 / 16, l.2.2 / 16)]
      | none => []
    match acc with
    | none => some ⟨cl, i, loc.isNone, brick, d.2.1, d.2.2⟩
    | some a =>
      let better := f32lt cl a.clear
      some ⟨if better then cl else a.clear, if better then i else a.sphere, a.outside || loc.isNone, a.bricks ++ brick,
        a.secs ++ d.2.1, a.cells ++ d.2.2⟩) none).getD ⟨0, 0, false, [], [], []⟩

/-! ## POINT (R218) -/

/-- The record of one configuration, and the evaluation behind it. -/
def State.pointRecord (s : State) (v : MapView) (r : Robot) (margin epoch : Nat) (c : Conf) : Nat × Option Eval :=
  if r.limits c then (2 ^ 43, none)
  else
    let e := s.evalPose v r ⟨r.raw, r.relevant c, r.relevant c, 0⟩ (r.pose c)
    (e.clear + e.sphere * 2 ^ 32 + b2n (f32lt e.clear margin) * 2 ^ 41 + b2n e.outside * 2 ^ 42 + epoch * 2 ^ 64, some e)

/-! ## Edges (R219 to R221) -/

/-- The base's path: displacement, turn, and whether a DIFF arc is refused (R224). -/
structure BasePath where
  dx : Fx
  dy : Fx
  chord : Fx
  turn : Fx
  arc : Bool
  refused : Bool
  deriving DecidableEq, Repr

/-- The motion of the base between two rows. -/
def Robot.basePath (r : Robot) (a b : Conf) : BasePath :=
  let dx := fxOf b.x - fxOf a.x
  let dy := fxOf b.y - fxOf a.y
  let chord := fxSqrt (fxMul dx dx + fxMul dy dy)
  if r.base = 2 then
    let c := fxCos (fxOf a.psi)
    let s := fxSin (fxOf a.psi)
    let lx := fxMul dx c + fxMul dy s
    let ly := fxMul dy c - fxMul dx s
    ⟨dx, dy, chord, 2 * fxAtan2 ly lx, true, decide (lx ≤ 0) && !(dx == 0 && dy == 0)⟩
  else ⟨dx, dy, chord, fxWrap (fxOf b.psi - fxOf a.psi), false, false⟩

/-- `sin(k × h) / sin(h)` of a half turn `h`, `k` itself where the turn vanishes. -/
def arcRatio (k h : Fx) : Fx := if h.natAbs < 2 ^ 90 then k else fxDiv (fxSin (fxMul k h)) (fxSin h)

/-- Length of the base's path: the chord, or the arc (R224). -/
def BasePath.length (p : BasePath) : Fx :=
  let h := p.turn / 2
  if p.arc && decide (2 ^ 90 ≤ h.natAbs) then fxDiv (fxMul p.chord h) (fxSin h) else p.chord

/-- The pose at path parameter `t`. -/
def Robot.poseAt (r : Robot) (a b : Conf) (t : Fx) : Pose :=
  let p := r.basePath a b
  let lin (u v : Nat) : Fx := fxOf u + fxMul t (fxOf v - fxOf u)
  let q := (List.range r.nj).map (fun j => lin (a.q j) (b.q j))
  if p.arc then
    let h := p.turn / 2
    let c := fxMul p.chord (arcRatio t h)
    let dir := fxOf a.psi + fxMul t h
    ⟨q, fxOf a.x + fxMul c (fxCos dir), fxOf a.y + fxMul c (fxSin dir), fxOf a.psi + fxMul t p.turn⟩
  else ⟨q, fxOf a.x + fxMul t p.dx, fxOf a.y + fxMul t p.dy, fxOf a.psi + fxMul t p.turn⟩

/-- Endpoint checks of R220. -/
def Robot.edgeLimits (r : Robot) (a b : Conf) : Bool :=
  r.limits a || r.limits b ||
  (r.base == 0 && !(f32le a.x b.x && f32le b.x a.x && f32le a.y b.y && f32le b.y a.y && f32le a.psi b.psi && f32le b.psi a.psi)) ||
  (r.basePath a b).refused

/-- A fixed-point value rounded up to fp32. -/
def fxUp (a : Fx) : Nat := (fp32.deliver 2 false (fxNum a)).1

/-- b of R219, each operation rounded up (DEDUCED, log entry 36). -/
def Robot.bound (r : Robot) (a b : Conf) : Nat :=
  let p := r.basePath a b
  let base := f32addM 2 (fxUp p.length) (f32mulM 2 (fxUp (p.turn.natAbs : Int)) r.reachBase)
  r.joints.zipIdx.foldl (fun acc j =>
    let d := f32abs (f32subM (if f32le (a.q j.2) (b.q j.2) then 2 else 3) (b.q j.2) (a.q j.2))
    match j.1.kind with
    | 0 => f32addM 2 acc (f32mulM 2 d j.1.reach)
    | 1 => f32addM 2 acc d
    | _ => acc) base

/-- An edge walk: the verdict, the number of evaluations, the last s, the least clearance, the last sphere, OUTSIDE, and what was
read. -/
structure Walk where
  verdict : Nat := 2
  n : Nat := 0
  s : Nat := 0
  cmin : Nat := 0x7F800000
  sphere : Nat := 0
  outside : Bool := false
  bricks : List (Nat × Nat × Nat) := []
  secs : List Nat := []
  cells : List Nat := []
  deriving DecidableEq, Repr

/-- The procedure of R220; `k` evaluations are left and `s` is the next parameter. -/
def walkEdge (eval : Nat → Eval) (margin b : Nat) : Nat → Nat → Walk → Walk
  | 0, _, w => w
  | k + 1, s, w =>
    let e := eval s
    let w1 : Walk := { w with
      n := w.n + 1, s := s, cmin := if f32lt e.clear w.cmin then e.clear else w.cmin, sphere := e.sphere
      outside := w.outside || e.outside, bricks := w.bricks ++ e.bricks, secs := w.secs ++ e.secs, cells := w.cells ++ e.cells }
    if f32lt e.clear margin then { w1 with verdict := 1 }
    else if s = f32one then { w1 with verdict := 0 }
    else
      let next := if (f32num b).isZero then f32one
        else
          let t := f32addM 3 s (f32divM 3 (f32subM 3 e.clear margin) b)
          if f32lt t f32one then t else f32one
      walkEdge eval margin b k next w1

/-- Walk the edge between two rows. -/
def State.edgeWalk (s : State) (v : MapView) (r : Robot) (margin steps : Nat) (a b : Conf) : Walk :=
  if r.edgeLimits a b then { verdict := 3 }
  else walkEdge (fun t => s.evalPose v r ⟨r.raw, r.relevant a, r.relevant b, t⟩ (r.poseAt a b (fxOf t))) margin (r.bound a b) steps 0 {}

def minOf (l : List Nat) : Nat := l.foldl min (l.headD 0)
def maxOf (l : List Nat) : Nat := l.foldl max 0

/-- The record of an edge (R221). What a record without an evaluation holds of one, and its box without a brick, is not stated
(DESIGN CHOICE, log entry 21). -/
def edgeRecord (w : Walk) (epoch key : Nat) : Nat :=
  let open' (i n : Nat) : Nat := (Config.unstated (40 + i) key).toNat % 2 ^ n
  let ran := decide (0 < w.n)
  let box :=
    if w.bricks.isEmpty then open' 0 38
    else
      let xs := w.bricks.map (·.1)
      let ys := w.bricks.map (·.2.1)
      let zs := w.bricks.map (·.2.2)
      minOf xs + maxOf xs * 2 ^ 7 + minOf ys * 2 ^ 14 + maxOf ys * 2 ^ 21 + minOf zs * 2 ^ 28 + maxOf zs * 2 ^ 33
  w.verdict + b2n w.outside * 2 ^ 3 + (if ran then w.sphere else open' 1 9) * 2 ^ 8 + epoch * 2 ^ 32 +
  (if ran then w.s else open' 2 32) * 2 ^ 64 + (if ran then w.cmin else open' 3 32) * 2 ^ 96 + box * 2 ^ 128 +
  b2n !w.bricks.isEmpty * 2 ^ 166 + w.n * 2 ^ 167

/-! ## REPAIR (R222) -/

/-- The bricks in the box of a record. -/
def recordBox (rec : Nat) : List Nat :=
  let span (lo hi : Nat) : List Nat := (List.range (hi + 1 - lo)).map (fun i => lo + i)
  (span (bits rec 128 7) (bits rec 135 7)).flatMap (fun x =>
    (span (bits rec 142 7) (bits rec 149 7)).flatMap (fun y =>
      (span (bits rec 156 5) (bits rec 161 5)).map (fun z => brickIndex x y z)))

/-- Is a record carried forward? -/
def State.carried (s : State) (v : MapView) (epoch rec : Nat) : Bool :=
  decide (bits rec 32 32 ≤ epoch) && bit rec 166 && !bit rec 3 &&
  (recordBox rec).all (fun i => decide (dirEpoch (s.word (v.dir + 8 * i) 8) ≤ bits rec 32 32))

/-- A record carried forward. -/
def carryRecord (epoch rec : Nat) : Nat :=
  setBit (rec - bits rec 32 32 * 2 ^ 32 + epoch * 2 ^ 32) 2 true

/-! ## Plans of the query pipes -/

/-- Rows FROM and TO of edge entry `i`. -/
def State.edgeEntry (s : State) (node : Nat) (b : NBody) (i : Nat) : Nat := s.word (glob node (b.addr 0 + 8 * i)) 8
def edgeA (e : Nat) : Nat := bits e 0 16
def edgeB (e : Nat) : Nat := bits e 16 16

/-- One past the highest row that the edge entries name. -/
def State.edgeRows (s : State) (node : Nat) (b : NBody) : Nat :=
  maxOf ((List.range b.count).map (fun i => max (edgeA (s.edgeEntry node b i)) (edgeB (s.edgeEntry node b i)))) + 1

/-- Operands of a query command as local extents. -/
def State.queryOperands (s : State) (node : Nat) (b : NBody) : List (Nat × Nat) :=
  if b.op = 2 then [(b.addr 0, 272 * b.count), (b.addr 1, 16 * b.count)]
  else [(b.addr 0, 8 * b.count), (b.addr 1, 32 * b.count), (b.addr 2, 272 * s.edgeRows node b)]

/-- Conditions of R229 that queries and sampler commands share; `ops` are the operands. -/
def State.geoBad (s : State) (node : Nat) (x : Cmd) (ops : List (Nat × Nat)) : Bool :=
  let b : NBody := ⟨x.body⟩
  let k := b.model
  b.fieldBad || x.anchor.isNone || s.getO ONX_G_MODEL.VALID node k == 0 ||
  !s.placeOk node 3 (4096 * s.getO ONX_G_MODEL.ADDR node k) modelLen || (s.robot node k).bad ||
  !f32isFinite b.param || f32lt b.param 0 ||
  ops.any (fun o => !s.placeOk node 3 o.1 o.2) || anyOverlap ops

/-- Item 5 of R229. -/
def State.radiusBad (s : State) (node : Nat) (b : NBody) : Bool :=
  let r := s.robot node b.model
  let top : Num := .ofInt ((s.getO ONX_G_MAPCFG.DCLIP node b.map : Int) - 2) (-10)
  r.balls.any (fun q => !Num.lt (((f32num q.radius).add (f32num r.inflate)).add (f32num b.param)) top)

/-- BAD_DESCRIPTOR of a query command (R229). -/
def State.queryBad (s : State) (node : Nat) (x : Cmd) : Bool :=
  let b : NBody := ⟨x.body⟩
  decide (b.op < 2) || decide (4 < b.op) || !s.mapOn node b.map || !s.mapPlaced node b.map ||
  s.geoBad node x (s.queryOperands node b) || s.radiusBad node b ||
  (b.op != 2 && (List.range b.count).any (fun i => bits (s.edgeEntry node b i) 32 32 != 0))

/-- What item `i` of a query command writes, what it read, and how many evaluations it took. -/
structure Item where
  addr : Nat
  bytes : List Byte
  secs : List Nat
  cells : List Nat
  evals : Nat

/-- Item `i` of a query command. -/
def State.queryItem (s : State) (node : Nat) (b : NBody) (epoch i : Nat) : Item :=
  let v := s.mapView node b.map epoch
  let r := s.robot node b.model
  if b.op = 2 then
    let a := glob node (b.addr 0)
    let q := s.pointRecord v r b.param epoch (s.confRow a i)
    let e := q.2.getD ⟨0, 0, false, [], [], []⟩
    ⟨glob node (b.addr 1 + 16 * i), leBytes 16 q.1, sectorsOf (a + 272 * i) 272 ++ e.secs, e.cells, b2n q.2.isSome⟩
  else
    let e := s.edgeEntry node b i
    let rows := glob node (b.addr 2)
    let dst := glob node (b.addr 1 + 32 * i)
    let old := s.word dst 32
    let own := sectorOf (glob node (b.addr 0 + 8 * i)) :: (if b.op = 4 then [sectorOf dst] else [])
    let box := if b.op = 4 ∧ bit old 166 ∧ !bit old 3 then (recordBox old).map (fun j => sectorOf (v.dir + 8 * j)) else []
    if b.op = 4 && s.carried v epoch old then ⟨dst, leBytes 32 (carryRecord epoch old), own ++ box, [], 0⟩
    else
      let ca := s.confRow rows (edgeA e)
      let cb := s.confRow rows (edgeB e)
      let w := s.edgeWalk v r b.param b.limit ca cb
      ⟨dst, leBytes 32 (edgeRecord w epoch (r.relevant ca + r.relevant cb * 2 ^ 2176 + r.raw * 2 ^ 4352)),
        own ++ box ++ sectorsOf (rows + 272 * edgeA e) 272 ++ sectorsOf (rows + 272 * edgeB e) 272 ++ w.secs, w.cells, w.n⟩

/-- The status STALE_EPOCH at the end of a command (R212). -/
def State.staleAt (s : State) (node m epoch : Nat) : List Status := if s.mapEpoch node m = epoch then [] else [.staleEpoch]

/-- Count queries and cache misses (R234); beyond the 256 sectors of a cache the misses are open (DEDUCED, log entry 37). -/
def State.countQueries (s : State) (node spheres : Nat) (cells : List Nat) : State :=
  let distinct := (cells.foldl sinsert []).length
  let d := if distinct ≤ 256 then (0, s) else s.draw
  let misses := min cells.length (distinct + d.1)
  (d.2.setO ONX_G_QCNT.COUNT node 0 (d.2.getO ONX_G_QCNT.COUNT node 0 + spheres)).setO ONX_G_MISSCNT.COUNT node 0
    (d.2.getO ONX_G_MISSCNT.COUNT node 0 + misses)

/-- Items of units `[lo, hi)`, 64 items each (R233). -/
def itemsOf (count lo hi : Nat) : List Nat := (List.range (min count (64 * hi) - 64 * lo)).map (fun i => 64 * lo + i)

/-- What a query command does (R217 to R222, R233). -/
def State.queryPlan (s : State) (node : Nat) (x : Cmd) : Plan :=
  let b : NBody := ⟨x.body⟩
  let epoch := x.anchor.getD 0
  let size := if b.op = 2 then 16 else 32
  { units := cdiv b.count 64
    reads := (sectorsOf (glob node (4096 * s.getO ONX_G_MODEL.ADDR node b.model)) modelLen ++
      (List.range b.count).flatMap (fun i => (s.queryItem node b epoch i).secs)).foldl sinsert []
    dests := sectorsOf (glob node (b.addr 1)) (size * b.count)
    anchor := x.anchor
    result := fun _ => epoch
    run := fun lo hi st =>
      let q := (itemsOf b.count lo hi).foldl (fun (q : State × List Nat × Nat) i =>
        let it := st.queryItem node b epoch i
        (q.1.writeRun (s.ctxPart x.ctx) true it.addr it.bytes, q.2.1 ++ it.cells, q.2.2 + it.evals)) (st, [], 0)
      (q.1.countQueries node (q.2.2 * (st.robot node b.model).ns) q.2.1,
       if cdiv b.count 64 ≤ hi then q.1.staleAt node b.map epoch else []) }

/-- Plan a query command (R229). -/
def State.planQuery (s : State) (node : Nat) (x : Cmd) : Planned :=
  s.guardPlan (s.ctxPart x.ctx) (s.queryPlan node x) (x.onStart (faultsOf (s.queryBad node x) false))

/-- Run the query command of a pipe where its operation satisfies `is`; it waits while its map is zeroed. -/
def State.queryCommand (s : State) (is : Nat → Bool) (node pipe : Nat) (errs : ReadErrs) : State :=
  if decide (3 < pipe) then s else
    match s.executing node (7 + pipe) with
    | some x =>
      let b : NBody := ⟨x.body⟩
      if is b.op && !s.mapWaits node b.map then s.runToEnd x (s.planQuery node x) errs else s
    | none => s

/-- POINT (R217, R218) on query pipe `pipe`. An operation that is not the pipes' is refused here. -/
def execPoint (node pipe : Nat) (errs : ReadErrs) (s : State) : Outcome State Fault Refusal := s.onClock <|
  .next (s.queryCommand (fun o => o != 3 && o != 4) node pipe errs)
/-- EDGE (R219 to R221). -/
def execEdge (node pipe : Nat) (errs : ReadErrs) (s : State) : Outcome State Fault Refusal := s.onClock <|
  .next (s.queryCommand (fun o => o == 3) node pipe errs)
/-- REPAIR (R222). -/
def execRepair (node pipe : Nat) (errs : ReadErrs) (s : State) : Outcome State Fault Refusal := s.onClock <|
  .next (s.queryCommand (fun o => o == 4) node pipe errs)

end Sys2Proof.Machine
end

