-- ==== Sys2Proof/Machine/Sampler.lean ====
section
/-! DEFINITION. Chapter 9: the sampler and primitive generator: TREE, ROADMAP and PRIM (R223 to R226). -/

namespace Sys2Proof.Machine

open Reg Host

/-! ## Sampling (R223) -/

/-- gen(i, j) for a seed. -/
def gen (seed i j : Nat) : Nat :=
  let w (n : Nat) : Nat := n % 2 ^ 32
  let x0 := (seed ^^^ w (i * 0x9E3779B9)) ^^^ w (j * 0x85EBCA6B)
  let x1 := x0 ^^^ (x0 / 2 ^ 16)
  let x2 := w (x1 * 0x7FEB352D)
  let x3 := x2 ^^^ (x2 / 2 ^ 15)
  let x4 := w (x3 * 0x846CA68B)
  x4 ^^^ (x4 / 2 ^ 16)

/-- `lo + u × (hi − lo)` with u = k × 2⁻²⁴, rounded once. -/
def drawn (lo hi : Fx) (k : Nat) : Nat := fxF32 (lo + (hi - lo) * k / 2 ^ 24)

/-- `x × 32/100` m of bricks as a fixed-point value. -/
def brickMetres (o : Int) : Fx := o * 32 * fxOne / 100

/-- A value of a row that the spec does not state: word `j` of the row that sample `i` of a body writes (DESIGN CHOICE, log entry 21). -/
def openWord (key i j : Nat) : Nat := (Config.unstated (1000 + j) (key * 2 ^ 17 + i)).toNat % 2 ^ 32

/-- `lo + u × (hi − lo)` of two fp32 limits, rounded once. -/
def drawnLimits (lo hi k : Nat) : Nat := f32 ((f32num lo).add ((Num.ofInt (k : Int) (-24)).mul ((f32num hi).sub (f32num lo))))

/-- The drawn sample `i`: joint values and the base, of whatever kind it is (R223); the other words are open. -/
def drawRow (r : Robot) (v : MapView) (seed key i : Nat) : Conf :=
  let u (j : Nat) : Nat := gen seed i j / 2 ^ 8
  let word (j : Nat) : Nat :=
    if j < r.nj then
      let jt := lget ⟨0, 2, []⟩ r.joints j
      drawnLimits jt.qmin jt.qmax (u j)
    else if j = 64 then drawn (brickMetres (v.origin 0)) (brickMetres (v.origin 0 + 128)) (u j)
    else if j = 65 then drawn (brickMetres (v.origin 1)) (brickMetres (v.origin 1 + 128)) (u j)
    else if j = 66 then drawn (-fxPi) fxPi (u j)
    else openWord key i j
  ⟨(List.range 68).foldl (fun acc j => acc + word j * 2 ^ (32 * j)) 0⟩

/-- The duration of a distance under an fp32 limit: 0 under an infinite limit; none where a limit of 0, or one that is no limit, leaves it
infinite. -/
def ratio (d : Fx) (lim : Nat) : Option Fx :=
  if d = 0 then some 0
  else if f32num lim = .inf false then some 0
  else if fxOf lim ≤ 0 then none else some (fxDiv d (fxOf lim))

def maxTime (a b : Option Fx) : Option Fx :=
  match a, b with
  | some x, some y => some (max x y)
  | _, _ => none

/-- Are the words that matter in a row finite? -/
def Robot.finite (r : Robot) (c : Conf) : Bool :=
  (List.range r.nj).all (fun j => f32isFinite (c.q j)) && f32isFinite c.x && f32isFinite c.y && f32isFinite c.psi

/-- t(a, b) of R223; none where it is infinite, as it is taken to be from or to a row that is not finite (DEDUCED, log entry 147). -/
def Robot.time (r : Robot) (a b : Conf) : Option Fx :=
  if !(r.finite a && r.finite b) then none else
  let joints := r.joints.zipIdx.foldl (fun acc j =>
    if j.1.moves then maxTime acc (ratio ((fxOf (b.q j.2) - fxOf (a.q j.2)).natAbs : Int) j.1.vmax) else acc) (some 0)
  if r.base = 0 then joints
  else
    let dx := fxOf b.x - fxOf a.x
    let dy := fxOf b.y - fxOf a.y
    maxTime (maxTime joints (ratio (fxSqrt (fxMul dx dx + fxMul dy dy)) (r.baseLim 0)))
      (ratio ((fxWrap (fxOf b.psi - fxOf a.psi)).natAbs : Int) (r.yawLim 0))

/-- Is `a` before `b`, an infinite time last? -/
def timeLt (a b : Option Fx) : Bool :=
  match a, b with
  | some x, some y => decide (x < y)
  | some _, none => true
  | none, _ => false

/-- The nearest node of a sample: its index and its time, ties to the lowest index. -/
def nearestNode (times : List (Option Fx)) : Nat × Option Fx :=
  times.zipIdx.foldl (fun best t => if timeLt t.1 best.2 then (t.2, t.1) else best) (0, times.headD none)

/-- The end heading of the arc from a row to the base of another (R224); open where the arc is refused. -/
def Robot.arcHeading (r : Robot) (key i : Nat) (a b : Conf) : Nat :=
  let p := r.basePath a b
  if p.refused then openWord key i 66 else fxF32 (fxOf a.psi + p.turn)

/-- The row `node + (sample − node) × STEP_MAX / t` (R224). -/
def Robot.steer (r : Robot) (step : Fx) (key i : Nat) (node sample : Conf) (t : Option Fx) : Conf :=
  let f : Fx := match t with
    | some x => fxDiv step x
    | none => 0
  let mid (a b : Nat) : Nat := fxF32 (fxOf a + fxMul (fxOf b - fxOf a) f)
  let word (j : Nat) : Nat :=
    if j < r.nj then mid (node.q j) (sample.q j)
    else if j = 64 ∨ j = 65 then mid (node.q j) (sample.q j)
    else if j = 66 then fxF32 (fxOf node.psi + fxMul (fxWrap (fxOf sample.psi - fxOf node.psi)) f)
    else openWord key i j
  ⟨(List.range 68).foldl (fun acc j => acc + word j * 2 ^ (32 * j)) 0⟩

/-- A row with word `j` replaced. -/
def Conf.put (c : Conf) (j v : Nat) : Conf := ⟨c.raw - c.q j * 2 ^ (32 * j) + v * 2 ^ (32 * j)⟩

/-- A row of open words. -/
def openRow (key i : Nat) : Conf := ⟨(List.range 68).foldl (fun acc j => acc + openWord key i j * 2 ^ (32 * j)) 0⟩

/-- TREE: the new row of sample `i` and its parent (R224). -/
def treeRow (r : Robot) (v : MapView) (b : NBody) (key : Nat) (goal : Conf) (nodes : List Conf) (i : Nat) : Conf × Nat :=
  let sample := if gen b.seed i 127 / 2 ^ 24 < b.goalBias then goal else drawRow r v b.seed key i
  let best := nearestNode (nodes.map (fun c => r.time c sample))
  let node := lget ⟨0⟩ nodes best.1
  let step := fxOf b.param
  let near := match best.2 with
    | some t => decide (t ≤ step)
    | none => false
  let row := if near then sample else r.steer step key i node sample best.2
  let row1 := if r.base = 2 then row.put 66 (r.arcHeading key i node row) else row
  let row2 := if r.finite node && r.finite sample then row1 else openRow key i
  (row2.put 67 best.1, best.1)

/-- The nodes within RCONN of a sample, nearest first, ties to the lowest index. -/
def nearNodes (limit : Fx) (times : List (Option Fx)) : List Nat :=
  let ok := times.zipIdx.filterMap (fun t => match t.1 with
    | some x => if x ≤ limit then some (x, t.2) else none
    | none => none)
  (ok.mergeSort (fun a b => decide (a.1 < b.1) || (a.1 == b.1 && decide (a.2 ≤ b.2)))).map (·.2)

/-- ROADMAP: the row of sample `i` and its K edge entries (R224). -/
def roadRow (r : Robot) (v : MapView) (b : NBody) (key : Nat) (nodes : List Conf) (i : Nat) : Conf × List Nat :=
  let sample := drawRow r v b.seed key i
  let near := (nearNodes (fxOf b.param) (nodes.map (fun c => r.time c sample))).take b.k
  (sample, near.map (fun n => n + (b.limit + i) * 2 ^ 16) ++ List.replicate (b.k - near.length) 0xFFFFFFFF)

/-! ## Motion primitives (R225, R226) -/

/-- The least of the limits over the distances of the coordinates that move, an infinite limit leaving its coordinate out; none where every
limit is infinite. -/
def leastRate (f : Fx × Nat × Nat × Nat → Nat) (moving : List (Fx × Nat × Nat × Nat)) : Option Fx :=
  (moving.filter (fun q => f32isFinite (f q))).foldl (fun m q =>
    let r := fxDiv (fxOf (f q)) q.1
    match m with
    | none => some r
    | some k => some (min k r)) none

/-- The limits over distance of an edge, V, A and J, and whether one of them is no limit: 0, negative or NaN. -/
structure Rates where
  v : Option Fx
  a : Option Fx
  j : Option Fx
  bad : Bool
  deriving DecidableEq, Repr

/-- Is a pattern a limit: a positive number or infinity? -/
def isLimit (p : Nat) : Bool := f32lt 0 p

/-- V, A and J of an edge: the least limit over the distance, over the coordinates that move (R225); none where nothing moves. -/
def Robot.rates (r : Robot) (a b : Conf) : Option Rates :=
  let p := r.basePath a b
  let rows := (r.joints.zipIdx.map (fun j =>
      (if j.1.moves then ((fxOf (b.q j.2) - fxOf (a.q j.2)).natAbs : Int) else 0, j.1.vmax, j.1.amax, j.1.jmax))) ++
    [(p.length, r.baseLim 0, r.baseLim 1, r.baseLim 2), ((p.turn.natAbs : Int), r.yawLim 0, r.yawLim 1, r.yawLim 2)]
  let moving := rows.filter (fun q => q.1 != 0)
  if moving.isEmpty then none
  else some ⟨leastRate (·.2.1) moving, leastRate (·.2.2.1) moving, leastRate (·.2.2.2) moving,
    moving.any (fun q => !isLimit q.2.1 || !isLimit q.2.2.1 || !isLimit q.2.2.2)⟩

/-- A timed primitive: peak velocity, peak acceleration, jerk, the time of one jerk segment, acceleration time and duration. -/
structure Profile where
  v : Fx
  a : Fx
  j : Fx
  tj : Fx
  ta : Fx
  t : Fx
  deriving DecidableEq, Repr

/-- t_a(v) of R225; an infinite A leaves the second form, an infinite J the terms without it. -/
def accelTime (a j : Option Fx) (v : Fx) : Fx :=
  match a, j with
  | some a, some j => if fxDiv (fxMul a a) j ≤ v then fxDiv v a + fxDiv a j else 2 * fxSqrt (fxDiv v j)
  | some a, none => fxDiv v a
  | none, some j => 2 * fxSqrt (fxDiv v j)
  | none, none => 0

/-- The peak velocity of the last two rows of the table of R225; none where neither A nor J is a number. -/
def peakRate (a j : Option Fx) : Option Fx :=
  match a, j with
  | some a, some j =>
    let aj := fxDiv a j
    let v1 := fxMul (a / 2) (fxSqrt (fxMul aj aj + fxDiv (4 * fxOne) a) - aj)
    some (if fxDiv (fxMul a a) j ≤ v1 then v1 else fxCbrt (j / 4))
  | some a, none => some (fxSqrt a)
  | none, some j => some (fxCbrt (j / 4))
  | none, none => none

/-- The profile of a peak velocity and a duration. -/
def shapeOf (a j : Option Fx) (w t : Fx) : Profile :=
  let peak : Fx := match a, j with
    | some a, some j => min a (fxSqrt (fxMul j w))
    | some a, none => a
    | none, some j => fxSqrt (fxMul j w)
    | none, none => 0
  ⟨w, peak, j.getD 0, match j with
    | some j => fxDiv peak j
    | none => 0, accelTime a j w, t⟩

/-- The duration table of R225; none where no limit is a number. -/
def profileOf (v a j : Option Fx) : Option Profile :=
  let slow : Option Profile := (peakRate a j).map (fun w => shapeOf a j w (2 * accelTime a j w))
  match v with
  | some v => if fxMul v (accelTime a j v) ≤ fxOne then some (shapeOf a j v (accelTime a j v + fxDiv fxOne v)) else slow
  | none => slow

/-- s, ṡ and s̈ in the first half of a profile. -/
def Profile.rise (p : Profile) (t : Fx) : Fx × Fx × Fx :=
  let tj := p.tj
  let sa := fxMul p.v p.ta / 2
  if t ≤ tj then (fxMul p.j (fxMul t (fxMul t t)) / 6, fxMul p.j (fxMul t t) / 2, fxMul p.j t)
  else if t ≤ p.ta - tj then
    let u := t - tj
    let v0 := fxMul p.j (fxMul tj tj) / 2
    (fxMul p.j (fxMul tj (fxMul tj tj)) / 6 + fxMul v0 u + fxMul p.a (fxMul u u) / 2, v0 + fxMul p.a u, p.a)
  else if t ≤ p.ta then
    let u := p.ta - t
    (sa - fxMul p.v u + fxMul p.j (fxMul u (fxMul u u)) / 6, p.v - fxMul p.j (fxMul u u) / 2, fxMul p.j u)
  else (sa + fxMul p.v (t - p.ta), p.v, 0)

/-- s, ṡ and s̈ at a time (R225: the profile is symmetric). -/
def Profile.at' (p : Profile) (t : Fx) : Fx × Fx × Fx :=
  if 2 * t ≤ p.t then p.rise t
  else
    let q := p.rise (p.t - min t p.t)
    (fxOne - q.1, q.2.1, -q.2.2)

/-- What PRIM finds for an edge: INVALID, T as FP32, and the profile. -/
structure Prim where
  invalid : Bool
  t : Nat
  profile : Option Profile
  /-- A limit is 0, negative or NaN, or every limit is infinite: T is not stated. -/
  unstated : Bool := false

/-- Time an edge (R225, R226). -/
def Robot.prim (r : Robot) (key i : Nat) (a b : Conf) : Prim :=
  if r.edgeLimits a b then ⟨true, 0, none, false⟩
  else match r.rates a b with
  | none => ⟨false, 0, none, false⟩
  | some q =>
    match if q.bad then none else profileOf q.v q.a q.j with
    | none => ⟨false, openWord key i 70, none, true⟩
    | some p => ⟨false, fxF32 p.t, some p, false⟩

/-- Rows of the profile of an edge with DT > 0: k = 0 to ⌈T / DT⌉. -/
def Prim.rows (p : Prim) (dt : Nat) : Nat :=
  if (f32num dt).isZero ∨ p.unstated then 0
  else (-((((f32num p.t).div (f32num dt)).neg).floor)).toNat + 1

/-- Row `k` of a profile. -/
def Prim.row (p : Prim) (dt k : Nat) : List Byte :=
  let kd := f32 ((Num.ofInt k 0).mul (f32num dt))
  let t := if f32lt p.t kd then p.t else kd
  let q : Fx × Fx × Fx := match p.profile with
    | some f => f.at' (min (fxOf t) f.t)
    | none => (0, 0, 0)
  floatBytes [t, fxF32 q.1, fxF32 q.2.1, fxF32 q.2.2]

/-! ## Plans -/

/-- The configuration array that PRIM reads: R228 gives its address fields to other operands. An open address, in a place that R201 allows
to an operand of its rows (DESIGN CHOICE, log entry 34). -/
def State.primRows (s : State) (node : Nat) (b : NBody) : Nat :=
  let a := Config.primArray b.raw
  if s.placeOk node 3 a (272 * s.edgeRows node b) then a else t0Base 3

/-- The edge that item `i` of PRIM times. -/
def State.primOf (s : State) (node : Nat) (b : NBody) (i : Nat) : Prim :=
  let e := s.edgeEntry node b i
  let rows := glob node (s.primRows node b)
  (s.robot node b.model).prim b.raw i (s.confRow rows (edgeA e)) (s.confRow rows (edgeB e))

def NBody.dtOn (b : NBody) : Bool := !(f32num b.param).isZero

/-- Operands of a sampler command as local extents. -/
def State.samplerOperands (s : State) (node : Nat) (b : NBody) : List (Nat × Nat) :=
  match b.op with
  | 5 => [(b.addr 0, 272), (b.addr 1, 8 * b.count), (b.addr 2, 272 * (b.limit + b.count))]
  | 6 => [(b.addr 1, 8 * b.k * b.count), (b.addr 2, 272 * (b.limit + b.count))]
  | _ => [(b.addr 0, 8 * b.count), (b.addr 1, 16 * b.count)] ++
      (if b.dtOn then [(b.addr 2, 16 * (s.primOf node b 0).rows b.param)] else [])

/-- BAD_DESCRIPTOR of a sampler command (R229). Log entry 76 (DEDUCED). -/
def State.samplerBad (s : State) (node : Nat) (x : Cmd) : Bool :=
  let b : NBody := ⟨x.body⟩
  decide (b.op < 5) || decide (7 < b.op) ||
  (b.op != 7 && (!s.mapOn node b.map || !s.mapPlaced node b.map || (f32num b.param).isZero ||
    decide (65536 < b.limit + b.count))) ||
  (b.op == 7 && ((b.dtOn && b.count != 1) || !s.placeOk node 3 (s.primRows node b) (272 * s.edgeRows node b) ||
    (List.range b.count).any (fun i => bits (s.edgeEntry node b i) 32 32 != 0))) ||
  s.geoBad node x (s.samplerOperands node b)

/-- The node rows of TREE and ROADMAP. -/
def State.nodeRows (s : State) (node : Nat) (b : NBody) : List Conf :=
  (List.range b.limit).map (fun i => s.confRow (glob node (b.addr 2)) i)

/-- Write what item `i` of a sampler command gives. -/
def State.samplerItem (src s : State) (part node : Nat) (b : NBody) (epoch i : Nat) : State :=
  let r := src.robot node b.model
  let v := src.mapView node b.map epoch
  let key := b.raw + r.raw * 2 ^ 384
  let put (st : State) (off len val : Nat) : State := st.writeRun part true (glob node off) (leBytes len val)
  let rowAt := b.addr 2 + 272 * (b.limit + i)
  match b.op with
  | 5 =>
    let t := treeRow r v b key (src.confRow (glob node (b.addr 0)) 0) (src.nodeRows node b) i
    put (put s rowAt 272 t.1.raw) (b.addr 1 + 8 * i) 8 (t.2 + (b.limit + i) * 2 ^ 16)
  | 6 =>
    let t := roadRow r v b key (src.nodeRows node b) i
    (t.2.zipIdx).foldl (fun st e => put st (b.addr 1 + 8 * (b.k * i + e.2)) 8 e.1) (put s rowAt 272 t.1.raw)
  | _ =>
    let p := src.primOf node b i
    let rows := if p.unstated && b.dtOn then openWord b.raw i 71 else p.rows b.param
    let s1 := put s (b.addr 1 + 16 * i) 16 (p.t + rows * 2 ^ 32 + b2n p.invalid * 2 ^ 64)
    (List.range (p.rows b.param)).foldl (fun st k => st.writeRun part true (glob node (b.addr 2 + 16 * k)) (p.row b.param k)) s1

/-- Sectors that a sampler command reads. -/
def State.samplerReads (s : State) (node : Nat) (b : NBody) : List Nat :=
  (sectorsOf (glob node (4096 * s.getO ONX_G_MODEL.ADDR node b.model)) modelLen ++
   (match b.op with
    | 5 => sectorsOf (glob node (b.addr 0)) 272 ++ sectorsOf (glob node (b.addr 2)) (272 * b.limit)
    | 6 => sectorsOf (glob node (b.addr 2)) (272 * b.limit)
    | _ => sectorsOf (glob node (b.addr 0)) (8 * b.count) ++ (List.range b.count).flatMap (fun i =>
        let e := s.edgeEntry node b i
        sectorsOf (glob node (s.primRows node b + 272 * edgeA e)) 272 ++ sectorsOf (glob node (s.primRows node b + 272 * edgeB e)) 272))).foldl
    sinsert []

/-- Sectors that a sampler command writes. -/
def State.samplerDests (s : State) (node : Nat) (b : NBody) : List Nat :=
  (match b.op with
   | 5 => sectorsOf (glob node (b.addr 1)) (8 * b.count) ++ sectorsOf (glob node (b.addr 2 + 272 * b.limit)) (272 * b.count)
   | 6 => sectorsOf (glob node (b.addr 1)) (8 * b.k * b.count) ++ sectorsOf (glob node (b.addr 2 + 272 * b.limit)) (272 * b.count)
   | _ => sectorsOf (glob node (b.addr 1)) (16 * b.count) ++
      (if b.dtOn then sectorsOf (glob node (b.addr 2)) (16 * (s.primOf node b 0).rows b.param) else [])).foldl sinsert []

/-- What a sampler command does (R223 to R226, R233). -/
def State.samplerPlan (s : State) (node : Nat) (x : Cmd) : Plan :=
  let b : NBody := ⟨x.body⟩
  let epoch := x.anchor.getD 0
  { units := cdiv b.count 64
    reads := s.samplerReads node b
    dests := s.samplerDests node b
    anchor := x.anchor
    result := fun _ => epoch
    run := fun lo hi st =>
      let q := (itemsOf b.count lo hi).foldl (fun q i => State.samplerItem st q (s.ctxPart x.ctx) node b epoch i) st
      (q, if cdiv b.count 64 ≤ hi then q.staleAt node b.map epoch else []) }

/-- Plan a sampler command (R229). -/
def State.planSampler (s : State) (node : Nat) (x : Cmd) : Planned :=
  s.guardPlan (s.ctxPart x.ctx) (s.samplerPlan node x) (x.onStart (faultsOf (s.samplerBad node x) false))

/-- Run the sampler command of a node where its operation satisfies `is`; it waits while its map is zeroed. -/
def State.samplerCommand (s : State) (is : Nat → Bool) (node : Nat) (errs : ReadErrs) : State :=
  match s.executing node 11 with
  | some x =>
    let b : NBody := ⟨x.body⟩
    if is b.op && !(b.op != 7 && s.mapWaits node b.map) then s.runToEnd x (s.planSampler node x) errs else s
  | none => s

/-- TREE (R224). An operation that is not the sampler's is refused here. -/
def execTree (node : Nat) (errs : ReadErrs) (s : State) : Outcome State Fault Refusal := s.onClock <|
  .next (s.samplerCommand (fun o => o != 6 && o != 7) node errs)
/-- ROADMAP (R224). -/
def execRoadmap (node : Nat) (errs : ReadErrs) (s : State) : Outcome State Fault Refusal := s.onClock <|
  .next (s.samplerCommand (fun o => o == 6) node errs)
/-- PRIM (R225, R226). -/
def execPrim (node : Nat) (errs : ReadErrs) (s : State) : Outcome State Fault Refusal := s.onClock <|
  .next (s.samplerCommand (fun o => o == 7) node errs)

end Sys2Proof.Machine
end

