-- ==== Sys2Proof/Machine/Window.lean ====
section
/-! DEFINITION. Chapter 5: sliding-window operators on the matrix engine (R112 to R130). -/

namespace Sys2Proof.Machine

open Reg Host

/-! ## Address-generator fields (R113) -/

def MBody.kind (b : MBody) : Nat := bits b.raw 288 3
def MBody.avgFull (b : MBody) : Bool := bit b.raw 291
def MBody.kh (b : MBody) : Nat := bits b.raw 292 4 + 1
def MBody.kw (b : MBody) : Nat := bits b.raw 296 4 + 1
def MBody.sy (b : MBody) : Nat := bits b.raw 300 3 + 1
def MBody.sx (b : MBody) : Nat := bits b.raw 303 3 + 1
def MBody.dy (b : MBody) : Nat := bits b.raw 306 3 + 1
def MBody.dx (b : MBody) : Nat := bits b.raw 309 3 + 1
def MBody.padT (b : MBody) : Nat := bits b.raw 312 4
def MBody.padB (b : MBody) : Nat := bits b.raw 316 4
def MBody.padL (b : MBody) : Nat := bits b.raw 320 4
def MBody.padR (b : MBody) : Nat := bits b.raw 324 4
def MBody.ih (b : MBody) : Nat := bits b.raw 328 12 + 1
def MBody.iw (b : MBody) : Nat := bits b.raw 340 12 + 1
def MBody.cin (b : MBody) : Nat := bits b.raw 352 12 + 1
def MBody.s2d (b : MBody) : Nat := bits b.raw 364 2
def MBody.d2s (b : MBody) : Nat := bits b.raw 366 2

/-- Kinds: 0 CONV, 1 DWCONV, 2 POOL_AVG, 3 POOL_MAX, 4 TCONV, 5 RELAYOUT. Kinds without a B operand. -/
def MBody.noB (b : MBody) : Bool := b.kind == 2 || b.kind == 3 || b.kind == 5
/-- Does the kind run on the reduce path (R127)? -/
def MBody.reduces (b : MBody) : Bool := b.kind == 1 || b.noB
/-- Taps T of R114. -/
def MBody.taps (b : MBody) : Nat := b.kh * b.kw

/-- The arithmetic control word, the ignored fields of B taken as harmless for the kinds that have none (R124). -/
def MBody.wacw (b : MBody) : Acw :=
  let r := b.acw.raw
  if b.noB then ⟨r - bits r 4 4 * 16 - bits r 56 8 * 2 ^ 56 + bits r 0 4 * 16 + 0x7F * 2 ^ 56⟩ else ⟨r⟩

/-- Output height and width (R115, R116). -/
def outExtent (tconv : Bool) (i s d k p0 p1 : Nat) : Int :=
  if tconv then ((i : Int) - 1) * s + d * ((k : Int) - 1) + 1 - p0 - p1
  else ((i : Int) + p0 + p1 - d * ((k : Int) - 1) - 1) / s + 1

def MBody.ohI (b : MBody) : Int := outExtent (b.kind == 4) b.ih b.sy b.dy b.kh b.padT b.padB
def MBody.owI (b : MBody) : Int := outExtent (b.kind == 4) b.iw b.sx b.dx b.kw b.padL b.padR
def MBody.oh (b : MBody) : Nat := b.ohI.toNat
def MBody.ow (b : MBody) : Nat := b.owI.toNat

/-- K of R114. -/
def MBody.kTerms (b : MBody) : Nat :=
  if b.kind = 0 || b.kind = 4 then b.taps * b.cin else if b.kind = 5 then 1 else b.taps

/-- The input coordinate that a tap of an output coordinate reads, if it lies in the grid (R115 to R117). -/
def tapCoord (tconv : Bool) (o s d k p lim : Nat) : Option Nat :=
  if tconv then
    (if k * d ≤ o + p ∧ (o + p - k * d) % s = 0 ∧ (o + p - k * d) / s < lim then some ((o + p - k * d) / s) else none)
  else if p ≤ o * s + k * d ∧ o * s + k * d - p < lim then some (o * s + k * d - p) else none

/-- Input position of tap `t` of output `m`. -/
def MBody.tapAt (b : MBody) (m t : Nat) : Option (Nat × Nat) :=
  match tapCoord (b.kind == 4) (m / b.ow) b.sy b.dy (t / b.kw) b.padT b.ih,
        tapCoord (b.kind == 4) (m % b.ow) b.sx b.dx (t % b.kw) b.padL b.iw with
  | some y, some x => some (y, x)
  | _, _ => none

/-! ## Channel-blocked grids (R61, R119) -/

/-- A packed grid of C16 or C32 tiles: block size, positions and channels. -/
structure BGrid where
  fmt : Nat
  size : Nat
  addr : Nat
  bk : Nat
  positions : Nat
  chans : Nat
  deriving DecidableEq, Repr

def BGrid.perTile (g : BGrid) : Nat := g.size * 8 / (g.bk * fmtBits g.fmt)
def BGrid.tau (g : BGrid) : Nat := cdiv g.positions g.perTile
def BGrid.blocks (g : BGrid) : Nat := cdiv g.chans g.bk
def BGrid.count (g : BGrid) : Nat := g.blocks * g.tau
def BGrid.span (g : BGrid) : Nat × Nat := (g.addr, g.count * g.size)
/-- Bit address, within local memory, of channel `c` of position `q`. -/
def BGrid.bitAddr (g : BGrid) (q c : Nat) : Nat :=
  8 * (g.addr + (c / g.bk * g.tau + q / g.perTile) * g.size) + (q % g.perTile * g.bk + c % g.bk) * fmtBits g.fmt

/-- Block size of a layout code (R58). -/
def blockOf (lay : Nat) : Nat := if lay = 1 then 16 else 32

/-- Regrouping factor of an S2D or D2S code (R113). -/
def factorOf (code : Nat) : Nat := 2 ^ code

/-- The stored A grid (R119, R122). -/
def MBody.inGrid (b : MBody) : BGrid :=
  let f := factorOf b.s2d
  ⟨b.acw.fmtA, tileSize b.tsA, 4096 * b.aAddr, blockOf b.layA, f * b.ih * (f * b.iw), b.cin / (f * f)⟩

/-- Stored position and channel of regrouped channel `ci` at (y, x) (R122). -/
def MBody.stored (b : MBody) (y x ci : Nat) : Nat × Nat :=
  let f := factorOf b.s2d
  let c0 := b.cin / (f * f)
  let d := ci / c0
  ((f * y + d / f) * (f * b.iw) + f * x + d % f, ci % c0)

/-- The blocked output grid (R119, R123). -/
def MBody.outGrid (b : MBody) : BGrid :=
  let f := factorOf b.d2s
  ⟨b.acw.fmtOut, tileSize b.tsC, 4096 * b.cAddr, blockOf b.layC, f * b.oh * (f * b.ow), b.n / (f * f)⟩

/-- Output position and channel of element (m, n) (R123). -/
def MBody.placed (b : MBody) (m n : Nat) : Nat × Nat :=
  let f := factorOf b.d2s
  let c1 := b.n / (f * f)
  let d := n / c1
  ((f * (m / b.ow) + d / f) * (f * b.ow) + f * (m % b.ow) + d % f, n % c1)

def MBody.packedB (b : MBody) : Grid := packed b.acw.fmtB (tileSize b.tsB) (4096 * b.bAddr) b.n b.k
def MBody.packedC (b : MBody) : Grid := packed b.acw.fmtOut (tileSize b.tsC) (4096 * b.cAddr) b.m b.n
def MBody.packedP (b : MBody) : PGrid := ⟨4096 * b.pAddr, 65536 * cdiv b.n 64, b.m, b.n⟩

/-- Local address of output element (m, n). -/
def MBody.outAddr (b : MBody) (m n : Nat) : Nat :=
  if b.layC = 0 then b.packedC.eltAddr m n else b.outGrid.bitAddr (b.placed m n).1 (b.placed m n).2 / 8

/-- Addresses of the channels from the last real one to the end of its block, written as +0 with it (R120). -/
def MBody.tailAddrs (b : MBody) (m n : Nat) : List Nat :=
  let g := b.outGrid
  let p := b.placed m n
  if b.layC = 0 || p.2 + 1 != g.chans then [] else
    (List.range (g.blocks * g.bk - g.chans)).map (fun i => g.bitAddr p.1 (g.chans + i) / 8)

/-! ## Values and sums (R114, R117, R124, R125) -/

/-- Pattern of the input element at (y, x), regrouped channel `ci`. -/
def State.winBits (s : State) (node : Nat) (b : MBody) (y x ci : Nat) : Nat :=
  let p := b.stored y x ci
  let a := b.inGrid.bitAddr p.1 p.2
  let v := s.word (glob node (a / 8)) (cdiv (fmtBits b.acw.fmtA) 8)
  bits v (a % 8) (fmtBits b.acw.fmtA)

/-- Input element at (y, x), regrouped channel `ci`. -/
def State.winElt (s : State) (node : Nat) (b : MBody) (y x ci : Nat) : Elt :=
  mkElt b.acw.fmtA (s.winBits node b y x ci) b.acw.tscaleA 0

/-- The taps of output `m` that lie in the grid, with their positions. -/
def MBody.inTaps (b : MBody) (m : Nat) : List (Nat × Nat × Nat) :=
  (List.range b.taps).filterMap (fun t => (b.tapAt m t).map (fun p => (t, p.1, p.2)))

/-- The pairs of output (m, n) of a kind with a B operand (R114, R117). -/
def State.winPairs (s : State) (node : Nat) (b : MBody) (m n : Nat) : List (Elt × Elt) :=
  let row := s.rowElts node b.packedB b.acw.tscaleB n
  (b.inTaps m).flatMap (fun t =>
    if b.kind = 1 then [(s.winElt node b t.2.1 t.2.2 n, lget ⟨.nan, 0, 0, false⟩ row t.1)]
    else (List.range b.cin).map (fun ci => (s.winElt node b t.2.1 t.2.2 ci, lget ⟨.nan, 0, 0, false⟩ row (t.1 * b.cin + ci))))

/-- The values of output (m, n) of a kind without one (R124). -/
def State.winValues (s : State) (node : Nat) (b : MBody) (m n : Nat) : List Elt :=
  (b.inTaps m).map (fun t => s.winElt node b t.2.1 t.2.2 n)

/-- Element as a product (R124). -/
def Elt.product (e : Elt) : Product := ⟨e.num, e.e, e.d⟩

/-- The larger of two finite values, compared exactly. -/
def Num.larger (a b : Num) : Num := if a.lt b then b else a

/-- The accumulator of POOL_MAX (R125): the special states join, the largest finite value stands for the sum. -/
def maxAcc (A : Int) (L : Nat) (l : List Elt) : Acc :=
  let sp := (l.foldl (fun acc e => acc.addProduct A L e.product) ({} : Acc)).sp
  match l.filter (fun e => e.num.isFinite) with
  | [] => { sp := sp }
  | e :: t =>
    let top := t.foldl (fun (a : Elt) x => if a.num.lt x.num then x else a) e
    { ({} : Acc).addProduct A L top.product with sp := sp }

/-- The bound over the values of a kind without a B operand (R124). -/
def eltBound (e : Elt) : Option Int := if e.cand then some e.e else none

/-- The anchor of a WINDOW command (R38, R117, R124). -/
def State.winAnchor (s : State) (node : Nat) (b : MBody) : Int :=
  if b.noB then
    anchorOf ((indexPairs b.m b.n).foldl (fun a p =>
      (s.winValues node b p.1 p.2).foldl (fun a' e => omax a' (eltBound e)) a) none) b.acw.kLog2
  else anchorOver b.m b.n b.acw.kLog2 (s.winPairs node b)

/-- Deliver POOL_AVG: the sum divided by the count in the one rounding (R125). -/
def deliverAvg (w : Acw) (A : Int) (count : Nat) (a : Acc) : Nat × Bool :=
  if a.sp != .finite || (a.t == 0 && !a.sticky) then a.deliver w.fmtOut w.round w.satInf A w.outScale
  else deliverNum w.fmtOut w.round w.satInf ((a.value A w.outScale).div (.ofInt (count : Int) 0))

/-- Does a RELAYOUT leave its values as they are (R121): it keeps the format, and no scale changes them (DESIGN CHOICE, log entry 143)? -/
def MBody.keepsValues (b : MBody) : Bool :=
  b.kind == 5 && b.acw.fmtOut == b.acw.fmtA && b.acw.tscaleA == 0x7F && b.acw.outScale == 0

/-- The pattern that such a RELAYOUT delivers for output (m, n), where its value is finite and not zero. -/
def State.keptBits (s : State) (node : Nat) (b : MBody) (m n : Nat) : Option Nat :=
  if !b.keepsValues then none else
    match b.inTaps m with
    | t :: _ =>
      let e := s.winElt node b t.2.1 t.2.2 n
      if e.num.isFinite && !e.num.isZero then some (s.winBits node b t.2.1 t.2.2 n) else none
    | [] => none

/-- Pattern and saturation of output (m, n) of a kind without a B operand (R121, R125). -/
def State.poolOut (s : State) (node : Nat) (b : MBody) (A : Int) (m n : Nat) : Nat × Bool :=
  let w := b.acw
  let l := s.winValues node b m n
  match s.keptBits node b m n with
  | some v => (v, false)
  | none =>
  if l.isEmpty then (0, false)
  else if b.kind = 3 then (maxAcc A w.kLog2 l).deliver w.fmtOut w.round w.satInf A w.outScale
  else
    let acc := l.foldl (fun acc e => acc.addProduct A w.kLog2 e.product) ({} : Acc)
    if b.kind = 2 then deliverAvg w A (if b.avgFull then b.taps else l.length) acc
    else acc.deliver w.fmtOut w.round w.satInf A w.outScale

/-! ## Units and timing (R126 to R128) -/

def MBody.gang (b : MBody) : Nat := if b.noB then gangOf b.acw.fmtA else max (gangOf b.acw.fmtA) (gangOf b.acw.fmtB)

/-- The CONV term of R126 for `m` outputs and `t` taps. -/
def MBody.convTiming (b : MBody) (m t : Nat) : Timing :=
  let w := b.acw
  let g := b.gang
  let ka := 512 / g
  let ba := blockOf b.layA
  let kpad := t * (cdiv b.cin ba * ba)
  let nM := cdiv m (512 * g)
  let mc := cdiv m nM
  let nN := cdiv b.n ka
  let s := cdiv kpad ka * max (cdiv (min kpad ka) (16 * ba) * mc) (loadTime w.fmtB ka ka)
  ⟨nM, nN, mc, s, mc * cdiv (ka * portBytes w) 2048, 2 * ka + 24, prePass w b.m b.n b.k (nM * nN * s)⟩

/-- The outputs of phase (py, px) of a TCONV and its connected taps (R126). -/
def MBody.phaseOutputs (b : MBody) (py px : Nat) : List Nat :=
  (List.range b.m).filter (fun m => (m / b.ow + b.padT) % b.sy == py && (m % b.ow + b.padL) % b.sx == px)
def MBody.phaseTaps (b : MBody) (py px : Nat) : Nat :=
  ((List.range b.taps).filter (fun t => t / b.kw * b.dy % b.sy == py && t % b.kw * b.dx % b.sx == px)).length

/-- The phases of a TCONV that have outputs, with their timing; a CONV is one phase (R126). -/
def MBody.phases (b : MBody) : List (List Nat × Timing) :=
  if b.kind = 4 then
    ((indexPairs b.sy b.sx).map (fun p => (b.phaseOutputs p.1 p.2, b.phaseTaps p.1 p.2))).filterMap
      (fun q => if q.1.isEmpty then none else some (q.1, b.convTiming q.1.length q.2))
  else [(List.range b.m, b.convTiming b.m b.taps)]

/-- The elements of every unit, with the unit's cycles. -/
def MBody.unitList (b : MBody) : List (List (Nat × Nat) × Nat) :=
  if b.reduces then
    (List.range (cdiv b.m 512)).map (fun u =>
      let rows := min 512 (b.m - 512 * u)
      ((List.range rows).flatMap (fun i => (List.range b.n).map (fun n => (512 * u + i, n))),
        cdiv (rows * cdiv b.cin (blockOf b.layA) * b.taps) 16))
  else
    b.phases.flatMap (fun p => (List.range (p.2.nM * p.2.nN)).map (fun u =>
      ((unitElts p.2 (512 / b.gang) p.1.length b.n u).map (fun e => (lget 0 p.1 e.1, e.2)), p.2.unit)))

/-- Pre-pass cycles (R98, R126, R127). -/
def MBody.winPre (b : MBody) : Nat :=
  let pass := if b.reduces then cdiv (b.m * cdiv b.cin (blockOf b.layA) * b.taps) 16
    else (b.phases.map (fun p => p.2.nM * p.2.nN * p.2.s)).sum
  prePass b.wacw b.m b.n b.k pass

/-- Closing cycles: 64 on the reduce path, P plus the largest X otherwise. -/
def MBody.winTail (b : MBody) : Nat :=
  if b.reduces then 64 else (b.phases.map (fun p => p.2.p + p.2.x)).foldl max 0

/-! ## Refusals (R129, R130) -/

def MBody.shapeBad (b : MBody) : Bool :=
  decide (b.ohI < 1) || decide (b.owI < 1) || b.m != b.oh * b.ow || b.k != b.kTerms || (b.reduces && b.n != b.cin)

def MBody.fieldBad (b : MBody) : Bool :=
  (b.kind == 5 && (b.kh != 1 || b.kw != 1 || b.sy != 1 || b.sx != 1 || b.dy != 1 || b.dx != 1 ||
    b.padT != 0 || b.padB != 0 || b.padL != 0 || b.padR != 0)) ||
  (b.noB && (b.bAddr != 0 || b.tsB != 0 || b.acw.outKind != 0 || b.acw.accIn)) || (b.kind != 2 && b.avgFull)

def MBody.regroupBad (b : MBody) : Bool :=
  b.s2d == 3 || b.d2s == 3 || (b.s2d != 0 && b.d2s != 0) || b.cin % (factorOf b.s2d * factorOf b.s2d) != 0 ||
  b.n % (factorOf b.d2s * factorOf b.d2s) != 0

def State.blockPlaced (s : State) (node : Nat) (g : BGrid) : Bool :=
  (List.range g.count).all (fun i => s.placeOk node 0 (g.addr + i * g.size) g.size)

/-- BAD_DESCRIPTOR of a WINDOW command (R93, R129). -/
def State.windowBad (s : State) (node : Nat) (b : MBody) : Bool :=
  let w := b.wacw
  b.reserved || bits b.raw 368 16 != 0 || decide (5 < b.kind) || b.flow == 1 || w.bad b.k || (w.outKind == 0 && w.accIn) ||
  b.unusedBad false || isMx w.fmtA || (!b.noB && isMx w.fmtB && (b.cin % 32 != 0 || b.k % 32 != 0)) ||
  b.shapeBad || b.fieldBad || b.regroupBad ||
  b.inGrid.addr % b.inGrid.size != 0 || (!b.noB && b.packedB.addr % b.packedB.size != 0) ||
  (w.rounded && b.outGrid.addr % b.outGrid.size != 0) || (w.partials && b.packedP.addr % 65536 != 0) ||
  !s.blockPlaced node b.inGrid || (!b.noB && !s.gridPlaced node 0 b.packedB) ||
  (w.rounded && !(if b.layC = 0 then s.gridPlaced node 0 b.packedC else s.blockPlaced node b.outGrid)) ||
  (w.partials && !s.pgridPlaced node 0 b.packedP) ||
  anyOverlap ([b.inGrid.span] ++ (if b.noB then [] else [b.packedB.span]) ++
    (if w.rounded then [if b.layC = 0 then b.packedC.span else b.outGrid.span] else []) ++
    (if w.partials then [b.packedP.span] else []))

/-- BAD_LAYOUT of a WINDOW command (R94, R130). -/
def State.windowLayoutBad (s : State) (node : Nat) (b : MBody) : Bool :=
  !(b.layA == 1 || b.layA == 2) || b.layB != 0 || decide (2 < b.layC) || (b.d2s != 0 && b.layC == 0) ||
  s.importBad node b.wacw b.packedP

/-! ## The plan -/

/-- Sectors of the input that in-range taps read (R117). -/
def MBody.inSectors (b : MBody) (node : Nat) : List Nat :=
  let g := b.inGrid
  let f := factorOf b.s2d
  let read (y x : Nat) : List Nat :=
    (indexPairs f f).flatMap (fun d => (List.range g.blocks).flatMap (fun j =>
      let q := (f * y + d.1) * (f * b.iw) + f * x + d.2
      let c := min g.bk (g.chans - j * g.bk)
      sectorsOf (glob node (g.bitAddr q (j * g.bk) / 8)) (cdiv (c * fmtBits g.fmt) 8)))
  ((List.range b.m).flatMap (fun m => (b.inTaps m).flatMap (fun t => read t.2.1 t.2.2))).foldl sinsert []

/-- Cells of the outputs of a unit (R120, R123), and the saturation condition. -/
def windowCells (node : Nat) (b : MBody) (elts : List (Nat × Nat)) (out : Nat → Nat → Nat × Bool) : List (Nat × Byte) × Bool :=
  elts.foldr (fun p (q : List (Nat × Byte) × Bool) =>
    let d := out p.1 p.2
    let e := fmtBytes b.acw.fmtOut
    (valueCells (glob node (b.outAddr p.1 p.2)) e d.1 ++
      (b.tailAddrs p.1 p.2).flatMap (fun a => valueCells (glob node a) e 0) ++ q.1, q.2 || d.2)) ([], false)

/-- Every destination sector of the rounded output. -/
def MBody.outSectors (b : MBody) (node : Nat) : List Nat :=
  ((indexPairs b.m b.n).flatMap (fun p => (b.outAddr p.1 p.2 :: b.tailAddrs p.1 p.2).map (fun a => sectorOf (glob node a)))).foldl
    sinsert []

/-- Run one unit of a WINDOW command. The flag is the condition of R45, as for a MATMUL. -/
def State.windowUnit (s : State) (part node : Nat) (b : MBody) (A : Int) (elts : List (Nat × Nat)) : State × Bool :=
  let w := b.wacw
  let acc (m n : Nat) : Acc :=
    let own := sumPairs A w.kLog2 {} (s.winPairs node b m n)
    if w.accIn then own.addPartial (s.partialElt node b.packedP m n) else own
  let out (m n : Nat) : Nat × Bool :=
    if b.noB then s.poolOut node b A m n else (acc m n).deliver w.fmtOut w.round w.satInf A w.outScale
  let r := if w.rounded then windowCells node b elts out else ([], false)
  let s1 := s.scatter part r.1
  (if w.exports then s1.exportTiles part node b.packedP A w.kLog2 elts acc else s1,
   r.2 || (w.exports && elts.any (fun p => (acc p.1 p.2).sp == .overrange)))

/-- The plan of a WINDOW body (R112 to R130). -/
def State.windowPlan (s : State) (node : Nat) (x : Cmd) : Plan :=
  let b : MBody := ⟨x.body⟩
  let w := b.wacw
  let part := s.ctxPart x.ctx
  let A := chooseAnchor x.anchor w (s.winAnchor node b)
  if w.anchorMode = 2 then
      { units := 1
        reads := ((if preScan w.fmtA then b.inSectors node else []) ++ (if b.noB then [] else scanSectors node b.packedB)).foldl sinsert []
        dests := [], result := fun _ => matResult A false
        run := fun _ _ st => (st.countMatrix node 0 (b.winPre + 64), []) }
  else
    let ul := b.unitList
    { units := ul.length
      reads := (b.inSectors node ++ (if b.noB then [] else b.packedB.sectors node) ++
        (if w.accIn then b.packedP.readSectors node else [])).foldl sinsert []
      dests := ((if w.rounded then b.outSectors node else []) ++ (if w.exports then b.packedP.sectors node else [])).foldl sinsert []
      anchor := some (A + 112).toNat
      result := fun _ => matResult A false
      run := fun lo hi st =>
        let us := (ul.drop lo).take (hi - lo)
        let q := us.foldl (fun (q : State × Bool) u =>
          let r := q.1.windowUnit part node b A u.1
          (r.1, q.2 || r.2)) (st, false)
        let products := if b.noB then 0 else (us.map (fun u => (u.1.map (fun p => (st.winPairs node b p.1 p.2).length)).sum)).sum
        let cycles := (if lo = 0 then b.winPre else 0) + (us.map (·.2)).sum + b.winTail
        ((q.1.setO ONX_M_STATUS.MX_FLOW node 0 0).countMatrix node products cycles, if q.2 then [.okSaturated] else []) }

/-- What the body of a WINDOW command meets as it starts (R93, R94, R129, R130). -/
def State.windowFaults (s : State) (node : Nat) (x : Cmd) : List Status :=
  x.onStart (faultsOf (s.windowBad node ⟨x.body⟩) (s.windowLayoutBad node ⟨x.body⟩))

/-- Plan a WINDOW body; R31 puts DENIED before what else its body meets. -/
def State.planWindow (s : State) (node : Nat) (x : Cmd) : Planned :=
  s.guardPlan (s.ctxPart x.ctx) (s.windowPlan node x) (s.windowFaults node x)

/-- The dataflow of a matrix command, 1 for OS; none for SCAN_ONLY, which streams nothing (R89, R95, R100, R126; log entry 139). -/
def MBody.flowUsed (b : MBody) : Option Nat :=
  if b.acw.anchorMode = 2 then none else if b.op = 1 then some 0 else some (b2n b.useOs)

/-- Run the WINDOW command of a node where it is of kind `k`. -/
def State.windowCommand (s : State) (k : Nat → Bool) (node : Nat) (errs : ReadErrs) : State :=
  s.matrixCommand (fun b => b.op == 1 && k b.kind) State.planWindow node errs

/-- CONV (R114). A reserved KIND is refused here. -/
def execConv (node : Nat) (errs : ReadErrs) (s : State) : Outcome State Fault Refusal := s.onClock <|
  .next (s.windowCommand (fun k => k == 0 || decide (5 < k)) node errs)
/-- DWCONV (R114). -/
def execDwconv (node : Nat) (errs : ReadErrs) (s : State) : Outcome State Fault Refusal := s.onClock <|
  .next (s.windowCommand (fun k => k == 1) node errs)
/-- POOL_AVG (R125). -/
def execPoolAvg (node : Nat) (errs : ReadErrs) (s : State) : Outcome State Fault Refusal := s.onClock <|
  .next (s.windowCommand (fun k => k == 2) node errs)
/-- POOL_MAX (R125). -/
def execPoolMax (node : Nat) (errs : ReadErrs) (s : State) : Outcome State Fault Refusal := s.onClock <|
  .next (s.windowCommand (fun k => k == 3) node errs)
/-- TCONV (R116). -/
def execTconv (node : Nat) (errs : ReadErrs) (s : State) : Outcome State Fault Refusal := s.onClock <|
  .next (s.windowCommand (fun k => k == 4) node errs)
/-- RELAYOUT (R121). -/
def execRelayout (node : Nat) (errs : ReadErrs) (s : State) : Outcome State Fault Refusal := s.onClock <|
  .next (s.windowCommand (fun k => k == 5) node errs)

end Sys2Proof.Machine
end

