-- ==== Sys2Proof/Machine/Preempt.lean ====
section
/-! DEFINITION. Chapter 12: PREEMPTION_POINT (R287, R301, R304). -/

namespace Sys2Proof.Machine

open Reg Host

/-- The plan of the command that an engine instance executes; a command without preemption points, and one that waits for a pool, a map or
the scan engine before its first unit (R146, R176, R208), has none here (R301). -/
def State.planOf (s : State) (node inst : Nat) (x : Cmd) : Planned :=
  match inst with
  | 0 => if MBody.op ⟨x.body⟩ = 1 then s.planWindow node x else s.planMatmul node x
  | 1 => s.planVector node x
  | 2 => if ABody.op ⟨x.body⟩ ≤ 1 && !s.poolWaits node (s.ctxPart x.ctx) then s.planAttention node x else .refused .ok
  | 3 => if SBody.op ⟨x.body⟩ = 0 then s.planScan node x else .refused .ok
  | 4 => if s.gateTaken node then .refused .ok else s.planGate node x
  | 5 => s.planSolver node x
  | 6 => .refused .ok
  | 11 => if NBody.op ⟨x.body⟩ != 7 && s.mapWaits node (NBody.map ⟨x.body⟩) then .refused .ok else s.planSampler node x
  | _ => if inst < 11 && !s.mapWaits node (NBody.map ⟨x.body⟩) then s.planQuery node x else .refused .ok

/-- The result field of a command that ends where it runs or has stopped: that of its engine, for what it used (R95, R153, R198, R232). -/
def State.endedResult (s : State) (x : Cmd) : Nat :=
  if x.phase == .stopped then x.result
  else match s.planOf x.node x.inst x with
    | .plan p => p.result s
    | .refused _ => x.refusedResult

/-- Does a ready command of higher rank name the engine of an instance, or does one wait for a T0 region that context `c` holds on
its core (R301)? -/
def State.outranked (s : State) (node inst : Nat) (x : Cmd) : Bool :=
  let core := engineCore (instEngine inst)
  s.cmdList.any (fun y => y.ctx != x.ctx && decide (s.rankOf x.ctx < s.rankOf y.ctx) && s.cmdNode y == node &&
    ((y.engine == x.engine && s.ready y) ||
     (s.readyButSwitch y && (s.coresNamed y).contains core && (s.blockers y.ctx node core).contains x.ctx)))

/-- Does a running command stop at its next preemption point: an ORDINARY one with NOPREEMPT = 0 that is outranked, or one of a
context that is ABORTING (R287, R301)? -/
def State.stops (s : State) (node inst : Nat) (x : Cmd) : Bool :=
  s.ctxState x.ctx == 3 ||
  (s.ctxClass x.ctx == 0 && s.get AGT_SCHED_CTX_CFG.NOPREEMPT x.ctx == 0 && s.outranked node inst x)

/-- PREEMPTION_POINT: the command stops after `units` more of its work units, at least one, since a preemption point lies at the end of a
unit (R104, R111, R128, R153, R170, R199, R229), its resume record written; a context that is
ABORTING then completes it with PREEMPTED. -/
def execPreemptionPoint (node inst units : Nat) (errs : ReadErrs) (s : State) : Outcome State Fault Refusal := s.onClock <|
  match s.executing node inst with
  | none => .next s
  | some x =>
    if !s.stops node inst x then .next s
    else match s.planOf node inst x with
    | .refused _ => .next s
    | .plan p =>
      if 0 < units && x.unitsDone + units < p.units then .next ((s.runPlan x p (x.unitsDone + units) errs).abortSweep x.ctx)
      else .next s

end Sys2Proof.Machine
end

