-- ==== Sys2Proof/Machine/Rings.lean ====
section
/-! DEFINITION. What the blocks of Agate write by themselves: rings of the RING layout (R249), and the inputs forwarded to
Scarab (R392). -/

namespace Sys2Proof.Machine

open Reg

/-- One byte of CRC-32C. -/
def crcByte (c : Nat) (b : Byte) : Nat :=
  (List.range 8).foldl (fun r _ => if r % 2 = 1 then (r / 2) ^^^ 0x82F63B78 else r / 2) (c ^^^ b.toNat)

/-- CRC-32C of bytes. -/
def crc32c (l : List Byte) : Nat := (l.foldl crcByte 0xFFFFFFFF) ^^^ 0xFFFFFFFF

/-- A write of Agate itself to T2, in no partition's name; none where it fails: the die is not reachable, the address is no T2
address, or the area is protected (R16, R426). -/
def State.agateWrite (s : State) (a : Nat) (b : List Byte) : Option State :=
  if isT2 a && isT2 (a + b.length - 1) && nodeOf (a + b.length - 1) == nodeOf a && s.t2Up (nodeOf a) && !s.areaRefused none a b.length
  then some (s.writeRun 0 false a b) else none

/-- Read bytes for Agate itself, in no partition's name: a T1 line that holds a sector is used and filled, and none is allocated (R66,
R67). -/
def State.agateRead (s : State) (a n : Nat) : State × List Byte := ((s.readSectors 0 false {} (sectorsOf a n)).st, s.bytes a n)

/-- A register of the RING layout (R260). -/
structure RingReg where
  base : Fld
  node : Fld
  depth : Fld
  i : Nat

def RingReg.key (r : RingReg) : Nat := r.base.addr 4 r.i

/-- What a ring becomes once a record was placed, or was not: a failed write counts in LOST. The flag says that it was written. -/
def State.ringStored (s : State) (r : RingReg) (lost : Nat) : Option State → State × Bool
  | some s1 => (s1, true)
  | none => ({ s with rings := tset s.rings r.key (lost + 1) }, false)

/-- Write record `k` of `len` bytes to a ring. A ring whose register was not written since its reset takes nothing; a failed
write counts in LOST. The flag says that the record was written (R249). -/
def State.ringPut (s : State) (r : RingReg) (k : Nat) (b : List Byte) : State × Bool :=
  match tfind s.rings r.key with
  | none => (s, false)
  | some lost =>
    s.ringStored r lost (s.agateWrite (glob (s.get r.node r.i) (4096 * s.get r.base r.i + k % (s.get r.depth r.i + 1) * b.length)) b)

/-- Forward an input to Scarab: while its domains are on and link 8 carries anything (R265); a ring that is full, whose depth the spec does not give, drops it and
sets INPUT_LOSS (R392, DESIGN CHOICE, log entry 39). -/
def State.forward (s : State) (kind index : Nat) (b : List Byte) : State :=
  if !(s.domOn 40 && s.domOn 41) || s.get AGT_FAB_LINK.STATE 8 == 0 then s
  else
    let d := s.draw
    if d.1 % 2 = 1 then d.2.set SCB_CMP_STATUS.INPUT_LOSS 0 1 else d.2.emit (.scarab kind index b)

end Sys2Proof.Machine
end

