-- ==== Sys2Proof/Machine/Ingest.lean ====
section
/-! DEFINITION. Chapter 10: camera ports, the freeze detector, snapshots, IMU and encoder ports (R235 to R251). -/

namespace Sys2Proof.Machine

open Reg Host

/-- Is the ingest block powered? -/
def State.ingOn (s : State) : Bool := s.domOn 35

/-- Does a write by `src` arrive at byte `off` of AGT_ING? -/
def State.ingWrites (s : State) (src : Src) (off : Nat) : Bool := s.ingOn && s.reaches src 4 11 off

/-- An access to AGT_ING that takes no effect. -/
def State.ingTurned (s : State) (src : Src) (off : Nat) : State := s.turnAway src 4 11 off

def State.cam (s : State) (p : Nat) : CamPort := tget {} s.ing.cams p
def State.setCam (s : State) (p : Nat) (c : CamPort) : State := { s with ing := { s.ing with cams := tput {} s.ing.cams p c } }
def State.camState (s : State) (p : Nat) : Nat := s.get AGT_ING_CAMSTAT.STATE p
def State.ingCfgErr (s : State) : State := s.set AGT_ING_STATUS.CFG_ERR 0 1

/-- Enter a state of R245 and show CAM_ACTIVE. -/
def State.setCamState (s : State) (p v : Nat) : State :=
  (s.set AGT_ING_CAMSTAT.STATE p v).set AGT_ING_STATUS.CAM_ACTIVE 0 (setBit (s.get AGT_ING_STATUS.CAM_ACTIVE 0) p (v == 3))

/-- State of buffer `k`: 0 FREE, 1 FILLING, 2 READY, 3 HELD (R240). -/
def State.bufState (s : State) (p k : Nat) : Nat := bits (s.get AGT_ING_CAMSTAT.BUFSTATE p) (2 * k) 2
def State.setBuf (s : State) (p k v : Nat) : State :=
  let b := s.get AGT_ING_CAMSTAT.BUFSTATE p
  s.set AGT_ING_CAMSTAT.BUFSTATE p (b - bits b (2 * k) 2 * 4 ^ k + v * 4 ^ k)
def State.camDepth (s : State) (p : Nat) : Nat := s.get AGT_ING_CAMCFG.DEPTH_M1 p + 1
/-- Buffers of a port in a state. -/
def State.bufsIn (s : State) (p v : Nat) : List Nat := (List.range 8).filter (fun k => decide (k < s.camDepth p) && s.bufState p k == v)
/-- FILLING and READY buffers become FREE. -/
def State.dropBufs (s : State) (p : Nat) : State :=
  (s.bufsIn p 1 ++ s.bufsIn p 2).foldl (fun st k => st.setBuf p k 0) s

def camFrame (c : CamPort) (k : Nat) : CamFrame := tget {} c.frames k

/-- The READY buffer with the lowest or the highest SEQ. -/
def State.readyBuf (s : State) (p : Nat) (highest : Bool) : Option Nat :=
  let c := s.cam p
  (s.bufsIn p 2).foldl (fun best k => match best with
    | none => some k
    | some j =>
      let newer := serialGe (camFrame c k).seq (camFrame c j).seq
      if newer == highest then some k else some j) none

/-! ## Configuration (R235, R236, R245, R246) -/

/-- Formats of OUTFMT as codes of R32. -/
def camFmt (o : Nat) : Nat := lget 3 [3, 9, 0xA] o
def State.camTile (s : State) (p : Nat) : Nat := tileSize (s.get AGT_ING_CAMCFG.TSIZE p)
def State.camW (s : State) (p : Nat) : Nat := s.get AGT_ING_CAMCFG.WIDTH_M1 p + 1
def State.camH (s : State) (p : Nat) : Nat := s.get AGT_ING_CAMCFG.HEIGHT_M1 p + 1
/-- Tiles of a frame, τ (R236). -/
def State.camTau (s : State) (p : Nat) : Nat :=
  cdiv (s.camW p * s.camH p) (s.camTile p / (16 * fmtBytes (camFmt (s.get AGT_ING_CAMCFG.OUTFMT p))))
/-- Global address of the buffer area. -/
def State.camArea (s : State) (p : Nat) : Nat := glob (s.get AGT_ING_CAMBUF.NODE p) (4096 * s.get AGT_ING_CAMBUF.BASE p)

/-- May the configuration that stands be enabled (R235, R236, R260)? -/
def State.camCfgOk (s : State) (p : Nat) : Bool :=
  let size := s.camTile p
  [0x2A, 0x2B, 0x2C, 0x24, 0x1E].contains (s.get AGT_ING_CAMCFG.DT p) && s.get AGT_ING_CAMCFG.OUTFMT p != 3 &&
  s.get AGT_ING_CAMCFG.TSIZE p != 3 && s.get AGT_ING_CAMCFG.DEPTH_M1 p != 0 && decide (s.get AGT_ING_CAMBUF.NODE p < 4) &&
  4096 * s.get AGT_ING_CAMBUF.BASE p % size == 0 &&
  decide (4096 * s.get AGT_ING_CAMBUF.BASE p + size * (1 + s.camDepth p * s.camTau p) ≤ 0x1000000000)

/-- The dictionary values of a port (R261). -/
def State.camLimits (s : State) (p : Nat) : CamLimits :=
  ⟨s.obj 33333 (0x4800 + p) 1, s.obj 3 (0x4800 + p) 2, s.obj 16 (0x4800 + p) 3, s.obj 2 (0x4800 + p) 4, s.obj 1 (0x4800 + p) 5 == 1⟩

/-- Store CAMCFG but for ENABLE. -/
def State.storeCam (s : State) (p val : Nat) : State :=
  ((((((s.set AGT_ING_CAMCFG.VC p (bits val 1 2)).set AGT_ING_CAMCFG.DT p (bits val 4 6)).set AGT_ING_CAMCFG.OUTFMT p (bits val 10 2)).set
    AGT_ING_CAMCFG.TSIZE p (bits val 12 2)).set AGT_ING_CAMCFG.DEPTH_M1 p (bits val 14 3)).set
    AGT_ING_CAMCFG.WIDTH_M1 p (bits val 32 12)).set AGT_ING_CAMCFG.HEIGHT_M1 p (bits val 44 12)

/-- CAMCFG_WRITE: `reg` is 0 CAMCFG, 1 CAMBUF of port `p` (R235, R236, R245, R246). Log entry 80 (DEDUCED). -/
def execCamcfgWrite (src : Src) (p reg val : Nat) (s : State) : Outcome State Fault Refusal := s.onClock <|
  if decide (11 < p) || decide (1 < reg) then .next s
  else if !s.ingWrites src (0x100 + 64 * p) then .next (s.ingTurned src (0x100 + 64 * p))
  else
    let on := s.get AGT_ING_CAMCFG.ENABLE p == 1
    if on && !(reg == 0 && !bit val 0) then .next s.ingCfgErr
    else if reg = 1 then .next ((s.set AGT_ING_CAMBUF.BASE p (bits val 0 28)).set AGT_ING_CAMBUF.NODE p (bits val 28 4))
    else if on then
      let s1 := (((s.dropBufs p).storeCam p val).set AGT_ING_CAMCFG.ENABLE p 0).setCamState p 0
      .next (s1.setCam p { s.cam p with cur := none, waits := [] })
    else if !bit val 0 then .next (s.storeCam p val)
    else if (List.range 8).any (fun k => s.bufState p k == 3) then .next s.ingCfgErr
    else
      let s1 := s.storeCam p val
      if !s1.camCfgOk p then .next s1.ingCfgErr
      else
        let s2 := (((s1.set AGT_ING_CAMCFG.ENABLE p 1).setCamState p 1).set AGT_ING_CAMSTAT.FRZ_RUN p 0).set AGT_ING_CAMSTAT.FLAT_RUN p 0
        .next ((s2.set AGT_ING_CAMSTAT.BUFSTATE p 0).setCam p
          { lim := s1.camLimits p, claimed := (s.cam p).claimed, excludedAt := (s.cam p).excludedAt })

/-! ## Exclusion (R245) -/

/-- A port becomes EXCLUDED: cause bits 0 FREEZE, 1 FLAT, 2 SEQ, 3 MISSING, 4 VOTE. -/
def State.excludeCam (s : State) (p cause : Nat) : State :=
  let c := s.get AGT_ING_CAMSTAT.CAUSE p ||| cause
  let s1 := (((s.dropBufs p).set AGT_ING_CAMSTAT.CAUSE p c).setCamState p 4).setCam p { s.cam p with cur := none, waits := [] }
  s1.event 16 .ok 0x02 0 0 (p + c * 2 ^ 8) 0 4

/-- Is a port in WAIT, BASELINE or ACTIVE? -/
def State.camRuns (s : State) (p : Nat) : Bool := s.ingOn && decide (p < 12) && decide (1 ≤ s.camState p) && decide (s.camState p ≤ 3)

/-- Is it in BASELINE or ACTIVE? -/
def State.camJudged (s : State) (p : Nat) : Bool := s.camRuns p && s.camState p != 1

/-- EXCLUDE: a write to AGT_ING_EXCLUDE. -/
def execExclude (src : Src) (val : Nat) (s : State) : Outcome State Fault Refusal := s.onClock <|
  if !s.ingWrites src 0x10 then .next (s.ingTurned src 0x10)
  else .next ((maskList 12 val).foldl (fun st p =>
    let s1 := if st.camRuns p then st.excludeCam p 0x10 else st
    s1.setCam p { s1.cam p with excludedAt := some s.time.now }) s)

def State.imu (s : State) (i : Nat) : ImuPort := tget {} s.ing.imus i
def State.setImu (s : State) (i : Nat) (x : ImuPort) : State := { s with ing := { s.ing with imus := tput {} s.ing.imus i x } }
def State.imuState (s : State) (i : Nat) : Nat := s.get AGT_ING_IMUSTAT.STATE i
/-- Enter a state of an IMU (0 OFF, 1 ACTIVE, 2 SUSPECT, 3 EXCLUDED) and show IMU_USED. -/
def State.setImuState (s : State) (i v : Nat) : State :=
  (s.set AGT_ING_IMUSTAT.STATE i v).set AGT_ING_STATUS.IMU_USED 0 (setBit (s.get AGT_ING_STATUS.IMU_USED 0) i (v == 1 || v == 2))

/-- Ports that an EXCLUDE names which is still to come in this cycle (R246). -/
def State.excludesAhead (s : State) : Nat :=
  s.pending.foldl (fun m c => match c with
    | .exclude src v => if s.ingWrites src 0x10 then m ||| v else m
    | .registerWrite src a v => if a == regSpace 4 0xB00010 && s.ingWrites src 0x10 then m ||| v else m
    | _ => m) 0

/-- READMIT: a write to AGT_ING_READMIT (R245). A port that EXCLUDE names in the same cycle, and an IMU that a tick excludes in it, stay
excluded (R246, R252). -/
def execReadmit (src : Src) (val : Nat) (s : State) : Outcome State Fault Refusal := s.onClock <|
  if !s.ingWrites src 8 then .next (s.ingTurned src 8)
  else
    let s1 := (maskList 12 val).foldl (fun st p =>
      if st.camState p = 4 ∧ (st.cam p).excludedAt ≠ some s.time.now ∧ bit s.excludesAhead p = false then
        (((st.setCamState p 1).set AGT_ING_CAMSTAT.CAUSE p 0).set AGT_ING_CAMSTAT.FRZ_RUN p 0).set AGT_ING_CAMSTAT.FLAT_RUN p 0
      else st) s
    .next ((maskList 4 (bits val 12 4)).foldl (fun st i =>
      if st.imuState i = 3 ∧ (st.imu i).excludedAt ≠ some s.time.now then
        (((st.setImuState i 1).set AGT_ING_IMUSTAT.DEV i 0).set AGT_ING_IMUSTAT.MISSING i 0).setImu i
          { st.imu i with devRun := 0, missRun := 0 }
      else st) s1)

/-! ## Frames (R235, R237 to R245) -/

/-- Did FRAME_NO skip from the previous one? -/
def noSkipped (prev no : Nat) : Bool := let d := (no + 2 ^ 16 - prev) % 2 ^ 16; d != 0 && d != 1

/-- TIMING of a Frame Start (R238). -/
def frameTiming (c : CamPort) (lim : CamLimits) (now no : Nat) : Bool :=
  (match c.lastSof with
   | some t => let gap := now - t; let q := lim.period * 4000; decide (8 * gap < 7 * q) || decide (9 * q < 8 * gap)
   | none => false) ||
  (match c.lastNo with
   | some n => noSkipped n no
   | none => false)

/-- Take a buffer for a new frame, or shed (R240). -/
def State.takeBuf (s : State) (p : Nat) : State × Option Nat :=
  match s.bufsIn p 0 with
  | k :: _ => (s.setBuf p k 1, some k)
  | [] =>
    let s1 := s.count AGT_ING_CAMLOSS.SHED p 1
    match s.readyBuf p false with
    | some k => (s1.setBuf p k 1, some k)
    | none => (s1, none)

/-- Give up the frame being received: its buffer becomes FREE. -/
def State.dropCur (s : State) (p : Nat) : State :=
  match (s.cam p).cur with
  | none => s
  | some (_, b) =>
    let s1 := match b with
      | some k => if s.bufState p k = 1 then s.setBuf p k 0 else s
      | none => s
    s1.setCam p { s.cam p with cur := none }

/-- Does a packet on virtual channel `vc` belong to the frames that port `p` captures (R235)? Log entry 148 (DEDUCED). -/
def State.camTakes (s : State) (p vc : Nat) : Bool := s.ingOn && decide (p < 12) && s.get AGT_ING_CAMCFG.VC p == vc

/-- A Frame Start with FRAME_NO `no` (R237, R240, R245). A frame whose end never came is errored. Log entry 79 (DEDUCED). -/
def State.frameStart (s : State) (p vc no : Nat) : State :=
  if !s.camTakes p vc || s.camState p == 0 then s
  else
    let s0 := if (s.cam p).cur.isSome then (s.dropCur p).count AGT_ING_CAMLOSS.ERRORED p 1 else s
    let c := s0.cam p
    let now := s.time.now
    let lim := s.camLimits p
    let seq := (c.seq + 1) % 2 ^ 32
    let s1 := s0.setCam p { c with seq := seq, lastSof := some now, lastNo := some (no % 2 ^ 16), lim := lim }
    if s.camState p = 4 then s1
    else if s.camJudged p && lim.fnumChk && c.lastNo == some (no % 2 ^ 16) then s1.excludeCam p 4
    else
      let t := s1.takeBuf p
      t.1.setCam p { t.1.cam p with cur := some (⟨seq, now, 0, no % 2 ^ 16, frameTiming c lim now (no % 2 ^ 16)⟩, t.2) }

/-- FRAME_MISSING (R245). -/
def execFrameMissing (p : Nat) (s : State) : Outcome State Fault Refusal := s.onClock <|
  match (s.cam p).lastSof with
  | some t => .next (if s.camJudged p && decide (t + 2 * (s.cam p).lim.period * 4000 ≤ s.time.now) then s.excludeCam p 8 else s)
  | none => .next s

/-- Payload bytes of a line of `w` pixels. -/
def lineBytes (dt w : Nat) : Nat :=
  if dt = 0x2B then cdiv (10 * w) 8 else if dt = 0x2C then cdiv (12 * w) 8 else if dt = 0x24 then 3 * w
  else if dt = 0x1E then 2 * w else w

/-- Bits of a pixel code. -/
def codeBits (dt : Nat) : Nat := if dt = 0x2B then 10 else if dt = 0x2C then 12 else 8

/-- Codes of the bytes of one group of pixels: four of RAW10, two of RAW12 or of YUV422, one of the others. A line may end in a part of a
group; `v` stands for the V that such a part of a YUV422 line does not carry. -/
def groupPixels (dt v : Nat) (l : List Byte) : List (List Nat) :=
  let g (i : Nat) : Nat := (l.getD i 0).toNat
  let last := (l.getLastD 0).toNat
  if dt = 0x2B then (List.range (l.length - 1)).map (fun i => [4 * g i + bits last (2 * i) 2])
  else if dt = 0x2C then (List.range (l.length - 1)).map (fun i => [16 * g i + bits last (4 * i) 4])
  else if dt = 0x24 then [[g 2, g 1, g 0]]
  else if dt = 0x1E then
    if l.length < 4 then [[g 1, g 0, v]] else [[g 1, g 0, g 2], [g 3, g 0, g 2]]
  else l.map (fun b => [b.toNat])

/-- Bytes of a group. -/
def groupBytes (dt : Nat) : Nat := if dt = 0x2B then 5 else if dt = 0x2C then 3 else if dt = 0x24 then 3 else if dt = 0x1E then 4 else 1

/-- The pixels of a line as codes of the channels written, packed as CSI-2 packs the data type (PRESUMED, log entry 40). -/
def linePixels (dt v : Nat) (l : List Byte) : List (List Nat) :=
  (List.range (cdiv l.length (groupBytes dt))).flatMap (fun i => groupPixels dt v ((l.drop (groupBytes dt * i)).take (groupBytes dt)))

/-- The sixteen band CRCs of a frame (R242). -/
def bandCrcs (lines : List (List Byte)) : List Nat :=
  (List.range 16).map (fun j => crc32c ((lines.zipIdx.filter (fun l => 16 * l.2 / lines.length == j)).flatMap (·.1)))

/-- Elements of a list at every `k`-th place. -/
def everyNth {α : Type} (k : Nat) (l : List α) : List α := (l.zipIdx.filter (fun e => e.2 % k == 0)).map (·.1)

/-- First-channel codes of every `k`-th pixel on every `k`-th line. -/
def thinned (k : Nat) (px : List (List (List Nat))) : List Nat := (everyNth k px).flatMap (fun l => (everyNth k l).map (fun c => c.headD 0))

/-- The span of R242. -/
def codeSpan (l : List Nat) : Nat := maxOf l - minOf l

/-- The bytes of a pixel in the frame grid: sixteen channels, those not filled +0 (R235). -/
def pixelBytes (fmt b : Nat) (codes : List Nat) : List Byte :=
  (List.range 16).flatMap (fun i =>
    leBytes (fmtBytes fmt) (match codes[i]? with
      | some c => ((floatOf fmt).deliver 0 false (.fin false c (-(b : Int)))).1
      | none => 0))

/-- The frame's tile lines, written into the buffer that holds it (R239); a frame without a buffer writes nothing. -/
def State.writeFrame (s : State) (p : Nat) (buf : Option Nat) (bytes : List Byte) : Option State :=
  match buf with
  | some k => s.agateWrite (s.camArea p + s.camTile p * (1 + k * s.camTau p)) bytes
  | none => some s

/-- A buffer that fills becomes FREE. -/
def State.freeBuf (s : State) (p : Nat) (b : Option Nat) : State :=
  match b with
  | some k => if s.bufState p k = 1 then s.setBuf p k 0 else s
  | none => s

/-- What the detector makes of an error-free frame (R243 to R245): its signature is the reference from now on; the frame passes, and is
answered with the detector state before it, or its buffer becomes FREE. -/
def State.judgeFrame (s : State) (p : Nat) (w : CamWait) : State × Option CamWait :=
  let c := s.cam p
  let s1 := s.setCam p { c with ref := some w.sig }
  let frz0 := s.get AGT_ING_CAMSTAT.FRZ_RUN p
  let flat0 := s.get AGT_ING_CAMSTAT.FLAT_RUN p
  let same := decide (c.lim.bands ≤ ((w.sig.zip (c.ref.getD [])).filter (fun q => q.1 == q.2)).length)
  let flat := decide (w.span ≤ c.lim.flatSpan)
  let frz := if same then satAdd 4 frz0 1 else 0
  let flt := if flat then satAdd 4 flat0 1 else 0
  let cause := b2n (same && decide (c.lim.frzN ≤ frz)) + 2 * b2n (flat && decide (c.lim.frzN ≤ flt))
  let s2 := (s1.set AGT_ING_CAMSTAT.FRZ_RUN p frz).set AGT_ING_CAMSTAT.FLAT_RUN p flt
  if s.camState p = 1 then ((s1.freeBuf p w.buf).setCamState p 2, none)
  else if same || flat then
    let s3 := (s2.freeBuf p w.buf).count AGT_ING_CAMLOSS.DISCARD p 1
    (if cause = 0 then s3 else s3.excludeCam p cause, none)
  else
    (s2.setCamState p 3,
     if w.buf.isSome then some { w with judged := true, oldRef := c.ref, frz := frz0, flat := flat0, state := s.camState p } else none)

/-- Judge the frames that wait, oldest first, up to one that passes: what the others are compared with hangs on its tile writes (R239). -/
def State.judgeWaits (p : Nat) : Nat → State → State
  | 0, s => s
  | k + 1, s =>
    match (s.cam p).waits with
    | [] => s
    | w :: rest =>
      if w.judged then s else
        let q := (s.setCam p { s.cam p with waits := rest }).judgeFrame p w
        match q.2 with
        | some w' => q.1.setCam p { q.1.cam p with waits := w' :: (q.1.cam p).waits }
        | none => State.judgeWaits p k q.1

/-- A Frame End (R235, R239, R242 to R245): the long packets received, each with its data type, and whether a packet error or an overflow of
the line FIFO occurred. The lines are those of the data type that the port captures. They are written to T2 as they arrive; FRAME_READY
follows when the writes have completed. -/
def State.frameEnd (s : State) (p vc : Nat) (err : Bool) (packets : List (Nat × List Byte)) : State :=
  match (s.cam p).cur with
  | none => s
  | some (f, b) =>
    if !s.camTakes p vc || !s.camRuns p then s
    else
      let dt := s.get AGT_ING_CAMCFG.DT p
      let fmt := camFmt (s.get AGT_ING_CAMCFG.OUTFMT p)
      let lines := (packets.filter (fun l => l.1 == dt)).map (·.2)
      let errored := err || lines.length != s.camH p || lines.any (fun l => l.length != lineBytes dt (s.camW p))
      let px := lines.zipIdx.map (fun l => (linePixels dt ((Config.free (s.freeCount + l.2)).toNat % 256) l.1).take (s.camW p))
      let d := s.dropCur p
      let s0 : State := { d with freeCount := d.freeCount + lines.length }
      match errored, s0.writeFrame p b (px.flatMap (fun l => l.flatMap (pixelBytes fmt (codeBits dt)))) with
      | false, some s1 =>
        let thumb := (thinned 4 px).map (fun v => BitVec.ofNat 8 (v / 2 ^ (codeBits dt - 8)))
        let w : CamWait :=
          { buf := b, frame := { f with eof := s.time.now }, sig := bandCrcs lines, span := codeSpan (thinned 8 px), thumb := thumb }
        let s2 := match b with
          | some k => s1.setBuf p k 1
          | none => s1
        let l := (s2.cam p).waits ++ [w]
        State.judgeWaits p l.length (s2.setCam p { s2.cam p with waits := l })
      | _, _ => s0.count AGT_ING_CAMLOSS.ERRORED p 1

/-- The bytes of a frame record (R238). -/
def frameRecord (f : CamFrame) : List Byte :=
  leBytes 64 (f.sof % 2 ^ 64 + f.eof % 2 ^ 64 * 2 ^ 64 + f.seq * 2 ^ 128 + f.no * 2 ^ 160 + b2n f.timing * 2 ^ 176)

/-- A frame whose record reached its die: the buffer is READY, and the record and the thumbnail go to the forward consumer. -/
def State.frameStored (s : State) (p k : Nat) (w : CamWait) : State :=
  let s2 := (s.setBuf p k 2).setCam p { s.cam p with frames := tset (s.cam p).frames k w.frame }
  s2.forward 0 p (frameRecord w.frame ++ w.thumb)

/-- A frame that a tile write fails is errored: the detector state is as it was before it (R239). -/
def State.frameErrored (s : State) (p k : Nat) (w : CamWait) : State :=
  let s1 := (s.setBuf p k 0).count AGT_ING_CAMLOSS.ERRORED p 1
  let s2 := ((s1.set AGT_ING_CAMSTAT.FRZ_RUN p w.frz).set AGT_ING_CAMSTAT.FLAT_RUN p w.flat).setCamState p w.state
  s2.setCam p { s2.cam p with ref := w.oldRef }

/-- The record of a frame is written, or the frame is errored. -/
def State.frameReady (s : State) (p k : Nat) (w : CamWait) : State :=
  (s.agateWrite (s.camArea p + 64 * k) (frameRecord w.frame)).elim (s.frameErrored p k w) (fun s1 => s1.frameStored p k w)

/-- FRAME_READY (R239): the oldest frame, whose tile writes have completed; the frames behind it are judged now. -/
def execFrameReady (p : Nat) (s : State) : Outcome State Fault Refusal := s.onClock <|
  match (s.cam p).waits with
  | [] => .next s
  | w :: rest =>
    match w.buf with
    | none => .next s
    | some k =>
      if !s.camRuns p || s.bufState p k != 1 then .next s
      else .next (State.judgeWaits p rest.length ((s.setCam p { s.cam p with waits := rest }).frameReady p k w))

/-! ## Claims and snapshots (R240, R247, R248) -/

/-- A claim: the buffer and frame that it holds, and how many READY buffers it freed. -/
def State.claim (s : State) (p : Nat) : State × Option (Nat × CamFrame) × Nat :=
  match s.readyBuf p true with
  | none => (s, none, 0)
  | some k =>
    let others := (s.bufsIn p 2).filter (fun j => j != k)
    let s1 := (others.foldl (fun st j => st.setBuf p j 0) s).setBuf p k 3
    (s1.count AGT_ING_CAMLOSS.SHED p others.length, some (k, camFrame (s.cam p) k), others.length)

/-- A read of CLAIM_p: the claim, and the value read. -/
def State.claimRead (s : State) (p : Nat) : State × Nat :=
  let c := s.claim p
  (c.1, match c.2.1 with
    | some (k, f) => k + 2 ^ 3 + c.2.2 * 2 ^ 8 + f.seq * 2 ^ 32
    | none => 0)

/-- Free the HELD buffers of a mask (R240). -/
def State.releaseBufs (s : State) (p mask : Nat) : State :=
  (maskList 8 mask).foldl (fun st k => if st.bufState p k = 3 then st.setBuf p k 0 else st) s

/-- The entry of a port in a set record. Log entry 81 (DEDUCED). -/
def setEntry (state : Nat) (new : Option Nat) (f : CamFrame) : List Byte :=
  leBytes 32 (state + b2n new.isSome * 2 ^ 3 + new.getD 0 * 2 ^ 8 + f.seq * 2 ^ 32 + f.sof % 2 ^ 64 * 2 ^ 64 +
    f.eof % 2 ^ 64 * 2 ^ 128 + f.no * 2 ^ 192 + b2n f.timing * 2 ^ 208)

/-- Bits of fp32 words one after another. -/
def packWords (l : List Nat) : Nat := l.zipIdx.foldl (fun a e => a + e.1 % 2 ^ 32 * 2 ^ (32 * e.2)) 0

def snapRing : RingReg := ⟨AGT_ING_SNAPRING.BASE, AGT_ING_SNAPRING.NODE, AGT_ING_SNAPRING.DEPTH_M1, 0⟩
def imuRing (i : Nat) : RingReg := ⟨AGT_ING_IMURING.BASE, AGT_ING_IMURING.NODE, AGT_ING_IMURING.DEPTH_M1, i⟩
def egoRing : RingReg := ⟨AGT_ING_EGORING.BASE, AGT_ING_EGORING.NODE, AGT_ING_EGORING.DEPTH_M1, 0⟩

/-- Run a snapshot: the claims of one cycle and the set record. -/
def State.snapshot (s : State) (mask : Nat) : State :=
  let r := (maskList 12 mask).foldl (fun (q : State × Tab (Nat × CamFrame)) p =>
    if q.1.camState p = 3 then
      let c := q.1.claim p
      match c.2.1 with
      | some k => (c.1.setCam p { c.1.cam p with claimed := k.2 }, tset q.2 p k)
      | none => (c.1, q.2)
    else q) (s, [])
  let n := s.get AGT_ING_SNAPCNT.COUNT 0
  let head := s.time.now % 2 ^ 64 + n * 2 ^ 64 + mask % 2 ^ 12 * 2 ^ 96 + maskOf (r.2.map (·.1)) * 2 ^ 112 +
    packWords s.ing.ego.pose * 2 ^ 128
  let entries := (List.range 12).flatMap (fun p =>
    setEntry (r.1.camState p) ((tfind r.2 p).map (·.1)) (r.1.cam p).claimed)
  let w := r.1.ringPut snapRing n (leBytes 64 head ++ entries ++ List.replicate 64 0)
  if w.2 then w.1.set AGT_ING_SNAPCNT.COUNT 0 (n + 1) else w.1

/-- A write of MASK to AGT_ING_SNAP; `busy` says that the previous set record is still being written. -/
def State.snapWrite (s : State) (mask : Nat) (busy : Bool) : State :=
  if s.ing.snapHeld.isSome then s.ingCfgErr
  else if busy then ({ s with ing := { s.ing with snapHeld := some (bits mask 0 12) } }).set AGT_ING_STATUS.SNAP_HELD 0 1
  else s.snapshot (bits mask 0 12)

/-- The held SNAP runs. -/
def State.snapRun (s : State) : State :=
  match s.ing.snapHeld with
  | none => s
  | some m => (({ s with ing := { s.ing with snapHeld := none } } : State).set AGT_ING_STATUS.SNAP_HELD 0 0).snapshot m

/-! ## The order of one cycle (R241) -/

/-- The ports of a camera event and its place in the order of R241: 0 Frame End, 1 claim, 2 release, 3 Frame Start. -/
def State.camEvent (s : State) (c : Instr) : Option (List Nat × Nat) :=
  match c with
  | .csiFrameEnd p _ _ => some ([p], 0)
  | .claim _ p => some ([p], 1)
  | .snap _ mask _ => some (maskList 12 mask, 1)
  | .snapHeldRun => some (maskList 12 (s.ing.snapHeld.getD 0), 1)
  | .releaseBuffer _ p _ => some ([p], 2)
  | .registerWrite _ a _ =>
    if regSpace 4 0xB00128 ≤ a ∧ a < regSpace 4 0xB00428 ∧ (a - regSpace 4 0xB00128) % 64 = 0 then
      some ([(a - regSpace 4 0xB00128) / 64], 2) else none
  | .csiFrameStart p _ => some ([p], 3)
  | _ => none

/-- Does an event of this cycle that R241 puts before place `k` of these ports still stand out? The commands that wait are those of the
cycle: package time advances only once they are done (log entry 1). -/
def State.camBehind (s : State) (ps : List Nat) (k : Nat) : Bool :=
  (s.pending ++ s.ing.waiting).any (fun c =>
    match s.camEvent c with
    | some (qs, j) => decide (j < k) && ps.any qs.contains
    | none => false)

/-- The effect of a camera event. -/
def State.camAct (s : State) (c : Instr) : State :=
  match c with
  | .csiFrameEnd p err f => s.frameEnd p f.vc err f.packets
  | .claim _ p => let q := s.claimRead p; q.1.emit (.value q.2)
  | .snap _ mask busy => s.snapWrite mask busy
  | .snapHeldRun => s.snapRun
  | .releaseBuffer _ p val => s.releaseBufs p val
  | .csiFrameStart p f => s.frameStart p f.vc f.no
  | _ => s

/-- Run a camera event that was put off, if none stands before it any longer. -/
def State.camTry (s : State) (c : Instr) : State :=
  match s.camEvent c with
  | none => s
  | some (ps, k) =>
    if s.camBehind ps k then s
    else ({ s with ing := { s.ing with waiting := s.ing.waiting.erase c } } : State).camAct c

/-- Apply a camera event in its place of R241 (DESIGN CHOICE, log entry 149): it is put off while one of this cycle that comes before it is
still to come, and those that it held up follow it, each place in turn. -/
def State.camTurn (s : State) (c : Instr) : State :=
  match s.camEvent c with
  | none => s
  | some (ps, k) =>
    if s.camBehind ps k then { s with ing := { s.ing with waiting := s.ing.waiting ++ [c] } }
    else
      let s1 := s.camAct c
      [1, 2, 3].foldl (fun st j =>
        (s.ing.waiting.filter (fun d => (s.camEvent d).any (fun e => e.2 == j))).foldl State.camTry st) s1

/-- CSI_FRAME_START (R237, R240, R241, R245): a Frame Start short packet. -/
def execCsiFrameStart (p : Nat) (f : FrameStart) (s : State) : Outcome State Fault Refusal := s.onClock <| .next (s.camTurn (.csiFrameStart p f))

/-- CSI_FRAME_END (R239, R241 to R245). -/
def execCsiFrameEnd (p : Nat) (err : Bool) (f : FrameData) (s : State) : Outcome State Fault Refusal := s.onClock <|
  .next (s.camTurn (.csiFrameEnd p err f))

/-- CLAIM: a read of CLAIM_p (R240, R241). -/
def execClaim (src : Src) (p : Nat) (s : State) : Outcome State Fault Refusal := s.onClock <|
  if 11 < p then .next s
  else if !s.ingWrites src (0x120 + 64 * p) then .next (s.ingTurned src (0x120 + 64 * p))
  else .next (s.camTurn (.claim src p))

/-- RELEASE_BUFFER: a write to RELEASE_p (R240, R241). -/
def execReleaseBuffer (src : Src) (p val : Nat) (s : State) : Outcome State Fault Refusal := s.onClock <|
  if 11 < p then .next s
  else if !s.ingWrites src (0x128 + 64 * p) then .next (s.ingTurned src (0x128 + 64 * p))
  else .next (s.camTurn (.releaseBuffer src p val))

/-- SNAP (R241, R247). -/
def execSnap (src : Src) (mask : Nat) (busy : Bool) (s : State) : Outcome State Fault Refusal := s.onClock <|
  if !s.ingWrites src 0x18 then .next (s.ingTurned src 0x18)
  else .next (s.camTurn (.snap src mask busy))

/-- SNAP_HELD_RUN (R241, R247). -/
def execSnapHeldRun (s : State) : Outcome State Fault Refusal := s.onClock <| .next (s.camTurn .snapHeldRun)

/-! ## IMUs and encoders (R250, R251) -/

/-- IMUCFG_WRITE: an IMU becomes ACTIVE when it is enabled, OFF when it is disabled. -/
def execImucfgWrite (src : Src) (i val : Nat) (s : State) : Outcome State Fault Refusal := s.onClock <|
  if 3 < i then .next s
  else if !s.ingWrites src (0x400 + 32 * i) then .next (s.ingTurned src (0x400 + 32 * i))
  else
    let was := s.get AGT_ING_IMUCFG.ENABLE i == 1
    let s1 := (((((s.set AGT_ING_IMUCFG.ENABLE i (bits val 0 1)).set AGT_ING_IMUCFG.RATE i (bits val 1 2)).set AGT_ING_IMUCFG.BE i
      (bits val 3 1)).set AGT_ING_IMUCFG.OFS i (bits val 4 5)).set AGT_ING_IMUCFG.LEN_M1 i (bits val 9 5)).set
      AGT_ING_IMUCFG.RDCMD i (bits val 16 8)
    if !bit val 0 then .next ((s1.setImuState i 0).setImu i {})
    else if was then .next s1
    else .next ((s1.setImuState i 1).setImu i {})

/-- IMU_DRDY: the edge time is captured to 0.5 ns within 1 ns (DEDUCED, log entry 41), and a burst starts with the command byte; an edge
during a burst is counted in object 0x2C38 + i:0x03 (R390). -/
def execImuDrdy (i : Nat) (s : State) : Outcome State Fault Refusal := s.onClock <|
  if !s.ingOn || decide (3 < i) || s.imuState i == 0 then .next s
  else if (s.imu i).edge.isSome then .next (s.setObj 0 (0x2C38 + i) 3 (satAdd 32 (s.obj 0 (0x2C38 + i) 3) 1))
  else
    let d := s.draw
    .next ((d.2.setImu i { s.imu i with edge := some ((s.time.now / 2 + d.1 % 3 - 1) * 2) }).emit
      (.imuRead i (s.get AGT_ING_IMUCFG.RDCMD i) (s.get AGT_ING_IMUCFG.LEN_M1 i + 1)))

/-- The value of a scaled raw word. -/
def raw16 (be : Bool) (a b : Byte) : Int := if be then sx 16 (256 * a.toNat + b.toNat) else sx 16 (256 * b.toNat + a.toNat)

/-- One of several results that differ in the order of their operations alone: the part's, always the same one (DEDUCED, log entry 38). -/
def openOrder (which : Nat) (l : List Nat) : Nat := at' l (Config.openOrder which % l.length)

/-- A list with one place taken out, for every place. -/
def picks (l : List Nat) : List (Nat × List Nat) := (List.range l.length).map (fun i => (at' l i, l.eraseIdx i))

/-- Sums of fp32 values, each addition rounded: every order in which they are added one after another, and of four also by pairs. -/
def sumsFrom (acc : Nat) : Nat → List Nat → List Nat
  | 0, _ => [acc]
  | k + 1, l => (picks l).flatMap (fun e => sumsFrom (f32add acc e.1) k e.2)
def openSums (l : List Nat) : List Nat :=
  (picks l).flatMap (fun e => sumsFrom e.1 e.2.length e.2) ++
  (if l.length = 4 then [[0, 1, 2, 3], [0, 2, 1, 3], [0, 3, 1, 2]].map (fun q =>
    f32add (f32add (at' l (at' q 0)) (at' l (at' q 1))) (f32add (at' l (at' q 2)) (at' l (at' q 3)))) else [])

/-- A dot product of three terms in fp32, each operation rounded; the order of its sum is open (log entry 38). -/
def dot3 (which : Nat) (a b : List Nat) : Nat := openOrder which (openSums ((List.range 3).map (fun k => f32mul (at' a k) (at' b k))))

/-- Rotate a vector into the base frame with the rotation matrix of IMU `i`. -/
def State.imuTurn (s : State) (i : Nat) (v : List Nat) : List Nat :=
  (List.range 3).map (fun r => dot3 r ((List.range 3).map (fun c =>
    s.obj (if r = c then f32one else 0) (0x4810 + i) (6 + 3 * r + c))) v)

/-- ω and a of a burst. -/
def State.imuSample (s : State) (i : Nat) (burst : List Byte) : List Nat :=
  let be := s.get AGT_ING_IMUCFG.BE i == 1
  let o := s.get AGT_ING_IMUCFG.OFS i
  let miss (j : Nat) : Byte := (Config.free (s.freeCount + j)).setWidth 8
  let raw (k : Nat) : Nat := f32ofInt (raw16 be (lget (miss (2 * k)) burst (o + 2 * k)) (lget (miss (2 * k + 1)) burst (o + 2 * k + 1)))
  let w := (List.range 3).map (fun k => f32sub (f32mul (raw k) (s.obj 0 (0x4810 + i) 1)) (s.obj 0 (0x4810 + i) (3 + k)))
  let a := (List.range 3).map (fun k => f32mul (raw (3 + k)) (s.obj 0 (0x4810 + i) 2))
  s.imuTurn i w ++ s.imuTurn i a

/-- IMU_BURST_COMPLETE: the sample record is written. -/
def execImuBurstComplete (i : Nat) (burst : List Byte) (s : State) : Outcome State Fault Refusal := s.onClock <|
  match (s.imu i).edge with
  | none => .next s
  | some t =>
    let v := s.imuSample i (burst.take (s.get AGT_ING_IMUCFG.LEN_M1 i + 1))
    let s1 : State := { s with freeCount := s.freeCount + 12 }
    let n := s.get AGT_ING_IMUSTAT.SAMPLES i
    let rec32 := leBytes 32 (t % 2 ^ 64 + packWords v * 2 ^ 64)
    let w := (s1.setImu i { s.imu i with edge := none, stamp := some t, sample := v }).ringPut (imuRing i) n rec32
    .next (if w.2 then (w.1.set AGT_ING_IMUSTAT.SAMPLES i (n + 1)).forward 1 i rec32 else w.1)

/-- Place of the levels of A and B in the cycle of quadrature. -/
def quadPhase (l : Bool × Bool) : Nat := match l with
  | (false, false) => 0
  | (true, false) => 1
  | (true, true) => 2
  | (false, true) => 3

/-- Counts of a change of the filtered levels, in MODE 0 quadrature, in MODE 1 rising edges of STEP on A with DIR on B (PRESUMED, log entry
150). Where both lines of a quadrature input change at once, `up` says which came first. -/
def encoderCounts (mode : Nat) (was now : Bool × Bool) (up : Bool) : Int :=
  if mode = 1 then (if !was.1 && now.1 then (if now.2 then 1 else -1) else 0)
  else match (quadPhase now + 4 - quadPhase was) % 4 with
    | 0 => 0
    | 1 => 1
    | 2 => if up then 2 else -2
    | _ => -1

/-- ENCODER_EDGE (R251): lines A and B of input `e` take new levels. Levels shorter than FILTER × 10 ns are ignored. -/
def execEncoderEdge (e : Nat) (l : EncLines) (s : State) : Outcome State Fault Refusal := s.onClock <|
  let mode := s.get AGT_ING_ENCCFG.MODE e
  if !s.ingOn || decide (7 < e) || decide (l.held < 40 * s.get AGT_ING_ENCCFG.FILTER e) then .next s
  else
    let d := s.draw
    let n := encoderCounts mode (tget (false, false) s.ing.enc e) (l.a, l.b) (d.1 % 2 == 1)
    let s1 : State := { d.2 with ing := { s.ing with enc := tput (false, false) s.ing.enc e (l.a, l.b) } }
    .next (if s.get AGT_ING_ENCCFG.ENABLE e = 0 ∨ 2 ≤ mode then s1
      else s1.set AGT_ING_ENCCNT.COUNT e (ux 32 ((s.get AGT_ING_ENCCNT.COUNT e : Int) +
        (if s.get AGT_ING_ENCCFG.INVERT e = 1 then -n else n))))

end Sys2Proof.Machine
end

