-- ==== Sys2Proof/Machine/Ego.lean ====
section
/-! DEFINITION. Chapter 10: the IMU vote, the encoder check and the ego-motion integrator (R252 to R256). -/

namespace Sys2Proof.Machine

open Reg Host

def State.ego (s : State) : Ego := s.ing.ego
def State.setEgo (s : State) (e : Ego) : State := { s with ing := { s.ing with ego := e } }

/-- Tick period of a rate code, in units of 0.25 ns. -/
def ratePeriod (code : Nat) : Nat := 4000000 / 2 ^ code

/-- dt of R255. -/
def rateSeconds (code : Nat) : Nat := f32 ((Num.ofInt 1 0).div (.ofInt (1000 * 2 ^ code) 0))

/-- EGOCFG_WRITE: the integrator starts afresh at the first tick after ENABLE is set. -/
def execEgocfgWrite (src : Src) (val : Nat) (s : State) : Outcome State Fault Refusal := s.onClock <|
  if !s.ingWrites src 0x600 then .next (s.ingTurned src 0x600)
  else
    let was := s.get AGT_ING_EGOCFG.ENABLE 0 == 1
    let s1 := ((((s.set AGT_ING_EGOCFG.ENABLE 0 (bits val 0 1)).set AGT_ING_EGOCFG.RATE 0 (bits val 1 2)).set AGT_ING_EGOCFG.ODO_EN 0
      (bits val 3 1)).set AGT_ING_EGOCFG.ENC_L 0 (bits val 4 3)).set AGT_ING_EGOCFG.ENC_R 0 (bits val 7 3)
    .next (if !was && bit val 0 then s1.setEgo { s.ego with fresh := true } else s1)

/-- EGO_TICK: the counts of the enabled encoders are latched with the tick time (R251, R252). Log entry 82 (DEDUCED). -/
def execEgoTick (s : State) : Outcome State Fault Refusal := s.onClock <|
  if !s.ingOn || s.get AGT_ING_EGOCFG.ENABLE 0 == 0 then .next s
  else
    let p := ratePeriod (s.get AGT_ING_EGOCFG.RATE 0)
    let counts := (List.range 8).map (fun e =>
      if s.get AGT_ING_ENCCFG.ENABLE e = 1 then s.get AGT_ING_ENCCNT.COUNT e else at' s.ego.counts e)
    .next (s.setEgo { s.ego with
      tick := some (s.time.now / p * p), counts := counts, before := if s.ego.counts.isEmpty then counts else s.ego.counts })

/-- Stage q, p and v (R255). -/
def State.stageEgo (s : State) : State :=
  s.setEgo { s.ego with staged := some ((List.range 10).map (fun i => s.obj 0 0x4821 (i + 1))) }

/-- APPLY: an accepted write of 1 to object 0x4821:0x0B. -/
def execApply (s : State) : Outcome State Fault Refusal := s.onClock <| .next (if s.ingOn then s.stageEgo else s)

/-! ## The vote (R252) -/

/-- Is IMU `i` a member at a tick? -/
def State.member (s : State) (tick i : Nat) : Bool :=
  (s.imuState i == 1 || s.imuState i == 2) &&
  (match (s.imu i).stamp with
   | some t => decide (t ≤ tick) && decide (2 * tick < 2 * t + 3 * ratePeriod (s.get AGT_ING_IMUCFG.RATE i))
   | none => false)

/-- Insert into a list of fp32 patterns in rising order. -/
def f32insert (x : Nat) : List Nat → List Nat
  | [] => [x]
  | a :: t => if f32lt x a then x :: a :: t else a :: f32insert x t

def f32sort (l : List Nat) : List Nat := l.foldl (fun acc x => f32insert x acc) []

/-- The median of three or more values. -/
def median (l : List Nat) : Nat :=
  let v := f32sort l
  if l.length % 2 = 1 then at' v (l.length / 2)
  else f32mul (f32add (at' v (l.length / 2 - 1)) (at' v (l.length / 2))) f32half

/-- Threshold of axis `k`: gyro for the first three, accel for the others. -/
def State.axisThr (s : State) (k : Nat) : Nat := if k < 3 then s.obj 0x3D4CCCCD 0x4820 1 else s.obj f32half 0x4820 2

/-- The estimate of a tick from its members; none without one. -/
def State.estimate (s : State) (ms : List Nat) : Option (List Nat) :=
  let axis (k : Nat) : List Nat := ms.map (fun i => at' (s.imu i).sample k)
  match ms.length with
  | 0 => none
  | 1 => some ((List.range 6).map (fun k => (axis k).headD 0))
  | 2 => some ((List.range 6).map (fun k => f32mul (f32add (at' (axis k) 0) (at' (axis k) 1)) f32half))
  | _ => some ((List.range 6).map (fun k => median (axis k)))

/-- Does a sample deviate from an estimate by more than the thresholds? -/
def State.deviates (s : State) (est v : List Nat) : Bool :=
  (List.range 6).any (fun k => f32lt (s.axisThr k) (f32abs (f32sub (at' v k) (at' est k))))

/-- The encoder yaw rate (R254). -/
def State.yawRate (s : State) : Nat :=
  let e := s.ego
  let delta (f : Fld) : Nat :=
    let k := s.get f 0
    f32ofInt (sx 32 (at' e.counts k + 2 ^ 32 - at' e.before k))
  f32div (f32sub (f32mul (delta AGT_ING_EGOCFG.ENC_R) (s.obj 0 0x4820 8)) (f32mul (delta AGT_ING_EGOCFG.ENC_L) (s.obj 0 0x4820 7)))
    (f32mul (s.obj 0 0x4820 6) (rateSeconds (s.get AGT_ING_EGOCFG.RATE 0)))

/-- Add one to the deviation run of an IMU, or clear it. -/
def State.runDev (s : State) (i : Nat) (up : Bool) : State :=
  s.setImu i { s.imu i with devRun := if up then (s.imu i).devRun + 1 else 0 }

/-- With two members that differ: the one farther from the encoder yaw rate; a tie is open. -/
def State.farther (s : State) (a b : Nat) : Nat × State :=
  let far (i : Nat) : Nat := f32abs (f32sub (at' (s.imu i).sample 2) s.yawRate)
  if f32lt (far b) (far a) then (a, s) else if f32lt (far a) (far b) then (b, s)
  else let d := s.draw; (if d.1 % 2 = 0 then a else b, d.2)

/-- The deviation runs and SUSPECT states of a tick (R252, R253). -/
def State.judge (s : State) (ms : List Nat) (est : List Nat) : State :=
  match ms with
  | [] => s
  | [_] => s.set AGT_ING_STATUS.EGO_DEGRADED 0 1
  | [a, b] =>
    let s1 := s.set AGT_ING_STATUS.EGO_DEGRADED 0 1
    let differ := (List.range 6).any (fun k =>
      f32lt (f32mul 0x40000000 (s.axisThr k)) (f32abs (f32sub (at' (s.imu a).sample k) (at' (s.imu b).sample k))))
    if !differ then s1
    else if s.get AGT_ING_EGOCFG.ODO_EN 0 = 1 then let w := s1.farther a b; w.2.runDev w.1 true
    else (s1.setImuState a 2).setImuState b 2
  | _ =>
    let s1 := ms.foldl (fun st i => st.runDev i (s.deviates est (s.imu i).sample)) (s.set AGT_ING_STATUS.EGO_DEGRADED 0 0)
    (List.range 4).foldl (fun st i => if st.imuState i = 2 ∧ (st.imu i).devRun = 0 then st.setImuState i 1 else st) s1

/-- Exclusions at the end of a tick, in force from the next one. -/
def State.excludeImus (s : State) (ms : List Nat) : State :=
  let n := s.obj 8 0x4820 3
  (List.range 4).foldl (fun st i =>
    if st.imuState i = 1 ∨ st.imuState i = 2 then
      let x := { st.imu i with missRun := if ms.contains i then 0 else (st.imu i).missRun + 1 }
      let s1 := st.setImu i x
      let dev := decide (n ≤ x.devRun)
      let miss := decide (n ≤ x.missRun)
      let s2 := if dev then s1.set AGT_ING_IMUSTAT.DEV i 1 else s1
      let s3 := if miss then s2.set AGT_ING_IMUSTAT.MISSING i 1 else s2
      if dev || miss then (s3.setImuState i 3).setImu i { x with excludedAt := some s.time.now } else s3
    else st) s

/-- The encoder check of a tick (R254). -/
def State.odoCheck (s : State) (est : List Nat) : State :=
  if s.get AGT_ING_EGOCFG.ODO_EN 0 = 0 then s
  else
    let off := f32lt (s.obj 0x3DCCCCCD 0x4820 4) (f32abs (f32sub s.yawRate (at' est 2)))
    let run := if off then s.ego.yawRun + 1 else 0
    let s1 := s.setEgo { s.ego with yawRun := run }
    if !off then s1.set AGT_ING_STATUS.ODO_MISMATCH 0 0
    else if s.obj 16 0x4820 5 ≤ run then s1.set AGT_ING_STATUS.ODO_MISMATCH 0 1 else s1

/-! ## The integrator (R255) -/

/-- Product of quaternions (w, x, y, z), each operation rounded; the order of its sums is open (DEDUCED, log entry 38). -/
def qmul (a b : List Nat) : List Nat :=
  let t (i j : Nat) : Nat := f32mul (at' a i) (at' b j)
  let n (i j : Nat) : Nat := f32neg (t i j)
  [openOrder 10 (openSums [t 0 0, n 1 1, n 2 2, n 3 3]), openOrder 11 (openSums [t 0 1, t 1 0, t 2 3, n 3 2]),
   openOrder 12 (openSums [t 0 2, n 1 3, t 2 0, t 3 1]), openOrder 13 (openSums [t 0 3, t 1 2, n 2 1, t 3 0])]

/-- A vector turned by a unit quaternion as v + 2w (u × v) + 2 u × (u × v). -/
def turnCross (q v : List Nat) : List Nat :=
  let u (i : Nat) : Nat := at' q (i + 1)
  let cross (f g : Nat → Nat) (i : Nat) : Nat :=
    let j := (i + 1) % 3
    let k := (i + 2) % 3
    f32sub (f32mul (f j) (g k)) (f32mul (f k) (g j))
  let t (i : Nat) : Nat := f32mul 0x40000000 (cross u (at' v) i)
  (List.range 3).map (fun i => openOrder (20 + i) (openSums [at' v i, f32mul (at' q 0) (t i), cross u t i]))

/-- As q v q⁻¹, by two products of quaternions. -/
def turnProduct (q v : List Nat) : List Nat :=
  (qmul (qmul q (0 :: v)) [at' q 0, f32neg (at' q 1), f32neg (at' q 2), f32neg (at' q 3)]).drop 1

/-- As the product with the rotation matrix of q. -/
def turnMatrix (q v : List Nat) : List Nat :=
  let m (i j : Nat) : Nat := f32mul (at' q i) (at' q j)
  let two (x : Nat) : Nat := f32mul 0x40000000 x
  let rows : List (List Nat) :=
    [[f32sub f32one (two (f32add (m 2 2) (m 3 3))), two (f32sub (m 1 2) (m 0 3)), two (f32add (m 1 3) (m 0 2))],
     [two (f32add (m 1 2) (m 0 3)), f32sub f32one (two (f32add (m 1 1) (m 3 3))), two (f32sub (m 2 3) (m 0 1))],
     [two (f32sub (m 1 3) (m 0 2)), two (f32add (m 2 3) (m 0 1)), f32sub f32one (two (f32add (m 1 1) (m 2 2)))]]
  (List.range 3).map (fun i => dot3 (30 + i) (rows.getD i []) v)

/-- A vector turned by a unit quaternion: R255 names the operation and does not write it out, so its form is open (DEDUCED, log entry 38). -/
def qrotate (q v : List Nat) : List Nat :=
  match Config.openOrder 40 % 3 with
  | 0 => turnCross q v
  | 1 => turnProduct q v
  | _ => turnMatrix q v

/-- One step of the integrator. -/
def egoStep (dt : Nat) (st est : List Nat) : List Nat :=
  let h := f32mul f32half dt
  let q0 := qmul (st.take 4) (f32one :: (est.take 3).map (f32mul h))
  let sq (i : Nat) : Nat := f32mul (at' q0 i) (at' q0 i)
  let k := f32div f32one (f32sqrt (f32add (f32add (f32add (sq 0) (sq 1)) (sq 2)) (sq 3)))
  let q := q0.map (fun x => f32mul x k)
  let r := qrotate q (est.drop 3)
  let g := f32 ((Num.ofInt 980665 0).div (.ofInt 100000 0))
  let aw := [f32sub (at' r 0) 0, f32sub (at' r 1) 0, f32sub (at' r 2) g]
  let p := (List.range 3).map (fun i => f32add (at' st (4 + i)) (f32mul (at' st (7 + i)) dt))
  let v := (List.range 3).map (fun i => f32add (at' st (7 + i)) (f32mul (at' aw i) dt))
  q ++ p ++ v

def egoStart : List Nat := [f32one, 0, 0, 0, 0, 0, 0, 0, 0, 0]

/-- Carry the integrator over a tick: a fresh start, then a staged correction, then the step where there is an estimate. -/
def State.egoAdvance (s : State) (est : Option (List Nat)) : State :=
  let e := s.ego
  let st0 := if e.fresh || e.st.isEmpty then egoStart else e.st
  let st1 := e.staged.getD st0
  let st2 := match est with
    | some x => egoStep (rateSeconds (s.get AGT_ING_EGOCFG.RATE 0)) st1 x
    | none => st1
  s.setEgo { e with st := st2, fresh := false, staged := none }

/-- Write the pose record of a tick (R256). -/
def State.writePose (s : State) (tick members : Nat) (valid : Bool) : State :=
  let n := s.get AGT_ING_EGOCNT.COUNT 0
  let b := leBytes 64 (tick % 2 ^ 64 + packWords s.ego.st * 2 ^ 64 + n * 2 ^ 448 + members * 2 ^ 480 + b2n valid * 2 ^ 484 +
    s.get AGT_ING_STATUS.EGO_DEGRADED 0 * 2 ^ 485 + s.get AGT_ING_STATUS.ODO_MISMATCH 0 * 2 ^ 486)
  let s1 := ((s.set AGT_ING_STATUS.EGO_VALID 0 (b2n valid)).set AGT_ING_EGOCNT.COUNT 0 (n + 1)).setEgo
    { s.ego with pose := s.ego.st.take 7, tick := none }
  let w := s1.ringPut egoRing n b
  if w.2 then w.1.forward 2 0 b else w.1

/-- EGO_EVAL: the vote, the integrator and the pose record of the tick latched last. -/
def execEgoEval (s : State) : Outcome State Fault Refusal := s.onClock <|
  match s.ego.tick with
  | none => .next s
  | some tick =>
    if !s.ingOn then .next s
    else
      let ms := (List.range 4).filter (s.member tick)
      let est := s.estimate ms
      let s1 := s.judge ms (est.getD [])
      let s2 := match est with
        | some x => s1.odoCheck x
        | none => s1
      .next (((s2.excludeImus ms).egoAdvance est).writePose tick ms.length est.isSome)

end Sys2Proof.Machine
end

