-- ==== Sys2Proof/Machine/Fabric.lean ====
section
/-! DEFINITION. The commands of chapter 11: packets, links, fabric epochs, fencing, loss and re-admission (R262 to R285). -/

namespace Sys2Proof.Machine

open Reg Host

/-! ## Packets (R263, R279) -/

/-- A packet of a tile: what its header names, and its payload (R263). -/
structure Packet where
  src : Nat
  dst : Nat
  epoch : Nat
  part : Nat
  poison : Bool
  slot : Nat
  payload : List Byte
  deriving DecidableEq, Repr

/-- The 32-byte header, its CRC-32C over header and payload last. -/
def Packet.header (p : Packet) : List Byte :=
  let h := Config.packetHeader p.src p.dst p.epoch p.part p.poison p.slot
  h ++ leBytes 4 (crc32c (h ++ p.payload))

/-- The nonce of packet `n` sent under a key slot: source node, epoch and the counter of the slot (R279). -/
def State.nonce (s : State) (p : Packet) (n : Nat) : Nat × Nat × Nat :=
  (p.src, p.epoch, (tget 0 s.fabric.sent (8 * p.slot + p.src) + n) % 2 ^ 64)

/-! ## Fabric epochs (R271, R272) -/

/-- Is a tile of an epoch in flight? -/
def State.epochUsed (s : State) (e : Nat) : Bool := s.sched.transfers.any (fun t => t.2.flight.any (fun f => f.epoch == e))

/-- A route that is still usable: its ends have routes and R270 finds nothing wrong with its path. -/
def State.routeStands (s : State) (k : Nat) (p : List Nat) : Bool :=
  s.routedNodes.contains (k / 8) && s.routedNodes.contains (k % 8) && s.pathOk p

/-- A table that a fence is applied to: the fenced node taken out, R270 applied to the routes that no longer stand. -/
def State.repairTable (s : State) (t : RouteTable) : RouteTable :=
  { t with routes := t.routes.filterMap (fun e =>
      if s.routeStands e.1 e.2 then some e
      else if s.routedNodes.contains (e.1 / 8) && s.routedNodes.contains (e.1 % 8) then
        (s.findRoute (e.1 / 8) (e.1 % 8)).map (fun p => (e.1, p))
      else none) }

/-- Count the tiles of one epoch to another. -/
def State.relabelTiles (s : State) (e e' : Nat) : State :=
  { s with sched := { s.sched with transfers := s.sched.transfers.map (fun t =>
      (t.1, { t.2 with flight := t.2.flight.map (fun f => if f.epoch = e then { f with epoch := e' } else f) })) } }

/-- EPOCH_PENDING follows the admissions that wait (R272). -/
def State.showPending (s : State) : State := s.set AGT_FAB_STATUS.EPOCH_PENDING 0 (b2n (!s.fabric.pendingAdmit.isEmpty))

/-- Begin a fabric epoch (R271). The current table is retained while a tile of its epoch is in flight; where a table is retained
already, the current one is replaced and its tiles are counted to the new epoch (R272). Log entry 83 (DEDUCED). -/
def State.newEpoch (s : State) : State :=
  let e := (s.get AGT_FAB_STATUS.EPOCH 0 + 1) % 2 ^ 32
  let s1 := s.set AGT_FAB_STATUS.EPOCH 0 e
  let cur := s.fabric.table
  match s.fabric.retained with
  | some r =>
    let s2 := s1.relabelTiles cur.epoch e
    { s2 with fabric := { s2.fabric with table := s2.buildTable e, retained := some (s2.repairTable r) } }
  | none =>
    { s1 with fabric := { s1.fabric with
        table := s1.buildTable e
        retained := if s1.epochUsed cur.epoch then some (s1.repairTable cur) else none } }

/-! ## The end of tiles (R266, R277) -/

/-- Key of a destination sector in a list of delivered sectors: its address, host memory above 2^60. -/
def sectorKey (d : Run) (j : Nat) : Nat := d.addr + 256 * j + (if d.t3 then 2 ^ 60 else 0)

/-- The destinations of a tile in flight. -/
def Xfer.tileDests (x : Xfer) (f : TileFlight) : List Run :=
  if 1 < x.op then [] else
    let d := x.dstTile f.index
    if x.broadcast then f.targets.map (fun m => { d with addr := glob m (localOf d.addr) }) else [d]

/-- Cut a tile off: sectors in `got` were delivered; the others are poisoned at the destinations that `stay` keeps. -/
def State.cutTile (s : State) (part : Nat) (x : Xfer) (f : TileFlight) (stay : Run → Bool) (got : List Nat) : State :=
  let src := x.srcTile f.index
  let one (st : State) (d : Run) (j : Nat) : State :=
    if got.contains (sectorKey d j) then
      let a := src.addr + 256 * j
      if x.op = 1 then st.putSector part x.alloc d j ((List.range 64).flatMap (fun _ => leBytes 4 x.pattern)) false
      else if src.t3 then st.putSector part x.alloc d j (s.hostRead a 256) false
      else st.putSector part x.alloc d j (s.bytes a 256) (s.poisoned a)
    else st.missSector part x.alloc d j
  ((x.tileDests f).filter stay).foldl (fun st d => (List.range (d.len / 256)).foldl (fun st' j => one st' d j) st) s

/-- Tiles in flight, with the command and the transfer of each. -/
def State.flights (s : State) : List (Nat × TileFlight) :=
  s.sched.transfers.flatMap (fun t => t.2.flight.map (fun f => (t.1, f)))

/-- Does a link end at a node? -/
def linkAt (n l : Nat) : Bool := (linkEnds l).1 == n || (linkEnds l).2 == n

/-- Is a die only an end of a broadcast tile, a target that passes nothing on (R273, R274)? -/
def TileFlight.endOnly (f : TileFlight) (n : Nat) : Bool := f.targets.contains n && decide ((f.links.filter (linkAt n)).length ≤ 1)

/-- Does a tile of a command touch a die: from it, to it or through it, the executing die included? -/
def State.tileTouches (s : State) (n : Nat) (t : Nat × TileFlight) : Bool :=
  t.2.dies.contains n || t.2.targets.contains n || (match s.cmd t.1 with
    | some x => x.node == n
    | none => false)

/-- The packets of a tile in flight, sector by sector, which is their order between one pair of dies (R263). The fabric key of a partition
lies in the slot of its number. -/
def State.tilePackets (s : State) (x : Cmd) (f : TileFlight) : List Packet :=
  let xf := xfer x.body
  let src := xf.srcTile f.index
  (xf.tileDests f).flatMap (fun d => (List.range (d.len / 256)).map (fun j =>
    let a := src.addr + 256 * j
    { src := xf.tileFrom x.node f.index, dst := if d.t3 then 4 else nodeOf d.addr, epoch := f.epoch, part := s.ctxPart x.ctx
      poison := xf.op == 0 && !src.t3 && s.poisoned a, slot := s.ctxPart x.ctx
      payload := if xf.op = 1 then (List.range 64).flatMap (fun _ => leBytes 4 xf.pattern)
        else if src.t3 then s.hostRead a 256 else s.bytes a 256 }))

/-- The replay buffer of a link: the packets of the tiles in flight that use it, in the order in which they were sent (R263). -/
def State.replayBuffer (s : State) (l : Nat) : List Packet :=
  s.sched.transfers.flatMap (fun t => match s.cmd t.1 with
    | some x => (t.2.flight.filter (fun f => f.links.contains l)).flatMap (s.tilePackets x)
    | none => [])

/-- End one tile in flight with a status, its sectors in `got` delivered. -/
def State.endCut (s : State) (stay : Run → Bool) (st : Status) (got : List Nat) (t : Nat × TileFlight) : State :=
  match s.cmd t.1, tfind s.sched.transfers t.1 with
  | some x, some tr =>
    let xf := xfer x.body
    ((s.cutTile (s.ctxPart x.ctx) xf t.2 stay got).sentPackets x.node (s.ctxPart x.ctx) xf t.2).keepTransfer x (tr.book xf t.2.index st)
  | _, _ => s

/-- Step 4 of R277 for one tile: a target of a broadcast is dropped from it, which is a failure (R75), and every other tile ends with
NODE_LOST. -/
def State.loseTile (s : State) (n : Nat) (got : List Nat) (t : Nat × TileFlight) : State :=
  match s.cmd t.1, tfind s.sched.transfers t.1 with
  | some x, some tr =>
    if (xfer x.body).broadcast && x.node != n && t.2.endOnly n then
      let f := { t.2 with
        targets := t.2.targets.filter (fun m => m != n), lost := true
        dies := sdel t.2.dies n, links := t.2.links.filter (fun l => !linkAt n l) }
      let tr1 := { tr with
        flight := tr.flight.map (fun g => if g.index = f.index then f else g), closed := tr.closed || !(xfer x.body).cont }
      { s with sched := { s.sched with transfers := tset s.sched.transfers t.1 tr1 } }
    else s.endCut (fun d => d.t3 || nodeOf d.addr != n) .nodeLost got t
  | _, _ => s

/-! ## What a fence loses (R278) -/

/-- Drop the contents of T0, T1 and T2 of a die, its pages and pools, its streams and its map slots. -/
def State.dropDie (s : State) (n : Nat) : State :=
  let here (a : Nat) : Bool := nodeOf a == n && decide (localOf a < 0x2000000000)
  { s with
    mem := s.mem.filter (fun c => !here c.1)
    poison := s.poison.filter (fun a => !here a)
    t1 := s.t1.filter (fun e => e.1 / 16384 != n)
    plru := s.plru.filter (fun e => e.1 / 1024 != n)
    kv := { s.kv with
      owners := s.kv.owners.filter (fun e => e.1 / 2 ^ 22 != n)
      zeroing := s.kv.zeroing.filter (fun k => k / 16 != n)
      heldBias := s.kv.heldBias.filter (fun h => h.1 != n) }
    seq := { s.seq with
      streams := s.seq.streams.filter (fun e => e.1 / 8 != n)
      queue := tdel s.seq.queue n
      stepping := tdel s.seq.stepping n
      heldGate := s.seq.heldGate.filter (fun h => h.1 != n) }
    geo := s.geo.filter (fun e => e.1 / 4 != n)
    sched := { s.sched with
      held := s.sched.held.filter (fun k => k % 16 / 4 != n)
      saved := s.sched.saved.filter (fun k => k % 16 / 4 != n)
      switches := s.sched.switches.filter (fun e => e.1 / 4 != n) } }

/-! ## The fence (R277, R313) -/

/-- The links of a die (R262). -/
def dieLinks (n : Nat) : List Nat := [n, (n + 3) % 4, 4 + n]

/-- Does the T2 of a die hold the SQ or the CQ of a context (R293)? -/
def State.queueOn (s : State) (n c : Nat) : Bool :=
  s.ctxState c != 0 &&
  ((s.get AGT_SCHED_CTX_CFG.SQ_LOC c == 0 && nodeOf (s.get AGT_SCHED_CTX_SQ.BASE c) == n) ||
   (s.get AGT_SCHED_CTX_CFG.CQ_LOC c == 0 && nodeOf (s.get AGT_SCHED_CTX_CQ.BASE c) == n))

/-- Is a command in the current step of its context at a fence (R313)? -/
def State.inCurrentStep (s : State) (x : Cmd) : Bool :=
  let c := s.ctx x.ctx
  if s.ctxClass x.ctx = 0 then x.phase != .waiting
  else c.inStep && (match c.ends with
    | e :: _ => serialGe e x.seq
    | [] => true)

/-- Fix the current step of a context whose map names the fenced node, and hold its other commands (R313). A context that holds
commands already keeps the step that is fixed. -/
def State.fixStep (s : State) (n c : Nat) : State :=
  let k := s.ctx c
  let s1 := if k.held then s else
    ((s.ctxCmds c).filter s.inCurrentStep).foldl (fun st x => st.setCmd { x with inStep := true }) s
  s1.setCtx c { k with held := true, lostNodes := sinsert k.lostNodes n }

/-- Contexts that a fence affects: those with a command on the die, a tile touching it, or a ring in its T2 (R277, R293). -/
def State.affected (s : State) (n : Nat) : List Nat :=
  let cmds : List Nat := (s.cmdList.filter (fun x => x.phase != .waiting && x.node == n)).map (fun x => x.ctx)
  let tiles : List Nat := (s.flights.filter (s.tileTouches n)).map (fun t => t.1 / 2 ^ 32)
  (cmds ++ tiles ++ (List.range 512).filter (s.queueOn n)).foldl sinsert []

/-- Step 5 of R277: the latches and the event record. -/
def State.latchLoss (s : State) (n cause : Nat) (ctxs : List Nat) : State :=
  let sq := (s.get AGT_FAB_LOSS.SEQ 0 + 1) % 2 ^ 16
  let e := s.get AGT_FAB_STATUS.EPOCH 0
  let s1 := (((s.set AGT_FAB_LOSS.SEQ 0 sq).set AGT_FAB_LOSS.NODE 0 n).set AGT_FAB_LOSS.CAUSE 0 cause).set AGT_FAB_LOSS.EPOCH 0 e
  let s2 := (List.range 8).foldl (fun st i => st.set AGT_FAB_LOSSCTX.CTX i
    (maskOf ((ctxs.filter (fun c => c / 64 == i)).map (· % 64)))) s1
  s2.event 16 .nodeLost 0x05 n 0 (n + cause * 16 + sq * 2 ^ 16) 0 e

/-- Step 2 of R277 for one die: its links close and it is marked; the epoch follows once for all dies of the fence. -/
def State.closeDie (s : State) (n : Nat) (cause : Nat) : State :=
  let s1 := ((dieLinks n).foldl (fun st l => st.setLink l 0 false) s).setAdmitted n false true
  let s2 := if cause = 0 then s1 else s1.set AGT_FAB_STATUS.LOST 0 (setBit (s1.get AGT_FAB_STATUS.LOST 0) n true)
  { s2 with fabric := { s2.fabric with
      restored := sdel s2.fabric.restored n
      lastAnswer := tdel s2.fabric.lastAnswer n } }

/-- Steps 3 to 5 of R277 for one die, with what the other chapters add (R278, R293, R313); `ctxs` are the contexts it affects. -/
def State.loseDie (s : State) (n cause : Nat) (ctxs got : List Nat) : State :=
  let onDie := s.cmdList.filter (fun x => (x.phase == .running || x.phase == .stopped) && x.node == n)
  let s1 := (s.flights.filter (s.tileTouches n)).foldl (fun st t => st.loseTile n got t) s
  let s2 := onDie.foldl (fun st x =>
    let result := match tfind st.sched.transfers x.key with
      | some t => t.result (xfer x.body)
      | none => s.endedResult x
    st.completeOne x .nodeLost result n) s1
  let s3 := ((List.range 512).filter (s.queueOn n)).foldl (fun st c => st.abortCtx c) s2
  let s4 := (s3.dropDie n).latchLoss n cause ctxs
  ((List.range 512).filter (fun c => (s4.ctx c).lostNodes.contains n)).foldl (fun st c => st.checkBoundary c) s4

/-- Fence dies that leave in the same cycle, each with its cause, in rising order, under one epoch (R276, R277, R313). -/
def State.fenceSet (s : State) (ls : List (Nat × Nat)) (got : List Nat) : State :=
  if ls.isEmpty then s else
    let concerned (n : Nat) : List Nat := (List.range 512).filter (fun c =>
      s.ctxState c != 0 && (List.range 4).any (fun i => s.mapOk c i && s.phys c i == n))
    let hit := ls.map (fun l => (l, s.affected l.1))
    let s1 := ls.foldl (fun st l => (concerned l.1).foldl (fun st' c => st'.fixStep l.1 c) st) s
    let s2 := (ls.foldl (fun st l => st.closeDie l.1 l.2) s1).newEpoch
    let s3 := hit.foldl (fun st h => st.loseDie h.1.1 h.1.2 h.2 got) s2
    s3.settleWaits (s3.sched.order.length + 1)

/-- Admitted dies that are cut off from Agate, which declares the loss: every link DOWN, or no route left (R270, R276). Log entry 31
(DEDUCED). -/
def State.cutOff (s : State) : List Nat := (List.range 4).filter (fun n => s.admitted n && (s.findRoute 4 n).isNone)

/-- Fence the dies that R276 declares lost for want of a route, until every admitted die has its routes. -/
def State.cascade (got : List Nat) : Nat → State → State
  | 0, s => s
  | k + 1, s => if s.cutOff.isEmpty then s else State.cascade got k (s.fenceSet (s.cutOff.map (fun n => (n, 2))) got)

/-- A fence and what follows from it. -/
def State.fence (s : State) (n cause : Nat) (got : List Nat) : State := State.cascade got 4 (s.fenceSet [(n, cause)] got)

/-- Is the heartbeat check of a die suspended, a region of it or the hub being under test (R484)? -/
def State.beatSuspended (s : State) (n : Nat) : Bool :=
  match s.bu.shut with
  | some j => j.testing.any (fun d => d / 8 == n || d == 37)
  | none => false

/-- Has LOSS_TIMEOUT (object 0x3800:0x01, µs) passed since the last answer of an admitted die (R276)? -/
def State.beatOver (s : State) (n : Nat) : Bool :=
  match tfind s.fabric.lastAnswer n with
  | some t => s.admitted n && !s.beatSuspended n && decide (t + 4000 * s.obj 30 0x3800 1 ≤ s.time.now)
  | none => false

/-- A loss that a command of this cycle brings: the die, its cause and the sectors delivered (R276). -/
def State.lossOf (s : State) (c : Instr) : Option (Nat × Nat × List Nat) :=
  match c with
  | .lossTimeout n got => if s.beatOver n then some (n, 3, got) else none
  | .uncoreFatal n got => if s.admitted n then some (n, 1, got) else none
  | _ => none

/-- Dies are lost, and with them those that the commands still to come in this cycle lose: under one epoch, in rising order (R277). -/
def State.loseAll (s : State) (own : List (Nat × Nat)) (got : List Nat) : State :=
  let ahead := s.pending.filterMap s.lossOf
  let all := own ++ ahead.map (fun l => (l.1, l.2.1))
  let got' := got ++ ahead.flatMap (fun l => l.2.2)
  State.cascade got' 4 (s.fenceSet ((List.range 4).filterMap (fun n => all.find? (fun l => l.1 == n))) got')

/-! ## Packets and links (R263, R265, R266, R279) -/

/-- Count a CRC error (`rx`) or a replay at one end of a link, in the registers that show that end: AGT_FAB_LINK the upper end (Agate for
a hub link) of links 4 to 8 and the lower die's end of a ring link, ONX_FAB_PORT each die's own (R283). `upper`: the end is the second
node of R262. Log entry 84 (DEDUCED). -/
def State.countEnd (s : State) (l : Nat) (upper rx : Bool) : State :=
  let n := if upper then (linkEnds l).2 else (linkEnds l).1
  let s1 := if upper == decide (4 ≤ l ∧ l < 8) then
      (if rx then s.count AGT_FAB_LINK.CRCERR l 1 else s.count AGT_FAB_LINK.REPLAY l 1) else s
  if n < 4 then
    (if rx then s1.countO ONX_FAB_PORT.CRCERR n (portOf l n) 1 else s1.countO ONX_FAB_PORT.REPLAY n (portOf l n) 1)
  else s1

/-- A packet is received with a CRC error. `atUpper`: the receiver is the second node of R262. -/
def State.countCrc (s : State) (l : Nat) (atUpper : Bool) : State := s.countEnd l atUpper true

/-- A packet is received with a CRC error, and sent again. -/
def State.countPacket (s : State) (l : Nat) (atUpper : Bool) : State := (s.countCrc l atUpper).countEnd l (!atUpper) false

/-- The tiles that use a link. -/
def State.tilesOn (s : State) (l : Nat) : List (Nat × TileFlight) := s.flights.filter (fun t => t.2.links.contains l)

/-- The end of a fabric command: BUSY falls and STATUS holds its status. -/
def State.fabEnd (s : State) (st : Status) : State := (s.set AGT_FAB_CMDSTAT.BUSY 0 0).set AGT_FAB_CMDSTAT.STATUS 0 st.code

/-- A step of ADMIT fails, or its die is lost meanwhile: ADMIT ends with NODE_LOST, the die's links are DOWN, and it stays fenced (R265,
R280). -/
def State.abandonAdmit (s : State) (n : Nat) : State :=
  if s.fabric.admitting != some n then s else
    let s1 : State := { s with fabric := { s.fabric with admitting := none, pendingAdmit := sdel s.fabric.pendingAdmit n } }
    (((dieLinks n).foldl (fun st l => st.setLink l 0 false) s1).set AGT_FAB_STATUS.EPOCH_PENDING 0 0).fabEnd .nodeLost

/-- A link becomes DOWN (R266, R270, R276): dies left without a route are fenced, other tiles on the link end with
TILE_UNCORRECTABLE with their missing sectors poisoned, and a changed route begins an epoch. -/
def State.linkFails (s : State) (l : Nat) (got : List Nat) : State :=
  if 9 ≤ l || s.linkState l == 0 then s else
    let s0 := s.setLink l 0 false
    let s1 := match s0.fabric.admitting with
      | some n => if (dieLinks n).all (fun k => s0.linkState k == 0) && s.linkState l != 0 && (dieLinks n).contains l
          then s0.abandonAdmit n else s0
      | none => s0
    let s2 := State.cascade got 4 s1
    let s3 := (s2.tilesOn l).foldl (fun st t => st.endCut (fun _ => true) .tileUncorrectable got t) s2
    if s3.fabric.table.routes.all (fun e => s3.routeStands e.1 e.2) then s3 else s3.newEpoch

/-- PACKET_CRC_ERROR (R263, R265): packet `pkt`, as the sender numbers the packets of a link and direction, is found corrupted; it counts at
both ends. The link is DEGRADED after more than DEGRADE_RETRIES replays in 1 ms, and DOWN when one packet was replayed 8 times without
acknowledgement. -/
def execPacketCrcError (l : Nat) (atUpper : Bool) (pkt : Nat) (got : List Nat) (s : State) : Outcome State Fault Refusal := s.onClock <|
  if 9 ≤ l || s.linkState l == 0 then .next s else
    let k := 32 * pkt + 2 * l + b2n atUpper
    let n := tget 0 s.fabric.packetReplays k
    if 8 ≤ n then .next ((s.countCrc l atUpper).linkFails l got) else
      let near := ((tget [] s.fabric.replays l).filter (fun t => decide (s.time.now < t + 4000000))) ++ [s.time.now]
      let s1 := s.countPacket l atUpper
      let s2 : State := { s1 with fabric := { s1.fabric with
        replays := tset s1.fabric.replays l near, packetReplays := tset s1.fabric.packetReplays k (n + 1) } }
      .next (if s2.obj 16 0x3800 2 < near.length ∧ s2.linkState l = 1 then s2.setLink l 2 (s2.isSet AGT_FAB_LINK.HALF l) else s2)

/-- LINK_DOWN (R266). -/
def execLinkDown (l : Nat) (got : List Nat) (s : State) : Outcome State Fault Refusal := s.onClock <| .next (s.linkFails l got)

/-- PACKET_AUTH_FAIL (R279): the packet of sector `j` of a tile of a protected partition is discarded; the others of the tile arrive. -/
def execPacketAuthFail (c seq index j : Nat) (errs : ReadErrs) (s : State) : Outcome State Fault Refusal := s.onClock <|
  match s.mover c seq with
  | none => .next s
  | some x =>
    match tfind s.sched.transfers x.key with
    | none => .next s
    | some t =>
      match t.flight.find? (fun f => f.index == index) with
      | none => .next s
      | some f =>
        let xf := xfer x.body
        if f.links.isEmpty || !(s.prot (s.ctxPart c)).isProt || xf.size ≤ 256 * j then .next s else
          let src := xf.srcTile index
          let r := s.readSectors (s.ctxPart c) xf.alloc errs (if xf.op = 0 && !src.t3 then sectorsOf src.addr src.len else [])
          let got := (xf.tileDests f).flatMap (fun d => ((List.range (d.len / 256)).filter (fun i => i != j)).map (sectorKey d))
          let s1 := (r.st.cutTile (s.ctxPart c) xf f (fun _ => true) got).sentPackets x.node (s.ctxPart c) xf f
          let s2 : State := { s1 with sec := { s1.sec with authFails := s1.sec.authFails + 1 } }
          .next (s2.keepTransfer x (t.book xf index (pickStatus (.tileUncorrectable :: (if f.lost then [.nodeLost] else [])))))

/-! ## Heartbeats and loss (R276) -/

/-- HEARTBEAT_SEND: at each multiple of 10 µs of package time, to every admitted Onyx. -/
def execHeartbeatSend (s : State) : Outcome State Fault Refusal := s.onClock <|
  if s.stepDone 6 then .next { s with fabric := { s.fabric with lastBeat := some s.time.now } } else .next s

/-- HEARTBEAT_ANSWER: the loss timeout of the die starts again. -/
def execHeartbeatAnswer (n : Nat) (s : State) : Outcome State Fault Refusal := s.onClock <|
  if s.admitted n && s.fabric.lastBeat.isSome then
    .next { s with fabric := { s.fabric with lastAnswer := tset s.fabric.lastAnswer n s.time.now } }
  else .next s

/-- LOSS_TIMEOUT: the time of R276 has passed since the last answer of the die. -/
def execLossTimeout (n : Nat) (got : List Nat) (s : State) : Outcome State Fault Refusal := s.onClock <|
  .next (if s.beatOver n then s.loseAll [(n, 3)] got else s)

/-- UNCORE_FATAL: a fatal report from the die's uncore. -/
def execUncoreFatal (n : Nat) (got : List Nat) (s : State) : Outcome State Fault Refusal := s.onClock <|
  .next (if s.admitted n then s.loseAll [(n, 1)] got else s.abandonAdmit n)

/-! ## FENCE and ADMIT (R277, R280, R282) -/

/-- A write of AGT_FAB_CMD that is not acted on: it does not arrive, or a command runs (R282). -/
def State.fabTurnedAway (s : State) (src : Src) : Option State :=
  if !s.reaches src 4 13 0x8 then some (s.turnAway src 4 13 0x8)
  else if s.isSet AGT_FAB_CMDSTAT.BUSY 0 then some (s.set AGT_FAB_CMDSTAT.CMD_ERR 0 1)
  else none

/-- Does a tile in flight come from a die or go to it? One that only passes through does not count (R277 step 1). -/
def State.tileEndsAt (s : State) (n : Nat) (t : Nat × TileFlight) : Bool :=
  match s.cmd t.1 with
  | some c =>
    let x := xfer c.body
    x.tileFrom c.node t.2.index == n || t.2.targets.contains n || (!x.broadcast && x.tileTo c.node t.2.index == n)
  | none => false

/-- Does anything still run on a die, or a tile to or from it fly (R277 step 1)? -/
def State.dieBusy (s : State) (n : Nat) : Bool :=
  s.cmdList.any (fun x => x.phase == .running && x.node == n) || s.flights.any (s.tileEndsAt n)

/-- The fence that a FENCE command orders takes effect. -/
def State.plannedFence (s : State) (n : Nat) (got : List Nat) : State :=
  let s1 : State := { s with fabric := { s.fabric with drain := none } }
  (s1.fence n 0 got).fabEnd .ok

/-- FENCE: a write of AGT_FAB_CMD with OP 0x1, or with a reserved OP (R277, R282). -/
def execFence (src : Src) (val : Nat) (got : List Nat) (s : State) : Outcome State Fault Refusal := s.onClock <|
  match s.fabTurnedAway src with
  | some s1 => .next s1
  | none =>
    let n := bits val 4 4
    if bits val 0 4 = 2 then .next s
    else if bits val 0 4 ≠ 1 || !s.admitted n then .next (s.fabEnd .badDescriptor)
    else if bit val 8 && s.dieBusy n then
      let s1 := s.set AGT_FAB_CMDSTAT.BUSY 0 1
      .next { s1 with fabric := { s1.fabric with drain := some (n, s.time.now) } }
    else .next (s.plannedFence n got)

/-- FENCE_DRAIN_END: nothing is left on the die, or DRAIN_US (object 0x3800:0x03) has passed. A die that was lost meanwhile is fenced
already. -/
def execFenceDrainEnd (got : List Nat) (s : State) : Outcome State Fault Refusal := s.onClock <|
  match s.fabric.drain with
  | none => .next s
  | some (n, t) =>
    if !s.admitted n then
      let s1 : State := { s with fabric := { s.fabric with drain := none } }
      .next (s1.fabEnd .ok)
    else if s.dieBusy n && decide (s.time.now < t + 4000 * s.obj 1000 0x3800 3) then .next s
    else .next (s.plannedFence n got)

/-- ADMIT: a write of AGT_FAB_CMD with OP 0x2 (R280, R282). -/
def execAdmitDie (src : Src) (val : Nat) (s : State) : Outcome State Fault Refusal := s.onClock <|
  match s.fabTurnedAway src with
  | some s1 => .next s1
  | none =>
    let n := bits val 4 4
    if bits val 0 4 ≠ 2 then .next s
    else if bit val 8 || !s.fenced n || !s.fabric.restored.contains n then .next (s.fabEnd .badDescriptor)
    else
      let s1 := s.set AGT_FAB_CMDSTAT.BUSY 0 1
      .next { s1 with fabric := { s1.fabric with admitting := some n } }

/-- The links that ADMIT trains: the hub link, and ring links to admitted neighbours (R267, R280). -/
def State.trainable (s : State) (n : Nat) : List Nat :=
  [4 + n] ++ (if s.admitted ((n + 1) % 4) then [n] else []) ++ (if s.admitted ((n + 3) % 4) then [(n + 3) % 4] else [])

/-- The admission epoch of a die begins (R280). -/
def State.admitNow (s : State) (n : Nat) : State :=
  let s1 := s.setAdmitted n true false
  let s2 := s1.set AGT_FAB_STATUS.LOST 0 (setBit (s1.get AGT_FAB_STATUS.LOST 0) n false)
  let s3 := s2.newEpoch
  ({ s3 with fabric := { s3.fabric with
      admitting := none, lastAnswer := tset s3.fabric.lastAnswer n s3.time.now
      pendingAdmit := sdel s3.fabric.pendingAdmit n } } : State).fabEnd .ok

/-- A link is trained: UP, or DEGRADED at half width, with no replays behind it (R265, R267). -/
def State.retrain (s : State) (l : Nat) (half : Bool) : State :=
  let s1 := s.setLink l (if half then 2 else 1) half
  { s1 with fabric := { s1.fabric with
      replays := tdel s1.fabric.replays l, packetReplays := s1.fabric.packetReplays.filter (fun e => e.1 % 32 / 2 != l) } }

/-- ADMIT_COMPLETE (R280): `ok` says that training, the NODEINFO check and the CRC injection passed; `half` names the links trained at
half width. The injection counts one error on each trained link (R283, R408). -/
def execAdmitComplete (ok : Bool) (half : List Nat) (s : State) : Outcome State Fault Refusal := s.onClock <|
  match s.fabric.admitting with
  | none => .next s
  | some n =>
    if s.fabric.pendingAdmit.contains n then .next s
    else if !ok || !s.domOn (8 * n) then .next (s.abandonAdmit n)
    else
      let s1 := (s.trainable n).foldl (fun st l => (st.retrain l (half.contains l)).countPacket l true) s
      if s.fabric.retained.isSome then
        .next ({ s1 with fabric := { s1.fabric with pendingAdmit := [n] } } : State).showPending
      else .next (s1.admitNow n)

/-- EPOCH_RELEASE (R272): no tile of the retained epoch is left; a waiting admission follows. -/
def execEpochRelease (s : State) : Outcome State Fault Refusal := s.onClock <|
  match s.fabric.retained with
  | none => .next s
  | some r =>
    if s.epochUsed r.epoch then .next s else
      let s1 : State := { s with fabric := { s.fabric with retained := none } }
      .next ((s1.fabric.pendingAdmit.foldl (fun st n => st.admitNow n) s1).showPending)

end Sys2Proof.Machine
end

