-- ==== Sys2Proof/Machine/Reflex.lean ====
section
/-! DEFINITION. The commands of chapter 13: the channels of the reflex control engine (R317 to R335, R494). -/

namespace Sys2Proof.Machine

open Reg Host

def State.rfxChan (s : State) (c : Nat) : RfxChan := tget {} s.rfx.chans c
def State.setRfx (s : State) (c : Nat) (x : RfxChan) : State := { s with rfx := { s.rfx with chans := tput {} s.rfx.chans c x } }
def State.setRfxBuffer (s : State) (l : List (List Byte)) : State := { s with rfx := { s.rfx with buffer := l } }

/-- Does the timing logic run (domain 36, R317)? -/
def State.rfxOn (s : State) : Bool := s.domOn 36

def State.rfxState (s : State) (c : Nat) : Nat := s.get AGT_RFX_CH_STAT.STATE c

/-- A field of the active bank (R327). -/
def State.bankGet (s : State) (a b : Fld) (c : Nat) : Nat := if s.isSet AGT_RFX_CH_STAT.BANK c then s.get b c else s.get a c

/-- Set the state of a channel, on CH_STAT and STATUS (R332). -/
def State.setRfxState (s : State) (c v : Nat) : State :=
  ((s.set AGT_RFX_CH_STAT.STATE c v).set AGT_RFX_STATUS.ARMED 0 (setBit (s.get AGT_RFX_STATUS.ARMED 0) c (v == 1))).set
    AGT_RFX_STATUS.FAULT 0 (setBit (s.get AGT_RFX_STATUS.FAULT 0) c (v == 2))

def rfxRing : RingReg := ⟨AGT_RFX_TELRING.BASE, AGT_RFX_TELRING.NODE, AGT_RFX_TELRING.DEPTH_M1, 0⟩

/-- Does TEL select a record of this kind (R330)? -/
def telSelects (tel kind : Nat) : Bool := tel == 1 || (tel == 2 && kind != 1) || (tel == 3 && kind == 2)

/-- Make a telemetry record: it enters the buffer, or is discarded and counted where that is full (R330, R331). -/
def State.rfxRecord (s : State) (c kind thr : Nat) : State :=
  if !telSelects (s.get AGT_RFX_CH_CFG.TEL c) kind then s
  else if 512 ≤ s.rfx.buffer.length then s.count AGT_RFX_TELCNT.LOST 0 1
  else
    let v := s.time.now / 2 * 2 + c * 2 ^ 64 + kind * 2 ^ 69 + s.get AGT_RFX_CH_STAT.BANK c * 2 ^ 72 +
      s.get AGT_RFX_CH_STAT.CAUSE c * 2 ^ 73 + s.get AGT_RFX_CH_STAT.U c * 2 ^ 80 + thr * 2 ^ 96
    s.setRfxBuffer (s.rfx.buffer ++ [leBytes 16 v])

/-- Write the oldest record to the ring; one that cannot be written is discarded and counted (R249, R331). -/
def State.rfxWrite (s : State) (b : List Byte) : State :=
  let n := s.get AGT_RFX_TELCNT.RECORDS 0
  let w := s.ringPut rfxRing n b
  if w.2 then w.1.set AGT_RFX_TELCNT.RECORDS 0 (n + 1)
  else if thas s.rings rfxRing.key then w.1.count AGT_RFX_TELCNT.LOST 0 1 else w.1

/-- In one cycle some records leave the buffer, oldest first; how many is a free value (R331). Log entry 67 (DESIGN CHOICE). -/
def State.rfxDrain (s : State) : State :=
  if s.rfx.buffer.isEmpty then s else
    let d := s.draw
    let n := d.1 % (s.rfx.buffer.length + 1)
    (s.rfx.buffer.take n).foldl State.rfxWrite (d.2.setRfxBuffer (s.rfx.buffer.drop n))

/-- Both gate outputs low, no interval running (R322 to R324). -/
def State.rfxLow (s : State) (c : Nat) : State :=
  s.setRfx c { s.rfxChan c with gh := false, gl := false, arming := false, dead := none, blank := none, minRun := none }

/-- Was the channel ARMED when DISARM came, in this tick (R324)? -/
def State.disarmedNow (s : State) (c : Nat) : Bool := s.rfxState c == 0 && (s.rfxChan c).disarmedAt == some s.time.ticks

/-- Report a FAULT of a channel: its telemetry record, and the interrupt (R331). -/
def State.reportFault (s : State) (c : Nat) : State :=
  let s1 := s.rfxRecord c 2 0
  if s.isSet AGT_RFX_CFG.IRQ_EN 0 then s1.msix (s.get AGT_RFX_CFG.VECTOR 0) else s1

/-- Enter FAULT, or add cause bits in FAULT (R324, R331). Bits of CAUSE: 0 CROWBAR, 1 DESAT, 2 SAFE, 3 SP_LOST. A channel that DISARM
took out of ARMED in the same tick stays DISARMED, and the FAULT is still reported. Log entry 85 (DEDUCED). -/
def State.rfxFault (s : State) (c cause : Nat) : State :=
  let s1 := (s.rfxLow c).set AGT_RFX_CH_STAT.CAUSE c (setBit (s.get AGT_RFX_CH_STAT.CAUSE c) cause true)
  if s.rfxState c = 1 then (s1.setRfxState c 2).reportFault c
  else if s.rfxState c = 2 then s1
  else if s.disarmedNow c then
    let s2 := (s1.reportFault c).set AGT_RFX_CH_STAT.CAUSE c 0
    s2.setRfx c { s2.rfxChan c with disarmedAt := none }
  else s.rfxLow c

/-- The safe state latches: every ARMED channel with SAFE_LINK = 1 faults (R326). -/
def State.rfxSafe (s : State) : State :=
  ((List.range 32).filter (fun c => (s.rfxState c == 1 || s.disarmedNow c) && s.isSet AGT_RFX_CH_CFG.SAFE_LINK c)).foldl (fun st c => st.rfxFault c 2) s

/-- DISARM of one channel (R324, R325). -/
def State.rfxDisarm (s : State) (c : Nat) : State :=
  if s.rfxState c = 0 then s
  else
    let s1 := (((s.rfxLow c).setRfxState c 0).set AGT_RFX_CH_STAT.CAUSE c 0).rfxRecord c 4 0
    s1.setRfx c { s1.rfxChan c with disarmedAt := if s.rfxState c = 1 then some s.time.ticks else none }

/-- Every ARMED channel is disarmed (chapters 19 and 20). -/
def State.rfxDisarmAll (s : State) : State :=
  ((List.range 32).filter (fun c => s.rfxState c == 1)).foldl (fun st c => st.rfxDisarm c) s

/-! ## The comparators (R318, R323) -/

/-- Is a voltage in nV at or above, or at or below, threshold `q`, in quarters of a DAC step from −0.9 V on: code k stands for
−0.9 V + k × 1.8 V / 1,024? -/
def atLeast (v q : Int) : Bool := decide (1800000000 * q ≤ 4096 * (v + 900000000))
def atMost (v q : Int) : Bool := decide (4096 * (v + 900000000) ≤ 1800000000 * q)

/-- The thresholds of the upper, the lower and the crowbar comparator, with their trims of 0.25 DAC codes (R334). Log entry 153
(DEDUCED). -/
def State.upperAt (s : State) (c : Nat) : Int := 4 * (s.get BRL_CH_THRESH.HI c : Nat) + sx 6 (s.get BRL_CH_TRIM.HI_OFS c)
def State.lowerAt (s : State) (c : Nat) : Int := 4 * (s.get BRL_CH_THRESH.LO c : Nat) + sx 6 (s.get BRL_CH_TRIM.LO_OFS c)
def State.crowbarAt (s : State) (c : Nat) : Int := 4 * (s.get BRL_CH_CB.CODE c : Nat) + sx 6 (s.get BRL_CH_TRIM.CB_OFS c)

/-- The levels of the window comparator of a channel. -/
def State.cmpHigh (s : State) (c : Nat) : Bool := s.domOn 42 && (s.rfxChan c).vm.any (fun v => atLeast v (s.upperAt c))
def State.cmpLow (s : State) (c : Nat) : Bool := s.domOn 42 && (s.rfxChan c).vm.any (fun v => atMost v (s.lowerAt c))

/-- Is the crowbar comparator of a channel tripped at V_M = `v` (R323)? -/
def State.crowbarHit (s : State) (c : Nat) (v : Int) : Bool :=
  s.domOn 42 && (if s.isSet AGT_RFX_CH_CFG.CB_POL c then atMost v (s.crowbarAt c) else atLeast v (s.crowbarAt c))

/-- Is a level of RFX_DESAT the active one (R323)? -/
def State.desatLevel (s : State) (c : Nat) (level : Bool) : Bool := level == s.isSet AGT_RFX_CH_CFG.DESAT_POL c

/-! ## Trips (R323, R324) -/

/-- The crowbar comparator sees V_M = `v`. A trip acts through the kill path in every state, and where no clock runs. -/
def State.crowbar (s : State) (c : Nat) (v : Int) : State :=
  if 32 ≤ c || !s.rfxOn || !s.domOn 42 then s
  else if !s.clocked then (if s.crowbarHit c v then s.rfxLow c else s)
  else
    let s1 := s.set AGT_RFX_CH_STAT.CB_NOW c (b2n (s.crowbarHit c v))
    if s.crowbarHit c v then s1.rfxFault c 0 else s1

/-- RFX_DESAT has held a level for `held`, in units of 0.25 ns: it trips where the level is active for longer than the filter, while
DESAT_EN = 1. -/
def State.desat (s : State) (c : Nat) (level : Bool) (held : Nat) : State :=
  let trip := s.desatLevel c level && s.isSet AGT_RFX_CH_CFG.DESAT_EN c && decide (80 * s.get AGT_RFX_CH_CFG.DESAT_FILT c < held)
  if 32 ≤ c || !s.rfxOn then s
  else if !s.clocked then (if trip then s.rfxLow c else s)
  else
    let s1 := s.set AGT_RFX_CH_STAT.DESAT_NOW c (b2n (s.desatLevel c level))
    if trip then s1.rfxFault c 1 else s1

/-- Has a PWM set-point of an ARMED channel had no rising edge for 10 ms (R319)? -/
def State.spDue (s : State) (c : Nat) : Bool :=
  s.rfxOn && s.get AGT_RFX_CH_CFG.SRC c == 2 && s.rfxState c == 1 && decide ((s.rfxChan c).lastEdge + 40000000 ≤ s.time.now)

/-- Apply what R324 puts before a command to a channel in this tick: the trips that the queue still holds, and a lost set-point.
Log entry 154 (DESIGN CHOICE). -/
def State.rfxAhead (s : State) (c : Nat) : State :=
  let s1 := s.pending.foldl (fun st i => match i with
    | .crowbarTrip m => if m.chan = c then st.crowbar c (m.p - m.n) else st
    | .desatTrip d => if d.chan = c then st.desat c d.level d.held else st
    | _ => st) s
  if s1.spDue c then s1.rfxFault c 3 else s1

/-- CROWBAR_TRIP: the crowbar comparator sees V_M, the difference of the voltages measured (R318). -/
def execCrowbarTrip (m : RfxMeas) (s : State) : Outcome State Fault Refusal := .next (s.crowbar m.chan (m.p - m.n))

/-- DESAT_TRIP: RFX_DESAT has held a level for some time. -/
def execDesatTrip (d : DesatLevel) (s : State) : Outcome State Fault Refusal := .next (s.desat d.chan d.level d.held)

/-! ## Switching (R321) -/

/-- The tick at which an interval of `n` ticks that starts now ends; none for an empty one. -/
def State.after (s : State) (n : Nat) : Option Nat := if n = 0 then none else some (s.time.ticks + n)

/-- RFX_GH is asserted: an ON edge. MIN_ON counts in units of 10 ns, 4 ticks. -/
def State.rfxOnEdge (s : State) (c thr : Nat) : State :=
  let x := s.rfxChan c
  let s1 := s.setRfx c { x with
    gh := true, dead := none, lastOn := some s.time.ticks
    blank := s.after (s.bankGet AGT_RFX_CH_BANKA1.BLANK AGT_RFX_CH_BANKB1.BLANK c)
    minRun := s.after (4 * s.bankGet AGT_RFX_CH_BANKA1.MIN_ON AGT_RFX_CH_BANKB1.MIN_ON c) }
  let s2 := (s1.set AGT_RFX_CH_STAT.PHASE c 1).set AGT_RFX_CH_CNT.ON_EDGES c (s1.get AGT_RFX_CH_CNT.ON_EDGES c + 1)
  (match x.lastOn with
    | some t => s2.set AGT_RFX_CH_CNT.LAST_PERIOD c (s.time.ticks - t)
    | none => s2).rfxRecord c 0 thr

/-- Phase OFF begins its intervals: RFX_GL is asserted where COMPL = 1. -/
def State.rfxOffEdge (s : State) (c : Nat) : State :=
  s.setRfx c { s.rfxChan c with
    gl := s.isSet AGT_RFX_CH_CFG.COMPL c, dead := none
    blank := s.after (s.bankGet AGT_RFX_CH_BANKA1.BLANK AGT_RFX_CH_BANKB1.BLANK c)
    minRun := s.after (4 * s.bankGet AGT_RFX_CH_BANKA1.MIN_OFF AGT_RFX_CH_BANKB1.MIN_OFF c) }

/-- The switching decision, taken where switching is permitted and the comparator level holds (R321). -/
def State.rfxDecide (s : State) (c : Nat) : State :=
  let x := s.rfxChan c
  if s.rfxState c != 1 || x.arming || x.dead.isSome || x.blank.isSome || x.minRun.isSome then s else
    let dead := s.bankGet AGT_RFX_CH_BANKA1.DEADTIME AGT_RFX_CH_BANKB1.DEADTIME c
    if s.isSet AGT_RFX_CH_STAT.PHASE c then
      if !s.cmpHigh c then s else
        let thr := s.get AGT_RFX_CH_STAT.THR_HI c
        let s1 := ((s.setRfx c { x with gh := false }).set AGT_RFX_CH_STAT.PHASE c 0).rfxRecord c 1 thr
        if !s.isSet AGT_RFX_CH_CFG.COMPL c || dead == 0 then s1.rfxOffEdge c
        else s1.setRfx c { s1.rfxChan c with dead := some (false, thr, s.time.ticks + dead) }
    else
      if !s.cmpLow c then s else
        let thr := s.get AGT_RFX_CH_STAT.THR_LO c
        let s1 := s.setRfx c { x with gl := false, dead := some (true, thr, s.time.ticks + dead) }
        if dead = 0 then s1.rfxOnEdge c thr else s1

/-- Is a DISARM of the channel still to come in this tick? R324 puts it before a switching decision. -/
def State.disarmAhead (s : State) (c : Nat) : Bool :=
  s.pending.any (fun i => match i with
    | .disarm src mask => bit mask c && s.reaches src 4 4 0x8
    | _ => false)

/-- A switching decision in its place of R324. -/
def State.rfxSwitch (s : State) (c : Nat) : State :=
  let s1 := s.rfxAhead c
  (if s1.disarmAhead c then s1.rfxDisarm c else s1).rfxDecide c

/-- Does V_M = `v` change the output of the upper, or of the lower, of the two comparators of a channel? -/
def State.crosses (s : State) (c : Nat) (upper : Bool) (v : Int) : Bool :=
  if upper then atLeast v (s.upperAt c) != s.cmpHigh c else atMost v (s.lowerAt c) != s.cmpLow c

/-- COMPARATOR_CROSSING: V_M, the difference of the voltages `p` and `n` in nV (R318), crosses the threshold of the upper or of the lower
comparator. Voltages that cross none are no crossing, and nothing happens. -/
def execComparatorCrossing (c : Nat) (upper : Bool) (p n : Int) (s : State) : Outcome State Fault Refusal := s.onClock <|
  if !s.rfxOn || 32 ≤ c || !s.domOn 42 || !s.crosses c upper (p - n) then .next s
  else .next ((s.setRfx c { s.rfxChan c with vm := some (p - n) }).rfxSwitch c)

/-- Has an interval of the timing logic ended? -/
def State.over (s : State) (t : Option Nat) : Bool := t.any (fun e => decide (e ≤ s.time.ticks))

/-- SWITCH_BLOCK_END: BLANK, or MIN_ON or MIN_OFF, or both in one tick, have elapsed. -/
def execSwitchBlockEnd (c : Nat) (blank minRun : Bool) (s : State) : Outcome State Fault Refusal := s.onClock <|
  if !s.rfxOn || 32 ≤ c then .next s else
    let x := s.rfxChan c
    let b := blank && s.over x.blank
    let m := minRun && s.over x.minRun
    if !b && !m then .next s
    else .next ((s.setRfx c { x with blank := if b then none else x.blank, minRun := if m then none else x.minRun }).rfxSwitch c)

/-- DEADTIME_END: the complementary output is asserted, RFX_GH where `on`, else RFX_GL. What R324 puts before it comes first. -/
def execDeadtimeEnd (c : Nat) (on : Bool) (s : State) : Outcome State Fault Refusal := s.onClock <|
  if !s.rfxOn || 32 ≤ c then .next s else
    let s1 := s.rfxAhead c
    let s2 := if s1.disarmAhead c then s1.rfxDisarm c else s1
    match (s2.rfxChan c).dead with
    | none => .next s2
    | some (on', thr, e) =>
      if s2.time.ticks < e || on' != on then .next s2
      else .next ((if on then s2.rfxOnEdge c thr else s2.rfxOffEdge c).rfxDecide c)

/-! ## Set-points (R319) -/

/-- SP_EDGE: a rising edge of RFX_SP of channel `c`, with the high time and the period in ticks for PWM, and the level of RFX_SP of
channel c + 1 for STEPDIR. A period outside 1 µs to 10 ms leaves u unchanged. -/
def execSpEdge (c high period : Nat) (dir : Bool) (s : State) : Outcome State Fault Refusal := s.onClock <|
  if 32 ≤ c || !s.rfxOn then .next s else
    let x := s.rfxChan c
    let src := s.get AGT_RFX_CH_CFG.SRC c
    if src = 2 then
      let ok := decide (400 ≤ period) && decide (period ≤ 4000000)
      .next (s.setRfx c { x with lastEdge := s.time.now, u := if ok then min 65535 (65536 * high / period) else x.u })
    else if src = 3 ∧ s.rfxState c = 1 then
      let inc := s.get AGT_RFX_CH_CFG.STEP_INC c
      .next (s.setRfx c { x with u := if dir then min 65535 (x.u + inc) else x.u - inc })
    else .next s

/-- SP_LOST: no rising edge of a PWM set-point for 10 ms; what R324 puts before it in this tick comes first. -/
def execSpLost (c : Nat) (s : State) : Outcome State Fault Refusal := s.onClock <| .next (if 32 ≤ c then s else s.rfxAhead c)

/-! ## Sample boundaries (R320, R327, R334, R494) -/

/-- The code of the set-point ADC: ⌊V × 4,096 / 1.8 V⌋ clamped to 0 to 4,095, for V in nV (R319). -/
def adcCode (v : Int) : Nat := (clampI 0 4095 (v * 4096 / 1800000000)).toNat

/-- The set-point in force from a boundary on; an ANALOG sample of `v` nV taken now enters four boundaries later. -/
def State.rfxSetPoint (s : State) (c : Nat) (v : Int) : State :=
  let x := s.rfxChan c
  let src := s.get AGT_RFX_CH_CFG.SRC c
  if src = 1 ∧ s.domOn 43 then
    match x.samples ++ [adcCode v] with
    | a :: b1 :: b2 :: b3 :: b4 :: t => (s.setRfx c { x with samples := b1 :: b2 :: b3 :: b4 :: t }).set AGT_RFX_CH_STAT.U c (16 * a)
    | l => s.setRfx c { x with samples := l }
  else
    let s1 := s.setRfx c { x with samples := [] }
    if src = 1 then s1 else s1.set AGT_RFX_CH_STAT.U c (if src = 0 then s.get AGT_RFX_CH_SP.U c else x.u)

/-- C of R320 for the active bank. -/
def State.rfxCentre (s : State) (c : Nat) : Int :=
  clampI 0 1023 (((s.bankGet AGT_RFX_CH_BANKA0.SP_GAIN AGT_RFX_CH_BANKB0.SP_GAIN c * s.get AGT_RFX_CH_STAT.U c / 2 ^ 22 : Nat) : Int) +
    sx 11 (s.bankGet AGT_RFX_CH_BANKA0.SP_OFS AGT_RFX_CH_BANKB0.SP_OFS c))

/-- Store the fields of BRL_CH_TRIM (R334). -/
def State.setTrim (s : State) (c v : Nat) : State :=
  ((s.set BRL_CH_TRIM.HI_OFS c (bits v 0 6)).set BRL_CH_TRIM.LO_OFS c (bits v 6 6)).set BRL_CH_TRIM.CB_OFS c (bits v 12 6)

/-- Write the Beryl DACs of a channel, where domain 42 is on: at every sample boundary, and when CH_CFG changes (R334). -/
def State.rfxDacs (s : State) (c : Nat) : State :=
  if !s.domOn 42 then s else
    ((s.set BRL_CH_THRESH.HI c (s.get AGT_RFX_CH_STAT.THR_HI c)).set BRL_CH_THRESH.LO c
      (s.get AGT_RFX_CH_STAT.THR_LO c)).set BRL_CH_CB.CODE c (s.get AGT_RFX_CH_CFG.CB_THRESH c)

/-- Write the Beryl DACs and any held trim, where domain 42 is on (R334, R494). -/
def State.rfxToBeryl (s : State) (c : Nat) : State :=
  if !s.domOn 42 then s else
    let s1 := s.rfxDacs c
    match (s.rfxChan c).heldTrim with
    | none => s1
    | some v => (s1.setTrim c v).setRfx c { s.rfxChan c with heldTrim := none }

/-- One channel at a boundary: `sp` and `v` are the voltages of its set-point and of its measurement in nV, `desat` the level of
RFX_DESAT. -/
def State.rfxBoundary (s : State) (c : Nat) (sp v : Int) (desat : Bool) : State :=
  let swap := s.isSet AGT_RFX_CH_STAT.SWAP_PEND c
  let s1 := if swap then (s.set AGT_RFX_CH_STAT.BANK c (1 - s.get AGT_RFX_CH_STAT.BANK c)).set AGT_RFX_CH_STAT.SWAP_PEND c 0 else s
  let s2 := s1.rfxSetPoint c sp
  let band : Int := (s2.bankGet AGT_RFX_CH_BANKA0.BAND AGT_RFX_CH_BANKB0.BAND c : Nat)
  let s3 := ((s2.set AGT_RFX_CH_STAT.THR_HI c (min (s2.rfxCentre c + band) 1023).toNat).set AGT_RFX_CH_STAT.THR_LO c
    (max (s2.rfxCentre c - band) 0).toNat).rfxToBeryl c
  let s4 := s3.setRfx c { s3.rfxChan c with vm := if s.domOn 42 then some v else (s3.rfxChan c).vm }
  let s5 := if s4.crowbarHit c v then s4 else s4.set AGT_RFX_CH_STAT.CB_NOW c 0
  let s6 := s5.set AGT_RFX_CH_STAT.DESAT_NOW c (b2n (s5.desatLevel c desat))
  let s7 := if swap then s6.rfxRecord c 5 0 else s6
  if (s7.rfxChan c).arming then
    let s8 := s7.rfxOffEdge c
    let x := s8.rfxChan c
    s8.setRfx c { x with arming := false, blank := if x.gl then x.blank else none }
  else s7

/-- SAMPLE_BOUNDARY: `sps` and `vms` are the voltages of the set-point and the measurement balls of the channels in nV, `desat` the
levels of the RFX_DESAT balls. -/
def execSampleBoundary (sps vms : List Int) (desat : Nat) (s : State) : Outcome State Fault Refusal := s.onClock <|
  if !s.rfxOn then .next s
  else .next ((List.range 32).foldl (fun st c => st.rfxBoundary c (lget 0 sps c) (lget 0 vms c) (bit desat c)) s)

/-! ## Commands (R325, R327) -/

/-- Conditions 1 to 6 of R325 for one channel. -/
def State.armable (s : State) (rearm : Bool) (c : Nat) : Bool :=
  let src := s.get AGT_RFX_CH_CFG.SRC c
  s.rfxState c == (if rearm then 2 else 0) &&
  s.bankGet AGT_RFX_CH_BANKA0.BAND AGT_RFX_CH_BANKB0.BAND c != 0 &&
  (!s.isSet AGT_RFX_CH_CFG.COMPL c || decide (4 ≤ s.bankGet AGT_RFX_CH_BANKA1.DEADTIME AGT_RFX_CH_BANKB1.DEADTIME c)) &&
  s.domOn 42 && (src != 1 || s.domOn 43) &&
  (src != 3 || (c % 2 == 0 && s.get AGT_RFX_CH_CFG.SRC (c + 1) == 0)) &&
  !s.isSet AGT_RFX_CH_STAT.CB_NOW c && !s.isSet AGT_RFX_CH_STAT.DESAT_NOW c

/-- Condition 7 of R325. -/
def State.safeAllows (s : State) (c : Nat) : Bool := !s.isSet AGT_RFX_CH_CFG.SAFE_LINK c || !s.isSet AGT_CMP_STATUS.LATCHED 0

/-- A channel becomes ARMED in phase OFF (R324). -/
def State.rfxArm (s : State) (c : Nat) : State :=
  let x := s.rfxChan c
  let s1 := s.setRfx c { x with
    arming := true, lastEdge := s.time.now
    u := if s.get AGT_RFX_CH_CFG.SRC c = 3 then s.get AGT_RFX_CH_SP.U c else x.u }
  (((s1.setRfxState c 1).set AGT_RFX_CH_STAT.PHASE c 0).set AGT_RFX_CH_STAT.CAUSE c 0).rfxRecord c 3 0

/-- Status and FAILMASK of a command (R325). -/
def State.rfxAnswer (s : State) (st : Status) (mask : Nat) : State :=
  (s.set AGT_RFX_CMDSTAT.STATUS 0 st.code).set AGT_RFX_CMDSTAT.FAILMASK 0 mask

/-- ARM or REARM of the channels in a mask, all or nothing (R325). -/
def State.rfxArmAll (s : State) (rearm : Bool) (mask : Nat) : State :=
  let l := maskList 32 mask
  let bad := l.filter (fun c => !s.armable rearm c)
  let shut := l.filter (fun c => !s.safeAllows c)
  if bad.isEmpty && shut.isEmpty then (l.foldl (fun st c => st.rfxArm c) s).rfxAnswer .ok 0
  else s.rfxAnswer (if bad.isEmpty then .safeStateLatched else .badDescriptor) (maskOf (bad ++ shut))

/-- In a re-lock of the root PLL every ARMED channel is disarmed (R450). -/
def State.relockDisarm (s : State) : State := if s.isSet AGT_PWR_CLKSTAT.RELOCK 0 then s.rfxDisarmAll else s

/-- A command to the channels in a mask, from AGT_RFX_CMD or from objects 0x4400 + c (R325, R332), in its place of R324. -/
def State.rfxCommand (s0 : State) (op mask : Nat) : State :=
  let s := (maskList 32 mask).foldl State.rfxAhead s0
  match op with
  | 1 => (s.rfxArmAll false mask).relockDisarm
  | 2 => ((maskList 32 mask).foldl (fun st c => st.rfxDisarm c) s).rfxAnswer .ok 0
  | 3 => (s.rfxArmAll true mask).relockDisarm
  | _ => s.set AGT_RFX_CMDSTAT.CFG_ERR 0 1

/-- A write of AGT_RFX_CMD by `src`, as its slot decided it. -/
def State.rfxCmdWrite (s : State) (src : Src) (op mask : Nat) : State :=
  if s.reaches src 4 4 0x8 then s.rfxCommand op mask else s.turnAway src 4 4 0x8

/-- ARM (R325). -/
def execArm (src : Src) (mask : Nat) (s : State) : Outcome State Fault Refusal := s.onClock <| .next (s.rfxCmdWrite src 1 mask)
/-- DISARM (R325). -/
def execDisarm (src : Src) (mask : Nat) (s : State) : Outcome State Fault Refusal := s.onClock <| .next (s.rfxCmdWrite src 2 mask)
/-- REARM (R325). -/
def execRearm (src : Src) (mask : Nat) (s : State) : Outcome State Fault Refusal := s.onClock <| .next (s.rfxCmdWrite src 3 mask)

/-- SWAP: a write of AGT_RFX_SWAP (R327). -/
def execSwap (src : Src) (val : Nat) (s : State) : Outcome State Fault Refusal := s.onClock <|
  if s.reaches src 4 4 0x18 then
    .next ((maskList 32 val).foldl (fun st c => st.set AGT_RFX_CH_STAT.SWAP_PEND c 1) s)
  else .next (s.turnAway src 4 4 0x18)

/-- Is a write at byte `off` of AGT_RFX ignored with CFG_ERR (R327, R332, R333)? -/
def State.rfxWriteBad (s : State) (off val : Nat) : Bool :=
  let c := (off - 0x1000) / 64
  let bank (k : Nat) : Bool := s.get AGT_RFX_CH_STAT.BANK c == k || s.isSet AGT_RFX_CH_STAT.SWAP_PEND c
  if off = 0x20 then decide (3 < bits val 28 4)
  else if off < 0x1000 || decide (0x1800 ≤ off) then false
  else match off % 64 with
    | 0x00 => s.rfxState c != 0 || (bits val 0 2 == 3 && c % 2 == 1)
    | 0x08 => bank 0
    | 0x10 => bank 0
    | 0x18 => bank 1
    | 0x20 => bank 1
    | _ => false

/-! ## What a register takes from the configuration image (R335, R356) -/

/-- The base fields of the registers of the RING layout (R260). -/
def ringFields : List Fld :=
  [AGT_ING_SNAPRING.BASE, AGT_ING_IMURING.BASE, AGT_ING_EGORING.BASE, AGT_RFX_TELRING.BASE, AGT_NET_TXRING.BASE, AGT_NET_RXRING.BASE,
   AGT_CMP_RING.BASE]

/-- What a stored write brings with it: a ring becomes live (R249), a change of CH_CFG goes to Beryl (R334). -/
def State.wrote (s : State) (off : Nat) : State :=
  let s1 := if (fieldsAt 4 off).any (fun e => ringFields.contains e.1) && !thas s.rings (regSpace 4 off) then
    { s with rings := tset s.rings (regSpace 4 off) 0 } else s
  if 0x401000 ≤ off ∧ off < 0x401800 ∧ off % 64 = 0 then s1.rfxDacs ((off - 0x401000) / 64) else s1

/-- The value that the loaded image holds for a persistent object. -/
def State.imageValue (s : State) (idx sub : Nat) : Option Nat := (tfind s.dic.image (256 * idx + sub)).map leVal

/-- A register takes the value of its object in the loaded image, if it holds one; it has its reset value now. -/
def State.loadReg (s : State) (idx sub off : Nat) : State :=
  match s.imageValue idx sub with
  | some v => (s.putReg 4 off v).wrote off
  | none => s

/-- Domain 36 is reset: AGT_RFX takes its reset values, and its persistent objects those of the loaded image (R332, R335, R356). -/
def State.resetReflex (s : State) : State :=
  let s1 : State := { s.resetBlock 4 4 with rfx := {} }
  ((List.range 32).foldl (fun st c => (List.range 5).foldl (fun u k =>
    u.loadReg (0x4400 + c) (3 + k) (0x401000 + 64 * c + 8 * k)) st) s1).loadReg 0x4440 1 0x400020

/-- Domain 42 is reset: AGT_BRL takes its reset values, and the trims those of the loaded image (R335, R356). -/
def State.resetBeryl (s : State) : State :=
  (List.range 32).foldl (fun st c => match st.imageValue (0x4400 + c) 8 with
    | some v => st.setTrim c v
    | none => st) (s.resetBlock 4 5)

end Sys2Proof.Machine
end

