-- ==== Sys2Proof/Machine/Time.lean ====
section
/-! DEFINITION. The commands of chapter 14: package time, network time, the servo and transmit timestamps (R336 to R353). -/

namespace Sys2Proof.Machine

open Reg Host

def State.setTime (s : State) (t : TimeUnit) : State := { s with time := t }

/-- Does the reload of the management cores interrupt the CANopen FD services and the PTP stack (R491)? Log entry 116 (DEDUCED). -/
def State.agateReloads (s : State) : Bool := (tget {} s.bu.comps 2).state == 3

/-- PTP time (R340). -/
def State.ptp (s : State) : Nat := (s.time.now + s.get AGT_TIME_OFFSET.OFFSET 0) % 2 ^ 64

/-- Does a write to byte `off` of AGT_TIME arrive? -/
def State.timeWrites (s : State) (src : Src) (off : Nat) : Bool := s.reaches src 4 3 off

def State.timeErr (s : State) : State := s.set AGT_TIME_STATUS.CFG_ERR 0 1

/-- INCR of R336 in units of 2^-32 of 0.25 ns; what lies below its 32 fractional bits is cut off (DEDUCED, log entry 42). -/
def State.incr (s : State) : Nat := ((10 * 2 ^ 32 : Int) + 10 * sx 32 (s.get AGT_TIME_RATE.RATE 0) / 256).toNat

/-- The counters and the issue cap whose readings are coarsened to 1 ms (R438). -/
def coarseFields : List Fld :=
  [ONX_M_MACCNT.COUNT, ONX_M_ACTCNT.COUNT, ONX_M_CAPCNT.COUNT, ONX_Q_ESTEPCNT.COUNT, ONX_L_PROBCNT.COUNT, ONX_L_ACTCNT.COUNT,
   ONX_L_REGCNT.COUNT, ONX_G_QCNT.COUNT, ONX_G_MISSCNT.COUNT, ONX_M_ISSUECAP.LOOP_CAP, ONX_M_ISSUECAP.SW_CAP]

/-- Keep the values that the coarsened registers hold now (R438). -/
def State.latchCoarse (s : State) : State :=
  { s with pwr := { s.pwr with coarse := (List.range 4).foldl (fun t n =>
      coarseFields.foldl (fun u f => tput (f.reset 0) u (f.key n 0) (s.getO f n 0)) t) [] } }

/-- Advance package time by `k` times INCR, for `k` cycles of 400 MHz (R336, R338, R339). At a multiple of 1 ms the readings of R438 are kept. -/
def State.advance (s : State) (k : Nat) : State :=
  let v := s.time.frac + k * s.incr
  let now := (s.time.now + v / 2 ^ 32) % 2 ^ 64
  let s1 := if now / 4000000 = s.time.now / 4000000 then s else s.latchCoarse
  s1.setTime { s.time with now := now, frac := v % 2 ^ 32, ticks := s.time.ticks + k }

/-- Does the time unit count cycles of the 400 MHz time clock: the root PLL has locked and is not in a re-lock (R338, R339)? -/
def State.timeClock (s : State) : Bool := s.isSet AGT_PWR_CLKSTAT.ROOT_LOCK 0 && !s.isSet AGT_TIME_STATUS.RELOCK 0

/-! ## Parameters (R353) -/

def State.kp (s : State) : Nat := s.obj f32half 0x2800 1
def State.ki (s : State) : Nat := s.obj 0x3D800000 0x2800 2
def State.rateMaxPpb (s : State) : Nat := s.obj 100000 0x2800 3
/-- RATE_MAX as an fp32 ratio. -/
def State.rateMax (s : State) : Nat := f32 ((Num.ofInt s.rateMaxPpb 0).div (.ofInt 1000000000 0))
/-- RATE_MAX in units of 2^-40, rounded down (R337). -/
def State.rateBound (s : State) : Int := (s.rateMaxPpb * 2 ^ 40 / 1000000000 : Nat)
def State.jumpThr (s : State) : Nat := 4 * s.obj 1000 0x2800 4
def State.lockThr (s : State) : Nat := 4 * s.obj 100 0x2800 5
def State.lockN (s : State) : Nat := s.obj 8 0x2800 6
def State.holdTo (s : State) : Nat := 4000000 * s.obj 3000 0x2800 7

/-- A RATE within the bound of R337. -/
def State.boundedRate (s : State) (v : Int) : Nat := ux 32 (clampI (-s.rateBound) s.rateBound v)

/-- RATE keeps within RATE_MAX where that object has become lower (R337). -/
def State.boundRate (s : State) : State := s.set AGT_TIME_RATE.RATE 0 (s.boundedRate (sx 32 (s.get AGT_TIME_RATE.RATE 0)))

/-- The RATEs of the servo whose cycle has come take effect, and the others come one cycle closer (R344). -/
def State.rateCycle (s : State) : State :=
  let due := s.time.nextRate.filter (fun e => e.2 == 0)
  let left := (s.time.nextRate.filter (fun e => e.2 != 0)).map (fun e => (e.1, e.2 - 1))
  due.foldl (fun st e => st.set AGT_TIME_RATE.RATE 0 (st.boundedRate (sx 32 e.1))) (s.setTime { s.time with nextRate := left })

/-- One cycle of the clock that package time counts. -/
def State.timeCycle (s : State) : State := s.rateCycle.advance (if s.timeClock then 1 else 4)

/-! ## The servo (R343 to R346) -/

/-- The fp32 value of x clamped to ±RATE_MAX. -/
def State.clampRate (s : State) (x : Nat) : Nat :=
  let m := s.rateMax
  if f32lt x (f32neg m) then f32neg m else if f32lt m x then m else x

/-- round(r × 2^40) within the bound of R337, as RATE holds it. -/
def State.rateWord (s : State) (r : Nat) : Nat := s.boundedRate (((f32num r).shift 40).roundInt 0)

/-- Feed an accepted sample to R344. -/
def State.feed (s : State) (theta : Int) : State :=
  let dt := match s.time.lastAccepted with
    | none => f32 ((Num.ofInt 1 0).div (.ofInt 8 0))
    | some t => f32 ((Num.ofInt (s.time.now - t : Nat) 0).div (.ofInt 4000000000 0))
  let unit := f32 ((Num.ofInt 1 0).div (.ofInt 4000000000 0))
  let e := f32div (f32mul (f32ofInt theta) unit) dt
  let i := s.clampRate (f32add s.time.integral (f32mul s.ki e))
  let r := s.clampRate (f32neg (f32add (f32mul s.kp e) i))
  s.setTime { s.time with integral := i, lastAccepted := some s.time.now, nextRate := s.time.nextRate ++ [(s.rateWord r, 1)] }

/-- RATE as HOLDOVER holds it: round(−I × 2^40). -/
def State.holdRate (s : State) : State :=
  (s.set AGT_TIME_RATE.RATE 0 (s.rateWord (f32neg s.time.integral))).setTime { s.time with nextRate := [] }

def State.timeIrq (s : State) : State := if s.isSet AGT_TIME_CTRL.IRQ_EN 0 then s.msix (s.get AGT_TIME_CTRL.VECTOR 0) else s

/-- OFFSET −= θ, with STEPPED; the lock run starts again (R345). -/
def State.stepOffset (s : State) (theta : Int) : State :=
  let s1 := (s.set AGT_TIME_OFFSET.OFFSET 0 (ux 64 ((s.get AGT_TIME_OFFSET.OFFSET 0 : Int) - theta))).set AGT_TIME_STATUS.STEPPED 0 1
  (s1.setTime { s1.time with lockRun := 0 }).timeIrq

/-- A refused sample (R345). -/
def State.refuseSample (s : State) (theta : Int) : State :=
  let s1 := ((s.set AGT_TIME_STATUS.JUMP 0 1).count AGT_TIME_JUMPCNT.COUNT 0 1).set AGT_TIME_STATUS.HELD 0 1
  (s1.setTime { s1.time with heldJump := some theta }).timeIrq

/-- SAMPLE after a sample: THETA is a free value where θ does not fit in it. -/
def State.noteSample (s : State) (theta : Int) : State :=
  let fits := decide (-(2 ^ 31 : Int) ≤ theta) && decide (theta < 2 ^ 31)
  let d := if fits then (ux 32 theta, s) else s.draw
  let s1 := (d.2.set AGT_TIME_SAMPLE.THETA 0 d.1).set AGT_TIME_SAMPLE.COUNT 0 (s.get AGT_TIME_SAMPLE.COUNT 0 + 1)
  s1.setTime { s1.time with lastSample := s.time.now }

/-- A sample in mode 1 or 3 (R345). -/
def State.sample (s0 : State) (theta : Int) : State :=
  let s := s0.noteSample theta
  let big := decide ((s.jumpThr : Int) < (theta.natAbs : Nat))
  match s.get AGT_TIME_STATUS.STATE 0, big with
  | 1, true => s.stepOffset theta
  | 1, false =>
    let run := if theta.natAbs ≤ s.lockThr then s.time.lockRun + 1 else 0
    let s1 := s.feed theta
    let s2 := s1.setTime { s1.time with lockRun := run }
    if s.lockN ≤ run then s2.set AGT_TIME_STATUS.STATE 0 2 else s2
  | 2, false => s.feed theta
  | 3, false => (s.feed theta).set AGT_TIME_STATUS.STATE 0 2
  | 2, true => s.refuseSample theta
  | 3, true => s.refuseSample theta
  | _, _ => s

/-- A sample arrives: one in the cycle of a MODE write or an ACCEPT is discarded (R346). Log entry 131 (DEDUCED). -/
def State.takeSample (s : State) (theta : Int) : State := if s.time.rebased = some s.time.now then s else s.sample theta

/-- A Sync and Follow_Up: a sample in mode 1, from MASTER on port SRC_PORT in DOMAIN. While the PTP stack is interrupted there are no
samples (R491). -/
def State.ptpTake (s : State) (port clock domain t2 t1 : Nat) (corr : Int) : State :=
  if s.get AGT_TIME_CTRL.MODE 0 != 1 || port != s.get AGT_TIME_CTRL.SRC_PORT 0 || clock != s.get AGT_TIME_MASTER.CLOCK_ID 0 ||
    domain != s.get AGT_TIME_CTRL.DOMAIN 0 || s.agateReloads then s
  else s.takeSample (sx 64 (ux 64 ((t2 : Int) - ((t1 : Int) + corr) - (s.get AGT_TIME_PATHDLY.DELAY 0 : Int))))

/-- A write of AGT_TIME_SWSAMPLE is a sample in mode 3. -/
def State.swTake (s : State) (val : Nat) : State := if s.get AGT_TIME_CTRL.MODE 0 = 3 then s.takeSample (sx 32 val) else s

/-- A write of AGT_TIME_CTRL (R343 to R345). A DOMAIN above 127 sets CFG_ERR and is not stored (DEDUCED, log entry 43). Log entry 86
(DEDUCED). -/
def State.modeStore (s : State) (val : Nat) : State :=
  let mode := bits val 0 2
  let s1 := ((((s.set AGT_TIME_CTRL.MODE 0 mode).set AGT_TIME_CTRL.SRC_PORT 0 (bits val 2 1)).set AGT_TIME_CTRL.PPS_EN 0
    (bits val 3 1)).set AGT_TIME_CTRL.IRQ_EN 0 (bits val 4 1)).set AGT_TIME_CTRL.VECTOR 0 (bits val 16 11)
  let s2 := if 127 < bits val 27 8 then s1.timeErr else s1.set AGT_TIME_CTRL.DOMAIN 0 (bits val 27 8)
  let servo := mode % 2 == 1
  let s3 := s2.setTime { s2.time with
    integral := 0, lastAccepted := none, rebased := some s.time.now
    heldJump := if servo then none else s2.time.heldJump
    lockRun := if servo then 0 else s2.time.lockRun }
  let s4 := if servo then s3.set AGT_TIME_STATUS.HELD 0 0 else s3
  s4.set AGT_TIME_STATUS.STATE 0 (b2n servo)

/-- A write of AGT_TIME_MASTER (R345). -/
def State.masterStore (s : State) (val : Nat) : State :=
  let changed := val % 2 ^ 64 != s.get AGT_TIME_MASTER.CLOCK_ID 0
  let s1 := s.set AGT_TIME_MASTER.CLOCK_ID 0 val
  let s2 := s1.setTime { s1.time with lastAccepted := none }
  let st := s.get AGT_TIME_STATUS.STATE 0
  if changed && (st == 1 || st == 2) then
    ((s2.set AGT_TIME_STATUS.STATE 0 3).set AGT_TIME_STATUS.MASTER_CHG 0 1).holdRate.timeIrq
  else s2

/-- A write of ACCEPT (R345). -/
def State.acceptJump (s : State) : State :=
  match s.time.heldJump with
  | none => s.timeErr
  | some j =>
    let st := s.get AGT_TIME_STATUS.STATE 0
    if s.get AGT_TIME_CTRL.MODE 0 % 2 = 0 then s.timeErr
    else if st = 2 ∨ st = 3 then
      let s1 := (s.stepOffset j).set AGT_TIME_STATUS.STATE 0 1
      (s1.setTime { s1.time with heldJump := none, lastAccepted := none, rebased := some s.time.now }).set AGT_TIME_STATUS.HELD 0 0
    else s

/-! ### The order of R346 -/

/-- Place of a servo event in the order of R346. -/
def servoPlace (c : Instr) : Option Nat :=
  match c with
  | .modeWrite .. => some 1
  | .masterWrite .. => some 2
  | .accept .. => some 3
  | .swsample .. => some 4
  | .ptpSample .. => some 4
  | _ => none

/-- Places of the servo writes that the slot decides at its end, by the byte offsets of AGT_TIME_CTRL, MASTER and CMD; a register is an
object beyond 2^24 (R360). -/
def slotPlace (obj : Nat) : Option Nat :=
  if obj = 2 ^ 24 + 0x300000 then some 1 else if obj = 2 ^ 24 + 0x300040 then some 2 else if obj = 2 ^ 24 + 0x300038 then some 3 else none

/-- Is an event of this cycle that R346 puts before place `k` still to come? The commands that wait are those of the cycle (log entry
1). -/
def State.servoBehind (s : State) (k : Nat) : Bool :=
  (s.pending ++ s.time.waiting).any (fun c => match c with
    | .slotEnd .. => s.dic.slot.any (fun w => (slotPlace w.obj).any (fun j => decide (j < k)))
    | c => (servoPlace c).any (fun j => decide (j < k)))

/-- The effect of a servo event. -/
def State.servoAct (s : State) (c : Instr) : State :=
  match c with
  | .modeWrite _ val => s.modeStore val
  | .masterWrite _ val => s.masterStore val
  | .accept _ => s.acceptJump
  | .swsample _ val => s.swTake val
  | .ptpSample port clock domain t2 t1 corr => s.ptpTake port clock domain t2 t1 corr
  | _ => s

/-- Run a servo event that was put off, if none stands before it any longer. -/
def State.servoTry (s : State) (c : Instr) : State :=
  match servoPlace c with
  | none => s
  | some k => if s.servoBehind k then s else (s.setTime { s.time with waiting := s.time.waiting.erase c }).servoAct c

/-- Run the servo events that were put off and may follow now, in their order. -/
def State.servoNext (s : State) : State :=
  [2, 3, 4].foldl (fun st j => (s.time.waiting.filter (fun d => servoPlace d == some j)).foldl State.servoTry st) s

/-- Apply a servo event in its place of R346 (DESIGN CHOICE, log entry 155): it is put off while one of this cycle that comes before it is
still to come, and those that it held up follow it. -/
def State.servoTurn (s : State) (c : Instr) : State :=
  match servoPlace c with
  | none => s
  | some k =>
    if s.servoBehind k then s.setTime { s.time with waiting := s.time.waiting ++ [c] } else (s.servoAct c).servoNext

/-- PTP_SAMPLE (R343): Sync and Follow_Up of a clock on a port: receive time t2 in PTP time, t1, and the correction, in units of
0.25 ns. -/
def execPtpSample (port clock domain t2 t1 : Nat) (corr : Int) (s : State) : Outcome State Fault Refusal := s.onClock <|
  .next (s.servoTurn (.ptpSample port clock domain t2 t1 corr))

/-- SWSAMPLE (R343). -/
def execSwsample (src : Src) (val : Nat) (s : State) : Outcome State Fault Refusal := s.onClock <|
  .next (if s.timeWrites src 0x58 then s.servoTurn (.swsample src val) else s.turnAway src 4 3 0x58)

/-- MODE_WRITE: a write of AGT_TIME_CTRL, as its slot decided it (R343 to R346). -/
def execModeWrite (src : Src) (val : Nat) (s : State) : Outcome State Fault Refusal := s.onClock <|
  .next (if s.timeWrites src 0 then s.servoTurn (.modeWrite src val) else s.turnAway src 4 3 0)

/-- MASTER_WRITE (R345, R346). -/
def execMasterWrite (src : Src) (val : Nat) (s : State) : Outcome State Fault Refusal := s.onClock <|
  .next (if s.timeWrites src 0x40 then s.servoTurn (.masterWrite src val) else s.turnAway src 4 3 0x40)

/-- ACCEPT (R345, R346). -/
def execAccept (src : Src) (s : State) : Outcome State Fault Refusal := s.onClock <|
  .next (if s.timeWrites src 0x38 then s.servoTurn (.accept src) else s.turnAway src 4 3 0x38)

/-- HOLDOVER_TIMEOUT (R345): LOCKED, and no sample for HOLD_TO. -/
def execHoldoverTimeout (s : State) : Outcome State Fault Refusal := s.onClock <|
  if s.get AGT_TIME_STATUS.STATE 0 == 2 && decide (s.time.lastSample + s.holdTo ≤ s.time.now) then
    .next (s.holdRate.set AGT_TIME_STATUS.STATE 0 3)
  else .next s

/-! ## Reads and writes of time (R340, R343, R348 to R351) -/

/-- NOW_READ (R340). -/
def execNowRead (src : Src) (s : State) : Outcome State Fault Refusal := s.onClock <|
  .next (if s.reaches src 4 3 0x10 then (s.set AGT_TIME_PTPL.TIME 0 s.ptp).emit (.value s.time.now) else s.turnAway src 4 3 0x10)

/-- RATE_WRITE (R343, R352): clamped to RATE_MAX; ignored with CFG_ERR in modes 1 and 3. -/
def execRateWrite (src : Src) (val : Nat) (s : State) : Outcome State Fault Refusal := s.onClock <|
  if !s.timeWrites src 0x28 then .next (s.turnAway src 4 3 0x28)
  else if s.get AGT_TIME_CTRL.MODE 0 % 2 = 1 then .next s.timeErr
  else .next (s.set AGT_TIME_RATE.RATE 0 (s.boundedRate (sx 32 val)))

/-- ADJ_WRITE (R343): ignored with CFG_ERR in modes 1 and 3. -/
def execAdjWrite (src : Src) (val : Nat) (s : State) : Outcome State Fault Refusal := s.onClock <|
  if !s.timeWrites src 0x30 then .next (s.turnAway src 4 3 0x30)
  else if s.get AGT_TIME_CTRL.MODE 0 % 2 = 1 then .next s.timeErr
  else .next (s.set AGT_TIME_OFFSET.OFFSET 0 (s.get AGT_TIME_OFFSET.OFFSET 0 + val))

/-- Queue of a port, and its GAP mark. -/
def State.txQueue (s : State) (p : Nat) : List TxStamp := if p = 0 then s.time.queue0 else s.time.queue1
def State.txGap (s : State) (p : Nat) : Bool := if p = 0 then s.time.gap0 else s.time.gap1
def State.setTxQueue (s : State) (p : Nat) (q : List TxStamp) (gap : Bool) : State :=
  if p = 0 then s.setTime { s.time with queue0 := q, gap0 := gap } else s.setTime { s.time with queue1 := q, gap1 := gap }

/-- A frame with identifier `tsid` passes its timestamp point (R342, R350). -/
def State.stampTx (s : State) (p tsid : Nat) : State :=
  let q := s.txQueue p
  if 16 ≤ q.length then (s.count AGT_TIME_TXTSCNT.LOST p 1).setTxQueue p q true
  else
    let t := ux 64 ((s.ptp : Int) + sx 32 (s.obj 0 (0x2810 + p) 1))
    s.setTxQueue p (q ++ [⟨tsid % 2 ^ 16, t, s.txGap p⟩]) false

/-- TXTSQ_READ (R351). -/
def execTxtsqRead (src : Src) (p : Nat) (s : State) : Outcome State Fault Refusal := s.onClock <|
  if 2 ≤ p then .next s
  else if !s.reaches src 4 3 (0x100 + 32 * p) then .next (s.turnAway src 4 3 (0x100 + 32 * p))
  else
    match s.txQueue p with
    | [] => .next (s.emit (.value 0))
    | e :: t =>
      .next (((s.setTxQueue p t (s.txGap p)).set AGT_TIME_TXTSV.TIME p e.time).emit
        (.value (e.tsid + 2 ^ 16 + b2n e.gap * 2 ^ 17 + (t.length + 1) * 2 ^ 18)))

/-- Whole seconds of PTP time. -/
def State.second (s : State) : Nat := s.ptp / 4000000000

/-- Did PTP time pass a whole second in the latest cycle: it is past it by no more than package time advances in one? -/
def State.onSecond (s : State) : Bool :=
  decide (s.ptp % 4000000000 ≤ (if s.timeClock then 1 else 4) * s.incr / 2 ^ 32) && s.time.lastPps != some s.second

/-- PPS_PULSE (R348): TIME_PPS rises at each whole second of PTP time, once, when PPS_EN = 1. -/
def execPpsPulse (s : State) : Outcome State Fault Refusal := s.onClock <|
  .next (if s.isSet AGT_TIME_CTRL.PPS_EN 0 && s.onSecond then
    (s.setTime { s.time with lastPps := some s.second }).emit (.pps (4000000000 * s.second)) else s)

end Sys2Proof.Machine
end

