-- ==== Sys2Proof/Machine/Comparator.lean ====
section
/-! DEFINITION. The commands of chapter 17: heartbeat, guarded outputs, comparator, safe state and release (R391 to R415). -/

namespace Sys2Proof.Machine

open Reg Host

def State.setCmp (s : State) (c : Comparator) : State := { s with cmp := c }

/-- Are guarded outputs enabled; is the safe state latched? -/
def State.guardedOn (s : State) : Bool := s.isSet AGT_CMP_STATUS.ENABLED 0
def State.latched (s : State) : Bool := s.isSet AGT_CMP_STATUS.LATCHED 0

/-- Outputs with ENABLE = 1 (R394). -/
def State.outputs (s : State) : List Nat := (List.range 32).filter (fun g => s.isSet AGT_CMP_OUTCFG.ENABLE g)

/-- Tf in units of 0.25 ns (R395). -/
def State.framePeriod (s : State) : Nat := 4000000 / s.obj 2 0x3C01 1
def State.winLen (s : State) : Nat := s.obj 32 0x3C01 4

/-! ## EMCY messages (R405, R407, R380, R384) -/

/-- Is the EMCY of a CAN FD channel enabled: bit 31 of its COB-ID is 0 (object 0x1014, PRESUMED, log entry 44)? -/
def State.emcyOn (s : State) (c : Nat) : Bool := !bit (s.obj (0x80 + s.obj 1 0x2C20 1) 0x1014 (c + 1)) 31

/-- Send an EMCY on each channel that can, unless the service is interrupted (R491, DEDUCED, log entry 116), and list its error code in object 0x1003, newest first (PRESUMED, log entry 44). -/
def State.emcy (s : State) (code : Nat) : State :=
  let send (st : State) (c : Nat) : State :=
    if st.domOn 34 && st.emcyOn c && st.get AGT_NET_CANSTAT.STATE c != 2 && !st.agateReloads then st.emit (.emcy c code) else st
  let s1 := send (send s 0) 1
  let n := min 16 (s1.obj 0 0x1003 0 + 1)
  let s2 := ((List.range 15).map (fun k => 15 - k)).foldl (fun st k => st.setObj 0 0x1003 (k + 1) (st.obj 0 0x1003 k)) (s1.setObj 0 0x1003 0 0)
  (s2.setObj 0 0x1003 1 code).setObj 0 0x1003 0 n

/-- An EMCY whose error code the spec does not give: a free value. -/
def State.emcyOpen (s : State) : State := let d := s.draw; d.2.emcy (d.1 % 2 ^ 16)

/-! ## The latch (R403 to R405) -/

/-- A latching cause arises: bits of CAUSE 0 CONSEC, 1 WINDOW, 2 REQUEST, 3 HEARTBEAT. While the safe state is latched, one that arises
in the cycle of the latch is added to CAUSE (R403), one that arises later cancels an accepted release and is added (R407), and otherwise
it does nothing. Log entry 131 (DEDUCED). -/
def State.latchSafe (s : State) (causes : Nat) : State :=
  if !s.guardedOn || causes == 0 then s
  else if s.latched then
    if s.cmp.releasing || s.cmp.latchedAt == s.time.now then
      (s.setCmp { s.cmp with releasing := false }).set AGT_CMP_STATUS.CAUSE 0 (s.get AGT_CMP_STATUS.CAUSE 0 ||| causes)
    else s
  else
    let s1 := (((s.set AGT_CMP_STATUS.LATCHED 0 1).set AGT_CMP_STATUS.CAUSE 0 causes).count AGT_CMP_CNT.LATCHES 0 1).setCmp
      { s.cmp with latchedAt := s.time.now, safeA := false, safeB := false }
    let s2 := s1.setObj 0 0x1001 0 (setBit (s1.obj 0 0x1001 0) 0 true)
    (s2.emcy 0xFF51).rfxSafe

/-- LATCH_REQ (R403): a write of 1 to object 0x3C00:0x01, decided. -/
def execLatchReq (s : State) : Outcome State Fault Refusal := s.onClock <| .next (s.latchSafe 4)

/-! ## Heartbeat (R393) -/

/-- HB_WRITE: from Scarab alone, over link 8; any other source completes with DENIED (R265, R411). -/
def execHbWrite (src : Src) (val : Nat) (s : State) : Outcome State Fault Refusal := s.onClock <|
  .next (if src ≠ .scarab then s.denyWrite src
    else if !s.domOn 41 || s.pwr.scarabHalted then s
    else if s.reaches .scarab 4 6 0x20 then s.set AGT_CMP_HB.COUNT 0 val else s.turnAway .scarab 4 6 0x20)

/-- HEARTBEAT_CHECK: made while domains 40 and 41 are on; the third check in a row without a change latches. -/
def execHeartbeatCheck (s : State) : Outcome State Fault Refusal := s.onClock <|
  let v := s.get AGT_CMP_HB.COUNT 0
  if !(s.domPowered 40 && s.domPowered 41) then .next (s.setCmp { s.cmp with hbSeen := v, hbSame := 0 })
  else
    let same := v == s.cmp.hbSeen
    let n := if same then s.cmp.hbSame + 1 else 0
    let s1 := s.setCmp { s.cmp with
      hbSeen := v, hbSame := n, hbChecks := ((s.time.now, !same) :: s.cmp.hbChecks).take 4 }
    .next (if 3 ≤ n then s1.latchSafe 8 else s1)

/-! ## The SAFE lines (R404) -/

/-- SAFE_LINE_EDGE: at a multiple of 25 µs of package time (100,000 units): SAFE_A is high from each odd one. -/
def execSafeLineEdge (s : State) : Outcome State Fault Refusal := s.onClock <|
  if s.cmp.running && !s.latched then
    let a := s.time.now / 100000 % 2 == 1
    .next (s.setCmp { s.cmp with safeA := a, safeB := !a })
  else .next s

/-! ## Records (R396, R397) -/

def trackKey (ch g b : Nat) : Nat := 64 * ch + 2 * g + b

/-- First byte of buffer b of output g of a channel, in register space (R411). -/
def outBuffer (ch g b : Nat) : Nat := regSpace 4 (0x600000 + 0x10000 + 0x40000 * ch + 4096 * (2 * g + b))

/-- Elements of an output, and the bytes of the sectors that a record of it needs (R397). -/
def State.outCount (s : State) (g : Nat) : Nat := s.get AGT_CMP_OUTCFG.COUNT_M1 g + 1
def State.recordBytes (s : State) (g : Nat) : Nat := 256 * cdiv (64 + 4 * s.outCount g) 256

/-- The frame that buffer `b` collects for before the decision of the current frame, and after it (R396). -/
def State.frameFor (s : State) (g b : Nat) : Nat :=
  let f := s.get AGT_CMP_FRAME.INDEX 0
  if f % 2 = b then (if thas s.cmp.decided g then f + 2 else f) else f + 1

/-- Is every sector of a record written whole (R397)? -/
def State.whole (s : State) (g : Nat) (t : RecTrack) : Bool := covers t.cov (0, s.recordBytes g)

/-- The elements of a record in a buffer, if it passes the checks of R397 for frame `f`. -/
def State.goodRecord (s : State) (ch g b f : Nat) : Option (List Nat) :=
  let a := outBuffer ch g b
  let secs := (List.range (s.recordBytes g / 256)).map (fun i => a + 256 * i)
  if secs.any (fun x => s.poison.contains x) || s.word a 4 != f % 2 ^ 32 ||
    bits (s.word (a + 4) 2) 0 10 != s.get AGT_CMP_OUTCFG.COUNT_M1 g then none
  else some ((List.range (s.outCount g)).map (fun i => s.word (a + 64 + 4 * i) 4))

/-- Follow a write into a buffer for a record of frame `f`: the record arrives once it is whole and passes the checks. The flag says
that it has arrived by this write. -/
def State.follow (s : State) (ch g b f : Nat) (t : RecTrack) (iv : Nat × Nat) : RecTrack × Bool :=
  let t1 := { t with cov := t.cov ++ [iv] }
  if t.vals.isSome || !s.whole g t1 then (t1, false)
  else match s.goodRecord ch g b f with
    | some v => ({ t1 with vals := some v }, true)
    | none => (t1, false)

/-- Bytes written at byte `off` of AGT_CMP by an Onyx to a main buffer, or by Scarab to a check buffer; any
other write completes with DENIED (R396). Link 8 carries nothing while it is DOWN (R265). A main record that arrives is forwarded where FWD = 1 (R392). -/
def State.bufferWrite (s : State) (src : Src) (off : Nat) (b : List Byte) (poison : Bool) : State :=
  let ch := if off < 0x50000 then 0 else 1
  let o := off - 0x10000 - 0x40000 * ch
  let allowed := match src with
    | .onyx n => ch == 0 && s.admitted n
    | .scarab => ch == 1
    | _ => false
  if off < 0x10000 || decide (0x90000 ≤ off) || (src == .scarab && (!s.domOn 40 || s.pwr.scarabHalted || s.scarabCut src 4)) then s
  else if !allowed then s.denyWrite src
  else
    let g := o / 8192
    let buf := o / 4096 % 2
    let data := b.take (4096 - o % 4096)
    let s1 := s.writeRun 0 false (outBuffer ch g buf + o % 4096) data poison
    if !s.guardedOn || !s.isSet AGT_CMP_OUTCFG.ENABLE g then s1 else
      let k := trackKey ch g buf
      let f := s.frameFor g buf
      let r := s1.follow ch g buf f (tget {} s.cmp.tracks k) (o % 4096, data.length)
      let now := s.get AGT_CMP_FRAME.INDEX 0
      let late := (tfind s.cmp.late k).map (fun t => s1.follow ch g buf now t (o % 4096, data.length))
      let s2 := s1.setCmp { s1.cmp with
        tracks := tset s1.cmp.tracks k r.1
        late := match late with
          | some t => tset s1.cmp.late k t.1
          | none => s1.cmp.late }
      let fwd := ch == 0 && s.isSet AGT_CMP_OUTCFG.FWD g && (r.2 || (match late with
        | some t => t.2
        | none => false))
      if fwd then s2.forward 5 g (s2.bytes (outBuffer 0 g buf) (64 + 4 * s.outCount g)) else s2

/-! ## The comparator (R398 to R402) -/

/-- Does element `m` of the main record agree with `k` of the check record (R399)? -/
def State.agrees (s : State) (g m k : Nat) : Bool :=
  if s.isSet AGT_CMP_OUTCFG.KIND g then m != 0 || k == 0
  else f32isFinite m && f32isFinite k &&
    f32le (f32abs (f32sub m k)) (f32add (s.get AGT_CMP_BAND.ABS g) (f32mul (s.get AGT_CMP_BAND.REL g) (f32abs m)))

/-- Non-AGREE frames among the last WIN_LEN, the current one included (R401). -/
def State.window (s : State) : Nat := ((s.cmp.bad :: s.cmp.history).take s.winLen).countP (fun b => b)

/-- WIN_COUNT and CONSEC_RUN show the counters of R401. -/
def State.showRun (s : State) : State :=
  (s.set AGT_CMP_STATUS.WIN_COUNT 0 (min 255 s.window)).set AGT_CMP_STATUS.CONSEC_RUN 0 (min 15 s.cmp.run)

/-- The first decision of a frame whose status is not OK (R401). -/
def State.nonAgree (s : State) : State :=
  if s.latched || s.cmp.bad then s else
    let s1 := ((s.setCmp { s.cmp with bad := true, run := s.cmp.run + 1 }).count AGT_CMP_CNT.NONAGREE 0 1).showRun
    s1.latchSafe (b2n (decide (s1.obj 3 0x3C01 2 ≤ s1.cmp.run)) + 2 * b2n (decide (s1.obj 4 0x3C01 3 ≤ s1.window)))

/-- Count a record that is whole for the frame and did not arrive (R397). -/
def State.countBad (s : State) (g : Nat) (t : RecTrack) : State :=
  if t.vals.isNone && s.whole g t then s.count AGT_CMP_CNT.BADREC 0 1 else s

/-- The comparator decides output `g` in the current frame (R398, R400, R406). Log entry 87 (DEDUCED). -/
def State.decideOutput (s : State) (g : Nat) : State :=
  let b := s.get AGT_CMP_FRAME.INDEX 0 % 2
  let km := trackKey 0 g b
  let kc := trackKey 1 g b
  let m : RecTrack := tget {} s.cmp.tracks km
  let c : RecTrack := tget {} s.cmp.tracks kc
  let r : Nat × Status := match m.vals, c.vals with
    | none, _ => (2, .deadlineMissed)
    | some _, none => (3, .outputInvalidated)
    | some x, some y => if (x.zip y).all (fun p => s.agrees g p.1 p.2) then (0, .ok) else (1, .outputInvalidated)
  let s1 := (s.countBad g m).countBad g c
  let s2 := s1.setCmp { s1.cmp with
    tracks := tdel (tdel s1.cmp.tracks km) kc
    late := if r.1 = 2 then tset s1.cmp.late km m else if r.1 = 3 then tset s1.cmp.late kc c else s1.cmp.late }
  let s3 := if r.2 = .ok then s2 else s2.nonAgree
  let st := if s3.latched then Status.safeStateLatched else r.2
  let old : Carry := tget {} s3.cmp.carries g
  let good := match st, m.vals with
    | .ok, some v => some v
    | _, _ => none
  let vals := good.getD old.lastValid
  let carry := { old with lastValid := vals, next := some (s.time.now, good.isSome, vals) }
  s3.setCmp { s3.cmp with
    decided := tset s3.cmp.decided g ⟨r.1, st, r.2⟩
    carries := tset s3.cmp.carries g carry }

/-- Does a write into the buffers of output `g` for the current frame still come in this cycle? A record that arrives in the cycle of its
deadline is on time (R397). -/
def State.recordDue (s : State) (g : Nat) : Bool :=
  s.pending.any (fun c => match c with
    | .guardedBufferWrite _ off _ _ => decide (0x10000 ≤ off) && decide (off < 0x90000) &&
        (off - 0x10000) % 0x40000 / 4096 == 2 * g + s.get AGT_CMP_FRAME.INDEX 0 % 2
    | _ => false)

/-- The deadline of output `g` in the current frame: it is decided once, while guarded outputs run. -/
def State.deadline (s : State) (g : Nat) : State :=
  if s.cmp.running && s.outputs.contains g && !thas s.cmp.decided g then s.decideOutput g else s

/-- Decide the outputs whose deadline waited for writes of its cycle, where none still comes. -/
def State.decideDue (s : State) : State :=
  (s.cmp.waiting.filter (fun g => !s.recordDue g)).foldl
    (fun st g => (st.setCmp { st.cmp with waiting := st.cmp.waiting.filter (fun h => h != g) }).deadline g) s

/-- GUARDED_BUFFER_WRITE (R396, R397). -/
def execGuardedBufferWrite (src : Src) (off : Nat) (b : List Byte) (poison : Bool) (s : State) : Outcome State Fault Refusal := s.onClock <|
  .next (s.bufferWrite src off b poison).decideDue

/-- OUTPUT_DEADLINE: the deadline of output `g` in the current frame (DESIGN CHOICE, log entry 158). -/
def execOutputDeadline (g : Nat) (s : State) : Outcome State Fault Refusal := s.onClock <|
  .next (if s.recordDue g then s.setCmp { s.cmp with waiting := sinsert s.cmp.waiting g } else s.deadline g)

/-! ## Frames (R395, R401, R404, R407, R412) -/

def cmpRing : RingReg := ⟨AGT_CMP_RING.BASE, AGT_CMP_RING.NODE, AGT_CMP_RING.DEPTH_M1, 0⟩

/-- OUTCOME of a decision at the end of its frame: a record that has still not arrived is MISSING (R398, R412). -/
def State.finalOutcome (s : State) (g : Nat) (d : Decision) : Nat :=
  if d.outcome ≤ 1 then d.outcome else
    match tfind s.cmp.late (trackKey (d.outcome - 2) g (s.get AGT_CMP_FRAME.INDEX 0 % 2)) with
    | some t => if t.vals.isSome then 2 else 3
    | none => 3

/-- The frame record (R412). -/
def State.frameBytes (s : State) : List Byte :=
  let outcome := (s.cmp.decided.map (fun e => s.finalOutcome e.1 e.2 * 2 ^ (128 + 2 * e.1))).sum
  let status := (s.cmp.decided.map (fun e => e.2.status.code * 2 ^ (256 + 8 * e.1))).sum
  leBytes 64 (s.get AGT_CMP_FRAME.INDEX 0 + s.get AGT_CMP_STATUS.LATCHED 0 * 2 ^ 32 + s.get AGT_CMP_STATUS.CAUSE 0 * 2 ^ 33 +
    s.cmp.start * 2 ^ 64 + outcome + status)

/-- The end of a frame: its record, the run and the history (R401, R402, R412). -/
def State.endFrame (s0 : State) : State :=
  let s := (s0.outputs.filter (fun g => !thas s0.cmp.decided g)).foldl (fun st g => st.decideOutput g) s0
  let w := s.ringPut cmpRing s.cmp.records s.frameBytes
  let s1 := w.1
  let good := s1.cmp.decided.all (fun e => e.2.plain == .ok)
  let hold := s1.latched
  let c := { s1.cmp with
    records := s1.cmp.records + b2n (thas s1.rings cmpRing.key)
    goodFrames := if good then s1.cmp.goodFrames + 1 else 0
    run := if !hold && s1.cmp.decided.all (fun e => e.2.status == .ok) then 0 else s1.cmp.run
    history := if hold then s1.cmp.history else (s1.cmp.bad :: s1.cmp.history).take 255
    bad := if hold then s1.cmp.bad else false
    decided := [], late := [], waiting := [] }
  (s1.setCmp c).set AGT_CMP_FRAME.INDEX 0 (s1.get AGT_CMP_FRAME.INDEX 0 + 1)

/-- The pattern of the SAFE lines begins, at a frame start: SAFE_A stays low, SAFE_B rises (R404). -/
def State.linesStart (s : State) : State := s.setCmp { s.cmp with safeA := false, safeB := true }

/-- An accepted release takes effect (R402, R407). -/
def State.releaseNow (s : State) : State :=
  let s1 := ((s.set AGT_CMP_STATUS.LATCHED 0 0).set AGT_CMP_STATUS.CAUSE 0 0).setCmp
    { s.cmp with releasing := false, run := 0, history := [], bad := false }
  let s2 := s1.setObj 0 0x1001 0 (setBit (s1.obj 0 0x1001 0) 0 false)
  (s2.emcy 0xFF52).linesStart

/-- GUARDED_FRAME_START: the first frame start after guarded outputs are enabled, or the next one. -/
def execGuardedFrameStart (s : State) : Outcome State Fault Refusal := s.onClock <|
  if !s.guardedOn then .next s
  else if !s.cmp.running then
    .next ((s.setCmp { s.cmp with running := true, start := s.time.now }).linesStart)
  else
    let s1 := s.endFrame
    let s2 := if s1.cmp.releasing then s1.releaseNow else s1
    .next (s2.setCmp { s2.cmp with start := s.time.now }).showRun

/-- Guarded outputs are enabled (R395, R396, R402): every count starts again. -/
def State.enableGuarded (s : State) : State :=
  ((s.set AGT_CMP_STATUS.ENABLED 0 1).set AGT_CMP_FRAME.INDEX 0 0).setCmp { s.cmp with
    running := false, tracks := [], late := [], decided := [], waiting := [], bad := false, history := [], run := 0, goodFrames := 0, carries := [] }

/-- Does the mapping of the enabled outputs meet R395, given the conditions on the cycle and the deadlines? `w` is the size of an
element (R406). -/
def State.typeSize (s : State) (g : Nat) : Nat := if s.obj 2 (0x3C10 + g) 4 = 0 then 2 else 4
def State.outOfs (s : State) (g : Nat) : Nat := s.obj 0 (0x3C10 + g) 3
def State.outVbit (s : State) (g : Nat) : Nat := s.obj 0 (0x3C10 + g) 6
def State.outSpan (s : State) (g : Nat) : Nat × Nat := (s.outOfs g, s.outCount g * s.typeSize g)

def allDistinct : List Nat → Bool
  | [] => true
  | a :: t => !t.contains a && allDistinct t

def State.enableOk (s : State) : Bool :=
  let gs := s.outputs
  let size := s.get AGT_ECAT_IMG.OUT_SIZE 0
  let cycle := s.obj 8 0x2C01 2 * 125000
  s.framePeriod % cycle == 0 &&
  gs.all (fun g => decide (4000 * s.get AGT_CMP_OUTCFG.DEADLINE g + 20000 ≤ s.framePeriod)) &&
  gs.all (fun g => decide ((s.outSpan g).1 + (s.outSpan g).2 ≤ size) && decide (s.outVbit g / 8 < size)) &&
  !anyOverlap (gs.map s.outSpan) &&
  gs.all (fun g => gs.all (fun h => !overlaps (s.outVbit g / 8, 1) (s.outSpan h))) &&
  allDistinct (gs.map s.outVbit) &&
  s.get AGT_CMP_INJ.PASS 0 == 0x3F && s.isSet AGT_CMP_INJ.DONE 0

/-! ## RELEASE (R407) -/

/-- Is a RELEASE accepted now? -/
def State.releaseOk (s : State) : Bool :=
  s.latched && s.cmp.hbChecks.length == 4 &&
  s.cmp.hbChecks.all (fun e => e.2 && decide (s.time.now < e.1 + 400000)) && decide (s.winLen ≤ s.cmp.goodFrames)

/-- RELEASE: a write of 1 to object 0x3C00:0x03 by its owner, decided. -/
def State.releaseReq (s : State) : State × Status :=
  if s.releaseOk then (s.setCmp { s.cmp with releasing := true }, .ok) else (s, .badDescriptor)

def execRelease (src : Src) (s : State) : Outcome State Fault Refusal := s.onClock <|
  .next (if src = .sideband then s.releaseReq.1 else s.denyWrite src)

/-! ## The guarded part of the EtherCAT output image (R406) -/

/-- The bytes of an element: m × SCALE rounded once to fp32, then, for INT16 and INT32, to the nearest integer and saturated. What a
NaN becomes as an integer is a free value. -/
def State.elementBytes (s : State) (g m : Nat) : List Byte :=
  let v := f32mul m (s.obj f32one (0x3C10 + g) 5)
  let ty := s.obj 2 (0x3C10 + g) 4
  let int (w : Nat) : List Byte :=
    match f32num v with
    | .nan => leBytes (w / 8) (Config.unstated (60 + w) v).toNat
    | .inf neg => leBytes (w / 8) (if neg then 2 ^ (w - 1) else 2 ^ (w - 1) - 1)
    | x => leBytes (w / 8) (ux w (clampI (-(2 ^ (w - 1) : Nat)) (2 ^ (w - 1) - 1 : Nat) (x.roundInt 0)))
  if ty = 0 then int 16 else if ty = 1 then int 32 else leBytes 4 v

/-- What a cycle that starts now carries for output `g`: the latest assignment once 3 µs (12,000 units) have passed. -/
def State.carryNow (s : State) (g : Nat) : Carry :=
  let c : Carry := tget {} s.cmp.carries g
  match c.next with
  | some (t, v, l) => if t + 12000 ≤ s.time.now then { c with valid := v, vals := l, next := none } else c
  | none => c

/-- Place the guarded values and VALID bits into a copy of the output image. -/
def State.placeGuarded (s : State) (img : List Byte) : State × List Byte :=
  let shut := s.latched && decide (s.cmp.latchedAt + 12000 ≤ s.time.now)
  s.outputs.foldl (fun (q : State × List Byte) g =>
    let c := q.1.carryNow g
    let s1 := q.1.setCmp { q.1.cmp with carries := tset q.1.cmp.carries g c }
    let bytes := (List.range (s.outCount g)).flatMap (fun i =>
      if s.cmp.running && c.vals.length == s.outCount g then s.elementBytes g (lget 0 c.vals i) else List.replicate (s.typeSize g) 0)
    let img1 := bytes.zipIdx.foldl (fun l p => lset l (s.outOfs g + p.2) p.1) q.2
    let vb := s.outVbit g
    let byte := lget (0 : Byte) img1 (vb / 8)
    (s1, lset img1 (vb / 8) (BitVec.ofNat 8 (setBit byte.toNat (vb % 8) (c.valid && !shut))))) (s, img)

end Sys2Proof.Machine
end

