-- ==== Sys2Proof/Machine/Ports.lean ====
section
/-! DEFINITION. The commands of chapter 16: the host going down, the EtherCAT MainDevice with its mailbox and feeds, CAN FD and
Ethernet (R373 to R390). -/

namespace Sys2Proof.Machine

open Reg Host

/-! ## The host (R376, R377) -/

/-- Does a tile of a transfer touch host memory? -/
def Xfer.touchesT3 (x : Xfer) : Bool := (x.op == 0 && x.srcT3) || (decide (x.op ≤ 1) && x.dstT3)

/-- Does an event at function `fn` (none: any event other than an FLR) concern function `f` (0 PF0, 1 PF1, 2 + v VF v)? -/
def concerns (fn : Option Nat) (f : Nat) : Bool := match fn with
  | none => true
  | some 0 => true
  | some k => k == f

/-- End a T3 tile with LOWER_TIER_TIMEOUT; the sectors named in `got` had arrived. -/
def State.dropT3Tile (s : State) (got : List Nat) (t : Nat × TileFlight) : State :=
  match s.cmd t.1 with
  | none => s
  | some x =>
    let d := (xfer x.body).dstTile t.2.index
    let rec' := (List.range (d.len / 256)).filter (fun j => got.contains (sectorKey d j))
    s.tileEnds x.ctx x.seq t.2.index {} (.timeout rec')

/-- The host is down for the concerned functions (R376). The enabled virtual functions are gone with PF0, and stay through an FLR of their own (DEDUCED, log entry 47).
Log entry 106 (DEDUCED). -/
def State.hostGone (s : State) (fn : Option Nat) (got : List Nat) : State :=
  let t3 := s.flights.filter (fun t => match s.cmd t.1 with
    | some x => (xfer x.body).touchesT3 && concerns fn (s.partFn (s.ctxPart x.ctx))
    | none => false)
  let s1 := t3.foldl (fun st t => st.dropT3Tile got t) s
  let hit := (List.range 512).filter (fun c => s.ctxState c != 0 &&
    (s.get AGT_SCHED_CTX_CFG.SQ_LOC c == 1 || s.get AGT_SCHED_CTX_CFG.CQ_LOC c == 1) && concerns fn (s.partFn (s.ctxPart c)))
  let s2 := hit.foldl (fun st c => st.abortCtx c) s1
  let s3 : State := { s2 with host := { s2.host with vfEnabled := if concerns fn 0 then [] else s2.host.vfEnabled } }
  if concerns fn 1 then
    let s4 := if s3.dic.denied.contains 3 then s3.set AGT_UNC_DICT_RSP.BUSY 1 0 else s3
    { s4 with
      sec := { s4.sec with
        sessions := s4.sec.sessions.filter (fun w => w.port != 1)
        tickets := s4.sec.tickets.filter (fun t => t.session.isNone) }
      dic := { s4.dic with
        slot := s4.dic.slot.map (fun w => if w.src = .pf1 then { w with mute := true } else w)
        denied := s4.dic.denied.filter (fun r => r != 3)
        store := s4.dic.store.map (fun j => if j.src = .pf1 then { j with mute := true } else j) } }
  else s3

/-- HOST_DOWN (R376). -/
def execHostDown (got : List Nat) (s : State) : Outcome State Fault Refusal := s.onClock <| .next (s.hostGone none got)

/-- FLR of function `fn`: 0 PF0, 1 PF1, 2 + v VF v (R376). -/
def execFlr (fn : Nat) (got : List Nat) (s : State) : Outcome State Fault Refusal := s.onClock <| .next (s.hostGone (some fn) got)

/-! ## EtherCAT: the datagram table (R378, R382) -/

/-- An entry of object 0x2C03:0x01. -/
structure Datagram where
  raw : Nat
  deriving DecidableEq, Repr

def Datagram.cmd (d : Datagram) : Nat := bits d.raw 0 8
def Datagram.frame (d : Datagram) : Nat := bits d.raw 8 2
def Datagram.addr (d : Datagram) : Nat := bits d.raw 16 32
def Datagram.len (d : Datagram) : Nat := bits d.raw 48 11
def Datagram.outOfs (d : Datagram) : Nat := bits d.raw 64 13
def Datagram.inOfs (d : Datagram) : Nat := bits d.raw 80 13
def Datagram.wkc (d : Datagram) : Nat := bits d.raw 96 16
def Datagram.pos (d : Datagram) : Nat := bits d.raw 112 7

/-- The offset that stands for no data. -/
def noData : Nat := 0x1FFF

/-- The entries of the table. -/
def State.datagrams (s : State) : List Datagram :=
  let b := s.blob 0x2C03 1
  (List.range (min (s.obj 0 0x2C03 2) (b.length / 16))).map (fun j => ⟨leVal ((b.drop (16 * j)).take 16)⟩)

/-- Datagram commands of R378, as IEC 61158 Type 12 codes them (PRESUMED, log entry 48). -/
def ecatCommands : List Nat := [1, 2, 4, 5, 7, 8, 10, 11, 12, 13, 14]

/-- May cyclic operation start (R382)? -/
def State.tableOk (s : State) : Bool :=
  let t := s.datagrams
  t.all (fun d => ecatCommands.contains d.cmd &&
    (d.outOfs == noData || decide (d.outOfs + d.len ≤ s.get AGT_ECAT_IMG.OUT_SIZE 0)) &&
    (d.inOfs == noData || decide (d.inOfs + d.len ≤ s.get AGT_ECAT_IMG.IN_SIZE 0))) &&
  (List.range 4).all (fun f => decide (((t.filter (fun d => d.frame == f)).map Datagram.len).sum ≤ 1486))

/-- Byte 0 of the output and of the input image window. -/
def ecatOut : Nat := regSpace 4 0x810000
def ecatIn : Nat := regSpace 4 0x820000

def State.setEcat (s : State) (e : Ecat) : State := { s with ecat := e }
def State.ecatErr (s : State) : State := s.set AGT_ECAT_STATUS.CFG_ERR 0 1
def State.ecatIrq (s : State) : State := if s.isSet AGT_ECAT_CTRL.IRQ_EN 0 then s.msix (s.get AGT_ECAT_CTRL.VECTOR 0) else s
def State.ecatRuns (s : State) : Bool := s.domOn 34 && s.isSet AGT_ECAT_CTRL.RUN 0
def State.ecatRing (s : State) : Bool := s.isSet AGT_ECAT_CTRL.RING 0

/-- A write of AGT_ECAT_CTRL (R381, R382). -/
def State.ecatCtrl (s : State) (val : Nat) : State :=
  let was := s.isSet AGT_ECAT_CTRL.RUN 0
  let run := bit val 0
  let s1 := (s.set AGT_ECAT_CTRL.IRQ_EN 0 (bits val 2 1)).set AGT_ECAT_CTRL.VECTOR 0 (bits val 16 11)
  let s2 := if bits val 1 1 = s.get AGT_ECAT_CTRL.RING 0 then s1
    else if was then s1.ecatErr else s1.set AGT_ECAT_CTRL.RING 0 (bits val 1 1)
  if !run then (s2.set AGT_ECAT_CTRL.RUN 0 0).setEcat { s2.ecat with open' := false, waiting := [], back := [], ports := [] }
  else if was then s2
  else if s2.tableOk then (s2.set AGT_ECAT_CTRL.RUN 0 1).set AGT_ECAT_STATUS.CYCLE 0 0
  else s2.ecatErr

/-- A write of AGT_ECAT_IMG; a size above 5,944 is not stored (R381, DEDUCED, log entry 43). -/
def State.ecatImg (s : State) (val : Nat) : State :=
  if s.isSet AGT_ECAT_CTRL.RUN 0 || decide (5944 < bits val 0 13) || decide (5944 < bits val 16 13) then s.ecatErr
  else (s.set AGT_ECAT_IMG.OUT_SIZE 0 (bits val 0 13)).set AGT_ECAT_IMG.IN_SIZE 0 (bits val 16 13)

/-! ## Subdevice positions (R380) -/

def State.sub (s : State) (n : Nat) : SubPos := tget {} s.ecat.subs n
def State.setSub (s : State) (n : Nat) (x : SubPos) : State := s.setEcat { s.ecat with subs := tput {} s.ecat.subs n x }

/-- A change of state of a position, which may raise the interrupt. -/
def State.subGoes (s : State) (n : Nat) (st : SubState) : State :=
  (s.setSub n { s.sub n with st := st, missed := 0 }).ecatIrq

/-- PRESENT to ABSENT: RETRY starts, and an EMCY is sent. -/
def State.subAbsent (s : State) (n : Nat) : State :=
  ((s.setSub n { st := .absent, missed := 0, retry := s.time.now }).ecatIrq).emcyOpen

/-- The three CoE reads of an identity. -/
def State.readIdentity (s : State) (n : Nat) : State :=
  [1, 2, 4].foldl (fun st k => st.emit (.coe n 0x1018 k false [])) s

/-- Show the link of a port. -/
def State.ecatLink (s : State) (port v : Nat) : State :=
  if port = 0 then s.set AGT_ECAT_STATUS.LINK0 0 v else s.set AGT_ECAT_STATUS.LINK1 0 v

/-- Has RETRY (object 0x2C01:0x01, ms) of an ABSENT position passed? -/
def State.retryOver (s : State) (n : Nat) : Bool :=
  (s.sub n).st == .absent && decide ((s.sub n).retry + 4000000 * s.obj 100 0x2C01 1 ≤ s.time.now)

/-- SUBDEVICE_ANSWER: a unit answers at an ABSENT or LOST position. An expiry of RETRY in the same cycle is applied first. -/
def execSubdeviceAnswer (n port : Nat) (s : State) : Outcome State Fault Refusal := s.onClock <|
  if 128 ≤ n || !s.domOn 34 then .next s
  else match (s.sub n).st with
    | .absent =>
      let s1 := if s.retryOver n then (s.subGoes n .lost).emcyOpen else s
      .next (((s1.ecatLink port 1).subGoes n .checking).readIdentity n)
    | .lost => .next (((s.ecatLink port 1).subGoes n .checking).readIdentity n)
    | _ => .next s

/-- IDENTITY_READ_COMPLETE: vendor, product and serial as read, or none where a CoE read failed. -/
def execIdentityReadComplete (n : Nat) (id : Option (Nat × Nat × Nat)) (s : State) : Outcome State Fault Refusal := s.onClock <|
  if (s.sub n).st != .checking then .next s
  else
    let o := 0x2C80 + n
    .next (if id = some (s.obj 0 o 1, s.obj 0 o 2, s.obj 0 o 3) then s.subGoes n .present else (s.subGoes n .refused).emcyOpen)

/-- RETRY_EXPIRE: RETRY has passed. -/
def execRetryExpire (n : Nat) (s : State) : Outcome State Fault Refusal := s.onClock <|
  .next (if s.retryOver n then (s.subGoes n .lost).emcyOpen else s)

/-- RECHECK of a REFUSED position (object 0x2C02:0x01). -/
def State.recheck (s : State) (n : Nat) : State :=
  if (s.sub n).st == .refused then (s.subGoes n .checking).readIdentity n else s

def execRecheck (n : Nat) (s : State) : Outcome State Fault Refusal := s.onClock <| .next (if s.domOn 34 then s.recheck n else s)

/-- ECAT_LINK_LOSS: a port loses link; the PRESENT positions of the segment become ABSENT. -/
def execEcatLinkLoss (port : Nat) (positions : List Nat) (s : State) : Outcome State Fault Refusal := s.onClock <|
  if !s.domOn 34 then .next s
  else .next ((positions.filter (fun n => (s.sub n).st == .present)).foldl (fun st n => st.subAbsent n) (s.ecatLink port 0))

/-! ## Cycles (R379, R381) -/

/-- Does a datagram count as returned with its expected working counter, and the bytes that came with it (R381, R382)? -/
def State.backGood (s : State) (j : Nat) (d : Datagram) : Option (List Byte) :=
  ((tget [] s.ecat.back j).find? (fun b => b.wkc == d.wkc)).map (fun b => b.bytes)

/-- Datagrams with their places in the table. -/
def State.indexed (s : State) : List (Datagram × Nat) := s.datagrams.zipIdx

/-- Did position `n` have valid inputs: named, PRESENT, and every datagram that names it returned well (R379, R380, R382)? -/
def State.inputsValid (s : State) (n : Nat) : Bool :=
  let named := s.indexed.filter (fun e => e.1.pos == n)
  !named.isEmpty && (s.sub n).st == .present && named.all (fun e => (s.backGood e.2 e.1).isSome)

/-! ### Feeds (R383) -/

/-- The bits of an entry of a feed's table. -/
def State.feedEntry (s : State) (f j : Nat) : Nat := leVal (((s.blob (0x2C40 + f) 5).drop (8 * j)).take 8)

/-- The value of an entry: its input, times its scale, rounded once. -/
def State.feedValue (s : State) (e : Nat) : Nat :=
  let v := s.word (ecatIn + bits e 0 16) 4
  let x : Num := match bits e 16 4 with
    | 0 => .ofInt (sx 16 v) 0
    | 1 => .ofInt (v % 65536 : Nat) 0
    | 2 => .ofInt (sx 32 v) 0
    | _ => f32num v
  f32 (x.mul (f32num (bits e 32 32)))

/-- Positions that the datagrams covering an entry's bytes name. -/
def State.feedPositions (s : State) (e : Nat) : List Nat :=
  let len := if bits e 16 4 ≤ 1 then 2 else 4
  (s.datagrams.filter (fun d => d.pos != 0x7F && d.inOfs != noData && overlaps (d.inOfs, d.len) (bits e 0 16, len))).map Datagram.pos

/-- The row of a feed, if its inputs are valid. -/
def State.feedRow (s : State) (f entries : Nat) : Option (List Nat) :=
  if s.obj 0 (0x2C40 + f) 1 = 1 then
    let es := (List.range entries).map (s.feedEntry f)
    if es.all (fun e => (s.feedPositions e).all s.inputsValid) then some (es.map s.feedValue) else none
  else
    let was := tget [] s.ecat.feedEdges f
    let tick : Num := (Num.ofInt 25 0).div (.ofInt 10000000000 0)
    some ((List.range 32).flatMap (fun c =>
      [f32 ((Num.ofInt (s.get AGT_RFX_CH_CNT.LAST_PERIOD c) 0).mul tick),
       f32ofInt ((s.get AGT_RFX_CH_CNT.ON_EDGES c + 2 ^ 32 - lget 0 was c) % 2 ^ 32 : Nat)]))

/-- One feed at the end of a cycle. -/
def State.feed1 (s : State) (f : Nat) : State :=
  let o := 0x2C40 + f
  let src := s.obj 0 o 1
  if src = 0 then s else
    let node := s.obj 0 o 2
    let slot := s.obj 0 o 3
    let entries := if src = 2 then 64 else s.obj 0 o 4
    let miss (st : State) : State := st.setObj 0 o 6 (satAdd 32 (st.obj 0 o 6) 1)
    match tfind s.seq.streams (8 * node + slot) with
    | none => miss s
    | some w =>
      let b : SBody := ⟨w.body⟩
      if b.n ≠ entries || !s.admitted node then miss s else
        match s.feedRow f entries with
        | none => miss s
        | some row =>
          let m := s.getO ONX_Q_STREAM.NEXT node slot % b.ring
          let cells := row.zipIdx.flatMap (fun p =>
            valueCells (glob node (b.gridX.eltAddr m p.2)) (fmtBytes b.fx) (deliverNum b.fx 0 b.satInf (f32num p.1)).1)
          let s1 := s.scatter (s.ctxPart w.ctx) cells
          s1.setEcat { s1.ecat with
            feedWaits := s1.ecat.feedWaits ++ [f]
            feedEdges := if src = 2 then tset s1.ecat.feedEdges f ((List.range 32).map (fun c => s.get AGT_RFX_CH_CNT.ON_EDGES c))
              else s1.ecat.feedEdges }

/-- FEED_WRITE_COMPLETE: one step is added to PENDING (R166, R383). -/
def execFeedWriteComplete (f : Nat) (s : State) : Outcome State Fault Refusal := s.onClock <|
  if s.ecat.feedWaits.contains f then
    .next ((s.setEcat { s.ecat with feedWaits := s.ecat.feedWaits.erase f }).ringDoorbell (s.obj 0 (0x2C40 + f) 2) (s.obj 0 (0x2C40 + f) 3) 1)
  else .next s

/-! ### The end of a cycle -/

/-- One position at the end of a cycle: a run of MISS_N cycles with invalid inputs makes a PRESENT one ABSENT (R380). -/
def State.countMiss (s : State) (n : Nat) : State :=
  let x := s.sub n
  if x.st != .present || !(s.datagrams.any (fun d => d.pos == n)) then s
  else if s.inputsValid n then s.setSub n { x with missed := 0 }
  else if s.obj 3 0x2C01 3 ≤ x.missed + 1 then s.subAbsent n
  else s.setSub n { x with missed := x.missed + 1 }

/-- The end of a cycle: input window, INSEQ, VALID, feeds, forwarding (R381, R383, R392). -/
def State.endCycle (s : State) : State :=
  let valid := maskOf ((List.range 127).filter s.inputsValid)
  let s1 := s.indexed.foldl (fun st e =>
    match s.backGood e.2 e.1 with
    | some b => if e.1.inOfs = noData then st else st.poke (ecatIn + e.1.inOfs) (b.take e.1.len)
    | none => st) s
  let s2 := (((s1.set AGT_ECAT_INSEQ.SEQ 0 (s1.get AGT_ECAT_STATUS.CYCLE 0)).set AGT_ECAT_VALID.POS 0 (valid % 2 ^ 64)).set
    AGT_ECAT_VALID.POS 1 (valid / 2 ^ 64)).set AGT_ECAT_STATUS.RING_BROKEN 0 (b2n (s.ecatRing && s.ecat.ports.length == 1))
  let s3 := (List.range 4).foldl (fun st f => st.feed1 f) s2
  let image := s3.bytes ecatIn (s3.get AGT_ECAT_IMG.IN_SIZE 0) ++ leBytes 16 valid
  let s4 := (List.range 127).foldl (fun st n => st.countMiss n) (s3.forward 3 0 image)
  s4.setEcat { s4.ecat with open' := false, waiting := [], back := [], ports := [] }

/-- The return limit passes: the frames not yet back are late (R379, R381). -/
def State.returnLimit (s : State) : State :=
  if !s.ecat.open' then s else
    let late := (List.range 4).filter (fun f => s.ecat.waiting.contains (2 * f) &&
      (!s.ecatRing || s.ecat.waiting.contains (2 * f + 1)))
    if late.isEmpty then s.endCycle
    else (((s.set AGT_ECAT_STATUS.LATE 0 1).count AGT_ECAT_STATUS.LATECNT 0 late.length).ecatIrq).endCycle

/-- ECAT_RETURN_LIMIT: 5 µs before the next cycle start. Log entry 88 (DEDUCED). -/
def execEcatReturnLimit (s : State) : Outcome State Fault Refusal := s.onClock <| .next (if s.ecatRuns then s.returnLimit else s)

/-- The frames of a cycle: frame 0, with the distributed-clock datagram, and those that carry a datagram. -/
def State.cycleFrames (s : State) : List Nat := (List.range 4).filter (fun f => f == 0 || s.datagrams.any (fun d => d.frame == f))

/-- ECAT_CYCLE_START: the output window and the guarded values are copied, and the frames launched (R349, R379, R381, R406). -/
def execEcatCycleStart (s0 : State) : Outcome State Fault Refusal := s0.onClock <|
  if !s0.ecatRuns then .next s0 else
    let s := s0.returnLimit
    let s1 := s.set AGT_ECAT_STATUS.CYCLE 0 (s.get AGT_ECAT_STATUS.CYCLE 0 + 1)
    let r := s1.placeGuarded (s1.bytes ecatOut (s1.get AGT_ECAT_IMG.OUT_SIZE 0))
    let data (d : Datagram) : List Byte :=
      if d.outOfs = noData then List.replicate d.len 0 else (r.2.drop d.outOfs).take d.len
    let frames := s.cycleFrames
    let s2 := frames.foldl (fun st f => st.emit (.ecat f (s.time.now / 4)
      ((s.datagrams.filter (fun d => d.frame == f)).map (fun d => (d.cmd, d.addr, data d))))) r.1
    .next (s2.setEcat { s2.ecat with
      open' := true, back := [], ports := []
      waiting := frames.flatMap (fun f => if s.ecatRing then [2 * f, 2 * f + 1] else [2 * f]) })

/-- ECAT_FRAME_RETURN: frame `f` comes back through a port with the working counter and the bytes of each of its datagrams of R382,
in table order. A frame that returns after the return limit is lost for its cycle (R379). -/
def execEcatFrameReturn (f port : Nat) (grams : List (Nat × List Byte)) (s : State) : Outcome State Fault Refusal := s.onClock <|
  if !s.ecatRuns || !s.ecat.open' || !s.ecat.waiting.contains (2 * f + port) then .next s else
    let mine := s.indexed.filter (fun e => e.1.frame == f)
    let back := (mine.zip grams).foldl (fun t e =>
      tset t e.1.2 (tget [] t e.1.2 ++ [⟨port, e.2.1, e.2.2⟩])) s.ecat.back
    let s1 := (s.ecatLink port 1).setEcat { s.ecat with
      waiting := s.ecat.waiting.filter (fun k => k != 2 * f + port)
      ports := sinsert s.ecat.ports port
      back := back }
    .next (if s1.ecat.waiting.isEmpty then s1.endCycle else s1)

/-! ## The CoE mailbox (R381) -/

def mbxObject (write : Bool) (pos idx sub : Nat) : Nat := 2 ^ 24 * pos + 256 * idx + sub + (if write then 2 ^ 40 else 0)

/-- The end of a mailbox request. -/
def State.mbxEnd (s : State) (st : Status) (size abort : Nat) : State :=
  let s1 := (((s.set AGT_ECAT_MBX_RSP.BUSY 0 0).set AGT_ECAT_MBX_RSP.STATUS 0 st.code).set AGT_ECAT_MBX_RSP.SIZE 0 size).set
    AGT_ECAT_MBX_RSP.ABORT 0 abort
  s1.setEcat { s1.ecat with mbx := none }

/-- A write of MBX_REQ that is not acted on: it does not arrive, or a request runs (CFG_ERR). -/
def State.mbxTurnedAway (s : State) (src : Src) : Option State :=
  if !s.reaches src 4 8 0x40 then some (s.turnAway src 4 8 0x40)
  else if s.isSet AGT_ECAT_MBX_RSP.BUSY 0 then some (s.set AGT_ECAT_MBX_RSP.CFG_ERR 0 1)
  else none

/-- Start a CoE request. -/
def State.mbxStart (s : State) (j : MbxJob) : State :=
  let s1 := ((s.set AGT_ECAT_MBX_RSP.BUSY 0 1).emit (.coe j.pos j.idx j.sub j.write j.bytes))
  s1.setEcat { s1.ecat with mbx := some j }

/-- MBX_READ: a write of MBX_REQ with OP 1. OFFSET 0 uploads the object into the staging buffer; a later segment comes from it. -/
def execMbxRead (src : Src) (val : Nat) (s : State) : Outcome State Fault Refusal := s.onClock <|
  match s.mbxTurnedAway src with
  | some s1 => .next s1
  | none =>
    let pos := bits val 8 7
    let sub := bits val 16 8
    let idx := bits val 24 16
    let ofs := bits val 40 12
    if (s.sub pos).st != .present then .next (s.mbxEnd .badDescriptor 0 0)
    else if ofs = 0 then .next (s.mbxStart { write := false, pos := pos, idx := idx, sub := sub })
    else if s.ecat.stagingOf = some (mbxObject false pos idx sub) ∧ ofs % 8 = 0 ∧ ofs < s.ecat.staging.length then
      .next ((s.set AGT_ECAT_MBX_DATA.VALUE 0 (leVal ((s.ecat.staging.drop ofs).take 8))).mbxEnd .ok s.ecat.staging.length 0)
    else .next (s.mbxEnd .badDescriptor 0 0)

/-- MBX_WRITE: a write of MBX_REQ with OP 2, to an object of `size` bytes. Segments are staged; the one that reaches the last byte
starts the download (R358, R381). -/
def execMbxWrite (src : Src) (val size : Nat) (s : State) : Outcome State Fault Refusal := s.onClock <|
  match s.mbxTurnedAway src with
  | some s1 => .next s1
  | none =>
    let pos := bits val 8 7
    let sub := bits val 16 8
    let idx := bits val 24 16
    let ofs := bits val 40 12
    let k := mbxObject true pos idx sub
    let before := if ofs = 0 then [] else if s.ecat.stagingOf = some k then s.ecat.staging.take ofs else []
    if (s.sub pos).st != .present || decide (4096 < size) || ofs % 8 != 0 || decide (before.length < ofs) then
      .next (s.mbxEnd .badDescriptor 0 0)
    else
      let data := before ++ leBytes 8 (s.get AGT_ECAT_MBX_DATA.VALUE 0)
      if data.length < size then
        .next ((s.setEcat { s.ecat with staging := data, stagingOf := some k }).mbxEnd .ok size 0)
      else
        .next ((s.setEcat { s.ecat with staging := [], stagingOf := none }).mbxStart
          { write := true, pos := pos, idx := idx, sub := sub, bytes := data.take size })

/-- MBX_RESPONSE: the subdevice's answer, or its abort code. -/
def execMbxResponse (abort : Nat) (bytes : List Byte) (s : State) : Outcome State Fault Refusal := s.onClock <|
  match s.ecat.mbx with
  | none => .next s
  | some j =>
    if abort ≠ 0 then .next (s.mbxEnd .badDescriptor 0 abort)
    else if j.write then .next (s.mbxEnd .ok j.bytes.length 0)
    else if 4096 < bytes.length then .next (s.mbxEnd .badDescriptor 0 0)
    else
      let s1 := s.setEcat { s.ecat with staging := bytes, stagingOf := some (mbxObject false j.pos j.idx j.sub) }
      .next ((s1.set AGT_ECAT_MBX_DATA.VALUE 0 (leVal (bytes.take 8))).mbxEnd .ok bytes.length 0)

/-- MBX_TIMEOUT: no answer within 100 ms. -/
def execMbxTimeout (s : State) : Outcome State Fault Refusal := s.onClock <|
  .next (if s.ecat.mbx.isSome then s.mbxEnd .lowerTierTimeout 0 0 else s)

/-! ## CAN FD (R372, R384) -/

/-- CAN_BUS_OFF. Log entry 89 (DEDUCED). -/
def execCanBusOff (c : Nat) (s : State) : Outcome State Fault Refusal := s.onClock <|
  if 2 ≤ c || !s.domOn 34 then .next s
  else .next (((s.set AGT_NET_CANSTAT.STATE c 2).set AGT_NET_CANSTAT.TEC c 255).count AGT_NET_CANSTAT.BUSOFF_CNT c 1)

/-- CAN_BUS_OFF_RECOVERY: error active again with both counters 0 (PRESUMED, log entry 49), and an EMCY. -/
def execCanBusOffRecovery (c : Nat) (s : State) : Outcome State Fault Refusal := s.onClock <|
  if 2 ≤ c || s.get AGT_NET_CANSTAT.STATE c != 2 then .next s
  else .next (((s.set AGT_NET_CANSTAT.STATE c 0).set AGT_NET_CANSTAT.TEC c 0).set AGT_NET_CANSTAT.REC c 0).emcyOpen

/-- CAN_HEARTBEAT: the producer heartbeat time of object 0x1017 expires; none is sent while the service is interrupted (R491). -/
def execCanHeartbeat (c : Nat) (s : State) : Outcome State Fault Refusal := s.onClock <|
  .next (if decide (c < 2) && s.domOn 34 && s.get AGT_NET_CANSTAT.STATE c != 2 && !s.agateReloads && s.obj 100 0x1017 0 != 0 then
    s.emit (.heartbeat c) else s)

/-! ## Ethernet (R385 to R387) -/

def State.netOn (s : State) (p : Nat) : Bool := decide (p < 2) && s.domOn 34 && s.isSet AGT_NET_CTRL.ENABLE p
def State.netIrq (s : State) (p : Nat) : State := if s.isSet AGT_NET_CTRL.IRQ_EN p then s.msix (s.get AGT_NET_CTRL.VECTOR p) else s

/-- TX_DOORBELL: a write of TXDB. A TAIL outside the ring is not taken. -/
def execTxDoorbell (src : Src) (p val : Nat) (s : State) : Outcome State Fault Refusal := s.onClock <|
  if 2 ≤ p then .next s
  else if !s.reaches src 4 9 (0x1000 * p + 0x18) then .next (s.turnAway src 4 9 (0x1000 * p + 0x18))
  else if s.get AGT_NET_TXRING.DEPTH_M1 p < bits val 0 8 then .next s
  else .next (s.set AGT_NET_TXDB.TAIL p (bits val 0 8))

/-- The frame that a transmit descriptor names, in host memory or in T2 (R384). -/
def State.txFetch (s : State) (d : Nat) : State × List Byte :=
  if bit d 78 then (s, s.hostRead (bits d 0 64) (bits d 64 14)) else s.agateRead (bits d 0 52) (bits d 64 14)

/-- A frame leaves port `p` by descriptor `d`, stamped where the descriptor asks for it (R384, R387), and the head moves to `next`. -/
def State.txSent (s : State) (p d next : Nat) (frame : List Byte) : State :=
  (((if bit d 79 then s.stampTx p (bits d 80 16) else s).emit (.eth p frame)).set AGT_NET_TXHEAD.HEAD p next).netIrq p

/-- TX_TIMESTAMP_POINT: the frame of the descriptor at HEAD passes its timestamp point; HEAD advances (R350, R387). -/
def execTxTimestampPoint (p : Nat) (s : State) : Outcome State Fault Refusal := s.onClock <|
  let head := s.get AGT_NET_TXHEAD.HEAD p
  if !s.netOn p || head == s.get AGT_NET_TXDB.TAIL p then .next s else
    let q := s.agateRead (glob (s.get AGT_NET_TXRING.NODE p) (4096 * s.get AGT_NET_TXRING.BASE p + 32 * head)) 32
    let w := q.1.txFetch (leVal q.2)
    .next (w.1.txSent p (leVal q.2) ((head + 1) % (s.get AGT_NET_TXRING.DEPTH_M1 p + 1)) w.2)

/-- A 16-bit big-endian field of a frame. -/
def beField (f : List Byte) (o : Nat) : Nat := 256 * (lget 0 f o).toNat + (lget 0 f (o + 1)).toNat

/-- Offset of the EtherType, past an IEEE 802.1Q tag. -/
def typeAt (f : List Byte) : Nat := if beField f 12 = 0x8100 then 16 else 12

/-- Is it a PTP frame, and is it an event frame: EtherType 0x88F7, or UDP over IPv4 to port 319 or 320 (R341, PRESUMED, log entry 50)? -/
def ptpFrame (f : List Byte) : Bool × Bool :=
  let t := typeAt f
  if beField f t = 0x88F7 then (true, decide ((lget 0 f (t + 2)).toNat % 16 < 4))
  else
    let ip := t + 2
    let udp := ip + 4 * ((lget 0 f ip).toNat % 16)
    if beField f t = 0x0800 ∧ lget 0 f (ip + 9) = 17 then (beField f (udp + 2) == 319 || beField f (udp + 2) == 320, beField f (udp + 2) == 319)
    else (false, false)

/-- The receive ring of a frame (R385). -/
def State.ringFor (s : State) (p : Nat) (f : List Byte) : Option Nat :=
  if (ptpFrame f).1 then some 0
  else ([1, 2, 3, 4, 5, 6, 7].find? (fun r => Config.ethMatch (s.obj 0 (0x2C30 + p) (r + 1)) f))

/-- Instance of the registers of receive ring `r` of port `p` in the register map. -/
def rxIdx (p r : Nat) : Nat := 8 * p + r

/-- ETH_FRAME_RECEIVE: the frame goes to its ring with its record and timestamp, or is dropped. -/
def execEthFrameReceive (p : Nat) (f : List Byte) (s : State) : Outcome State Fault Refusal := s.onClock <|
  if !s.netOn p then .next s else
    let s0 := s.set AGT_NET_STAT.LINK p 1
    match s.ringFor p f with
    | none => .next (s0.setObj 0 (0x2C30 + p) 9 (satAdd 32 (s0.obj 0 (0x2C30 + p) 9) 1))
    | some r =>
      let i := rxIdx p r
      let depth := s.get AGT_NET_RXRING.DEPTH_M1 i + 1
      let k := s.get AGT_NET_RXSTAT.TAIL i
      if !thas s.rings (AGT_NET_RXRING.BASE.addr 4 i) then .next s0
      else if (k + 1) % depth = s.get AGT_NET_RXDB.HEAD i then .next (s0.count AGT_NET_RXSTAT.DROP i 1)
      else
        let size := 2 ^ s.get AGT_NET_RXBUF.SIZE_LOG2 i
        let a := glob (s.get AGT_NET_RXBUF.NODE i) (4096 * s.get AGT_NET_RXBUF.BASE i + k * size)
        let ev := (ptpFrame f).2
        let ts := if ev then ux 64 ((s.ptp : Int) - sx 32 (s.obj 0 (0x2810 + p) 2)) else 0
        let v := a + f.length * 2 ^ 64 + b2n ev * 2 ^ 78 + b2n (decide (size < f.length)) * 2 ^ 79 + ts * 2 ^ 128
        let s1 := (s0.agateWrite a (f.take size)).getD s0
        let ra := glob (s.get AGT_NET_RXRING.NODE i) (4096 * s.get AGT_NET_RXRING.BASE i + 32 * k)
        match s1.agateWrite ra (leBytes 32 v) with
        | none => .next { s1 with rings := tset s1.rings (AGT_NET_RXRING.BASE.addr 4 i) (tget 0 s1.rings (AGT_NET_RXRING.BASE.addr 4 i) + 1) }
        | some s2 =>
          let s3 := (s2.set AGT_NET_RXSTAT.TAIL i ((k + 1) % depth)).netIrq p
          .next (if bit (s.obj 0 0x3C02 (p + 1)) r then s3.forward 4 (8 * p + r) (f ++ leBytes 32 v) else s3)

end Sys2Proof.Machine
end

