-- ==== Sys2Proof/Machine/Power.lean ====
section
/-! DEFINITION. The commands of chapter 19: the root PLL and its re-lock, issue caps and skip ratios, the power cap loop, the
thermal controls and falling supplies (R442 to R466). -/

namespace Sys2Proof.Machine

open Reg Host

def State.setPwr (s : State) (p : Power) : State := { s with pwr := p }
def State.diePwr (s : State) (n : Nat) : DiePower := tget {} s.pwr.dies n
def State.setDiePwr (s : State) (n : Nat) (d : DiePower) : State := s.setPwr { s.pwr with dies := tput {} s.pwr.dies n d }

/-- The grade envelope in W (R2, R509). -/
def State.envelope (s : State) : Nat := lget 180 [70, 120, 180] s.fuses.grade
/-- P_LIM in W, clamped to the envelope (R455). -/
def State.pLim (s : State) : Nat := min s.envelope (s.obj s.envelope 0x2401 1)
def State.hyst (s : State) : Nat := s.obj 4 0x2401 4
def State.stepCap (s : State) : Nat := s.obj 48 0x2401 5
def State.idleCap (s : State) : Nat := s.obj 16 0x2401 6

/-! ## Skip ratios and issue caps (R446, R447, R452 to R454) -/

def State.k (s : State) (n c : Nat) : Nat := s.getO ONX_UNC_CLK.K n c
def State.kMax (s : State) (n c : Nat) : Nat := s.getO ONX_UNC_CLK.KMAX n c
/-- The skip ratio of a core once a pending change has taken effect. -/
def State.kAim (s : State) (n c : Nat) : Nat := tget (s.k n c) (s.diePwr n).kGoal c
def State.loopCap (s : State) (n : Nat) : Nat := s.getO ONX_M_ISSUECAP.LOOP_CAP n 0
def State.relock (s : State) : Bool := s.isSet AGT_PWR_CLKSTAT.RELOCK 0

/-- KMAX of a core: KFUSE less LOWERED (R446). -/
def State.kFused (s : State) (n c : Nat) : Nat :=
  tget 16 s.fuses.kfuse (4 * n + c) - ((List.range 16).filter (fun i => bit (tget 0 s.fuses.lowered (4 * n + c)) i)).length

/-- Show the fused KMAX of a die's cores and run them at it (R446, R464). -/
def State.loadClocks (s : State) (n : Nat) : State :=
  (List.range 4).foldl (fun st c => (st.setO ONX_UNC_CLK.KMAX n c (s.kFused n c)).setO ONX_UNC_CLK.K n c (s.kFused n c))
    (s.setDiePwr n {})

/-- Change a skip ratio: a fall takes effect now, a rise once the rail reads back (R452), and during a re-lock either takes effect at
its end (R449). -/
def State.aimK (s : State) (n c v : Nat) : State :=
  let d := s.diePwr n
  if v < s.k n c && !s.relock then (s.setO ONX_UNC_CLK.K n c v).setDiePwr n { d with kGoal := tdel d.kGoal c }
  else if v = s.k n c then s.setDiePwr n { d with kGoal := tdel d.kGoal c }
  else s.setDiePwr n { d with kGoal := tset d.kGoal c v }

/-- Change cap_n of R456: LOOP_CAP falls with it at once and rises under R453. -/
def State.setCap (s : State) (n v : Nat) : State :=
  (s.setDiePwr n { s.diePwr n with cap := v }).setO ONX_M_ISSUECAP.LOOP_CAP n 0 (min (s.loopCap n) v)

/-- The value toward which LOOP_CAP rises: that which R456 allows, but no more than IDLE_CAP on an idle M core without a hint (R453,
R454). -/
def State.capGoal (s : State) (n : Nat) : Nat :=
  let d := s.diePwr n
  if d.idle && s.getO ONX_UNC_HINT.HEAVY n 0 == 0 then min d.cap s.idleCap else d.cap

/-- The LOOP_CAP that the next step of R453 makes. -/
def State.capNext (s : State) (n : Nat) : Nat := max (s.loopCap n) (min (s.capGoal n) (s.loopCap n + 8))

/-- The AVS set-point of VDD_ONXn in mV (R452): what the ratios and the LOOP_CAP that are in force, or to which the next step rises, need
at most, within 650 to 850. A rise sets it before the ratio or the cap rises, a fall after. -/
def State.setPoint (s : State) (n : Nat) : Nat :=
  max 650 (min 850 (Config.railNeed n ((List.range 4).map (fun c => max (s.k n c) (s.kAim n c))) (s.capNext n)))

/-- AVS_STEP_COMPLETE (R452, R453): the rail of die `n` reads back, and the pending rises of its skip ratios and one step of LOOP_CAP
take effect. -/
def execAvsStepComplete (n : Nat) (s : State) : Outcome State Fault Refusal := s.onClock <|
  if s.relock || 4 ≤ n then .next s else
    let d := s.diePwr n
    let s1 := d.kGoal.foldl (fun st e => st.setO ONX_UNC_CLK.K n e.1 e.2) (s.setDiePwr n { d with kGoal := [] })
    .next (if s.loopCap n < s.capGoal n then s1.setO ONX_M_ISSUECAP.LOOP_CAP n 0 (s.capNext n) else s1)

/-- Does the matrix engine or the attention unit of a die execute a command? -/
def State.matrixBusy (s : State) (n : Nat) : Bool := thas s.sched.busy (16 * n) || thas s.sched.busy (16 * n + 2)

/-- MATRIX_IDLE_TIMEOUT (R453 item 3). -/
def execMatrixIdleTimeout (n : Nat) (s : State) : Outcome State Fault Refusal := s.onClock <|
  if 4 ≤ n || s.matrixBusy n || s.getO ONX_UNC_HINT.HEAVY n 0 == 1 then .next s
  else .next ((s.setDiePwr n { s.diePwr n with idle := true }).setO ONX_M_ISSUECAP.LOOP_CAP n 0 (min (s.loopCap n) s.idleCap))

/-- HINT_WRITE (R454, R464). -/
def execHintWrite (src : Src) (n val : Nat) (s : State) : Outcome State Fault Refusal := s.onClock <|
  if 4 ≤ n then .next s
  else if !s.reaches src n 0 0x180 then .next (s.turnAway src n 0 0x180)
  else if bit val 0 && bits val 8 8 == 0 then .next s
  else
    let s1 := (s.setO ONX_UNC_HINT.HEAVY n 0 (bits val 0 1)).setO ONX_UNC_HINT.HOLD n 0 (bits val 8 8)
    .next (if bit val 0 then s1.setDiePwr n { s1.diePwr n with idle := false } else s1)

/-- HINT_EXPIRE (R454): HOLD has passed. -/
def execHintExpire (n : Nat) (s : State) : Outcome State Fault Refusal := s.onClock <|
  if 4 ≤ n then .next s else .next (s.setO ONX_UNC_HINT.HEAVY n 0 0)

/-! ## The root PLL (R448 to R451) -/

def State.setRelock (s : State) (b : Bool) : State :=
  (s.set AGT_PWR_CLKSTAT.RELOCK 0 (b2n b)).set AGT_TIME_STATUS.RELOCK 0 (b2n b)

/-- LOSS_OF_LOCK (R448 to R450). -/
def execLossOfLock (s : State) : Outcome State Fault Refusal := s.onClock <|
  if s.relock || !s.isSet AGT_PWR_CLKSTAT.ROOT_LOCK 0 then .next s else
    let s1 := ((s.set AGT_PWR_CLKSTAT.ROOT_LOCK 0 0).setRelock true).count AGT_PWR_CLKSTAT.RELOCK_CNT 0 1
    .next ((s1.setPwr { s1.pwr with tries := 1, locked := false }).rfxDisarmAll)

/-- PLL_LOCK (R449 step 5). -/
def execPllLock (s : State) : Outcome State Fault Refusal := s.onClock <|
  if s.relock && !s.pwr.locked && !s.isSet AGT_PWR_CLKSTAT.ROOT_FAIL 0 then
    .next ((s.set AGT_PWR_CLKSTAT.ROOT_LOCK 0 1).setPwr { s.pwr with locked := true })
  else .next s

/-- DIVIDER_RESTART (R449 step 6): the targets in force apply, and every LOOP_CAP is IDLE_CAP. -/
def execDividerRestart (s : State) : Outcome State Fault Refusal := s.onClock <|
  if !(s.relock && s.pwr.locked) then .next s else
    let s1 := (s.setRelock false).setPwr { s.pwr with tries := 0, locked := false }
    .next ((List.range 4).foldl (fun st n =>
      let d := st.diePwr n
      (d.kGoal.foldl (fun u e => u.setO ONX_UNC_CLK.K n e.1 e.2) (st.setDiePwr n { d with kGoal := [] })).setO
        ONX_M_ISSUECAP.LOOP_CAP n 0 st.idleCap) s1)

/-- RELOCK_TIMEOUT (R451). Log entry 93 (DEDUCED). -/
def execRelockTimeout (s : State) : Outcome State Fault Refusal := s.onClock <|
  if !s.relock || s.pwr.locked || s.isSet AGT_PWR_CLKSTAT.ROOT_FAIL 0 then .next s
  else if s.pwr.tries < 3 then .next (s.setPwr { s.pwr with tries := s.pwr.tries + 1 })
  else .next (s.set AGT_PWR_CLKSTAT.ROOT_FAIL 0 1)

/-! ## The power cap loop (R455 to R458) -/

/-- Power of a rail in 0.1 W: READ_POUT, or V × I rounded down (R455). Log entry 90 (DEDUCED). -/
def readPower (r : Reading) : Nat := match r.2.2.1 with
  | some p => p
  | none => r.1 * r.2.1 / 10000

/-- EMCY 0x3100 for the rails whose status newly reports undervoltage (R462). -/
def State.noteUnderVolt (s : State) (m : Nat) : State :=
  let s1 := s.setPwr { s.pwr with underVolt := m }
  if (maskList 12 m).any (fun r => !bit s.pwr.underVolt r) then s1.emcy 0x3100 else s1

/-- Take a sample into the 100 ms window of package time (R438). -/
def State.sampleWindow (s : State) (rails : List Reading) (total : Nat) : State :=
  let w := s.time.now / 400000000
  let p := s.pwr
  let p1 := if p.window = w then p else
    { p with
      window := w, samples := 0, sums := []
      oldSamples := if p.window + 1 = w then p.samples else 0
      oldSums := if p.window + 1 = w then p.sums else [] }
  let add (t : Tab Nat) (k v : Nat) : Tab Nat := tput 0 t k (tget 0 t k + v)
  let sums := rails.zipIdx.foldl (fun t e => add (add t (2 * e.2) e.1.2.1) (2 * e.2 + 1) (readPower e.1)) (add p1.sums 24 total)
  s.setPwr { p1 with samples := p1.samples + 1, sums := sums }

/-- Is an M core's die protected: a command of a STEP or SAFETY context runs on its M core (R458)? -/
def State.dieProtected (s : State) (n : Nat) : Bool :=
  [0, 1, 2].any (fun i => match s.running n i with
    | some x => s.ctxClass x.ctx != 0
    | none => false)

/-- Thermal state of die `d` (R460, R463). -/
def State.thermal (s : State) (d : Nat) : Nat := bits (s.get AGT_PWR_THSTAT.STATE 0) (2 * d) 2

/-- ⌊cap × (1 − over / sum)⌋, 0 where it is not positive (R456). -/
def trimCap (cap over' sum : Nat) : Nat := if sum ≤ over' then 0 else cap * (sum - over') / sum

/-- The loop lowers one die, to no less than `floor` (R456, R458). -/
def State.lowerDie (s : State) (over' sum floor : Nat) (n : Nat) : State :=
  let cap := (s.diePwr n).cap
  if 1 < cap then s.setCap n (min cap (max floor (trimCap cap over' sum)))
  else if 1 < s.kAim n 0 then s.aimK n 0 (s.kAim n 0 - 1)
  else s

/-- The loop raises one die: first k, then the cap; k of the other cores only where THROTTLE lowered it. A die in THROTTLE or TRIP is
left to the thermal control (R456, R460). Log entry 91 (DEDUCED). -/
def State.raiseDie (s : State) (n : Nat) : State :=
  if 2 ≤ s.thermal n then s else
    let others := (List.range 4).filter (fun c => c != 0 && (s.diePwr n).cooled && decide (s.kAim n c < s.kMax n c))
    let s1 := others.foldl (fun st c => st.aimK n c (st.kAim n c + 1)) s
    let s2 := if others.isEmpty then s1.setDiePwr n { s1.diePwr n with cooled := false } else s1
    if s2.kAim n 0 < s2.kMax n 0 then s2.aimK n 0 (s2.kAim n 0 + 1)
    else if (s2.diePwr n).cap < 64 then s2.setCap n (min 64 ((s2.diePwr n).cap + 8))
    else s2

/-- The loop procedure (R456, R458): `p` is the package power in 0.1 W, `rails` the power of each VDD_ONXn. -/
def State.powerLoop (s : State) (p : Nat) (rails : List Nat) : State :=
  let lim := 10 * s.pLim
  let dies := (List.range 4).filter s.admitted
  let u := dies.filter (fun n => !s.dieProtected n)
  let sum (l : List Nat) : Nat := (l.map (lget 0 rails)).sum
  if lim < p then
    let s1 := s.count AGT_PWR_CAPSTAT.CAP_OVER 0 1
    if u.all (fun n => (s.diePwr n).cap == 1 && s.kAim n 0 == 1) && decide (u.length < dies.length) then
      (dies.foldl (fun st n => st.lowerDie (p - lim) (sum dies) (if u.contains n then 1 else st.stepCap) n) s1).set
        AGT_PWR_CAPSTAT.CAP_PRESSURE 0 1
    else u.foldl (fun st n => st.lowerDie (p - lim) (sum u) 1 n) s1
  else
    let s1 := s.set AGT_PWR_CAPSTAT.CAP_PRESSURE 0 0
    if p + 10 * s.hyst < lim then dies.foldl (fun st n => st.raiseDie n) s1 else s1

/-- POWER_SAMPLE (R455, R456, R462, R463): the readings of the 12 rails. -/
def execPowerSample (rails : List Reading) (s : State) : Outcome State Fault Refusal := s.onClock <|
  if rails.length ≠ 12 then .next s else
    let s1 := rails.zipIdx.foldl (fun st e =>
      (((st.set AGT_PWR_RAIL.VOUT e.2 e.1.1).set AGT_PWR_RAIL.IOUT e.2 e.1.2.1).set AGT_PWR_RAIL.POUT e.2 (readPower e.1)).set
        AGT_PWR_RAIL.STATUS e.2 e.1.2.2.2.1) s
    let total := (rails.map readPower).sum
    let s2 := (s1.set AGT_PWR_CAPSTAT.PKG 0 total).sampleWindow rails total
    let low := maskOf ((rails.zipIdx.filter (fun e => e.1.2.2.2.2)).map (·.2))
    .next ((s2.noteUnderVolt low).powerLoop total (rails.map readPower))

/-- PMB_ALERT (R457, R462): the STATUS_BYTE of each regulator as read, the rails VDD_ONXn with an overcurrent warning, and the rails
whose status reports undervoltage. -/
def execPmbAlert (status : List Nat) (overcurrent underVolt : Nat) (s : State) : Outcome State Fault Refusal := s.onClock <|
  let s1 := status.zipIdx.foldl (fun st e => if e.2 < 12 then st.set AGT_PWR_RAIL.STATUS e.2 e.1 else st) s
  let s2 := s1.noteUnderVolt (underVolt % 4096)
  let hit := maskList 4 overcurrent
  let s3 := hit.foldl (fun st n => st.setCap n 1) s2
  .next (if hit.isEmpty then s3 else s3.set AGT_PWR_CAPSTAT.ALERT 0 1)

/-! ## Thermal control (R459 to R461) -/

def State.tWarn (s : State) : Nat := s.obj 95 0x2420 1
def State.tThrot (s : State) : Nat := s.obj 102 0x2420 2
def State.floorK (s : State) : Nat := s.obj 12 0x2420 3

/-- The diodes of a die: 0 to 3 Onyx, 4 Agate, 5 Scarab, 6 Beryl (R459). -/
def diodesOf (d : Nat) : List Nat :=
  if d < 4 then (List.range 8).map (8 * d + ·) else lget [] [[32, 33, 34, 35], [36, 37], [38, 39]] (d - 4)

/-- A diode's reading in 0.125 °C: +125 °C where none was valid for 1 ms (R459). Log entry 92 (DEDUCED). -/
def State.diode (s : State) (i : Nat) : Int :=
  if tget 0 s.pwr.diodeSeen i + 4000000 ≤ s.time.now then 1000 else sx 12 (s.get BRL_TEMP.TEMP i)

def maxInt (l : List Int) : Int := l.foldl (fun a b => if a < b then b else a) (l.headD 0)

def State.dieTemp (s : State) (d : Nat) : Int := maxInt ((diodesOf d).map s.diode)

/-- Thresholds of WARN, THROTTLE (Onyx only) and TRIP, in 0.125 °C. -/
def State.thresholds (s : State) (d : Nat) : List (Nat × Int) :=
  [(1, ((8 * s.tWarn : Nat) : Int))] ++ (if d < 4 then [(2, ((8 * s.tThrot : Nat) : Int))] else []) ++ [(3, 880)]

/-- The thermal state of a die, left 3 °C below its threshold (R460). -/
def State.nextThermal (s : State) (d : Nat) : Nat :=
  let t := s.dieTemp d
  (s.thresholds d).foldl (fun st e => if e.2 ≤ t ∨ (e.1 ≤ s.thermal d ∧ e.2 - 24 < t) then e.1 else st) 0

/-- Show the thermal state of one die, with EMCY as it leaves NORMAL. -/
def State.showThermal (s : State) (d : Nat) : State :=
  let old := s.thermal d
  let new := s.nextThermal d
  let v := s.get AGT_PWR_THSTAT.STATE 0
  let s1 := s.set AGT_PWR_THSTAT.STATE 0 (v - old * 4 ^ d + new * 4 ^ d)
  if old = 0 ∧ 0 < new then s1.emcy 0x4210 else s1

/-- Does a die reach TRIP now? -/
def State.trips (s : State) (d : Nat) : Bool := s.nextThermal d == 3 && s.thermal d != 3

/-- What the trips of one evaluation do: the admitted Onyx dies among them are lost together (R276, R277, R460). -/
def State.tripAll (s : State) (ds got : List Nat) : State :=
  let onyx := ds.filter (fun d => decide (d < 4))
  let s1 := (onyx.filter (fun n => !s.admitted n)).foldl (fun st n => st.abandonAdmit n) s
  let lost := onyx.filter s.admitted
  let s2 := if lost.isEmpty then s1 else s1.loseAll (lost.map (fun n => (n, 1))) got
  let s3 := if ds.contains 4 then s2.latchSafe 4 else s2
  let s4 := if ds.contains 5 then s3.setPwr { s3.pwr with scarabHalted := true } else s3
  if ds.contains 6 then s4.rfxDisarmAll else s4

/-- THERMAL_EVAL (R459, R460): the valid readings of the 40 diodes, in 0.125 °C. -/
def execThermalEval (readings : List (Option Int)) (got : List Nat) (s : State) : Outcome State Fault Refusal := s.onClock <|
  if !s.domOn 42 || readings.length != 40 then .next s else
    let s1 := readings.zipIdx.foldl (fun (st : State) e => match e.1 with
      | some v => ((st.set BRL_TEMP.TEMP e.2 (ux 12 v)).set BRL_TEMP.VALID e.2 1).setPwr
          { st.pwr with diodeSeen := tset st.pwr.diodeSeen e.2 s.time.now }
      | none => st.set BRL_TEMP.VALID e.2 0) s
    let s2 := s1.set AGT_PWR_THSTAT.HOTTEST 0 (ux 16 (maxInt ((List.range 7).map s1.dieTemp)))
    .next (((List.range 7).foldl State.showThermal s2).tripAll ((List.range 7).filter s2.trips) got)

/-- THROTTLE_STEP of one die (R460). -/
def State.throttle (s : State) (n : Nat) : State :=
  let cap := min (s.diePwr n).cap (s.loopCap n)
  if 1 < cap then s.setCap n (max 1 (cap - 8))
  else if 8 < s.kAim n 0 then s.aimK n 0 (s.kAim n 0 - 1)
  else
    let low := [1, 2, 3].filter (fun c => decide (min (s.kMax n c) s.floorK < s.kAim n c))
    let s1 := low.foldl (fun st c => st.aimK n c (st.kAim n c - 1)) s
    if low.isEmpty then s1 else s1.setDiePwr n { s1.diePwr n with cooled := true }

/-- THROTTLE_STEP (R460): 1 ms in THROTTLE. -/
def execThrottleStep (s : State) : Outcome State Fault Refusal := s.onClock <|
  .next (((List.range 4).filter (fun n => s.thermal n == 2)).foldl (fun st n => st.throttle n) s)

end Sys2Proof.Machine
end

