-- ==== Sys2Proof/Machine/Security.lean ====
section
/-! DEFINITION. The commands of chapter 18: the mailbox, sessions, protected partitions, model keys, release and clearing, debug and
fuses, attestation (R416 to R441). What a cryptographic check of the silicon finds is an operand. -/

namespace Sys2Proof.Machine

open Reg Host

def State.setSec (s : State) (x : SecUnit) : State := { s with sec := x }

/-- `n` bytes of a cryptographic function of the unit (DESIGN CHOICE, log entry 60): 0 SHA-384, 1 bytes of the DRBG, 2 the certificate chain,
3 a signature, 4 the decryption of a chunk, 5 the boot ROM's version and digest, 6 the device's keys in an exchange. -/
def cryptoBytes (fn n : Nat) (input : List Byte) : List Byte := (List.range n).map (fun i => Config.crypto fn input i)

def sha384 (b : List Byte) : List Byte := cryptoBytes 0 48 b

/-- The owner identity D_O of a public key (R423). -/
def ownerId (key : List Byte) : Nat := leVal ((sha384 key).take 16)

/-! ## The mailbox (R419 to R422, R436) -/

/-- Is mailbox port `p` reached: port 0 over the sideband, port 1 through PF1 (R374, R419, R476)? -/
def State.portReached (s : State) (p : Nat) : Bool :=
  decide (p < 2) && s.reaches (if p = 0 then .sideband else .pf1) 4 7 (0x2000 * p)

/-- A request written to MB_CMD (R419, R420). While DONE = 0 the write is ignored with CFG_ERR. Else what the request does takes
effect, and its answer waits for MAILBOX_ANSWER; a refusal counts. -/
def State.mailbox (s : State) (p op : Nat) (act : State → State × MbAnswer) : State :=
  if !s.portReached p then s
  else if s.get AGT_SEC_MB_RSP.DONE p = 0 then s.set AGT_SEC_MB_RSP.CFG_ERR p 1
  else
    let r := act ((s.set AGT_SEC_MB_CMD.OP p op).set AGT_SEC_MB_RSP.DONE p 0)
    let s1 := if r.2.ok then r.1 else r.1.countRefusal
    s1.setSec { s1.sec with answers := tset s1.sec.answers p r.2 }

/-- The answer to a refused request. -/
def State.deny (s : State) : State × MbAnswer := (s, { ok := false })

/-- The answer to an immediate operation. -/
def State.answer (s : State) (b : List Byte) : State × MbAnswer := (s, { ok := true, bytes := b })

/-- The answer to a ticketed operation: a ticket, of which a port holds at most 8 (R422). -/
def State.ticketed (s : State) (p op : Nat) (session : Option Nat) (args : List Nat) : State × MbAnswer :=
  if 8 ≤ (s.sec.tickets.filter (fun t => t.port == p)).length then s.deny else
    let id := s.sec.nextTicket
    (s.setSec { s.sec with
      nextTicket := id + 1
      tickets := s.sec.tickets ++ [{ id := id, port := p, op := op, session := session, args := args }] },
     { ok := true, ticket := id % 2 ^ 32 })

/-- The session in which a request arrives, its counter and time noted; none where it is refused (R423).
Log entry 101 (DEDUCED). -/
def State.inSession (s : State) (p : Nat) (a : Auth) : Option (Session × State) :=
  match s.sec.sessions.find? (fun w => w.id == a.session && w.port == p) with
  | some w =>
    if a.tagOk && a.counter == w.counter + 1 then
      let w1 := { w with counter := a.counter, lastRequest := s.time.now }
      some (w1, s.setSec { s.sec with sessions := s.sec.sessions.map (fun v => if v.id = w.id then w1 else v) })
    else none
  | none => none

/-- A request that only a session may make. -/
def State.owned (s : State) (p : Nat) (a : Auth) (act : Session → State → State × MbAnswer) : State × MbAnswer :=
  match s.inSession p a with
  | some w => act w.1 w.2
  | none => s.deny

/-- End a session, its tickets with it (R422, R423). -/
def State.endSession (s : State) (id : Nat) : State :=
  s.setSec { s.sec with
    sessions := s.sec.sessions.filter (fun w => w.id != id)
    tickets := s.sec.tickets.filter (fun t => t.session != some id) }

/-- MAILBOX_ANSWER (R420): 20 µs after the request. -/
def execMailboxAnswer (p : Nat) (s : State) : Outcome State Fault Refusal := s.onClock <|
  match tfind s.sec.answers p with
  | none => .next s
  | some a =>
    let s1 := s.setSec { s.sec with answers := tdel s.sec.answers p }
    let s2 := (((s1.set AGT_SEC_MB_RSP.DONE p 1).set AGT_SEC_MB_RSP.STATUS p (if a.ok then 0 else Status.code .denied)).set
      AGT_SEC_MB_RSP.LEN p a.bytes.length).set AGT_SEC_MB_RSP.TICKET p a.ticket
    .next (s2.poke (regSpace 4 (0x700000 + 0x2000 * p + 0x1000)) a.bytes)

/-- GET_CERT (R417, R421). The length of the chain is a free value. -/
def execGetCert (p : Nat) (s : State) : Outcome State Fault Refusal := s.onClock <|
  .next (s.mailbox p 0x01 (fun st => let d := st.draw; d.2.answer (cryptoBytes 2 (d.1 % 4096) (leBytes 4 st.fuses.serial))))

/-- ATTEST (R421, R439): the report is sampled at the ticket's completion. -/
def execAttest (p : Nat) (nonce : List Byte) (s : State) : Outcome State Fault Refusal := s.onClock <|
  .next (s.mailbox p 0x02 (fun st => st.ticketed p 0x02 none [leVal (nonce.take 48)]))

/-- GET_NONCE (R421, R434). -/
def execGetNonce (p : Nat) (s : State) : Outcome State Fault Refusal := s.onClock <|
  .next (s.mailbox p 0x0C (fun st =>
    let d := st.draw
    let s1 := if p = 0 then d.2.setSec { d.2.sec with nonce := some d.1 } else d.2
    s1.answer (cryptoBytes 1 48 (leBytes 8 d.1))))

/-! ## Sessions (R423) -/

/-- SESSION_OPEN: the request is Q_O (97 bytes), E_O and N_O. -/
def execSessionOpen (p : Nat) (request : List Byte) (s : State) : Outcome State Fault Refusal := s.onClock <|
  .next (s.mailbox p 0x03 (fun st =>
    if p ≠ 1 || st.sec.debugNow then st.deny else st.ticketed p 0x03 none [ownerId (request.take 97)]))

/-- SESSION_FINISH, after SESSION_OPEN. -/
def execSessionFinish (p : Nat) (s : State) : Outcome State Fault Refusal := s.onClock <|
  .next (s.mailbox p 0x04 (fun st =>
    match st.sec.opening with
    | some o => if p ≠ 1 then st.deny else
        (st.setSec { st.sec with opening := none }).ticketed p 0x04 none [o.1, o.2]
    | none => st.deny))

/-- SESSION_CLOSE. -/
def execSessionClose (p : Nat) (a : Auth) (s : State) : Outcome State Fault Refusal := s.onClock <|
  .next (s.mailbox p 0x05 (fun st => st.owned p a (fun w st1 => (st1.endSession w.id).answer [])))

/-- SESSION_TIMEOUT: 10 s without a request. -/
def execSessionTimeout (id : Nat) (s : State) : Outcome State Fault Refusal := s.onClock <|
  match s.sec.sessions.find? (fun w => w.id == id) with
  | some w => .next (if w.lastRequest + 40000000000 ≤ s.time.now then s.endSession id else s)
  | none => .next s

/-! ## Protected partitions (R424 to R426) -/

/-- The ranges and ways that a PART_PROTECT request names. -/
def protectBody (b : List Byte) : Prot :=
  let f (k : Nat) : List Nat := (List.range 4).map (fun n => leVal ((b.drop (4 + 8 * n + 2 * k)).take 2))
  { base := f 0, size := f 1, ways := f 2 }

/-- Is a PART_PROTECT accepted (R424, R431)? -/
def State.protectOk (s : State) (q : Nat) (x : Prot) : Bool :=
  decide (q < 16) && !s.sec.debugNow && !s.guardedPart q &&
  (List.range 512).all (fun c => s.ctxPart c != q || s.ctxState c == 0) &&
  (List.range 4).all (fun n =>
    let r := (lget 0 x.base n * rangeUnit, lget 0 x.size n * rangeUnit)
    (r.2 == 0 || (decide (r.1 + r.2 ≤ 0x1000000000) &&
      s.sec.prots.all (fun e => !overlaps r (lget 0 e.2.base n * rangeUnit, lget 0 e.2.size n * rangeUnit)) &&
      s.sec.deferrals.all (fun d => d.die != n || !d.areas.any (overlaps r)))) &&
    (lget 0 x.ways n &&& (0xFFFF - s.getO ONX_T1_WAYMODE.SCRATCH n 0)) == 0 &&
    s.sec.prots.all (fun e => (lget 0 e.2.ways n &&& lget 0 x.ways n) == 0) &&
    s.sec.deferrals.all (fun d => d.die != n || d.areas.all (fun a => !(x.areas n).any (overlaps a))))

/-- The contents that T2 of a die holds in units `u` to `u + k - 1` of 256 MiB are the decryption of other bytes from now on (R425).
Log entry 103 (DEDUCED). -/
def State.rekey (s : State) (n u k : Nat) : State :=
  let lo := glob n (u * rangeUnit)
  let hi := glob n ((u + k) * rangeUnit)
  if k = 0 then s else
    { s with
      mem := s.mem.filter (fun c => !(decide (lo ≤ c.1) && decide (c.1 < hi)))
      scrambled := (List.range (min k (256 - u))).foldl (fun t i => tset t (256 * n + u + i) s.freeCount) s.scrambled
      freeCount := s.freeCount + 1 }

/-- PART_PROTECT (R424). -/
def execPartProtect (p : Nat) (a : Auth) (request : List Byte) (s : State) : Outcome State Fault Refusal := s.onClock <|
  .next (s.mailbox p 0x06 (fun st => st.owned p a (fun w st1 =>
    let q := leVal (request.take 1)
    let x := protectBody request
    if !st1.protectOk q x then st1.deny else
      let k := st1.sec.nextKey
      let s2 := (st1.setProt q { x with isProt := true, owner := w.owner, keys := some k })
      let s3 := s2.setSec { s2.sec with nextKey := k + 1 }
      ((List.range 4).foldl (fun u n => u.rekey n (lget 0 x.base n) (lget 0 x.size n)) s3).answer [])))

/-! ## Release and clearing (R430 to R433) -/

/-- Step 1 of R430. -/
def State.releasePart (s : State) (q : Nat) : State :=
  let x := s.prot q
  if !x.isProt || x.clearing then s else
    let s1 := s.setProt q { x with keys := none, clearing := true, start := s.time.now }
    let s2 := s1.setSec { s1.sec with slots := s1.sec.slots.filter (fun e => e.2.part != q) }
    ((List.range 512).filter (fun c => s.ctxPart c == q && s.ctxState c != 0)).foldl (fun st c => st.abortCtx c) s2

/-- PART_RELEASE: by a session that owns the partition, or on port 0. -/
def execPartRelease (p : Nat) (a : Option Auth) (q : Nat) (s : State) : Outcome State Fault Refusal := s.onClock <|
  let release (id : Option Nat) (st : State) : State × MbAnswer :=
    if !(st.prot q).isProt || (st.prot q).clearing then st.deny else
      let r := st.ticketed p 0x07 id [q]
      if r.2.ok then (r.1.releasePart q, r.2) else r
  .next (s.mailbox p 0x07 (fun st =>
    match a with
    | some a => st.owned p a (fun w st1 => if (st1.prot q).owner = w.owner then release (some w.id) st1 else st1.deny)
    | none => if p = 0 then release none st else st.deny))

/-- Write zeros over an interval of local offsets of a die, its T1 lines discarded (R430 step 3). -/
def State.zeroArea (s : State) (n : Nat) (a : Nat × Nat) : State :=
  let lo := glob n a.1
  let inside (x : Nat) : Bool := decide (lo ≤ x) && decide (x < lo + a.2)
  let unit (x : Nat) : Bool := decide (lo ≤ x) && decide (x + rangeUnit ≤ lo + a.2)
  let gone := s.t1.filter (fun e => e.1 / 16384 == n && decide (a.1 < 0x1000000000) &&
    inside (glob n (e.2.tag * 0x400000 + e.1 % 1024 * 4096)))
  let s1 := gone.foldl (fun st e => st.dropLine n (e.1 / 1024 % 16) (e.1 % 1024)) s
  { s1 with
    mem := s1.mem.filter (fun c => !inside c.1)
    poison := s1.poison.filter (fun x => !inside x)
    scrambled := if a.1 < 0x1000000000 then tkeep (fun k => !unit (glob (k / 256) (k % 256 * rangeUnit))) s1.scrambled else s1.scrambled }

/-- CLEAR_START (R430 steps 2 and 3, R431, R432). -/
def execClearStart (q : Nat) (s : State) : Outcome State Fault Refusal := s.onClock <|
  let x := s.prot q
  if !x.clearing || x.filling || !s.stepDone 6 || (List.range 512).any (fun c => s.ctxPart c == q && s.ctxState c != 0) then .next s
  else
    let dies := (List.range 4).filter (fun n => !(s.protAreas q n).isEmpty)
    let now := dies.filter s.admitted
    let later := dies.filter (fun n => !s.admitted n)
    let s1 := now.foldl (fun st n => (s.protAreas q n).foldl (fun u a => u.zeroArea n a) st) s
    let s2 := s1.setSec { s1.sec with
      deferrals := s1.sec.deferrals ++ later.map (fun n => { part := q, owner := x.owner, die := n, areas := s.protAreas q n, start := x.start }) }
    .next (s2.setProt q { x with
      filling := true
      outcome := (now.map (fun n => 4 ^ n)).sum + (later.map (fun n => 2 * 4 ^ n)).sum })

/-- Keep a clear record: retention holds the latest 16 (R433). -/
def State.clearRecord (s : State) (q outcome start owner : Nat) : State :=
  let k := (s.sec.clearsTotal + 1) % 2 ^ 32
  s.setSec { s.sec with
    clearsTotal := k
    clears := ({ seq := k, part := q, outcome := outcome, start := start, stop := s.time.now, owner := owner } :: s.sec.clears).take 16 }

/-- CLEAR_COMPLETE (R430 step 4, R431): of the partition's clear, or of one that was deferred and whose die has been admitted. -/
def execClearComplete (q : Nat) (s : State) : Outcome State Fault Refusal := s.onClock <|
  let x := s.prot q
  if x.filling then .next ((s.clearRecord q x.outcome x.start x.owner).setProt q {})
  else
    match s.sec.deferrals.find? (fun d => d.part == q && s.admitted d.die) with
    | some d =>
      let s1 := d.areas.foldl (fun st a => st.zeroArea d.die a) s
      .next ((s1.setSec { s1.sec with deferrals := s1.sec.deferrals.filter (fun e => e != d) }).clearRecord q (4 ^ d.die) d.start d.owner)
    | none => .next s

/-! ## Model keys and images (R427 to R429) -/

/-- KEY_IMPORT: the wrapped key, the slot and the partition. -/
def execKeyImport (p : Nat) (a : Auth) (slot q : Nat) (blob : List Byte) (s : State) : Outcome State Fault Refusal := s.onClock <|
  .next (s.mailbox p 0x08 (fun st => st.owned p a (fun w st1 =>
    if st1.sec.debugNow || 32 ≤ slot || 16 ≤ q then st1.deny
    else st1.ticketed p 0x08 (some w.id) [slot, q, leVal (blob.take 192), w.owner])))

/-- Does a wrapped key import (R428), its tag apart? -/
def State.importOk (s : State) (slot q blob owner : Nat) : Bool :=
  bits blob 0 32 == 0x4D4B4231 && bits blob 1032 8 == 1 && bits blob 32 32 == s.fuses.serial && bits blob 128 128 == owner &&
  (s.prot q).isProt && !(s.prot q).clearing && (s.prot q).owner == owner && !thas s.sec.slots slot

/-- KEY_DESTROY. -/
def execKeyDestroy (p : Nat) (a : Auth) (slot : Nat) (s : State) : Outcome State Fault Refusal := s.onClock <|
  .next (s.mailbox p 0x09 (fun st => st.owned p a (fun w st1 =>
    match tfind st1.sec.slots slot with
    | some k => if (st1.prot k.part).owner = w.owner then (st1.setSec { st1.sec with slots := tdel st1.sec.slots slot }).answer []
        else st1.deny
    | none => st1.deny)))

/-- MODEL_LOAD: `t3` says that SRC and TAGS are host bus addresses; as global addresses they lie in no area that R426 refuses to the
partition. -/
def execModelLoad (p : Nat) (a : Auth) (slot imageId : Nat) (t3 : Bool) (src tags dst count : Nat) (s : State) : Outcome State
    Fault Refusal := s.onClock <|
  .next (s.mailbox p 0x0A (fun st => st.owned p a (fun w st1 =>
    match tfind st1.sec.slots slot with
    | some k =>
      let x := st1.prot k.part
      let n := nodeOf dst
      let range := (lget 0 x.base n * rangeUnit, lget 0 x.size n * rangeUnit)
      if st1.sec.debugNow || x.owner != w.owner || count == 0 || decide (1048576 < count) || dst % 65536 != 0 || decide (4 ≤ n) ||
        !covers [range] (localOf dst, 65536 * count) ||
        (!t3 && (st1.areaRefused (some k.part) src (65536 * count) || st1.areaRefused (some k.part) tags (16 * count))) then st1.deny
      else st1.ticketed p 0x0A (some w.id) [slot, k.key, imageId, b2n t3, src, tags, dst, count, k.part]
    | none => st1.deny)))

/-- Read bytes for a load: of host memory, or as Agate reads a global address (R66, R67). -/
def State.loadRead (s : State) (t3 a n : Nat) : State × List Byte := if t3 = 1 then (s, s.hostRead a n) else s.agateRead a n

/-- Does a load find its source or its tags poisoned: an uncorrectable error (R429, DEDUCED, log entry 156)? -/
def State.loadSpoiled (s : State) (t3 src tags count : Nat) : Bool :=
  t3 != 1 && (sectorsOf src (65536 * count) ++ sectorsOf tags (16 * count)).any s.poisoned

/-- Read, decrypt and write the chunks of a load, one after another (R429). -/
def State.loadChunks (s : State) (key imageId t3 src tags dst count part : Nat) : State :=
  (List.range count).foldl (fun st c =>
    let g := st.loadRead t3 (tags + 16 * c) 16
    let r := g.1.loadRead t3 (src + 65536 * c) 65536
    let input := leBytes 8 key ++ leBytes 4 imageId ++ leBytes 8 c ++ leBytes 4 count ++ g.2 ++ r.2
    r.1.writeRun part false (dst + 65536 * c) (cryptoBytes 4 65536 input)) s

/-- Poison every destination sector of a failed load (R429). -/
def State.spoilChunks (s : State) (dst count part : Nat) : State :=
  (List.range (256 * count)).foldl (fun st i => st.writeSector part false (dst + 256 * i) (st.bytes (dst + 256 * i) 256) true) s

/-! ## Debug and fuses (R418, R434, R435) -/

/-- DEBUG_ENABLE: `tokenOk` says that the vendor token verifies over the latest nonce of port 0. -/
def execDebugEnable (p : Nat) (tokenOk : Bool) (s : State) : Outcome State Fault Refusal := s.onClock <|
  .next (s.mailbox p 0x0D (fun st =>
    if p ≠ 0 || !tokenOk || st.sec.nonce.isNone || st.fuses.debugDisable || st.guardedOn || st.fuses.debugCount == 255 then st.deny
    else
      let r := st.ticketed p 0x0D none []
      if !r.2.ok then r else
        let s1 := r.1.sec.sessions.foldl (fun u w => u.endSession w.id) r.1
        ((List.range 16).foldl (fun u q => u.releasePart q) s1, r.2)))

/-- Configuration key slots that are fused and not revoked (R418). Log entry 104 (DEDUCED). -/
def State.usableKeys (s : State) : List Nat :=
  (List.range 4).filter (fun k => thas s.fuses.cfgDigest k && !bit s.fuses.cfgRevoked k)

/-- May a slot be fused with a digest, or revoked (R418)? -/
def State.fuseOk (s : State) (slot : Nat) (revoke sigOk : Bool) : Bool :=
  decide (slot < 4) && (sigOk || s.fuses.cfgDigest.isEmpty) &&
  (if revoke then s.usableKeys.contains slot && decide (1 < s.usableKeys.length) else !thas s.fuses.cfgDigest slot)

/-- CFGKEY_FUSE: fuse a digest into a slot, or revoke it; `sigOk` says that the request carries a signature by a usable key. -/
def execCfgkeyFuse (p slot : Nat) (revoke : Bool) (digest : Nat) (sigOk : Bool) (s : State) : Outcome State Fault Refusal := s.onClock <|
  .next (s.mailbox p 0x0E (fun st =>
    if p ≠ 0 || !st.fuseOk slot revoke sigOk then st.deny else st.ticketed p 0x0E none [slot, b2n revoke, digest % 2 ^ 384, b2n sigOk]))

/-- The copy of the defect list in force, and whether it is copy 1 (R477, rules 1 and 2 of R367). Log entry 105 (DEDUCED). -/
def State.defects (s : State) : DefectCopy × Bool :=
  match s.bu.defects0, s.bu.defects1 with
  | some a, some b => if a.seq != b.seq && serialGe b.seq a.seq then (b, true) else (a, false)
  | some a, none => (a, false)
  | none, some b => (b, true)
  | none, none => (⟨0, []⟩, false)

/-- Write a defect list with SEQ + 1 to the copy that is not in force (R477). -/
def State.writeDefects (s : State) (l : List Nat) : State :=
  let cur := s.defects
  let new : Option DefectCopy := some ⟨(cur.1.seq + 1) % 2 ^ 32, l⟩
  { s with bu := if s.bu.defects0.isSome && !cur.2 then { s.bu with defects1 := new } else { s.bu with defects0 := new } }

/-- DEFECT_CLEAR (R435, R478). -/
def execDefectClear (p : Nat) (a : Auth) (tokenOk : Bool) (s : State) : Outcome State Fault Refusal := s.onClock <|
  .next (s.mailbox p 0x0F (fun st => st.owned p a (fun w st1 =>
    if !tokenOk || st1.sec.nonce.isNone || st1.sec.prots.any (fun e => e.2.isProt && e.2.owner != w.owner) then st1.deny
    else st1.ticketed p 0x0F (some w.id) [])))

/-! ## Attestation (R439, R440, R492) -/

def Component.slot (c : Component) (k : Nat) : Option FwSlot := if k = 0 then c.slot0 else c.slot1
def Component.runSlot (c : Component) : Option FwSlot := c.slot c.running
def Component.fallback (c : Component) : Option FwSlot := c.slot (1 - c.running)

/-- The valid slot with the later ACT_SEQ (R475). -/
def Component.newest (c : Component) : Nat :=
  match c.slot0, c.slot1 with
  | some a, some b => if a.seq != b.seq && serialGe b.seq a.seq then 1 else 0
  | none, some _ => 1
  | _, _ => 0

/-- A firmware component as it was last written or loaded: slot 0 holds the factory image until the slots are written (DESIGN CHOICE,
log entry 61). -/
def State.storedComponent (s : State) (i : Nat) : Component :=
  tget { slot0 := some ⟨0, 0, cryptoBytes 5 48 (leBytes 1 i), []⟩ } s.bu.comps i

/-- Does every admitted Onyx run the image of the newer slot of a staged component 3 (R491)? -/
def State.rolledOut (s : State) : Bool := s.bu.newer != 0 && (List.range 4).all (fun n => !s.admitted n || bit s.bu.newer n)

/-- A firmware component. The newer slot of component 3 becomes its running slot, and STATE IDLE, once every admitted Onyx runs it, be it
that a die loads it or that one which does not is admitted no longer (R491, R492). -/
def State.component (s : State) (i : Nat) : Component :=
  let c := s.storedComponent i
  if i = 3 ∧ c.state = 2 ∧ s.rolledOut then { c with state := 0, running := c.newest } else c

/-- STAGED of a component (R492). -/
def State.stagedFlag (s : State) (i : Nat) : Bool :=
  (s.component i).state == 2 ||
  (i == 3 && (s.component 3).loaded && (List.range 4).any (fun n => s.admitted n && !bit s.bu.newer n))

def slotDigest (o : Option FwSlot) : List Byte := match o with
  | some f => f.digest
  | none => List.replicate 48 0

def slotVersion (o : Option FwSlot) : Nat := match o with
  | some f => f.version
  | none => 0

/-- An entry of COMPONENTS. -/
def State.componentEntry (s : State) (i : Nat) : List Byte :=
  if i = 0 then leBytes 4 0 ++ cryptoBytes 5 4 [] ++ cryptoBytes 5 48 [0] ++ List.replicate 48 0
  else if 4 < i then List.replicate 104 0
  else
    let c := s.component i
    leBytes 1 i ++ leBytes 3 (b2n (s.stagedFlag i)) ++ leBytes 4 (slotVersion c.runSlot) ++ slotDigest c.runSlot ++ slotDigest c.fallback

/-- Is an Onyx, or one of its cores, in reset (R440)? -/
def State.resetting (s : State) (n : Nat) : Bool := match s.bu.reset with
  | some j => decide (j.level < 2) && j.node == n
  | none => false

/-- DIES of a node. -/
def State.dieByte (s : State) (n : Nat) : Nat :=
  if n < 4 then
    if s.resetting n then 3 else if s.admitted n then 0
    else if bit (s.get AGT_FAB_STATUS.LOST 0) n then 2 else if s.fenced n then 1 else 4
  else if n = 4 then 0
  else if s.stepDone 6 then 0 else 4

/-- Flags of a partition (R439, R441). -/
def State.partFlags (s : State) (q : Nat) : Nat :=
  b2n (s.prot q).isProt + 2 * s.get AGT_SCHED_PART_CFG.MODE q + 4 * b2n (s.prot q).clearing

/-- An entry of PARTITIONS. -/
def State.partEntry (s : State) (q : Nat) : List Byte :=
  let x := s.prot q
  leBytes 1 (s.partFlags q) ++ leBytes 1 (s.get AGT_SCHED_PART_CFG.RATE q) ++ leBytes 2 (s.get AGT_SCHED_PART_CFG.CHMASK q) ++
  leBytes 16 x.owner ++ (List.range 4).flatMap (fun n => leBytes 3 (lget 0 x.base n % 4096 + lget 0 x.size n % 4096 * 4096)) ++
  (List.range 4).flatMap (fun n => leBytes 2 (lget 0 x.ways n))

/-- A clear record (R433). -/
def ClearRec.toBytes (r : ClearRec) : List Byte :=
  leBytes 4 r.seq ++ leBytes 4 (r.part % 16 + r.outcome % 256 * 256) ++ leBytes 8 r.start ++ leBytes 8 r.stop ++ leBytes 16 r.owner ++
  leBytes 8 0

def State.copySeq (s : State) (k : Option Nat) : Nat :=
  match (match k with
    | some 0 => s.dic.copy0
    | some _ => s.dic.copy1
    | none => none) with
  | some c => c.seq
  | none => 0

/-- STATE is TRANSITIONAL (R440). -/
def State.transitional (s : State) : Bool :=
  [1, 2, 3, 4].any (fun i => s.stagedFlag i && slotDigest (s.component i).runSlot != slotDigest (s.component i).fallback) ||
  (List.range 4).any s.resetting || s.sec.prots.any (fun e => e.2.clearing)

/-- The report without its signature. -/
def State.reportBody (s : State) (nonce : Nat) : List Byte :=
  leBytes 4 0x41545354 ++ leBytes 2 1 ++ leBytes 1 (b2n s.transitional) ++ leBytes 1 (b2n s.sec.debugNow + 2 * b2n s.sec.retentionLost) ++
  leBytes 8 s.time.now ++ leBytes 48 nonce ++ leBytes 4 s.fuses.serial ++ leBytes 4 0 ++
  sha384 (cryptoBytes 2 48 (leBytes 4 s.fuses.serial)) ++
  [BitVec.ofNat 8 s.fuses.lifecycle, BitVec.ofNat 8 (b2n s.fuses.debugDisable), BitVec.ofNat 8 s.fuses.debugCount,
   BitVec.ofNat 8 (maskOf (s.fuses.cfgDigest.map (·.1)) + 16 * s.fuses.cfgRevoked), BitVec.ofNat 8 s.fuses.grade, 0, 0, 0] ++
  (List.range 8).flatMap s.componentEntry ++ (List.range 6).map (fun n => BitVec.ofNat 8 (s.dieByte n)) ++ [0, 0] ++
  (List.range 16).flatMap s.partEntry ++ sha384 (s.defects.1.entries.flatMap (leBytes 8)) ++
  leBytes 4 (s.copySeq s.dic.current) ++ leBytes 4 (s.copySeq (some 0)) ++ leBytes 4 (s.copySeq (some 1)) ++
  leBytes 4 (s.get AGT_FAB_STATUS.EPOCH 0) ++ leBytes 4 s.sec.clearsTotal ++ leBytes 4 0 ++
  (s.sec.clears.flatMap ClearRec.toBytes ++ List.replicate 768 0).take 768

/-- The signed report (R439). Log entry 102 (DEDUCED). -/
def State.report (s : State) (nonce : Nat) : List Byte :=
  let b := s.reportBody nonce
  b ++ cryptoBytes 3 96 (sha384 b)

/-! ## Tickets (R422) -/

/-- What the completion of a ticketed operation does: `ok` is what the silicon found (a signature, a tag, the source of a load). The
state, whether it succeeded, and its result; none while what it waits for is not done. -/
def State.ticketEffect (s : State) (t : Ticket) (ok : Bool) : Option (State × Bool × List Byte) :=
  let arg (i : Nat) : Nat := lget 0 t.args i
  match t.op with
  | 0x02 => some (s, true, s.report (arg 0))
  | 0x03 =>
    let d := s.draw
    if s.sec.debugNow then some (s, false, [])
    else some (d.2.setSec { d.2.sec with opening := some (arg 0, d.1) }, true, cryptoBytes 6 241 (leBytes 8 d.1))
  | 0x04 =>
    if !ok || s.sec.debugNow || 4 ≤ s.sec.sessions.length then some (s, false, [])
    else some (s.setSec { s.sec with
      nextSession := s.sec.nextSession + 1
      sessions := s.sec.sessions ++ [{ id := s.sec.nextSession, owner := arg 0, keys := arg 1, lastRequest := s.time.now }] }, true, [])
  | 0x07 => if (s.prot (arg 0)).clearing then none else some (s, true, [])
  | 0x08 =>
    if ok && !s.sec.debugNow && s.importOk (arg 0) (arg 1) (arg 2) (arg 3) then
      some (s.setSec { s.sec with
        nextKey := s.sec.nextKey + 1
        slots := tset s.sec.slots (arg 0) { part := arg 1, keyId := bits (arg 2) 64 64, key := s.sec.nextKey } }, true, [])
    else some (s, false, [])
  | 0x0A =>
    match tfind s.sec.slots (arg 0) with
    | some k =>
      if k.key ≠ arg 1 then some (s, false, [])
      else if ok && !s.loadSpoiled (arg 3) (arg 4) (arg 5) (arg 7) then some (s.loadChunks (arg 1) (arg 2) (arg 3) (arg 4) (arg 5) (arg 6) (arg 7) (arg 8), true, [])
      else some (s.spoilChunks (arg 6) (arg 7) (arg 8), false, [])
    | none => some (s, false, [])
  | 0x0D =>
    if !s.sec.prots.isEmpty then none
    else some ({ s with sec := { s.sec with debugNow := true }, fuses := { s.fuses with debugCount := s.fuses.debugCount + 1 } }, true, [])
  | 0x0E =>
    if !s.fuseOk (arg 0) (arg 1 == 1) (arg 3 == 1) then some (s, false, [])
    else if arg 1 = 1 then some ({ s with fuses := { s.fuses with cfgRevoked := setBit s.fuses.cfgRevoked (arg 0) true } }, true, [])
    else some ({ s with fuses := { s.fuses with cfgDigest := tset s.fuses.cfgDigest (arg 0) (arg 2) } }, true, [])
  | _ =>
    let s1 := s.writeDefects []
    some ({ s1 with bu := { s1.bu with fullNext := true } }, true, [])

/-- TICKET_OP_COMPLETE. -/
def execTicketOpComplete (id : Nat) (ok : Bool) (s : State) : Outcome State Fault Refusal := s.onClock <|
  match s.sec.tickets.find? (fun t => t.id == id && t.ended.isNone) with
  | none => .next s
  | some t =>
    match s.ticketEffect t ok with
    | none => .next s
    | some r => .next (r.1.setSec { r.1.sec with tickets := r.1.sec.tickets.map (fun u =>
        if u.id = id then { u with ended := some r.2.1, endTime := s.time.now, result := r.2.2 } else u) })

/-- TICKET_EXPIRE: 1 s after the operation completed. -/
def execTicketExpire (id : Nat) (s : State) : Outcome State Fault Refusal := s.onClock <|
  .next (s.setSec { s.sec with tickets := s.sec.tickets.filter (fun t =>
    !(t.id == id && t.ended.isSome && decide (t.endTime + 4000000000 ≤ s.time.now))) })

/-- COLLECT: on the port that holds the ticket. -/
def execCollect (p id : Nat) (s : State) : Outcome State Fault Refusal := s.onClock <|
  .next (s.mailbox p 0x0B (fun st =>
    match st.sec.tickets.find? (fun t => t.port == p && t.id % 2 ^ 32 == id) with
    | some t => if t.ended = some true then st.answer t.result else st.deny
    | none => st.deny))

end Sys2Proof.Machine
end

