-- ==== Sys2Proof/Machine/Bringup.lean ====
section
/-! DEFINITION. Chapter 20, first part: power domains, the AGT_BU command register, the start test, fuses, discovery and the
firmware loads (R22 to R27, R267, R446, R467 to R478). -/

namespace Sys2Proof.Machine

open Reg Host

def State.setBu (s : State) (b : BringUp) : State := { s with bu := b }

/-! ## Power domains (R22 to R27) -/

/-- The parent of a domain (R22). -/
def parentOf (d : Nat) : Option Nat :=
  if d < 32 then some (if d % 8 = 0 then 37 else if d % 8 < 4 then d / 8 * 8 else d / 8 * 8 + 2)
  else if d = 32 then none
  else lget (some 32) [some 32, some 32, some 32, some 32, some 32, some 39, some 32, some 41, some 32, some 36, some 42] (d - 33)

/-- Number of parents above a domain. -/
def depthOf (d : Nat) : Nat :=
  if d < 32 then (if d % 8 = 0 then 2 else if d % 8 < 4 then 3 else 4)
  else lget 0 [0, 1, 1, 1, 1, 1, 2, 1, 2, 1, 2, 3] (d - 32)

/-- The domains of a mask, parents before children. -/
def parentsFirst (m : Nat) : List Nat := (List.range 5).flatMap (fun k => (maskList 44 m).filter (fun d => depthOf d == k))

/-- Does a tile in flight read or write T2 of die `n` (R25)? A tile of FLUSH, EVICT, PREFETCH or WAYFLUSH moves data between T2 and T1. -/
def State.t2Moving (s : State) (n : Nat) : Bool :=
  s.flights.any (fun t => match s.cmd t.1 with
    | some x =>
      let f := xfer x.body
      let here (r : Run) : Bool := !r.t3 && nodeOf r.addr == n && isT2 r.addr
      (f.op == 0 && here (f.srcTile t.2.index)) || (f.tileDests t.2).any here ||
        ([2, 3, 5].contains f.op && here (f.dstTile t.2.index)) || (f.op == 6 && x.node == n)
    | none => false)

/-- Does a command run on an engine of a core? -/
def State.coreRuns (s : State) (n c : Nat) : Bool :=
  s.cmdList.any (fun x => x.phase == .running && x.node == n && x.inst != 12 && engineCore (instEngine x.inst) == c)

/-- Is a sector dirty in the T1 ways of `mask` on die `n`? -/
def State.dirtyIn (s : State) (n mask : Nat) : Bool :=
  s.t1.any (fun e => e.1 / 16384 == n && bit mask (e.1 / 1024 % 16) && e.2.dirty != 0)

/-- Is switching a domain off refused (R24, R25)? Log entry 97 (DEDUCED). -/
def State.offRefused (s : State) (d : Nat) : Bool :=
  let n := d / 8
  if d < 32 then
    if d % 8 = 0 then !s.fenced n
    else if d % 8 = 1 then s.dirtyIn n 0xFFFF || s.t2Moving n
    else if d % 8 = 2 then s.dirtyIn n 0xFF
    else if d % 8 = 3 then s.dirtyIn n 0xFF00
    else s.coreRuns n (d % 8 - 4)
  else if d = 32 then true
  else if d = 36 ∨ d = 42 then (List.range 32).any (fun c => s.rfxState c == 1)
  else if d = 40 ∨ d = 41 then s.guardedOn
  else false

/-- Forget memory from local offset `lo` on, `len` bytes, of a node. -/
def State.forget (s : State) (node lo len : Nat) : State :=
  let inside (a : Nat) : Bool := decide (glob node lo ≤ a) && decide (a < glob node lo + len)
  { s with mem := s.mem.filter (fun c => !inside c.1), poison := s.poison.filter (fun a => !inside a) }

/-- SW_CAP of a die takes the value that the loaded image holds for object 0x5800:(n + 1) (R102, R356). -/
def State.loadCap (s : State) (n : Nat) : State :=
  match s.imageValue 0x5800 (n + 1) with
  | some v => s.setO ONX_M_ISSUECAP.SW_CAP n 0 v
  | none => s

/-- What a core of a die loses in a reset, T0 and every register of its block (R480). -/
def State.loseCore (s : State) (n c : Nat) : State :=
  let s0 := (s.forget n (t0Base c) (t0Size c)).resetBlock n (1 + c)
  let s1 := if c = 0 then s0.loadCap n else s0
  let s2 : State := { s1 with sched := { s1.sched with
    held := s1.sched.held.filter (fun k => k % 16 != 4 * n + c)
    saved := s1.sched.saved.filter (fun k => k % 16 != 4 * n + c)
    switches := tdel s1.sched.switches (4 * n + c) } }
  if c = 0 then
    { s2 with kv := { s2.kv with
      owners := s2.kv.owners.filter (fun e => e.1 / 2 ^ 22 != n)
      zeroing := s2.kv.zeroing.filter (fun k => k / 16 != n)
      heldBias := s2.kv.heldBias.filter (fun h => h.1 != n) } }
  else if c = 1 then
    { s2 with seq := { s2.seq with
      streams := s2.seq.streams.filter (fun e => e.1 / 8 != n)
      queue := tdel s2.seq.queue n
      stepping := tdel s2.seq.stepping n
      heldGate := s2.seq.heldGate.filter (fun h => h.1 != n) } }
  else if c = 3 then { s2 with geo := s2.geo.filter (fun e => e.1 / 4 != n) }
  else s2

/-- Lose the T1 ways of a mask, and what they hold as a window. -/
def State.loseWays (s : State) (n mask : Nat) : State :=
  let s1 : State := { s with t1 := s.t1.filter (fun e => !(e.1 / 16384 == n && bit mask (e.1 / 1024 % 16))) }
  (maskList 16 mask).foldl (fun st w => st.forget n (0x1000000000 + w * 0x400000) 0x400000) s1

/-- Lose a die's T2: every byte of it reads as memory nothing has written, so that no entry holds a page of its pools (R147). -/
def State.loseT2 (s : State) (n : Nat) : State :=
  let inside (a : Nat) : Bool := decide (glob n 0 ≤ a) && decide (a < glob n 0x1000000000)
  { s with
    mem := s.mem.filter (fun c => !inside c.1), poison := s.poison.filter (fun a => !inside a)
    scrambled := tkeep (fun k => k / 256 != n) s.scrambled
    kv := { s.kv with owners := s.kv.owners.filter (fun e => e.1 / 2 ^ 22 != n) } }

/-- A domain goes off: all its contents are lost (R26), and what it holds takes its reset values (R8, R284). Log entry 129
(DEDUCED). -/
def State.loseDomain (s : State) (d : Nat) : State :=
  let n := d / 8
  if d < 32 then
    if d % 8 = 0 then [0, 5, 7, 8].foldl (fun st b => st.resetBlock n b) s
    else if d % 8 = 1 then (s.loseT2 n).resetBlock n 6
    else if d % 8 = 2 then s.loseWays n 0xFF
    else if d % 8 = 3 then s.loseWays n 0xFF00
    else s.loseCore n (d % 8 - 4)
  else if d = 33 then (s.hostGone none []).resetBlock 4 10
  else if d = 34 then { (s.resetBlock 4 8).resetBlock 4 9 with ecat := {} }
  else if d = 35 then { s.resetBlock 4 11 with ing := {} }
  else if d = 36 then s.resetReflex
  else if d = 39 then s.forget 4 0 0x200000000
  else if d = 40 then [0, 1, 2].foldl (fun st b => st.resetBlock 5 b) s
  else if d = 41 then s.forget 5 0 0x2000000
  else if d = 42 then s.resetBeryl
  else s

def State.setDom (s : State) (d : Nat) (v : DomState) : State := { s with pkg := { s.pkg with dom := tput .off s.pkg.dom d v } }

/-- A domain has come on: the clocks of a die are as fused, the pseudo-LRU bits of a T1 are 0, the registers of the reflex engine and of
Beryl are as at reset, with what the loaded image holds for them, and the diodes begin to be read (R67, R332, R356, R446, R459). -/
def State.domainUp (s : State) (d : Nat) : State :=
  let s0 := s.setDom d .on
  let s1 := if d = 36 then s0.resetReflex else if d = 42 then s0.resetBeryl else s0
  if d < 32 ∧ d % 8 = 0 then s1.loadClocks (d / 8)
  else if d < 32 ∧ (d % 8 = 2 ∨ d % 8 = 3) then { s1 with plru := s1.plru.filter (fun e => e.1 / 1024 != d / 8) }
  else if d = 42 then s1.setPwr { s1.pwr with diodeSeen := (List.range 40).foldl (fun t i => tset t i s.time.now) [] }
  else s1

/-- Begin to switch the next domain of the plan (R26, R27). -/
def State.switchNext (s : State) : State :=
  match s.pkg.switchPlan with
  | [] => s
  | d :: _ => if s.pkg.switchOn then s.setDom d .switchingOn else (s.loseDomain d).setDom d .switchingOff

/-- A request to switch the domains of a mask (R23 to R25, R472 step 1): the order of switching, or none where it is refused. -/
def State.switchPlanFor (s : State) (mask : Nat) (up : Bool) : Option (List Nat) :=
  let ds := parentsFirst mask
  if up then
    if ds.all (fun d => match parentOf d with
      | some p => s.domPowered p || bit mask p
      | none => true) then some (ds.filter (fun d => !s.domPowered d)) else none
  else
    let off := ds.filter s.domPowered
    let childOn (d : Nat) : Bool := (List.range 44).any (fun c => parentOf c == some d && s.domPowered c && !bit mask c)
    if bit mask 32 || off.any (fun d => childOn d || s.offRefused d) then none else some off.reverse

/-! ## The command register (R469, R470, R487) -/

/-- Settle the outcome of what runs; BU_STEP_COMPLETE shows it. -/
def State.buSettle (s : State) (st : Status) (result : Nat) : State :=
  match s.bu.run with
  | some r => s.setBu { s.bu with run := some { r with done := some (st, result) } }
  | none => s

/-- Begin a command or request. -/
def State.buBegin (s : State) (origin op arg : Nat) : State :=
  (s.setBu { s.bu with run := some { origin := origin, op := op, arg := arg } }).set AGT_BU_STAT.BUSY 0 1

/-- Does a write of AGT_BU_CMD arrive: over the sideband, which answers with VDD_AON, VDD_IO18 and REFCLK present (R468, R501)? -/
def State.buReached (s : State) : Bool := s.pkg.vddAon && s.pkg.vddIo18 && s.pkg.refclk && s.domPowered 32

def State.buErr (s : State) : State := s.set AGT_BU_STAT.CFG_ERR 0 1

/-- A write of AGT_BU_CMD: ignored with CFG_ERR while a command runs or the device is held in reset (R470, R482; for
TEST_MODE log entry 119). -/
def State.buWrite (s : State) (op arg : Nat) (act : State → State) : State :=
  if !s.buReached then s
  else if s.pkg.held || s.isSet AGT_BU_STAT.BUSY 0 then s.buErr
  else act (((s.set AGT_BU_CMD.OP 0 op).set AGT_BU_CMD.ARG 0 arg).buBegin 0 op arg)

/-- What has settled completes: BUSY falls where nothing waits, the status and the result show, and a step that is OK counts as done;
a command raises an in-band interrupt (R468, R469, R487). -/
def State.buFinish (s : State) : State :=
  match s.bu.run with
  | some r =>
    match r.done with
    | some (st, result) =>
      let s1 := (s.setBu { s.bu with run := none }).set AGT_BU_STAT.BUSY 0 (b2n (!s.bu.queue.isEmpty))
      if r.origin = 1 then s1.setObj 0 0x5C00 2 st.code
      else if r.origin = 2 then s1.setObj 0 0x5C02 2 st.code
      else
        let s2 := ((s1.set AGT_BU_STAT.STATUS 0 st.code).set AGT_BU_STAT.LAST_OP 0 r.op).set AGT_BU_RESULT.VALUE 0 result
        let s3 := if st = .ok ∧ 1 ≤ r.op ∧ r.op ≤ 10 then
          s2.set AGT_BU_STEPS.DONE 0 (setBit (s2.get AGT_BU_STEPS.DONE 0) (r.op - 1) true) else s2
        s3.emit .ibi
    | none => s
  | none => s

/-- BU_STEP_COMPLETE (R472): what runs has settled. Step 10 completes once the first frame has started (R395). -/
def execBuStepComplete (s : State) : Outcome State Fault Refusal := s.onClock <|
  match s.bu.run with
  | some r => .next (if r.op = 10 && r.done == some (.ok, 0) && !s.cmp.running then s else s.buFinish)
  | none => .next s

/-- May step `k` run (R471)? Log entry 94 (DEDUCED). -/
def State.stepMay (s : State) (k : Nat) : Bool :=
  bits (s.get AGT_BU_STEPS.DONE 0) 0 (k - 1) == 2 ^ (k - 1) - 1 && (k == 1 || k == 9 || !bit s.bu.ran k)

/-- Run a step whose order, reserved bits and preconditions are met; else it completes with BAD_DESCRIPTOR and does nothing. -/
def State.buStep (s : State) (k arg argBits : Nat) (pre : Bool) (act : State → State) : State :=
  s.buWrite k arg (fun st =>
    if !st.stepMay k || 2 ^ argBits ≤ arg || !pre then st.buSettle .badDescriptor 0
    else act (st.setBu { st.bu with ran := setBit st.bu.ran k true }))

/-! ## Steps 1 to 3 -/

/-- Execute a request to switch domains (R23 to R27). -/
def State.domainsAct (s : State) (mask : Nat) (up : Bool) : State :=
  match s.switchPlanFor mask up with
  | none => s.buSettle .badDescriptor 0
  | some [] => s.buSettle .ok 0
  | some l => ({ s with pkg := { s.pkg with switchPlan := l, switchOn := up } } : State).switchNext

/-- DOMAINS: ARG [43:0] MASK, [44] ON (R472 step 1). -/
def execDomains (arg : Nat) (s : State) : Outcome State Fault Refusal :=
  .next (s.buStep 1 arg 45 true (fun st => st.domainsAct (bits arg 0 44) (bit arg 44)))

/-- DOMAIN_SWITCH_DONE (R27): the domain that switches is on or off, and the next begins. -/
def execDomainSwitchDone (s : State) : Outcome State Fault Refusal := s.onClock <|
  match s.pkg.switchPlan with
  | [] => .next s
  | d :: rest =>
    let s1 := if s.pkg.switchOn then s.domainUp d else s.setDom d .off
    let s2 : State := { s1 with pkg := { s1.pkg with switchPlan := rest } }
    .next (if rest.isEmpty then s2.buSettle .ok 0 else s2.switchNext)

/-- ROOT_PLL (R448, R472 step 2): `locks` within three attempts. -/
def execRootPll (arg : Nat) (locks : Bool) (s : State) : Outcome State Fault Refusal :=
  .next (s.buStep 2 arg 0 true (fun st =>
    if locks then (st.set AGT_PWR_CLKSTAT.ROOT_LOCK 0 1).buSettle .ok 0
    else (st.set AGT_PWR_CLKSTAT.ROOT_FAIL 0 1).buSettle .lowerTierTimeout 0))

/-- FUSE_LOAD (R472 step 3): `agateOk` says that Agate's fuses pass their code, `bad` names the Onyx dies whose fuses do not. -/
def execFuseLoad (arg : Nat) (agateOk : Bool) (bad : Nat) (s : State) : Outcome State Fault Refusal :=
  .next (s.buStep 3 arg 0 true (fun st =>
    let here := (List.range 4).filter (fun n => st.domPowered (8 * n))
    let failed := maskOf (here.filter (bit bad))
    let s1 := (here.filter (fun n => !bit bad n)).foldl (fun u n => u.loadClocks n) st
    (s1.setBu { s1.bu with failed := s1.bu.failed ||| failed }).buSettle (if agateOk then .ok else .tileUncorrectable) failed))

/-! ## The start test and FMAX (R446, R473, R474, R477) -/

/-- The regions of a node that logic BIST covers (R484). -/
def regionsOf (n : Nat) : List Nat :=
  if n < 4 then [8 * n, 8 * n + 1, 8 * n + 4, 8 * n + 5, 8 * n + 6, 8 * n + 7]
  else if n = 4 then [33, 34, 35, 36, 37, 38] else [40]

/-- Is a node tested QUICK (R473, R478)? -/
def State.quickNode (s : State) (quick : Bool) (n : Nat) : Bool :=
  quick && s.isSet AGT_BU_RETPASS.SEALED 0 && !s.bu.defectLost && !s.bu.fullNext &&
  (regionsOf n).all (fun d => bit (s.get AGT_BU_RETRUN.RUN 0) d && bit (s.get AGT_BU_RETPASS.PASS 0) d)

/-- NODE and KIND of a defect entry (R477). -/
def entryNode (e : Nat) : Nat := bits e 0 4
def entryKind (e : Nat) : Nat := bits e 8 2

/-- Test nodes (R473, R474): the defect list grows by what is found, and object 0x5C10 shows the outcome. Answers the nodes that
passed and whether the list could be stored. -/
def State.testNodes (s : State) (nodes : List Nat) (r : TestResult) : State × Nat × Bool :=
  let found := (r.found.filter (fun e => nodes.contains (entryNode e))).map (fun e => bits e 0 48 + s.bu.resets % 2 ^ 16 * 2 ^ 48)
  let old := s.defects.1.entries
  let stored := found.isEmpty || (r.stored && decide ((old ++ found).length ≤ 4096))
  let s1 := if found.isEmpty || !stored then s else s.writeDefects (old ++ found)
  let pass (n : Nat) : Bool := !bit r.bad n && !(n < 4 && bit s.bu.failed n) && (old ++ found).all (fun e => !(entryNode e == n && entryKind e == 2))
  let s2 := nodes.foldl (fun st n => st.setObj 0 0x5C10 (n + 1)
    (if !pass n then 3 else if found.any (fun e => entryNode e == n) then 2 else 1)) s1
  let passed := maskOf (nodes.filter pass)
  let failed := maskOf (nodes.filter (fun n => decide (n < 4) && !pass n))
  (s2.setBu { s2.bu with
    passed := (s2.bu.passed ||| maskOf nodes) ^^^ maskOf nodes ||| passed
    failed := s2.bu.failed ||| failed }, passed, stored)

/-- START_TEST: ARG [5:0] NODES, [6] QUICK (R472 step 4, R473, R474). -/
def execStartTest (arg : Nat) (r : TestResult) (s : State) : Outcome State Fault Refusal :=
  let nodes := maskList 6 (bits arg 0 6)
  let pre := nodes.all (fun n => if n < 4 then (List.range 8).all (fun i => s.domPowered (8 * n + i))
    else if n = 4 then s.domPowered 39 else s.domPowered 40 && s.domPowered 41)
  .next (s.buStep 4 arg 7 pre (fun st =>
    let lost := st.bu.defects0.isNone && st.bu.defects1.isNone
    let s1 := st.setBu { st.bu with defectLost := lost }
    let quick := maskOf (nodes.filter (s1.quickNode (bit arg 6)))
    let q := s1.testNodes nodes r
    let grown := maskOf (nodes.filter (fun n => r.found.any (fun e => entryNode e == n)))
    let result := q.2.1 + 2 ^ 8 * grown + 2 ^ 16 * quick + 2 ^ 24 * b2n lost
    let s2 := (q.1.setBu { q.1.bu with fullNext := false }).set AGT_BU_RETPASS.SEALED 0 0
    s2.buSettle (if !q.2.2 || (nodes.contains 4 && !bit q.2.1 4) then .tileUncorrectable else .ok) result))

/-- Run the critical-path tests of a die (R446): LOWERED bits are blown down to the ratio that passes. Answers whether every core passed
and the bits blown. -/
def State.fmaxDie (s : State) (n : Nat) (speeds : List Nat) : State × Bool × Nat :=
  let one (acc : State × Bool × Nat) (c : Nat) : State × Bool × Nat :=
    let i := 4 * n + c
    let goal := lget 0 speeds i
    let st := acc.1
    let down := st.kFused n c - max 1 (min goal (st.kFused n c))
    let low := tget 0 st.fuses.lowered i
    let bitsNow := ((List.range 16).filter (bit low)).length
    ({ st with fuses := { st.fuses with lowered := tput 0 st.fuses.lowered i (2 ^ (bitsNow + down) - 1) } },
     acc.2.1 && goal != 0, acc.2.2 + down)
  let r := (List.range 4).foldl one (s, true, 0)
  (r.1.loadClocks n, r.2)

/-- FMAX (R446, R472 step 5). -/
def execFmax (arg : Nat) (r : TestResult) (s : State) : Outcome State Fault Refusal :=
  .next (s.buStep 5 arg 0 true (fun st =>
    let dies := (List.range 4).filter (bit st.bu.passed)
    let q := dies.foldl (fun (a : State × Nat × Nat) n =>
      let f := a.1.fmaxDie n r.speeds
      (f.1, (if f.2.1 then a.2.1 else setBit a.2.1 n true), a.2.2 + f.2.2)) (st, 0, 0)
    let s1 := q.1.setBu { q.1.bu with
      failed := q.1.bu.failed ||| q.2.1, passed := maskOf ((maskList 6 q.1.bu.passed).filter (fun n => !bit q.2.1 n)) }
    s1.buSettle .ok (q.2.1 + 2 ^ 32 * (q.2.2 % 256))))

/-! ## Step 6: discovery (R267, R268) -/

/-- DISCOVER: the links that train, those of them at half width, and the nodes (0 to 3 and 5) whose NODEINFO is as it must be. -/
def execDiscover (arg trained half info : Nat) (s : State) : Outcome State Fault Refusal :=
  .next (s.buStep 6 arg 0 (s.domPowered 37 && s.domPowered 40 && s.domPowered 41) (fun st =>
    let up (l : Nat) (u : State) : State := u.setLink l (if bit half l then 2 else 1) (bit half l)
    if !bit trained 8 || !bit info 5 || !bit st.bu.passed 5 then st.buSettle .nodeLost 0 else
      let here := (List.range 4).filter (fun n => st.domPowered (8 * n))
      let found := here.filter (fun n => bit trained (4 + n) && bit info n)
      let s1 := found.foldl (fun u n => up (4 + n) u) (up 8 st)
      let rings := (List.range 4).filter (fun l => bit trained l && found.contains l && found.contains ((l + 1) % 4))
      let s2 := rings.foldl (fun u l => up l u) s1
      let passed := found.filter (bit st.bu.passed)
      let s3 := (s2.set AGT_FAB_STATUS.ADMITTED 0 (maskOf passed)).set AGT_FAB_STATUS.FENCED 0
        (maskOf (here.filter (fun n => !passed.contains n)))
      let s4 := s3.set AGT_FAB_STATUS.EPOCH 0 1
      let s5 : State := { s4 with fabric := { s4.fabric with
        table := s4.buildTable 1
        lastAnswer := passed.foldl (fun t n => tset t n s4.time.now) [] } }
      s5.buSettle .ok (maskOf passed)))

/-! ## Step 7: firmware (R475, R491) -/

def State.setComponent (s : State) (i : Nat) (c : Component) : State := s.setBu { s.bu with comps := tset s.bu.comps i c }

def Component.setSlot (c : Component) (k : Nat) (f : Option FwSlot) : Component :=
  if k = 0 then { c with slot0 := f } else { c with slot1 := f }

/-- Load a component (R475, R491): the slot with the later ACT_SEQ that verifies. A slot that does not verify is no valid slot from then
on; if it was the staged one, the newer that is not the running one, STATE becomes FAILED, also where a reset has made it IDLE meanwhile.
Answers the component, and the slot loaded with whether it was the fallback. -/
def Component.load (c : Component) (i unverified : Nat) : Component × Option (Nat × Bool) :=
  let bad (k : Nat) : Bool := bit unverified (2 * (i - 1) + k)
  let first := c.newest
  if (c.slot first).isNone then (c, none)
  else if !bad first then (c, some (first, false))
  else
    let c1 := { c.setSlot first none with state := if c.state = 2 ∨ c.state = 3 ∨ first ≠ c.running then 4 else c.state }
    if (c.slot (1 - first)).isSome && !bad (1 - first) then (c1, some (1 - first, true)) else (c1.setSlot (1 - first) none, none)

/-- The slot loaded becomes the running one, and a staged image is IDLE (R491). -/
def Component.ran (c : Component) (k : Nat) : Component :=
  { c with running := k, loaded := true, state := if (c.state = 2 ∨ c.state = 3) ∧ k ≠ c.running then 0 else c.state }

/-- Load component 3 on a die, and see whether the rollout is complete (R491). -/
def State.loadOnyx (s : State) (n unverified : Nat) : State :=
  let c := s.component 3
  let r := c.load 3 unverified
  match r.2 with
  | none => s.setComponent 3 r.1
  | some (k, _) =>
    let s1 := s.setComponent 3 { r.1 with loaded := true }
    let s2 := s1.setBu { s1.bu with newer := setBit s1.bu.newer n (k == r.1.newest) }
    if r.1.state = 2 && (List.range 4).all (fun m => !(s2.admitted m || m == n) || bit s2.bu.newer m) then s2.setComponent 3 (r.1.ran k)
    else s2

/-- Load a component at step 7. The flag says that a slot verified, the mask which components took the fallback slot. -/
def State.loadStep (unverified : Nat) (acc : State × Bool × Nat) (i : Nat) : State × Bool × Nat :=
  let s := acc.1
  let r := (s.component i).load i unverified
  match r.2 with
  | none => (s.setComponent i { r.1 with loaded := false }, false, acc.2.2)
  | some (k, fb) =>
    let s1 := s.setComponent i (r.1.ran k)
    let s2 := if i = 3 then s1.setBu { s1.bu with newer := if k = r.1.newest then maskOf ((List.range 4).filter (fun n => s.domPowered (8 * n))) else 0 }
      else if i = 4 then s1.setPwr { s1.pwr with scarabHalted := false } else s1
    (s2, acc.2.1, if fb then setBit acc.2.2 (i - 1) true else acc.2.2)

/-- FW_LOAD (R472 step 7): `unverified` names the slots that do not verify. -/
def execFwLoad (arg unverified : Nat) (s : State) : Outcome State Fault Refusal :=
  .next (s.buStep 7 arg 0 (s.domPowered 38 && s.domPowered 40 && s.domPowered 41) (fun st =>
    let r := [1, 2, 3, 4].foldl (State.loadStep unverified) (st, true, 0)
    r.1.buSettle (if r.2.1 then .ok else .badLayout) r.2.2))

/-! ## Steps 9 and 10 (R395, R408, R409) -/

/-- What the injected errors count where their test passes (R70, R83, R263, R408): under ECC one corrected error in T1 and T2 of each
admitted Onyx and one uncorrectable error in T2, under FABRIC_CRC a packet on each UP link. Log entry 120 (DEDUCED). -/
def State.injectCounts (s : State) (pass : Nat) : State :=
  let s1 := if bit pass 1 then ((List.range 4).filter s.admitted).foldl (fun st n =>
    let s1 := (st.countO ONX_T1_ECCCNT.CORRECTED n 0 1).setObj 0 0x3401 (n + 1) (satAdd 32 (st.obj 0 0x3401 (n + 1)) 1)
    s1.setObj 0 0x3402 (n + 1) (satAdd 32 (s1.obj 0 0x3402 (n + 1)) 1)) s else s
  if bit pass 4 then ((List.range 9).filter (fun l => s.linkState l != 0)).foldl (fun st l => st.countPacket l true) s1 else s1

/-- INJECT (R408, R472 step 9): `pass` holds the verdicts. Log entry 120 (DEDUCED). -/
def execInject (arg pass : Nat) (s : State) : Outcome State Fault Refusal :=
  .next (s.buStep 9 arg 0 (!s.guardedOn) (fun st =>
    (((st.injectCounts pass).set AGT_CMP_INJ.PASS 0 pass).set AGT_CMP_INJ.DONE 0 1).buSettle .ok (pass % 64)))

/-- OUTPUT_ENABLE (R395, R409, R472 step 10). -/
def execOutputEnable (arg : Nat) (s : State) : Outcome State Fault Refusal :=
  .next (s.buStep 10 arg 0 s.enableOk (fun st => st.enableGuarded.buSettle .ok 0))

end Sys2Proof.Machine
end

