-- ==== Sys2Proof/Machine/Reset.lean ====
section
/-! DEFINITION. Chapter 20, second part: partial resets, the package reset, shutdown and its abort, requests of objects 0x5C00 and
0x5C02, and the supplies and pins that start and stop the package (R1, R24, R444, R467, R479 to R487, R499, R501). -/

namespace Sys2Proof.Machine

open Reg Host

/-! ## Core and die resets (R479 to R481) -/

/-- Fields of RESET's ARG (R479). -/
def rstMode (a : Nat) : Nat := bits a 2 2
def rstNode (a : Nat) : Nat := bits a 4 4
def rstCore (a : Nat) : Nat := bits a 8 3
def rstPart (a : Nat) : Nat := bits a 12 4

/-- Does ARG keep to R479 for its level: no reserved bit or value, and 0 in the fields that the level does not use? -/
def rstArgOk (a : Nat) : Bool :=
  let level := a % 4
  !bit a 11 && decide (a < 2 ^ 16) && rstMode a != 3 &&
  (decide (level < 2) && decide (rstNode a < 4) || rstNode a == 0) &&
  (level == 0 && decide (rstCore a < 4) || rstCore a == 0) && (level == 2 || rstPart a == 0) &&
  !(level == 3 && rstMode a == 1)

/-- Is a tile in flight read from or written to the T0 of a core (R480)? -/
def State.tileAtCore (s : State) (n c : Nat) (t : Nat × TileFlight) : Bool :=
  match s.cmd t.1 with
  | some x =>
    let f := xfer x.body
    let here (r : Run) : Bool := !r.t3 && nodeOf r.addr == n && region n (localOf r.addr) == some (.t0 c)
    (f.op == 0 && here (f.srcTile t.2.index)) || (f.tileDests t.2).any here
  | none => false

/-- Does work that a core reset waits for remain (R479)? -/
def State.coreBusy (s : State) (n c : Nat) : Bool := s.coreRuns n c || s.flights.any (s.tileAtCore n c)

/-- Poison the destination sectors outside the core that a running command has not delivered (R480). -/
def State.poisonRest (s : State) (n c : Nat) (got : List Nat) (x : Cmd) : State :=
  match s.planOf n x.inst x with
  | .plan p => s.poisonAll (p.dests.filter (fun a => !got.contains a && region n (localOf a) != some (.t0 c)))
  | .refused _ => s

/-- Absorb the work of a core (R480): running commands complete with PREEMPTED, and tiles to or from its T0 end with it. -/
def State.absorbCore (s : State) (n c : Nat) (got : List Nat) : State :=
  let s1 := (s.flights.filter (s.tileAtCore n c)).foldl (fun st t =>
    st.endCut (fun d => d.t3 || nodeOf d.addr != n || region n (localOf d.addr) != some (.t0 c)) .preempted got t) s
  let run := s1.cmdList.filter (fun x => x.phase == .running && x.node == n && x.inst != 12 && engineCore (instEngine x.inst) == c)
  (run.foldl (fun st x => (st.poisonRest n c got x).completeOne x .preempted (s1.endedResult x) n) s1).settleWaits (s.sched.order.length + 1)

/-- Commands accepted and not started, or stopped, that name the core complete with PREEMPTED at the boundary (R479, R480). -/
def State.preemptNamed (s : State) (n c : Nat) : State :=
  let named := s.cmdList.filter (fun x => (x.phase == .waiting || x.phase == .stopped) && s.cmdNode x == n && (s.coresNamed x).contains c)
  (named.foldl (fun st x => st.completeOne x .preempted x.result (if x.phase == .waiting then 0xF else x.node)) s).settleWaits
    (s.sched.order.length + 1)

def State.setReset (s : State) (j : Option ResetJob) : State := s.setBu { s.bu with reset := j }

/-- Begin a core reset (R480, R481). -/
def State.coreReset (s : State) (a : Nat) (got : List Nat) : State :=
  let n := rstNode a
  let c := rstCore a
  if !rstArgOk a || s.bu.shut.isSome || (s.admitted n && !s.domOn (8 * n + 4 + c)) then s.buSettle .badDescriptor 0
  else if !s.admitted n then s.buSettle .nodeLost 0
  else
    let drain := rstMode a != 2
    let s1 := s.setReset (some { level := 0, node := n, core := c, draining := drain, start := s.time.now })
    if drain then s1 else s1.absorbCore n c got

/-- Begin a die reset (R480). Log entry 96 (DEDUCED). -/
def State.dieReset (s : State) (a : Nat) (got : List Nat) : State :=
  let n := rstNode a
  if !rstArgOk a || s.bu.shut.isSome || !s.domPowered 37 then s.buSettle .badDescriptor 0
  else
    let drain := rstMode a != 2 && s.admitted n
    let s1 := s.setReset (some { level := 1, node := n, draining := drain, start := s.time.now })
    if drain || !s.admitted n then s1 else s1.fence n 0 got

/-! ## Partition resets -/

def State.partContexts (s : State) (q : Nat) : List Nat := (List.range 512).filter (fun c => s.ctxPart c == q && s.ctxState c != 0)

/-- End the contexts of a partition, a protected one released (R430, R480). -/
def State.endPart (s : State) (q : Nat) : State :=
  (s.partContexts q).foldl (fun st c => st.abortCtx c) (s.releasePart q)

/-- Begin a partition reset (R480). -/
def State.partReset (s : State) (a : Nat) : State :=
  let q := rstPart a
  if !rstArgOk a || s.bu.shut.isSome then s.buSettle .badDescriptor 0 else
    let drain := rstMode a == 1
    let s1 := s.setReset (some { level := 2, part := q, draining := drain, start := s.time.now })
    if drain then (s.partContexts q).foldl (fun st c => st.haltCtx c) s1 else s1.endPart q

/-! ## Package reset (R432, R482) -/

/-- Keep what a package reset keeps (R338, R482): package time and RATE, within RATE_MAX (R337), retention, flash and fuses, and the supplies; clearing of
protected ranges is owed (R430 step 1, R432). Log entry 98 (DEDUCED). -/
def State.packageReset (s : State) : State :=
  let keep (f : Fld) (t : State) : State := t.set f 0 (s.get f 0)
  let r : State := { State.reset with
    pending := s.pending, freeCount := s.freeCount, hostMem := s.hostMem, out := s.out, fuses := s.fuses
    pkg := { vddAon := s.pkg.vddAon, vddIo18 := s.pkg.vddIo18, refclk := s.pkg.refclk, resetNLow := s.pkg.resetNLow,
             testMode := s.pkg.testMode, dom := [(32, .on)] }
    time := { now := s.time.now, frac := s.time.frac, ticks := s.time.ticks }
    sec := {
      prots := s.sec.prots.map (fun e => (e.1, { e.2 with
        keys := none, clearing := true, filling := false, start := if e.2.clearing then e.2.start else s.time.now }))
      deferrals := s.sec.deferrals, clearsTotal := s.sec.clearsTotal, clears := s.sec.clears, nextKey := s.sec.nextKey }
    dic := { copy0 := s.dic.copy0, copy1 := s.dic.copy1 }
    bu := { resets := s.bu.resets + 1, defects0 := s.bu.defects0, defects1 := s.bu.defects1, fullNext := s.bu.fullNext
            comps := s.bu.comps.map (fun e => (e.1, { s.component e.1 with loaded := false, state := 0, writing := none })) } }
  ([AGT_TIME_RATE.RATE, AGT_BU_STAT.RESET_N_LOW, AGT_BU_RETPASS.PASS, AGT_BU_RETPASS.SEALED, AGT_BU_RETRUN.RUN].foldl (fun t f => keep f t) r).boundRate

/-- Begin a RESET of any level. -/
def State.resetAct (s : State) (a : Nat) (got : List Nat) : State :=
  if a % 4 = 0 then s.coreReset a got
  else if a % 4 = 1 then s.dieReset a got
  else if a % 4 = 2 then s.partReset a
  else if rstArgOk a then s.packageReset else s.buSettle .badDescriptor 0

/-- The ARG of a RESET with its LEVEL put in. -/
def withLevel (level a : Nat) : Nat := a / 4 * 4 + level

/-- CORE_RESET: RESET with LEVEL 0; `got` names the sectors delivered of what it absorbs. -/
def execCoreReset (arg : Nat) (got : List Nat) (s : State) : Outcome State Fault Refusal :=
  .next (s.buWrite 0x10 (withLevel 0 arg) (fun st => st.resetAct (withLevel 0 arg) got))

/-- DIE_RESET: RESET with LEVEL 1. -/
def execDieReset (arg : Nat) (got : List Nat) (s : State) : Outcome State Fault Refusal :=
  .next (s.buWrite 0x10 (withLevel 1 arg) (fun st => st.resetAct (withLevel 1 arg) got))

/-- PARTITION_RESET: RESET with LEVEL 2. -/
def execPartitionReset (arg : Nat) (s : State) : Outcome State Fault Refusal :=
  .next (s.buWrite 0x10 (withLevel 2 arg) (fun st => st.resetAct (withLevel 2 arg) []))

/-- PACKAGE_RESET: RESET with LEVEL 3. -/
def execPackageReset (arg : Nat) (s : State) : Outcome State Fault Refusal :=
  .next (s.buWrite 0x10 (withLevel 3 arg) (fun st => st.resetAct (withLevel 3 arg) []))

/-! ## The course of a reset -/

/-- The bound of a drain in units of package time (R479, R480). -/
def State.drainBound (s : State) (level : Nat) : Nat :=
  if level = 0 then 4000 * s.obj 1000 0x5C01 1 else if level = 1 then 4000 * s.obj 1000 0x3800 3 else 4000 * s.obj 10000 0x5C01 2

/-- RESET_DRAIN_TIMEOUT (R479): what remains at the bound is absorbed. -/
def execResetDrainTimeout (got : List Nat) (s : State) : Outcome State Fault Refusal := s.onClock <|
  match s.bu.reset with
  | none => .next s
  | some j =>
    if !j.draining || decide (s.time.now < j.start + s.drainBound j.level) then .next s else
      let s1 := s.setReset (some { j with draining := false })
      .next (if j.level = 0 then (if s1.admitted j.node then s1.absorbCore j.node j.core got else s1)
        else if j.level = 1 then (if s1.admitted j.node then s1.fence j.node 0 got else s1)
        else s1.endPart j.part)

/-- A cycled die, with what its tests gave: one that passed is loaded, and is fenced ready to be re-admitted (R473, R475). -/
def State.dieTested (s : State) (n : Nat) (ok : Bool) (unverified : Nat) : State :=
  let s1 := s.setBu { s.bu with passed := setBit s.bu.passed n ok, failed := setBit s.bu.failed n (!ok) }
  if ok then
    let s2 := s1.loadOnyx n unverified
    if s2.fenced n then { s2 with fabric := { s2.fabric with restored := sinsert s2.fabric.restored n } } else s2
  else s1

/-- The domains of a die, off and on again. -/
def State.powerCycle (s : State) (n : Nat) : State :=
  let all := (List.range 8).map (8 * n + ·)
  let s1 := all.reverse.foldl (fun st d => st.loseDomain d) s
  let s2 := all.foldl (fun st d => st.domainUp d) s1
  s2.setBu { s2.bu with failed := setBit s2.bu.failed n false }

/-- The domains of a fenced die are cycled, and it is tested and loaded (R473, R446, R475, R480): RESULT [5:0] as of step 4. -/
def State.cycleDie (s : State) (n : Nat) (r : TestResult) : State × Nat :=
  let q := (s.powerCycle n).testNodes [n] r
  let f := q.1.fmaxDie n r.speeds
  let ok := bit q.2.1 n && f.2.1
  (f.1.dieTested n ok r.unverified, if ok then 2 ^ n else 0)

/-- A reset is over: its command or request completes. -/
def State.resetEnds (s : State) (st : Status) (result : Nat) : State := ((s.setReset none).buSettle st result).buFinish

/-- Requests for a reset of a core of die `n` that arrived while the die was reset complete with it, and take no action (R481). -/
def State.coverQueued (s : State) (n : Nat) : State :=
  let covered (e : Nat × Nat) : Bool := e.1 == 2 && e.2 % 4 == 0 && rstArgOk e.2 && rstNode e.2 == n
  if s.bu.queue.any covered then
    (s.setBu { s.bu with queue := s.bu.queue.filter (fun e => !covered e) }).setObj 0 0x5C02 2 (Status.code .ok)
  else s

/-- RESET_COMPLETE (R480, R481): the unit is back in service, fenced or DISABLED. -/
def execResetComplete (r : TestResult) (s : State) : Outcome State Fault Refusal := s.onClock <|
  match s.bu.reset with
  | none => .next s
  | some j =>
    if j.level = 0 then
      if !s.admitted j.node then .next (s.resetEnds .nodeLost 0)
      else if j.draining && s.coreBusy j.node j.core then .next s
      else
        let s1 := s.preemptNamed j.node j.core
        .next (((if j.core = 1 then s1.drainStep j.node else s1).loseCore j.node j.core).resetEnds .ok 0)
    else if j.level = 1 then
      if j.draining && s.admitted j.node && s.dieBusy j.node then .next s
      else
        let s1 := if s.admitted j.node then s.fence j.node 0 [] else s
        let q := s1.cycleDie j.node r
        .next ((q.1.coverQueued j.node).resetEnds .ok q.2)
    else if j.draining && (s.partContexts j.part).any (fun c => s.get AGT_SCHED_CTX_STAT.OUTSTANDING c != 0) then .next s
    else
      let s1 := if j.draining then (s.endPart j.part).setReset (some { j with draining := false }) else s
      .next (if (s1.partContexts j.part).isEmpty then s1.resetEnds .ok 0 else s1)

/-! ## Requests of objects 0x5C00 and 0x5C02 (R470, R487) -/

/-- Begin a request: origin 1 a domain request, 2 a reset request. -/
def State.startRequest (s : State) (origin v : Nat) (got : List Nat) : State :=
  if origin = 1 then
    let s1 := s.buBegin 1 1 v
    if bits v 6 2 ≠ 0 ∨ 2 ^ 9 ≤ v ∨ 44 ≤ v % 64 then s1.buSettle .badDescriptor 0 else s1.domainsAct (2 ^ (v % 64)) (bit v 8)
  else (s.buBegin 2 0x10 v).resetAct v got

/-- A request that its dictionary write has won: it starts, waits behind what runs, or, where four wait, completes with QUEUE_FULL. A
reset request of LEVEL 3 is refused (R487). Log entry 95 (DEDUCED). -/
def State.queueRequest (s : State) (origin v : Nat) : State × Status :=
  if origin = 2 ∧ v % 4 = 3 then (s, .badDescriptor)
  else if s.isSet AGT_BU_STAT.BUSY 0 then
    if 4 ≤ s.bu.queue.length then (s, .queueFull) else (s.setBu { s.bu with queue := s.bu.queue ++ [(origin, v)] }, .ok)
  else (s.startRequest origin v [], .ok)

/-- Do the roles of an interface include MAINT or HOST (R357)? -/
def Src.maintOrHost (src : Src) : Bool := src == .sideband || src == .pf1

/-- DOMAIN_REQUEST: a write to object 0x5C00:0x01 that won its slot (R487). -/
def execDomainRequest (src : Src) (val : Nat) (s : State) : Outcome State Fault Refusal := s.onClock <|
  .next (if Src.maintOrHost src then (s.queueRequest 1 (val % 2 ^ 16)).1 else s.denyWrite src)

/-- RESET_REQUEST: a write to object 0x5C02:0x01 that won its slot (R487). -/
def execResetRequest (src : Src) (val : Nat) (s : State) : Outcome State Fault Refusal := s.onClock <|
  .next (if Src.maintOrHost src then (s.queueRequest 2 (val % 2 ^ 32)).1 else s.denyWrite src)

/-- BU_QUEUED_REQUEST_START (R470). -/
def execBuQueuedRequestStart (got : List Nat) (s : State) : Outcome State Fault Refusal := s.onClock <|
  match s.bu.run, s.bu.queue with
  | none, (o, v) :: rest => .next ((s.setBu { s.bu with queue := rest }).startRequest o v got)
  | _, _ => .next s

/-! ## Shutdown (R483 to R486) -/

def State.setShut (s : State) (j : Option ShutJob) : State := s.setBu { s.bu with shut := j }

/-- May a domain be named in REGIONS (R483, R484)? -/
def State.regionOk (s : State) (d : Nat) : Bool :=
  s.domPowered d && (if d < 32 then s.admitted (d / 8) && d % 8 != 2 && d % 8 != 3 else decide (33 ≤ d) && (decide (d ≤ 38) || d == 40))

/-- SHUTDOWN: ARG [43:0] REGIONS, [44] PWROFF (R483). -/
def execShutdown (arg : Nat) (s : State) : Outcome State Fault Refusal :=
  .next (s.buWrite 0x11 arg (fun st =>
    let ds := maskList 44 (bits arg 0 44)
    if 2 ^ 45 ≤ arg || !ds.all st.regionOk then st.buSettle .badDescriptor 0 else
      let s1 := (List.range 32).foldl (fun u c => u.rfxDisarm c) (st.latchSafe 4)
      let s2 := (List.range 512).foldl (fun u c => u.haltCtx c) s1
      ((s2.set AGT_BU_SHUT.PHASE 0 1).set AGT_BU_SHUT.ABORTED 0 0).setShut
        (some { plan := ds, pwroff := bit arg 44, start := st.time.now })))

/-- The orders in which regions are tested (R484). -/
def onyxOrder : List Nat := [1, 4, 5, 6, 7, 0]
def hubOrder : List Nat := [33, 34, 35, 36, 38, 40, 37]

/-- The next regions to test: one of each die, then those of Agate and Scarab one by one. -/
def ShutJob.next (j : ShutJob) : List Nat :=
  let die (n : Nat) : List Nat :=
    if j.testing.any (fun d => d / 8 == n && decide (d < 32)) then []
    else ((onyxOrder.map (8 * n + ·)).filter j.plan.contains).take 1
  let onyx := (List.range 4).flatMap die
  if !onyx.isEmpty then onyx
  else if j.testing.isEmpty then (hubOrder.filter j.plan.contains).take 1 else []

/-- REGION shows a region under test: the one of the lowest ID where several are (DESIGN CHOICE, log entry 62). -/
def State.showRegion (s : State) : State :=
  match s.bu.shut with
  | some j => s.set AGT_BU_SHUT.REGION 0 ((List.range 44).find? j.testing.contains |>.getD 0)
  | none => s.set AGT_BU_SHUT.REGION 0 0

/-- The commit point (R483): the record goes to retention. -/
def State.sealShut (s : State) (j : ShutJob) : State :=
  (((s.set AGT_BU_RETPASS.PASS 0 j.pass).set AGT_BU_RETRUN.RUN 0 j.run).set AGT_BU_RETPASS.SEALED 0 1).set AGT_BU_SHUT.PHASE 0 3

/-- Start the regions that come next; where none is left, the shutdown is sealed. Region 33 brings the link down (R376, R484). -/
def State.bistNext (s : State) (j : ShutJob) : State :=
  let l := j.next
  let j1 := { j with plan := j.plan.filter (fun d => !l.contains d), testing := j.testing ++ l }
  if l.isEmpty && j.testing.isEmpty then ((s.setShut (some j)).sealShut j).showRegion
  else
    let s1 := if l.contains 33 then s.hostGone none [] else s
    (s1.setShut (some j1)).showRegion

/-- Is every Onyx engine idle (R483)? -/
def State.enginesIdle (s : State) : Bool := !s.cmdList.any (fun x => x.phase == .running)

/-- QUIESCE_END (R483): BIST begins; a core with a command still running is not tested. -/
def execQuiesceEnd (s : State) : Outcome State Fault Refusal := s.onClock <|
  match s.bu.shut with
  | none => .next s
  | some j =>
    if s.get AGT_BU_SHUT.PHASE 0 ≠ 1 || (!s.enginesIdle && decide (s.time.now < j.start + 4000 * s.obj 1000 0x5C01 3)) then .next s
    else
      let plan := j.plan.filter (fun d => !(decide (d < 32) && decide (4 ≤ d % 8) && s.coreRuns (d / 8) (d % 8 - 4)))
      .next ((s.set AGT_BU_SHUT.PHASE 0 2).bistNext { j with plan := plan })

/-- An aborted shutdown is over (R486). -/
def State.abortShut (s : State) : State :=
  ((((s.setShut none).showRegion.set AGT_BU_SHUT.PHASE 0 0).set AGT_BU_SHUT.ABORTED 0 1).buSettle .preempted 0).buFinish

/-- REGION_BIST_COMPLETE (R484): region `d` is restored; its die's loss timeout, or every die's after region 37, starts again. -/
def execRegionBistComplete (d : Nat) (pass : Bool) (s : State) : Outcome State Fault Refusal := s.onClock <|
  match s.bu.shut with
  | none => .next s
  | some j =>
    if !j.testing.contains d then .next s else
      let j1 := { j with
        testing := j.testing.filter (fun e => e != d), run := setBit j.run d true, pass := setBit j.pass d pass }
      let dies := (List.range 4).filter (fun n => (d / 8 == n || d == 37) && thas s.fabric.lastAnswer n)
      let s1 : State := { s with fabric := { s.fabric with lastAnswer := dies.foldl (fun t n => tset t n s.time.now) s.fabric.lastAnswer } }
      .next (if j1.aborted then (if j1.testing.isEmpty then s1.abortShut else (s1.setShut (some j1)).showRegion)
        else s1.bistNext j1)

/-- SHUTDOWN_OFF (R483): every domain but 32 goes off, and SHUTDOWN completes. -/
def execShutdownOff (s : State) : Outcome State Fault Refusal := s.onClock <|
  match s.bu.shut with
  | none => .next s
  | some j =>
    if s.get AGT_BU_SHUT.PHASE 0 ≠ 3 then .next s else
      let off := ((parentsFirst (2 ^ 44 - 1)).reverse.filter (fun d => d != 32 && s.domPowered d))
      let s1 := off.foldl (fun st d => (st.loseDomain d).setDom d .off) (s.setShut none)
      let s2 := (s1.set AGT_FAB_STATUS.ADMITTED 0 0).set AGT_BU_SHUT.PHASE 0 4
      .next (((if j.pwroff then s2.emit .operationOff else s2).buSettle .ok 0).buFinish)

/-- SHUTDOWN_ABORT outside a shutdown while a command or request runs: it completes at once, and leaves BUSY and RESULT to what runs. -/
def State.abortRefused (s : State) : State :=
  ((s.set AGT_BU_STAT.STATUS 0 (Status.code .badDescriptor)).set AGT_BU_STAT.LAST_OP 0 0x12).emit .ibi

/-- SHUTDOWN_ABORT (R470, R486): taken in QUIESCE and BIST; a region under test is finished first. At or after the commit point
it is ignored with CFG_ERR; outside a shutdown it completes with BAD_DESCRIPTOR, and what runs then runs on. Log entry 130 (DEDUCED). -/
def execShutdownAbort (s : State) : Outcome State Fault Refusal :=
  if !s.buReached then .next s
  else if s.pkg.held then .next s.buErr
  else
    match s.bu.shut with
    | some j =>
      if s.get AGT_BU_SHUT.PHASE 0 ≠ 1 && s.get AGT_BU_SHUT.PHASE 0 ≠ 2 then .next s.buErr
      else if j.testing.isEmpty then .next s.abortShut
      else .next (s.setShut (some { j with plan := [], aborted := true }))
    | none => .next (if s.isSet AGT_BU_STAT.BUSY 0 then s.abortRefused else s.buWrite 0x12 0 (fun st => st.buSettle .badDescriptor 0))

/-! ## Supplies, the reference and BU_RESET_N -/

/-- The package with VDD_AON absent (R24): what is left lies in fuses, in flash and outside. -/
def State.unpowered (s : State) : State :=
  { State.reset with
    pending := s.pending, freeCount := s.freeCount, hostMem := s.hostMem, out := s.out, fuses := s.fuses
    pkg := { vddIo18 := s.pkg.vddIo18, resetNLow := s.pkg.resetNLow, testMode := s.pkg.testMode }
    sec := { retentionLost := true }
    dic := { copy0 := s.dic.copy0, copy1 := s.dic.copy1 }
    bu := { defects0 := s.bu.defects0, defects1 := s.bu.defects1
            comps := s.bu.comps.map (fun e => (e.1, { s.component e.1 with loaded := false, state := 0, writing := none })) } }

/-- VDD_AON_LOSS (R24, R432). -/
def execVddAonLoss (s : State) : Outcome State Fault Refusal := .next s.unpowered

/-- VDD_AON_APPLY (R338, R467): domain 32 runs from REFCLK, and package time starts at 0. Log entry 99 (DEDUCED). -/
def execVddAonApply (s : State) : Outcome State Fault Refusal :=
  .next (if s.pkg.vddAon then s else
    let r := s.unpowered
    ({ r with pkg := { r.pkg with vddAon := true, refclk := true, dom := [(32, .on)] } } : State).set AGT_BU_STAT.RESET_N_LOW 0
      (b2n s.pkg.resetNLow))

/-- VDD_IO18_LOSS (R404, R499). -/
def execVddIo18Loss (s : State) : Outcome State Fault Refusal := .next { s with pkg := { s.pkg with vddIo18 := false } }

/-- VDD_IO18_APPLY (R501). -/
def execVddIo18Apply (s : State) : Outcome State Fault Refusal := .next { s with pkg := { s.pkg with vddIo18 := true } }

/-- BU_RESET_N_ASSERT (R482): a package reset, in which the device is held. Without VDD_AON the ball is low and no more (R467). -/
def execBuResetNAssert (s : State) : Outcome State Fault Refusal :=
  .next (if s.pkg.resetNLow then s else if !s.pkg.vddAon then { s with pkg := { s.pkg with resetNLow := true } } else
    let r := s.packageReset
    ({ r with pkg := { r.pkg with resetNLow := true } } : State).set AGT_BU_STAT.RESET_N_LOW 0 1)

/-- BU_RESET_N_DEASSERT (R482). -/
def execBuResetNDeassert (s : State) : Outcome State Fault Refusal :=
  .next (if !s.pkg.resetNLow then s else ({ s with pkg := { s.pkg with resetNLow := false } } : State).set AGT_BU_STAT.RESET_N_LOW 0 0)

/-- REFCLK_LOSS (R444): every clock of Agate and the Onyx dies stops, and with it package time and the SAFE line edges. -/
def execRefclkLoss (s : State) : Outcome State Fault Refusal := .next { s with pkg := { s.pkg with refclk := false } }

/-- What a ball shows (R499). -/
inductive PinLevel where
  | low | high | highZ
  /-- High-impedance, with a weak pull-down. -/
  | weakLow
  deriving DecidableEq, Repr

/-- A line that is driven where VDD_IO18 is present, and high-impedance where it is absent. -/
def State.driven (s : State) (v : Bool) : PinLevel := if !s.pkg.vddIo18 then .highZ else if v && s.pkg.vddAon then .high else .low

/-- SAFE_A, SAFE_B and the gate lines of channel `c` (R322, R404, R499). -/
def State.ballSafeA (s : State) : PinLevel := s.driven s.cmp.safeA
def State.ballSafeB (s : State) : PinLevel := s.driven s.cmp.safeB
def State.ballGateHigh (s : State) (c : Nat) : PinLevel := s.driven (s.rfxChan c).gh
def State.ballGateLow (s : State) (c : Nat) : PinLevel := s.driven (s.rfxChan c).gl

/-- What an output of domain `d` shows by R499 while its I/O supply is absent, or its domain is off or in reset: `low` says that it is
driven low there, as ECAT_PHY_RST_N and XSPI_RESET_N are. None while the domain works: the level is then its port's. -/
def State.ballRest (s : State) (d : Nat) (low supply : Bool) : Option PinLevel :=
  if !supply then some .highZ
  else if s.pkg.vddAon && s.domPowered d && !s.pkg.held then none
  else some (if low then .low else .weakLow)

/-- ECAT_PHY_RST_N, by whether VDD_IO33 is present, and XSPI_RESET_N (R497, R499). -/
def State.ballEcatPhyReset (s : State) (io33 : Bool) : Option PinLevel := s.ballRest 34 true io33
def State.ballXspiReset (s : State) : Option PinLevel := s.ballRest 32 true s.pkg.vddIo18

end Sys2Proof.Machine
end

