-- ==== Sys2Proof/Machine/Service.lean ====
section
/-! DEFINITION. The commands of chapter 21: firmware staging and activation, and a reflex trim (R488 to R495). -/

namespace Sys2Proof.Machine

open Reg Host

/-! ## Staging (R489, R490) -/

/-- Does a flash write run: an image, or a configuration store (R490)? -/
def State.flashBusy (s : State) : Bool := s.dic.store.isSome || [1, 2, 3, 4].any (fun i => (s.component i).state == 1)

/-- Is a rollout of component 3 incomplete (R490)? -/
def State.rollout (s : State) : Bool := (s.component 3).state == 2 && (List.range 4).any (fun n => s.admitted n && bit s.bu.newer n)

/-- Does the header of an image pass the checks of R489? `sigOk` says that SIG verifies. -/
def State.imageOk (s : State) (i : Nat) (image : List Byte) (sigOk : Bool) : Bool :=
  let h := leVal (image.take 256)
  let len := bits h 128 32
  bits h 0 32 == 0x4D4C4657 && bits h 32 8 == i && decide (len ≤ 2096896) && len + 256 == image.length && sigOk &&
  (match (s.component i).runSlot with
   | some f => bits h 96 32 != f.seq && serialGe (bits h 96 32) f.seq
   | none => true)

/-- A write of object 0x2020 + i:0x01 (R489, R490). -/
def State.imageWrite (s : State) (i : Nat) (image : List Byte) (sigOk : Bool) : State × Status :=
  let c := s.component i
  if s.flashBusy || c.state == 1 || c.state == 3 || (i == 3 && s.rollout) then (s, .queueFull)
  else if !s.imageOk i image sigOk then (s.setComponent i { c with state := 4 }, .ok)
  else
    let h := leVal (image.take 256)
    let f : FwSlot := { seq := bits h 96 32, version := bits h 64 32, digest := sha384 (image.drop 256), image := image }
    (s.setComponent i { c.setSlot (1 - c.running) none with state := 1, writing := some f }, .ok)

/-- IMAGE: a write of object 0x2020 + i:0x01 that won its slot. -/
def execImage (src : Src) (i : Nat) (image : List Byte) (sigOk : Bool) (s : State) : Outcome State Fault Refusal := s.onClock <|
  .next (if Src.maintOrHost src && decide (1 ≤ i) && decide (i ≤ 4) then (s.imageWrite i image sigOk).1 else s.denyWrite src)

/-- IMAGE_STAGE_COMPLETE (R489): `ok` says that the slot reads back as it must. -/
def execImageStageComplete (i : Nat) (ok : Bool) (s : State) : Outcome State Fault Refusal := s.onClock <|
  let c := s.component i
  if c.state ≠ 1 then .next s
  else if !ok then .next (s.setComponent i { c with state := 4, writing := none })
  else
    let s1 := s.setComponent i { c.setSlot (1 - c.running) c.writing with state := 2, writing := none }
    .next (if i = 3 then s1.setBu { s1.bu with newer := 0 } else s1)

/-! ## Activation (R491) -/

/-- A write of object 0x2020 + i:0x02. -/
def State.activateWrite (s : State) (i val : Nat) : State × Status :=
  let c := s.component i
  if (i ≠ 2 ∧ i ≠ 4) ∨ val ≠ 1 ∨ c.state ≠ 2 ∨ (s.guardedOn ∧ !s.latched) then (s, .badDescriptor)
  else (s.setComponent i { c with state := 3 }, .ok)

/-- ACTIVATE: a write of object 0x2020 + i:0x02 that won its slot. -/
def execActivate (src : Src) (i val : Nat) (s : State) : Outcome State Fault Refusal := s.onClock <|
  .next (if src = .sideband then (s.activateWrite i val).1 else s.denyWrite src)

/-- ACTIVATE_COMPLETE (R491): the component is reloaded; `unverified` names the slots that do not verify. -/
def execActivateComplete (i unverified : Nat) (s : State) : Outcome State Fault Refusal := s.onClock <|
  let c := s.component i
  if c.state ≠ 3 then .next s else
    let r := c.load i unverified
    match r.2 with
    | none => .next (s.setComponent i { r.1 with loaded := false, state := 4 })
    | some (k, _) =>
      let s1 := s.setComponent i (r.1.ran k)
      .next (if i = 4 then s1.setPwr { s1.pwr with scarabHalted := false } else s1)

/-! ## Trims (R494) -/

/-- BRL_CH_TRIM_WRITE: held while the channel is ARMED; otherwise it is stored, and an older one that is still held is void. Log entry 108
(DEDUCED). -/
def execBrlChTrimWrite (src : Src) (c val : Nat) (s : State) : Outcome State Fault Refusal := s.onClock <|
  if 32 ≤ c then .next s
  else if !s.reaches src 4 5 (32 * c + 0x10) then .next (s.turnAway src 4 5 (32 * c + 0x10))
  else if s.rfxState c = 1 then .next (s.setRfx c { s.rfxChan c with heldTrim := some val })
  else .next ((s.setTrim c val).setRfx c { s.rfxChan c with heldTrim := none })

end Sys2Proof.Machine
end

