-- ==== Sys2Proof/Machine/Registers.lean ====
section
/-! DEFINITION. Reading a register as a word, derived fields included, and the command REGISTER_WRITE (R6, R7, R15 to R20, R374,
R438). -/

namespace Sys2Proof.Machine

open Reg Host

/-! ## What a field reads as -/

/-- Does an engine instance of a node execute a command? -/
def State.instBusy (s : State) (n i : Nat) : Bool := thas s.sched.busy (16 * n + i)

/-- The dataflow of the matrix command that a node executes (R100); none where it executes none that has one. -/
def State.flowNow (s : State) (n : Nat) : Option Nat := (s.running n 0).bind (fun x => MBody.flowUsed ⟨x.body⟩)

/-- Does a SCAN execute on a node, and no other command of the scan engine (R178)? -/
def State.scanBusy (s : State) (n : Nat) : Bool :=
  match s.running n 3 with
  | some x => SBody.op ⟨x.body⟩ != 1 && SBody.op ⟨x.body⟩ != 2
  | none => false

/-- Does the gate command of a node wait, not yet started (R176)? -/
def State.gateWaits (s : State) (n : Nat) : Bool := (s.executing n 4).isSome && s.gateTaken n

/-- Dirty sectors in the ways of a mask (R70). -/
def State.dirtySectors (s : State) (n mask : Nat) : Nat :=
  (s.t1.map (fun e => if e.1 / 16384 = n ∧ bit mask (e.1 / 1024 % 16) then popcount16 e.2.dirty else 0)).sum

/-- Is Scarab admitted: link 8 is trained and discovery has run (R21, R267)? -/
def State.scarabUp (s : State) : Bool := s.stepDone 6 && s.linkState 8 != 0

/-- Does the safety firmware run (R413)? Log entry 113 (DEDUCED). -/
def State.scarabRuns (s : State) : Bool := s.domOn 40 && (s.component 4).loaded && !s.pwr.scarabHalted

/-- Fields that follow from other state; none for a field that is stored (R21, R70, R100, R178, R200, R234, R315, R347, R387,
R413). -/
def State.derived (s : State) (f : Fld) (n i : Nat) : Option Nat :=
  if f = ONX_T1_STATUS.DIRTY_A then some (b2n (s.dirtySectors n 0xFF != 0))
  else if f = ONX_T1_STATUS.DIRTY_B then some (b2n (s.dirtySectors n 0xFF00 != 0))
  else if f = ONX_T1_DIRTYCNT.SECTORS then some (s.dirtySectors n 0xFFFF)
  else if f = ONX_M_ISSUECAP.EFFECTIVE then some (s.effectiveCap n)
  else if f = ONX_M_STATUS.MX_BUSY then some (b2n (s.instBusy n 0))
  else if f = ONX_M_STATUS.VEC_BUSY then some (b2n (s.instBusy n 1))
  else if f = ONX_M_STATUS.MX_FLOW then s.flowNow n
  else if f = ONX_Q_STATUS.SCAN_BUSY then some (b2n (s.scanBusy n))
  else if f = ONX_Q_STATUS.GATE_BUSY then some (b2n (s.instBusy n 4 && !s.gateWaits n))
  else if f = ONX_Q_STATUS.STEP_BUSY then some (b2n (thas s.seq.stepping n))
  else if f = ONX_L_STATUS.BUSY then some (b2n (s.instBusy n 5))
  else if f = ONX_G_STATUS.VX_BUSY then some (b2n (s.instBusy n 6))
  else if f = ONX_G_STATUS.PIPE_BUSY then some (maskOf ((List.range 4).filter (fun k => s.instBusy n (7 + k))))
  else if f = ONX_G_STATUS.SMP_BUSY then some (b2n (s.instBusy n 11))
  else if f = ONX_UNC_NODEINFO.NODE_ID then some n
  else if f = ONX_UNC_NODEINFO.DIE_KIND then some 1
  else if f = ONX_UNC_NODEINFO.ADMITTED then some (b2n (s.admitted n))
  else if f = ONX_UNC_NODEINFO.FENCED then some (b2n (s.fenced n))
  else if f = ONX_UNC_NODEINFO.STEPPING then some (Config.stepping n).toNat
  else if f = AGT_UNC_NODEINFO.NODE_ID then some 4
  else if f = AGT_UNC_NODEINFO.DIE_KIND then some 2
  else if f = AGT_UNC_NODEINFO.ADMITTED then some (b2n (s.stepDone 6))
  else if f = AGT_UNC_NODEINFO.STEPPING then some (Config.stepping 4).toNat
  else if f = SCB_UNC_NODEINFO.NODE_ID then some 5
  else if f = SCB_UNC_NODEINFO.DIE_KIND then some 3
  else if f = SCB_UNC_NODEINFO.ADMITTED then some (b2n s.scarabUp)
  else if f = SCB_UNC_NODEINFO.STEPPING then some (Config.stepping 5).toNat
  else if f = AGT_SCHED_STATUS.STEPCTX then some s.stepContexts
  else if f = AGT_TIME_NOW.TIME then some s.time.now
  else if f = AGT_NET_STAT.FEC_ACTIVE then some (b2n (s.isSet AGT_NET_STAT.LINK i && s.obj 0 (0x2C30 + i) 1 != 0))
  else if f = SCB_CMP_STATUS.RUN then some (b2n s.scarabRuns)
  else none

/-- What a field reads as. -/
def State.fieldValue (s : State) (f : Fld) (n i : Nat) : Nat :=
  match f.acc with
  | .wo => 0
  | _ => (s.derived f n i).getD (s.getO f n i)

/-- Counters that a role other than OWNER reads rounded down to a multiple of 64 (R438). -/
def countFields : List Fld :=
  [ONX_M_MACCNT.COUNT, ONX_M_ACTCNT.COUNT, ONX_M_CAPCNT.COUNT, ONX_Q_ESTEPCNT.COUNT, ONX_L_PROBCNT.COUNT, ONX_L_ACTCNT.COUNT,
   ONX_L_REGCNT.COUNT, ONX_G_QCNT.COUNT, ONX_G_MISSCNT.COUNT]

/-- Busy bits that a role other than OWNER reads as 0 (R438). -/
def busyFields : List Fld :=
  [ONX_M_STATUS.MX_BUSY, ONX_M_STATUS.VEC_BUSY, ONX_M_STATUS.MX_FLOW, ONX_Q_STATUS.SCAN_BUSY, ONX_Q_STATUS.GATE_BUSY,
   ONX_Q_STATUS.STEP_BUSY, ONX_L_STATUS.BUSY, ONX_G_STATUS.VX_BUSY, ONX_G_STATUS.PIPE_BUSY, ONX_G_STATUS.SMP_BUSY]

/-- The value latched at the latest multiple of 1 ms (R438). -/
def State.latchedField (s : State) (f : Fld) (n i : Nat) : Nat := tget (f.reset i) s.pwr.coarse (f.key n i)

/-- Mean of the latest whole window of 100 ms for sum `k`, in units of 0.1, rounded down to a whole W or A (R438). -/
def State.windowMean (s : State) (k : Nat) : Nat :=
  if s.pwr.oldSamples = 0 then 0 else tget 0 s.pwr.oldSums k / (s.pwr.oldSamples * 10) * 10

/-- What a field reads as to a role other than OWNER (R438). Log entry 114 (DEDUCED). -/
def State.coarseField (s : State) (f : Fld) (n i : Nat) : Nat :=
  if busyFields.contains f then 0
  else if countFields.contains f then s.latchedField f n i / 64 * 64
  else if f = ONX_M_ISSUECAP.LOOP_CAP then s.latchedField f n i
  else if f = ONX_M_ISSUECAP.EFFECTIVE then min (s.latchedField ONX_M_ISSUECAP.LOOP_CAP n i) (s.latchedField ONX_M_ISSUECAP.SW_CAP n i)
  else if f = AGT_PWR_CAPSTAT.PKG then s.windowMean 24
  else if f = AGT_PWR_RAIL.IOUT then s.windowMean (2 * i)
  else if f = AGT_PWR_RAIL.POUT then s.windowMean (2 * i + 1)
  else s.fieldValue f n i

/-- The windows of register space that hold bytes, as offset and length: bias tables and gate tables of an Onyx; the output
buffers, the mailbox buffers and the images of Agate (R140, R178, R381, R411, R419). -/
def windows (node : Nat) : List (Nat × Nat) :=
  if node < 4 then [(0x110000, 0x20000), (0x210000, 0x4000)]
  else if node = 4 then
    [(0x610000, 0x80000), (0x701000, 0x1000), (0x703000, 0x1000), (0x810000, 0x2000), (0x820000, 0x2000)]
  else []

/-- The window that holds byte `off`. -/
def inWindow (node off : Nat) : Bool := (windows node).any (fun w => decide (w.1 ≤ off) && decide (off < w.1 + w.2))

/-- The 64-bit word at byte `off` of the register space of a node: exact, or as a role other than OWNER reads it. Bits without a
field read 0 (R7, R18). Log entry 58 (DEDUCED). -/
def State.readReg (s : State) (exact' : Bool) (node off : Nat) : Nat :=
  if inWindow node off then leVal (cellsRead s.blank s.mem (regSpace node off) 8)
  else (fieldsAt node off).foldl (fun a e =>
    a + (if exact' then s.fieldValue e.1 node e.2 else s.coarseField e.1 node e.2) * 2 ^ e.1.lo) 0

/-- What an exact read of a register leaves: RC fields are cleared (R6). -/
def State.clearRead (s : State) (node off : Nat) : State :=
  (fieldsAt node off).foldl (fun st e => if e.1.acc == .rc then st.setO e.1 node e.2 0 else st) s

/-! ## Writing a register -/

/-- Would a write of the T1 way masks of an Onyx give a SEGREGATED partition a way of another partition's mask (R307, R310)? -/
def State.maskBad (s : State) (node off val : Nat) : Bool :=
  decide (node < 4) && (fieldsAt node off).any (fun e => e.1 == ONX_T1_WAYMASK.ALLOC &&
    (let mask := bits val e.1.lo e.1.width
     (List.range 16).any (fun q => q != e.2 && (s.segregated e.2 || s.segregated q) &&
       (s.getO ONX_T1_WAYMASK.ALLOC node q &&& mask) != 0)))

/-- Fields of the registers whose write is a row of its own. -/
def ownFields : List Fld :=
  [ONX_T1_WAYMODE.SCRATCH, ONX_M_ISSUECAP.SW_CAP, ONX_M_BIASCFG.MODE, ONX_M_KVPOOL.BASE, ONX_Q_STEP.ADD, ONX_Q_GCFG.XMIN,
   ONX_G_MAPCFG.DIR_BASE, ONX_G_MAPPOOL.POOL_BASE, ONX_G_MAPORG.OX, ONX_UNC_HINT.HEAVY, AGT_SCHED_RSV.RSV, AGT_SCHED_HOSTEVQ.BASE,
   AGT_SCHED_PART_EVQ.BASE, AGT_SCHED_PART_CFG.MODE, AGT_SCHED_CTX_DB.SQ_TAIL, AGT_RFX_SWAP.CHMASK, AGT_TIME_RATE.RATE,
   AGT_TIME_ADJ.ADD, AGT_TIME_SWSAMPLE.THETA, AGT_ECAT_MBX_REQ.OP, AGT_NET_TXDB.TAIL, AGT_CMP_HB.COUNT, AGT_SEC_MB_CMD.OP,
   AGT_BU_CMD.OP, AGT_ING_READMIT.CAM, AGT_ING_EXCLUDE.CAM, AGT_ING_SNAP.MASK, AGT_ING_CAMCFG.ENABLE, AGT_ING_CAMBUF.BASE,
   AGT_ING_RELEASE.MASK, AGT_ING_IMUCFG.ENABLE, AGT_ING_EGOCFG.ENABLE, BRL_CH_TRIM.HI_OFS]

/-- Is a pattern of BAND no finite number from 0 up; −0.0 counts as 0 (R411)? -/
def badBand (p : Nat) : Bool := bits p 23 8 == 255 || (bit p 31 && p != 2 ^ 31)

/-- Is a write of the Agate register at byte `off`, which has no command of its own, ignored with CFG_ERR (R249, R260, R287, R327,
R332, R333, R387, R411)? -/
def State.writeBad (s : State) (off val : Nat) : Bool :=
  let b := off / 0x100000
  let o := off % 0x100000
  let isRing := (fieldsAt 4 off).any (fun e => ringFields.contains e.1)
  (isRing && decide (3 < bits val 28 4)) ||
  (match b with
   | 2 =>
     let c := (o - 0x10000) / 128
     if o < 0x10000 then false
     else if o % 128 = 0x18 then s.ctxState c != 0 && s.ctxState c != 2
     else [0x00, 0x08, 0x10, 0x20, 0x28, 0x30].contains (o % 128) && s.ctxState c != 0
   | 4 => s.rfxWriteBad o val
   | 6 =>
     if o < 0x100 then false
     else s.guardedOn || (if o % 16 = 0 then decide (1007 < bits val 16 10) else badBand (bits val 0 32) || badBand (bits val 32 32))
   | 9 =>
     let p := o / 0x1000
     let ring := isRing || (fieldsAt 4 off).any (fun e => e.1 == AGT_NET_RXBUF.BASE)
     (ring && s.isSet AGT_NET_CTRL.ENABLE p) ||
     ((fieldsAt 4 off).any (fun e => e.1 == AGT_NET_RXBUF.BASE) &&
       (decide (3 < bits val 28 4) || decide (bits val 32 4 < 11) || decide (14 < bits val 32 4)))
   | _ => false)

/-- Set CFG_ERR of a block of Agate. -/
def State.blockErr (s : State) (off : Nat) : State :=
  match off / 0x100000 with
  | 2 => s.schedErr
  | 4 => s.set AGT_RFX_CMDSTAT.CFG_ERR 0 1
  | 6 => s.set AGT_CMP_STATUS.CFG_ERR 0 1
  | 8 => s.ecatErr
  | 9 => s.set AGT_NET_STAT.CFG_ERR (off % 0x100000 / 0x1000) 1
  | 11 => s.set AGT_ING_STATUS.CFG_ERR 0 1
  | _ => s

/-- A write that reaches a register or window without a command of its own. AGT_ECAT_CTRL and AGT_ECAT_IMG have rules of their own
(R381); a write of the way masks that R310 forbids is ignored and sets CFG_ERR of the scheduler. -/
def State.storeReg (s : State) (node off val : Nat) : State :=
  if s.maskBad node off val then s.schedErr
  else if node ≠ 4 then s.putReg node off val
  else if off = 0x800000 then s.ecatCtrl val
  else if off = 0x800010 then s.ecatImg val
  else if inWindow 4 off then
    if 0x610000 ≤ off ∧ off < 0x690000 ∨ 0x820000 ≤ off then s else s.poke (regSpace 4 off) (leBytes 8 val)
  else if s.writeBad off val then s.blockErr off
  else (s.putReg 4 off val).wrote off

end Sys2Proof.Machine
end

