-- ==== Sys2Proof/Machine/Dictionary.lean ====
section
/-! DEFINITION. Chapter 15: the objects of the dictionary, what they read as, and the refusals of R359 that a request meets on arrival
(R354 to R362, R372, and the object tables of the other chapters). -/

namespace Sys2Proof.Machine

open Reg Host

/-! ## Roles (R357). A set of roles is a mask: 1 SAFE, 2 MAINT, 4 HOST, 8 SUPV, 16 OWNER. -/

/-- Role of the interface of a rank; `own` says that the request comes on the authenticated path. -/
def roleMask (rank : Nat) (own : Bool) : Nat :=
  if own then 16 else lget 8 [0, 1, 2, 4, 8, 8] rank

def all' : Nat := 31

/-! ## The object tables -/

/-- A row of an object table: indices `idx` to `idx + n - 1`, subindices `sub` to `sub + m - 1`, the type code of R355, the roles
that write and read, the range of a numeric value, persistence and default. -/
structure ObjRow where
  idx : Nat
  n : Nat
  sub : Nat
  m : Nat
  typ : Nat
  wr : Nat
  rd : Nat
  lo : Nat
  hi : Nat
  persist : Bool
  dflt : Nat
  deriving DecidableEq, Repr

/-- Bytes of a value of a type; none for the types of any size (R355). -/
def typeBytes (t : Nat) : Option Nat :=
  if t = 1 ∨ t = 2 ∨ t = 5 then some 1
  else if t = 3 ∨ t = 6 then some 2
  else if t = 4 ∨ t = 7 ∨ t = 8 then some 4
  else if t = 0x15 ∨ t = 0x1B ∨ t = 0x11 then some 8
  else none

/-- Communication objects (R372). The subindices and types of the SRDO objects are those of EN 50325-5 (PRESUMED, log entry 51). -/
def rowsComm : List ObjRow := [
  ⟨0x1000, 1, 0, 1, 7, 0, 31, 0, 2 ^ 32 - 1, false, 0⟩,
  ⟨0x1001, 1, 0, 1, 5, 0, 31, 0, 255, false, 0⟩,
  ⟨0x1003, 1, 0, 1, 5, 2, 31, 0, 0, false, 0⟩,
  ⟨0x1003, 1, 1, 16, 7, 0, 31, 0, 2 ^ 32 - 1, false, 0⟩,
  ⟨0x1008, 3, 0, 1, 9, 0, 31, 0, 0, false, 0⟩,
  ⟨0x1010, 1, 1, 1, 7, 6, 6, 0x65766173, 0x65766173, false, 1⟩,
  ⟨0x1011, 1, 1, 1, 7, 6, 6, 0x64616F6C, 0x64616F6C, false, 1⟩,
  ⟨0x1014, 1, 1, 2, 7, 2, 31, 0, 2 ^ 32 - 1, true, 0⟩,
  ⟨0x1017, 1, 0, 1, 6, 14, 14, 0, 65535, true, 100⟩,
  ⟨0x1018, 1, 1, 4, 7, 0, 31, 0, 2 ^ 32 - 1, false, 0⟩,
  ⟨0x1301, 64, 1, 1, 5, 2, 31, 0, 2, true, 0⟩,
  ⟨0x1301, 64, 2, 1, 6, 2, 31, 0, 65535, true, 25⟩,
  ⟨0x1301, 64, 3, 1, 5, 2, 31, 0, 255, true, 20⟩,
  ⟨0x1301, 64, 4, 1, 5, 2, 31, 0, 255, true, 254⟩,
  ⟨0x1301, 64, 5, 2, 7, 2, 31, 0, 2 ^ 32 - 1, true, 0⟩,
  ⟨0x1381, 64, 0, 1, 5, 2, 31, 0, 16, true, 0⟩,
  ⟨0x1381, 64, 1, 16, 7, 2, 31, 0, 2 ^ 32 - 1, true, 0⟩,
  ⟨0x13FE, 1, 0, 1, 5, 2, 31, 0, 255, true, 0⟩,
  ⟨0x13FF, 1, 1, 64, 6, 2, 31, 0, 65535, true, 0⟩]

/-- Identity, defect list, firmware and images (R370, R487, R488). -/
def rowsIdentity : List ObjRow := [
  ⟨0x2010, 1, 1, 1, 0xF, 0, 15, 0, 0, false, 0⟩,
  ⟨0x2010, 1, 2, 1, 6, 0, 15, 0, 65535, false, 0⟩,
  ⟨0x2010, 1, 3, 1, 7, 0, 15, 0, 2 ^ 32 - 1, false, 0⟩,
  ⟨0x2021, 4, 1, 1, 0xF, 6, 0, 0, 0, false, 0⟩,
  ⟨0x2021, 4, 2, 1, 5, 2, 0, 0, 255, false, 0⟩,
  ⟨0x2021, 4, 3, 1, 5, 0, 6, 0, 255, false, 0⟩,
  ⟨0x2021, 4, 4, 2, 7, 0, 31, 0, 2 ^ 32 - 1, false, 0⟩,
  ⟨0x2023, 1, 6, 1, 5, 0, 31, 0, 255, false, 0⟩,
  ⟨0x2040, 1, 1, 1, 5, 0, 15, 0, 255, false, 0⟩,
  ⟨0x2040, 1, 2, 3, 7, 0, 15, 0, 2 ^ 32 - 1, false, 0⟩,
  ⟨0x2040, 1, 5, 1, 5, 0, 15, 0, 255, false, 0⟩,
  ⟨0x2040, 1, 6, 1, 7, 0, 15, 0, 2 ^ 32 - 1, false, 0⟩,
  ⟨0x2040, 1, 7, 1, 1, 0, 15, 0, 1, false, 0⟩]

/-- Clocks, power and heat (R466). -/
def rowsPower : List ObjRow := [
  ⟨0x2400, 1, 1, 44, 5, 0, 31, 0, 255, false, 0⟩,
  ⟨0x2401, 1, 1, 1, 6, 6, 31, 10, 65535, true, 0⟩,
  ⟨0x2401, 1, 2, 2, 6, 0, 31, 0, 65535, false, 0⟩,
  ⟨0x2401, 1, 4, 1, 5, 6, 31, 1, 20, true, 4⟩,
  ⟨0x2401, 1, 5, 1, 5, 6, 31, 1, 64, true, 48⟩,
  ⟨0x2401, 1, 6, 1, 5, 6, 31, 1, 64, true, 16⟩,
  ⟨0x2410, 12, 1, 3, 6, 0, 31, 0, 65535, false, 0⟩,
  ⟨0x2420, 1, 1, 1, 5, 6, 31, 80, 100, true, 95⟩,
  ⟨0x2420, 1, 2, 1, 5, 6, 31, 85, 104, true, 102⟩,
  ⟨0x2420, 1, 3, 1, 5, 6, 31, 8, 16, true, 12⟩,
  ⟨0x2421, 1, 1, 40, 3, 0, 31, 0, 65535, false, 0⟩,
  ⟨0x2430, 4, 1, 8, 5, 0, 31, 0, 255, false, 0⟩]

/-- The time unit (R353); roles as in log entry 52 (DESIGN CHOICE). -/
def rowsTime : List ObjRow := [
  ⟨0x2800, 1, 1, 1, 8, 6, 31, 0, 2 ^ 32 - 1, true, 0x3F000000⟩,
  ⟨0x2800, 1, 2, 1, 8, 6, 31, 0, 2 ^ 32 - 1, true, 0x3D800000⟩,
  ⟨0x2800, 1, 3, 1, 7, 6, 31, 1, 1000000, true, 100000⟩,
  ⟨0x2800, 1, 4, 1, 7, 6, 31, 10, 1000000, true, 1000⟩,
  ⟨0x2800, 1, 5, 1, 6, 6, 31, 1, 1000, true, 100⟩,
  ⟨0x2800, 1, 6, 1, 5, 6, 31, 1, 255, true, 8⟩,
  ⟨0x2800, 1, 7, 1, 6, 6, 31, 10, 60000, true, 3000⟩,
  ⟨0x2810, 2, 1, 2, 4, 6, 31, 0, 2 ^ 32 - 1, true, 0⟩]

/-- Field and network ports (R375, R379, R380, R382 to R385, R390); types and roles that the spec does not give as in log entry 52 (DESIGN CHOICE). -/
def rowsPorts : List ObjRow := [
  ⟨0x2C00, 1, 1, 64, 5, 6, 31, 0, 255, true, 255⟩,
  ⟨0x2C00, 1, 0x41, 1, 7, 0, 31, 0, 2 ^ 32 - 1, false, 0⟩,
  ⟨0x2C01, 1, 1, 1, 6, 6, 31, 10, 10000, true, 100⟩,
  ⟨0x2C01, 1, 2, 1, 5, 6, 31, 1, 128, true, 8⟩,
  ⟨0x2C01, 1, 3, 1, 5, 6, 31, 1, 255, true, 3⟩,
  ⟨0x2C02, 1, 1, 1, 5, 6, 0, 0, 127, false, 0⟩,
  ⟨0x2C03, 1, 1, 1, 0xF, 6, 31, 0, 0, true, 0⟩,
  ⟨0x2C03, 1, 2, 1, 6, 6, 31, 0, 256, true, 0⟩,
  ⟨0x2C20, 1, 1, 1, 5, 6, 31, 1, 127, true, 1⟩,
  ⟨0x2C20, 1, 2, 2, 7, 6, 31, 0, 2 ^ 32 - 1, true, 0⟩,
  ⟨0x2C30, 2, 1, 1, 1, 6, 31, 0, 1, true, 0⟩,
  ⟨0x2C30, 2, 2, 7, 7, 6, 31, 0, 2 ^ 32 - 1, true, 0⟩,
  ⟨0x2C30, 2, 9, 1, 7, 0, 31, 0, 2 ^ 32 - 1, false, 0⟩,
  ⟨0x2C38, 4, 1, 1, 5, 6, 31, 0, 3, true, 0⟩,
  ⟨0x2C38, 4, 2, 1, 5, 6, 31, 1, 24, true, 1⟩,
  ⟨0x2C38, 4, 3, 1, 7, 0, 31, 0, 2 ^ 32 - 1, false, 0⟩,
  ⟨0x2C40, 4, 1, 1, 5, 6, 6, 0, 2, true, 0⟩,
  ⟨0x2C40, 4, 2, 1, 5, 6, 6, 0, 3, true, 0⟩,
  ⟨0x2C40, 4, 3, 1, 5, 6, 6, 0, 7, true, 0⟩,
  ⟨0x2C40, 4, 4, 1, 6, 6, 6, 1, 4096, true, 1⟩,
  ⟨0x2C40, 4, 5, 1, 0xF, 6, 6, 0, 0, true, 0⟩,
  ⟨0x2C40, 4, 6, 1, 7, 0, 6, 0, 2 ^ 32 - 1, false, 0⟩,
  ⟨0x2C80, 128, 1, 3, 7, 6, 6, 0, 2 ^ 32 - 1, true, 0⟩,
  ⟨0x2C80, 128, 4, 1, 5, 0, 31, 0, 255, false, 0⟩]

/-- Scheduling, memory and fabric (R83, R285, R316). -/
def rowsCore : List ObjRow := [
  ⟨0x3000, 1, 1, 1, 5, 6, 31, 0, 32, true, 8⟩,
  ⟨0x3400, 1, 0, 1, 6, 6, 31, 1, 65535, true, 200⟩,
  ⟨0x3401, 2, 1, 4, 7, 0, 6, 0, 2 ^ 32 - 1, false, 0⟩,
  ⟨0x3800, 1, 1, 1, 6, 6, 31, 20, 1000, true, 30⟩,
  ⟨0x3800, 1, 2, 1, 6, 6, 31, 1, 65535, true, 16⟩,
  ⟨0x3800, 1, 3, 1, 7, 6, 31, 1, 1000000, true, 1000⟩,
  ⟨0x3801, 1, 1, 4, 5, 6, 31, 0, 2, true, 0⟩]

/-- Safety and security (R402, R414, R441). -/
def rowsSafety : List ObjRow := [
  ⟨0x3C00, 1, 1, 1, 5, 15, 0, 0, 255, false, 0⟩,
  ⟨0x3C00, 1, 2, 1, 5, 0, 31, 0, 255, false, 0⟩,
  ⟨0x3C00, 1, 3, 1, 5, 2, 0, 0, 255, false, 0⟩,
  ⟨0x3C01, 1, 1, 1, 5, 2, 31, 1, 4, true, 2⟩,
  ⟨0x3C01, 1, 2, 1, 5, 2, 31, 2, 3, true, 3⟩,
  ⟨0x3C01, 1, 3, 1, 5, 2, 31, 2, 4, true, 4⟩,
  ⟨0x3C01, 1, 4, 1, 6, 2, 31, 32, 256, true, 32⟩,
  ⟨0x3C02, 1, 1, 2, 5, 2, 31, 0, 255, true, 0⟩,
  ⟨0x3C10, 32, 1, 2, 0x1B, 2, 31, 0, 2 ^ 64 - 1, true, 0⟩,
  ⟨0x3C10, 32, 3, 1, 6, 2, 31, 0, 65535, true, 0⟩,
  ⟨0x3C10, 32, 4, 1, 5, 2, 31, 0, 2, true, 2⟩,
  ⟨0x3C10, 32, 5, 1, 8, 2, 31, 0, 2 ^ 32 - 1, true, 0x3F800000⟩,
  ⟨0x3C10, 32, 6, 1, 6, 2, 31, 0, 65535, true, 0⟩,
  ⟨0x4000, 16, 1, 1, 5, 0, 16, 0, 255, false, 0⟩,
  ⟨0x4000, 16, 2, 1, 7, 0, 16, 0, 2 ^ 32 - 1, false, 0⟩,
  ⟨0x4010, 1, 1, 1, 7, 0, 16, 0, 2 ^ 32 - 1, false, 0⟩]

/-- Reflex engine and ingest (R261, R335). -/
def rowsField : List ObjRow := [
  ⟨0x4400, 32, 1, 1, 5, 15, 0, 1, 3, false, 0⟩,
  ⟨0x4400, 32, 2, 1, 6, 14, 31, 0, 65535, false, 0⟩,
  ⟨0x4400, 32, 3, 5, 0x1B, 6, 31, 0, 2 ^ 64 - 1, true, 0⟩,
  ⟨0x4400, 32, 8, 1, 7, 2, 31, 0, 2 ^ 32 - 1, true, 0⟩,
  ⟨0x4440, 1, 1, 1, 0x1B, 6, 31, 0, 2 ^ 64 - 1, true, 0⟩,
  ⟨0x4800, 12, 1, 1, 7, 6, 31, 0, 2 ^ 32 - 1, true, 33333⟩,
  ⟨0x4800, 12, 2, 1, 5, 6, 31, 1, 15, true, 3⟩,
  ⟨0x4800, 12, 3, 1, 5, 6, 31, 1, 16, true, 16⟩,
  ⟨0x4800, 12, 4, 1, 6, 6, 31, 0, 65535, true, 2⟩,
  ⟨0x4800, 12, 5, 1, 1, 6, 31, 0, 1, true, 1⟩,
  ⟨0x4810, 4, 1, 14, 8, 6, 31, 0, 2 ^ 32 - 1, true, 0⟩,
  ⟨0x4820, 1, 1, 1, 8, 6, 31, 0, 2 ^ 32 - 1, true, 0x3D4CCCCD⟩,
  ⟨0x4820, 1, 2, 1, 8, 6, 31, 0, 2 ^ 32 - 1, true, 0x3F000000⟩,
  ⟨0x4820, 1, 3, 1, 5, 6, 31, 1, 255, true, 8⟩,
  ⟨0x4820, 1, 4, 1, 8, 6, 31, 0, 2 ^ 32 - 1, true, 0x3DCCCCCD⟩,
  ⟨0x4820, 1, 5, 1, 5, 6, 31, 1, 255, true, 16⟩,
  ⟨0x4820, 1, 6, 3, 8, 6, 31, 0, 2 ^ 32 - 1, true, 0⟩,
  ⟨0x4821, 1, 1, 10, 8, 6, 31, 0, 2 ^ 32 - 1, false, 0⟩,
  ⟨0x4821, 1, 0xB, 1, 1, 6, 31, 0, 1, false, 0⟩]

/-- Matrix cap, bring-up and tests (R102, R487). -/
def rowsBringup : List ObjRow := [
  ⟨0x5800, 1, 1, 4, 5, 6, 31, 1, 64, true, 64⟩,
  ⟨0x5C00, 1, 1, 1, 6, 6, 0, 0, 65535, false, 0⟩,
  ⟨0x5C00, 1, 2, 1, 5, 0, 6, 0, 255, false, 0⟩,
  ⟨0x5C01, 1, 1, 1, 7, 6, 31, 1, 1000000, true, 1000⟩,
  ⟨0x5C01, 1, 2, 1, 7, 6, 31, 1, 1000000, true, 10000⟩,
  ⟨0x5C01, 1, 3, 1, 7, 6, 31, 1, 1000000, true, 1000⟩,
  ⟨0x5C02, 1, 1, 1, 7, 6, 0, 0, 2 ^ 32 - 1, false, 0⟩,
  ⟨0x5C02, 1, 2, 1, 5, 0, 6, 0, 255, false, 0⟩,
  ⟨0x5C10, 1, 1, 6, 5, 0, 31, 0, 255, false, 0⟩,
  ⟨0x5C11, 1, 1, 44, 5, 0, 31, 0, 255, false, 0⟩]

/-- Every row of the object tables. -/
def objRows : List ObjRow :=
  rowsComm ++ rowsIdentity ++ rowsPower ++ rowsTime ++ rowsPorts ++ rowsCore ++ rowsSafety ++ rowsField ++ rowsBringup

/-- Does a row name an index? -/
def ObjRow.hasIndex (r : ObjRow) (idx : Nat) : Bool := decide (r.idx ≤ idx) && decide (idx < r.idx + r.n)

/-- Does a row name an object? -/
def ObjRow.has (r : ObjRow) (idx sub : Nat) : Bool := r.hasIndex idx && decide (r.sub ≤ sub) && decide (sub < r.sub + r.m)

/-- Does the index exist (R371)? -/
def indexExists (idx : Nat) : Bool := objRows.any (fun r => r.hasIndex idx)

/-- Highest subindex of an index. -/
def highestSub (idx : Nat) : Nat := ((objRows.filter (fun r => r.hasIndex idx)).map (fun r => r.sub + r.m - 1)).foldl max 0

/-- The row of an object; subindex 0 of an array or record is the highest subindex, which every role may read (R354). -/
def objRow (idx sub : Nat) : Option ObjRow :=
  match objRows.find? (fun r => r.has idx sub) with
  | some r => some r
  | none => if sub = 0 && indexExists idx then some ⟨idx, 1, 0, 1, 5, 0, 31, 0, 255, false, highestSub idx⟩ else none

/-! ## Values -/

/-- The Agate register that an object mirrors, by its byte offset (R316, R335, R414). Log entry 107 (DEDUCED). -/
def mirror (idx sub : Nat) : Option Nat :=
  if idx = 0x3000 ∧ sub = 1 then some 0x200008
  else if 0x3C10 ≤ idx ∧ idx < 0x3C30 ∧ (sub = 1 ∨ sub = 2) then some (0x600100 + 16 * (idx - 0x3C10) + 8 * (sub - 1))
  else if 0x4400 ≤ idx ∧ idx < 0x4420 then
    let c := idx - 0x4400
    if sub = 2 then some (0x401028 + 64 * c)
    else if 3 ≤ sub ∧ sub ≤ 7 then some (0x401000 + 64 * c + 8 * (sub - 3))
    else if sub = 8 then some (0x500010 + 32 * c)
    else none
  else if idx = 0x4440 ∧ sub = 1 then some 0x400020
  else none

/-- The word that a register holds at reset. -/
def resetWord (node off : Nat) : Nat := (fieldsAt node off).foldl (fun a e => a + e.1.reset e.2 * 2 ^ e.1.lo) 0

/-- Default of an object (R356). -/
def State.objDefault (s : State) (idx sub : Nat) : Nat :=
  match mirror idx sub with
  | some off => resetWord 4 off
  | none =>
    if idx = 0x1014 ∧ sub ≠ 0 then 0x80 + s.obj 1 0x2C20 1
    else if idx = 0x1301 ∧ (sub = 5 ∨ sub = 6) then 0xFF + 2 * s.obj 1 0x2C20 1 + (sub - 5)
    else if idx = 0x2401 ∧ sub = 1 then s.envelope
    else if 0x4810 ≤ idx ∧ idx < 0x4814 ∧ (sub = 6 ∨ sub = 10 ∨ sub = 14) then 0x3F800000
    else match objRow idx sub with
      | some r => r.dflt
      | none => 0

/-- ASCII bytes of a text. -/
def textBytes (t : String) : List Byte := t.toList.map (fun c => BitVec.ofNat 8 c.toNat)

/-- State of a domain as object 0x2400 shows it (R27, R466). -/
def DomState.code : DomState → Nat
  | .off => 0
  | .on => 1
  | .switchingOn => 2
  | .switchingOff => 2

def SubState.code : SubState → Nat
  | .present => 0
  | .absent => 1
  | .checking => 2
  | .lost => 3
  | .refused => 4

/-- Objects of the ranges 0x1000 to 0x23FF that are no plain values. -/
def State.identityValue (s : State) (idx sub : Nat) : Nat :=
  if idx = 0x1010 ∨ idx = 0x1011 then 1
  else if idx = 0x1018 then lget 0 [0x2E71, 0x4416, Config.revision.toNat, s.fuses.serial] (sub - 1)
  else if idx = 0x2010 then (if sub = 2 then s.defects.1.entries.length else s.defects.1.seq)
  else if idx = 0x2023 ∧ sub = 6 then s.bu.newer
  else if 0x2021 ≤ idx ∧ idx ≤ 0x2024 then
    let c := s.component (idx - 0x2020)
    if sub = 3 then c.state else if sub = 4 then slotVersion c.runSlot else if sub = 5 then slotVersion c.fallback else 0
  else if idx = 0x2040 then
    match sub with
    | 1 => s.dic.loaded.getD 0xFF
    | 2 => s.copySeq s.dic.current
    | 3 => s.copySeq (some 0)
    | 4 => s.copySeq (some 1)
    | 5 => b2n s.dic.copy0.isSome + 2 * b2n s.dic.copy1.isSome
    | 6 => s.dic.skipped
    | 7 => b2n s.dic.store.isSome
    | _ => 0
  else s.obj (s.objDefault idx sub) idx sub

/-- Objects of the range 0x2400 to 0x27FF (R438, R466): readings are exact for the OWNER alone. -/
def State.powerValue (s : State) (own : Bool) (idx sub : Nat) : Nat :=
  let field (f : Fld) (n i : Nat) : Nat := if own then s.fieldValue f n i else s.coarseField f n i
  if idx = 0x2400 then (tget DomState.off s.pkg.dom (sub - 1)).code
  else if idx = 0x2401 ∧ sub = 2 then s.envelope
  else if idx = 0x2401 ∧ sub = 3 then field AGT_PWR_CAPSTAT.PKG 4 0
  else if 0x2410 ≤ idx ∧ idx < 0x241C then
    field (if sub = 1 then AGT_PWR_RAIL.VOUT else if sub = 2 then AGT_PWR_RAIL.IOUT else AGT_PWR_RAIL.POUT) 4 (idx - 0x2410)
  else if idx = 0x2421 then ux 16 (sx 12 (s.get BRL_TEMP.TEMP (sub - 1)))
  else if 0x2430 ≤ idx ∧ idx < 0x2434 then
    s.getO (if sub ≤ 4 then ONX_UNC_CLK.KMAX else ONX_UNC_CLK.K) (idx - 0x2430) ((sub - 1) % 4)
  else s.obj (s.objDefault idx sub) idx sub

/-- The value of an object of a numeric type; `own` for the role OWNER. -/
def State.objValue (s : State) (own : Bool) (idx sub : Nat) : Nat :=
  match mirror idx sub with
  | some off => s.readReg true 4 off
  | none =>
    if idx < 0x2400 then s.identityValue idx sub
    else if idx < 0x2800 then s.powerValue own idx sub
    else if 0x2C80 ≤ idx ∧ idx < 0x2D00 ∧ sub = 4 then (Config.subCode (s.sub (idx - 0x2C80)).st.code).toNat
    else if idx = 0x3C00 ∧ sub = 2 then (if s.guardedOn && !s.latched then 0x5A else 0)
    else if 0x4000 ≤ idx ∧ idx < 0x4010 then
      (if sub = 1 then s.partFlags (idx - 0x4000)
       else maskOf ((s.sec.slots.filter (fun e => e.2.part == idx - 0x4000)).map (·.1)))
    else if idx = 0x4010 ∧ sub = 1 then s.sec.refusals
    else if idx = 0x4821 ∧ sub = 0xB then 0
    else if idx = 0x5800 ∧ sub ≠ 0 then s.getO ONX_M_ISSUECAP.SW_CAP (sub - 1) 0
    else if idx = 0x5C11 ∧ sub ≠ 0 then
      (if bit (s.get AGT_BU_RETRUN.RUN 0) (sub - 1) then (if bit (s.get AGT_BU_RETPASS.PASS 0) (sub - 1) then 1 else 2) else 0)
    else s.obj (s.objDefault idx sub) idx sub

/-- A text fixed per part (R355, R372). -/
def partText (which : Nat) : List Byte := (List.range ((Config.partTextLen which).toNat + 1)).map (Config.partText which)

/-- The fields of an entry of the cyclic datagram table, as lowest bit and width (R382). -/
def datagramFields : List (Nat × Nat) := [(0, 8), (8, 2), (16, 32), (48, 11), (64, 13), (80, 13), (96, 16), (112, 7)]

/-- A table of entries of `k` bytes as it is read: bits without a field read 0 (R7). -/
def fieldsOnly (k : Nat) (fields : List (Nat × Nat)) (b : List Byte) : List Byte :=
  (List.range (cdiv b.length k)).flatMap (fun i =>
    let e := (b.drop (k * i)).take k
    leBytes e.length ((fields.map (fun f => bits (leVal e) f.1 f.2 * 2 ^ f.1)).sum))

/-- The value of an object of type VISIBLE_STRING or DOMAIN. -/
def State.blobValue (s : State) (idx sub : Nat) : List Byte :=
  if idx = 0x1008 then textBytes "MLN-4416"
  else if idx = 0x1009 then partText 1
  else if idx = 0x100A then partText 2
  else if idx = 0x2C03 then fieldsOnly 16 datagramFields (s.blob idx sub)
  else if idx = 0x2010 then s.defects.1.entries.flatMap (leBytes 8)
  else s.blob idx sub

/-- The bytes of an object that exists (R355). A highest subindex stands where the tables name no row for subindex 0. -/
def State.objBytes (s : State) (own : Bool) (idx sub : Nat) : List Byte :=
  match objRow idx sub with
  | none => []
  | some r =>
    match typeBytes r.typ with
    | none => s.blobValue idx sub
    | some n =>
      leBytes n (if sub = 0 ∧ !objRows.any (fun q => q.has idx 0) then r.dflt else s.objValue own idx sub)

/-! ## Refusals (R359) -/

/-- The outcome of a request: its status and abort code. -/
abbrev Verdict := Status × Nat

def Verdict.denied : Verdict := (.denied, 0x08000000)
def Verdict.size : Verdict := (.badDescriptor, 0x06070010)
def Verdict.range : Verdict := (.badDescriptor, 0x06090030)
def Verdict.chapter : Verdict := (.badDescriptor, 0x08000022)
def Verdict.busy : Verdict := (.queueFull, 0x08000020)
def Verdict.superseded : Verdict := (.superseded, 0x08000021)
def Verdict.ok : Verdict := (.ok, 0)

/-- Is a value within the object's stated range? -/
def State.inRange (s : State) (r : ObjRow) (idx sub v : Nat) : Bool :=
  decide (r.lo ≤ v) && decide (v ≤ r.hi) &&
  !(idx == 0x2401 && sub == 1 && decide (s.envelope < v)) &&
  !(idx == 0x2C00 && sub != 0 && decide (15 < v) && v != 0xFF) &&
  !(idx == 0x3C01 && sub == 1 && v == 3) &&
  !(decide (0x2C38 ≤ idx) && decide (idx < 0x2C3C) && sub == 1 && v != 0 && v != 3)

/-- Largest size of an object of type DOMAIN (R355). -/
def domainMax : Nat := 16777215

/-- Is a table within the number of entries that its chapter states: 256 of 16 bytes, 4,096 of 8 bytes (R382, R383)? -/
def tableFits (idx : Nat) (b : List Byte) : Bool :=
  decide (b.length ≤ (if idx = 0x2C03 then 4096 else if 0x2C40 ≤ idx ∧ idx < 0x2C44 then 32768 else domainMax))

/-- What a request meets on arrival: the first eight rows of R359. `size` is false where a segment does not fit. For a write,
`bytes` is its value. -/
def State.dictCheck (s : State) (role : Nat) (bytes : Option (List Byte)) (size : Bool) (idx sub : Nat) : Option Verdict :=
  if 0x4000 ≤ idx ∧ idx < 0x4400 ∧ role ≠ 16 then some .denied
  else
    match objRow idx sub with
    | none => some (if indexExists idx then (.badDescriptor, 0x06090011) else (.badDescriptor, 0x06020000))
    | some r =>
      let may := if bytes.isSome then r.wr else r.rd
      if may ≠ 0 ∧ may &&& role = 0 then some .denied
      else if may = 0 then some (.badDescriptor, if bytes.isSome then 0x06010002 else 0x06010001)
      else if !size then some .size
      else
        match bytes with
        | none => none
        | some b =>
          match typeBytes r.typ with
          | some n => if b.length ≠ n then some .size else if s.inRange r idx sub (leVal b) then none else some .range
          | none => if b.isEmpty || decide (domainMax < b.length) then some .size else if tableFits idx b then none else some .range

end Sys2Proof.Machine
end

