-- ==== Sys2Proof/Machine/Flash.lean ====
section
/-! DEFINITION. What stands in the xSPI flash, byte by byte: the defect list, the firmware slots, the configuration keys and the copies of the configuration
image (R366, R418, R475, R477, R511). -/

namespace Sys2Proof.Machine

/-- A record of an image: its head, and the value padded to a multiple of 4 bytes (R366). -/
def CfgRecord.bytes (r : CfgRecord) : List Byte :=
  leBytes 2 (r.obj / 256) ++ leBytes 2 (r.obj % 256) ++ leBytes 2 r.typ ++ leBytes 2 r.value.length ++ r.value ++
    List.replicate ((4 - r.value.length % 4) % 4) 0

/-- The body of a copy. -/
def CfgCopy.body (c : CfgCopy) : List Byte := c.records.flatMap CfgRecord.bytes

/-- Does LENGTH keep to its bound (R366, R367)? -/
def CfgCopy.fits (c : CfgCopy) : Bool := decide (c.body.length ≤ 1048448)

/-- The first 32 bytes of the header of a copy. -/
def CfgCopy.head (c : CfgCopy) : List Byte :=
  leBytes 4 0x4D4C4346 ++ leBytes 2 1 ++ leBytes 2 0 ++ leBytes 4 c.seq ++ leBytes 4 c.body.length ++ leBytes 4 (crc32c c.body) ++
    leBytes 4 c.records.length ++ leBytes 8 0

/-- A copy: its header, SIG last, and its body. Log entry 117 (DEDUCED). -/
def CfgCopy.bytes (c : CfgCopy) : List Byte := c.head ++ cryptoBytes 8 96 (c.head ++ c.body) ++ c.body

/-- A copy of the defect list: SEQ, COUNT, the HMAC over the first 16 bytes and the entries, and the entries (R477). -/
def DefectCopy.bytes (c : DefectCopy) : List Byte :=
  let h := leBytes 4 c.seq ++ leBytes 2 c.entries.length ++ leBytes 10 0
  let l := c.entries.flatMap (leBytes 8)
  h ++ cryptoBytes 9 48 (h ++ l) ++ l

/-- Byte `i` of a firmware slot; that of the factory image is a free value (log entry 61). -/
def FwSlot.byteAt (f : FwSlot) (i : Nat) : Byte := if f.image.isEmpty then Config.crypto 7 f.digest i else f.image.getD i 0xFF

/-- Byte `off` of the flash. The public keys of the configuration key slots are free values (R418). What holds no valid structure reads 0xFF, as erased flash does (PRESUMED, log entry 117). -/
def State.flashByte (s : State) (off : Nat) : Byte :=
  if off < 0x20000 then
    match (if off < 0x10000 then s.bu.defects0 else s.bu.defects1) with
    | some c => c.bytes.getD (off % 0x10000) 0xFF
    | none => 0xFF
  else if 0x100000 ≤ off ∧ off < 0x1100000 then
    let k := (off - 0x100000) / 0x200000
    match (s.component (k / 2 + 1)).slot (k % 2) with
    | some f => f.byteAt ((off - 0x100000) % 0x200000)
    | none => 0xFF
  else if 0x1F00000 ≤ off ∧ off < 0x1F00200 then
    if off % 128 < 97 then Config.crypto 10 (leBytes 1 ((off - 0x1F00000) / 128)) (off % 128) else 0xFF
  else if 0x2000000 ≤ off ∧ off < 0x2200000 then
    match (if off < 0x2100000 then s.dic.copy0 else s.dic.copy1) with
    | some c => c.bytes.getD (off % 0x100000) 0xFF
    | none => 0xFF
  else 0xFF

/-- `n` bytes of the flash from `off` on, as the window of R19 shows them. -/
def State.flashBytes (s : State) (off n : Nat) : List Byte := (List.range n).map (fun i => s.flashByte (off + i))

end Sys2Proof.Machine
end

