-- ==== Sys2Proof/Machine/Slots.lean ====
section
/-! DEFINITION. Chapter 15: what a write of an object does, answers, same-slot conflicts, stores and the loading of an image (R358 to
R370). -/

namespace Sys2Proof.Machine

open Reg Host

/-- The state that an outcome leads to; `s` where it leads to none. -/
def settled (s : State) : Outcome State Fault Refusal → State
  | .next t => t
  | _ => s

def State.setDic (s : State) (d : DictUnit) : State := { s with dic := d }

/-- Key of an object. -/
def objKey (idx sub : Nat) : Nat := 256 * idx + sub

/-- A register of R360 as an object of the slot decisions: its byte offset in the register space of Agate, beyond every object. -/
def regKey (off : Nat) : Nat := 2 ^ 24 + off

/-! ## Answers (R358, R359) -/

/-- A request of an interface completes: `size` is that of the object, where one was read or written, and `read` what was read. The
response to a muted request is discarded (R376). -/
def State.dictAnswer (s : State) (rank : Nat) (mute : Bool) (v : Verdict) (size : Option Nat) (read : Option (List Byte)) : State :=
  if rank = 2 ∨ rank = 3 then
    let p := rank - 2
    let s1 := s.set AGT_UNC_DICT_RSP.BUSY p 0
    if mute then s1 else
      let s2 := (s1.set AGT_UNC_DICT_RSP.STATUS p v.1.code).set AGT_UNC_DICT_ABORT.CODE p v.2
      let s3 := size.elim s2 (fun n => s2.set AGT_UNC_DICT_RSP.SIZE p n)
      read.elim s3 (fun b => s3.set AGT_UNC_DICT_DATA.VALUE p (leVal b))
  else if rank = 1 ∨ rank = 4 ∨ rank = 5 then s.emit (.sdo rank v.2 (read.getD []))
  else s

/-- A write of `n` bytes completes. -/
def State.writeAnswer (s : State) (rank : Nat) (mute : Bool) (v : Verdict) (n : Nat) : State :=
  s.dictAnswer rank mute v (if v.1 = .ok then some n else none) none

/-- A refusal: DENIED is counted and answered only when its fixed time has passed (R359, R436). -/
def State.dictRefuse (s : State) (rank : Nat) (v : Verdict) : State :=
  if v.1 = .denied then s.countRefusal.setDic { s.dic with denied := s.dic.denied ++ [rank] }
  else s.dictAnswer rank false v none none

/-! ## Persistent objects (R356, R366 to R369) -/

/-- Persistent objects that stand in registers. -/
def mirrorKeys : List Nat :=
  [objKey 0x3000 1] ++ (List.range 32).flatMap (fun g => [objKey (0x3C10 + g) 1, objKey (0x3C10 + g) 2]) ++
  (List.range 32).flatMap (fun c => (List.range 6).map (fun k => objKey (0x4400 + c) (3 + k))) ++
  [objKey 0x4440 1] ++ (List.range 4).map (fun n => objKey 0x5800 (n + 1))

/-- Is an object persistent? -/
def persistent (k : Nat) : Bool :=
  match objRow (k / 256) (k % 256) with
  | some r => r.persist
  | none => false

/-- Does an object hold something else than its default? -/
def State.notDefault (s : State) (k : Nat) : Bool :=
  match objRow (k / 256) (k % 256) with
  | some r =>
    if (typeBytes r.typ).isSome then s.objValue true (k / 256) (k % 256) != s.objDefault (k / 256) (k % 256)
    else !(s.blob (k / 256) (k % 256)).isEmpty
  | none => false

/-- The type of an object; 0 where it does not exist. -/
def objType (k : Nat) : Nat := match objRow (k / 256) (k % 256) with
  | some r => r.typ
  | none => 0

/-- The records of an image: the persistent objects whose value differs from the default, ascending (R366). -/
def State.snapshotObjects (s : State) : List CfgRecord :=
  let keys := s.dict.map (·.1) ++ s.blobs.map (·.1) ++ mirrorKeys
  ((keys.filter (fun k => persistent k && s.notDefault k)).foldl
    (fun (t : Tab (List Byte)) k => tset t k (s.objBytes true (k / 256) (k % 256))) []).map (fun e => ⟨e.1, objType e.1, e.2⟩)

/-- Does an object stand in a register that cannot be reached now (R26)? Log entry 107 (DEDUCED). -/
def State.unmappedObject (s : State) (k : Nat) : Bool :=
  match mirror (k / 256) (k % 256) with
  | some off => !s.mapped (regSpace 4 off)
  | none => k / 256 == 0x5800 && k % 256 != 0 && !s.mapped (regSpace (k % 256 - 1) 0x100000)

/-- Give an object a value without the rules of its chapter: a record of an image, or a default. A RATE_MAX that becomes lower bounds
RATE (R337). -/
def State.loadObject (s : State) (k : Nat) (b : List Byte) : State :=
  let idx := k / 256
  let sub := k % 256
  let v := leVal b
  match mirror idx sub with
  | some off =>
    if 0x500000 ≤ off ∧ off < 0x600000 then
      let c := idx - 0x4400
      if s.rfxState c = 1 || !s.domOn 42 then s.setRfx c { s.rfxChan c with heldTrim := some v }
      else (s.setTrim c v).setRfx c { s.rfxChan c with heldTrim := none }
    else s.putReg 4 off v
  | none =>
    if idx = 0x5800 then s.setO ONX_M_ISSUECAP.SW_CAP (sub - 1) 0 v
    else
      match objRow idx sub with
      | some r =>
        if (typeBytes r.typ).isNone then s.setBlob idx sub b
        else
          let s1 := s.setObj (s.objDefault idx sub) idx sub v
          if idx = 0x2800 ∧ sub = 3 then s1.boundRate else s1
      | none => s

/-- Every persistent object takes its default (R369). Log entry 109 (DEDUCED). -/
def State.restoreDefaults (s : State) : State :=
  let s1 : State := { s with dict := s.dict.filter (fun e => !persistent e.1), blobs := s.blobs.filter (fun e => !persistent e.1) }
  (mirrorKeys.foldl (fun st k =>
    if st.unmappedObject k then st else st.loadObject k (leBytes 8 (st.objDefault (k / 256) (k % 256)))) s1).boundRate

/-- Copy `k` of the image. -/
def State.cfgCopy (s : State) (k : Nat) : Option CfgCopy := if k = 0 then s.dic.copy0 else s.dic.copy1

def State.setCfgCopy (s : State) (k : Nat) (c : Option CfgCopy) : State :=
  s.setDic (if k = 0 then { s.dic with copy0 := c } else { s.dic with copy1 := c })

/-- A store begins: the objects are taken, and the target is erased (R368). With no current copy the target is copy 0 (DESIGN CHOICE, log entry 54). -/
def State.storeBegin (s : State) (src : Src) (mute : Bool) : State :=
  let target := if s.dic.current = some 0 then 1 else 0
  let seq := match s.dic.current with
    | some _ => (s.copySeq s.dic.current + 1) % 2 ^ 32
    | none => 0
  let job : StoreJob := { copy := target, seq := seq, records := s.snapshotObjects, src := src, mute := mute }
  let s1 := s.setCfgCopy target none
  s1.setDic { s1.dic with store := some job }

/-! ## What a write does (row 9 and 10 of R359, and the effect) -/

/-- The verdict of a rule of another chapter. -/
def Verdict.of (st : Status) : Verdict :=
  if st = .ok then .ok else if st = .queueFull then .busy else .chapter

/-- A write of one of the objects 0x4400 + c (R325, R327, R333, R494). Log entry 110 (DEDUCED). -/
def State.writeReflex (s : State) (c sub v : Nat) : State × Verdict :=
  if sub = 1 then
    if !s.rfxOn then (s, .chapter)
    else
      let s1 := s.rfxCommand v (2 ^ c)
      (s1, if s1.get AGT_RFX_CMDSTAT.STATUS 0 = 0 then .ok else .chapter)
  else if sub = 8 then (s.loadObject (objKey (0x4400 + c) 8) (leBytes 4 v), .ok)
  else
    let off := 0x401000 + 64 * c + (if sub = 2 then 0x28 else 8 * (sub - 3))
    if s.writeBad off v then (s.blockErr off, .chapter) else ((s.putReg 4 off v).wrote off, .ok)

/-- A write of an object of chapter 17 (R403, R407, R414). -/
def State.writeSafety (s : State) (idx sub : Nat) (b : List Byte) : State × Verdict :=
  let v := leVal b
  if idx = 0x3C00 then
    if sub = 1 then (if v = 1 then s.latchSafe 4 else s, .ok)
    else if v = 1 then let r := s.releaseReq; (r.1, Verdict.of r.2) else (s, .ok)
  else if s.guardedOn then (s, .chapter)
  else
    match mirror idx sub with
    | some off => if s.writeBad off v then (s, .range) else (s.putReg 4 off v, .ok)
    | none => (s.loadObject (objKey idx sub) b, .ok)

/-- A verdict, given at once. -/
def judged (r : State × Verdict) : State × Option Verdict := (r.1, some r.2)

/-- A completion status, given at once as a verdict. -/
def concluded (r : State × Status) : State × Option Verdict := (r.1, some (Verdict.of r.2))

/-- The effect of a write of an object that has won its slot, and its verdict; none for a store, which completes later. -/
def State.writeObject (s : State) (w : SlotWrite) (sigOk : Bool) : State × Option Verdict :=
  let idx := w.obj / 256
  let sub := w.obj % 256
  let v := leVal w.bytes
  if s.unmappedObject w.obj then (s, some .chapter)
  else if idx = 0x1003 then ((List.range 17).foldl (fun st k => st.setObj 0 0x1003 k 0) s, some .ok)
  else if idx = 0x1010 then (if s.flashBusy then (s, some .busy) else (s.storeBegin w.src w.mute, none))
  else if idx = 0x1011 then (s.restoreDefaults, some .ok)
  else if 0x2021 ≤ idx ∧ idx ≤ 0x2024 then
    (if sub = 1 then concluded (s.imageWrite (idx - 0x2020) w.bytes sigOk) else concluded (s.activateWrite (idx - 0x2020) v))
  else if idx = 0x2420 ∧ ((sub = 1 ∧ s.tThrot ≤ v) ∨ (sub = 2 ∧ v ≤ s.tWarn)) then (s, some .chapter)
  else if idx = 0x2C02 then (s.recheck v, some .ok)
  else if idx = 0x2C03 ∧ s.isSet AGT_ECAT_CTRL.RUN 0 then (s.ecatErr, some .chapter)
  else if idx = 0x3000 ∧ 64 < s.rateSum 16 0 0 v then (s.schedErr, some .chapter)
  else if 0x3C00 ≤ idx ∧ idx < 0x4000 then judged (s.writeSafety idx sub w.bytes)
  else if 0x4400 ≤ idx ∧ idx < 0x4420 then judged (s.writeReflex (idx - 0x4400) sub v)
  else if idx = 0x4440 then
    (if s.writeBad 0x400020 v then (s.blockErr 0x400020, some .chapter) else ((s.putReg 4 0x400020 v).wrote 0x400020, some .ok))
  else if idx = 0x4821 ∧ sub = 0xB then (if v = 1 then s.stageEgo else s, some .ok)
  else if idx = 0x5C00 then concluded (s.queueRequest 1 v)
  else if idx = 0x5C02 then concluded (s.queueRequest 2 v)
  else (s.loadObject w.obj w.bytes, some .ok)

/-- The effect of a write of a register of R360 that has won its slot (R282, R287, R325, R343, R345, R346). -/
def State.writeContended (s : State) (w : SlotWrite) (got : List Nat) : State :=
  let off := w.obj - 2 ^ 24
  let v := leVal w.bytes
  if off = 0xD00008 then settled s (if v % 16 = 2 then execAdmitDie w.src v s else execFence w.src v got s)
  else if off = 0xD00010 then s.storeReg 4 off v
  else if off = 0x300000 then s.servoAct (.modeWrite w.src v)
  else if off = 0x300038 then (if bit v 0 then s.servoAct (.accept w.src) else s)
  else if off = 0x300040 then s.servoAct (.masterWrite w.src v)
  else
    let c := (off - 0x210038) / 128
    match v % 8 with
    | 1 => settled s (execCtxEnable w.src c s)
    | 2 => settled s (execCtxHalt w.src c s)
    | 3 => settled s (execCtxResume w.src c s)
    | 4 => settled s (execCtxAbort w.src c s)
    | 5 => settled s (execCtxDisable w.src c s)
    | _ => s.schedErr

/-! ## Conflicts (R360 to R365) -/

/-- Is a write one of AGT_RFX_CMD? -/
def SlotWrite.rfxCmd (w : SlotWrite) : Bool := w.obj == regKey 0x400008

/-- Has a write a stop-ward value (R365)? -/
def SlotWrite.stopward (w : SlotWrite) : Bool :=
  let v := leVal w.bytes
  let idx := w.obj / 256
  if w.rfxCmd then v % 8 == 2
  else if w.obj = regKey 0xD00008 then v % 16 == 1
  else if regKey 0x210038 ≤ w.obj ∧ w.obj < regKey 0x220000 then v % 8 == 2 || v % 8 == 4
  else if 0x4400 ≤ idx ∧ idx < 0x4420 ∧ w.obj % 256 = 1 then v == 2
  else w.obj == objKey 0x3C00 1 && v == 1

/-- Does a write concern channel `c`: a write of its command object, or of AGT_RFX_CMD that names it (R325)? -/
def SlotWrite.names (w : SlotWrite) (c : Nat) : Bool :=
  (w.rfxCmd && bit (leVal w.bytes) (32 + c)) || w.obj == objKey (0x4400 + c) 1

/-- Does the later write `b` beat `a` (R364)? -/
def SlotWrite.beats (b a : SlotWrite) : Bool := if a.stopward == b.stopward then decide (b.rank ≤ a.rank) else b.stopward

/-- The place of the winner among the writes that `p` selects, in order of arrival. -/
def winner (p : SlotWrite → Bool) (l : List SlotWrite) : Option Nat :=
  ((l.zipIdx.filter (fun e => p e.1)).foldl (fun (acc : Option (SlotWrite × Nat)) e =>
    match acc with
    | none => some e
    | some a => if e.1.beats a.1 then some e else some a) none).map (·.2)

/-- The channels of AGT_RFX_CMD, as a mask, that the write at place `i` wins. -/
def wonChannels (l : List SlotWrite) (i : Nat) : Nat :=
  maskOf ((List.range 32).filter (fun c => winner (fun w => w.names c) l == some i))

/-- Do two writes of one object contend? Requests to switch a power domain do where they name the same domain (R27, R487). Log entry
124 (DEDUCED). -/
def SlotWrite.rival (w x : SlotWrite) : Bool :=
  x.obj == w.obj && (w.obj != objKey 0x5C00 1 || leVal x.bytes % 64 == leVal w.bytes % 64)

/-- Does the write at place `i` win its object? -/
def wins (l : List SlotWrite) (w : SlotWrite) (i : Nat) : Bool :=
  if w.obj % 256 = 1 ∧ 0x4400 ≤ w.obj / 256 ∧ w.obj / 256 < 0x4420 then
    winner (fun x => x.names (w.obj / 256 - 0x4400)) l == some i
  else winner w.rival l == some i

/-- A write of a register that waited for the end of its slot completes; one of a broadcast completed when it was made. -/
def State.regAnswer (s : State) (w : SlotWrite) (st : Status) : State := if w.mute then s else s.completeWrite w.src st

/-- The register whose write waited, as node, block and byte offset in the block. -/
def SlotWrite.place (w : SlotWrite) : Nat × Nat × Nat :=
  if w.obj = objKey 0x3000 1 then (4, 2, 0x8)
  else if w.reg then (w.obj % 256 - 1, 1, 0)
  else (4, (w.obj - 2 ^ 24) / 0x100000, (w.obj - 2 ^ 24) % 0x100000)

/-- A write of AGT_RFX_CMD at place `i`: its command goes to the channels that it won, and it completes with SUPERSEDED where it lost
one (R325). -/
def State.decideReflex (l : List SlotWrite) (s : State) (w : SlotWrite) (i : Nat) : State :=
  let mask := bits (leVal w.bytes) 32 32
  let m := wonChannels l i
  (if mask ≠ 0 ∧ m = 0 then s else s.rfxCommand (leVal w.bytes % 8) m).regAnswer w (if m = mask then .ok else .superseded)

/-- The effect of a write of a register that has won its slot. -/
def State.writeWon (s : State) (w : SlotWrite) (got : List Nat) : State :=
  if w.obj = objKey 0x3000 1 then settled s (execRsvWrite w.src (leVal w.bytes) s)
  else if w.reg then settled s (execIssuecapWrite w.src (w.obj % 256 - 1) (leVal w.bytes) s)
  else s.writeContended w got

/-- Decide a write of a register at place `i`; one that does not reach its register any longer is turned away. -/
def State.decideRegister (l : List SlotWrite) (got : List Nat) (s : State) (w : SlotWrite) (i : Nat) : State :=
  let p := w.place
  if !s.reaches w.src p.1 p.2.1 p.2.2 then s.turnAway w.src p.1 p.2.1 p.2.2
  else if w.rfxCmd then s.decideReflex l w i
  else if wins l w i then (s.writeWon w got).regAnswer w .ok
  else s.regAnswer w .superseded

/-- Decide one write of the slot `l`: a winner takes effect; a loser changes nothing and completes with the first row of R359 that
applies to it (DEDUCED, log entry 55). -/
def State.decideWrite (l : List SlotWrite) (got : List Nat) (sigOk : Bool) (s : State) (e : SlotWrite × Nat) : State :=
  let w := e.1
  if w.reg || decide (2 ^ 24 ≤ w.obj) then s.decideRegister l got w e.2
  else
    let r := s.writeObject w sigOk
    if wins l w e.2 then
      match r.2 with
      | some v => r.1.writeAnswer w.rank w.mute v w.bytes.length
      | none => r.1
    else
      let v := match r.2 with
        | some v => if v.1 = .ok then Verdict.superseded else v
        | none => Verdict.superseded
      s.writeAnswer w.rank w.mute v w.bytes.length

/-- The order in which the writes of a slot are decided: their order of arrival, but those of the servo's registers last, in the order
of R346. -/
def slotOrder (l : List SlotWrite) : List (SlotWrite × Nat) :=
  (l.zipIdx.filter (fun e => (slotPlace e.1.obj).isNone)) ++
    [1, 2, 3].flatMap (fun k => l.zipIdx.filter (fun e => slotPlace e.1.obj == some k))

/-- SLOT_END: the writes of the slot are decided. `got` are the tiles that an absorbed die still received (R274), `sigOk` says whether the
signature of an image that is written verifies (R489). Samples that waited for a write of the slot follow it (R346). Log entry 59
(DEDUCED). -/
def execSlotEnd (got : List Nat) (sigOk : Bool) (s : State) : Outcome State Fault Refusal := s.onClock <|
  .next ((slotOrder s.dic.slot).foldl (State.decideWrite s.dic.slot got sigOk) (s.setDic { s.dic with slot := [] })).servoNext

/-- Let a write take part in the decision at the end of its slot. -/
def State.stage (s : State) (w : SlotWrite) : State := s.setDic { s.dic with slot := s.dic.slot ++ [w] }

/-! ## Requests (R357 to R361) -/

/-- A whole request: a read is served at once, a write waits for the end of its slot. -/
def State.request (s : State) (rank : Nat) (src : Src) (write : Option (List Byte)) (size : Bool) (idx sub ofs : Nat) : State :=
  match s.dictCheck (roleMask rank false) write size idx sub with
  | some v => s.dictRefuse rank v
  | none =>
    match write with
    | some b => s.stage { rank := rank, src := src, obj := objKey idx sub, bytes := b }
    | none =>
      let b := s.objBytes false idx sub
      s.dictAnswer rank false .ok (some b.length) (some (if rank = 2 ∨ rank = 3 then (b.drop ofs).take 8 else b.drop ofs))

/-- The interface of a request port. -/
def portSrc (p : Nat) : Src := if p = 0 then .sideband else .pf1

/-- Is request port `p` reached: port 0 over the sideband, port 1 through PF1 (R358, R374)? -/
def State.dictPort (s : State) (p : Nat) : Bool :=
  decide (p < 2) && s.domOn 32 && s.reaches (portSrc p) 4 0 (0x1000 + 32 * p)

/-- DICT_READ: a write of REQ of port `p` with OP READ (R358). An OFFSET that is no multiple of 8 or lies beyond the object is refused
for its size (DEDUCED, log entry 53). -/
def execDictRead (p idx sub ofs : Nat) (s : State) : Outcome State Fault Refusal := s.onClock <|
  if !s.dictPort p then .next s
  else if s.isSet AGT_UNC_DICT_RSP.BUSY p then .next (s.set AGT_UNC_DICT_RSP.CFG_ERR p 1)
  else
    let len := (s.objBytes false idx sub).length
    .next ((s.set AGT_UNC_DICT_RSP.BUSY p 1).request (2 + p) (portSrc p) none (ofs % 8 == 0 && (ofs == 0 || decide (ofs < len))) idx sub ofs)

/-- Bytes of an object that is being written, as far as they are known: its type's, or what names the length of a DOMAIN (R366, R382,
R383, R488, DEDUCED, log entry 53). -/
def State.writeSize (s : State) (idx sub : Nat) (staged : List Byte) : Option Nat :=
  match objRow idx sub with
  | none => some 8
  | some r =>
    match typeBytes r.typ with
    | some n => some n
    | none =>
      if idx = 0x2C03 then some (max 1 (16 * s.obj 0 0x2C03 2))
      else if 0x2C40 ≤ idx ∧ idx < 0x2C44 then some (max 1 (8 * s.obj 1 idx 4))
      else if staged.length < 24 then none else some (256 + leVal ((staged.drop 16).take 4))

/-- DICT_WRITE: a write of REQ of port `p` with OP WRITE; the segment is in DATA (R358). -/
def execDictWrite (p idx sub ofs : Nat) (s : State) : Outcome State Fault Refusal := s.onClock <|
  if !s.dictPort p then .next s
  else if s.isSet AGT_UNC_DICT_RSP.BUSY p then .next (s.set AGT_UNC_DICT_RSP.CFG_ERR p 1)
  else
    let rank := 2 + p
    let s1 := s.set AGT_UNC_DICT_RSP.BUSY p 1
    let seg := leBytes 8 (s.get AGT_UNC_DICT_DATA.VALUE p)
    let old := match tfind s.dic.staged rank with
      | some x => if x.1 = objKey idx sub then some x.2 else none
      | none => none
    let drop' (st : State) : State := st.setDic { st.dic with staged := tdel st.dic.staged rank }
    let fits := ofs % 8 == 0 && (ofs == 0 || (match old with
      | some b => decide (ofs ≤ b.length)
      | none => false))
    if !fits then .next ((drop' s1).request rank (portSrc p) (some seg) false idx sub 0)
    else
      let buf := (old.getD []).take ofs ++ seg
      let more := (s1.setDic { s1.dic with staged := tset s1.dic.staged rank (objKey idx sub, buf) }).dictAnswer rank false .ok none none
      match s.writeSize idx sub buf with
      | none => .next more
      | some total =>
        if domainMax < total then .next ((drop' s1).request rank (portSrc p) (some buf) false idx sub 0)
        else if total ≤ ofs + 8 then .next ((drop' s1).request rank (portSrc p) (some (buf.take total)) true idx sub 0)
        else .next more

/-- A request over a field bus or the safety channel; the value of a write is complete. -/
def State.busRequest (s : State) (rank : Nat) (src : Src) (write : Option (List Byte)) (idx sub : Nat) : State :=
  if s.agateReloads && rank != 1 then s.dictAnswer rank false .busy none none else s.request rank src write true idx sub 0

/-- USDO_REQUEST on CAN channel `c` (R357, R384). -/
def execUsdoRequest (c idx sub : Nat) (write : Option (List Byte)) (s : State) : Outcome State Fault Refusal := s.onClock <|
  if 2 ≤ c || !s.domOn 34 || s.get AGT_NET_CANSTAT.STATE c == 2 then .next s else .next (s.busRequest 4 .mgmt write idx sub)

/-- COE_SDO_REQUEST from the subdevice at position `n` (R357). -/
def execCoeSdoRequest (n idx sub : Nat) (write : Option (List Byte)) (s : State) : Outcome State Fault Refusal := s.onClock <|
  if 128 ≤ n || !s.ecatRuns then .next s else .next (s.busRequest 5 .mgmt write idx sub)

/-- SAFETY_DICT_REQUEST: from Scarab over link 8 (R357). -/
def execSafetyDictRequest (idx sub : Nat) (write : Option (List Byte)) (s : State) : Outcome State Fault Refusal := s.onClock <|
  if !s.domOn 40 || s.pwr.scarabHalted || s.linkState 8 == 0 then .next s else .next (s.busRequest 1 .scarab write idx sub)

/-! ## Stores, defaults and loading (R366 to R369) -/

/-- Rank of an interface that may store. -/
def Src.dictRank (src : Src) : Nat := if src = .scarab then 1 else if src = .sideband then 2 else 3

/-- STORE_PARAMETERS: the write of 0x6576_6173 to object 0x1010:0x01 by MAINT or HOST, decided. -/
def execStoreParameters (src : Src) (s : State) : Outcome State Fault Refusal := s.onClock <|
  if !Src.maintOrHost src then .next (s.denyWrite src)
  else if s.flashBusy then .next (s.dictAnswer (Src.dictRank src) false .busy none none)
  else .next ((s.storeBegin src false).set AGT_UNC_DICT_RSP.BUSY (Src.dictRank src - 2) 1)

/-- STORE_COMPLETE: `ok` says that the target passes the check of its read-back. The abort code of a failed store is a free value.
Log entry 111 (DEDUCED). -/
def execStoreComplete (ok : Bool) (s : State) : Outcome State Fault Refusal := s.onClock <|
  match s.dic.store with
  | none => .next s
  | some j =>
    let s1 := s.setDic { s.dic with store := none }
    if ok && CfgCopy.fits ⟨j.seq, j.records⟩ then
      let s2 := s1.setCfgCopy j.copy (some ⟨j.seq, j.records⟩)
      .next ((s2.setDic { s2.dic with current := some j.copy }).writeAnswer (Src.dictRank j.src) j.mute .ok 4)
    else
      let d := s1.draw
      .next (d.2.writeAnswer (Src.dictRank j.src) j.mute (.tileUncorrectable, d.1 % 2 ^ 32) 4)

/-- RESTORE_DEFAULTS: the write of 0x6461_6F6C to object 0x1011:0x01 by MAINT or HOST, decided. -/
def execRestoreDefaults (src : Src) (s : State) : Outcome State Fault Refusal := s.onClock <|
  .next (if Src.maintOrHost src then s.restoreDefaults else s.denyWrite src)

/-- Is a record of an image one that loads: the object exists, is persistent, has its type, and holds a value of its range? -/
def State.recordOk (s : State) (e : CfgRecord) : Bool :=
  match objRow (e.obj / 256) (e.obj % 256) with
  | none => false
  | some r =>
    r.persist && r.typ == e.typ &&
    (match typeBytes r.typ with
     | some n => e.value.length == n && s.inRange r (e.obj / 256) (e.obj % 256) (leVal e.value)
     | none => !e.value.isEmpty && tableFits (e.obj / 256) e.value)

/-- A record of the selected copy: kept and loaded, or skipped and counted. One whose register cannot be reached waits for its unit
(log entry 107). -/
def State.loadRecord (s : State) (e : CfgRecord) : State :=
  if s.recordOk e then
    let s1 := s.setDic { s.dic with image := tset s.dic.image e.obj e.value }
    if s1.unmappedObject e.obj then s1 else
      let s2 := s1.loadObject e.obj e.value
      match mirror (e.obj / 256) (e.obj % 256) with
      | some off => s2.wrote off
      | none => s2
  else s.setDic { s.dic with skipped := s.dic.skipped + 1 }

/-- The copy that is selected among the valid ones (R367). -/
def State.selectCopy (s : State) : Option Nat :=
  match s.dic.copy0, s.dic.copy1 with
  | some a, some b => some (if a.seq != b.seq && serialGe b.seq a.seq then 1 else 0)
  | some _, none => some 0
  | none, some _ => some 1
  | none, none => none

/-- Bring-up step 8: select a copy and load it; then every RWL field is locked (R6, R367, R472). Bit `k` of `sigOk` says that the
signature of copy `k` verifies. Log entry 9 (DEDUCED). -/
def State.cfgLoad (s : State) (sigOk : Nat) : State :=
  let s1 := s.setDic { s.dic with
    copy0 := if bit sigOk 0 then s.dic.copy0.filter CfgCopy.fits else none
    copy1 := if bit sigOk 1 then s.dic.copy1.filter CfgCopy.fits else none
    skipped := 0, image := [] }
  let sel := s1.selectCopy
  let s2 := s1.setDic { s1.dic with loaded := sel, current := sel }
  let s3 := match sel.bind s2.cfgCopy with
    | some c => c.records.foldl State.loadRecord s2
    | none => s2
  let s4 : State := { s3 with pkg := { s3.pkg with rwlLocked := true } }
  s4.buSettle .ok (sel.getD 3 + s4.dic.skipped * 2 ^ 32)

/-- CFG_LOAD (R367, R472 step 8). -/
def execCfgLoad (arg sigOk : Nat) (s : State) : Outcome State Fault Refusal :=
  .next (s.buStep 8 arg 0 true (fun st => st.cfgLoad sigOk))

end Sys2Proof.Machine
end

