-- ==== Sys2Proof/Machine/Access.lean ====
section
/-! DEFINITION. REGISTER_WRITE, the owner's exact reads, the answers to refusals, and the SRDOs (R18, R357, R360, R372, R405, R421,
R436, R438). -/

namespace Sys2Proof.Machine

open Reg Host

/-! ## REGISTER_WRITE -/

/-- Rank in a same-slot conflict of who writes a register (R357, R360); a requester that is no interface of the dictionary comes
last. Log entry 115 (DEDUCED). -/
def Src.rank (src : Src) : Nat :=
  match src with
  | .scarab => 1
  | .sideband => 2
  | .pf0 | .pf1 | .vf _ | .owner => 3
  | _ => 6

/-- Is the register at byte `off` of the register space of Agate one of R360? -/
def contended (off : Nat) : Bool :=
  off == 0xD00008 || off == 0xD00010 || off == 0x400008 || off == 0x300000 || off == 0x300038 || off == 0x300040 ||
  (decide (0x210000 ≤ off) && decide (off < 0x220000) && off % 128 == 0x38)

/-- The object that a register is, whose writes are decided with those of the object (R102, R316). -/
def objectAt (node off : Nat) : Option Nat :=
  if node = 4 ∧ off = 0x200008 then some (objKey 0x3000 1)
  else if node < 4 ∧ off = 0x100000 then some (objKey 0x5800 (node + 1))
  else none

/-- Does a write of a register wait for the end of its slot? -/
def defers (node off : Nat) : Bool := (node == 4 && contended off) || (objectAt node off).isSome

/-- Does only the sideband (MAINT) own what the register at byte `off` mirrors (R362, R414, DEDUCED, log entry 57)? -/
def maintOwned (off : Nat) : Bool := decide (0x600100 ≤ off) && decide (off < 0x600300)

/-- A write of a register of an Onyx whose write is a row of its own: that row's effect. -/
def State.onyxOwnWrite (s : State) (src : Src) (node off val : Nat) : State :=
  settled s (
    if off = 0x500000 then execWaymodeWrite src node val s
    else if 0x110000 ≤ off ∧ off < 0x130000 ∨ (fieldsAt node off).any (fun e => e.1 == ONX_M_BIASCFG.MODE) then
      execBiasTableWrite src node (off - 0x100000) val s
    else if 0x210000 ≤ off ∧ off < 0x214000 ∨ (fieldsAt node off).any (fun e => e.1 == ONX_Q_GCFG.XMIN) then
      execGateTableWrite src node (off - 0x200000) val s
    else if off = 0x180 then execHintWrite src node val s
    else
      match (fieldsAt node off).find? (fun e => ownFields.contains e.1) with
      | some (f, i) =>
        if f = ONX_M_KVPOOL.BASE then execKvpoolWrite src node i val s
        else if f = ONX_Q_STEP.ADD then execStreamDoorbell src node i val s
        else if f = ONX_G_MAPCFG.DIR_BASE then execMapcfgWrite src node i 0 val s
        else if f = ONX_G_MAPPOOL.POOL_BASE then execMapcfgWrite src node i 1 val s
        else if f = ONX_G_MAPORG.OX then execMapcfgWrite src node i 2 val s
        else .next s
      | none => .next s)

/-- A write of AGT_BU_CMD: the effect of the row of its OP, where that row carries nothing but ARG; a reserved code completes with
BAD_DESCRIPTOR (R470, R472, R479, R483, R486). The other codes are left to their rows, which carry what the silicon finds. -/
def State.buCmdWrite (s : State) (val : Nat) : State :=
  let arg := val / 256
  let op := val % 256
  settled s (
    if op = 1 then execDomains arg s
    else if op = 0xA then execOutputEnable arg s
    else if op = 0x10 ∧ arg % 4 = 2 then execPartitionReset arg s
    else if op = 0x10 ∧ arg % 4 = 3 then execPackageReset arg s
    else if op = 0x11 then execShutdown arg s
    else if op = 0x12 then execShutdownAbort s
    else if (2 ≤ op ∧ op ≤ 9) ∨ op = 0x10 then .next s
    else .next (s.buWrite op arg (fun st => st.buSettle .badDescriptor 0)))

/-- A write of a register of Agate whose write is a row of its own and carries nothing but the value written: that row's effect. The
others (some codes of AGT_BU_CMD, the mailboxes, MBX_REQ and SNAP) are left to their rows, which carry what the silicon or the outside
adds. -/
def State.agateOwnWrite (s : State) (src : Src) (off val : Nat) : State :=
  match (fieldsAt 4 off).find? (fun e => ownFields.contains e.1) with
  | none => s
  | some (f, i) =>
    settled s (
      if f = AGT_SCHED_HOSTEVQ.BASE then execEvqWrite src 16 val s
      else if f = AGT_SCHED_PART_EVQ.BASE then execEvqWrite src i val s
      else if f = AGT_SCHED_PART_CFG.MODE then execPartCfgWrite src i val s
      else if f = AGT_SCHED_CTX_DB.SQ_TAIL then execCtxDb src i val s
      else if f = AGT_RFX_SWAP.CHMASK then execSwap src (bits val 0 32) s
      else if f = AGT_TIME_RATE.RATE then execRateWrite src val s
      else if f = AGT_TIME_ADJ.ADD then execAdjWrite src val s
      else if f = AGT_TIME_SWSAMPLE.THETA then execSwsample src val s
      else if f = AGT_ECAT_MBX_REQ.OP then
        (if val % 4 = 1 then execMbxRead src val s else if val % 4 = 2 then .next s else .next (s.set AGT_ECAT_MBX_RSP.CFG_ERR 0 1))
      else if f = AGT_NET_TXDB.TAIL then execTxDoorbell src i val s
      else if f = AGT_CMP_HB.COUNT then execHbWrite src val s
      else if f = AGT_ING_READMIT.CAM then execReadmit src val s
      else if f = AGT_ING_EXCLUDE.CAM then execExclude src val s
      else if f = AGT_ING_CAMCFG.ENABLE then execCamcfgWrite src i 0 val s
      else if f = AGT_ING_CAMBUF.BASE then execCamcfgWrite src i 1 val s
      else if f = AGT_ING_RELEASE.MASK then execReleaseBuffer src i val s
      else if f = AGT_ING_IMUCFG.ENABLE then execImucfgWrite src i val s
      else if f = AGT_ING_EGOCFG.ENABLE then execEgocfgWrite src val s
      else if f = AGT_BU_CMD.OP then .next (s.buCmdWrite val)
      else if f = BRL_CH_TRIM.HI_OFS then execBrlChTrimWrite src i val s
      else .next s)

/-- A write that arrives at a register of a node, in a broadcast where `mute`. A write of REQ of a dictionary port is that request, a
write of a register that slots decide waits for the end of its slot, and a register with a row of its own takes that row's effect. -/
def State.regWrite (s : State) (src : Src) (mute : Bool) (node off val : Nat) : State :=
  if node = 4 ∧ 0x1000 ≤ off ∧ off < 0x1040 then
    let p := (off - 0x1000) / 32
    if src ≠ portSrc p then s
    else if off % 32 = 0 then
      if val % 4 = 1 then settled s (execDictRead p (bits val 16 16) (bits val 8 8) (bits val 32 24) s)
      else if val % 4 = 2 then settled s (execDictWrite p (bits val 16 16) (bits val 8 8) (bits val 32 24) s)
      else s.set AGT_UNC_DICT_RSP.CFG_ERR p 1
    else s.storeReg 4 off val
  else if defers node off then
    s.stage { rank := Src.rank src, src := src, obj := (objectAt node off).getD (regKey off), bytes := leBytes 8 val, mute := mute
              reg := (objectAt node off).isSome }
  else if (fieldsAt node off).any (fun e => ownFields.contains e.1) || (node != 4 && inWindow node off) then
    (if node = 4 then s.agateOwnWrite src off val else s.onyxOwnWrite src node off val)
  else s.storeReg node off val

/-- A write to one node. -/
def State.nodeWrite (s : State) (src : Src) (mute : Bool) (a val : Nat) : State :=
  let off := localOf a - 0x2000000000
  if s.arrives src (nodeOf a) (off / 0x100000) (off % 0x100000) then s.regWrite src mute (nodeOf a) off val else s.turned src

/-- A broadcast write: to every admitted Onyx whose register is mapped (R15, R16). -/
def State.broadcastWrite (s : State) (src : Src) (a val : Nat) : State :=
  let dies := (List.range 4).filter s.admitted
  let ok := dies.filter (fun n => s.mapped (glob n (localOf a)))
  let s1 := ok.foldl (fun st n => st.nodeWrite src true (glob n (localOf a)) val) s
  s1.completeWrite src (if ok.length = dies.length then .ok else .badDescriptor)

/-- Is a write at byte `off` of the register space of a node refused for who makes it: AGT_CMP_HB and the check buffers are Scarab's, the
main buffers an admitted Onyx's, what object 0x3C10 + g mirrors the sideband's, and RSV and SW_CAP those of MAINT and HOST (R102, R316,
R362, R396, R411, R414)? A broadcast counts as a write to an Onyx. -/
def State.writeDenied (s : State) (src : Src) (node off : Nat) : Bool :=
  if node ≠ 4 then (node < 4 || node = 0xF) && off == 0x100000 && !Src.maintHost src
  else if off = 0x200008 then !Src.maintHost src
  else if maintOwned off then src != .sideband && src != .mgmt
  else if off = 0x600020 ∨ (0x650000 ≤ off ∧ off < 0x690000) then src != .scarab
  else if 0x610000 ≤ off ∧ off < 0x650000 then (match src with
    | .onyx n => !s.admitted n
    | _ => true)
  else false

/-- REGISTER_WRITE (R6, R15 to R20, R374): a write request of `src`. One that is refused completes with its status; one that reaches
register space takes effect; one to a place of memory that it may reach changes nothing here, since the table has no row for a plain
write of memory (log entry 19, DEDUCED). -/
def execRegisterWrite (src : Src) (a val : Nat) (s : State) : Outcome State Fault Refusal := s.onClock <|
    match s.requestRefused src a true with
    | some st => .next (s.refuseRequest src st)
    | none =>
      let off := localOf a - 0x2000000000
      let here := s.arrives src (nodeOf a) (off / 0x100000) (off % 0x100000)
      if localOf a < 0x2000000000 ∨ 0x2010000000 ≤ localOf a then .next s
      else if s.writeDenied src (nodeOf a) off && here then .next (s.denyWrite src)
      else if nodeOf a = 0xF then .next (s.broadcastWrite src a val)
      else if defers (nodeOf a) off && here then .next (s.nodeWrite src false a val)
      else .next ((s.nodeWrite src false a val).completeWrite src .ok)

/-! ## The owner's requests (R421, R438) -/

/-- DICT: a dictionary request with role OWNER in a session; no object lets that role write. A request that R359 refuses is answered
DENIED (DEDUCED, log entry 56). -/
def execDict (p : Nat) (a : Auth) (idx sub : Nat) (write : Option (List Byte)) (s : State) : Outcome State Fault Refusal := s.onClock <|
  .next (s.mailbox p 0x10 (fun st => st.owned p a (fun _ t =>
    match t.dictCheck 16 write true idx sub with
    | some _ => t.deny
    | none => t.answer (t.objBytes true idx sub))))

/-- What a command that reads a register emits, as the value of that read. -/
def State.readBy (s : State) (o : Outcome State Fault Refusal) : State × Nat :=
  let t := settled s o
  ({ t with out := s.out }, match t.out.getLast? with
    | some (.value v) => v
    | _ => 0)

/-- An exact read of one register by its global address: reads with an effect have it (R6, R240, R347, R350). -/
def State.exactRead (s : State) (a : Nat) : State × Nat :=
  let node := nodeOf a
  let off := localOf a - 0x2000000000
  if node = 4 ∧ off = 0x300010 then s.readBy (execNowRead .secUnit s)
  else if node = 4 ∧ (off = 0x300100 ∨ off = 0x300120) then s.readBy (execTxtsqRead .secUnit ((off - 0x300100) / 32) s)
  else if node = 4 ∧ 0xB00100 ≤ off ∧ off < 0xB00400 ∧ off % 64 = 0x20 then s.claimRead ((off - 0xB00100) / 64)
  else (s.clearRead node off, s.readReg true node off)

/-- May REGREAD name an address: a mapped register of a node that can be reached? -/
def State.readable (s : State) (a : Nat) : Bool :=
  decide (0x2000000000 ≤ localOf a) && decide (localOf a < 0x2010000000) && (s.requestRefused .secUnit a false).isNone

/-- REGREAD: up to 64 registers by global address, read exactly, 8 bytes each. A list that is longer, or that names what cannot be
read, is answered DENIED (DEDUCED, log entry 56). -/
def execRegread (p : Nat) (a : Auth) (addrs : List Nat) (s : State) : Outcome State Fault Refusal := s.onClock <|
  .next (s.mailbox p 0x11 (fun st => st.owned p a (fun _ t =>
    if 64 < addrs.length || !addrs.all t.readable then t.deny
    else
      let r := addrs.foldl (fun (acc : State × List Byte) x =>
        let y := acc.1.exactRead x
        (y.1, acc.2 ++ leBytes 8 y.2)) (t, [])
      r.1.answer r.2)))

/-! ## Answers to refusals (R436) -/

/-- DENIED_RESPONSE, 20 µs after the acceptance or arrival: of a dictionary request of the interface of rank `a` (`dict`), or of
the command with SEQ `b` of context `a`. -/
def execDeniedResponse (dict : Bool) (a b : Nat) (s : State) : Outcome State Fault Refusal := s.onClock <|
  if dict then
    if s.dic.denied.contains a then
      .next ((s.setDic { s.dic with denied := s.dic.denied.erase a }).dictAnswer a false .denied none none)
    else .next s
  else
    match s.cmd (a * 2 ^ 32 + b) with
    | none => .next s
    | some x =>
      if x.phase == .finished && x.status == .denied then .next ((s.complete x .denied x.result 0xF).abortSweep a) else .next s

/-! ## SRDOs (R372, R405) -/

/-- The bytes that SRDO `n` maps: the objects of the odd entries of its mapping, in order (EN 50325-5, PRESUMED, log entry 51). -/
def State.srdoBytes (s : State) (n : Nat) : List Byte :=
  let o := 0x1380 + n
  ((List.range (s.obj 0 o 0)).filter (fun k => k % 2 == 0)).flatMap (fun k =>
    let e := s.obj 0 o (k + 1)
    (s.objBytes false (e / 2 ^ 16) (e / 2 ^ 8 % 2 ^ 8)).take (e % 2 ^ 8 / 8))

/-- SRDO_TRANSMIT: SRDO `n`, from 1 to 64, is sent where it is configured to be: its bytes, and their complement. -/
def execSrdoTransmit (n : Nat) (s : State) : Outcome State Fault Refusal := s.onClock <|
  if n = 0 || 64 < n || !s.domOn 34 || s.obj 0 (0x1300 + n) 1 ≠ 1 || s.obj 0 0x13FE 0 ≠ 0xA5 then .next s
  else .next (s.emit (.srdo n (s.srdoBytes n) ((s.srdoBytes n).map (fun b => ~~~b))))

end Sys2Proof.Machine
end

