-- ==== Sys2Proof/Machine/Dispatch.lean ====
section
/-! DEFINITION. The meaning of each command: one arm for each constructor. -/

namespace Sys2Proof.Machine

/-- The effect of a command on everything but the queue. -/
def exec (i : Instr) (s : State) : Host.Outcome State Fault Refusal :=
  match i with
  | .vddAonApply => Sys2Proof.Machine.execVddAonApply s
  | .vddAonLoss => Sys2Proof.Machine.execVddAonLoss s
  | .buResetNAssert => Sys2Proof.Machine.execBuResetNAssert s
  | .buResetNDeassert => Sys2Proof.Machine.execBuResetNDeassert s
  | .refclkLoss => Sys2Proof.Machine.execRefclkLoss s
  | .registerWrite src a val => Sys2Proof.Machine.execRegisterWrite src a val s
  | .domains arg => Sys2Proof.Machine.execDomains arg s
  | .domainSwitchDone => Sys2Proof.Machine.execDomainSwitchDone s
  | .rootPll arg locks => Sys2Proof.Machine.execRootPll arg locks s
  | .fuseLoad arg agateOk bad => Sys2Proof.Machine.execFuseLoad arg agateOk bad s
  | .startTest arg r => Sys2Proof.Machine.execStartTest arg r s
  | .fmax arg r => Sys2Proof.Machine.execFmax arg r s
  | .discover arg trained half info => Sys2Proof.Machine.execDiscover arg trained half info s
  | .fwLoad arg unverified => Sys2Proof.Machine.execFwLoad arg unverified s
  | .cfgLoad arg sigOk => Sys2Proof.Machine.execCfgLoad arg sigOk s
  | .inject arg pass => Sys2Proof.Machine.execInject arg pass s
  | .outputEnable arg => Sys2Proof.Machine.execOutputEnable arg s
  | .buStepComplete => Sys2Proof.Machine.execBuStepComplete s
  | .buQueuedRequestStart got => Sys2Proof.Machine.execBuQueuedRequestStart got s
  | .domainRequest src val => Sys2Proof.Machine.execDomainRequest src val s
  | .resetRequest src val => Sys2Proof.Machine.execResetRequest src val s
  | .coreReset arg got => Sys2Proof.Machine.execCoreReset arg got s
  | .dieReset arg got => Sys2Proof.Machine.execDieReset arg got s
  | .partitionReset arg => Sys2Proof.Machine.execPartitionReset arg s
  | .packageReset arg => Sys2Proof.Machine.execPackageReset arg s
  | .resetDrainTimeout got => Sys2Proof.Machine.execResetDrainTimeout got s
  | .resetComplete r => Sys2Proof.Machine.execResetComplete r s
  | .shutdown arg => Sys2Proof.Machine.execShutdown arg s
  | .quiesceEnd => Sys2Proof.Machine.execQuiesceEnd s
  | .regionBistComplete d pass => Sys2Proof.Machine.execRegionBistComplete d pass s
  | .shutdownOff => Sys2Proof.Machine.execShutdownOff s
  | .shutdownAbort => Sys2Proof.Machine.execShutdownAbort s
  | .copy c seq errs bad => Sys2Proof.Machine.execCopy c seq errs bad s
  | .broadcastCopy c seq errs => Sys2Proof.Machine.execBroadcastCopy c seq errs s
  | .fill c seq bad => Sys2Proof.Machine.execFill c seq bad s
  | .flush c seq errs => Sys2Proof.Machine.execFlush c seq errs s
  | .evict c seq errs => Sys2Proof.Machine.execEvict c seq errs s
  | .discard c seq => Sys2Proof.Machine.execDiscard c seq s
  | .prefetch c seq errs => Sys2Proof.Machine.execPrefetch c seq errs s
  | .wayflush c seq errs => Sys2Proof.Machine.execWayflush c seq errs s
  | .tileStart node => Sys2Proof.Machine.execTileStart node s
  | .tileComplete c seq index errs bad => Sys2Proof.Machine.execTileComplete c seq index errs bad s
  | .t3Timeout c seq index received => Sys2Proof.Machine.execT3Timeout c seq index received s
  | .patrolScrub node sector found => Sys2Proof.Machine.execPatrolScrub node sector found s
  | .waymodeWrite src node val => Sys2Proof.Machine.execWaymodeWrite src node val s
  | .matmul node errs => Sys2Proof.Machine.execMatmul node errs s
  | .scanOnly node errs => Sys2Proof.Machine.execScanOnly node errs s
  | .conv node errs => Sys2Proof.Machine.execConv node errs s
  | .dwconv node errs => Sys2Proof.Machine.execDwconv node errs s
  | .poolAvg node errs => Sys2Proof.Machine.execPoolAvg node errs s
  | .poolMax node errs => Sys2Proof.Machine.execPoolMax node errs s
  | .tconv node errs => Sys2Proof.Machine.execTconv node errs s
  | .relayout node errs => Sys2Proof.Machine.execRelayout node errs s
  | .add node errs => Sys2Proof.Machine.execAdd node errs s
  | .mul node errs => Sys2Proof.Machine.execMul node errs s
  | .fma node errs => Sys2Proof.Machine.execFma node errs s
  | .max node errs => Sys2Proof.Machine.execMax node errs s
  | .min node errs => Sys2Proof.Machine.execMin node errs s
  | .cvt node errs => Sys2Proof.Machine.execCvt node errs s
  | .act node errs => Sys2Proof.Machine.execAct node errs s
  | .rsum node errs => Sys2Proof.Machine.execRsum node errs s
  | .rmax node errs => Sys2Proof.Machine.execRmax node errs s
  | .softmax node errs => Sys2Proof.Machine.execSoftmax node errs s
  | .rmsnorm node errs => Sys2Proof.Machine.execRmsnorm node errs s
  | .layernorm node errs => Sys2Proof.Machine.execLayernorm node errs s
  | .padd node errs => Sys2Proof.Machine.execPadd node errs s
  | .pround node errs => Sys2Proof.Machine.execPround node errs s
  | .issuecapWrite src node val => Sys2Proof.Machine.execIssuecapWrite src node val s
  | .score node errs => Sys2Proof.Machine.execScore node errs s
  | .value node errs => Sys2Proof.Machine.execValue node errs s
  | .kvWrite node errs => Sys2Proof.Machine.execKvWrite node errs s
  | .kvAlloc node errs => Sys2Proof.Machine.execKvAlloc node errs s
  | .kvMark node errs => Sys2Proof.Machine.execKvMark node errs s
  | .kvSeal node errs => Sys2Proof.Machine.execKvSeal node errs s
  | .kvDrop node errs => Sys2Proof.Machine.execKvDrop node errs s
  | .kvFree node errs => Sys2Proof.Machine.execKvFree node errs s
  | .kvAdopt node errs => Sys2Proof.Machine.execKvAdopt node errs s
  | .kvPin node errs => Sys2Proof.Machine.execKvPin node errs s
  | .kvpoolWrite src node p val => Sys2Proof.Machine.execKvpoolWrite src node p val s
  | .kvpoolInitDone node p => Sys2Proof.Machine.execKvpoolInitDone node p s
  | .biasTableWrite src node off val => Sys2Proof.Machine.execBiasTableWrite src node off val s
  | .scan node errs => Sys2Proof.Machine.execScan node errs s
  | .streamOpen node errs => Sys2Proof.Machine.execStreamOpen node errs s
  | .streamClose node => Sys2Proof.Machine.execStreamClose node s
  | .streamDoorbell src node slot val => Sys2Proof.Machine.execStreamDoorbell src node slot val s
  | .streamStep node => Sys2Proof.Machine.execStreamStep node s
  | .streamStepComplete node errs => Sys2Proof.Machine.execStreamStepComplete node errs s
  | .map node errs => Sys2Proof.Machine.execMap node errs s
  | .gmul node errs => Sys2Proof.Machine.execGmul node errs s
  | .decay node errs => Sys2Proof.Machine.execDecay node errs s
  | .gateTableWrite src node off val => Sys2Proof.Machine.execGateTableWrite src node off val s
  | .factor node errs => Sys2Proof.Machine.execFactor node errs s
  | .solve node errs => Sys2Proof.Machine.execSolve node errs s
  | .update node errs => Sys2Proof.Machine.execUpdate node errs s
  | .trsolve node errs => Sys2Proof.Machine.execTrsolve node errs s
  | .integrate node errs => Sys2Proof.Machine.execIntegrate node errs s
  | .commit node => Sys2Proof.Machine.execCommit node s
  | .commitWaitEnd node errs => Sys2Proof.Machine.execCommitWaitEnd node errs s
  | .point node pipe errs => Sys2Proof.Machine.execPoint node pipe errs s
  | .edge node pipe errs => Sys2Proof.Machine.execEdge node pipe errs s
  | .repair node pipe errs => Sys2Proof.Machine.execRepair node pipe errs s
  | .tree node errs => Sys2Proof.Machine.execTree node errs s
  | .roadmap node errs => Sys2Proof.Machine.execRoadmap node errs s
  | .prim node errs => Sys2Proof.Machine.execPrim node errs s
  | .mapcfgWrite src node m reg val => Sys2Proof.Machine.execMapcfgWrite src node m reg val s
  | .mapInitDone node m => Sys2Proof.Machine.execMapInitDone node m s
  | .commandFetch c errs => Sys2Proof.Machine.execCommandFetch c errs s
  | .sqFetchFail c timeout => Sys2Proof.Machine.execSqFetchFail c timeout s
  | .commandDispatch node inst => Sys2Proof.Machine.execCommandDispatch node inst s
  | .preemptionPoint node inst units errs => Sys2Proof.Machine.execPreemptionPoint node inst units errs s
  | .commandComplete c seq => Sys2Proof.Machine.execCommandComplete c seq s
  | .t0Switch node core r => Sys2Proof.Machine.execT0Switch node core r s
  | .t0SwitchComplete node core => Sys2Proof.Machine.execT0SwitchComplete node core s
  | .ctxDb src c val => Sys2Proof.Machine.execCtxDb src c val s
  | .ctxEnable src c => Sys2Proof.Machine.execCtxEnable src c s
  | .ctxHalt src c => Sys2Proof.Machine.execCtxHalt src c s
  | .ctxResume src c => Sys2Proof.Machine.execCtxResume src c s
  | .ctxAbort src c => Sys2Proof.Machine.execCtxAbort src c s
  | .ctxDisable src c => Sys2Proof.Machine.execCtxDisable src c s
  | .evqWrite src ring val => Sys2Proof.Machine.execEvqWrite src ring val s
  | .partCfgWrite src p val => Sys2Proof.Machine.execPartCfgWrite src p val s
  | .rsvWrite src val => Sys2Proof.Machine.execRsvWrite src val s
  | .packetCrcError l atUpper pkt got => Sys2Proof.Machine.execPacketCrcError l atUpper pkt got s
  | .linkDown l got => Sys2Proof.Machine.execLinkDown l got s
  | .packetAuthFail c seq index j errs => Sys2Proof.Machine.execPacketAuthFail c seq index j errs s
  | .heartbeatSend => Sys2Proof.Machine.execHeartbeatSend s
  | .heartbeatAnswer n => Sys2Proof.Machine.execHeartbeatAnswer n s
  | .lossTimeout n got => Sys2Proof.Machine.execLossTimeout n got s
  | .uncoreFatal n got => Sys2Proof.Machine.execUncoreFatal n got s
  | .fence src val got => Sys2Proof.Machine.execFence src val got s
  | .fenceDrainEnd got => Sys2Proof.Machine.execFenceDrainEnd got s
  | .admitDie src val => Sys2Proof.Machine.execAdmitDie src val s
  | .epochRelease => Sys2Proof.Machine.execEpochRelease s
  | .csiFrameStart p f => Sys2Proof.Machine.execCsiFrameStart p f s
  | .csiFrameEnd p err f => Sys2Proof.Machine.execCsiFrameEnd p err f s
  | .frameReady p => Sys2Proof.Machine.execFrameReady p s
  | .frameMissing p => Sys2Proof.Machine.execFrameMissing p s
  | .claim src p => Sys2Proof.Machine.execClaim src p s
  | .releaseBuffer src p val => Sys2Proof.Machine.execReleaseBuffer src p val s
  | .exclude src val => Sys2Proof.Machine.execExclude src val s
  | .readmit src val => Sys2Proof.Machine.execReadmit src val s
  | .camcfgWrite src p reg val => Sys2Proof.Machine.execCamcfgWrite src p reg val s
  | .snap src mask busy => Sys2Proof.Machine.execSnap src mask busy s
  | .snapHeldRun => Sys2Proof.Machine.execSnapHeldRun s
  | .imuDrdy unit => Sys2Proof.Machine.execImuDrdy unit s
  | .imuBurstComplete unit burst => Sys2Proof.Machine.execImuBurstComplete unit burst s
  | .imucfgWrite src unit val => Sys2Proof.Machine.execImucfgWrite src unit val s
  | .encoderEdge e l => Sys2Proof.Machine.execEncoderEdge e l s
  | .egoTick => Sys2Proof.Machine.execEgoTick s
  | .egoEval => Sys2Proof.Machine.execEgoEval s
  | .egocfgWrite src val => Sys2Proof.Machine.execEgocfgWrite src val s
  | .apply => Sys2Proof.Machine.execApply s
  | .sampleBoundary sps vms desat => Sys2Proof.Machine.execSampleBoundary sps vms desat s
  | .comparatorCrossing c upper p n => Sys2Proof.Machine.execComparatorCrossing c upper p n s
  | .switchBlockEnd c blank minRun => Sys2Proof.Machine.execSwitchBlockEnd c blank minRun s
  | .deadtimeEnd c on => Sys2Proof.Machine.execDeadtimeEnd c on s
  | .crowbarTrip m => Sys2Proof.Machine.execCrowbarTrip m s
  | .desatTrip d => Sys2Proof.Machine.execDesatTrip d s
  | .spEdge c high period dir => Sys2Proof.Machine.execSpEdge c high period dir s
  | .spLost c => Sys2Proof.Machine.execSpLost c s
  | .arm src mask => Sys2Proof.Machine.execArm src mask s
  | .disarm src mask => Sys2Proof.Machine.execDisarm src mask s
  | .rearm src mask => Sys2Proof.Machine.execRearm src mask s
  | .swap src val => Sys2Proof.Machine.execSwap src val s
  | .brlChTrimWrite src c val => Sys2Proof.Machine.execBrlChTrimWrite src c val s
  | .nowRead src => Sys2Proof.Machine.execNowRead src s
  | .ptpSample port clock domain t2 t1 corr => Sys2Proof.Machine.execPtpSample port clock domain t2 t1 corr s
  | .swsample src val => Sys2Proof.Machine.execSwsample src val s
  | .modeWrite src val => Sys2Proof.Machine.execModeWrite src val s
  | .masterWrite src val => Sys2Proof.Machine.execMasterWrite src val s
  | .accept src => Sys2Proof.Machine.execAccept src s
  | .holdoverTimeout => Sys2Proof.Machine.execHoldoverTimeout s
  | .rateWrite src val => Sys2Proof.Machine.execRateWrite src val s
  | .adjWrite src val => Sys2Proof.Machine.execAdjWrite src val s
  | .txTimestampPoint p => Sys2Proof.Machine.execTxTimestampPoint p s
  | .txtsqRead src p => Sys2Proof.Machine.execTxtsqRead src p s
  | .ppsPulse => Sys2Proof.Machine.execPpsPulse s
  | .dictRead p idx sub ofs => Sys2Proof.Machine.execDictRead p idx sub ofs s
  | .dictWrite p idx sub ofs => Sys2Proof.Machine.execDictWrite p idx sub ofs s
  | .usdoRequest c idx sub write => Sys2Proof.Machine.execUsdoRequest c idx sub write s
  | .coeSdoRequest n idx sub write => Sys2Proof.Machine.execCoeSdoRequest n idx sub write s
  | .safetyDictRequest idx sub write => Sys2Proof.Machine.execSafetyDictRequest idx sub write s
  | .slotEnd got sigOk => Sys2Proof.Machine.execSlotEnd got sigOk s
  | .storeParameters src => Sys2Proof.Machine.execStoreParameters src s
  | .storeComplete ok => Sys2Proof.Machine.execStoreComplete ok s
  | .restoreDefaults src => Sys2Proof.Machine.execRestoreDefaults src s
  | .hostDown got => Sys2Proof.Machine.execHostDown got s
  | .flr fn got => Sys2Proof.Machine.execFlr fn got s
  | .ecatCycleStart => Sys2Proof.Machine.execEcatCycleStart s
  | .ecatFrameReturn f port grams => Sys2Proof.Machine.execEcatFrameReturn f port grams s
  | .ecatReturnLimit => Sys2Proof.Machine.execEcatReturnLimit s
  | .ecatLinkLoss port positions => Sys2Proof.Machine.execEcatLinkLoss port positions s
  | .subdeviceAnswer n port => Sys2Proof.Machine.execSubdeviceAnswer n port s
  | .identityReadComplete n id => Sys2Proof.Machine.execIdentityReadComplete n id s
  | .retryExpire n => Sys2Proof.Machine.execRetryExpire n s
  | .recheck n => Sys2Proof.Machine.execRecheck n s
  | .mbxRead src val => Sys2Proof.Machine.execMbxRead src val s
  | .mbxWrite src val size => Sys2Proof.Machine.execMbxWrite src val size s
  | .mbxResponse abort bytes => Sys2Proof.Machine.execMbxResponse abort bytes s
  | .mbxTimeout => Sys2Proof.Machine.execMbxTimeout s
  | .feedWriteComplete f => Sys2Proof.Machine.execFeedWriteComplete f s
  | .canBusOff c => Sys2Proof.Machine.execCanBusOff c s
  | .canBusOffRecovery c => Sys2Proof.Machine.execCanBusOffRecovery c s
  | .canHeartbeat c => Sys2Proof.Machine.execCanHeartbeat c s
  | .txDoorbell src p val => Sys2Proof.Machine.execTxDoorbell src p val s
  | .ethFrameReceive p f => Sys2Proof.Machine.execEthFrameReceive p f s
  | .hbWrite src val => Sys2Proof.Machine.execHbWrite src val s
  | .heartbeatCheck => Sys2Proof.Machine.execHeartbeatCheck s
  | .safeLineEdge => Sys2Proof.Machine.execSafeLineEdge s
  | .guardedFrameStart => Sys2Proof.Machine.execGuardedFrameStart s
  | .guardedBufferWrite src off b poison => Sys2Proof.Machine.execGuardedBufferWrite src off b poison s
  | .outputDeadline g => Sys2Proof.Machine.execOutputDeadline g s
  | .latchReq => Sys2Proof.Machine.execLatchReq s
  | .release src => Sys2Proof.Machine.execRelease src s
  | .getCert p => Sys2Proof.Machine.execGetCert p s
  | .attest p nonce => Sys2Proof.Machine.execAttest p nonce s
  | .sessionOpen p request => Sys2Proof.Machine.execSessionOpen p request s
  | .sessionFinish p => Sys2Proof.Machine.execSessionFinish p s
  | .sessionClose p a => Sys2Proof.Machine.execSessionClose p a s
  | .partProtect p a request => Sys2Proof.Machine.execPartProtect p a request s
  | .partRelease p a q => Sys2Proof.Machine.execPartRelease p a q s
  | .clearStart q => Sys2Proof.Machine.execClearStart q s
  | .clearComplete q => Sys2Proof.Machine.execClearComplete q s
  | .keyImport p a slot q blob => Sys2Proof.Machine.execKeyImport p a slot q blob s
  | .keyDestroy p a slot => Sys2Proof.Machine.execKeyDestroy p a slot s
  | .modelLoad p a slot imageId t3 src tags dst count => Sys2Proof.Machine.execModelLoad p a slot imageId t3 src tags dst count s
  | .collect p id => Sys2Proof.Machine.execCollect p id s
  | .getNonce p => Sys2Proof.Machine.execGetNonce p s
  | .debugEnable p tokenOk => Sys2Proof.Machine.execDebugEnable p tokenOk s
  | .cfgkeyFuse p slot revoke digest sigOk => Sys2Proof.Machine.execCfgkeyFuse p slot revoke digest sigOk s
  | .defectClear p a tokenOk => Sys2Proof.Machine.execDefectClear p a tokenOk s
  | .dict p a idx sub write => Sys2Proof.Machine.execDict p a idx sub write s
  | .regread p a addrs => Sys2Proof.Machine.execRegread p a addrs s
  | .mailboxAnswer p => Sys2Proof.Machine.execMailboxAnswer p s
  | .ticketOpComplete id ok => Sys2Proof.Machine.execTicketOpComplete id ok s
  | .ticketExpire id => Sys2Proof.Machine.execTicketExpire id s
  | .sessionTimeout id => Sys2Proof.Machine.execSessionTimeout id s
  | .deniedResponse dict a b => Sys2Proof.Machine.execDeniedResponse dict a b s
  | .lossOfLock => Sys2Proof.Machine.execLossOfLock s
  | .pllLock => Sys2Proof.Machine.execPllLock s
  | .dividerRestart => Sys2Proof.Machine.execDividerRestart s
  | .relockTimeout => Sys2Proof.Machine.execRelockTimeout s
  | .powerSample rails => Sys2Proof.Machine.execPowerSample rails s
  | .pmbAlert status overcurrent underVolt => Sys2Proof.Machine.execPmbAlert status overcurrent underVolt s
  | .avsStepComplete n => Sys2Proof.Machine.execAvsStepComplete n s
  | .matrixIdleTimeout n => Sys2Proof.Machine.execMatrixIdleTimeout n s
  | .hintWrite src n val => Sys2Proof.Machine.execHintWrite src n val s
  | .hintExpire n => Sys2Proof.Machine.execHintExpire n s
  | .thermalEval readings got => Sys2Proof.Machine.execThermalEval readings got s
  | .throttleStep => Sys2Proof.Machine.execThrottleStep s
  | .image src unit image sigOk => Sys2Proof.Machine.execImage src unit image sigOk s
  | .imageStageComplete unit ok => Sys2Proof.Machine.execImageStageComplete unit ok s
  | .activate src unit val => Sys2Proof.Machine.execActivate src unit val s
  | .activateComplete unit unverified => Sys2Proof.Machine.execActivateComplete unit unverified s
  | .admitComplete ok half => Sys2Proof.Machine.execAdmitComplete ok half s
  | .vddIo18Loss => Sys2Proof.Machine.execVddIo18Loss s
  | .vddIo18Apply => Sys2Proof.Machine.execVddIo18Apply s
  | .srdoTransmit n => Sys2Proof.Machine.execSrdoTransmit n s

end Sys2Proof.Machine
end

