-- ==== Sys2Proof/Machine/Step.lean ====
section
/-! DEFINITION. One step: the command at the front of the queue, or one cycle of the clock that package time counts (DESIGN CHOICE, log entry 1). -/

namespace Sys2Proof.Machine

/-- With TEST_MODE high the device holds itself in package reset (R498). Log entry 119 (DEDUCED). -/
def State.holdReset (s : State) : State := 
  if s.pkg.vddAon && s.pkg.testMode then
    let r := s.packageReset
    { r with bu := { r.bu with resets := s.bu.resets } }
  else s

/-- What passes while no command waits: one cycle of the clock that package time counts, where that clock runs (R336, R338, R339,
DESIGN CHOICE, log entry 1). -/
def State.idle (s : State) : State :=
  if s.pkg.vddAon && s.pkg.refclk then s.holdReset.timeCycle.rfxDrain else s.holdReset

/-- Take the command at the front of the queue and run it with the queue's rest. Log entry 123 (DEDUCED). -/
def step (s : State) : Host.Outcome State Fault Refusal :=
  match s.pending with
  | c :: rest => exec c { s with pending := rest }
  | [] => .next s.idle

/-- The state with the command that a word spells at the front of its queue; no word spells one. -/
def State.withFetchWord (s : State) (nbits w : Nat) : State :=
  match decodeTableWord nbits w with
  | some c => { s with pending := c :: s.pending }
  | none => s

end Sys2Proof.Machine
end

