-- ==== Sys2Proof/Safety.lean ====
section
/-! DEFINITION. What the claims are stated in: the parts of the state and which of them a command may change, canonical forms, and what no
command may undo. -/

namespace Sys2Proof.Machine

/-- The parts of the state: one for each field of `State` but the queue. -/
inductive Part where
  | free | regs | dict | blobs | mem | scrambled | hostMem | poison | t1 | plru | out | pkg | sched | host | time | fabric | fuses
  | sec | kv | seq | geo | rings | ing | rfx | cmp | ecat | dic | pwr | bu
  deriving DecidableEq, Repr

/-- The part is the same in two states. -/
def Part.same (p : Part) (s t : State) : Prop :=
  match p with
  | .free => t.freeCount = s.freeCount
  | .regs => t.regs = s.regs
  | .dict => t.dict = s.dict
  | .blobs => t.blobs = s.blobs
  | .mem => t.mem = s.mem
  | .scrambled => t.scrambled = s.scrambled
  | .hostMem => t.hostMem = s.hostMem
  | .poison => t.poison = s.poison
  | .t1 => t.t1 = s.t1
  | .plru => t.plru = s.plru
  | .out => t.out = s.out
  | .pkg => t.pkg = s.pkg
  | .sched => t.sched = s.sched
  | .host => t.host = s.host
  | .time => t.time = s.time
  | .fabric => t.fabric = s.fabric
  | .fuses => t.fuses = s.fuses
  | .sec => t.sec = s.sec
  | .kv => t.kv = s.kv
  | .seq => t.seq = s.seq
  | .geo => t.geo = s.geo
  | .rings => t.rings = s.rings
  | .ing => t.ing = s.ing
  | .rfx => t.rfx = s.rfx
  | .cmp => t.cmp = s.cmp
  | .ecat => t.ecat = s.ecat
  | .dic => t.dic = s.dic
  | .pwr => t.pwr = s.pwr
  | .bu => t.bu = s.bu

/-- One state is another but for the parts named. -/
def State.sameBut (s : State) (ps : List Part) (t : State) : Prop := t.pending = s.pending ∧ ∀ p : Part, p ∉ ps → p.same s t

/-- The parts that a command may change. -/
def touches (c : Instr) : List Part :=
  match c with
  | .vddAonApply | .vddAonLoss | .buResetNAssert =>
    [.regs, .dict, .blobs, .mem, .scrambled, .poison, .t1, .plru, .pkg, .sched, .host, .time, .fabric, .sec, .kv, .seq, .geo, .rings,
      .ing, .rfx, .cmp, .ecat, .dic, .pwr, .bu]
  | .buResetNDeassert => [.regs, .pkg]
  | .refclkLoss | .vddIo18Loss | .vddIo18Apply => [.pkg]
  | .registerWrite .. | .buQueuedRequestStart .. | .domainRequest .. | .resetRequest .. | .coreReset .. | .dieReset ..
  | .partitionReset .. | .packageReset .. | .slotEnd .. =>
    [.free, .regs, .dict, .blobs, .mem, .scrambled, .hostMem, .poison, .t1, .plru, .out, .pkg, .sched, .host, .time, .fabric, .sec, .kv,
      .seq, .geo, .rings, .ing, .rfx, .cmp, .ecat, .dic, .pwr, .bu]
  | .domains .. | .shutdownOff =>
    [.free, .regs, .dict, .mem, .scrambled, .hostMem, .poison, .t1, .plru, .out, .pkg, .sched, .host, .fabric, .sec, .kv, .seq, .geo,
      .rings, .ing, .rfx, .ecat, .dic, .bu]
  | .domainSwitchDone =>
    [.free, .regs, .dict, .mem, .scrambled, .hostMem, .poison, .t1, .plru, .out, .pkg, .sched, .host, .fabric, .sec, .kv, .seq, .geo,
      .rings, .ing, .rfx, .ecat, .dic, .pwr, .bu]
  | .rootPll .. => [.regs, .bu]
  | .fuseLoad .. | .fwLoad .. => [.regs, .pwr, .bu]
  | .startTest .. | .inject .. => [.regs, .dict, .bu]
  | .fmax .. => [.regs, .fuses, .pwr, .bu]
  | .discover .. => [.regs, .fabric, .bu]
  | .cfgLoad .. => [.regs, .dict, .blobs, .pkg, .rings, .rfx, .dic, .bu]
  | .outputEnable .. => [.regs, .cmp, .bu]
  | .buStepComplete | .shutdownAbort => [.regs, .dict, .out, .bu]
  | .resetDrainTimeout .. => [.free, .regs, .mem, .hostMem, .poison, .t1, .plru, .out, .sched, .fabric, .sec, .kv, .seq, .geo, .bu]
  | .resetComplete .. =>
    [.free, .regs, .dict, .mem, .scrambled, .hostMem, .poison, .t1, .plru, .out, .pkg, .sched, .host, .fabric, .fuses, .sec, .kv, .seq,
      .geo, .rings, .ing, .rfx, .ecat, .dic, .pwr, .bu]
  | .shutdown .. => [.regs, .dict, .out, .rfx, .cmp, .bu]
  | .quiesceEnd | .regionBistComplete .. =>
    [.free, .regs, .dict, .mem, .hostMem, .poison, .t1, .plru, .out, .sched, .host, .fabric, .sec, .kv, .seq, .dic, .bu]
  | .copy .. | .broadcastCopy .. | .fill .. | .flush .. | .evict .. | .discard .. | .prefetch .. | .wayflush .. =>
    [.free, .regs, .dict, .mem, .hostMem, .poison, .t1, .plru, .sched, .fabric, .sec]
  | .tileStart .. | .commit .. => [.sched, .sec]
  | .tileComplete .. | .t3Timeout .. | .t0Switch .. => [.free, .regs, .dict, .mem, .hostMem, .poison, .t1, .plru, .sched, .fabric]
  | .patrolScrub .. => [.regs, .dict, .mem, .hostMem, .poison, .t1, .plru, .sched]
  | .waymodeWrite .. | .issuecapWrite .. | .ctxHalt .. | .rsvWrite .. | .swap .. | .nowRead .. | .rateWrite .. | .adjWrite ..
  | .txDoorbell .. | .hbWrite .. => [.regs, .dict, .out, .sec]
  | .matmul .. | .scanOnly .. | .conv .. | .dwconv .. | .poolAvg .. | .poolMax .. | .tconv .. | .relayout .. | .add .. | .mul ..
  | .fma .. | .max .. | .min .. | .cvt .. | .act .. | .rsum .. | .rmax .. | .softmax .. | .rmsnorm .. | .layernorm .. | .padd ..
  | .pround .. | .factor .. | .solve .. | .update .. | .trsolve .. | .point .. | .edge .. | .repair .. | .tree .. | .roadmap ..
  | .prim .. => [.free, .regs, .dict, .mem, .poison, .t1, .plru, .sched, .sec]
  | .score .. | .value .. => [.free, .regs, .dict, .mem, .poison, .t1, .plru, .sched, .sec, .kv]
  | .kvWrite .. | .kvAlloc .. | .kvMark .. | .kvSeal .. | .kvDrop .. | .kvFree .. | .kvAdopt .. | .kvPin .. =>
    [.free, .regs, .dict, .mem, .hostMem, .poison, .t1, .plru, .sched, .sec, .kv]
  | .kvpoolWrite .. => [.regs, .dict, .mem, .poison, .t1, .plru, .out, .sec, .kv]
  | .kvpoolInitDone .. => [.kv]
  | .biasTableWrite .. => [.regs, .dict, .mem, .out, .sec, .kv]
  | .scan .. | .map .. | .gmul .. | .decay .. => [.free, .regs, .dict, .mem, .poison, .t1, .plru, .sched, .sec, .seq]
  | .streamOpen .. => [.regs, .dict, .mem, .poison, .t1, .plru, .sched, .sec, .seq]
  | .streamClose .. => [.regs, .mem, .sched, .seq]
  | .streamDoorbell .. => [.regs, .dict, .out, .sec, .seq]
  | .streamStep .. => [.seq]
  | .streamStepComplete .. => [.regs, .dict, .mem, .hostMem, .poison, .t1, .plru, .sched, .seq]
  | .gateTableWrite .. => [.regs, .dict, .mem, .out, .sec, .seq]
  | .integrate .. => [.free, .regs, .dict, .mem, .poison, .t1, .plru, .sched, .sec, .geo]
  | .commitWaitEnd .. => [.free, .regs, .dict, .mem, .poison, .t1, .plru, .sched, .geo]
  | .mapcfgWrite .. => [.regs, .dict, .out, .sec, .geo]
  | .mapInitDone .. => [.regs, .mem, .poison, .t1, .plru, .geo]
  | .commandFetch .. => [.regs, .dict, .mem, .hostMem, .poison, .t1, .plru, .out, .sched, .kv, .seq]
  | .sqFetchFail .. | .commandComplete .. => [.regs, .mem, .hostMem, .poison, .t1, .plru, .out, .sched, .kv, .seq]
  | .commandDispatch .. => [.sched, .pwr]
  | .preemptionPoint .. => [.free, .regs, .dict, .mem, .hostMem, .poison, .t1, .plru, .out, .sched, .kv, .seq]
  | .t0SwitchComplete .. => [.sched]
  | .ctxDb .. | .ctxResume .. | .evqWrite .. => [.regs, .dict, .out, .sched, .sec]
  | .ctxEnable .. | .ctxAbort .. | .ctxDisable .. => [.regs, .dict, .mem, .hostMem, .poison, .t1, .plru, .out, .sched, .sec, .kv, .seq]
  | .partCfgWrite .. => [.free, .regs, .dict, .mem, .scrambled, .t1, .out, .sec]
  | .packetCrcError .. | .linkDown .. | .lossTimeout .. | .uncoreFatal .. | .fenceDrainEnd .. =>
    [.regs, .mem, .hostMem, .poison, .t1, .plru, .out, .sched, .fabric, .kv, .seq, .geo]
  | .packetAuthFail .. => [.regs, .dict, .mem, .hostMem, .poison, .t1, .plru, .sched, .fabric, .sec]
  | .heartbeatSend | .heartbeatAnswer .. => [.fabric]
  | .fence .. => [.regs, .dict, .mem, .hostMem, .poison, .t1, .plru, .out, .sched, .fabric, .sec, .kv, .seq, .geo]
  | .admitDie .. => [.regs, .dict, .out, .fabric, .sec]
  | .epochRelease | .admitComplete .. => [.regs, .sched, .fabric]
  | .csiFrameStart .. | .csiFrameEnd .. | .snapHeldRun => [.free, .regs, .mem, .hostMem, .poison, .t1, .plru, .out, .sched, .rings, .ing]
  | .frameReady .. => [.free, .regs, .mem, .hostMem, .poison, .t1, .plru, .out, .sched, .ing]
  | .frameMissing .. => [.regs, .mem, .hostMem, .poison, .t1, .plru, .sched, .ing]
  | .claim .. | .releaseBuffer .. | .snap .. => [.free, .regs, .dict, .mem, .hostMem, .poison, .t1, .plru, .out, .sched, .sec, .rings, .ing]
  | .exclude .. => [.regs, .dict, .mem, .hostMem, .poison, .t1, .plru, .out, .sched, .sec, .ing]
  | .readmit .. | .camcfgWrite .. | .imucfgWrite .. | .egocfgWrite .. => [.regs, .dict, .out, .sec, .ing]
  | .imuDrdy .. => [.free, .dict, .out, .ing]
  | .imuBurstComplete .. | .egoEval => [.free, .regs, .mem, .poison, .t1, .plru, .out, .rings, .ing]
  | .encoderEdge .. => [.free, .regs, .ing]
  | .egoTick | .apply => [.ing]
  | .sampleBoundary .. => [.regs, .rfx]
  | .comparatorCrossing .. | .switchBlockEnd .. | .deadtimeEnd .. | .crowbarTrip .. | .desatTrip .. | .spLost .. => [.regs, .out, .rfx]
  | .spEdge .. => [.rfx]
  | .arm .. | .disarm .. | .rearm .. | .brlChTrimWrite .. => [.regs, .dict, .out, .sec, .rfx]
  | .ptpSample .. => [.free, .regs, .out, .time]
  | .swsample .. | .modeWrite .. | .masterWrite .. | .accept .. => [.free, .regs, .dict, .out, .time, .sec]
  | .holdoverTimeout => [.regs, .time]
  | .txTimestampPoint .. => [.regs, .dict, .mem, .poison, .t1, .plru, .out, .time]
  | .txtsqRead .. | .regread .. => [.regs, .dict, .out, .time, .sec]
  | .ppsPulse => [.out, .time]
  | .dictRead .. | .dictWrite .. | .usdoRequest .. | .coeSdoRequest .. | .safetyDictRequest .. | .storeParameters .. =>
    [.regs, .out, .sec, .dic]
  | .storeComplete .. => [.free, .regs, .out, .dic]
  | .restoreDefaults .. => [.regs, .dict, .blobs, .out, .sec, .rfx]
  | .hostDown .. | .flr .. =>
    [.free, .regs, .dict, .mem, .hostMem, .poison, .t1, .plru, .out, .sched, .host, .fabric, .sec, .kv, .seq, .dic]
  | .ecatCycleStart => [.free, .regs, .dict, .mem, .poison, .t1, .plru, .out, .cmp, .ecat]
  | .ecatFrameReturn .. | .ecatReturnLimit => [.free, .regs, .dict, .mem, .poison, .t1, .plru, .out, .ecat]
  | .ecatLinkLoss .. | .subdeviceAnswer .. => [.free, .regs, .dict, .out, .ecat]
  | .identityReadComplete .. | .retryExpire .. => [.free, .dict, .out, .ecat]
  | .recheck .. => [.out, .ecat]
  | .mbxRead .. | .mbxWrite .. => [.regs, .dict, .out, .sec, .ecat]
  | .mbxResponse .. | .mbxTimeout => [.regs, .ecat]
  | .feedWriteComplete .. => [.regs, .seq, .ecat]
  | .canBusOff .. | .hintExpire .. => [.regs]
  | .canBusOffRecovery .. => [.free, .regs, .dict, .out]
  | .canHeartbeat .. | .srdoTransmit .. => [.out]
  | .ethFrameReceive .. => [.free, .regs, .dict, .mem, .poison, .t1, .plru, .out, .rings]
  | .heartbeatCheck | .outputDeadline .. | .latchReq => [.regs, .dict, .out, .rfx, .cmp]
  | .safeLineEdge => [.cmp]
  | .guardedFrameStart => [.regs, .dict, .mem, .poison, .t1, .plru, .out, .rings, .rfx, .cmp]
  | .guardedBufferWrite .. => [.free, .regs, .dict, .mem, .poison, .t1, .plru, .out, .sec, .rfx, .cmp]
  | .release .. => [.out, .sec, .cmp]
  | .getCert .. | .getNonce .. => [.free, .regs, .sec]
  | .attest .. | .sessionOpen .. | .sessionFinish .. | .sessionClose .. | .keyImport .. | .keyDestroy .. | .modelLoad ..
  | .collect .. | .cfgkeyFuse .. | .defectClear .. | .dict .. => [.regs, .sec]
  | .partProtect .. => [.free, .regs, .mem, .scrambled, .sec]
  | .partRelease .. | .debugEnable .. => [.regs, .mem, .hostMem, .poison, .t1, .plru, .out, .sched, .sec, .kv, .seq]
  | .clearStart .. | .clearComplete .. => [.mem, .scrambled, .poison, .t1, .sec]
  | .mailboxAnswer .. => [.regs, .mem, .sec]
  | .ticketOpComplete .. => [.free, .regs, .dict, .mem, .poison, .t1, .plru, .fuses, .sec, .bu]
  | .ticketExpire .. | .sessionTimeout .. => [.sec]
  | .deniedResponse .. => [.regs, .mem, .hostMem, .poison, .t1, .plru, .out, .sched, .kv, .seq, .dic]
  | .lossOfLock => [.regs, .rfx, .pwr]
  | .pllLock | .dividerRestart | .relockTimeout | .avsStepComplete .. | .matrixIdleTimeout .. | .throttleStep => [.regs, .pwr]
  | .powerSample .. | .pmbAlert .. => [.regs, .dict, .out, .pwr]
  | .hintWrite .. => [.regs, .dict, .out, .sec, .pwr]
  | .thermalEval .. => [.regs, .dict, .mem, .hostMem, .poison, .t1, .plru, .out, .sched, .fabric, .kv, .seq, .geo, .rfx, .cmp, .pwr]
  | .image .. | .activate .. => [.out, .sec, .bu]
  | .imageStageComplete .. => [.bu]
  | .activateComplete .. => [.pwr, .bu]

/-- Commands that do not act through the clocked logic of Agate and the Onyx dies: supplies, pins, the reference, writes of
AGT_BU_CMD over the sideband (R467, R468), and the trips of the gate drivers (R323). -/
def unclocked (c : Instr) : Bool :=
  match c with
  | .vddAonApply | .vddAonLoss | .buResetNAssert | .buResetNDeassert | .refclkLoss | .domains .. | .rootPll .. | .fuseLoad ..
  | .startTest .. | .fmax .. | .discover .. | .fwLoad .. | .cfgLoad .. | .inject .. | .outputEnable .. | .coreReset .. | .dieReset ..
  | .partitionReset .. | .packageReset .. | .shutdown .. | .shutdownAbort | .crowbarTrip .. | .desatTrip .. | .vddIo18Loss
  | .vddIo18Apply => true
  | _ => false

/-- The special state that a product brings (R42): none where it is zero, OVERRANGE where its bound exponent is too large (R40).
Log entry 10 (DEDUCED). -/
def specialOf (A : Int) (L : Nat) (p : Product) : Special :=
  match p.num with
  | .nan => .nan
  | .inf neg => if neg then .negInf else .posInf
  | .fin _ m _ => if m ≠ 0 ∧ A - L - 2 < p.e then .overrange else .finite

/-- The canonical form of memory: addresses strictly rising, no entry that an unlisted address reads as. -/
def Memory.wf (blank : Nat → Byte) (m : List Host.Cell) : Bool := tsorted m && m.all (fun c => c.2 != blank c.1)

/-- A list of sectors: strictly rising multiples of 256 (R57, R77). -/
def sectorsWf : List Nat → Bool
  | [] => true
  | [a] => a % 256 == 0
  | a :: b :: l => a % 256 == 0 && decide (a < b) && sectorsWf (b :: l)

/-- Every dirty sector of a T1 line is valid (R65, R66). -/
def T1Line.wf (l : T1Line) : Bool := l.dirty &&& l.valid == l.dirty

/-- The form that every state keeps: memory and host memory canonical, the tables of registers and objects sorted, poison kept by
sector, dirty sectors valid. -/
def State.wf (s : State) : Bool :=
  Memory.wf s.blank s.mem && Memory.wf hostBlank s.hostMem && tsorted s.regs && tsorted s.dict && tsorted s.blobs &&
  sectorsWf s.poison && s.t1.all (fun e => e.2.wf)

/-- No fuse is undone (R416 to R418, R434, R439): what is fixed at test stays, a revoked slot stays revoked, DEBUG_COUNT does not
fall. -/
def Fuses.kept (a b : Fuses) : Prop :=
  b.grade = a.grade ∧ b.serial = a.serial ∧ b.lifecycle = a.lifecycle ∧ b.debugDisable = a.debugDisable ∧ b.kfuse = a.kfuse ∧
  a.debugCount ≤ b.debugCount ∧ ∀ i, bit a.cfgRevoked i → bit b.cfgRevoked i

/-- What no command undoes: free values drawn, outputs sent, fuses blown. -/
def State.kept (s t : State) : Prop := s.freeCount ≤ t.freeCount ∧ s.out <+: t.out ∧ s.fuses.kept t.fuses

/-- A planned command ran to its end: its units from where it stood are written over the state that its reads leave; its record says
finished, with every unit done, the result field of its plan and the status that R31 picks of all the conditions met; where a read
lost data or was poisoned every sector of its destinations is poisoned (R79), and otherwise none more than its units left. -/
def State.ranTo (s : State) (x : Cmd) (p : Plan) (errs : ReadErrs) (t : State) : Prop :=
  let r := s.readSectors (s.ctxPart x.ctx) true errs p.reads
  let q := p.run x.unitsDone p.units r.st
  let met := addMet x.met (q.2 ++ (if r.lost then [Status.tileUncorrectable] else []) ++ (if r.poison then [Status.poisonedInput] else []))
  (∃ y, t.cmd x.key = some y ∧ y.phase = .finished ∧ y.unitsDone = p.units ∧ y.result = p.result q.1 ∧ y.status = pickStatus met) ∧
  t.mem = q.1.mem ∧ t.t1 = q.1.t1 ∧ t.regs = q.1.regs ∧
  (if Status.tileUncorrectable ∈ met ∨ Status.poisonedInput ∈ met then ∀ a ∈ p.dests, t.poisoned a = true else t.poison = q.1.poison)

/-- What a command touches and its body pass the tests that come before it does anything (R31): it is not DENIED (R426), its body meets
none of the conditions that its chapter checks, and its sectors lie in no channel set of another partition (R308). -/
def State.bodyPasses (s : State) (part : Nat) (p : Plan) (met : List Status) : Prop :=
  s.denied part false (p.reads.map (fun a => ⟨false, a, 256⟩)) (p.dests.map (fun a => ⟨false, a, 256⟩)) = false ∧ met = [] ∧
  ∀ a ∈ p.reads ++ p.dests, s.segForeign part a = false

/-- A command was refused before it did anything: its record says finished, with the status and the result field of a refused command
(R211, R232); nothing but the list of commands changes, and for DENIED the count of refusals (R436). -/
def State.refusedAs (s : State) (x : Cmd) (st : Status) (t : State) : Prop :=
  (∃ y, t.cmd x.key = some y ∧ y.phase = .finished ∧ y.unitsDone = x.unitsDone ∧ y.result = x.refusedResult ∧ y.status = st) ∧
  s.sameBut (if st = .denied then [.sched, .sec] else [.sched]) t ∧
  (st = .denied → t.sec.refusals = min (2 ^ 32 - 1) (s.sec.refusals + 1))

end Sys2Proof.Machine
end

