-- ==== Sys2Proof/Certificates/Slice0/Obligations.lean ====
section
/-! DEFINITION. The statements about this model, each a proposition of its own. `s.sameBut ps t` says that `t` is `s` but for the
parts `ps`. -/

open Sys2Proof Sys2Proof.Machine Sys2Proof.Machine.Reg Host

/-! ## The block: its queue, its clock and what no command undoes -/

/-- A step with a command at the front of the queue is that command's effect on the state with the queue's rest. -/
def Obligations.StepRunsTheFront : Prop :=
  ∀ (c : Instr) (l : List Instr) (s : State), step { s with pending := c :: l } = exec c { s with pending := l }

/-- The model's choice (log entry 1): with nothing queued a step is one cycle of the clock that package time counts. It changes
package time by `k` times INCR of R336 (`k` = 1 on the time clock, 4 on the reference clock, R338), with 32 fractional bits kept; here no
RATE of the servo is pending and no reflex record waits. With nothing queued and no clock, a step leaves the state as it is. Throughout
TEST_MODE is low. -/
def Obligations.EmptyQueueCountsTime : Prop :=
   (∀ s : State, s.pending = [] → s.pkg.vddAon = true → s.pkg.refclk = true → s.pkg.testMode = false → s.time.nextRate = [] →
      s.rfx.buffer = [] →
      ∃ t, step s = .next t ∧
        (2 ^ 32 * t.time.now + t.time.frac) % 2 ^ 96 =
          (2 ^ 32 * s.time.now + s.time.frac + (if s.timeClock then 1 else 4) * s.incr) % 2 ^ 96 ∧
        s.sameBut [.time, .pwr] t) ∧
   (∀ s : State, s.pending = [] → s.pkg.testMode = false → (s.pkg.vddAon = false ∨ s.pkg.refclk = false) → step s = .next s)

/-- The package right after reset: every register field, object and memory byte holds its reset value, and of the domains only 32 is
on. -/
def Obligations.ResetValues : Prop :=
  (∀ f n i, State.reset.getO f n i = f.reset i) ∧ (∀ d idx sub, State.reset.obj d idx sub = d) ∧ (∀ a, State.reset.byte a = 0) ∧
  (∀ d, State.reset.domPowered d = (d == 32)) ∧ State.reset.time.now = 0 ∧ State.reset.pending = [] ∧ State.reset.out = []

/-- The state after reset has the form that every step keeps. -/
def Obligations.ResetIsWellFormed : Prop := State.reset.wf = true

/-- Every step keeps memory and host memory canonical, the tables of registers and objects sorted, poison kept by sector, and every
dirty T1 sector valid. -/
def Obligations.StepKeepsWellFormed : Prop := ∀ s t : State, s.wf = true → step s = .next t → t.wf = true

/-- Every step answers a next state: the model stops on no command and no operand. -/
def Obligations.EveryStepAnswers : Prop := ∀ s : State, ∃ t, step s = .next t

/-- A step takes exactly the front off the queue, and undoes no fuse: what is fixed at test stays, DEBUG_COUNT does not fall, a revoked
configuration-key slot stays revoked; no output is taken back and no free value is drawn twice. -/
def Obligations.StepTakesOneAndUndoesNothing : Prop :=
   (∀ s t : State, step s = .next t → s.kept t) ∧
   (∀ s t : State, step s = .next t → t.pending = s.pending.tail)

/-- A command changes no part of the state outside those that `touches` names for it. -/
def Obligations.CommandsKeepOtherParts : Prop :=
  ∀ (c : Instr) (s t : State), exec c s = .next t → s.sameBut (touches c) t

/-- Where VDD_AON or REFCLK is absent, or BU_RESET_N low or TEST_MODE high holds the device in package reset, no command of the clocked
logic of Agate and the Onyx dies changes anything. -/
def Obligations.NoClockNoEffect : Prop :=
  ∀ (c : Instr) (s : State), unclocked c = false →
    (s.pkg.vddAon = false ∨ s.pkg.refclk = false ∨ s.pkg.resetNLow = true ∨ s.pkg.testMode = true) → exec c s = .next s

/-! ## Registers, memory, T1 and statuses -/

/-- A register field reads back what was last written into it, cut to its width; a field at another bit address reads as before, and
nothing but the register file changes. -/
def Obligations.RegisterFieldReadsBack : Prop :=
  ∀ (f g : Fld) (n i m j v : Nat) (s : State),
    (s.setO f n i v).getO f n i = v % 2 ^ f.width ∧
    (g.key m j ≠ f.key n i → (s.setO f n i v).getO g m j = s.getO g m j) ∧ s.sameBut [.regs] (s.setO f n i v)

/-- Bytes put at physical addresses are read there afterwards; every other physical address reads as before; the canonical form of
memory stays. -/
def Obligations.BytesReadBack : Prop :=
  ∀ (s : State) (p : Nat) (b : List Byte), Memory.wf s.blank s.mem = true →
    (∀ k, k < b.length → tget (s.blank (p + k)) (s.poke p b).mem (p + k) = b.getD k 0) ∧
    (∀ a, (a < p ∨ p + b.length ≤ a) → tget (s.blank a) (s.poke p b).mem a = tget (s.blank a) s.mem a) ∧
    Memory.wf (s.poke p b).blank (s.poke p b).mem = true

/-- A write of up to a sector to a T2 address whose sector T1 holds valid goes into that line: the bytes written read back at their
T2 addresses, every other T2 byte of the package reads as before, and T2 itself keeps its bytes (R55, R66). -/
def Obligations.WriteHitGoesIntoT1 : Prop :=
  ∀ (s : State) (part a w : Nat) (b : List Byte) (alloc poison : Bool), Memory.wf s.blank s.mem = true → isT2 a = true →
    s.t1Find a = some w → s.t1Valid a w = true → 0 < b.length → a % 256 + b.length ≤ 256 →
    (∀ k, k < b.length → (s.writeSector part alloc a b poison).byte (a + k) = b.getD k 0) ∧
    (∀ c, isT2 c = true → (c < a ∨ a + b.length ≤ c) → (s.writeSector part alloc a b poison).byte c = s.byte c) ∧
    (∀ c, isT2 c = true → tget (s.blank c) (s.writeSector part alloc a b poison).mem c = tget (s.blank c) s.mem c)

/-- When more than one status applies, the device reports only the first of them in the order of R31. -/
def Obligations.StatusPrecedence : Prop :=
  let order : List Status := [.denied, .safeStateLatched, .nodeLost, .queueFull, .badDescriptor, .badLayout, .superseded, .preempted,
    .tileUncorrectable, .lowerTierTimeout, .poisonedInput, .pageDropped, .deadlineMissed, .outputInvalidated, .linkDegraded, .staleEpoch,
    .okSaturated, .okRegularised, .ok]
  (∀ st : Status, st ∈ order) ∧ order.Nodup ∧
  ∀ l : List Status, l ≠ [] → pickStatus l ∈ l ∧ ∀ st ∈ l, order.idxOf (pickStatus l) ≤ order.idxOf st

/-! ## Numbers: the accumulator, the exact partial, the dataflow -/

/-- R42: the special state of an element is the join of those of its products and imported partials, and the join is the one of R42. -/
def Obligations.SpecialStatesJoin : Prop :=
  (∀ A L acc p, (Acc.addProduct A L acc p).sp = acc.sp.join (specialOf A L p)) ∧
  (∀ a b : Acc, (a.addPartial b).sp = (a.sp.join b.sp) ∨ (a.addPartial b).sp = (a.sp.join b.sp).join .overrange) ∧
  (∀ x : Special, Special.nan.join x = .nan) ∧ Special.posInf.join .negInf = .nan ∧
  (∀ x : Special, x = .overrange ∨ x = .finite → Special.posInf.join x = .posInf ∧ Special.negInf.join x = .negInf) ∧
  Special.overrange.join .finite = .overrange ∧
  (∀ x y : Special, x.join y = y.join x) ∧ (∀ x y z : Special, (x.join y).join z = x.join (y.join z))

/-- The accumulator of an output element, its sticky bit and its special state do not depend on the order in which its products are
added (R41, R42). -/
def Obligations.SumsInAnyOrder : Prop :=
  ∀ (A : Int) (L : Nat) (init : Acc) (l k : List (Elt × Elt)), l.Perm k → sumPairs A L init l = sumPairs A L init k

/-- R46: the 96-bit word of each element of an exact partial, 12 bytes with the least significant first, and what it reads back as. -/
def Obligations.ExactPartialWord : Prop :=
  (∀ a : Acc, a.sp = .finite → -(2 ^ 93) ≤ a.t → a.t < 2 ^ 93 →
    sx 95 (bits a.word 1 95) = a.t ∧ bit a.word 0 = a.sticky ∧ bit a.word 95 = bit a.word 94 ∧ Acc.ofWord a.word = a) ∧
  Acc.word ⟨2 ^ 93, false, .finite⟩ = 0x400000000000000000000000 ∧ Acc.ofWord 0x400000000000000000000000 = ⟨2 ^ 93, false, .finite⟩ ∧
  (∀ t k sp n, (sp, n) ∈ [(Special.nan, 1), (.posInf, 2), (.negInf, 3), (.overrange, 4)] →
    Acc.word ⟨t, k, sp⟩ = 2 ^ 94 + n ∧ (Acc.ofWord (2 ^ 94 + n)).sp = sp) ∧
  (∀ w, w < 2 ^ 96 → bit w 95 ≠ bit w 94 → w ∉ [2 ^ 94, 2 ^ 94 + 2, 2 ^ 94 + 3, 2 ^ 94 + 4] → (Acc.ofWord w).sp = .nan) ∧
  (∀ a : Acc, -(2 ^ 93) ≤ a.t → a.t ≤ 2 ^ 93 → a.word < 2 ^ 96 ∧ leVal (leBytes 12 a.word) = a.word)

/-- R89: AUTO takes the dataflow with fewer cycles, weight-stationary where the two are equal; the completion record says which. -/
def Obligations.AutoDataflow : Prop :=
  (∀ b : MBody, b.flow = 2 → (b.useOs = true ↔ (b.timing true).total < (b.timing false).total)) ∧
  (∀ (s : State) (node : Nat) (x : Cmd) (p : Plan) (u : State), s.planMatmul node x = .plan p → MBody.flow ⟨x.body⟩ = 2 →
    Acw.anchorMode (MBody.acw ⟨x.body⟩) ≠ 2 → (∀ a, x.anchor = some a → a < 256) →
    p.result u / 256 = b2n (MBody.useOs ⟨x.body⟩))

/-! ## Engine commands: what completing one means (chapters 4 to 9) -/

/-- Where a body passes what is tested before a command does anything (R31: DENIED of R426, the checks of R93, R94, R109, R110, R129 and
R130, the channel sets of R308), the command runs to its end: MATMUL, SCAN_ONLY and each kind of WINDOW on the matrix engine of its node,
each operation of the vector unit on the vector engine. -/
def Obligations.MatrixAndVectorCommandsFinish : Prop :=
   (∀ (s : State) (node : Nat) (errs : ReadErrs) (x : Cmd), s.clocked = true → s.executing node 0 = some x →
      let b : MBody := ⟨x.body⟩
      let part := s.ctxPart x.ctx
      (b.op ≠ 1 → s.bodyPasses part (s.matmulPlan node x) (s.matmulFaults node x) →
        (b.acw.anchorMode ≠ 2 → ∃ t, exec (.matmul node errs) s = .next t ∧ s.ranTo x (s.matmulPlan node x) errs t) ∧
        (b.acw.anchorMode = 2 → ∃ t, exec (.scanOnly node errs) s = .next t ∧ s.ranTo x (s.matmulPlan node x) errs t)) ∧
      (∀ c, b.op = 1 → s.bodyPasses part (s.windowPlan node x) (s.windowFaults node x) →
        (b.kind, c) ∈ [(0, Instr.conv node errs), (1, .dwconv node errs), (2, .poolAvg node errs), (3, .poolMax node errs),
          (4, .tconv node errs), (5, .relayout node errs)] →
        ∃ t, exec c s = .next t ∧ s.ranTo x (s.windowPlan node x) errs t)) ∧
   (∀ (s : State) (node : Nat) (errs : ReadErrs) (x : Cmd) (c : Instr), s.clocked = true → s.executing node 1 = some x →
      s.bodyPasses (s.ctxPart x.ctx) (s.vectorPlan node x) (s.vectorFaults node x) →
      (VBody.vop ⟨x.body⟩, c) ∈ [(0x00, Instr.add node errs), (0x01, .mul node errs), (0x02, .fma node errs), (0x03, .max node errs),
        (0x04, .min node errs), (0x05, .cvt node errs), (0x06, .act node errs), (0x08, .rsum node errs), (0x09, .rmax node errs),
        (0x0A, .softmax node errs), (0x0B, .rmsnorm node errs), (0x0C, .layernorm node errs), (0x10, .padd node errs),
        (0x11, .pround node errs)] →
      ∃ t, exec c s = .next t ∧ s.ranTo x (s.vectorPlan node x) errs t)

/-- Where its body passes what is tested before it starts (R31, R164, R176), SCAN runs to its end on the scan engine; MAP, GMUL and
DECAY run to theirs on the gate unit while no SCAN and no stream step with a gate runs (R176). The gate-table writes that waited are
applied then (R174). -/
def Obligations.SequenceCommandsFinish : Prop :=
  ∀ (s : State) (node : Nat) (errs : ReadErrs) (x : Cmd), s.clocked = true →
    let part := s.ctxPart x.ctx
    (s.executing node 3 = some x → SBody.op ⟨x.body⟩ = 0 →
      s.bodyPasses part (s.scanPlan node x) (x.onStart (faultsOf (s.scanBad node x) false)) →
      ∃ t, s.ranTo x (s.scanPlan node x) errs t ∧ exec (.scan node errs) s = .next t.releaseGate) ∧
    (∀ c, s.executing node 4 = some x → s.gateTaken node = false →
      s.bodyPasses part (s.gatePlan node x) (x.onStart (faultsOf (s.gateBad node ⟨x.body⟩) false)) →
      (GBody.gop ⟨x.body⟩, c) ∈ [(0, Instr.map node errs), (1, .gmul node errs), (2, .decay node errs)] →
      ∃ t, s.ranTo x (s.gatePlan node x) errs t ∧ exec c s = .next t.releaseGate)

/-- Where its body passes what is tested before it starts (R31, R196, R197, R229), FACTOR, SOLVE, UPDATE and TRSOLVE run to their end on
the solver of their node; POINT, EDGE and REPAIR on their query pipe; TREE, ROADMAP and PRIM on the sampler: the map that is named (PRIM
names none) is not being zeroed (R208). -/
def Obligations.SolverAndQueryCommandsFinish : Prop :=
  ∀ (s : State) (node : Nat) (errs : ReadErrs) (x : Cmd) (c : Instr), s.clocked = true →
    let part := s.ctxPart x.ctx
    let b : NBody := ⟨x.body⟩
    (s.executing node 5 = some x → s.bodyPasses part (s.solverPlan node x) (x.onStart (s.solverFaults node ⟨x.body⟩)) →
      (LBody.op ⟨x.body⟩, c) ∈ [(0, Instr.factor node errs), (1, .solve node errs), (2, .update node errs), (3, .trsolve node errs)] →
      ∃ t, exec c s = .next t ∧ s.ranTo x (s.solverPlan node x) errs t) ∧
    (∀ pipe, pipe < 4 → s.executing node (7 + pipe) = some x → s.mapWaits node b.map = false →
      s.bodyPasses part (s.queryPlan node x) (x.onStart (faultsOf (s.queryBad node x) false)) →
      (b.op, c) ∈ [(2, Instr.point node pipe errs), (3, .edge node pipe errs), (4, .repair node pipe errs)] →
      ∃ t, exec c s = .next t ∧ s.ranTo x (s.queryPlan node x) errs t) ∧
    (s.executing node 11 = some x → (b.op ≠ 7 → s.mapWaits node b.map = false) →
      s.bodyPasses part (s.samplerPlan node x) (x.onStart (faultsOf (s.samplerBad node x) false)) →
      (b.op, c) ∈ [(5, Instr.tree node errs), (6, .roadmap node errs), (7, .prim node errs)] →
      ∃ t, exec c s = .next t ∧ s.ranTo x (s.samplerPlan node x) errs t)

/-- Where its body passes what is tested before it starts (R31, R138) and its pool is ready (R146), a SCORE or VALUE runs to its end on
the attention engine; the node's count of attention commands grows by one, and where its status is usable the use of its pages is
recorded (R147). A KV operation is carried out entry by entry as R144 says where its reads find neither an error nor poison; it ends OK,
but KV_ALLOC and KV_MARK end QUEUE_FULL where the pool runs out of pages, with at most the number of its entries in the result field
(R148). Where a read of its finds an error or poison it ends with the status for it (R79). The bias-table writes that waited are applied
then (R140). -/
def Obligations.AttentionUnitCommands : Prop :=
   (∀ (s : State) (node : Nat) (errs : ReadErrs) (x : Cmd) (c : Instr), s.clocked = true → s.executing node 2 = some x →
      let part := s.ctxPart x.ctx
      s.poolWaits node part = false →
      s.bodyPasses part (s.attnPlan node x) (x.onStart (s.attnFaults node part ⟨x.body⟩)) →
      (ABody.op ⟨x.body⟩, c) ∈ [(0, Instr.score node errs), (1, .value node errs)] →
      ∃ t y, s.ranTo x (s.attnPlan node x) errs t ∧ t.cmd x.key = some y ∧
        exec c s = .next (if y.status.usable then (t.countAttn node).recordUse node ⟨x.body⟩ else t.countAttn node).releaseBias) ∧
   (∀ (s : State) (node : Nat) (errs : ReadErrs) (x : Cmd) (c : Instr), s.clocked = true → s.executing node 2 = some x →
      let b : ABody := ⟨x.body⟩
      let part := s.ctxPart x.ctx
      let r := s.readSectors part true errs (s.kvReads node b)
      let q := r.st.kvApply node part x.ctx b
      s.poolWaits node part = false → s.bodyPasses part (s.kvPlan node b) (s.kvFaults node part b) →
      (b.op, c) ∈ [(2, Instr.kvWrite node errs), (3, .kvAlloc node errs), (4, .kvMark node errs), (5, .kvSeal node errs),
        (6, .kvDrop node errs), (7, .kvFree node errs), (8, .kvAdopt node errs), (9, .kvPin node errs)] →
      (r.lost = false → r.poison = false →
        exec c s = .next (((q.1.finish x q.2.1 q.2.2).countAttn node).releaseBias) ∧
        (b.op ≠ 3 → b.op ≠ 4 → q.2.1 = .ok ∧ q.2.2 = 0) ∧ (q.2.1 = .ok ∨ q.2.1 = .queueFull ∧ q.2.2 ≤ b.range.length)) ∧
      (r.lost = true ∨ r.poison = true → ∃ u : State, exec c s = .next (((u.finish x
        (if r.lost then .tileUncorrectable else .poisonedInput) 0).countAttn node).releaseBias) ∧ ∀ a ∈ s.kvWrites node b, u.poisoned a = true))

/-- A body that is refused before its command starts ends the command with the status refused for, and the result field of a refused
command (R198, R211, R232); it writes nothing (R103, R198, R229). Stated of MATMUL, SCAN_ONLY, SOFTMAX, FACTOR and EDGE. -/
def Obligations.RefusedBodyWritesNothing : Prop :=
  ∀ (s : State) (node : Nat) (errs : ReadErrs) (x : Cmd) (st : Status), s.clocked = true →
    (∀ c, s.executing node 0 = some x → MBody.op ⟨x.body⟩ ≠ 1 → s.planMatmul node x = .refused st →
      c = (if Acw.anchorMode (MBody.acw ⟨x.body⟩) = 2 then Instr.scanOnly node errs else .matmul node errs) →
      ∃ t, exec c s = .next t ∧ s.refusedAs x st t) ∧
    (s.executing node 1 = some x → s.planVector node x = .refused st → VBody.vop ⟨x.body⟩ = 0x0A →
      ∃ t, exec (.softmax node errs) s = .next t ∧ s.refusedAs x st t) ∧
    (s.executing node 5 = some x → s.planSolver node x = .refused st → LBody.op ⟨x.body⟩ = 0 →
      ∃ t, exec (.factor node errs) s = .next t ∧ s.refusedAs x st t) ∧
    (∀ pipe, pipe < 4 → s.executing node (7 + pipe) = some x → s.mapWaits node (NBody.map ⟨x.body⟩) = false →
      s.planQuery node x = .refused st → NBody.op ⟨x.body⟩ = 3 →
      ∃ t, exec (.edge node pipe errs) s = .next t ∧ s.refusedAs x st t)

/-- Where its body passes what is tested before it starts (R31, R229), with its map not being zeroed (R208): INTEGRATE applies its blocks
and finishes; COMMIT is checked and waits (R210 step 1); once no command holds the epoch before the published one, the rest of the commit
runs and the command finishes, with the new epoch in its result field unless the pool was full. -/
def Obligations.VoxelCommandsFinish : Prop :=
  ∀ (s : State) (node : Nat) (errs : ReadErrs) (x : Cmd), s.clocked = true → s.executing node 6 = some x →
    let b : NBody := ⟨x.body⟩
    let part := s.ctxPart x.ctx
    s.mapDenied part node b.map
      (if b.op = 0 then [⟨false, glob node (b.addr 0), 8 * b.count⟩, ⟨false, glob node (b.addr 1), 4096 * b.count⟩] else []) = false →
    s.voxelBad node b = false → s.mapForeign part node b.map = false → s.mapWaits node b.map = false →
    (b.op = 0 → ∃ t y, exec (.integrate node errs) s = .next t ∧ t = s.runIntegrate node x errs ∧ t.cmd x.key = some y ∧
      y.phase = .finished ∧ y.status ∈ [Status.ok, .queueFull, .tileUncorrectable, .poisonedInput]) ∧
    (b.op = 1 → x.unitsDone = 0 → exec (.commit node) s = .next (s.setCmd { x with unitsDone := 1 })) ∧
    (b.op = 1 → x.unitsDone ≠ 0 → s.epochHeld node b.map = false →
      ∃ t y, exec (.commitWaitEnd node errs) s = .next t ∧ t = s.runCommit node x errs ∧ t.cmd x.key = some y ∧ y.phase = .finished ∧
        ((y.status = .queueFull ∧ y.result = s.mapEpoch node b.map) ∨
          (y.status ∈ [Status.ok, .tileUncorrectable, .poisonedInput] ∧ y.result = (s.mapEpoch node b.map + 1) % 2 ^ 32)))

/-- Streams (R166 to R168): STREAM_OPEN of a body that passes what is tested before it starts opens its slot with nothing pending and
finishes; a doorbell adds its steps to PENDING and to the node's queue, behind the steps of earlier cycles and in slot order within its
own; the first step of an earlier cycle whose slot is not closing starts where none is in progress; its completion runs one pass, and
closes the slot where its context has ended; STREAM_CLOSE closes the slot, while no step of it is in progress, with the count of
discarded steps as its result. -/
def Obligations.StreamCommandsRun : Prop :=
  ∀ (s : State) (node : Nat) (errs : ReadErrs), s.clocked = true →
    (∀ x, let b : SBody := ⟨x.body⟩
      s.executing node 3 = some x → b.op = 1 →
      s.bodyPasses (s.ctxPart x.ctx) (State.openPlan node b) (faultsOf (s.scanBad node x) false) →
      ∃ t y, exec (.streamOpen node errs) s = .next t ∧ tfind t.seq.streams (8 * node + b.slot) = some { ctx := x.ctx, body := x.body } ∧
        t.getO ONX_Q_STREAM.OPEN node b.slot = 1 ∧ t.getO ONX_Q_STREAM.PENDING node b.slot = 0 ∧
        t.getO ONX_Q_STREAM.POISON node b.slot = 0 ∧ t.getO ONX_Q_STREAM.NEXT node b.slot = b.origin % 2 ^ 32 ∧
        t.cmd x.key = some y ∧ y.phase = .finished ∧ y.status ∈ [Status.ok, .tileUncorrectable, .poisonedInput]) ∧
    (∀ x, let slot := SBody.slot ⟨x.body⟩
      s.executing node 3 = some x → SBody.op ⟨x.body⟩ = 2 → s.scanBad node x = false → tfind s.seq.stepping node ≠ some slot →
      exec (.streamClose node) s = .next ((s.closeSlot node slot).releaseGate.finish x
        (if s.getO ONX_Q_STREAM.POISON node slot = 1 then .poisonedInput else .ok) (s.getO ONX_Q_STREAM.PENDING node slot))) ∧
    (∀ src slot val, s.onyxWrites src node 2 = true → slot < 8 → s.getO ONX_Q_STREAM.OPEN node slot = 1 → val % 2 ^ 8 ≠ 0 →
      s.getO ONX_Q_STREAM.PENDING node slot + val % 2 ^ 8 ≤ 255 →
      ∃ t early late, exec (.streamDoorbell src node slot val) s = .next t ∧
        t.getO ONX_Q_STREAM.PENDING node slot = s.getO ONX_Q_STREAM.PENDING node slot + val % 2 ^ 8 ∧
        tget [] t.seq.queue node = early ++ List.replicate (val % 2 ^ 8) (s.time.now, slot) ++ late ∧
        (early ++ late).Perm (tget [] s.seq.queue node) ∧ (∀ e ∈ early, e.1 = s.time.now → e.2 ≤ slot) ∧
        (∀ e ∈ late, e.1 = s.time.now ∧ slot < e.2) ∧ s.sameBut [.regs, .seq] t) ∧
    (∀ e, s.nextStep node = some e → tfind s.seq.stepping node = none →
      ∃ t, exec (.streamStep node) s = .next t ∧ tget [] t.seq.queue node = (tget [] s.seq.queue node).erase e ∧
        tfind t.seq.stepping node = some e.2 ∧ s.sameBut [.seq] t) ∧
    (∀ slot w, tfind s.seq.stepping node = some slot → tfind s.seq.streams (8 * node + slot) = some w →
      let u := s.streamPass node slot w errs
      let v : State := { u with seq := { u.seq with stepping := tdel u.seq.stepping node } }
      exec (.streamStepComplete node errs) s = .next (if w.closing then v.closeSlot node slot else v).releaseGate)

/-- A transfer that the tile mover executes, that nothing refuses (R73), with a slot free and no tile of a command issued before it left to
start (R74), runs over all its tiles: nothing is left in flight; every tile was started, or a failure closed it; its record carries the
status and the result of R75; where no tile failed every tile was delivered and the status is usable. -/
def Obligations.TransferCommandsFinish : Prop :=
  ∀ (s : State) (k seq : Nat) (errs : ReadErrs) (bad : List Nat) (x : Cmd) (c : Instr),
    let f := xfer x.body
    s.clocked = true → s.mover k seq = some x → x.key = k * 2 ^ 32 + seq → tfind s.sched.transfers x.key = none →
    s.transferRefused x.node (s.ctxPart x.ctx) f = none → s.slotsUsed x.node x.key < 1024 →
    (∀ y, s.nextIssue x.node = some y → y.key = x.key) →
    ((f.op, c) ∈ [(0, if f.broadcast then Instr.broadcastCopy k seq errs else .copy k seq errs bad), (1, .fill k seq bad),
      (2, .flush k seq errs), (3, .evict k seq errs), (4, .discard k seq), (5, .prefetch k seq errs), (6, .wayflush k seq errs)]) →
    ∃ t y u, exec c s = .next t ∧ t.cmd x.key = some y ∧ tfind t.sched.transfers x.key = some u ∧ y.phase = .finished ∧
      u.count = f.count ∧ u.flight = [] ∧ (u.closed = true ∨ u.started = u.count) ∧ u.delivered ≤ u.count ∧
      y.status = u.status ∧ y.result = u.result f ∧ (u.firstFail = none → u.delivered = u.count ∧ y.status.usable = true)

/-- Tile by tile (R74, R75, R81): the next tile of a die's first waiting command starts while a slot is free; a tile in flight ends and
is booked with the status that R31 picks; so is a tile that T3 has not answered within the T3_TIMEOUT of its command, with
LOWER_TIER_TIMEOUT where it is a copy from T3 or a fill of T3. A packet of a protected partition that fails authentication is discarded,
the failure is counted, and the tile is booked with TILE_UNCORRECTABLE, or NODE_LOST where a die of its path was lost (R279). -/
def Obligations.TilesStartAndEnd : Prop :=
   (∀ (s : State) (x : Cmd) (w : Transfer), s.clocked = true →
      (∀ node, s.nextIssue node = some x → s.slotsUsed node (2 ^ 64) < 1024 →
        (tfind s.sched.transfers x.key = some w ∨ (tfind s.sched.transfers x.key = none ∧
          s.transferRefused x.node (s.ctxPart x.ctx) (xfer x.body) = none ∧ w = { count := (xfer x.body).count })) →
        ∃ t u, exec (.tileStart node) s = .next t ∧ tfind t.sched.transfers x.key = some u ∧ u.started = w.started + 1 ∧
          u.flight = w.flight ++ [s.flightOf node (xfer x.body) w.started] ∧ u.delivered = w.delivered ∧ s.sameBut [.sched] t) ∧
      (∀ k seq index f, s.mover k seq = some x → tfind s.sched.transfers x.key = some w →
        w.flight.find? (fun g => g.index == index) = some f →
        (∀ errs bad, let r := s.moveTile x.node (s.ctxPart k) (xfer x.body) f errs (.done bad)
          ∃ t, exec (.tileComplete k seq index errs bad) s = .next t ∧
            tfind t.sched.transfers x.key = some (w.book (xfer x.body) index (pickStatus r.2)) ∧ t.mem = r.1.mem ∧ t.t1 = r.1.t1 ∧
            t.hostMem = r.1.hostMem ∧ t.poison = r.1.poison) ∧
        (∀ received, ((xfer x.body).op = 0 ∧ (xfer x.body).srcT3 = true) ∨ ((xfer x.body).op ≤ 1 ∧ (xfer x.body).dstT3 = true) →
          f.start + s.t3Limit x.body ≤ s.time.now →
          let r := s.moveTile x.node (s.ctxPart k) (xfer x.body) f {} (.timeout received)
          ∃ t, exec (.t3Timeout k seq index received) s = .next t ∧
            tfind t.sched.transfers x.key = some (w.book (xfer x.body) index (pickStatus r.2)) ∧
            (f.lost = false → (xfer x.body).op = 1 ∨ (xfer x.body).srcT3 = true → pickStatus r.2 = .lowerTierTimeout)))) ∧
   (∀ (s : State) (k seq index j : Nat) (errs : ReadErrs) (x : Cmd) (w : Transfer) (f : TileFlight), s.clocked = true →
      s.mover k seq = some x → tfind s.sched.transfers x.key = some w → w.flight.find? (fun g => g.index == index) = some f →
      f.links ≠ [] → (s.prot (s.ctxPart k)).isProt = true → 256 * j < (xfer x.body).size →
      ∃ t, exec (.packetAuthFail k seq index j errs) s = .next t ∧
        tfind t.sched.transfers x.key = some (w.book (xfer x.body) index (if f.lost then .nodeLost else .tileUncorrectable)) ∧
        t.sec.authFails = s.sec.authFails + 1)

/-- Memory rows: the patrol scrub counts what it finds in the die's T2, poisons a sector with an uncorrectable error and sends the
event of R83; a write of WAYMODE makes scratch exactly the ways asked for that hold no line (R69). Writes that configure the units of an Onyx: a KV pool that is enabled is zeroed first (R146); a bias or gate table in use keeps a
write waiting (R140, R174); a map slot that is enabled starts at epoch 0 with its area being zeroed (R208). -/
def Obligations.UnitConfiguration : Prop :=
   (∀ (s : State) (node : Nat), s.clocked = true → node < 4 →
      (∀ sector, sector < 0x10000000 → s.t2Up node = true →
        let a := glob node (256 * sector)
        exec (.patrolScrub node sector 1) s =
          .next (s.setObj 0 0x3401 (node + 1) (satAdd 32 (s.obj 0 0x3401 (node + 1)) 1)) ∧
        exec (.patrolScrub node sector 2) s =
          .next (((s.setPoison a true).setObj 0 0x3402 (node + 1) (satAdd 32 (s.obj 0 0x3402 (node + 1)) 1)).event
            16 .tileUncorrectable 0x04 node 0 0 a 0)) ∧
      (∀ src val, s.admitted node = true → s.domOn (8 * node) = true → s.reaches src node 5 0 = true →
        ∃ t, exec (.waymodeWrite src node val) s = .next t ∧
          (∀ w, w < 16 → (bit (t.getO ONX_T1_WAYMODE.SCRATCH node 0) w = true ↔
            bit val w = true ∧ (bit (s.getO ONX_T1_WAYMODE.SCRATCH node 0) w = true ∨ s.wayHolds node w = false))) ∧
          s.sameBut [.regs] t)) ∧
   (∀ (s : State) (src : Src) (node val : Nat), s.clocked = true →
      (∀ p, p < 16 → s.onyxWrites src node 1 = true →
        (s.getO ONX_M_KVPOOL.ENABLE node p ≠ 1 →
          ∃ t, exec (.kvpoolWrite src node p val) s = .next t ∧ t.getO ONX_M_KVPOOL.BASE node p = bits val 0 28 ∧
            t.getO ONX_M_KVPOOL.PSIZE node p = bits val 28 2 ∧ t.getO ONX_M_KVPOOL.ENABLE node p = bits val 30 1 ∧
            t.getO ONX_M_KVPOOL.PAGES node p = bits val 32 18 ∧
            (bit val 30 = true → 16 * node + p ∈ t.kv.zeroing)) ∧
        (s.getO ONX_M_KVPOOL.ENABLE node p = 1 → bit val 30 = true ∨ s.poolHeld node p = true →
          exec (.kvpoolWrite src node p val) s = .next (s.setO ONX_M_KVSTAT.CFG_ERR node 0 1))) ∧
      (∀ p, ∃ t, exec (.kvpoolInitDone node p) s = .next t ∧ 16 * node + p ∉ t.kv.zeroing ∧ s.sameBut [.kv] t) ∧
      (∀ off b, s.onyxWrites src node 1 = true → biasOf off = some b →
        (s.biasInUse node b = false → exec (.biasTableWrite src node off val) s = .next (s.applyBias node off val)) ∧
        (s.biasInUse node b = true →
          exec (.biasTableWrite src node off val) s = .next { s with kv := { s.kv with heldBias := s.kv.heldBias ++ [(node, off, val)] } })) ∧
      (∀ off g, s.onyxWrites src node 2 = true → gateOf off = some g → (off < 0x10000 → gcfgOk val = true) →
        (s.gateInUse node g = false → exec (.gateTableWrite src node off val) s = .next (s.applyGate node off val)) ∧
        (s.gateInUse node g = true →
          exec (.gateTableWrite src node off val) s =
            .next { s with seq := { s.seq with heldGate := s.seq.heldGate ++ [(node, off, val)] } })) ∧
      (∀ m, m < 4 → s.onyxWrites src node 4 = true → s.mapOn node m = false → mapValueOk 0 val = true → bit val 28 = true →
        ∃ t, exec (.mapcfgWrite src node m 0 val) s = .next t ∧ t.getO ONX_G_MAPCFG.ENABLE node m = 1 ∧
          t.getO ONX_G_MAPCFG.DIR_BASE node m = bits val 0 28 ∧ t.getO ONX_G_MAPCFG.DCLIP node m = bits val 32 9 ∧
          t.getO ONX_G_MAPSTAT.EPOCH node m = 0 ∧ t.mapWaits node m = true ∧ s.sameBut [.regs, .geo] t) ∧
      (∀ m, s.mapWaits node m = true → ∃ t, exec (.mapInitDone node m) s = .next t ∧ t.mapWaits node m = false))

/-! ## Scheduling: fetch, dispatch, completion, contexts, switches (chapter 12) -/

/-- COMMAND_FETCH takes the entry at SQ_HEAD of a context whose CQ has room: it gets the next SEQ, SQ_HEAD advances and a CQ entry is
reserved (R289, R294), whatever becomes of the command; a fetch that fails does the same (R514). The envelope accepted is the one that
stands at SQ_HEAD in host memory or in T2. COMMAND_DISPATCH starts the command picked on a free engine instance of an admitted, powered
node, a new query command on the first free pipe (R202): the instance then executes it
and the round robin remembers its context (R299). A node that is not admitted gives NODE_LOST (R16), a core that is not powered
BAD_DESCRIPTOR (R26). COMMAND_COMPLETE writes the record of a finished command; a query or sampler command whose epoch has been superseded
since completes with STALE_EPOCH (R212), and NODE reads 0xF where the command was not executed (R295). -/
def Obligations.CommandLifecycle : Prop :=
   (∀ (s : State) (k : Nat) (errs : ReadErrs) (timeout : Bool), s.clocked = true → s.canFetch k = true →
      (s.get AGT_SCHED_CTX_CFG.SQ_LOC k = 1 →
        exec (.commandFetch k errs) s = .next (s.accept k (leVal (s.hostRead (s.sqEntry k) 64)))) ∧
      (s.get AGT_SCHED_CTX_CFG.SQ_LOC k ≠ 1 →
        let r := s.readSectors (s.ctxPart k) true errs [sectorOf (s.sqEntry k)]
        (r.lost = false → r.poison = false → exec (.commandFetch k errs) s = .next (r.st.accept k (r.st.word (s.sqEntry k) 64))) ∧
        (r.lost = true ∨ r.poison = true → exec (.commandFetch k errs) s = .next (r.st.fetchFail k .tileUncorrectable))) ∧
      exec (.sqFetchFail k timeout) s = .next (s.fetchFail k (if timeout then .lowerTierTimeout else .tileUncorrectable)) ∧
      (∀ e, (s.takeSeq k e).1 = (s.ctx k).nextSeq ∧ (s.takeSeq k e).2.sqHead k = (s.sqHead k + 1) % s.ringSize k % 2 ^ 15 ∧
        ((s.takeSeq k e).2.ctx k).nextSeq = ((s.ctx k).nextSeq + 1) % 2 ^ 32 ∧
        ((s.takeSeq k e).2.ctx k).reserved = (s.ctx k).reserved + 1)) ∧
   (∀ (s : State) (x : Cmd), s.clocked = true →
      (∀ node inst, inst < 16 → tfind s.sched.busy (16 * node + inst) = none → s.unitHeld node inst = false →
        s.pick node inst (fun y => s.ready y && !s.tilesHeld y && (y.phase != .waiting || s.firstPipe node inst)) = some x →
        (s.admitted node = true → s.instOn node inst = true →
          ∃ t y, exec (.commandDispatch node inst) s = .next t ∧ t.cmd x.key = some y ∧ y.phase = .running ∧ y.node = node ∧ y.inst = inst ∧
            (inst ≠ 12 → t.executing node inst = some y) ∧ tfind t.sched.lastGrant (16 * node + inst) = some x.ctx ∧
            s.sameBut [.sched, .pwr] t) ∧
        (s.admitted node = false → exec (.commandDispatch node inst) s = .next (s.finish { x with node := 0xF } .nodeLost 0)) ∧
        (s.admitted node = true → s.instOn node inst = false →
          exec (.commandDispatch node inst) s = .next (s.finish { x with node := 0xF } .badDescriptor 0))) ∧
      (∀ k seq, s.cmd (k * 2 ^ 32 + seq) = some x → x.phase = .finished → x.status ≠ .denied →
        let status := if (x.engine = 7 ∨ x.engine = 8) ∧
            (∃ e, x.anchor = some e ∧ s.getO ONX_G_MAPSTAT.EPOCH x.node (bits x.body 4 2) ≠ e)
          then x.status.first .staleEpoch else x.status
        exec (.commandComplete k seq) s = .next ((s.complete x status x.result
          (if x.status = .badDescriptor ∨ x.status = .badLayout then 0xF else x.node)).abortSweep k)))

/-- Context control of R287 and the doorbell of R292. ENABLE of a DISABLED context whose configuration is valid makes it ACTIVE with its
ring and SEQs at the start, its generation raised and CDONE at 0xFFFFFFFF; HALT, RESUME and DISABLE change STATE; ABORT sweeps; an
operation that the state does not allow sets CFG_ERR and nothing else. A running command that must stop does so at the end of one of its
work units, at least one further on, with what the resumed run needs kept, its record in the save area and its engine instance free
(R301, R304). A T0 switch saves the regions that stand in the way, restores the region of the waiting context where it had been saved (here
with no restage list) and holds the core until it completes; the waiting context then holds its region (R303). -/
def Obligations.ContextsAndPreemption : Prop :=
   (∀ (s : State) (src : Src) (k : Nat), s.clocked = true →
      (∀ val, k < 512 → s.reaches src 4 2 (0x10040 + 128 * k) = true → (bit val 32 = true → val % 2 ^ 15 < s.ringSize k) →
        (bit val 33 = true → bits val 16 15 < s.ringSize k) →
        ∃ t, exec (.ctxDb src k val) s = .next t ∧ s.sameBut [.sched] t ∧
          (t.ctx k).sqTail = (if bit val 32 then val % 2 ^ 15 else (s.ctx k).sqTail) ∧
          (t.ctx k).cqHead = (if bit val 33 then bits val 16 15 else (s.ctx k).cqHead)) ∧
      (s.ctrlReaches src k 1 = true → s.ctxState k = 0 → s.configValid k = true →
        ∃ u : State, exec (.ctxEnable src k) s = .next (u.settleWaits (s.sched.order.length + 1)) ∧ u.ctxState k = 1 ∧ u.sqHead k = 0 ∧
          u.cdone k = 0xFFFFFFFF ∧ u.ctx k = { gen := (s.ctx k).gen + 1 }) ∧
      (s.ctrlReaches src k 2 = true → s.ctxState k = 1 → exec (.ctxHalt src k) s = .next (s.set AGT_SCHED_CTX_STAT.STATE k 2)) ∧
      (s.ctrlReaches src k 3 = true → s.ctxState k = 2 → s.mapFenced k = false →
        ∃ t, exec (.ctxResume src k) s = .next t ∧ t.ctxState k = 1 ∧ ((s.ctx k).lostNodes = [] → (t.ctx k).held = false) ∧
          s.sameBut [.regs, .sched] t) ∧
      (s.ctrlReaches src k 4 = true → s.ctxState k = 1 ∨ s.ctxState k = 2 →
        exec (.ctxAbort src k) s = .next (((((s.set AGT_SCHED_CTX_STAT.STATE k 3).dropRegions k).closeStreamsOf k).abortSweep k).settleWaits
          (s.sched.order.length + 1))) ∧
      (s.ctrlReaches src k 5 = true → s.ctxState k = 2 → s.get AGT_SCHED_CTX_STAT.OUTSTANDING k = 0 →
        ∃ u : State, exec (.ctxDisable src k) s = .next (u.settleWaits (s.sched.order.length + 1)) ∧ u.ctxState k = 0) ∧
      (s.ctrlReaches src k 2 = true → s.ctxState k ≠ 1 → exec (.ctxHalt src k) s = .next (s.set AGT_SCHED_STATUS.CFG_ERR 0 1))) ∧
   (∀ (s : State) (node : Nat) (errs : ReadErrs) (x : Cmd), s.clocked = true →
      (∀ inst units p, s.executing node inst = some x → s.stops node inst x = true → s.planOf node inst x = .plan p →
        0 < units → x.unitsDone + units < p.units →
        let r := s.readSectors (s.ctxPart x.ctx) true errs p.reads
        ∃ (u : State) (y : Cmd), exec (.preemptionPoint node inst units errs) s = .next (u.abortSweep x.ctx) ∧ u.cmd x.key = some y ∧ y.phase = .stopped ∧
          y.unitsDone = x.unitsDone + units ∧ y.anchor = p.anchor ∧ y.saved = p.keep (x.unitsDone + units) r.st ∧
          y.result = p.result (p.run x.unitsDone (x.unitsDone + units) r.st).1 ∧ (∀ e ∈ u.sched.busy, e.2 ≠ x.key)) ∧
      (∀ core t3, node < 4 → core < 4 → tfind s.sched.switches (4 * node + core) = none → s.switchFor node core = some x →
        let back := s.sched.saved.contains (heldKey x.ctx node core)
        let out := (s.blockers x.ctx node core).foldl (fun st k => st.saveRegion k node core errs) s
        (back = true → s.get AGT_SCHED_CTX_RESTAGE.COUNT x.ctx = 0) →
        ∃ t, exec (.t0Switch node core { errs := errs, t3 := t3 }) s = .next t ∧
          tfind t.sched.switches (4 * node + core) = some { ctx := x.ctx, out := s.blockers x.ctx node core } ∧
          (∀ k ∈ s.blockers x.ctx node core, heldKey k node core ∈ t.sched.saved) ∧
          t.mem = (if back then out.restoreRegion x.ctx node core errs else out).mem) ∧
      (∀ core w, tfind s.sched.switches (4 * node + core) = some w →
        ∃ t, exec (.t0SwitchComplete node core) s = .next t ∧ heldKey w.ctx node core ∈ t.sched.held ∧
          tfind t.sched.switches (4 * node + core) = none ∧ s.sameBut [.sched] t))

/-- Writes of scheduler registers with a row of their own: an event ring restarts at 0 with PHASE 1 (R296); a partition's MODE, RATE,
BURST and CHMASK are stored where R310 allows them and otherwise leave all of it with CFG_ERR; so with RSV; SW_CAP of an ISSUECAP is
stored where it is 1 to 64 (R100). -/
def Obligations.SchedulerRegisterWrites : Prop :=
  ∀ (s : State) (src : Src) (val : Nat), s.clocked = true →
    (∀ ring, ring ≤ 16 → s.reaches src 4 2 (if ring = 16 then 0x10 else 0x108 + 32 * ring) = true → 4 ≤ bits val 1 4 →
      let g (h p : Fld) : Fld := if ring = 16 then h else p
      let i := if ring = 16 then 0 else ring
      ∃ t, exec (.evqWrite src ring val) s = .next t ∧ t.get (g AGT_SCHED_HOSTEVQSTAT.TAIL AGT_SCHED_PART_EVQSTAT.TAIL) i = 0 ∧
        t.get (g AGT_SCHED_HOSTEVQSTAT.HEAD AGT_SCHED_PART_EVQSTAT.HEAD) i = 0 ∧ tget false t.sched.evPhase ring = true ∧
        t.get (g AGT_SCHED_HOSTEVQ.LOC AGT_SCHED_PART_EVQ.LOC) i = bits val 0 1 ∧
        t.get (g AGT_SCHED_HOSTEVQ.SIZE_LOG2 AGT_SCHED_PART_EVQ.SIZE_LOG2) i = bits val 1 4 ∧
        t.get (g AGT_SCHED_HOSTEVQ.BASE AGT_SCHED_PART_EVQ.BASE) i = bits val 12 52 ∧ s.sameBut [.regs, .sched] t) ∧
    (∀ p, p < 16 → s.reaches src 4 2 (0x100 + 32 * p) = true →
      let legal := bits val 16 16 ≠ 0 ∧ s.rateSum p (bits val 0 1) (bits val 1 7) (s.get AGT_SCHED_RSV.RSV 0) ≤ 64 ∧
        (bits val 0 1 = 1 → (∀ m ∈ s.chMasks p 0 0, m &&& bits val 32 16 = 0) ∧ popcount16 (bits val 32 16) ∈ [1, 2, 4, 8] ∧
          s.waysOverlap p = false) ∧
        (bits val 0 1 ≠ s.get AGT_SCHED_PART_CFG.MODE p ∨ bits val 32 16 ≠ s.get AGT_SCHED_PART_CFG.CHMASK p →
          (∀ k, k < 512 → s.ctxState k ≠ 0 → s.ctxPart k ≠ p ∧ s.segregated (s.ctxPart k) = true) ∧ s.anyDirty = false)
      (legal → ∃ t, exec (.partCfgWrite src p val) s = .next t ∧ t.get AGT_SCHED_PART_CFG.MODE p = bits val 0 1 ∧
        t.get AGT_SCHED_PART_CFG.RATE p = bits val 1 7 ∧ t.get AGT_SCHED_PART_CFG.BURST p = bits val 16 16 ∧
        t.get AGT_SCHED_PART_CFG.CHMASK p = bits val 32 16) ∧
      (¬legal → exec (.partCfgWrite src p val) s = .next (s.set AGT_SCHED_STATUS.CFG_ERR 0 1))) ∧
    (Src.maintHost src = true → s.reaches src 4 2 0x8 = true → val % 2 ^ 7 ≤ 32 → s.rateSum 16 0 0 (val % 2 ^ 7) ≤ 64 →
      exec (.rsvWrite src val) s = .next (s.set AGT_SCHED_RSV.RSV 0 (val % 2 ^ 7))) ∧
    (∀ node, node < 4 → Src.maintHost src = true → s.reaches src node 1 0 = true →
      1 ≤ bits val 8 7 → bits val 8 7 ≤ 64 →
      exec (.issuecapWrite src node val) s = .next (s.setO ONX_M_ISSUECAP.SW_CAP node 0 (bits val 8 7)))

/-! ## The fabric (chapter 11) -/

/-- Links (R263, R265, R266). A CRC error on a link that is not DOWN counts at its receiving end and a replay at its sending end; the
replay is remembered for 1 ms, and more of them than DEGRADE_RETRIES make an UP link DEGRADED; a packet replayed eight times without
acknowledgement counts its last error and takes the link DOWN, as does a link that fails. -/
def Obligations.LinkErrors : Prop :=
  ∀ (s : State) (l pkt : Nat) (atUpper : Bool) (got : List Nat), s.clocked = true → l < 9 → s.linkState l ≠ 0 →
    let k := 32 * pkt + 2 * l + (if atUpper then 1 else 0)
    let n := tget 0 s.fabric.packetReplays k
    let near := (tget [] s.fabric.replays l).filter (fun r => decide (s.time.now < r + 4000000)) ++ [s.time.now]
    (n < 8 → ∃ t, exec (.packetCrcError l atUpper pkt got) s = .next t ∧ tget 0 t.fabric.packetReplays k = n + 1 ∧
      tget [] t.fabric.replays l = near ∧
      t.linkState l = (if s.linkState l = 1 ∧ s.obj 16 0x3800 2 < near.length then 2 else s.linkState l) ∧ s.sameBut [.regs, .fabric] t) ∧
    (8 ≤ n → exec (.packetCrcError l atUpper pkt got) s = .next ((s.countCrc l atUpper).linkFails l got)) ∧
    exec (.linkDown l got) s = .next (s.linkFails l got)

/-- Loss of a die (R276, R277): a heartbeat goes out and its answer restarts the timeout of the die; a die whose timeout has run out, or
whose uncore reports a fatal error, is fenced with its cause, together with the dies that other commands of the cycle lose; FENCE does so at once where nothing runs on the die or it does not ask to
drain, and otherwise when the drain ends; the command register shows BUSY meanwhile and its status after. -/
def Obligations.DiesAreFenced : Prop :=
  ∀ (s : State) (n : Nat) (got : List Nat) (src : Src) (val : Nat), s.clocked = true →
    (s.stepDone 6 = true → exec .heartbeatSend s = .next { s with fabric := { s.fabric with lastBeat := some s.time.now } }) ∧
    (s.admitted n = true → s.fabric.lastBeat.isSome = true →
      exec (.heartbeatAnswer n) s = .next { s with fabric := { s.fabric with lastAnswer := tset s.fabric.lastAnswer n s.time.now } }) ∧
    (∀ t, s.admitted n = true → s.beatSuspended n = false → tfind s.fabric.lastAnswer n = some t →
      t + 4000 * s.obj 30 0x3800 1 ≤ s.time.now → exec (.lossTimeout n got) s = .next (s.loseAll [(n, 3)] got)) ∧
    (s.admitted n = true → exec (.uncoreFatal n got) s = .next (s.loseAll [(n, 1)] got)) ∧
    (s.admitted n = false → exec (.uncoreFatal n got) s = .next (s.abandonAdmit n)) ∧
    (∀ cause, n < 4 → (∀ c ∈ s.pending, s.lossOf c = none) → s.loseAll [(n, cause)] got = s.fence n cause got) ∧
    (s.reaches src 4 13 0x8 = true → s.isSet AGT_FAB_CMDSTAT.BUSY 0 = false → bits val 0 4 = 1 → s.admitted (bits val 4 4) = true →
      (bit val 8 = false ∨ s.dieBusy (bits val 4 4) = false →
        exec (.fence src val got) s = .next (s.plannedFence (bits val 4 4) got)) ∧
      (bit val 8 = true → s.dieBusy (bits val 4 4) = true →
        ∃ t, exec (.fence src val got) s = .next t ∧ t.isSet AGT_FAB_CMDSTAT.BUSY 0 = true ∧
          t.fabric.drain = some (bits val 4 4, s.time.now) ∧ s.sameBut [.regs, .fabric] t)) ∧
    (∀ d t, s.fabric.drain = some (d, t) → s.admitted d = true → s.dieBusy d = false ∨ t + 4000 * s.obj 1000 0x3800 3 ≤ s.time.now →
      exec (.fenceDrainEnd got) s = .next (s.plannedFence d got)) ∧
    (∀ cause, n < 4 → let u := s.closeDie n cause
      u.admitted n = false ∧ u.fenced n = true ∧ (∀ l ∈ dieLinks n, u.linkState l = 0) ∧
      (cause ≠ 0 → bit (u.get AGT_FAB_STATUS.LOST 0) n = true))

/-- Re-admission (R280) and fabric epochs (R271, R272): ADMIT of a fenced die that was restored begins its training; when that passes,
the die is admitted under a new epoch, at once where no earlier table is retained; when it fails, ADMIT ends with NODE_LOST and the
links of the die are DOWN; the admission that waits follows the last tile of
the retained epoch; each epoch is one more than the one before. -/
def Obligations.DiesAreAdmitted : Prop :=
  ∀ (s : State) (src : Src) (val : Nat) (half : List Nat), s.clocked = true →
    (let n := bits val 4 4
     s.reaches src 4 13 0x8 = true → s.isSet AGT_FAB_CMDSTAT.BUSY 0 = false → bits val 0 4 = 2 → bit val 8 = false → s.fenced n = true →
      s.fabric.restored.contains n = true →
      ∃ t, exec (.admitDie src val) s = .next t ∧ t.fabric.admitting = some n ∧ t.isSet AGT_FAB_CMDSTAT.BUSY 0 = true ∧
        s.sameBut [.regs, .fabric] t) ∧
    (∀ n, s.fabric.admitting = some n → n < 4 → s.fabric.pendingAdmit.contains n = false → s.domOn (8 * n) = true →
      (s.fabric.retained = none → ∃ u : State, exec (.admitComplete true half) s = .next (u.admitNow n) ∧
        u.get AGT_FAB_STATUS.EPOCH 0 = s.get AGT_FAB_STATUS.EPOCH 0 ∧ (u.linkState (4 + n) = 1 ∨ u.linkState (4 + n) = 2)) ∧
      (s.fabric.retained.isSome = true → ∃ t, exec (.admitComplete true half) s = .next t ∧ t.fabric.pendingAdmit = [n] ∧
        t.get AGT_FAB_STATUS.EPOCH_PENDING 0 = 1) ∧
      exec (.admitComplete false half) s = .next (s.abandonAdmit n) ∧ (s.abandonAdmit n).fabric.admitting = none ∧
        (s.abandonAdmit n).get AGT_FAB_CMDSTAT.STATUS 0 = Status.code .nodeLost ∧
        (∀ l ∈ dieLinks n, (s.abandonAdmit n).linkState l = 0)) ∧
    (∀ r, s.fabric.retained = some r → s.epochUsed r.epoch = false →
      exec .epochRelease s = .next ((s.fabric.pendingAdmit.foldl (fun st n => st.admitNow n)
        ({ s with fabric := { s.fabric with retained := none } } : State)).showPending)) ∧
    (s.newEpoch.get AGT_FAB_STATUS.EPOCH 0 = (s.get AGT_FAB_STATUS.EPOCH 0 + 1) % 2 ^ 32) ∧
    (∀ n, n < 4 → (s.admitNow n).admitted n = true ∧ (s.admitNow n).fenced n = false ∧
      (s.admitNow n).fabric.admitting = none ∧ (s.admitNow n).get AGT_FAB_STATUS.EPOCH 0 = (s.get AGT_FAB_STATUS.EPOCH 0 + 1) % 2 ^ 32)

/-! ## Ingest (chapter 10) -/

/-- Cameras (R235 to R240): enabling a legal configuration puts the port in WAIT; a Frame Start takes the next SEQ and the time; a frame
with an error is dropped and counted, the first good one leads to BASELINE; a good frame that is neither frozen nor flat makes the
port ACTIVE and waits for its writes, one behind a frame that still waits for its own is judged after that; then its record is written and
what waited behind it is judged. Claims, releases, exclusion and re-admission (R240, R245): a claim answers the newest READY buffer, which
becomes HELD while the others become FREE, or 0; a release frees exactly the HELD buffers named; a port excluded is EXCLUDED with its cause
added; one re-admitted waits again with no cause, unless an EXCLUDE of the same cycle names it (R246). Within a cycle a camera event that
R241 puts behind one still to come is put off, and a claim so put off finds the frame that ends in its cycle (the model's choice of a
cycle, log entries 1 and 149). -/
def Obligations.Cameras : Prop :=
   (∀ (s : State) (p : Nat), s.clocked = true → p < 12 →
      (∀ src val, s.ingWrites src (0x100 + 64 * p) = true → s.get AGT_ING_CAMCFG.ENABLE p ≠ 1 → bit val 0 = true →
        (∀ k, k < 8 → s.bufState p k ≠ 3) → (s.storeCam p val).camCfgOk p = true →
        ∃ t, exec (.camcfgWrite src p 0 val) s = .next t ∧ t.get AGT_ING_CAMCFG.ENABLE p = 1 ∧ t.camState p = 1 ∧
          t.get AGT_ING_CAMSTAT.FRZ_RUN p = 0 ∧ t.get AGT_ING_CAMSTAT.FLAT_RUN p = 0 ∧ t.get AGT_ING_CAMSTAT.BUFSTATE p = 0 ∧
          t.get AGT_ING_CAMCFG.WIDTH_M1 p = bits val 32 12 ∧ t.get AGT_ING_CAMCFG.HEIGHT_M1 p = bits val 44 12) ∧
      (∀ vc no, s.camTakes p vc = true → s.camState p ∈ [1, 2, 3] → (s.cam p).cur = none →
        s.camBehind [p] 3 = false → s.ing.waiting = [] →
        (s.camLimits p).fnumChk = false ∨ s.camState p = 1 ∨ (s.cam p).lastNo ≠ some (no % 2 ^ 16) →
        ∃ (t : State) (f : CamFrame) (b : Option Nat), exec (.csiFrameStart p { vc := vc, no := no }) s = .next t ∧ (t.cam p).seq = ((s.cam p).seq + 1) % 2 ^ 32 ∧
          (t.cam p).lastSof = some s.time.now ∧ (t.cam p).lastNo = some (no % 2 ^ 16) ∧ (t.cam p).cur = some (f, b) ∧
          f.seq = ((s.cam p).seq + 1) % 2 ^ 32 ∧ f.sof = s.time.now ∧ f.no = no % 2 ^ 16) ∧
      (∀ vc err packets f b, (s.cam p).cur = some (f, b) → s.camTakes p vc = true → s.camRuns p = true → s.ing.waiting = [] →
        let dt := s.get AGT_ING_CAMCFG.DT p
        let lines := (packets.filter (fun l => l.1 == dt)).map (·.2)
        let px := lines.zipIdx.map (fun l => (linePixels dt ((Config.free (s.freeCount + l.2)).toNat % 256) l.1).take (s.camW p))
        let d : State := { s.dropCur p with freeCount := s.freeCount + lines.length }
        let written := d.writeFrame p b (px.flatMap (fun l => l.flatMap (pixelBytes (camFmt (s.get AGT_ING_CAMCFG.OUTFMT p)) (codeBits dt))))
        (err = true ∨ lines.length ≠ s.camH p ∨ (∃ l ∈ lines, l.length ≠ lineBytes dt (s.camW p)) →
          exec (.csiFrameEnd p err { vc := vc, packets := packets }) s = .next (d.count AGT_ING_CAMLOSS.ERRORED p 1)) ∧
        (∀ u : State, err = false → lines.length = s.camH p → (∀ l ∈ lines, l.length = lineBytes dt (s.camW p)) → written = some u →
          ((u.cam p).waits = [] → s.camState p = 1 → ∃ t, exec (.csiFrameEnd p err { vc := vc, packets := packets }) s = .next t ∧ t.camState p = 2 ∧
            (t.cam p).ref = some (bandCrcs lines)) ∧
          (∀ k, (u.cam p).waits = [] → s.camState p ∈ [2, 3] → b = some k →
            (((bandCrcs lines).zip ((u.cam p).ref.getD [])).filter (fun q => q.1 == q.2)).length < (u.cam p).lim.bands →
            (u.cam p).lim.flatSpan < codeSpan (thinned 8 px) →
            ∃ (t : State) (w : CamWait), exec (.csiFrameEnd p err { vc := vc, packets := packets }) s = .next t ∧ t.camState p = 3 ∧
              (t.cam p).ref = some (bandCrcs lines) ∧ (t.cam p).waits = [w] ∧ w.buf = some k ∧ w.judged = true ∧ w.frame.sof = f.sof ∧
              w.frame.eof = s.time.now ∧ t.get AGT_ING_CAMSTAT.FRZ_RUN p = 0 ∧ t.get AGT_ING_CAMSTAT.FLAT_RUN p = 0) ∧
          (∀ w rest, (u.cam p).waits = w :: rest → w.judged = true →
            ∃ (t : State) (v : CamWait), exec (.csiFrameEnd p err { vc := vc, packets := packets }) s = .next t ∧ (t.cam p).waits = w :: rest ++ [v] ∧ v.buf = b ∧
              v.judged = false ∧ v.sig = bandCrcs lines ∧ v.frame.sof = f.sof ∧ v.frame.eof = s.time.now ∧ t.camState p = u.camState p))) ∧
      (∀ w rest k, (s.cam p).waits = w :: rest → w.buf = some k → s.camRuns p = true → s.bufState p k = 1 →
        exec (.frameReady p) s = .next (State.judgeWaits p rest.length ((s.setCam p { s.cam p with waits := rest }).frameReady p k w))) ∧
      (∀ t0, (s.cam p).lastSof = some t0 → s.camJudged p = true → t0 + 2 * (s.cam p).lim.period * 4000 ≤ s.time.now →
        exec (.frameMissing p) s = .next (s.excludeCam p 8))) ∧
   (∀ (s : State) (src : Src) (p : Nat), s.clocked = true → p < 12 →
      (s.ingWrites src (0x120 + 64 * p) = true → s.camBehind [p] 1 = false → s.ing.waiting = [] →
        (∀ k, s.readyBuf p true = some k → ∃ u : State, u.bufState p k = 3 ∧
          exec (.claim src p) s = .next (u.emit (.value (k + 2 ^ 3 + ((s.bufsIn p 2).filter (fun j => j != k)).length * 2 ^ 8 +
            (camFrame (s.cam p) k).seq * 2 ^ 32))) ∧ (∀ j, j < 8 → j ≠ k → u.bufState p j = if j ∈ s.bufsIn p 2 then 0 else s.bufState p j)) ∧
        (s.readyBuf p true = none → exec (.claim src p) s = .next (s.emit (.value 0)))) ∧
      (∀ val, s.ingWrites src (0x128 + 64 * p) = true → s.camBehind [p] 2 = false → s.ing.waiting = [] →
        ∃ t, exec (.releaseBuffer src p val) s = .next t ∧ s.sameBut [.regs] t ∧
          ∀ k, k < 8 → t.bufState p k = if bit val k = true ∧ s.bufState p k = 3 then 0 else s.bufState p k) ∧
      (s.ingWrites src 0x10 = true → s.camRuns p = true →
        ∃ u : State, exec (.exclude src (2 ^ p)) s = .next (u.setCam p { u.cam p with excludedAt := some s.time.now }) ∧ u = s.excludeCam p 0x10 ∧
          u.camState p = 4 ∧ u.get AGT_ING_CAMSTAT.CAUSE p = (s.get AGT_ING_CAMSTAT.CAUSE p ||| 0x10) % 2 ^ 5 ∧ (u.cam p).cur = none) ∧
      (s.ingWrites src 8 = true → s.camState p = 4 →
        ((s.cam p).excludedAt ≠ some s.time.now → bit s.excludesAhead p = false →
          ∃ t, exec (.readmit src (2 ^ p)) s = .next t ∧ t.camState p = 1 ∧ t.get AGT_ING_CAMSTAT.CAUSE p = 0 ∧ s.sameBut [.regs] t) ∧
        ((s.cam p).excludedAt = some s.time.now ∨ bit s.excludesAhead p = true → exec (.readmit src (2 ^ p)) s = .next s))) ∧
   (∀ (s : State) (src : Src) (p vc : Nat) (err : Bool) (packets : List (Nat × List Byte)), s.clocked = true → p < 12 →
      s.ingWrites src (0x120 + 64 * p) = true → s.pending = [.csiFrameEnd p err { vc := vc, packets := packets }] → s.ing.waiting = [] →
      ∃ (t u : State), exec (.claim src p) s = .next t ∧ t.ing.waiting = [.claim src p] ∧ s.sameBut [.ing] t ∧
        u = ({ t with pending := [] } : State).frameEnd p vc err packets ∧
        exec (.csiFrameEnd p err { vc := vc, packets := packets }) { t with pending := [] } =
          .next (({ u with ing := { u.ing with waiting := [] } } : State).camAct (.claim src p)))

/-- Snapshots (R247, R248), IMUs and encoders (R250, R251): a SNAP runs at once or is held while the last record is being written, and
then runs, where no camera event that R241 puts before it is still to come in its cycle; an edge of a data-ready line is stamped to 0.5 ns
within 1 ns and starts a burst with RDCMD; the burst makes a sample record; a level that an encoder line holds for FILTER × 10 ns counts up or
down in the cycle of quadrature, or by STEP and DIR (log entry 150 says which way is up), and INVERT turns the count round. Ego motion (R251 to R255): a tick latches the counts of the enabled encoders with the tick time; its evaluation votes, judges,
integrates and writes the pose record; APPLY stages the state vector of object 0x4821. -/
def Obligations.SnapshotsAndEgoMotion : Prop :=
   (∀ (s : State) (src : Src) (i : Nat), s.clocked = true →
      (∀ mask, s.ingWrites src 0x18 = true → s.ing.snapHeld = none → s.camBehind (maskList 12 mask) 1 = false → s.ing.waiting = [] →
        exec (.snap src mask false) s = .next (s.snapshot (mask % 2 ^ 12)) ∧
        ∃ t, exec (.snap src mask true) s = .next t ∧ t.ing.snapHeld = some (mask % 2 ^ 12) ∧ t.get AGT_ING_STATUS.SNAP_HELD 0 = 1 ∧
          s.sameBut [.regs, .ing] t) ∧
      (∀ m, s.ing.snapHeld = some m → s.camBehind (maskList 12 m) 1 = false → s.ing.waiting = [] → exec .snapHeldRun s =
        .next ((({ s with ing := { s.ing with snapHeld := none } } : State).set AGT_ING_STATUS.SNAP_HELD 0 0).snapshot m)) ∧
      (∀ val, i < 4 → s.ingWrites src (0x400 + 32 * i) = true →
        ∃ t, exec (.imucfgWrite src i val) s = .next t ∧ t.get AGT_ING_IMUCFG.ENABLE i = bits val 0 1 ∧
          t.get AGT_ING_IMUCFG.RATE i = bits val 1 2 ∧ t.get AGT_ING_IMUCFG.OFS i = bits val 4 5 ∧
          t.get AGT_ING_IMUCFG.LEN_M1 i = bits val 9 5 ∧ t.get AGT_ING_IMUCFG.RDCMD i = bits val 16 8 ∧
          (bit val 0 = false → t.imuState i = 0) ∧ (bit val 0 = true → s.get AGT_ING_IMUCFG.ENABLE i ≠ 1 → t.imuState i = 1)) ∧
      (i < 4 → s.ingOn = true → s.imuState i ≠ 0 →
        ((s.imu i).edge = none → ∃ t e, exec (.imuDrdy i) s = .next t ∧ (t.imu i).edge = some e ∧ e % 2 = 0 ∧ e ≤ s.time.now + 2 ∧
          s.time.now ≤ e + 3 ∧ t.freeCount = s.freeCount + 1 ∧
          t.out = s.out ++ [.imuRead i (s.get AGT_ING_IMUCFG.RDCMD i) (s.get AGT_ING_IMUCFG.LEN_M1 i + 1)] ∧ s.sameBut [.free, .ing, .out] t) ∧
        ((s.imu i).edge ≠ none → exec (.imuDrdy i) s =
          .next (s.setObj 0 (0x2C38 + i) 3 (satAdd 32 (s.obj 0 (0x2C38 + i) 3) 1)))) ∧
      (∀ e burst, (s.imu i).edge = some e →
        let v := s.imuSample i (burst.take (s.get AGT_ING_IMUCFG.LEN_M1 i + 1))
        let r := leBytes 32 (e % 2 ^ 64 + packWords v * 2 ^ 64)
        let n := s.get AGT_ING_IMUSTAT.SAMPLES i
        let w := (({ s with freeCount := s.freeCount + 12 } : State).setImu i
          { s.imu i with edge := none, stamp := some e, sample := v }).ringPut (imuRing i) n r
        exec (.imuBurstComplete i burst) s =
          .next (if w.2 then (w.1.set AGT_ING_IMUSTAT.SAMPLES i (n + 1)).forward 1 i r else w.1)) ∧
      (∀ a b held, i < 8 → s.ingOn = true → s.get AGT_ING_ENCCFG.ENABLE i = 1 → s.get AGT_ING_ENCCFG.MODE i < 2 →
        let was := tget (false, false) s.ing.enc i
        (40 * s.get AGT_ING_ENCCFG.FILTER i ≤ held →
          ∃ (t : State) (n : Int), exec (.encoderEdge i { a := a, b := b, held := held }) s = .next t ∧ s.sameBut [.free, .regs, .ing] t ∧
            tget (false, false) t.ing.enc i = (a, b) ∧
            t.get AGT_ING_ENCCNT.COUNT i =
              ux 32 ((s.get AGT_ING_ENCCNT.COUNT i : Int) + (if s.get AGT_ING_ENCCFG.INVERT i = 1 then -n else n)) ∧
            (s.get AGT_ING_ENCCFG.MODE i = 1 → n = if was.1 = false ∧ a = true then (if b then 1 else -1) else 0) ∧
            (s.get AGT_ING_ENCCFG.MODE i = 0 →
              (a = was.1 → b = was.2 → n = 0) ∧ (a ≠ was.1 → b = was.2 → n = if a = b then -1 else 1) ∧
              (a = was.1 → b ≠ was.2 → n = if a = b then 1 else -1) ∧ (a ≠ was.1 → b ≠ was.2 → n = 2 ∨ n = -2))) ∧
        (held < 40 * s.get AGT_ING_ENCCFG.FILTER i → exec (.encoderEdge i { a := a, b := b, held := held }) s = .next s))) ∧
   (∀ (s : State) (src : Src) (val : Nat), s.clocked = true →
      (s.ingWrites src 0x600 = true → ∃ t, exec (.egocfgWrite src val) s = .next t ∧ t.get AGT_ING_EGOCFG.ENABLE 0 = bits val 0 1 ∧
        t.get AGT_ING_EGOCFG.RATE 0 = bits val 1 2 ∧ t.get AGT_ING_EGOCFG.ODO_EN 0 = bits val 3 1 ∧
        t.get AGT_ING_EGOCFG.ENC_L 0 = bits val 4 3 ∧ t.get AGT_ING_EGOCFG.ENC_R 0 = bits val 7 3 ∧
        (s.get AGT_ING_EGOCFG.ENABLE 0 ≠ 1 → bit val 0 = true → t.ego.fresh = true) ∧ s.sameBut [.regs, .ing] t) ∧
      (s.ingOn = true → s.get AGT_ING_EGOCFG.ENABLE 0 = 1 →
        ∃ t p, exec .egoTick s = .next t ∧ p = ratePeriod (s.get AGT_ING_EGOCFG.RATE 0) ∧ t.ego.tick = some (s.time.now / p * p) ∧
          (∀ e, e < 8 → s.get AGT_ING_ENCCFG.ENABLE e = 1 → at' t.ego.counts e = s.get AGT_ING_ENCCNT.COUNT e) ∧
          (∀ e, e < 8 → s.get AGT_ING_ENCCFG.ENABLE e ≠ 1 → at' t.ego.counts e = at' s.ego.counts e) ∧ s.sameBut [.ing] t) ∧
      (∀ tick, s.ingOn = true → s.ego.tick = some tick →
        let ms := (List.range 4).filter (s.member tick)
        let u := s.judge ms ((s.estimate ms).getD [])
        exec .egoEval s = .next (((((s.estimate ms).elim u (fun x => u.odoCheck x)).excludeImus ms).egoAdvance (s.estimate ms)).writePose tick
          ms.length (s.estimate ms).isSome)) ∧
      (s.ingOn = true → ∃ t, exec .apply s = .next t ∧ s.sameBut [.ing] t ∧
        t.ego.staged = some ((List.range 10).map (fun i => s.obj 0 0x4821 (i + 1)))))

/-! ## The reflex engine and time (chapters 13 and 14) -/

/-- Switching (R321), for a channel that no trip, lost set-point or DISARM of the same tick comes before (R324). V_M is the
difference of the voltages measured (R318). Where it comes to or below the lower threshold, an ARMED channel in phase OFF, where switching is
permitted, drops RFX_GL and asserts RFX_GH after DEADTIME; where it comes to or above the upper threshold, a channel in phase ON drops
RFX_GH, and RFX_GL follows after DEADTIME where COMPL = 1; any other crossing changes nothing but the level seen, and voltages that cross
no threshold change nothing. The end of a blocking interval decides on the level that stands; the end of the dead time makes the edge; two
ON edges set LAST_PERIOD to the ticks between them (R332). Trips and lost set-points (R319, R323, R324): both gate outputs fall, in every
state and even where no clock runs; an ARMED channel enters FAULT with the cause added; a trip that DISARM meets in its tick comes first. -/
def Obligations.ReflexOutputs : Prop :=
   (∀ (s : State) (c : Nat), s.clocked = true → s.rfxOn = true → c < 32 → s.pending = [] → s.spDue c = false →
      let x := s.rfxChan c
      let dead := s.bankGet AGT_RFX_CH_BANKA1.DEADTIME AGT_RFX_CH_BANKB1.DEADTIME c
      let phase := s.isSet AGT_RFX_CH_STAT.PHASE c
      (∀ p n : Int, s.domOn 42 = true → s.rfxState c = 1 → x.arming = false → x.dead = none → x.blank = none → x.minRun = none →
        let v := p - n
        let low : Prop := 4096 * (v + 900000000) ≤ 1800000000 * s.lowerAt c
        let high : Prop := 1800000000 * s.upperAt c ≤ 4096 * (v + 900000000)
        (phase = false → s.cmpLow c = false → low → dead = 0 → ∃ t, exec (.comparatorCrossing c false p n) s = .next t ∧
          (t.rfxChan c).gl = false ∧ (t.rfxChan c).gh = true ∧ (t.rfxChan c).dead = none ∧ t.get AGT_RFX_CH_STAT.PHASE c = 1 ∧
          t.get AGT_RFX_CH_CNT.ON_EDGES c = (s.get AGT_RFX_CH_CNT.ON_EDGES c + 1) % 2 ^ 32 ∧
          (∀ t0, x.lastOn = some t0 → t.get AGT_RFX_CH_CNT.LAST_PERIOD c = (s.time.ticks - t0) % 2 ^ 32)) ∧
        (phase = false → s.cmpLow c = false → low → dead ≠ 0 → ∃ t, exec (.comparatorCrossing c false p n) s = .next t ∧
          (t.rfxChan c).gl = false ∧ (t.rfxChan c).gh = x.gh ∧
          (t.rfxChan c).dead = some (true, s.get AGT_RFX_CH_STAT.THR_LO c, s.time.ticks + dead) ∧ s.sameBut [.rfx] t) ∧
        (phase = true → s.cmpHigh c = false → high → ∃ t, exec (.comparatorCrossing c true p n) s = .next t ∧
          (t.rfxChan c).gh = false ∧ t.get AGT_RFX_CH_STAT.PHASE c = 0) ∧
        (∀ upper, s.crosses c upper v = true → (phase = false → ¬low) → (phase = true → ¬high) →
          exec (.comparatorCrossing c upper p n) s = .next (s.setRfx c { x with vm := some v })) ∧
        ((high ↔ s.cmpHigh c = true) → exec (.comparatorCrossing c true p n) s = .next s) ∧
        ((low ↔ s.cmpLow c = true) → exec (.comparatorCrossing c false p n) s = .next s)) ∧
      (∀ e, x.blank = some e → e ≤ s.time.ticks →
        exec (.switchBlockEnd c true false) s = .next ((s.setRfx c { x with blank := none }).rfxDecide c)) ∧
      (∀ e, x.minRun = some e → e ≤ s.time.ticks →
        exec (.switchBlockEnd c false true) s = .next ((s.setRfx c { x with minRun := none }).rfxDecide c)) ∧
      (∀ e e', x.blank = some e → x.minRun = some e' → e ≤ s.time.ticks → e' ≤ s.time.ticks →
        exec (.switchBlockEnd c true true) s = .next ((s.setRfx c { x with blank := none, minRun := none }).rfxDecide c)) ∧
      (∀ thr e, e ≤ s.time.ticks →
        (x.dead = some (true, thr, e) → exec (.deadtimeEnd c true) s = .next ((s.rfxOnEdge c thr).rfxDecide c)) ∧
        (x.dead = some (false, thr, e) → exec (.deadtimeEnd c false) s = .next ((s.rfxOffEdge c).rfxDecide c)))) ∧
   (∀ (s : State) (c : Nat), s.rfxOn = true → c < 32 →
      (∀ p n, s.crowbarHit c (p - n) = true → ∃ t, exec (.crowbarTrip { chan := c, p := p, n := n }) s = .next t ∧ (t.rfxChan c).gh = false ∧ (t.rfxChan c).gl = false ∧
        (s.clocked = true → s.rfxState c = 1 → t.rfxState c = 2 ∧ bit (t.get AGT_RFX_CH_STAT.CAUSE c) 0 = true)) ∧
      (∀ p n, s.domOn 42 = true → s.crowbarHit c (p - n) = false → s.clocked = true →
        exec (.crowbarTrip { chan := c, p := p, n := n }) s = .next (s.set AGT_RFX_CH_STAT.CB_NOW c 0)) ∧
      (∀ level held, level = s.isSet AGT_RFX_CH_CFG.DESAT_POL c → s.isSet AGT_RFX_CH_CFG.DESAT_EN c = true →
        80 * s.get AGT_RFX_CH_CFG.DESAT_FILT c < held → ∃ t, exec (.desatTrip { chan := c, level := level, held := held }) s = .next t ∧ (t.rfxChan c).gh = false ∧
        (t.rfxChan c).gl = false ∧
        (s.clocked = true → s.rfxState c = 1 → t.rfxState c = 2 ∧ bit (t.get AGT_RFX_CH_STAT.CAUSE c) 1 = true)) ∧
      (∀ src p n, s.clocked = true → s.reaches src 4 4 0x8 = true → s.rfxState c = 1 → s.crowbarHit c (p - n) = true →
        s.pending = [.crowbarTrip { chan := c, p := p, n := n }] → exec (.disarm src (2 ^ c)) s = .next (((s.crowbar c (p - n)).rfxDisarm c).rfxAnswer .ok 0)) ∧
      (s.clocked = true → s.pending = [] → s.get AGT_RFX_CH_CFG.SRC c = 2 → s.rfxState c = 1 →
        (s.rfxChan c).lastEdge + 40000000 ≤ s.time.now →
        ∃ t, exec (.spLost c) s = .next t ∧ (t.rfxChan c).gh = false ∧ (t.rfxChan c).gl = false ∧ t.rfxState c = 2 ∧
          bit (t.get AGT_RFX_CH_STAT.CAUSE c) 3 = true) ∧
      (∀ high period dir, s.clocked = true →
        (s.get AGT_RFX_CH_CFG.SRC c = 2 → 400 ≤ period → period ≤ 4000000 → ∃ t, exec (.spEdge c high period dir) s = .next t ∧
          (t.rfxChan c).u = min 65535 (65536 * high / period) ∧ (t.rfxChan c).lastEdge = s.time.now ∧ s.sameBut [.rfx] t) ∧
        (s.get AGT_RFX_CH_CFG.SRC c = 3 → s.rfxState c = 1 → ∃ t, exec (.spEdge c high period dir) s = .next t ∧
          (t.rfxChan c).u = (if dir then min 65535 ((s.rfxChan c).u + s.get AGT_RFX_CH_CFG.STEP_INC c)
            else (s.rfxChan c).u - s.get AGT_RFX_CH_CFG.STEP_INC c) ∧ s.sameBut [.rfx] t)))

/-- Commands and banks (R325, R327), where no trip of the same tick comes before them and no re-lock of the root PLL disarms the channels
(R450): ARM and REARM arm every channel named or, where one fails a condition, none, and FAILMASK names those that failed; DISARM disarms
every channel named, whatever else happens in its tick (R324); SWAP requests a bank change, which the next sample boundary makes. -/
def Obligations.ReflexCommands : Prop :=
  ∀ (s : State) (src : Src) (mask : Nat), s.clocked = true → s.rfxOn = true → s.reaches src 4 4 0x8 = true →
    (s.pending = [] → s.isSet AGT_PWR_CLKSTAT.RELOCK 0 = false →
      ((∀ c, c < 32 → bit mask c = true → s.armable false c = true ∧ s.safeAllows c = true) →
        ∃ t, exec (.arm src mask) s = .next t ∧ (∀ c, c < 32 → t.rfxState c = if bit mask c then 1 else s.rfxState c) ∧
          t.get AGT_RFX_CMDSTAT.STATUS 0 = 0 ∧ t.get AGT_RFX_CMDSTAT.FAILMASK 0 = 0) ∧
      ((∀ c, c < 32 → bit mask c = true → s.armable true c = true ∧ s.safeAllows c = true) →
        ∃ t, exec (.rearm src mask) s = .next t ∧ (∀ c, c < 32 → t.rfxState c = if bit mask c then 1 else s.rfxState c) ∧
          t.get AGT_RFX_CMDSTAT.STATUS 0 = 0) ∧
      ((∀ c, c < 32 → bit mask c = true → s.spDue c = false) → ∀ c, c < 32 → bit mask c = true → s.armable false c = false →
        ∃ t, exec (.arm src mask) s = .next t ∧ t.get AGT_RFX_CMDSTAT.STATUS 0 = 0x10 ∧
          bit (t.get AGT_RFX_CMDSTAT.FAILMASK 0) c = true ∧ s.sameBut [.regs] t ∧ ∀ d, d < 32 → t.rfxState d = s.rfxState d)) ∧
    (∃ t, exec (.disarm src mask) s = .next t ∧ (∀ c, c < 32 → t.rfxState c = if bit mask c then 0 else s.rfxState c) ∧
      t.get AGT_RFX_CMDSTAT.STATUS 0 = 0) ∧
    (s.reaches src 4 4 0x18 = true → ∃ t, exec (.swap src mask) s = .next t ∧ s.sameBut [.regs] t ∧
      ∀ c, c < 32 → (t.isSet AGT_RFX_CH_STAT.SWAP_PEND c = true ↔ bit mask c = true ∨ s.isSet AGT_RFX_CH_STAT.SWAP_PEND c = true)) ∧
    (∀ sps vms desat, exec (.sampleBoundary sps vms desat) s =
      .next ((List.range 32).foldl (fun st c => st.rfxBoundary c (lget 0 sps c) (lget 0 vms c) (bit desat c)) s)) ∧
    (∀ c sp v desat, c < 32 → s.isSet AGT_RFX_CH_STAT.SWAP_PEND c = true →
      (s.rfxBoundary c sp v desat).get AGT_RFX_CH_STAT.BANK c = 1 - s.get AGT_RFX_CH_STAT.BANK c ∧
      (s.rfxBoundary c sp v desat).get AGT_RFX_CH_STAT.SWAP_PEND c = 0)

/-- The servo (R343, R345, R346): a sample in the cycle of a MODE write or an ACCEPT is discarded, and is put off while one is still to come
in it (the model's choice of a cycle, log entries 1 and 155); any other in mode 1 or 3 changes the state only as the table of R345 says,
whether it comes from PTP or from SWSAMPLE; LOCKED without samples for HOLD_TO becomes HOLDOVER; another master in LOCKED does so at once; an accepted jump steps OFFSET
and restarts. -/
def Obligations.ServoStates : Prop :=
  ∀ (s : State) (src : Src), s.clocked = true → s.time.waiting = [] →
    (∀ val, s.timeWrites src 0x58 = true → s.get AGT_TIME_CTRL.MODE 0 = 3 → s.servoBehind 4 = false →
      s.time.rebased ≠ some s.time.now → exec (.swsample src val) s = .next (s.sample (sx 32 val))) ∧
    (∀ t2 t1 corr, s.get AGT_TIME_CTRL.MODE 0 = 1 → s.agateReloads = false → s.servoBehind 4 = false →
      s.time.rebased ≠ some s.time.now →
      exec (.ptpSample (s.get AGT_TIME_CTRL.SRC_PORT 0) (s.get AGT_TIME_MASTER.CLOCK_ID 0) (s.get AGT_TIME_CTRL.DOMAIN 0) t2 t1 corr) s =
        .next (s.sample (sx 64 (ux 64 ((t2 : Int) - ((t1 : Int) + corr) - (s.get AGT_TIME_PATHDLY.DELAY 0 : Int)))))) ∧
    (∀ theta : Int, let st := s.get AGT_TIME_STATUS.STATE 0
      (s.jumpThr < theta.natAbs →
        (st = 1 → (s.sample theta).get AGT_TIME_STATUS.STATE 0 = 1 ∧ (s.sample theta).time.lockRun = 0 ∧
          (s.sample theta).get AGT_TIME_OFFSET.OFFSET 0 = ux 64 ((s.get AGT_TIME_OFFSET.OFFSET 0 : Int) - theta)) ∧
        (st = 2 ∨ st = 3 → (s.sample theta).get AGT_TIME_STATUS.STATE 0 = st ∧ (s.sample theta).time.heldJump = some theta ∧
          (s.sample theta).get AGT_TIME_STATUS.HELD 0 = 1 ∧
          (s.sample theta).get AGT_TIME_OFFSET.OFFSET 0 = s.get AGT_TIME_OFFSET.OFFSET 0)) ∧
      (theta.natAbs ≤ s.jumpThr →
        (st = 1 → (s.sample theta).time.lockRun = (if theta.natAbs ≤ s.lockThr then s.time.lockRun + 1 else 0) ∧
          (s.sample theta).get AGT_TIME_STATUS.STATE 0 =
            (if s.lockN ≤ (if theta.natAbs ≤ s.lockThr then s.time.lockRun + 1 else 0) then 2 else 1)) ∧
        (st = 2 ∨ st = 3 → (s.sample theta).get AGT_TIME_STATUS.STATE 0 = 2))) ∧
    (s.get AGT_TIME_STATUS.STATE 0 = 2 → s.time.lastSample + s.holdTo ≤ s.time.now →
      exec .holdoverTimeout s = .next (s.holdRate.set AGT_TIME_STATUS.STATE 0 3)) ∧
    (∀ val, s.timeWrites src 0x40 = true → s.servoBehind 2 = false → ∃ t, exec (.masterWrite src val) s = .next t ∧
      t.get AGT_TIME_MASTER.CLOCK_ID 0 = val % 2 ^ 64 ∧ t.time.lastAccepted = none ∧
      (val % 2 ^ 64 ≠ s.get AGT_TIME_MASTER.CLOCK_ID 0 → s.get AGT_TIME_STATUS.STATE 0 = 1 ∨ s.get AGT_TIME_STATUS.STATE 0 = 2 →
        t.get AGT_TIME_STATUS.STATE 0 = 3 ∧ t.get AGT_TIME_STATUS.MASTER_CHG 0 = 1)) ∧
    (∀ j, s.timeWrites src 0x38 = true → s.servoBehind 3 = false → s.time.heldJump = some j → s.get AGT_TIME_CTRL.MODE 0 % 2 = 1 →
      s.get AGT_TIME_STATUS.STATE 0 = 2 ∨ s.get AGT_TIME_STATUS.STATE 0 = 3 →
      ∃ t, exec (.accept src) s = .next t ∧ t.get AGT_TIME_OFFSET.OFFSET 0 = ux 64 ((s.get AGT_TIME_OFFSET.OFFSET 0 : Int) - j) ∧
        t.get AGT_TIME_STATUS.STATE 0 = 1 ∧ t.get AGT_TIME_STATUS.HELD 0 = 0 ∧ t.time.heldJump = none) ∧
    (∀ val, s.timeWrites src 0x58 = true →
      (s.servoBehind 4 = false → s.time.rebased = some s.time.now → exec (.swsample src val) s = .next s) ∧
      (s.servoBehind 4 = true →
        exec (.swsample src val) s = .next { s with time := { s.time with waiting := [.swsample src val] } }))

/-- Time registers (R340, R343, R348): a read of NOW answers package time and latches PTP time; MODE is stored with the servo restarted;
in modes 0 and 2 RATE is stored within its bound and ADJ adds to OFFSET, in modes 1 and 3 both are ignored with CFG_ERR; while PPS_EN = 1 one
pulse goes out at each whole second of PTP time. R351: a read of TXTSQ_p answers the oldest entry's TSID with VALID = 1, its GAP and the level before the read, removes it and latches
its time; with the queue empty it answers VALID = 0 and leaves TXTSV_p. R350: a frame that asks for a timestamp appends an entry at its
timestamp point where the queue has room, and is otherwise counted in LOST with GAP set on the next entry. -/
def Obligations.TimeRegistersAndTimestamps : Prop :=
   (∀ (s : State) (src : Src) (val : Nat), s.clocked = true →
      (s.reaches src 4 3 0x10 = true →
        exec (.nowRead src) s = .next ((s.set AGT_TIME_PTPL.TIME 0 s.ptp).emit (.value s.time.now))) ∧
      (s.timeWrites src 0 = true → s.time.waiting = [] → ∃ t, exec (.modeWrite src val) s = .next t ∧ t.get AGT_TIME_CTRL.MODE 0 = bits val 0 2 ∧
        t.get AGT_TIME_STATUS.STATE 0 = bits val 0 1 ∧ t.time.integral = 0 ∧ t.time.lastAccepted = none ∧
        t.time.rebased = some s.time.now ∧ t.time.nextRate = s.time.nextRate ∧
        (bits val 27 8 ≤ 127 → t.get AGT_TIME_CTRL.DOMAIN 0 = bits val 27 8) ∧ s.sameBut [.regs, .time] t) ∧
      (s.timeWrites src 0x28 = true → s.get AGT_TIME_CTRL.MODE 0 % 2 = 0 → ∃ t, exec (.rateWrite src val) s = .next t ∧
        t.get AGT_TIME_RATE.RATE 0 = ux 32 (max (-s.rateBound) (min s.rateBound (sx 32 val))) ∧ s.sameBut [.regs] t) ∧
      (s.timeWrites src 0x30 = true → s.get AGT_TIME_CTRL.MODE 0 % 2 = 0 → ∃ t, exec (.adjWrite src val) s = .next t ∧
        t.get AGT_TIME_OFFSET.OFFSET 0 = (s.get AGT_TIME_OFFSET.OFFSET 0 + val) % 2 ^ 64 ∧ s.sameBut [.regs] t) ∧
      (s.timeWrites src 0x28 = true → s.timeWrites src 0x30 = true → s.get AGT_TIME_CTRL.MODE 0 % 2 = 1 →
        exec (.rateWrite src val) s = .next (s.set AGT_TIME_STATUS.CFG_ERR 0 1) ∧
        exec (.adjWrite src val) s = .next (s.set AGT_TIME_STATUS.CFG_ERR 0 1)) ∧
      (s.isSet AGT_TIME_CTRL.PPS_EN 0 = true →
        let second := s.ptp / 4000000000
        (s.ptp % 4000000000 ≤ (if s.timeClock then 1 else 4) * s.incr / 2 ^ 32 → s.time.lastPps ≠ some second →
          exec .ppsPulse s = .next (({ s with time := { s.time with lastPps := some second } } : State).emit (.pps (4000000000 * second)))) ∧
        (s.time.lastPps = some second → exec .ppsPulse s = .next s))) ∧
   (∀ (s : State) (src : Src) (p : Nat), s.clocked = true → p < 2 →
      (s.reaches src 4 3 (0x100 + 32 * p) = true →
        (s.txQueue p = [] → exec (.txtsqRead src p) s = .next (s.emit (.value 0))) ∧
        (∀ e l, s.txQueue p = e :: l → ∃ t, exec (.txtsqRead src p) s = .next t ∧ t.txQueue p = l ∧ t.get AGT_TIME_TXTSV.TIME p = e.time % 2 ^ 64 ∧
          t.out = s.out ++ [.value (e.tsid + 2 ^ 16 + b2n e.gap * 2 ^ 17 + (l.length + 1) * 2 ^ 18)] ∧ s.sameBut [.regs, .time, .out] t)) ∧
      (∀ id, ((s.txQueue p).length < 16 → ∃ e, (s.stampTx p id).txQueue p = s.txQueue p ++ [e] ∧ e.tsid = id % 2 ^ 16 ∧ e.gap = s.txGap p ∧
          e.time = ux 64 ((s.ptp : Int) + sx 32 (s.obj 0 (0x2810 + p) 1))) ∧
        (16 ≤ (s.txQueue p).length → (s.stampTx p id).txQueue p = s.txQueue p ∧ (s.stampTx p id).txGap p = true ∧
          (s.stampTx p id).get AGT_TIME_TXTSCNT.LOST p = min (s.get AGT_TIME_TXTSCNT.LOST p + 1) (2 ^ AGT_TIME_TXTSCNT.LOST.width - 1))) ∧
      (s.netOn p = true → s.get AGT_NET_TXHEAD.HEAD p ≠ s.get AGT_NET_TXDB.TAIL p →
        let head := s.get AGT_NET_TXHEAD.HEAD p
        let q := s.agateRead (glob (s.get AGT_NET_TXRING.NODE p) (4096 * s.get AGT_NET_TXRING.BASE p + 32 * head)) 32
        let d := leVal q.2
        let w := if bit d 78 then (q.1, q.1.hostRead (bits d 0 64) (bits d 64 14)) else q.1.agateRead (bits d 0 52) (bits d 64 14)
        exec (.txTimestampPoint p) s =
          .next (((((if bit d 79 then w.1.stampTx p (bits d 80 16) else w.1).emit (.eth p w.2)).set AGT_NET_TXHEAD.HEAD p
            ((head + 1) % (s.get AGT_NET_TXRING.DEPTH_M1 p + 1))).netIrq p))))

/-! ## Clocks, power and temperature (chapter 19) -/

/-- The root PLL (R448 to R451): a loss of lock starts a re-lock, counts it and disarms the reflex channels; the lock and the restart of
the dividers end it with every LOOP_CAP at IDLE_CAP and the pending ratios in force; an attempt without lock is followed by the next,
and after the third ROOT_FAIL is set and RELOCK stays. Issue caps (R452 to R454): LOOP_CAP rises by at most 8 a step toward the value that the loop allows, and pending ratios take effect
once the rail reads back; an idle M core without a hint falls to IDLE_CAP; a hint with a hold time ends that until it expires. -/
def Obligations.RootPllAndIssueCaps : Prop :=
   (∀ s : State, s.clocked = true →
      (s.relock = false → s.isSet AGT_PWR_CLKSTAT.ROOT_LOCK 0 = true →
        ∃ u : State, exec .lossOfLock s = .next u.rfxDisarmAll ∧ u.isSet AGT_PWR_CLKSTAT.ROOT_LOCK 0 = false ∧ u.relock = true ∧
          u.isSet AGT_TIME_STATUS.RELOCK 0 = true ∧ u.pwr.tries = 1 ∧ u.pwr.locked = false ∧
          u.get AGT_PWR_CLKSTAT.RELOCK_CNT 0 = min (s.get AGT_PWR_CLKSTAT.RELOCK_CNT 0 + 1) 0xFFFF) ∧
      (s.relock = true → s.pwr.locked = false → s.isSet AGT_PWR_CLKSTAT.ROOT_FAIL 0 = false →
        (∃ t, exec .pllLock s = .next t ∧ t.isSet AGT_PWR_CLKSTAT.ROOT_LOCK 0 = true ∧ t.pwr.locked = true ∧ s.sameBut [.regs, .pwr] t) ∧
        (s.pwr.tries < 3 → ∃ t, exec .relockTimeout s = .next t ∧ t.pwr.tries = s.pwr.tries + 1 ∧ s.sameBut [.pwr] t) ∧
        (3 ≤ s.pwr.tries → ∃ t, exec .relockTimeout s = .next t ∧ t.isSet AGT_PWR_CLKSTAT.ROOT_FAIL 0 = true ∧ t.relock = true ∧
          s.sameBut [.regs] t)) ∧
      (s.relock = true → s.pwr.locked = true → ∃ t, exec .dividerRestart s = .next t ∧ t.relock = false ∧
        t.isSet AGT_TIME_STATUS.RELOCK 0 = false ∧ (∀ n, n < 4 → t.loopCap n = s.idleCap % 2 ^ 7 ∧ (t.diePwr n).kGoal = []) ∧
        s.sameBut [.regs, .pwr] t)) ∧
   (∀ (s : State) (n : Nat), s.clocked = true → n < 4 →
      (s.relock = false → ∃ t, exec (.avsStepComplete n) s = .next t ∧ (t.diePwr n).kGoal = [] ∧
        t.loopCap n = (if s.loopCap n < s.capGoal n then min (s.capGoal n) (s.loopCap n + 8) % 2 ^ 7 else s.loopCap n) ∧
        s.sameBut [.regs, .pwr] t) ∧
      (s.matrixBusy n = false → s.getO ONX_UNC_HINT.HEAVY n 0 ≠ 1 → ∃ t, exec (.matrixIdleTimeout n) s = .next t ∧
        (t.diePwr n).idle = true ∧ t.loopCap n = min (s.loopCap n) s.idleCap % 2 ^ 7 ∧ s.sameBut [.regs, .pwr] t) ∧
      (∀ src val, s.domOn (8 * n) = true → s.reaches src n 0 0x180 = true → (bit val 0 = true → bits val 8 8 ≠ 0) →
        ∃ t, exec (.hintWrite src n val) s = .next t ∧ t.getO ONX_UNC_HINT.HEAVY n 0 = bits val 0 1 ∧
          t.getO ONX_UNC_HINT.HOLD n 0 = bits val 8 8 ∧ (bit val 0 = true → (t.diePwr n).idle = false) ∧ s.sameBut [.regs, .pwr] t) ∧
      (∃ t, exec (.hintExpire n) s = .next t ∧ t.getO ONX_UNC_HINT.HEAVY n 0 = 0 ∧ s.sameBut [.regs] t))

/-- The power loop and the thermal control (R455 to R460): a sample of the twelve rails shows on RAIL and CAPSTAT and the loop runs on it;
an overcurrent warning takes that die's cap to 1 at once and sets ALERT; valid diode readings show on TEMP, each die is judged by
its own diodes, and the dies that reach TRIP are taken together; each die in THROTTLE takes one more step a millisecond. -/
def Obligations.PowerAndThermal : Prop :=
  ∀ s : State, s.clocked = true →
    (∀ rails : List Reading, rails.length = 12 → ∃ u : State,
      exec (.powerSample rails) s = .next ((u.noteUnderVolt (maskOf ((rails.zipIdx.filter (fun e => e.1.2.2.2.2)).map (·.2)))).powerLoop
        (rails.map readPower).sum (rails.map readPower)) ∧
      u.get AGT_PWR_CAPSTAT.PKG 0 = (rails.map readPower).sum % 2 ^ 16 ∧
      (∀ r e, rails[r]? = some e → u.get AGT_PWR_RAIL.VOUT r = e.1 % 2 ^ 16 ∧ u.get AGT_PWR_RAIL.IOUT r = e.2.1 % 2 ^ 16 ∧
        u.get AGT_PWR_RAIL.POUT r = readPower e % 2 ^ 16)) ∧
    (∀ status warn uv, bits warn 0 4 ≠ 0 → ∃ t, exec (.pmbAlert status warn uv) s = .next t ∧
      t.get AGT_PWR_CAPSTAT.ALERT 0 = 1 ∧ (∀ n, n < 4 → bit warn n = true → (t.diePwr n).cap = 1 ∧ t.loopCap n = min (s.loopCap n) 1)) ∧
    (∀ (readings : List (Option Int)) got, s.domOn 42 = true → readings.length = 40 → ∃ u : State,
      exec (.thermalEval readings got) s =
        .next (((List.range 7).foldl State.showThermal u).tripAll
          ((List.range 7).filter (fun d => u.nextThermal d == 3 && u.thermal d != 3)) got) ∧
      (∀ (i : Nat) (v : Int), readings[i]? = some (some v) → u.get BRL_TEMP.TEMP i = ux 12 v % 2 ^ 12 ∧ u.get BRL_TEMP.VALID i = 1 ∧
        tget 0 u.pwr.diodeSeen i = s.time.now) ∧
      (∀ i : Nat, readings[i]? = some none → u.get BRL_TEMP.VALID i = 0)) ∧
    (exec .throttleStep s = .next (((List.range 4).filter (fun n => s.thermal n == 2)).foldl (fun st n => st.throttle n) s)) ∧
    (∀ n, 1 < min (s.diePwr n).cap (s.loopCap n) → s.throttle n = s.setCap n (max 1 (min (s.diePwr n).cap (s.loopCap n) - 8)))

/-! ## Supplies, bring-up, resets and shutdown (chapters 1 and 20) -/

/-- R24: domain 32 cannot be switched off by any command; it is off only when VDD_AON is absent. Kept by every step, with the fact that
no request in progress names it. -/
def Obligations.AlwaysOnDomainStaysOn : Prop :=
  ∀ s t : State, step s = .next t → (s.pkg.vddAon = true → s.domPowered 32 = true ∧ 32 ∉ s.pkg.switchPlan) →
    (t.pkg.vddAon = true → t.domPowered 32 = true ∧ 32 ∉ t.pkg.switchPlan)

/-- Supplies and pins (R24, R444, R467, R482, R499, R501): VDD_AON starts domain 32 alone, with package time at 0 and every register at
its reset value, RESET_N_LOW by its ball; its loss leaves only what lies in fuses and flash and outside; BU_RESET_N held low is a package reset that keeps package
time, RATE within its bound and retention; with TEST_MODE high a cycle leaves the device in package reset (R498, log entry 119); REFCLK and VDD_IO18 come and go. -/
def Obligations.SuppliesAndPins : Prop :=
  ∀ s : State,
    (s.pkg.vddAon = false → ∃ t, exec .vddAonApply s = .next t ∧ t.pkg.vddAon = true ∧ t.pkg.refclk = true ∧
      (∀ d, t.domPowered d = (d == 32)) ∧ t.time.now = 0 ∧ t.get AGT_BU_STAT.RESET_N_LOW 0 = b2n s.pkg.resetNLow ∧
      (s.pkg.resetNLow = false → ∀ f n i, t.getO f n i = f.reset i) ∧ t.mem = [] ∧
      t.fuses = s.fuses ∧ t.dic.copy0 = s.dic.copy0 ∧ t.dic.copy1 = s.dic.copy1 ∧ t.sec.retentionLost = true) ∧
    (∃ t, exec .vddAonLoss s = .next t ∧ (∀ d, t.domPowered d = false) ∧ t.pkg.vddAon = false ∧ t.fuses = s.fuses ∧ t.mem = []) ∧
    (s.pkg.vddAon = true → s.pkg.resetNLow = false → ∃ t, exec .buResetNAssert s = .next t ∧ t.pkg.resetNLow = true ∧
      t.get AGT_BU_STAT.RESET_N_LOW 0 = 1 ∧ (∀ d, t.domPowered d = (d == 32)) ∧ t.time.now = s.time.now ∧ t.time.frac = s.time.frac ∧
      t.get AGT_TIME_RATE.RATE 0 = ux 32 (max (-109951162) (min 109951162 (sx 32 (s.get AGT_TIME_RATE.RATE 0)))) ∧
      t.dic.copy0 = s.dic.copy0 ∧ t.fuses = s.fuses ∧
      t.sec.clears = s.sec.clears ∧ t.sched = {} ∧ t.mem = [] ∧ t.sec.sessions = []) ∧
    (s.pkg.vddAon = true → s.pkg.resetNLow = true → ∃ t, exec .buResetNDeassert s = .next t ∧ t.pkg.resetNLow = false ∧
      t.get AGT_BU_STAT.RESET_N_LOW 0 = 0 ∧ s.sameBut [.regs, .pkg] t) ∧
    (s.pkg.vddAon = true → s.pkg.testMode = true → s.pending = [] → ∃ t, step s = .next t ∧ (∀ d, t.domPowered d = (d == 32)) ∧
      t.sched = {} ∧ t.mem = [] ∧ t.bu.run = none ∧ t.sec.sessions = [] ∧ t.rfx = {} ∧ t.fuses = s.fuses ∧ t.dic.copy0 = s.dic.copy0 ∧
      t.pkg.testMode = true) ∧
    (∃ t, exec .refclkLoss s = .next t ∧ t.pkg.refclk = false ∧ t.clocked = false ∧ s.sameBut [.pkg] t) ∧
    (∃ t, exec .vddIo18Loss s = .next t ∧ t.ballSafeA = .highZ ∧ t.ballSafeB = .highZ ∧ s.sameBut [.pkg] t) ∧
    (∃ t, exec .vddIo18Apply s = .next t ∧ t.pkg.vddIo18 = true ∧ s.sameBut [.pkg] t)

/-- Bring-up steps (R469 to R473, R477). A command written while none runs is taken; a step that may run (R471) with a legal ARG and its
precondition met has its effect, shows BUSY and settles with its status and result; while a command runs, or the device is held in package
reset, a write is ignored with CFG_ERR; a step out of order, with an illegal ARG or without its precondition completes with
BAD_DESCRIPTOR and does nothing. -/
def Obligations.BringUpStepsSettle : Prop :=
  ∀ (s : State) (r : TestResult) (arg bad trained half info pass : Nat) (agateOk : Bool), s.buReached = true →
    let settled (c : Instr) (k : Nat) (st : Status) (res : Nat) (p : State → Prop) : Prop :=
      ∃ t j, exec c s = .next t ∧ t.bu.run = some j ∧ j.origin = 0 ∧ j.op = k ∧ j.done = some (st, res) ∧
        t.isSet AGT_BU_STAT.BUSY 0 = true ∧ p t
    let nodes := maskList 6 (bits arg 0 6)
    let testable : Prop := ∀ n ∈ nodes, (n < 4 → ∀ i, i < 8 → s.domPowered (8 * n + i) = true) ∧ (n = 4 → s.domPowered 39 = true) ∧
      (n = 5 → s.domPowered 40 = true ∧ s.domPowered 41 = true)
    let scarabUp : Prop := s.domPowered 40 = true ∧ s.domPowered 41 = true
    let steps : List (Instr × Nat × Prop) :=
      [(.domains arg, 1, arg < 2 ^ 45), (.rootPll arg agateOk, 2, arg = 0), (.fuseLoad arg agateOk bad, 3, arg = 0),
       (.startTest arg r, 4, arg < 2 ^ 7 ∧ testable), (.fmax arg r, 5, arg = 0),
       (.discover arg trained half info, 6, arg = 0 ∧ s.domPowered 37 = true ∧ scarabUp),
       (.fwLoad arg bad, 7, arg = 0 ∧ s.domPowered 38 = true ∧ scarabUp), (.cfgLoad arg bad, 8, arg = 0),
       (.inject arg pass, 9, arg = 0 ∧ s.guardedOn = false), (.outputEnable arg, 10, arg = 0 ∧ s.enableOk = true)]
    (∀ e ∈ steps, (s.pkg.held = true ∨ s.isSet AGT_BU_STAT.BUSY 0 = true → exec e.1 s = .next (s.set AGT_BU_STAT.CFG_ERR 0 1)) ∧
      (s.pkg.held = false → s.isSet AGT_BU_STAT.BUSY 0 = false → s.stepMay e.2.1 = false ∨ ¬e.2.2 →
        settled e.1 e.2.1 .badDescriptor 0 (fun t => s.sameBut [.regs, .bu] t))) ∧
    (s.pkg.held = false → s.isSet AGT_BU_STAT.BUSY 0 = false →
      (s.stepMay 1 = true → arg < 2 ^ 45 →
        (s.switchPlanFor (bits arg 0 44) (bit arg 44) = some [] → settled (.domains arg) 1 .ok 0 (fun t => t.pkg = s.pkg)) ∧
        (∀ d l, s.switchPlanFor (bits arg 0 44) (bit arg 44) = some (d :: l) → ∃ t, exec (.domains arg) s = .next t ∧
          t.pkg.switchPlan = d :: l ∧ t.pkg.switchOn = bit arg 44 ∧
          tget .off t.pkg.dom d = (if bit arg 44 then .switchingOn else .switchingOff) ∧ t.isSet AGT_BU_STAT.BUSY 0 = true) ∧
        (s.switchPlanFor (bits arg 0 44) (bit arg 44) = none → settled (.domains arg) 1 .badDescriptor 0 (fun t => t.pkg = s.pkg))) ∧
      (s.stepMay 2 = true → settled (.rootPll 0 true) 2 .ok 0 (fun t => t.isSet AGT_PWR_CLKSTAT.ROOT_LOCK 0 = true) ∧
        settled (.rootPll 0 false) 2 .lowerTierTimeout 0 (fun t => t.isSet AGT_PWR_CLKSTAT.ROOT_FAIL 0 = true)) ∧
      (s.stepMay 3 = true → settled (.fuseLoad 0 agateOk bad) 3 (if agateOk then .ok else .tileUncorrectable)
        (maskOf ((List.range 4).filter (fun n => s.domPowered (8 * n) && bit bad n)))
        (fun t => ∀ n c, n < 4 → c < 4 → s.domPowered (8 * n) = true → bit bad n = false →
          t.k n c = s.kFused n c % 2 ^ 5 ∧ t.kMax n c = s.kFused n c % 2 ^ 5)) ∧
      (s.stepMay 4 = true → arg < 2 ^ 7 → testable →
        let passes (n : Nat) : Prop := bit r.bad n = false ∧ (n < 4 → bit s.bu.failed n = false) ∧
          ∀ e ∈ s.defects.1.entries ++ r.found, entryNode e = n → entryKind e ≠ 2
        let here := r.found.filter (fun e => nodes.contains (entryNode e))
        let good : Prop := (here = [] ∨ (r.stored = true ∧ (s.defects.1.entries ++ here).length ≤ 4096)) ∧ (4 ∈ nodes → passes 4)
        let shown (m : Nat) (t : State) : Prop := t.get AGT_BU_RETPASS.SEALED 0 = 0 ∧ ∀ n ∈ nodes, (bit m n = true ↔ passes n) ∧
          (bit t.bu.passed n = true ↔ passes n) ∧ (t.obj 0 0x5C10 (n + 1) = 3 ↔ ¬passes n)
        ∃ m, (good → settled (.startTest arg r) 4 .ok m (shown m)) ∧ (¬good → settled (.startTest arg r) 4 .tileUncorrectable m (shown m))) ∧
      (s.stepMay 5 = true → ∃ m, settled (.fmax 0 r) 5 .ok m (fun t => s.fuses.kept t.fuses ∧ ∀ n, n < 6 → (bit t.bu.passed n = true ↔
        bit s.bu.passed n = true ∧ (n < 4 → ∀ c, c < 4 → lget 0 r.speeds (4 * n + c) ≠ 0)))) ∧
      (s.stepMay 6 = true → s.domPowered 37 = true → scarabUp →
        let found := bit trained 8 = true ∧ bit info 5 = true ∧ bit s.bu.passed 5 = true
        (found → ∃ m, settled (.discover 0 trained half info) 6 .ok m (fun t => t.get AGT_FAB_STATUS.EPOCH 0 = 1 ∧ ∀ n, n < 4 →
          (t.admitted n = true ↔ s.domPowered (8 * n) = true ∧ bit trained (4 + n) = true ∧ bit info n = true ∧ bit s.bu.passed n = true))) ∧
        (¬found → settled (.discover 0 trained half info) 6 .nodeLost 0 (fun t => s.sameBut [.regs, .bu] t))) ∧
      (s.stepMay 7 = true → s.domPowered 38 = true → scarabUp →
        let loads (i : Nat) : Bool := ((s.component i).load i bad).2.isSome
        ∃ m, settled (.fwLoad 0 bad) 7 (if loads 1 && loads 2 && loads 3 && loads 4 then .ok else .badLayout) m
          (fun t => ∀ i, 1 ≤ i → i ≤ 4 → (t.component i).loaded = loads i)) ∧
      (s.stepMay 9 = true → s.guardedOn = false → settled (.inject 0 pass) 9 .ok (pass % 64)
        (fun t => t.get AGT_CMP_INJ.PASS 0 = pass % 64 ∧ t.get AGT_CMP_INJ.DONE 0 = 1)) ∧
      (s.stepMay 10 = true → s.enableOk = true → settled (.outputEnable 0) 10 .ok 0 (fun t => t.guardedOn = true)))

/-- Completion (R27, R468 to R470, R487): the domain that switches is on or off and the next begins, or the request settles; what has
settled completes with its status, a command with its result and an in-band interrupt, a step that is OK as done, a request in its object;
step 10 waits for the first frame; then the oldest request that waits starts; a request of objects 0x5C00 and 0x5C02 starts, waits or, behind
four, is turned away, as is a reset request of LEVEL 3, and the request of another role is DENIED. -/
def Obligations.CommandsOfBringUpComplete : Prop :=
  ∀ s : State, s.clocked = true →
    (∀ d rest, s.pkg.switchPlan = d :: rest → ∃ t, exec .domainSwitchDone s = .next t ∧ t.pkg.switchPlan = rest ∧
      (d ∉ rest → tget .off t.pkg.dom d = if s.pkg.switchOn then .on else .off)) ∧
    (∀ j st res, s.bu.run = some j → j.done = some (st, res) →
      (j.op ≠ 10 ∨ s.cmp.running = true ∨ (st, res) ≠ (.ok, 0) → ∃ t, exec .buStepComplete s = .next t ∧ t.bu.run = none ∧
        t.isSet AGT_BU_STAT.BUSY 0 = !s.bu.queue.isEmpty ∧
        (j.origin = 1 → t.obj 0 0x5C00 2 = st.code ∧ t.out = s.out) ∧ (j.origin = 2 → t.obj 0 0x5C02 2 = st.code ∧ t.out = s.out) ∧
        (j.origin ≠ 1 → j.origin ≠ 2 → t.get AGT_BU_STAT.STATUS 0 = st.code ∧ t.get AGT_BU_STAT.LAST_OP 0 = j.op % 2 ^ AGT_BU_STAT.LAST_OP.width ∧
          t.get AGT_BU_RESULT.VALUE 0 = res % 2 ^ AGT_BU_RESULT.VALUE.width ∧ t.out = s.out ++ [.ibi] ∧
          (st = .ok → 1 ≤ j.op → j.op ≤ 10 → t.stepDone j.op = true))) ∧
      (j.op = 10 → s.cmp.running = false → (st, res) = (.ok, 0) → exec .buStepComplete s = .next s)) ∧
    (∀ o v rest got, s.bu.run = none → s.bu.queue = (o, v) :: rest →
      exec (.buQueuedRequestStart got) s = .next (({ s with bu := { s.bu with queue := rest } } : State).startRequest o v got)) ∧
    (∀ src val, src = .sideband ∨ src = .pf1 →
      (s.isSet AGT_BU_STAT.BUSY 0 = true → s.bu.queue.length < 4 →
        (∃ t, exec (.domainRequest src val) s = .next t ∧ t.bu.queue = s.bu.queue ++ [(1, val % 2 ^ 16)] ∧ s.sameBut [.bu] t) ∧
        (val % 4 ≠ 3 → ∃ t, exec (.resetRequest src val) s = .next t ∧ t.bu.queue = s.bu.queue ++ [(2, val % 2 ^ 32)] ∧ s.sameBut [.bu] t)) ∧
      (s.isSet AGT_BU_STAT.BUSY 0 = true → 4 ≤ s.bu.queue.length →
        exec (.domainRequest src val) s = .next s ∧ exec (.resetRequest src val) s = .next s) ∧
      (s.isSet AGT_BU_STAT.BUSY 0 = false →
        exec (.domainRequest src val) s = .next (s.startRequest 1 (val % 2 ^ 16) []) ∧
        (val % 4 ≠ 3 → exec (.resetRequest src val) s = .next (s.startRequest 2 (val % 2 ^ 32) []))) ∧
      (val % 4 = 3 → exec (.resetRequest src val) s = .next s)) ∧
    (∀ src val, src ≠ .sideband → src ≠ .pf1 →
      exec (.domainRequest src val) s = .next (s.denyWrite src) ∧ exec (.resetRequest src val) s = .next (s.denyWrite src))

/-- Resets (R479 to R482): a core, die or partition reset begins, draining or at once; at the bound of its drain what remains is
absorbed; a package reset keeps what R482 names and no more. The end of a reset (R480, R481): a core whose work is done loses what it
holds, after the step of its sequence unit in progress; a die is fenced, cycled and tested, and the requests that its reset covers complete
with it; a partition is over once no context of it is enabled; a core of a die that is lost gives NODE_LOST. -/
def Obligations.ResetsRunAndEnd : Prop :=
   (∀ s : State, s.buReached = true → s.pkg.held = false → s.isSet AGT_BU_STAT.BUSY 0 = false → s.bu.shut = none →
      (∀ n c, n < 4 → c < 4 → s.admitted n = true → s.domOn (8 * n + 4 + c) = true →
        ∃ t, exec (.coreReset (2 ^ 2 + n * 2 ^ 4 + c * 2 ^ 8) []) s = .next t ∧
          t.bu.reset = some { level := 0, node := n, core := c, draining := true, start := s.time.now } ∧ s.sameBut [.regs, .bu] t) ∧
      (∀ n got, n < 4 → s.domPowered 37 = true → s.admitted n = true →
        (∃ t, exec (.dieReset (n * 2 ^ 4) got) s = .next t ∧
          t.bu.reset = some { level := 1, node := n, draining := true, start := s.time.now } ∧ s.sameBut [.regs, .bu] t)) ∧
      (∀ q, q < 16 → ∃ t, exec (.partitionReset (2 ^ 2 + q * 2 ^ 12)) s = .next t ∧
        t.bu.reset = some { level := 2, part := q, draining := true, start := s.time.now } ∧
        ∀ k, k < 512 → s.ctxPart k = q → s.ctxState k = 1 → t.ctxState k = 2) ∧
      (∃ t, exec (.packageReset 0) s = .next t ∧ (∀ d, t.domPowered d = (d == 32)) ∧ t.time.now = s.time.now ∧ t.fuses = s.fuses ∧
        t.dic.copy0 = s.dic.copy0 ∧ t.dic.copy1 = s.dic.copy1 ∧ t.sched = {} ∧ t.mem = [] ∧ t.bu.run = none ∧
        t.get AGT_BU_RETPASS.PASS 0 = s.get AGT_BU_RETPASS.PASS 0 % 2 ^ AGT_BU_RETPASS.PASS.width)) ∧
   (∀ (s : State) (j : ResetJob), s.clocked = true → s.bu.reset = some j →
      (∀ got, j.draining = true → j.start + s.drainBound j.level ≤ s.time.now → ∃ u : State, s.sameBut [.bu] u ∧
        u.bu.reset = some { j with draining := false } ∧
        exec (.resetDrainTimeout got) s = .next (if j.level = 0 then (if s.admitted j.node then u.absorbCore j.node j.core got else u)
          else if j.level = 1 then (if s.admitted j.node then u.fence j.node 0 got else u) else u.endPart j.part)) ∧
      (∀ r, j.level = 0 → s.admitted j.node = true → j.draining = false ∨ s.coreBusy j.node j.core = false →
        ∃ t, exec (.resetComplete r) s = .next t ∧ t.bu.reset = none ∧
          (let u := s.preemptNamed j.node j.core
           t = ((if j.core = 1 then u.drainStep j.node else u).loseCore j.node j.core).resetEnds .ok 0)) ∧
      (∀ r, j.level = 0 → s.admitted j.node = false → exec (.resetComplete r) s = .next (s.resetEnds .nodeLost 0)) ∧
      (∀ r, j.level = 1 → j.draining = false ∨ s.admitted j.node = false ∨ s.dieBusy j.node = false →
        let q := (if s.admitted j.node then s.fence j.node 0 [] else s).cycleDie j.node r
        exec (.resetComplete r) s = .next ((q.1.coverQueued j.node).resetEnds .ok q.2)) ∧
      (∀ r, j.level = 2 → j.draining = false → s.partContexts j.part = [] → exec (.resetComplete r) s = .next (s.resetEnds .ok 0)) ∧
      (∀ st res, (s.resetEnds st res).bu.reset = none))

/-- Shutdown (R483 to R486): it latches the safe state, disarms the reflex channels, halts the contexts and waits; then the regions named
are tested in their order; after the last the record is sealed in retention; then every domain but 32 goes off. An abort before the seal
returns to RUNNING with PREEMPTED once no region is under test. -/
def Obligations.ShutdownRuns : Prop :=
  ∀ s : State,
    (∀ arg, s.buReached = true → s.pkg.held = false → s.isSet AGT_BU_STAT.BUSY 0 = false → arg < 2 ^ 45 →
      (∀ d, d < 44 → bit arg d = true → s.regionOk d = true) → ∃ t j, exec (.shutdown arg) s = .next t ∧ t.bu.shut = some j ∧
        j.plan = maskList 44 (bits arg 0 44) ∧ j.pwroff = bit arg 44 ∧ j.testing = [] ∧ t.get AGT_BU_SHUT.PHASE 0 = 1 ∧
        t.get AGT_BU_SHUT.ABORTED 0 = 0) ∧
    (∀ j, s.bu.shut = some j → s.clocked = true →
      (s.get AGT_BU_SHUT.PHASE 0 = 1 → s.enginesIdle = true → ∃ u : State, exec .quiesceEnd s = .next (u.bistNext { j with
          plan := j.plan.filter (fun d => !(decide (d < 32) && decide (4 ≤ d % 8) && s.coreRuns (d / 8) (d % 8 - 4))) }) ∧
        u.get AGT_BU_SHUT.PHASE 0 = 2 ∧ s.sameBut [.regs] u) ∧
      (∀ d pass, d ∈ j.testing → j.aborted = false → ∃ u : State, s.sameBut [.fabric] u ∧
        exec (.regionBistComplete d pass) s = .next (u.bistNext { j with
          testing := j.testing.filter (fun e => e != d), run := setBit j.run d true, pass := setBit j.pass d pass })) ∧
      (s.get AGT_BU_SHUT.PHASE 0 = 3 → ∃ t, exec .shutdownOff s = .next t ∧ t.bu.shut = none ∧
        (∀ d, d ≠ 32 → d < 44 → t.domPowered d = false) ∧ t.get AGT_BU_SHUT.PHASE 0 = 4 ∧ ∀ n, t.admitted n = false)) ∧
    (∀ j, s.buReached = true → s.pkg.held = false → s.bu.shut = some j → s.get AGT_BU_SHUT.PHASE 0 = 1 ∨ s.get AGT_BU_SHUT.PHASE 0 = 2 →
      (j.testing ≠ [] → exec .shutdownAbort s = .next { s with bu := { s.bu with shut := some { j with plan := [], aborted := true } } }) ∧
      (j.testing = [] → ∃ t, exec .shutdownAbort s = .next t ∧ t.bu.shut = none ∧ t.get AGT_BU_SHUT.PHASE 0 = 0 ∧
        t.get AGT_BU_SHUT.ABORTED 0 = 1)) ∧
    (∀ j : ShutJob, j.next = [] → j.testing = [] → (s.bistNext j).get AGT_BU_RETPASS.SEALED 0 = 1 ∧
      (s.bistNext j).get AGT_BU_RETPASS.PASS 0 = j.pass % 2 ^ AGT_BU_RETPASS.PASS.width ∧ (s.bistNext j).get AGT_BU_SHUT.PHASE 0 = 3)

/-! ## The object dictionary (chapter 15) and register access -/

/-- Requests (R357 to R360, R436). A read that the first rows of R359 admit is served at once, with the size of the object; a write that they
admit waits for the end of its slot; a refused one answers its status and abort code, the size standing, but a DENIED is counted, and answered later; a request of a port that is
BUSY is ignored with CFG_ERR; the field buses are answered busy while the firmware of Agate is reloaded. -/
def Obligations.DictionaryRequests : Prop :=
  ∀ (s : State) (idx sub : Nat), s.clocked = true →
    let staged (rank : Nat) (src : Src) (b : List Byte) : List SlotWrite :=
      s.dic.slot ++ [{ rank := rank, src := src, obj := 256 * idx + sub, bytes := b }]
    (∀ p, s.dictPort p = true →
      (∀ ofs, s.isSet AGT_UNC_DICT_RSP.BUSY p = true →
        exec (.dictRead p idx sub ofs) s = .next (s.set AGT_UNC_DICT_RSP.CFG_ERR p 1) ∧
        exec (.dictWrite p idx sub ofs) s = .next (s.set AGT_UNC_DICT_RSP.CFG_ERR p 1)) ∧
      (s.isSet AGT_UNC_DICT_RSP.BUSY p = false →
        (s.dictCheck (roleMask (2 + p) false) none true idx sub = none → ∀ ofs, ofs % 8 = 0 →
          ofs = 0 ∨ ofs < (s.objBytes false idx sub).length → ∃ t, exec (.dictRead p idx sub ofs) s = .next t ∧
            t.isSet AGT_UNC_DICT_RSP.BUSY p = false ∧ t.get AGT_UNC_DICT_RSP.STATUS p = 0 ∧ t.get AGT_UNC_DICT_ABORT.CODE p = 0 ∧
            (let v := (s.set AGT_UNC_DICT_RSP.BUSY p 1).objBytes false idx sub
             t.get AGT_UNC_DICT_DATA.VALUE p = leVal ((v.drop ofs).take 8) % 2 ^ 64 ∧ t.get AGT_UNC_DICT_RSP.SIZE p = v.length % 2 ^ 24) ∧
            s.sameBut [.regs] t) ∧
        (∀ v : Verdict, s.dictCheck (roleMask (2 + p) false) none true idx sub = some v → v.1 ≠ .denied →
          ∃ t, exec (.dictRead p idx sub 0) s = .next t ∧ t.get AGT_UNC_DICT_RSP.STATUS p = v.1.code ∧
            t.get AGT_UNC_DICT_ABORT.CODE p = v.2 % 2 ^ 32 ∧ t.isSet AGT_UNC_DICT_RSP.BUSY p = false ∧
            t.get AGT_UNC_DICT_RSP.SIZE p = s.get AGT_UNC_DICT_RSP.SIZE p ∧ s.sameBut [.regs] t) ∧
        (s.dictCheck (roleMask (2 + p) false) none true idx sub = some Verdict.denied →
          ∃ t, exec (.dictRead p idx sub 0) s = .next t ∧ t.isSet AGT_UNC_DICT_RSP.BUSY p = true ∧
            t.dic.denied = s.dic.denied ++ [2 + p] ∧ t.sec.refusals = min (2 ^ 32 - 1) (s.sec.refusals + 1)) ∧
        (∀ r n, objRow idx sub = some r → typeBytes r.typ = some n → n ≤ 8 →
          let b := (leBytes 8 (s.get AGT_UNC_DICT_DATA.VALUE p)).take n
          s.dictCheck (roleMask (2 + p) false) (some b) true idx sub = none →
          ∃ t, exec (.dictWrite p idx sub 0) s = .next t ∧ t.isSet AGT_UNC_DICT_RSP.BUSY p = true ∧
            t.dic.slot = staged (2 + p) (portSrc p) b ∧ s.sameBut [.regs, .dic] t))) ∧
    (∀ (rank : Nat) (src : Src) (w : Option (List Byte)) (c : Instr),
      (c = .safetyDictRequest idx sub w ∧ rank = 1 ∧ src = .scarab ∧ s.domOn 40 = true ∧ s.pwr.scarabHalted = false ∧ s.linkState 8 ≠ 0) ∨
      (∃ ch, c = .usdoRequest ch idx sub w ∧ rank = 4 ∧ src = .mgmt ∧ ch < 2 ∧ s.domOn 34 = true ∧ s.get AGT_NET_CANSTAT.STATE ch ≠ 2) ∨
      (∃ n, c = .coeSdoRequest n idx sub w ∧ rank = 5 ∧ src = .mgmt ∧ n < 128 ∧ s.ecatRuns = true) →
      (s.agateReloads = true → rank ≠ 1 → exec c s = .next (s.emit (.sdo rank 0x08000020 []))) ∧
      (s.agateReloads = false ∨ rank = 1 → s.dictCheck (roleMask rank false) w true idx sub = none →
        (w = none → exec c s = .next (s.emit (.sdo rank 0 (s.objBytes false idx sub)))) ∧
        (∀ b, w = some b → exec c s = .next { s with dic := { s.dic with slot := staged rank src b } }))) ∧
    (∀ a k, a = 2 ∨ a = 3 → a ∈ s.dic.denied → ∃ t, exec (.deniedResponse true a k) s = .next t ∧
      t.dic.denied = s.dic.denied.erase a ∧ t.isSet AGT_UNC_DICT_RSP.BUSY (a - 2) = false ∧
      t.get AGT_UNC_DICT_RSP.STATUS (a - 2) = Status.code .denied ∧ s.sameBut [.regs, .dic] t)

/-- Slots (R346, R360 to R365): the writes of a slot are decided in their order of arrival, those of MODE, MASTER and ACCEPT last and in this
order, and what waited for them follows. Among the writes of one object the winner is a stop-ward one where there is any, then the one of the
highest rank, then the later; a loser leaves the object as it is and answers SUPERSEDED, or the row of R359 that applies to it. A register
of R360 is decided in the same way, but AGT_RFX_CMD channel by channel, and completes with SUPERSEDED where it lost one (R325). -/
def Obligations.SlotDecisions : Prop :=
  ∀ s : State,
    (∀ got sigOk, s.clocked = true → exec (.slotEnd got sigOk) s =
      .next ((slotOrder s.dic.slot).foldl (State.decideWrite s.dic.slot got sigOk) { s with dic := { s.dic with slot := [] } }).servoNext) ∧
    (∀ l : List SlotWrite, (slotOrder l).Perm l.zipIdx ∧
      (slotOrder l).Pairwise (fun e f => (slotPlace e.1.obj).getD 0 ≤ (slotPlace f.1.obj).getD 0 ∧
        (slotPlace e.1.obj = slotPlace f.1.obj → e.2 < f.2))) ∧
    (∀ (p : SlotWrite → Bool) (l : List SlotWrite) (i : Nat) (w : SlotWrite), winner p l = some i → l[i]? = some w →
      p w = true ∧ ∀ j v, l[j]? = some v → p v = true →
        (w.stopward = false → v.stopward = false) ∧ (v.stopward = w.stopward → w.rank ≤ v.rank ∧ (v.rank = w.rank → j ≤ i))) ∧
    (∀ (l : List SlotWrite) (w : SlotWrite) (i : Nat) (got : List Nat) (sigOk : Bool),
      (w.obj < 2 ^ 24 → w.reg = false →
        let r := s.writeObject w sigOk
        (wins l w i = true → ∀ v, r.2 = some v → s.decideWrite l got sigOk (w, i) = r.1.writeAnswer w.rank w.mute v w.bytes.length) ∧
        (wins l w i = false → (r.2 = none ∨ r.2 = some Verdict.ok) →
          s.decideWrite l got sigOk (w, i) = s.dictAnswer w.rank w.mute Verdict.superseded none none)) ∧
      (2 ^ 24 ≤ w.obj → w.reg = false → s.reaches w.src 4 ((w.obj - 2 ^ 24) / 0x100000) ((w.obj - 2 ^ 24) % 0x100000) = true →
        let answered (t : State) (st : Status) : State := if w.mute then t else t.completeWrite w.src st
        (w.rfxCmd = false → wins l w i = true → s.decideWrite l got sigOk (w, i) = answered (s.writeContended w got) .ok) ∧
        (w.rfxCmd = false → wins l w i = false → s.decideWrite l got sigOk (w, i) = answered s .superseded) ∧
        (w.rfxCmd = true →
          let mask := bits (leVal w.bytes) 32 32
          let won := maskOf ((List.range 32).filter (fun c => winner (fun v => v.names c) l == some i))
          s.decideWrite l got sigOk (w, i) = answered (if mask ≠ 0 ∧ won = 0 then s else s.rfxCommand (leVal w.bytes % 8) won)
            (if won = mask then .ok else .superseded)))) ∧
    (∀ rank, rank = 2 ∨ rank = 3 → ∀ v : Verdict, ∀ size read, let t := s.dictAnswer rank false v size read
      t.get AGT_UNC_DICT_RSP.STATUS (rank - 2) = v.1.code ∧ t.get AGT_UNC_DICT_ABORT.CODE (rank - 2) = v.2 % 2 ^ 32 ∧
      t.isSet AGT_UNC_DICT_RSP.BUSY (rank - 2) = false ∧
      t.get AGT_UNC_DICT_RSP.SIZE (rank - 2) = (size.elim (s.get AGT_UNC_DICT_RSP.SIZE (rank - 2)) (fun n => n % 2 ^ 24)) ∧ s.sameBut [.regs] t)

/-- Stores, defaults and loading (R366 to R369, R472 step 8). A store takes a snapshot of the objects and erases the copy that is not
current; when it has passed, and the snapshot fits the part of the flash that R366 gives a copy, that copy holds it and is current, and when not, the
current copy stays. Restored defaults are the
persistent objects' alone. Step 8 selects a copy, the later of two valid ones, shows which, and locks every RWL field. -/
def Obligations.StoresAndDefaults : Prop :=
  ∀ (s : State) (src : Src), src = .sideband ∨ src = .pf1 →
    (s.clocked = true →
      (s.flashBusy = false → ∃ t j, exec (.storeParameters src) s = .next t ∧ t.dic.store = some j ∧ j.records = s.snapshotObjects ∧
        j.copy = (if s.dic.current = some 0 then 1 else 0) ∧ t.cfgCopy j.copy = none ∧
        t.cfgCopy (1 - j.copy) = s.cfgCopy (1 - j.copy) ∧ t.dic.current = s.dic.current ∧
        (∀ k, s.dic.current = some k → j.seq = (s.copySeq (some k) + 1) % 2 ^ 32) ∧ s.sameBut [.regs, .dic] t) ∧
      (s.flashBusy = true → ∃ t, exec (.storeParameters src) s = .next t ∧
        t.get AGT_UNC_DICT_RSP.STATUS (Src.dictRank src - 2) = Status.code .queueFull ∧ s.sameBut [.regs] t) ∧
      (∀ j, s.dic.store = some j →
        (CfgCopy.fits ⟨j.seq, j.records⟩ = true → ∃ t, exec (.storeComplete true) s = .next t ∧ t.dic.store = none ∧
          t.cfgCopy j.copy = some ⟨j.seq, j.records⟩ ∧ t.dic.current = some j.copy ∧ t.dict = s.dict) ∧
        (∀ ok, ok = false ∨ CfgCopy.fits ⟨j.seq, j.records⟩ = false → ∃ t, exec (.storeComplete ok) s = .next t ∧ t.dic.store = none ∧ t.dic.copy0 = s.dic.copy0 ∧ t.dic.copy1 = s.dic.copy1 ∧
          t.dic.current = s.dic.current)) ∧
      (∃ t, exec (.restoreDefaults src) s = .next t ∧ (∀ k d, persistent k = true → tget d t.dict k = d ∧ tget [] t.blobs k = []) ∧
        (∀ k d, persistent k = false → tget d t.dict k = tget d s.dict k ∧ tget [] t.blobs k = tget [] s.blobs k) ∧
        t.dic = s.dic)) ∧
    (s.buReached = true → s.pkg.held = false → s.isSet AGT_BU_STAT.BUSY 0 = false → s.stepMay 8 = true → ∀ sigOk,
      let a := if bit sigOk 0 then s.dic.copy0.filter CfgCopy.fits else none
      let b := if bit sigOk 1 then s.dic.copy1.filter CfgCopy.fits else none
      ∃ t j n, exec (.cfgLoad 0 sigOk) s = .next t ∧ t.bu.run = some j ∧ j.op = 8 ∧ j.done = some (.ok, t.dic.loaded.getD 3 + n * 2 ^ 32) ∧
        t.pkg.rwlLocked = true ∧ t.dic.current = t.dic.loaded ∧ n = t.dic.skipped ∧
        (a = none → b = none → t.dic.loaded = none) ∧ (a.isSome = true → b = none → t.dic.loaded = some 0) ∧
        (a = none → b.isSome = true → t.dic.loaded = some 1) ∧
        (∀ x y, a = some x → b = some y →
          t.dic.loaded = some (if x.seq != y.seq && serialGe y.seq x.seq then 1 else 0)))

/-- Register writes (R6, R15 to R20, R360, R374, R396, R411). A refused one, to whatever address, completes with its status and changes nothing
but counts; so does one that another's register refuses. One of a register of R360, of RSV or of SW_CAP waits for the end of its slot,
without a completion until then; one of a register with a row of its own has that row's effect; any other register takes its value, a read-only field
keeping its own and a write-1-to-clear field clearing. SRDOs (R372, R405): one that is configured is sent with its complement. A command
that was refused with DENIED completes with it. -/
def Obligations.RegisterWritesAndSrdos : Prop :=
  ∀ s : State, s.clocked = true →
    (∀ src a val,
      (∀ st, s.requestRefused src a true = some st → ∃ u : State, exec (.registerWrite src a val) s = .next (u.completeWrite src st) ∧
        s.sameBut (if st = .denied then [.sec] else [.dict]) u) ∧
      (s.requestRefused src a true = none → localOf a < 0x2000000000 ∨ 0x2010000000 ≤ localOf a →
        exec (.registerWrite src a val) s = .next s) ∧
      (s.requestRefused src a true = none → 0x2000000000 ≤ localOf a → localOf a < 0x2010000000 →
        let n := nodeOf a
        let off := localOf a - 0x2000000000
        let own := (fieldsAt n off).any (fun e => ownFields.contains e.1)
        n < 5 → s.arrives src n (off / 0x100000) (off % 0x100000) = true → (n = 4 → off < 0x1000 ∨ 0x1040 ≤ off) →
        (s.writeDenied src n off = true → exec (.registerWrite src a val) s = .next (s.denyWrite src)) ∧
        (s.writeDenied src n off = false →
          (defers n off = true → exec (.registerWrite src a val) s = .next { s with dic := { s.dic with slot := s.dic.slot ++
            [{ rank := Src.rank src, src := src, obj := (objectAt n off).getD (2 ^ 24 + off), bytes := leBytes 8 val,
               reg := (objectAt n off).isSome }] } }) ∧
          (defers n off = false → own = false → (n = 4 ∨ inWindow n off = false) →
            exec (.registerWrite src a val) s = .next ((s.storeReg n off val).completeWrite src .ok)) ∧
          (defers n off = false → own = true → n = 4 →
            exec (.registerWrite src a val) s = .next ((s.agateOwnWrite src off val).completeWrite src .ok)) ∧
          (defers n off = false → own = true ∨ inWindow n off = true → n ≠ 4 →
            exec (.registerWrite src a val) s = .next ((s.onyxOwnWrite src n off val).completeWrite src .ok))))) ∧
    (∀ v, (∀ f ∈ [AGT_TIME_CTRL.PPS_EN, AGT_TIME_CTRL.SRC_PORT, AGT_TIME_CTRL.VECTOR],
        (s.putReg 4 0x300000 v).get f 0 = bits v f.lo f.width) ∧
      (∀ f ∈ [AGT_PWR_CAPSTAT.PKG, AGT_PWR_CAPSTAT.ALERT],
        (s.putReg 4 0xC00008 v).get f 0 = if f.acc = .w1c ∧ bits v f.lo f.width = 1 then 0 else s.get f 0)) ∧
    (∀ n, 1 ≤ n → n ≤ 64 → s.domOn 34 = true → s.obj 0 (0x1300 + n) 1 = 1 → s.obj 0 0x13FE 0 = 0xA5 →
      exec (.srdoTransmit n) s = .next (s.emit (.srdo n (s.srdoBytes n) ((s.srdoBytes n).map (fun b => ~~~b))))) ∧
    (∀ k b x, s.cmd (k * 2 ^ 32 + b) = some x → x.phase = .finished → x.status = .denied →
      exec (.deniedResponse false k b) s = .next ((s.complete x .denied x.result 0xF).abortSweep k))
/-! ## Host and field interfaces (chapter 16) -/

/-- The EtherCAT cycle (R379 to R383). A cycle start counts CYCLE and launches its frames, frame 0 first; a frame that returns is waited
for no more, and the last one ends the cycle, as does the return limit, LATE where a frame is still out; the end shows the cycle in INSEQ
and in VALID the positions with valid inputs; a written feed row adds one step to its stream. -/
def Obligations.EthercatCycles : Prop :=
  ∀ s : State, s.clocked = true → s.ecatRuns = true →
    (s.ecat.open' = false → ∃ (t : State) (l : List Output), exec .ecatCycleStart s = .next t ∧ t.ecat.open' = true ∧
      t.get AGT_ECAT_STATUS.CYCLE 0 = (s.get AGT_ECAT_STATUS.CYCLE 0 + 1) % 2 ^ 32 ∧
      t.ecat.waiting = s.cycleFrames.flatMap (fun f => if s.ecatRing then [2 * f, 2 * f + 1] else [2 * f]) ∧ t.out = s.out ++ l ∧
      l.length = s.cycleFrames.length ∧
      (∀ i, i < l.length → ∃ dc grams, l[i]? = some (.ecat (s.cycleFrames.getD i 9) dc grams)) ∧ s.sameBut [.regs, .out, .cmp, .ecat] t) ∧
    (∀ f port grams, s.ecat.open' = true → 2 * f + port ∈ s.ecat.waiting →
      let rest := s.ecat.waiting.filter (fun k => k != 2 * f + port)
      (rest ≠ [] → ∃ t, exec (.ecatFrameReturn f port grams) s = .next t ∧ t.ecat.waiting = rest ∧ t.ecat.open' = true ∧
        port ∈ t.ecat.ports ∧ s.sameBut [.regs, .ecat] t) ∧
      (rest = [] → ∃ u : State, exec (.ecatFrameReturn f port grams) s = .next u.endCycle ∧ u.ecat.waiting = [] ∧
        s.sameBut [.regs, .ecat] u)) ∧
    (s.ecat.open' = true → s.ecat.waiting = [] → exec .ecatReturnLimit s = .next s.endCycle) ∧
    (s.ecat.open' = true → 0 ∈ s.ecat.waiting → s.ecatRing = false → ∃ u : State, exec .ecatReturnLimit s = .next u.endCycle ∧
      u.get AGT_ECAT_STATUS.LATE 0 = 1 ∧ s.sameBut [.regs, .out] u) ∧
    (s.endCycle.get AGT_ECAT_INSEQ.SEQ 0 = s.get AGT_ECAT_STATUS.CYCLE 0 % 2 ^ 32 ∧ s.endCycle.ecat.open' = false ∧
      s.endCycle.ecat.waiting = [] ∧ ∀ n, n < 127 → (bit (s.endCycle.get AGT_ECAT_VALID.POS (n / 64)) (n % 64) = true ↔ s.inputsValid n = true)) ∧
    (∀ f, f ∈ s.ecat.feedWaits → exec (.feedWriteComplete f) s =
      .next (({ s with ecat := { s.ecat with feedWaits := s.ecat.feedWaits.erase f } } : State).ringDoorbell
        (s.obj 0 (0x2C40 + f) 2) (s.obj 0 (0x2C40 + f) 3) 1))

/-- Subdevice positions (R380): the PRESENT ones of a segment that loses its link become ABSENT; an answer at an ABSENT or LOST position
starts the check of its identity with three CoE reads; an identity as the dictionary has it makes the position PRESENT, another REFUSED;
RETRY makes an ABSENT one LOST; RECHECK checks a REFUSED one again. No other position changes. The CoE mailbox (R381): a request to a PRESENT position goes out and shows BUSY; its answer, its abort code or the timeout ends it
with a status; a request to another position completes with BAD_DESCRIPTOR; one while BUSY is ignored with CFG_ERR. -/
def Obligations.SubdevicesAndMailbox : Prop :=
   (∀ (s : State) (n : Nat), s.clocked = true →
      let goes (c : Instr) (st : SubState) : Prop :=
        ∃ t, exec c s = .next t ∧ (t.sub n).st = st ∧ ∀ m, m ≠ n → t.sub m = s.sub m
      (s.domOn 34 = true → ∀ port positions, ∃ t, exec (.ecatLinkLoss port positions) s = .next t ∧
        (port = 0 → t.get AGT_ECAT_STATUS.LINK0 0 = 0) ∧ (port = 1 → t.get AGT_ECAT_STATUS.LINK1 0 = 0) ∧
        ∀ m, (m ∈ positions → (s.sub m).st = .present → (t.sub m).st = .absent) ∧
          (m ∉ positions ∨ (s.sub m).st ≠ .present → t.sub m = s.sub m)) ∧
      (∀ port, n < 128 → s.domOn 34 = true → (s.sub n).st = .absent ∨ (s.sub n).st = .lost →
        goes (.subdeviceAnswer n port) .checking ∧ ∃ t l, exec (.subdeviceAnswer n port) s = .next t ∧
          t.out = s.out ++ l ++ [.coe n 0x1018 1 false [], .coe n 0x1018 2 false [], .coe n 0x1018 4 false []]) ∧
      (∀ id, (s.sub n).st = .checking →
        (id = some (s.obj 0 (0x2C80 + n) 1, s.obj 0 (0x2C80 + n) 2, s.obj 0 (0x2C80 + n) 3) → goes (.identityReadComplete n id) .present) ∧
        (id ≠ some (s.obj 0 (0x2C80 + n) 1, s.obj 0 (0x2C80 + n) 2, s.obj 0 (0x2C80 + n) 3) → goes (.identityReadComplete n id) .refused)) ∧
      ((s.sub n).st = .absent → (s.sub n).retry + 4000000 * s.obj 100 0x2C01 1 ≤ s.time.now → goes (.retryExpire n) .lost) ∧
      (s.domOn 34 = true → (s.sub n).st = .refused → goes (.recheck n) .checking)) ∧
   (∀ (s : State) (src : Src) (val size : Nat), s.clocked = true →
      let pos := bits val 8 7
      let ends (c : Instr) (st : Status) (abort : Nat) (p : State → Prop) : Prop :=
        ∃ t, exec c s = .next t ∧ t.isSet AGT_ECAT_MBX_RSP.BUSY 0 = false ∧ t.get AGT_ECAT_MBX_RSP.STATUS 0 = st.code ∧
          t.get AGT_ECAT_MBX_RSP.ABORT 0 = abort ∧ t.ecat.mbx = none ∧ s.sameBut [.regs, .ecat] t ∧ p t
      let runs (c : Instr) (j : MbxJob) : Prop :=
        ∃ t, exec c s = .next t ∧ t.isSet AGT_ECAT_MBX_RSP.BUSY 0 = true ∧ t.ecat.mbx = some j ∧
          t.out = s.out ++ [.coe j.pos j.idx j.sub j.write j.bytes]
      (s.domOn 34 = true → s.reaches src 4 8 0x40 = true →
        (s.isSet AGT_ECAT_MBX_RSP.BUSY 0 = true →
          exec (.mbxRead src val) s = .next (s.set AGT_ECAT_MBX_RSP.CFG_ERR 0 1) ∧
          exec (.mbxWrite src val size) s = .next (s.set AGT_ECAT_MBX_RSP.CFG_ERR 0 1)) ∧
        (s.isSet AGT_ECAT_MBX_RSP.BUSY 0 = false →
          ((s.sub pos).st ≠ .present → ends (.mbxRead src val) .badDescriptor 0 (fun _ => True) ∧
            ends (.mbxWrite src val size) .badDescriptor 0 (fun _ => True)) ∧
          ((s.sub pos).st = .present → bits val 40 12 = 0 →
            runs (.mbxRead src val) ⟨false, pos, bits val 24 16, bits val 16 8, []⟩ ∧
            (size ≤ 8 → runs (.mbxWrite src val size) ⟨true, pos, bits val 24 16, bits val 16 8,
              (leBytes 8 (s.get AGT_ECAT_MBX_DATA.VALUE 0)).take size⟩) ∧
            (8 < size → size ≤ 4096 → ends (.mbxWrite src val size) .ok 0 (fun t =>
              t.ecat.staging = leBytes 8 (s.get AGT_ECAT_MBX_DATA.VALUE 0)))))) ∧
      (∀ j, s.ecat.mbx = some j →
        (∀ abort bytes, abort ≠ 0 → ends (.mbxResponse abort bytes) .badDescriptor (abort % 2 ^ 32) (fun _ => True)) ∧
        (j.write = true → ∀ bytes, ends (.mbxResponse 0 bytes) .ok 0 (fun _ => True)) ∧
        (j.write = false → ∀ bytes, bytes.length ≤ 4096 → ends (.mbxResponse 0 bytes) .ok 0 (fun t => t.ecat.staging = bytes ∧
          t.get AGT_ECAT_MBX_RSP.SIZE 0 = bytes.length ∧ t.get AGT_ECAT_MBX_DATA.VALUE 0 = leVal (bytes.take 8) % 2 ^ 64)) ∧
        ends .mbxTimeout .lowerTierTimeout 0 (fun _ => True)))

/-- The host, CAN FD and Ethernet (R376, R384 to R387). When the host is down no virtual function is enabled and no session stays open on
its port; an FLR of one function takes that function alone. A channel in bus-off recovers as error active with both counters 0; a
heartbeat goes out while a channel is not in bus-off and the management cores are not reloading. A doorbell moves TAIL; a received frame goes to its ring or counts as dropped. -/
def Obligations.HostAndNetworks : Prop :=
  ∀ (s : State) (got : List Nat), s.clocked = true →
    (∃ t, exec (.hostDown got) s = .next t ∧ t.host.vfEnabled = [] ∧ (∀ w ∈ t.sec.sessions, w.port ≠ 1) ∧
      (∀ w ∈ t.dic.slot, w.src = .pf1 → w.mute = true)) ∧
    (∀ v, ∃ t, exec (.flr (2 + v) got) s = .next t ∧ t.host.vfEnabled = s.host.vfEnabled.filter (fun k => k != v) ∧ t.dic = s.dic) ∧
    (∀ c, c < 2 → s.domOn 34 = true →
      (∃ t, exec (.canBusOff c) s = .next t ∧ t.get AGT_NET_CANSTAT.STATE c = 2 ∧ t.get AGT_NET_CANSTAT.TEC c = 255 ∧
        t.get AGT_NET_CANSTAT.BUSOFF_CNT c = min (2 ^ 16 - 1) (s.get AGT_NET_CANSTAT.BUSOFF_CNT c + 1) ∧ s.sameBut [.regs] t) ∧
      (s.get AGT_NET_CANSTAT.STATE c = 2 → ∃ t, exec (.canBusOffRecovery c) s = .next t ∧ t.get AGT_NET_CANSTAT.STATE c = 0 ∧
        t.get AGT_NET_CANSTAT.TEC c = 0 ∧ t.get AGT_NET_CANSTAT.REC c = 0) ∧
      (s.get AGT_NET_CANSTAT.STATE c ≠ 2 → s.agateReloads = false → s.obj 100 0x1017 0 ≠ 0 →
        exec (.canHeartbeat c) s = .next (s.emit (.heartbeat c)))) ∧
    (∀ src p val, p < 2 → s.domOn 34 = true → s.reaches src 4 9 (0x1000 * p + 0x18) = true →
      bits val 0 8 ≤ s.get AGT_NET_TXRING.DEPTH_M1 p → exec (.txDoorbell src p val) s = .next (s.set AGT_NET_TXDB.TAIL p (bits val 0 8))) ∧
    (∀ p f, s.netOn p = true →
      (s.ringFor p f = none → exec (.ethFrameReceive p f) s =
        .next ((s.set AGT_NET_STAT.LINK p 1).setObj 0 (0x2C30 + p) 9 (satAdd 32 (s.obj 0 (0x2C30 + p) 9) 1))) ∧
      (∀ r, s.ringFor p f = some r → thas s.rings (AGT_NET_RXRING.BASE.addr 4 (rxIdx p r)) = true →
        let i := rxIdx p r
        let k := s.get AGT_NET_RXSTAT.TAIL i
        ((k + 1) % (s.get AGT_NET_RXRING.DEPTH_M1 i + 1) = s.get AGT_NET_RXDB.HEAD i →
          exec (.ethFrameReceive p f) s = .next ((s.set AGT_NET_STAT.LINK p 1).count AGT_NET_RXSTAT.DROP i 1)) ∧
        ((k + 1) % (s.get AGT_NET_RXRING.DEPTH_M1 i + 1) ≠ s.get AGT_NET_RXDB.HEAD i → s.sec.prots = [] → s.sec.deferrals = [] →
          (let ra := glob (s.get AGT_NET_RXRING.NODE i) (4096 * s.get AGT_NET_RXRING.BASE i + 32 * k)
           isT2 ra = true ∧ isT2 (ra + 31) = true ∧ nodeOf (ra + 31) = nodeOf ra ∧ s.t2Up (nodeOf ra) = true) →
          ∃ t, exec (.ethFrameReceive p f) s = .next t ∧
            t.get AGT_NET_RXSTAT.TAIL i = (k + 1) % (s.get AGT_NET_RXRING.DEPTH_M1 i + 1) % 2 ^ 8)))
/-! ## Guarded outputs (chapter 17) -/

/-- The safe state (R393, R402 to R405, R407): a request, or the third heartbeat check in a row without a change, latches it where guarded
outputs are on: LATCHED with its cause, both SAFE lines low, bit 0 of object 0x1001 set, one more latch counted; while it is latched the
same only cancels an accepted release. A release is accepted exactly where its conditions hold. Otherwise the SAFE lines toggle. -/
def Obligations.SafeState : Prop :=
  ∀ (s : State) (src : Src), s.clocked = true →
    let latchedBy (c : Instr) (causes : Nat) : Prop :=
      ∃ t, exec c s = .next t ∧ t.latched = true ∧ t.get AGT_CMP_STATUS.CAUSE 0 = causes ∧ t.cmp.safeA = false ∧ t.cmp.safeB = false ∧
        t.cmp.latchedAt = s.time.now ∧ bit (t.obj 0 0x1001 0) 0 = true ∧
        t.get AGT_CMP_CNT.LATCHES 0 = min (2 ^ 16 - 1) (s.get AGT_CMP_CNT.LATCHES 0 + 1)
    (∀ val, (s.domOn 41 = true → s.pwr.scarabHalted = false → s.reaches .scarab 4 6 0x20 = true →
        exec (.hbWrite .scarab val) s = .next (s.set AGT_CMP_HB.COUNT 0 val)) ∧
      (src ≠ .scarab → exec (.hbWrite src val) s = .next (s.denyWrite src))) ∧
    (s.domPowered 40 = true → s.domPowered 41 = true →
      let v := s.get AGT_CMP_HB.COUNT 0
      (v ≠ s.cmp.hbSeen → ∃ t, exec .heartbeatCheck s = .next t ∧ t.cmp.hbSame = 0 ∧ t.cmp.hbSeen = v ∧ s.sameBut [.cmp] t) ∧
      (v = s.cmp.hbSeen → s.cmp.hbSame + 1 < 3 → ∃ t, exec .heartbeatCheck s = .next t ∧ t.cmp.hbSame = s.cmp.hbSame + 1 ∧
        s.sameBut [.cmp] t) ∧
      (v = s.cmp.hbSeen → 3 ≤ s.cmp.hbSame + 1 → s.guardedOn = true → s.latched = false → latchedBy .heartbeatCheck 8)) ∧
    (s.guardedOn = true → s.latched = false → latchedBy .latchReq 4) ∧
    (s.guardedOn = false → exec .latchReq s = .next s) ∧
    (s.guardedOn = true → s.latched = true →
      (s.cmp.releasing = false → s.cmp.latchedAt ≠ s.time.now → exec .latchReq s = .next s) ∧
      (s.cmp.releasing = true ∨ s.cmp.latchedAt = s.time.now → ∃ t, exec .latchReq s = .next t ∧
        t.get AGT_CMP_STATUS.CAUSE 0 = (s.get AGT_CMP_STATUS.CAUSE 0 ||| 4) % 16 ∧ t.latched = true ∧ s.sameBut [.regs, .cmp] t) ∧
      (s.cmp.releasing = true → ∃ t, exec .latchReq s = .next t ∧ t.cmp.releasing = false ∧ t.latched = true ∧ s.sameBut [.regs, .cmp] t)) ∧
    ((s.releaseOk = true → ∃ t, exec (.release .sideband) s = .next t ∧ t.cmp.releasing = true ∧ s.sameBut [.cmp] t) ∧
      (s.releaseOk = false → exec (.release .sideband) s = .next s)) ∧
    (s.cmp.running = true → s.latched = false → ∃ t, exec .safeLineEdge s = .next t ∧
      (t.cmp.safeA = true ↔ s.time.now / 100000 % 2 = 1) ∧ t.cmp.safeB = !t.cmp.safeA ∧ s.sameBut [.cmp] t) ∧
    (s.cmp.running = false ∨ s.latched = true → exec .safeLineEdge s = .next s)

/-- Frames and records (R395 to R402, R404, R407). A buffer write stores its bytes and changes memory no further; the deadline of an
output waits where such a write for its record still comes in its cycle (log entry 158), and else decides it: AGREE where both records arrived and every element agrees, DISAGREE where one does not, else LATE for the record
that is absent, with the status that R400 gives it, or SAFE_STATE_LATCHED. A frame start begins the next frame with nothing decided; an
accepted release takes effect there, and an output of a latched frame stays latched without one. -/
def Obligations.GuardedFrames : Prop :=
  ∀ s : State, s.clocked = true →
    (∀ src off b poison,
      let ch := if off < 0x50000 then 0 else 1
      let o := off - 0x10000 - 0x40000 * ch
      let sends : Prop := s.domOn 40 = true ∧ s.pwr.scarabHalted = false ∧ s.scarabCut .scarab 4 = false
      (0x10000 ≤ off → off < 0x90000 → (∃ n, src = .onyx n ∧ ch = 0 ∧ s.admitted n = true) ∨ (src = .scarab ∧ ch = 1 ∧ sends) →
        ∃ t, exec (.guardedBufferWrite src off b poison) s = .next t ∧
          t.mem = (s.writeRun 0 false (outBuffer ch (o / 8192) (o / 4096 % 2) + o % 4096) (b.take (4096 - o % 4096)) poison).mem ∧
          (s.guardedOn = false → s.cmp.waiting = [] → t.cmp = s.cmp)) ∧
      (s.cmp.waiting = [] → off < 0x10000 ∨ 0x90000 ≤ off ∨ (src = .scarab ∧ ¬sends) →
        exec (.guardedBufferWrite src off b poison) s = .next s) ∧
      (s.cmp.waiting = [] → 0x10000 ≤ off → off < 0x90000 →
        src = .sideband ∨ (src = .scarab ∧ ch = 0 ∧ sends) ∨ (∃ n, src = .onyx n ∧ ch = 1) →
        exec (.guardedBufferWrite src off b poison) s = .next (s.denyWrite src))) ∧
    (∀ g, s.recordDue g = true → ∃ t, exec (.outputDeadline g) s = .next t ∧ g ∈ t.cmp.waiting ∧ s.sameBut [.cmp] t) ∧
    (∀ g, s.recordDue g = false → s.cmp.running = true → g ∈ s.outputs → thas s.cmp.decided g = false →
      let k := s.get AGT_CMP_FRAME.INDEX 0 % 2
      let m : RecTrack := tget {} s.cmp.tracks (trackKey 0 g k)
      let c : RecTrack := tget {} s.cmp.tracks (trackKey 1 g k)
      let is (outcome : Nat) (st : Status) : Prop := ∃ t d, exec (.outputDeadline g) s = .next t ∧ tfind t.cmp.decided g = some d ∧
        d.outcome = outcome ∧ d.plain = st ∧ d.status = (if t.latched then .safeStateLatched else st)
      (m.vals = none → is 2 .deadlineMissed) ∧
      (∀ x, m.vals = some x → c.vals = none → is 3 .outputInvalidated) ∧
      (∀ x y, m.vals = some x → c.vals = some y →
        ((x.zip y).all (fun p => s.agrees g p.1 p.2) = true → is 0 .ok) ∧
        ((x.zip y).all (fun p => s.agrees g p.1 p.2) = false → is 1 .outputInvalidated))) ∧
    (s.guardedOn = true →
      (s.cmp.running = false → ∃ t, exec .guardedFrameStart s = .next t ∧ t.cmp.running = true ∧ t.cmp.start = s.time.now ∧
        t.cmp.safeA = false ∧ t.cmp.safeB = true ∧ s.sameBut [.cmp] t) ∧
      (s.cmp.running = true → ∃ t, exec .guardedFrameStart s = .next t ∧
        t.get AGT_CMP_FRAME.INDEX 0 = (s.get AGT_CMP_FRAME.INDEX 0 + 1) % 2 ^ 32 ∧ t.cmp.decided = [] ∧ t.cmp.start = s.time.now ∧
        (s.latched = true → t.latched = !s.cmp.releasing ∧ t.cmp.releasing = false)))
/-! ## Security (chapter 18) -/

/-- The mailbox (R419 to R423, R436). While DONE = 0 a request is ignored with CFG_ERR; else it takes effect, DONE falls, and its answer is
kept for the port. An immediate operation answers at once; a ticketed one with a ticket, of which a port holds eight; one that a session
must make is refused, and counted, where its tag or counter is not as it must be. -/
def Obligations.MailboxRequests : Prop :=
  ∀ (s : State) (p : Nat), s.clocked = true → s.portReached p = true →
    let room := (s.sec.tickets.filter (fun k => k.port == p)).length < 8
    let asked (c : Instr) (r : State → MbAnswer → Prop) : Prop :=
      ∃ t a, exec c s = .next t ∧ tfind t.sec.answers p = some a ∧ t.get AGT_SEC_MB_RSP.DONE p = 0 ∧ r t a
    let refused (t : State) (a : MbAnswer) : Prop := a.ok = false ∧ t.sec.refusals = min (2 ^ 32 - 1) (s.sec.refusals + 1)
    let ticket (op : Nat) (session : Option Nat) (args : List Nat) (t : State) (a : MbAnswer) : Prop :=
      a.ok = true ∧ a.ticket = s.sec.nextTicket % 2 ^ 32 ∧ t.sec.nextTicket = s.sec.nextTicket + 1 ∧
      t.sec.tickets = s.sec.tickets ++ [{ id := s.sec.nextTicket, port := p, op := op, session := session, args := args }]
    (s.get AGT_SEC_MB_RSP.DONE p = 0 → ∀ c, (∃ r, c ∈ [Instr.getCert p, .getNonce p, .sessionFinish p, .attest p r, .sessionOpen p r]) ∨
        (∃ a r k q, c ∈ [Instr.sessionClose p a, .partProtect p a r, .keyImport p a k q r, .keyDestroy p a k, .defectClear p a true,
          .dict p a k q (some r), .regread p a [k], .partRelease p (some a) q, .collect p k]) →
      exec c s = .next (s.set AGT_SEC_MB_RSP.CFG_ERR p 1)) ∧
    (s.get AGT_SEC_MB_RSP.DONE p ≠ 0 →
      asked (.getCert p) (fun _ a => a.ok = true ∧ ∃ n, a.bytes = cryptoBytes 2 n (leBytes 4 s.fuses.serial)) ∧
      asked (.getNonce p) (fun t a => a.ok = true ∧ a.bytes.length = 48 ∧ (p = 0 → t.sec.nonce.isSome = true)) ∧
      (∀ nonce, room → asked (.attest p nonce) (ticket 2 none [leVal (nonce.take 48)])) ∧
      (∀ nonce, ¬room → asked (.attest p nonce) refused) ∧
      (∀ q, p = 1 → s.sec.debugNow = false → room → asked (.sessionOpen p q) (ticket 3 none [ownerId (q.take 97)])) ∧
      (∀ q, p ≠ 1 ∨ s.sec.debugNow = true → asked (.sessionOpen p q) refused) ∧
      (∀ o, p = 1 → s.sec.opening = some o → room → asked (.sessionFinish p) (fun t a => ticket 4 none [o.1, o.2] t a ∧ t.sec.opening = none)) ∧
      (∀ id k, s.sec.tickets.find? (fun v => v.port == p && v.id % 2 ^ 32 == id) = some k →
        (k.ended = some true → asked (.collect p id) (fun t a => a.ok = true ∧ a.bytes = k.result ∧ t.sec.tickets = s.sec.tickets)) ∧
        (k.ended ≠ some true → asked (.collect p id) refused)) ∧
      (∀ a : Auth, (∀ w, s.sec.sessions.find? (fun w => w.id == a.session && w.port == p) = some w → a.tagOk = false ∨ a.counter ≠ w.counter + 1) →
        ∀ k q r, asked (.sessionClose p a) refused ∧ asked (.keyDestroy p a k) refused ∧ asked (.dict p a k q none) refused ∧
          asked (.partProtect p a r) refused)) ∧
    (∀ a, tfind s.sec.answers p = some a → ∃ t, exec (.mailboxAnswer p) s = .next t ∧ t.get AGT_SEC_MB_RSP.DONE p = 1 ∧
      t.get AGT_SEC_MB_RSP.STATUS p = (if a.ok then 0 else Status.code .denied) ∧ t.get AGT_SEC_MB_RSP.LEN p = a.bytes.length % 2 ^ 12 ∧
      t.get AGT_SEC_MB_RSP.TICKET p = a.ticket % 2 ^ 32 ∧ tfind t.sec.answers p = none ∧
      t.mem = (s.poke (regSpace 4 (0x700000 + 0x2000 * p + 0x1000)) a.bytes).mem)

/-- What the owner of a session may do (R421, R423 to R430, R435, R438): protect and release partitions, import and destroy keys, load a
model, clear the defect list, and read objects and registers; and what port 0 may (R418, R430, R434): release, enable debug, fuse keys. -/
def Obligations.OwnerRequests : Prop :=
  ∀ (s : State) (p : Nat), s.clocked = true → s.portReached p = true → s.get AGT_SEC_MB_RSP.DONE p ≠ 0 →
    (s.sec.tickets.filter (fun k => k.port == p)).length < 8 →
    let asked (c : Instr) (r : State → MbAnswer → Prop) : Prop :=
      ∃ t a, exec c s = .next t ∧ tfind t.sec.answers p = some a ∧ a.ok = true ∧ t.get AGT_SEC_MB_RSP.DONE p = 0 ∧ r t a
    let ticket (op : Nat) (session : Option Nat) (args : List Nat) (t : State) (a : MbAnswer) : Prop :=
      a.ticket = s.sec.nextTicket % 2 ^ 32 ∧ { id := s.sec.nextTicket, port := p, op := op, session := session, args := args } ∈ t.sec.tickets
    (∀ (a : Auth) (w : Session), s.sec.sessions.find? (fun w => w.id == a.session && w.port == p) = some w → a.tagOk = true →
      a.counter = w.counter + 1 →
      asked (.sessionClose p a) (fun t _ => ∀ v ∈ t.sec.sessions, v.id ≠ w.id) ∧
      (∀ request, let q := leVal (request.take 1)
        s.protectOk q (protectBody request) = true → asked (.partProtect p a request) (fun t _ => (t.prot q).isProt = true ∧
          (t.prot q).clearing = false ∧ (t.prot q).owner = w.owner ∧ (t.prot q).base = (protectBody request).base ∧
          (t.prot q).size = (protectBody request).size ∧ (t.prot q).ways = (protectBody request).ways ∧ (t.prot q).keys = some s.sec.nextKey)) ∧
      (∀ q, (s.prot q).isProt = true → (s.prot q).clearing = false → (s.prot q).owner = w.owner →
        asked (.partRelease p (some a) q) (fun t an => ticket 7 (some w.id) [q] t an ∧ (t.prot q).clearing = true ∧ (t.prot q).keys = none ∧
          ∀ e ∈ t.sec.slots, e.2.part ≠ q)) ∧
      (∀ slot q blob, s.sec.debugNow = false → slot < 32 → q < 16 →
        asked (.keyImport p a slot q blob) (ticket 8 (some w.id) [slot, q, leVal (blob.take 192), w.owner])) ∧
      (∀ slot k, tfind s.sec.slots slot = some k → (s.prot k.part).owner = w.owner →
        asked (.keyDestroy p a slot) (fun t _ => tfind t.sec.slots slot = none) ∧
        (∀ imageId t3 src tags dst count, let x := s.prot k.part
          let n := nodeOf dst
          s.sec.debugNow = false → count ≠ 0 → count ≤ 1048576 → dst % 65536 = 0 → n < 4 →
          lget 0 x.base n * rangeUnit ≤ localOf dst → localOf dst + 65536 * count ≤ (lget 0 x.base n + lget 0 x.size n) * rangeUnit →
          asked (.modelLoad p a slot imageId t3 src tags dst count)
            (ticket 0x0A (some w.id) [slot, k.key, imageId, b2n t3, src, tags, dst, count, k.part]))) ∧
      (s.sec.nonce.isSome = true → s.sec.prots = [] → asked (.defectClear p a true) (ticket 0x0F (some w.id) [])) ∧
      (∀ idx sub, s.dictCheck 16 none true idx sub = none →
        asked (.dict p a idx sub none) (fun t an => ∃ u, s.sameBut [.regs, .sec] u ∧ an.bytes = u.objBytes true idx sub ∧
          s.sameBut [.regs, .sec] t)) ∧
      (∀ addrs, addrs.length ≤ 64 → (∀ x ∈ addrs, s.readable x = true) → (∀ x ∈ addrs, nodeOf x ≠ 4) →
        asked (.regread p a addrs) (fun _ an => an.bytes.length = 8 * addrs.length))) ∧
    (p = 0 →
      (∀ q, (s.prot q).isProt = true → (s.prot q).clearing = false →
        asked (.partRelease 0 none q) (fun t an => ticket 7 none [q] t an ∧ (t.prot q).clearing = true)) ∧
      (s.sec.nonce.isSome = true → s.fuses.debugDisable = false → s.guardedOn = false → s.fuses.debugCount ≠ 255 →
        asked (.debugEnable 0 true) (fun t _ => t.sec.sessions = [] ∧
          ∀ q, q < 16 → (s.prot q).isProt = true → (t.prot q).clearing = true ∧ ((s.prot q).clearing = false → (t.prot q).keys = none))) ∧
      (∀ slot revoke digest sigOk, s.fuseOk slot revoke sigOk = true →
        asked (.cfgkeyFuse 0 slot revoke digest sigOk) (ticket 0x0E none [slot, b2n revoke, digest % 2 ^ 384, b2n sigOk])))

/-- Tickets, timeouts and clears (R422, R423, R430 to R434). A ticketed operation ends with what it did; 1 s later its ticket is gone; a
session without a request for 10 s ends with its tickets. A released partition is cleared once no context of it is enabled: the areas of
each admitted die hold nothing listed, those of a die that is not admitted are deferred; the end leaves the newest clear record. -/
def Obligations.TicketsAndClears : Prop :=
  ∀ s : State, s.clocked = true →
    (∀ id ok k, s.sec.tickets.find? (fun v => v.id == id && v.ended.isNone) = some k →
      (s.ticketEffect k ok = none → exec (.ticketOpComplete id ok) s = .next s) ∧
      (∀ r, s.ticketEffect k ok = some r → ∃ t, exec (.ticketOpComplete id ok) s = .next t ∧
        (∀ v ∈ t.sec.tickets, v.id = id → v.ended = some r.2.1 ∧ v.result = r.2.2 ∧ v.endTime = s.time.now) ∧
        t.fuses = r.1.fuses ∧ t.mem = r.1.mem ∧ t.sec.sessions = r.1.sec.sessions ∧ t.sec.slots = r.1.sec.slots ∧
        (k.op = 2 → r.2 = (true, s.report (lget 0 k.args 0))) ∧
        (k.op = 4 → ok = true → s.sec.debugNow = false → s.sec.sessions.length < 4 →
          t.sec.sessions.length = s.sec.sessions.length + 1 ∧ r.2.1 = true) ∧
        (k.op = 0x0D → t.sec.debugNow = true ∧ t.fuses.debugCount = s.fuses.debugCount + 1)) ∧
      (k.op = 7 → (s.prot (lget 0 k.args 0)).clearing = true → s.ticketEffect k ok = none)) ∧
    (∀ id, ∃ t, exec (.ticketExpire id) s = .next t ∧ s.sameBut [.sec] t ∧ ∀ v, v ∈ t.sec.tickets ↔ v ∈ s.sec.tickets ∧
      ¬(v.id = id ∧ v.ended.isSome = true ∧ v.endTime + 4000000000 ≤ s.time.now)) ∧
    (∀ id w, s.sec.sessions.find? (fun v => v.id == id) = some w →
      (w.lastRequest + 40000000000 ≤ s.time.now → ∃ t, exec (.sessionTimeout id) s = .next t ∧ (∀ v ∈ t.sec.sessions, v.id ≠ id) ∧
        (∀ v ∈ t.sec.tickets, v.session ≠ some id) ∧ s.sameBut [.sec] t) ∧
      (s.time.now < w.lastRequest + 40000000000 → exec (.sessionTimeout id) s = .next s)) ∧
    (∀ q, (s.prot q).clearing = true → (s.prot q).filling = false → s.stepDone 6 = true →
      (∀ c, c < 512 → s.ctxPart c ≠ q ∨ s.ctxState c = 0) → ∃ t, exec (.clearStart q) s = .next t ∧ (t.prot q).filling = true ∧
        (∀ n, n < 4 → s.admitted n = true → ∀ a ∈ s.protAreas q n, ∀ c ∈ t.mem, ¬(glob n a.1 ≤ c.1 ∧ c.1 < glob n a.1 + a.2)) ∧
        (∀ n, n < 4 → s.admitted n = false → s.protAreas q n ≠ [] →
          ∃ d ∈ t.sec.deferrals, d.part = q ∧ d.die = n ∧ d.areas = s.protAreas q n)) ∧
    (∀ q, (s.prot q).filling = true → ∃ t, exec (.clearComplete q) s = .next t ∧ t.prot q = {} ∧ t.sec.clears.length ≤ 16 ∧
      t.sec.clearsTotal = (s.sec.clearsTotal + 1) % 2 ^ 32 ∧
      t.sec.clears.head? = some ⟨t.sec.clearsTotal, q, (s.prot q).outcome, (s.prot q).start, s.time.now, (s.prot q).owner⟩ ∧
      s.sameBut [.sec] t)
/-! ## Firmware and trims (chapter 21) -/

/-- Firmware (R489 to R491) and trims (R494). An image whose header passes begins to be written to the slot that does not run, which is not
valid meanwhile, and one that does not fails; read back well it is staged; ACTIVATE of a staged component 2 or 4, guarded outputs off or
latched, activates it; the reload runs the newest slot that verifies. A trim is stored, or held while its channel is ARMED. -/
def Obligations.FirmwareAndTrims : Prop :=
  ∀ (s : State) (i : Nat), s.clocked = true →
    let c := s.component i
    (∀ src image sigOk, src = .sideband ∨ src = .pf1 → 1 ≤ i → i ≤ 4 →
      let may := s.flashBusy = false ∧ c.state ≠ 1 ∧ c.state ≠ 3 ∧ (i = 3 → s.rollout = false)
      (may → s.imageOk i image sigOk = true → ∃ t f, exec (.image src i image sigOk) s = .next t ∧ (t.component i).state = 1 ∧
        (t.component i).writing = some f ∧ f.digest = sha384 (image.drop 256) ∧ f.image = image ∧ (t.component i).slot (1 - c.running) = none ∧
        (c.running ≤ 1 → (t.component i).runSlot = c.runSlot) ∧ s.sameBut [.bu] t) ∧
      (may → s.imageOk i image sigOk = false → ∃ t, exec (.image src i image sigOk) s = .next t ∧ (t.component i).state = 4 ∧
        (t.component i).slot0 = c.slot0 ∧ (t.component i).slot1 = c.slot1 ∧ s.sameBut [.bu] t) ∧
      (¬may → exec (.image src i image sigOk) s = .next s)) ∧
    (c.state = 1 →
      (∃ t, exec (.imageStageComplete i true) s = .next t ∧ (t.component i).state = 2 ∧ (t.component i).slot (1 - c.running) = c.writing ∧
        (i = 3 → t.bu.newer = 0) ∧ s.sameBut [.bu] t) ∧
      (∃ t, exec (.imageStageComplete i false) s = .next t ∧ (t.component i).state = 4 ∧ (t.component i).slot0 = c.slot0 ∧
        (t.component i).slot1 = c.slot1 ∧ s.sameBut [.bu] t)) ∧
    (let may := (i = 2 ∨ i = 4) ∧ c.state = 2 ∧ (s.guardedOn = true → s.latched = true)
     (may → ∃ t, exec (.activate .sideband i 1) s = .next t ∧ (t.component i).state = 3 ∧ s.sameBut [.bu] t) ∧
     (¬may → exec (.activate .sideband i 1) s = .next s)) ∧
    (c.state = 3 →
      ((c.slot c.newest).isSome = true → ∃ t, exec (.activateComplete i 0) s = .next t ∧ (t.component i).running = c.newest ∧
        (t.component i).loaded = true ∧ (c.newest ≠ c.running → (t.component i).state = 0)) ∧
      (c.slot0 = none → c.slot1 = none → ∃ t, exec (.activateComplete i 0) s = .next t ∧ (t.component i).state = 4 ∧
        (t.component i).loaded = false)) ∧
    (∀ src val, i < 32 → s.domOn 42 = true → s.reaches src 4 5 (32 * i + 0x10) = true →
      (s.rfxState i = 1 → ∃ t, exec (.brlChTrimWrite src i val) s = .next t ∧ (t.rfxChan i).heldTrim = some val ∧ s.sameBut [.rfx] t) ∧
      (s.rfxState i ≠ 1 → ∃ t, exec (.brlChTrimWrite src i val) s = .next t ∧ t.get BRL_CH_TRIM.HI_OFS i = bits val 0 6 ∧
        t.get BRL_CH_TRIM.LO_OFS i = bits val 6 6 ∧ t.get BRL_CH_TRIM.CB_OFS i = bits val 12 6 ∧ (t.rfxChan i).heldTrim = none ∧
        s.sameBut [.regs, .rfx] t))
end

