-- ==== Sys2Proof/Laws/Tab.lean ====
section
/-! SUPPORT. Sparse tables: what is read back, and that every operation keeps the keys rising. -/

namespace Sys2Proof.Machine

variable {α : Type}

theorem tsorted_cons {k : Nat} {v : α} {t : Tab α} : tsorted ((k, v) :: t) = true ↔ (∀ e ∈ t, k < e.1) ∧ tsorted t = true := by
  induction t generalizing k v with
  | nil => simp [tsorted]
  | cons a t ih =>
    obtain ⟨b, w⟩ := a
    simp only [tsorted, Bool.and_eq_true, decide_eq_true_eq, ih, List.mem_cons, forall_eq_or_imp]
    constructor
    · rintro ⟨h1, h2, h3⟩
      exact ⟨⟨h1, fun e he => Nat.lt_trans h1 (h2 e he)⟩, h2, h3⟩
    · rintro ⟨⟨h1, -⟩, h2, h3⟩
      exact ⟨h1, h2, h3⟩

theorem tsorted_filter {p : Nat × α → Bool} {t : Tab α} (h : tsorted t = true) : tsorted (t.filter p) = true := by
  induction t with
  | nil => rfl
  | cons a t ih =>
    obtain ⟨k, v⟩ := a
    rw [tsorted_cons] at h
    rw [List.filter_cons]
    split
    · rw [tsorted_cons]
      exact ⟨fun e he => h.1 e (List.mem_of_mem_filter he), ih h.2⟩
    · exact ih h.2

theorem tsorted_tkeep {p : Nat → Bool} {t : Tab α} (h : tsorted t = true) : tsorted (tkeep p t) = true := tsorted_filter h

theorem tdel_eq {t : Tab α} {k : Nat} : tdel t k = t.filter (fun e => decide (e.1 ≠ k)) := by
  induction t with
  | nil => rfl
  | cons a t ih =>
    obtain ⟨b, w⟩ := a
    by_cases h : b = k <;> simp [tdel, h, ih]

theorem tsorted_tdel {t : Tab α} {k : Nat} (h : tsorted t = true) : tsorted (tdel t k) = true := by
  rw [tdel_eq]
  exact tsorted_filter h

theorem mem_tset {t : Tab α} {k : Nat} {v : α} {e : Nat × α} (h : e ∈ tset t k v) : e = (k, v) ∨ e ∈ t := by
  induction t with
  | nil => simpa [tset] using h
  | cons a t ih =>
    obtain ⟨b, w⟩ := a
    simp only [tset] at h
    split at h
    · simpa using h
    · split at h
      · rcases List.mem_cons.1 h with h | h
        · exact .inl h
        · exact .inr (List.mem_cons_of_mem _ h)
      · rcases List.mem_cons.1 h with h | h
        · exact .inr (h ▸ List.mem_cons_self)
        · rcases ih h with h | h
          · exact .inl h
          · exact .inr (List.mem_cons_of_mem _ h)

theorem tsorted_tset {t : Tab α} {k : Nat} {v : α} (h : tsorted t = true) : tsorted (tset t k v) = true := by
  induction t with
  | nil => rfl
  | cons a t ih =>
    obtain ⟨b, w⟩ := a
    have hb := tsorted_cons.1 h
    simp only [tset]
    split
    · rename_i hk
      rw [tsorted_cons]
      refine ⟨fun e he => ?_, h⟩
      rcases List.mem_cons.1 he with rfl | he
      · exact hk
      · exact Nat.lt_trans hk (hb.1 e he)
    · rename_i hk
      split
      · rename_i hb'
        subst hb'
        exact tsorted_cons.2 hb
      · rename_i hne
        rw [tsorted_cons]
        refine ⟨fun e he => ?_, ih hb.2⟩
        rcases mem_tset he with rfl | he
        · show b < k
          omega
        · exact hb.1 e he

theorem tsorted_tput [DecidableEq α] {d : α} {t : Tab α} {k : Nat} {v : α} (h : tsorted t = true) : tsorted (tput d t k v) = true := by
  unfold tput
  split
  · exact tsorted_tdel h
  · exact tsorted_tset h

/-! ## Reading back -/

theorem tget_of_lt {d : α} {t : Tab α} {k : Nat} (h : ∀ e ∈ t, k < e.1) : tget d t k = d := by
  induction t with
  | nil => rfl
  | cons a t ih =>
    obtain ⟨b, w⟩ := a
    have hb : k < b := h (b, w) List.mem_cons_self
    rw [tget, if_neg (by omega)]
    exact ih (fun e he => h e (List.mem_cons_of_mem _ he))

@[simp] theorem tget_tset_self {d v : α} {t : Tab α} {k : Nat} : tget d (tset t k v) k = v := by
  induction t with
  | nil => simp [tset, tget]
  | cons a t ih =>
    obtain ⟨b, w⟩ := a
    simp only [tset]
    split
    · simp [tget]
    · split
      · simp [tget]
      · rename_i hne
        simp [tget, hne, ih]

theorem tget_tset_ne {d v : α} {t : Tab α} {k j : Nat} (h : j ≠ k) : tget d (tset t k v) j = tget d t j := by
  induction t with
  | nil => simp [tset, tget, Ne.symm h]
  | cons a t ih =>
    obtain ⟨b, w⟩ := a
    simp only [tset]
    split
    · simp [tget, Ne.symm h]
    · split
      · rename_i hb
        subst hb
        simp [tget, Ne.symm h]
      · simp [tget, ih]

theorem tget_tdel_self {d : α} {t : Tab α} {k : Nat} : tget d (tdel t k) k = d := by
  induction t with
  | nil => rfl
  | cons a t ih =>
    obtain ⟨b, w⟩ := a
    by_cases h : b = k <;> simp [tdel, tget, h, ih]

theorem tget_tdel_ne {d : α} {t : Tab α} {k j : Nat} (h : j ≠ k) : tget d (tdel t k) j = tget d t j := by
  induction t with
  | nil => rfl
  | cons a t ih =>
    obtain ⟨b, w⟩ := a
    by_cases hb : b = k
    · subst hb
      simp [tdel, tget, ih, Ne.symm h]
    · simp [tdel, tget, hb, ih]

@[simp] theorem tget_tput_self [DecidableEq α] {d v : α} {t : Tab α} {k : Nat} : tget d (tput d t k v) k = v := by
  unfold tput
  split
  · rename_i h
    rw [tget_tdel_self, h]
  · exact tget_tset_self

theorem tget_tput_ne [DecidableEq α] {d c v : α} {t : Tab α} {k j : Nat} (h : j ≠ k) : tget c (tput d t k v) j = tget c t j := by
  unfold tput
  split
  · exact tget_tdel_ne h
  · exact tget_tset_ne h

theorem tget_filter {d : α} {p : Nat → Bool} {t : Tab α} {k : Nat} (h : p k = true) :
    tget d (t.filter (fun e => p e.1)) k = tget d t k := by
  induction t with
  | nil => rfl
  | cons a t ih =>
    obtain ⟨b, w⟩ := a
    rw [List.filter_cons]
    by_cases hb : b = k
    · subst hb
      simp [h, tget]
    · split
      · simp [tget, hb, ih]
      · simp [tget, hb, ih]

theorem tfind_tset_self {v : α} {t : Tab α} {k : Nat} : tfind (tset t k v) k = some v := by
  induction t with
  | nil => simp [tset, tfind]
  | cons a t ih =>
    obtain ⟨b, w⟩ := a
    simp only [tset]
    split
    · simp [tfind]
    · split
      · simp [tfind]
      · rename_i hne
        simp [tfind, hne, ih]

theorem tfind_tset_ne {v : α} {t : Tab α} {k j : Nat} (h : j ≠ k) : tfind (tset t k v) j = tfind t j := by
  induction t with
  | nil => simp [tset, tfind, Ne.symm h]
  | cons a t ih =>
    obtain ⟨b, w⟩ := a
    simp only [tset]
    split
    · simp [tfind, Ne.symm h]
    · split
      · rename_i hb
        subst hb
        simp [tfind, Ne.symm h]
      · simp [tfind, ih]

theorem tfind_tkeep {p : Nat → Bool} {t : Tab α} {k : Nat} (h : p k = true) : tfind (tkeep p t) k = tfind t k := by
  unfold tkeep
  induction t with
  | nil => rfl
  | cons a t ih =>
    obtain ⟨b, w⟩ := a
    rw [List.filter_cons]
    by_cases hb : b = k
    · subst hb
      simp [h, tfind]
    · split
      · simp [tfind, hb, ih]
      · simp [tfind, hb, ih]

/-! ## Memory (the operations of Machine/Ops.lean) -/

theorem memory_wf_iff {blank : Nat → Byte} {m : List Host.Cell} :
    Memory.wf blank m = true ↔ tsorted m = true ∧ ∀ c ∈ m, c.2 ≠ blank c.1 := by
  simp [Memory.wf]

theorem memory_wf_filter {blank : Nat → Byte} {p : Host.Cell → Bool} {m : List Host.Cell} (h : Memory.wf blank m = true) :
    Memory.wf blank (m.filter p) = true := by
  rw [memory_wf_iff] at *
  exact ⟨tsorted_filter h.1, fun c hc => h.2 c (List.mem_of_mem_filter hc)⟩

/-- Memory stays canonical when the bytes that unlisted addresses read as change only where nothing is listed. -/
theorem memory_wf_congr {blank blank' : Nat → Byte} {m : List Host.Cell} (h : Memory.wf blank m = true)
    (e : ∀ c ∈ m, blank' c.1 = blank c.1) : Memory.wf blank' m = true := by
  rw [memory_wf_iff] at *
  exact ⟨h.1, fun c hc => by rw [e c hc]; exact h.2 c hc⟩

theorem mem_cellsOf {blank : Nat → Byte} {b : List Byte} {a : Nat} {c : Host.Cell} (h : c ∈ cellsOf blank a b) :
    a ≤ c.1 ∧ c.1 < a + b.length ∧ c.2 ≠ blank c.1 := by
  induction b generalizing a with
  | nil => simp [cellsOf] at h
  | cons x b ih =>
    simp only [cellsOf] at h
    split at h
    · obtain ⟨h1, h2, h3⟩ := ih h
      simp only [List.length_cons]
      exact ⟨by omega, by omega, h3⟩
    · rename_i hx
      rcases List.mem_cons.1 h with rfl | h
      · simp only [List.length_cons]
        exact ⟨Nat.le_refl _, by omega, hx⟩
      · obtain ⟨h1, h2, h3⟩ := ih h
        simp only [List.length_cons]
        exact ⟨by omega, by omega, h3⟩

theorem tsorted_cellsOf {blank : Nat → Byte} {b : List Byte} {a : Nat} : tsorted (cellsOf blank a b) = true := by
  induction b generalizing a with
  | nil => rfl
  | cons x b ih =>
    simp only [cellsOf]
    split
    · exact ih
    · rw [tsorted_cons]
      exact ⟨fun e he => by have := mem_cellsOf he; omega, ih⟩

theorem tsorted_append {t u : Tab α} (ht : tsorted t = true) (hu : tsorted u = true) (h : ∀ a ∈ t, ∀ b ∈ u, a.1 < b.1) :
    tsorted (t ++ u) = true := by
  induction t with
  | nil => exact hu
  | cons a t ih =>
    obtain ⟨k, v⟩ := a
    rw [tsorted_cons] at ht
    rw [List.cons_append, tsorted_cons]
    refine ⟨fun e he => ?_, ih ht.2 (fun a ha => h a (List.mem_cons_of_mem _ ha))⟩
    rcases List.mem_append.1 he with he | he
    · exact ht.1 e he
    · exact h (k, v) List.mem_cons_self e he

/-- A write keeps memory canonical. -/
theorem memory_wf_write {blank : Nat → Byte} {m : List Host.Cell} {a : Nat} {b : List Byte} (h : Memory.wf blank m = true) :
    Memory.wf blank (cellsWrite blank m a b) = true := by
  rw [memory_wf_iff] at *
  unfold cellsWrite
  refine ⟨tsorted_append (tsorted_append (tsorted_filter h.1) tsorted_cellsOf ?_) (tsorted_filter h.1) ?_, ?_⟩
  · intro x hx y hy
    have h1 : x.1 < a := by simpa using (List.mem_filter.1 hx).2
    have := mem_cellsOf hy
    omega
  · intro x hx y hy
    have h2 : a + b.length ≤ y.1 := by simpa using (List.mem_filter.1 hy).2
    rcases List.mem_append.1 hx with hx | hx
    · have h1 : x.1 < a := by simpa using (List.mem_filter.1 hx).2
      omega
    · have := mem_cellsOf hx
      omega
  · intro c hc
    rcases List.mem_append.1 hc with hc | hc
    · rcases List.mem_append.1 hc with hc | hc
      · exact h.2 c (List.mem_of_mem_filter hc)
      · exact (mem_cellsOf hc).2.2
    · exact h.2 c (List.mem_of_mem_filter hc)

/-! ### Reading runs of bytes back -/

theorem tget_append_of_notin {d : α} {t u : Tab α} {k : Nat} (h : ∀ e ∈ t, e.1 ≠ k) : tget d (t ++ u) k = tget d u k := by
  induction t with
  | nil => rfl
  | cons e t ih =>
    obtain ⟨i, v⟩ := e
    rw [List.cons_append]
    simp only [tget]
    rw [if_neg (h _ List.mem_cons_self), ih (fun e he => h e (List.mem_cons_of_mem _ he))]

theorem tget_notin {d : α} {t : Tab α} {k : Nat} (h : ∀ e ∈ t, e.1 ≠ k) : tget d t k = d := by
  have := tget_append_of_notin (u := []) (d := d) h
  simpa [tget] using this

theorem tget_append_left {d : α} {t u : Tab α} {k : Nat} (h : ∀ e ∈ u, e.1 ≠ k) : tget d (t ++ u) k = tget d t k := by
  induction t with
  | nil => simpa [tget] using tget_notin h
  | cons e t ih =>
    obtain ⟨i, v⟩ := e
    rw [List.cons_append]
    simp only [tget]
    split
    · rfl
    · exact ih

theorem tget_cellsOf {blank : Nat → Byte} {b : List Byte} {a k : Nat} (hk : k < b.length) :
    tget (blank (a + k)) (cellsOf blank a b) (a + k) = b.getD k 0 := by
  induction b generalizing a k with
  | nil => cases hk
  | cons x b ih =>
    have hn : ∀ e ∈ cellsOf blank (a + 1) b, e.1 ≠ a := fun e he => by have := mem_cellsOf he; omega
    simp only [cellsOf]
    cases k with
    | zero =>
      split
      · rename_i h; rw [Nat.add_zero, tget_notin hn, h]; rfl
      · simp [tget]
    | succ k =>
      have e : a + (k + 1) = a + 1 + k := by omega
      have := ih (a := a + 1) (k := k) (by simpa using hk)
      split
      · rw [e, this]; simp
      · simp only [tget]
        rw [if_neg (by omega), e, this]; simp

theorem tget_cellsWrite_in {blank : Nat → Byte} {m : List Host.Cell} {b : List Byte} {p k : Nat} (hk : k < b.length) :
    tget (blank (p + k)) (cellsWrite blank m p b) (p + k) = b.getD k 0 := by
  unfold cellsWrite
  rw [tget_append_left, tget_append_of_notin, tget_cellsOf hk]
  · intro e he; have := (List.mem_filter.1 he).2; simp at this; omega
  · intro e he; have := (List.mem_filter.1 he).2; simp at this; omega

theorem tget_cellsWrite_out {blank : Nat → Byte} {m : List Host.Cell} {b : List Byte} {p a : Nat} {d : Byte} (h : a < p ∨ p + b.length ≤ a) :
    tget d (cellsWrite blank m p b) a = tget d m a := by
  unfold cellsWrite
  rcases h with h | h
  · rw [tget_append_left, tget_append_left, tget_filter (p := fun i => decide (i < p)) (by simpa using h)]
    · intro e he; have := mem_cellsOf he; omega
    · intro e he; have := (List.mem_filter.1 he).2; simp at this; omega
  · rw [tget_append_of_notin, tget_filter (p := fun i => decide (p + b.length ≤ i)) (by simpa using h)]
    intro e he
    rcases List.mem_append.1 he with he | he
    · have := (List.mem_filter.1 he).2; simp at this; omega
    · have := mem_cellsOf he; omega
end Sys2Proof.Machine
end

