-- ==== Sys2Proof/Laws/Within.lean ====
section
/-! SUPPORT. What a change of one part of the state keeps: `Within k s t` says that `t` comes from `s` by changes of the parts in the
set `k` alone, with the queue as it was, nothing undone and every canonical form kept. -/

namespace Sys2Proof.Machine

/-- The place of a part in a set of parts, held as a mask. -/
def Part.num : Part → Nat
  | .free => 0
  | .regs => 1
  | .dict => 2
  | .blobs => 3
  | .mem => 4
  | .scrambled => 5
  | .hostMem => 6
  | .poison => 7
  | .t1 => 8
  | .plru => 9
  | .out => 10
  | .pkg => 11
  | .sched => 12
  | .host => 13
  | .time => 14
  | .fabric => 15
  | .fuses => 16
  | .sec => 17
  | .kv => 18
  | .seq => 19
  | .geo => 20
  | .rings => 21
  | .ing => 22
  | .rfx => 23
  | .cmp => 24
  | .ecat => 25
  | .dic => 26
  | .pwr => 27
  | .bu => 28

/-- One set of parts lies within another. -/
def Sub (a b : Nat) : Prop := a &&& b = a

theorem Sub.trans {a b c : Nat} (h : Sub a b) (k : Sub b c) : Sub a c := by
  unfold Sub at *
  rw [← h, Nat.land_assoc, k]

theorem Sub.of {a b c : Nat} (k : Sub b c) (h : Sub a b) : Sub a c := h.trans k

theorem Sub.test {a b i : Nat} (h : Sub a b) (hb : b.testBit i = false) : a.testBit i = false := by
  unfold Sub at h
  rw [← h, Nat.testBit_land, hb, Bool.and_false]

theorem Part.same_refl (p : Part) (s : State) : p.same s s := by cases p <;> rfl

theorem Part.same_trans {p : Part} {r s t : State} (h : p.same r s) (k : p.same s t) : p.same r t := by
  cases p <;> exact Eq.trans k h

theorem Fuses.kept_refl (a : Fuses) : a.kept a := ⟨rfl, rfl, rfl, rfl, rfl, Nat.le_refl _, fun _ h => h⟩

theorem Fuses.kept_trans {a b c : Fuses} (h : a.kept b) (k : b.kept c) : a.kept c := by
  obtain ⟨h1, h2, h3, h4, h5, h6, h7⟩ := h
  obtain ⟨k1, k2, k3, k4, k5, k6, k7⟩ := k
  exact ⟨k1.trans h1, k2.trans h2, k3.trans h3, k4.trans h4, k5.trans h5, Nat.le_trans h6 k6, fun i x => k7 i (h7 i x)⟩

theorem State.kept_refl (s : State) : s.kept s := ⟨Nat.le_refl _, List.prefix_refl _, s.fuses.kept_refl⟩

theorem State.kept_trans {r s t : State} (h : r.kept s) (k : s.kept t) : r.kept t :=
  ⟨Nat.le_trans h.1 k.1, h.2.1.trans k.2.1, Fuses.kept_trans h.2.2 k.2.2⟩

/-- `t` comes from `r` by changes of the parts in `k` alone. -/
structure Within (k : Nat) (r t : State) : Prop where
  queue : t.pending = r.pending
  kept : r.kept t
  wf : r.wf = true → t.wf = true
  parts : ∀ p : Part, k.testBit p.num = false → p.same r t

theorem Within.refl (k : Nat) (s : State) : Within k s s := ⟨rfl, s.kept_refl, id, fun p _ => p.same_refl s⟩

theorem Within.trans {k : Nat} {r s t : State} (h : Within k r s) (g : Within k s t) : Within k r t :=
  ⟨g.queue.trans h.queue, State.kept_trans h.kept g.kept, fun w => g.wf (h.wf w), fun p hp => Part.same_trans (h.parts p hp) (g.parts p hp)⟩

theorem Within.mono {j k : Nat} {r t : State} (hk : Sub j k) (h : Within j r t) : Within k r t :=
  ⟨h.queue, h.kept, h.wf, fun p hp => h.parts p (hk.test hp)⟩

/-- Of a change of one part, only what concerns that part is left to show. -/
theorem Within.change {m k : Nat} {r t u : State} (hk : Sub m k) (h : Within k r t) (hq : u.pending = t.pending) (hkept : t.kept u)
    (hwf : t.wf = true → u.wf = true) (hp : ∀ p : Part, m.testBit p.num = false → p.same t u) : Within k r u :=
  h.trans ((⟨hq, hkept, hwf, hp⟩ : Within m t u).mono hk)

variable {k : Nat} {r t : State}

theorem Within.plru (hk : Sub 512 k) (h : Within k r t) (v) : Within k r { t with plru := v } :=
  .change hk h rfl t.kept_refl id (by intro p hp; cases p <;> first | rfl | exact absurd hp (by decide))

theorem Within.pkg (hk : Sub 2048 k) (h : Within k r t) (v) : Within k r { t with pkg := v } :=
  .change hk h rfl t.kept_refl id (by intro p hp; cases p <;> first | rfl | exact absurd hp (by decide))

theorem Within.sched (hk : Sub 4096 k) (h : Within k r t) (v) : Within k r { t with sched := v } :=
  .change hk h rfl t.kept_refl id (by intro p hp; cases p <;> first | rfl | exact absurd hp (by decide))

theorem Within.host (hk : Sub 8192 k) (h : Within k r t) (v) : Within k r { t with host := v } :=
  .change hk h rfl t.kept_refl id (by intro p hp; cases p <;> first | rfl | exact absurd hp (by decide))

theorem Within.time (hk : Sub 16384 k) (h : Within k r t) (v) : Within k r { t with time := v } :=
  .change hk h rfl t.kept_refl id (by intro p hp; cases p <;> first | rfl | exact absurd hp (by decide))

theorem Within.fabric (hk : Sub 32768 k) (h : Within k r t) (v) : Within k r { t with fabric := v } :=
  .change hk h rfl t.kept_refl id (by intro p hp; cases p <;> first | rfl | exact absurd hp (by decide))

theorem Within.sec (hk : Sub 131072 k) (h : Within k r t) (v) : Within k r { t with sec := v } :=
  .change hk h rfl t.kept_refl id (by intro p hp; cases p <;> first | rfl | exact absurd hp (by decide))

theorem Within.kv (hk : Sub 262144 k) (h : Within k r t) (v) : Within k r { t with kv := v } :=
  .change hk h rfl t.kept_refl id (by intro p hp; cases p <;> first | rfl | exact absurd hp (by decide))

theorem Within.seq (hk : Sub 524288 k) (h : Within k r t) (v) : Within k r { t with seq := v } :=
  .change hk h rfl t.kept_refl id (by intro p hp; cases p <;> first | rfl | exact absurd hp (by decide))

theorem Within.geo (hk : Sub 1048576 k) (h : Within k r t) (v) : Within k r { t with geo := v } :=
  .change hk h rfl t.kept_refl id (by intro p hp; cases p <;> first | rfl | exact absurd hp (by decide))

theorem Within.rings (hk : Sub 2097152 k) (h : Within k r t) (v) : Within k r { t with rings := v } :=
  .change hk h rfl t.kept_refl id (by intro p hp; cases p <;> first | rfl | exact absurd hp (by decide))

theorem Within.ing (hk : Sub 4194304 k) (h : Within k r t) (v) : Within k r { t with ing := v } :=
  .change hk h rfl t.kept_refl id (by intro p hp; cases p <;> first | rfl | exact absurd hp (by decide))

theorem Within.rfx (hk : Sub 8388608 k) (h : Within k r t) (v) : Within k r { t with rfx := v } :=
  .change hk h rfl t.kept_refl id (by intro p hp; cases p <;> first | rfl | exact absurd hp (by decide))

theorem Within.cmp (hk : Sub 16777216 k) (h : Within k r t) (v) : Within k r { t with cmp := v } :=
  .change hk h rfl t.kept_refl id (by intro p hp; cases p <;> first | rfl | exact absurd hp (by decide))

theorem Within.ecat (hk : Sub 33554432 k) (h : Within k r t) (v) : Within k r { t with ecat := v } :=
  .change hk h rfl t.kept_refl id (by intro p hp; cases p <;> first | rfl | exact absurd hp (by decide))

theorem Within.dic (hk : Sub 67108864 k) (h : Within k r t) (v) : Within k r { t with dic := v } :=
  .change hk h rfl t.kept_refl id (by intro p hp; cases p <;> first | rfl | exact absurd hp (by decide))

theorem Within.pwr (hk : Sub 134217728 k) (h : Within k r t) (v) : Within k r { t with pwr := v } :=
  .change hk h rfl t.kept_refl id (by intro p hp; cases p <;> first | rfl | exact absurd hp (by decide))

theorem Within.bu (hk : Sub 268435456 k) (h : Within k r t) (v) : Within k r { t with bu := v } :=
  .change hk h rfl t.kept_refl id (by intro p hp; cases p <;> first | rfl | exact absurd hp (by decide))

theorem Within.free (hk : Sub 1 k) (h : Within k r t) (n : Nat) : Within k r { t with freeCount := t.freeCount + n } :=
  .change hk h rfl ⟨Nat.le_add_right _ _, List.prefix_refl _, t.fuses.kept_refl⟩ id
    (by intro p hp; cases p <;> first | rfl | exact absurd hp (by decide))

end Sys2Proof.Machine
end

