-- ==== Sys2Proof/Laws/Ops.lean ====
section
/-! SUPPORT. What each operation of Machine/Ops.lean that changes a table may do: the part it changes, and that the table keeps its
canonical form. -/

namespace Sys2Proof.Machine

theorem State.wf_iff {s : State} : s.wf = true ↔
    Memory.wf s.blank s.mem = true ∧ Memory.wf hostBlank s.hostMem = true ∧ tsorted s.regs = true ∧ tsorted s.dict = true ∧
    tsorted s.blobs = true ∧ sectorsWf s.poison = true ∧ ∀ e ∈ s.t1, e.2.wf = true := by
  simp [State.wf, and_assoc]

variable {k : Nat} {r s t : State}

/-- The canonical form of a state that differs in one table at most. -/
theorem State.wf_of {s t : State} (h : s.wf = true) (m : Memory.wf s.blank s.mem = true → Memory.wf t.blank t.mem = true)
    (hm : Memory.wf hostBlank s.hostMem = true → Memory.wf hostBlank t.hostMem = true)
    (r : tsorted s.regs = true → tsorted t.regs = true) (d : tsorted s.dict = true → tsorted t.dict = true)
    (b : tsorted s.blobs = true → tsorted t.blobs = true) (p : sectorsWf s.poison = true → sectorsWf t.poison = true)
    (l : (∀ e ∈ s.t1, e.2.wf = true) → ∀ e ∈ t.t1, e.2.wf = true) : t.wf = true := by
  rw [State.wf_iff] at *
  exact ⟨m h.1, hm h.2.1, r h.2.2.1, d h.2.2.2.1, b h.2.2.2.2.1, p h.2.2.2.2.2.1, l h.2.2.2.2.2.2⟩

/-! ## Registers and objects -/

theorem Within.regsTo (hk : Sub 2 k) (h : Within k r t) {v : Tab Nat} (hv : tsorted t.regs = true → tsorted v = true) :
    Within k r { t with regs := v } :=
  .change hk h rfl t.kept_refl (fun w => State.wf_of w id id hv id id id id)
    (by intro p hp; cases p <;> first | rfl | exact absurd hp (by decide))

theorem Within.dictTo (hk : Sub 4 k) (h : Within k r t) {v : Tab Nat} (hv : tsorted t.dict = true → tsorted v = true) :
    Within k r { t with dict := v } :=
  .change hk h rfl t.kept_refl (fun w => State.wf_of w id id id hv id id id)
    (by intro p hp; cases p <;> first | rfl | exact absurd hp (by decide))

theorem Within.blobsTo (hk : Sub 8 k) (h : Within k r t) {v : Tab (List Byte)} (hv : tsorted t.blobs = true → tsorted v = true) :
    Within k r { t with blobs := v } :=
  .change hk h rfl t.kept_refl (fun w => State.wf_of w id id id id hv id id)
    (by intro p hp; cases p <;> first | rfl | exact absurd hp (by decide))

theorem State.setO_within (hk : Sub 2 k) (h : Within k r s) (f : Fld) (n i v : Nat) : Within k r (s.setO f n i v) :=
  .regsTo hk h tsorted_tput

theorem State.setObj_within (hk : Sub 4 k) (h : Within k r s) (d idx sub v : Nat) : Within k r (s.setObj d idx sub v) :=
  .dictTo hk h tsorted_tput

theorem State.setBlob_within (hk : Sub 8 k) (h : Within k r s) (idx sub : Nat) (b : List Byte) : Within k r (s.setBlob idx sub b) :=
  .blobsTo hk h tsorted_tput

/-! ## Memory -/

theorem Within.memTo (hk : Sub 16 k) (h : Within k r t) {v : List Host.Cell}
    (hv : Memory.wf t.blank t.mem = true → Memory.wf t.blank v = true) : Within k r { t with mem := v } :=
  .change hk h rfl t.kept_refl (fun w => State.wf_of w hv id id id id id id)
    (by intro p hp; cases p <;> first | rfl | exact absurd hp (by decide))

theorem State.poke_within (hk : Sub 16 k) (h : Within k r s) (p : Nat) (b : List Byte) : Within k r (s.poke p b) :=
  .memTo hk h memory_wf_write

theorem Within.memFilter (hk : Sub 16 k) (h : Within k r t) (p : Host.Cell → Bool) : Within k r { t with mem := t.mem.filter p } :=
  .memTo hk h memory_wf_filter

theorem Within.hostMemTo (hk : Sub 64 k) (h : Within k r t) {v : List Host.Cell}
    (hv : Memory.wf hostBlank t.hostMem = true → Memory.wf hostBlank v = true) : Within k r { t with hostMem := v } :=
  .change hk h rfl t.kept_refl (fun w => State.wf_of w id hv id id id id id)
    (by intro p hp; cases p <;> first | rfl | exact absurd hp (by decide))

theorem State.hostWrite_within (hk : Sub 64 k) (h : Within k r s) (a : Nat) (b : List Byte) : Within k r (s.hostWrite a b) :=
  .hostMemTo hk h memory_wf_write

/-! ## Poison -/

theorem sectorsWf_iff {l : List Nat} : sectorsWf l = true ↔ l.Pairwise (· < ·) ∧ ∀ a ∈ l, a % 256 = 0 := by
  induction l with
  | nil => simp [sectorsWf]
  | cons a l ih =>
    cases l with
    | nil => simp [sectorsWf]
    | cons b l =>
      simp only [sectorsWf, Bool.and_eq_true, ih, beq_iff_eq, decide_eq_true_eq, List.pairwise_cons, List.mem_cons, forall_eq_or_imp]
      constructor
      · rintro ⟨⟨h1, h2⟩, ⟨h3, h4⟩, h5⟩
        exact ⟨⟨⟨h2, fun c hc => Nat.lt_trans h2 (h3 c hc)⟩, h3, h4⟩, h1, h5⟩
      · rintro ⟨⟨⟨h2, -⟩, h3, h4⟩, h1, h5⟩
        exact ⟨⟨h1, h2⟩, ⟨h3, h4⟩, h5⟩

theorem sectorsWf_filter {p : Nat → Bool} {l : List Nat} (h : sectorsWf l = true) : sectorsWf (l.filter p) = true := by
  rw [sectorsWf_iff] at *
  exact ⟨h.1.filter p, fun a ha => h.2 a (List.mem_of_mem_filter ha)⟩

theorem mem_sinsert {l : List Nat} {a b : Nat} (h : b ∈ sinsert l a) : b = a ∨ b ∈ l := by
  induction l with
  | nil => simpa [sinsert] using h
  | cons x l ih =>
    simp only [sinsert] at h
    split at h
    · simpa using h
    · split at h
      · exact .inr h
      · rcases List.mem_cons.1 h with rfl | h
        · exact .inr List.mem_cons_self
        · exact (ih h).imp id (List.mem_cons_of_mem _)

theorem pairwise_sinsert {l : List Nat} {a : Nat} (h : l.Pairwise (· < ·)) : (sinsert l a).Pairwise (· < ·) := by
  induction l with
  | nil => simp [sinsert]
  | cons x l ih =>
    have hx := List.pairwise_cons.1 h
    simp only [sinsert]
    split
    · rename_i hax
      refine List.pairwise_cons.2 ⟨fun b hb => ?_, h⟩
      rcases List.mem_cons.1 hb with rfl | hb
      · exact hax
      · exact Nat.lt_trans hax (hx.1 b hb)
    · split
      · exact h
      · refine List.pairwise_cons.2 ⟨fun b hb => ?_, ih hx.2⟩
        rcases mem_sinsert hb with rfl | hb
        · omega
        · exact hx.1 b hb

theorem Within.poisonTo (hk : Sub 128 k) (h : Within k r t) {v : List Nat} (hv : sectorsWf t.poison = true → sectorsWf v = true) :
    Within k r { t with poison := v } :=
  .change hk h rfl t.kept_refl (fun w => State.wf_of w id id id id id hv id)
    (by intro p hp; cases p <;> first | rfl | exact absurd hp (by decide))

theorem Within.poisonFilter (hk : Sub 128 k) (h : Within k r t) (p : Nat → Bool) : Within k r { t with poison := t.poison.filter p } :=
  .poisonTo hk h sectorsWf_filter

theorem State.setPoison_within (hk : Sub 128 k) (h : Within k r s) (p : Nat) (b : Bool) : Within k r (s.setPoison p b) := by
  refine .poisonTo hk h (fun w => ?_)
  cases b
  · exact sectorsWf_filter w
  · simp only [if_true]
    rw [sectorsWf_iff] at *
    refine ⟨pairwise_sinsert w.1, fun a ha => ?_⟩
    rcases mem_sinsert ha with rfl | ha
    · exact Nat.mul_mod_left _ _
    · exact w.2 a ha

/-! ## T1 lines -/

theorem Within.t1To (hk : Sub 256 k) (h : Within k r t) {v : Tab T1Line}
    (hv : (∀ e ∈ t.t1, e.2.wf = true) → ∀ e ∈ v, e.2.wf = true) : Within k r { t with t1 := v } :=
  .change hk h rfl t.kept_refl (fun w => State.wf_of w id id id id id id hv)
    (by intro p hp; cases p <;> first | rfl | exact absurd hp (by decide))

theorem Within.t1Filter (hk : Sub 256 k) (h : Within k r t) (p : Nat × T1Line → Bool) : Within k r { t with t1 := t.t1.filter p } :=
  .t1To hk h (fun w e he => w e (List.mem_of_mem_filter he))

theorem Within.t1Set (hk : Sub 256 k) (h : Within k r t) (i : Nat) (l : T1Line) (hl : (∀ e ∈ t.t1, e.2.wf = true) → l.wf = true) :
    Within k r { t with t1 := tset t.t1 i l } := by
  refine .t1To hk h (fun w e he => ?_)
  rcases mem_tset he with rfl | he
  · exact hl w
  · exact w e he

theorem State.dropLine_within (hk : Sub 256 k) (h : Within k r s) (node way set : Nat) : Within k r (s.dropLine node way set) := by
  unfold State.dropLine
  rw [tdel_eq]
  exact .t1Filter hk h _

theorem mem_of_tfind {α : Type} {t : Tab α} {i : Nat} {v : α} (h : tfind t i = some v) : (i, v) ∈ t := by
  induction t with
  | nil => simp [tfind] at h
  | cons a t ih =>
    obtain ⟨b, w⟩ := a
    simp only [tfind] at h
    split at h
    · rename_i hb
      subst hb
      cases h
      exact List.mem_cons_self
    · exact List.mem_cons_of_mem _ (ih h)

theorem setBit_eq (v i : Nat) (b : Bool) : setBit v i b = 2 ^ i * (v / 2 ^ i - v / 2 ^ i % 2 + b2n b) + v % 2 ^ i := by
  have h := Nat.div_add_mod v (2 ^ i)
  have hm : v / 2 ^ i % 2 ≤ v / 2 ^ i := Nat.mod_le _ _
  have hb : (if b then 2 ^ i else 0) = 2 ^ i * b2n b := by cases b <;> simp [b2n]
  unfold setBit
  rw [hb, Nat.mul_add, Nat.mul_sub, Nat.mul_comm (v / 2 ^ i % 2)]
  have hle : 2 ^ i * (v / 2 ^ i % 2) ≤ 2 ^ i * (v / 2 ^ i) := Nat.mul_le_mul_left _ hm
  omega

theorem testBit_setBit (v i j : Nat) (b : Bool) : (setBit v i b).testBit j = if j = i then b else v.testBit j := by
  have hv : v.testBit j = (2 ^ i * (v / 2 ^ i) + v % 2 ^ i).testBit j := by rw [Nat.div_add_mod]
  have hr : v % 2 ^ i < 2 ^ i := Nat.mod_lt _ (Nat.two_pow_pos i)
  rw [setBit_eq, hv, Nat.testBit_two_pow_mul_add _ hr, Nat.testBit_two_pow_mul_add _ hr]
  rcases Nat.lt_trichotomy j i with h | rfl | h
  · simp [h, Nat.ne_of_lt h]
  · simp only [Nat.lt_irrefl, if_false, if_true, Nat.sub_self]
    cases b <;> simp [b2n, Nat.testBit_zero] <;> omega
  · obtain ⟨m, rfl⟩ : ∃ m, j = i + (m + 1) := ⟨j - i - 1, by omega⟩
    have e : i + (m + 1) - i = m + 1 := by omega
    rw [if_neg (by omega), if_neg (by omega), if_neg (by omega), e, Nat.testBit_succ, Nat.testBit_succ]
    congr 1
    generalize v / 2 ^ i = q
    cases b <;> simp only [b2n, if_true, Bool.false_eq_true, if_false] <;> omega

theorem T1Line.wf_iff {l : T1Line} : l.wf = true ↔ ∀ i, l.dirty.testBit i = true → l.valid.testBit i = true := by
  unfold T1Line.wf
  rw [beq_iff_eq]
  constructor
  · intro h i hi
    rw [← h, Nat.testBit_land, Bool.and_eq_true] at hi
    exact hi.2
  · intro h
    apply Nat.eq_of_testBit_eq
    intro i
    rw [Nat.testBit_land]
    cases hd : l.dirty.testBit i
    · rfl
    · rw [h i hd]
      rfl

theorem State.markSector_within (hk : Sub 256 k) (h : Within k r s) (node way set i : Nat) (d : Bool) :
    Within k r (s.markSector node way set i d) := by
  unfold State.markSector
  split
  · exact h
  · rename_i l hl
    refine .t1Set hk h _ _ (fun w => ?_)
    have hw := T1Line.wf_iff.1 (w _ (mem_of_tfind hl))
    rw [T1Line.wf_iff]
    intro j hj
    cases d
    · simp only [Bool.false_eq_true, if_false] at hj
      rw [testBit_setBit]
      split
      · rfl
      · exact hw j hj
    · simp only [if_true] at hj
      rw [testBit_setBit] at *
      split
      · rfl
      · rename_i hne
        rw [if_neg hne] at hj
        exact hw j hj

/-! ## Outputs, free values, fuses -/

theorem State.emit_within (hk : Sub 1024 k) (h : Within k r s) (o : Output) : Within k r (s.emit o) :=
  .change hk h rfl ⟨Nat.le_refl _, List.prefix_append _ _, s.fuses.kept_refl⟩ id
    (by intro p hp; cases p <;> first | rfl | exact absurd hp (by decide))

theorem State.draw_within (hk : Sub 1 k) (h : Within k r s) : Within k r s.draw.2 := .free hk h 1

theorem Within.fusesTo (hk : Sub 65536 k) (h : Within k r t) {v : Fuses} (hv : t.fuses.kept v) : Within k r { t with fuses := v } :=
  .change hk h rfl ⟨Nat.le_refl _, List.prefix_refl _, hv⟩ id
    (by intro p hp; cases p <;> first | rfl | exact absurd hp (by decide))

/-! ## Ranges -/

theorem State.resetRange_within (hk : Sub 2097298 k) (h : Within k r s) (a len : Nat) : Within k r (s.resetRange a len) := by
  refine .change hk h rfl s.kept_refl (fun w => State.wf_of w memory_wf_filter id tsorted_filter id id sectorsWf_filter id) ?_
  intro p hp
  cases p <;> first | rfl | exact absurd hp (by decide)

/-- Bytes that an unlisted address reads as may change where no byte is listed. -/
theorem Within.scrambledTo (hk : Sub 49 k) (h : Within k r t) {m : List Host.Cell} {v : Tab Nat} {n : Nat}
    (hm : ∀ c ∈ m, c ∈ t.mem ∧ (({ t with scrambled := v } : State).blank c.1 = t.blank c.1)) (hs : tsorted t.mem = true → tsorted m = true) :
    Within k r { t with mem := m, scrambled := v, freeCount := t.freeCount + n } := by
  refine .change hk h rfl ⟨Nat.le_add_right _ _, List.prefix_refl _, t.fuses.kept_refl⟩ (fun w => State.wf_of w ?_ id id id id id id) ?_
  · intro w
    rw [memory_wf_iff] at *
    refine ⟨hs w.1, fun c hc => ?_⟩
    show c.2 ≠ ({ t with scrambled := v } : State).blank c.1
    rw [(hm c hc).2]
    exact w.2 c (hm c hc).1
  · intro p hp
    cases p <;> first | rfl | exact absurd hp (by decide)

theorem Within.scrambledKeep (hk : Sub 48 k) (h : Within k r t) {m : List Host.Cell} {v : Tab Nat}
    (hm : ∀ c ∈ m, c ∈ t.mem ∧ (({ t with scrambled := v } : State).blank c.1 = t.blank c.1)) (hs : tsorted t.mem = true → tsorted m = true) :
    Within k r { t with mem := m, scrambled := v } := by
  refine .change hk h rfl t.kept_refl (fun w => State.wf_of w ?_ id id id id id id) ?_
  · intro w
    rw [memory_wf_iff] at *
    refine ⟨hs w.1, fun c hc => ?_⟩
    show c.2 ≠ ({ t with scrambled := v } : State).blank c.1
    rw [(hm c hc).2]
    exact w.2 c (hm c hc).1
  · intro p hp
    cases p <;> first | rfl | exact absurd hp (by decide)

/-- What a die loses at once. -/
theorem Within.losses (hk : Sub 1840016 k) (h : Within k r t) (m : Host.Cell → Bool) (p : Nat → Bool) (l : Nat × T1Line → Bool) (a b c d e) :
    Within k r { t with
      mem := t.mem.filter m, poison := t.poison.filter p, t1 := t.t1.filter l, plru := a, kv := b, seq := c, sched := d, geo := e } := by
  refine .change hk h rfl t.kept_refl (fun w => State.wf_of w memory_wf_filter id id id id sectorsWf_filter
    (fun w e he => w e (List.mem_of_mem_filter he))) ?_
  intro p hp
  cases p <;> first | rfl | exact absurd hp (by decide)

theorem State.blank_congr {s : State} {v : Tab Nat} {a : Nat}
    (h : a / 2 ^ 48 < 4 → a % 2 ^ 48 < 0x1000000000 →
      tfind v (256 * (a / 2 ^ 48) + a % 2 ^ 48 / 0x10000000) = tfind s.scrambled (256 * (a / 2 ^ 48) + a % 2 ^ 48 / 0x10000000)) :
    ({ s with scrambled := v } : State).blank a = s.blank a := by
  have e : ∀ t : Tab Nat, ({ s with scrambled := t } : State).blank a =
      if a / 2 ^ 48 < 4 ∧ a % 2 ^ 48 < 0x1000000000 then
        match tfind t (256 * (a / 2 ^ 48) + a % 2 ^ 48 / 0x10000000) with
        | some g => Config.freeByte g a
        | none => 0
      else 0 := by
    intro t
    cases t with
    | nil => simp [State.blank, tfind]
    | cons x t => rfl
  have e' := e s.scrambled
  rw [e v]
  refine Eq.trans ?_ e'.symm
  split
  · rename_i hc
    rw [h hc.1 hc.2]
  · rfl

theorem tfind_tsets_ne {l : List Nat} {f : Nat → Nat} {v : Nat} {t : Tab Nat} {j : Nat} (h : ∀ i ∈ l, j ≠ f i) :
    tfind (l.foldl (fun t i => tset t (f i) v) t) j = tfind t j := by
  induction l generalizing t with
  | nil => rfl
  | cons i l ih =>
    rw [List.foldl_cons, ih (fun i hi => h i (List.mem_cons_of_mem _ hi)), tfind_tset_ne (h i List.mem_cons_self)]

theorem Within.secDic (hk : Sub 67239936 k) (h : Within k r t) (v w) : Within k r { t with sec := v, dic := w } :=
  .dic (hk.of rfl) (.sec (hk.of rfl) h v) w

theorem bit_eq_testBit (v i : Nat) : bit v i = v.testBit i := by
  rw [bit, Nat.testBit_eq_decide_div_mod_eq]
  rfl

theorem bit_setBit_of {v i j : Nat} (h : bit v i = true) : bit (setBit v j true) i = true := by
  rw [bit_eq_testBit] at *
  rw [testBit_setBit]
  split
  · rfl
  · exact h

theorem Within.schedPwr (hk : Sub 134221824 k) (h : Within k r t) (v w) : Within k r { t with sched := v, pwr := w } :=
  .pwr (hk.of rfl) (.sched (hk.of rfl) h v) w

end Sys2Proof.Machine
end

