-- ==== Sys2Proof/Laws/Chain.lean ====
section
/-! SUPPORT. `Within` through folds, pairs, options and outcomes: what the lemmas about the machine's functions are chained with. -/

namespace Sys2Proof.Machine

variable {k : Nat} {r s t : State}

theorem Within.foldl {α : Type} {l : List α} {g : State → α → State} (h : Within k r s)
    (hg : ∀ u x, Within k r u → Within k r (g u x)) : Within k r (l.foldl g s) := by
  induction l generalizing s with
  | nil => exact h
  | cons x l ih => exact ih (hg s x h)

theorem Within.foldlFst {α β : Type} {l : List α} {g : State × β → α → State × β} {p : State × β} (h : Within k r p.1)
    (hg : ∀ u x, Within k r u.1 → Within k r (g u x).1) : Within k r (l.foldl g p).1 := by
  induction l generalizing p with
  | nil => exact h
  | cons x l ih => exact ih (hg p x h)

theorem Within.foldlSnd {α β : Type} {l : List α} {g : β × State → α → β × State} {p : β × State} (h : Within k r p.2)
    (hg : ∀ u x, Within k r u.2 → Within k r (g u x).2) : Within k r (l.foldl g p).2 := by
  induction l generalizing p with
  | nil => exact h
  | cons x l ih => exact ih (hg p x h)

theorem Within.ofFst {β : Type} {e : State × β} {b : β} (h : Within k r e.1) (he : e = (t, b)) : Within k r t := by
  subst he
  exact h

theorem Within.ofSnd {β : Type} {e : β × State} {b : β} (h : Within k r e.2) (he : e = (b, t)) : Within k r t := by
  subst he
  exact h

/-- The state that an option holds, if any, is within. -/
structure OptWithin (k : Nat) (r : State) (o : Option State) : Prop where
  some : ∀ t, o = Option.some t → Within k r t

theorem OptWithin.none : OptWithin k r Option.none := ⟨fun _ h => nomatch h⟩

theorem OptWithin.mk' (h : Within k r t) : OptWithin k r (Option.some t) := ⟨fun _ e => Option.some.inj e ▸ h⟩

theorem Within.ofSome {o : Option State} (h : OptWithin k r o) (ho : o = Option.some t) : Within k r t := h.some t ho

theorem Within.getD {o : Option State} (ho : OptWithin k r o) (h : Within k r s) : Within k r (o.getD s) := by
  cases o with
  | none => exact h
  | some t => exact ho.some t rfl

theorem Within.elimOf {α : Type} {o : Option α} {f : α → State} (hs : Within k r s) (hf : ∀ a, Within k r (f a)) :
    Within k r (o.elim s f) := by
  cases o with
  | none => exact hs
  | some a => exact hf a

theorem Within.elim {o : Option State} {f : State → State} (ho : OptWithin k r o) (hs : Within k r s)
    (hf : ∀ t, Within k r t → Within k r (f t)) : Within k r (o.elim s f) := by
  cases o with
  | none => exact hs
  | some t => exact hf t (ho.some t rfl)

theorem Within.iteFst {β : Type} {c : Prop} [Decidable c] {a b : State × β} (ha : Within k r a.1) (hb : Within k r b.1) :
    Within k r (if c then a else b).1 := by
  split
  · exact ha
  · exact hb

/-- The state of an outcome that answers a next state is within. -/
structure OutWithin (k : Nat) (r : State) (o : Host.Outcome State Fault Refusal) : Prop where
  next : ∀ t, o = .next t → Within k r t

theorem OutWithin.ofNext (h : Within k r t) : OutWithin k r (.next t) :=
  ⟨fun _ e => by cases e; exact h⟩

theorem OutWithin.ite {c : Prop} [Decidable c] {a b : Host.Outcome State Fault Refusal} (ha : OutWithin k r a) (hb : OutWithin k r b) :
    OutWithin k r (if c then a else b) := by
  split
  · exact ha
  · exact hb

theorem State.onClock_within {o : Host.Outcome State Fault Refusal} (h : Within k r s) (ho : OutWithin k r o) :
    OutWithin k r (s.onClock o) := by
  unfold State.onClock
  split
  · exact ho
  · exact .ofNext h

/-- Running a unit of a plan stays within. -/
structure RunWithin (k : Nat) (run : Nat → Nat → State → State × List Status) : Prop where
  run : ∀ r a b u, Within k r u → Within k r (run a b u).1

/-- A plan, where there is one, stays within. -/
structure PlanWithin (k : Nat) (p : Planned) : Prop where
  plan : ∀ q, p = .plan q → RunWithin k q.run

theorem PlanWithin.refused {st : Status} : PlanWithin k (.refused st) := ⟨fun _ h => nomatch h⟩

theorem PlanWithin.mk' {p : Plan} (h : RunWithin k p.run) : PlanWithin k (.plan p) := ⟨fun _ e => by cases e; exact h⟩

theorem State.guardPlan_within {part : Nat} {p : Plan} {met : List Status} (h : RunWithin k p.run) :
    PlanWithin k (s.guardPlan part p met) := by
  unfold State.guardPlan
  split
  · exact .refused
  · split
    · exact .refused
    · split
      · exact .mk' h
      · exact .refused

theorem RunWithin.of {run : Nat → Nat → State → State × List Status} (h : ∀ r a b u, Within k r u → Within k r (run a b u).1) :
    RunWithin k run := ⟨h⟩

end Sys2Proof.Machine
end

