-- ==== Sys2Proof/Laws/Frame/Ops.lean ====
section
/-! SUPPORT. What the functions of Machine/Ops.lean may change. -/

namespace Sys2Proof.Machine

variable {k : Nat} {r : State}

theorem State.set_within {s f i v} (hk : Sub 2 k) (hs : Within k r s) :
    Within k r (State.set s f i v) := by
  unfold State.set
  repeat' first
    | with_reducible assumption
    | exact hk.of rfl
    | intro _
    | extract_lets
    | with_reducible apply State.setO_within

theorem State.countO_within {s f n i x4} (hk : Sub 2 k) (hs : Within k r s) :
    Within k r (State.countO s f n i x4) := by
  unfold State.countO
  repeat' first
    | with_reducible assumption
    | exact hk.of rfl
    | intro _
    | extract_lets
    | with_reducible apply State.setO_within

theorem State.count_within {s f i x3} (hk : Sub 2 k) (hs : Within k r s) :
    Within k r (State.count s f i x3) := by
  unfold State.count
  repeat' first
    | with_reducible assumption
    | exact hk.of rfl
    | intro _
    | extract_lets
    | with_reducible apply State.countO_within

theorem State.resetBlock_within {s node blk} (hk : Sub 2097298 k) (hs : Within k r s) :
    Within k r (State.resetBlock s node blk) := by
  unfold State.resetBlock
  repeat' first
    | with_reducible assumption
    | exact hk.of rfl
    | intro _
    | extract_lets
    | with_reducible apply State.resetRange_within

theorem State.moveSector_within {s src dst} (hk : Sub 144 k) (hs : Within k r s) :
    Within k r (State.moveSector s src dst) := by
  unfold State.moveSector
  repeat' first
    | with_reducible assumption
    | exact hk.of rfl
    | intro _
    | extract_lets
    | with_reducible apply State.poke_within
    | with_reducible apply State.setPoison_within

theorem State.touchWay_within {s node set way} (hk : Sub 512 k) (hs : Within k r s) :
    Within k r (State.touchWay s node set way) := by
  unfold State.touchWay
  repeat' first
    | with_reducible assumption
    | exact hk.of rfl
    | intro _
    | extract_lets
    | with_reducible refine Within.plru ?_ ?_ _

theorem State.writeBack_within {s node way set} (hk : Sub 400 k) (hs : Within k r s) :
    Within k r (State.writeBack s node way set) := by
  unfold State.writeBack
  split
  · exact hs
  · refine Within.t1Set (hk.of rfl) ?_ _ _ (fun _ => ?_)
    · exact .foldl hs (fun u x hu => State.moveSector_within (hk.of rfl) hu)
    · simp [T1Line.wf]

theorem State.t1Alloc_within {s part a} (hk : Sub 400 k) (hs : Within k r s) :
    Within k r (State.t1Alloc s part a).2 := by
  unfold State.t1Alloc
  extract_lets
  split
  · exact hs
  · exact Within.t1Set (hk.of rfl) (State.dropLine_within (hk.of rfl) (State.writeBack_within hk hs) _ _ _) _ _ (fun _ => by simp [T1Line.wf])

theorem State.touchRead_within {s part alloc a} (hk : Sub 912 k) (hs : Within k r s) :
    Within k r (State.touchRead s part alloc a) := by
  unfold State.touchRead
  repeat' first
    | with_reducible assumption
    | exact hk.of rfl
    | intro _
    | extract_lets
    | with_reducible apply State.markSector_within
    | with_reducible apply State.moveSector_within
    | with_reducible apply State.t1Alloc_within
    | with_reducible apply State.touchWay_within
    | with_reducible refine Within.foldl ?_ ?_
    | with_reducible refine Within.foldlFst ?_ ?_
    | with_reducible refine Within.foldlSnd ?_ ?_
    | dsimp -zeta only
    | split
    | with_reducible refine Within.ofFst ?_ (by assumption)
    | with_reducible refine Within.ofSnd ?_ (by assumption)

theorem State.writeSector_within {s part alloc a b poison} (hk : Sub 912 k) (hs : Within k r s) :
    Within k r (State.writeSector s part alloc a b poison) := by
  unfold State.writeSector
  repeat' first
    | with_reducible assumption
    | exact hk.of rfl
    | intro _
    | extract_lets
    | with_reducible apply State.markSector_within
    | with_reducible apply State.moveSector_within
    | with_reducible apply State.poke_within
    | with_reducible apply State.setPoison_within
    | with_reducible apply State.t1Alloc_within
    | with_reducible apply State.touchWay_within
    | with_reducible refine Within.foldl ?_ ?_
    | with_reducible refine Within.foldlFst ?_ ?_
    | with_reducible refine Within.foldlSnd ?_ ?_
    | dsimp -zeta only
    | split
    | with_reducible refine Within.ofFst ?_ (by assumption)
    | with_reducible refine Within.ofSnd ?_ (by assumption)
    | with_reducible refine Within.ofSome ?_ (by assumption)
    | dsimp -zeta +zetaDelta only

theorem State.writeRun_within {s part alloc a b poison} (hk : Sub 912 k) (hs : Within k r s) :
    Within k r (State.writeRun s part alloc a b poison) := by
  unfold State.writeRun
  repeat' first
    | with_reducible assumption
    | exact hk.of rfl
    | intro _
    | extract_lets
    | with_reducible apply State.writeSector_within
    | with_reducible refine Within.foldl ?_ ?_

theorem State.writeWord_within {s part a n v} (hk : Sub 912 k) (hs : Within k r s) :
    Within k r (State.writeWord s part a n v) := by
  unfold State.writeWord
  repeat' first
    | with_reducible assumption
    | exact hk.of rfl
    | intro _
    | extract_lets
    | with_reducible apply State.writeRun_within

theorem State.countCorrected_within {s a} (hk : Sub 6 k) (hs : Within k r s) :
    Within k r (State.countCorrected s a) := by
  unfold State.countCorrected
  repeat' first
    | with_reducible assumption
    | exact hk.of rfl
    | intro _
    | extract_lets
    | with_reducible apply State.countO_within
    | with_reducible apply State.setObj_within
    | with_reducible refine Within.foldl ?_ ?_
    | with_reducible refine Within.foldlFst ?_ ?_
    | with_reducible refine Within.foldlSnd ?_ ?_
    | dsimp -zeta only
    | split

theorem State.foundError_within {s a} (hk : Sub 150 k) (hs : Within k r s) :
    Within k r (State.foundError s a).1 := by
  unfold State.foundError
  repeat' first
    | with_reducible assumption
    | exact hk.of rfl
    | intro _
    | extract_lets
    | with_reducible apply State.countO_within
    | with_reducible apply State.moveSector_within
    | with_reducible apply State.setObj_within
    | with_reducible apply State.setPoison_within
    | with_reducible refine Within.foldl ?_ ?_
    | with_reducible refine Within.foldlFst ?_ ?_
    | with_reducible refine Within.foldlSnd ?_ ?_
    | dsimp -zeta only
    | split

theorem State.meetErrors_within {s errs a} (hk : Sub 150 k) (hs : Within k r s) :
    Within k r (State.meetErrors s errs a).1 := by
  unfold State.meetErrors
  repeat' first
    | with_reducible assumption
    | exact hk.of rfl
    | intro _
    | extract_lets
    | with_reducible apply State.countCorrected_within
    | with_reducible apply State.foundError_within
    | with_reducible refine Within.foldl ?_ ?_
    | with_reducible refine Within.foldlFst ?_ ?_
    | with_reducible refine Within.foldlSnd ?_ ?_
    | dsimp -zeta only
    | split
    | with_reducible refine Within.ofFst ?_ (by assumption)
    | with_reducible refine Within.ofSnd ?_ (by assumption)
    | with_reducible refine Within.ofSome ?_ (by assumption)
    | dsimp -zeta +zetaDelta only

theorem State.readSectors_within {s part alloc errs secs} (hk : Sub 918 k) (hs : Within k r s) :
    Within k r (State.readSectors s part alloc errs secs).st := by
  unfold State.readSectors
  repeat' first
    | with_reducible assumption
    | exact hk.of rfl
    | intro _
    | extract_lets
    | with_reducible apply State.meetErrors_within
    | with_reducible apply State.touchRead_within
    | with_reducible refine Within.foldlFst ?_ ?_

end Sys2Proof.Machine
end

