-- ==== Sys2Proof/Laws/Frame/AddrMap.lean ====
section
/-! SUPPORT. What the functions of Machine/AddrMap.lean may change. -/

namespace Sys2Proof.Machine

variable {k : Nat} {r : State}

theorem State.setAdmitted_within {s n a f} (hk : Sub 2 k) (hs : Within k r s) :
    Within k r (State.setAdmitted s n a f) := by
  unfold State.setAdmitted
  repeat' first
    | with_reducible assumption
    | exact hk.of rfl
    | intro _
    | extract_lets
    | with_reducible apply State.set_within

theorem State.putReg_within {s node off val} (hk : Sub 2 k) (hs : Within k r s) :
    Within k r (State.putReg s node off val) := by
  unfold State.putReg
  repeat' first
    | with_reducible assumption
    | exact hk.of rfl
    | intro _
    | extract_lets
    | with_reducible apply State.setO_within
    | with_reducible refine Within.foldl ?_ ?_
    | with_reducible refine Within.foldlFst ?_ ?_
    | with_reducible refine Within.foldlSnd ?_ ?_
    | dsimp -zeta only
    | split

theorem State.turned_within {s src} (hk : Sub 4 k) (hs : Within k r s) :
    Within k r (State.turned s src) := by
  unfold State.turned
  repeat' first
    | with_reducible assumption
    | exact hk.of rfl
    | intro _
    | extract_lets
    | with_reducible apply State.setObj_within
    | with_reducible refine Within.foldl ?_ ?_
    | with_reducible refine Within.foldlFst ?_ ?_
    | with_reducible refine Within.foldlSnd ?_ ?_
    | dsimp -zeta only
    | split

theorem State.completeWrite_within {s src st} (hk : Sub 1024 k) (hs : Within k r s) :
    Within k r (State.completeWrite s src st) := by
  unfold State.completeWrite
  repeat' first
    | with_reducible assumption
    | exact hk.of rfl
    | intro _
    | extract_lets
    | with_reducible apply State.emit_within
    | with_reducible refine Within.foldl ?_ ?_
    | with_reducible refine Within.foldlFst ?_ ?_
    | with_reducible refine Within.foldlSnd ?_ ?_
    | dsimp -zeta only
    | split

theorem State.countRefusal_within {s} (hk : Sub 131072 k) (hs : Within k r s) :
    Within k r (State.countRefusal s) := by
  unfold State.countRefusal
  repeat' first
    | with_reducible assumption
    | exact hk.of rfl
    | intro _
    | extract_lets
    | fail_if_no_progress ((with_reducible refine Within.sec ?_ ?_ _); exact hk.of rfl)

theorem State.refuseRequest_within {s src st} (hk : Sub 132100 k) (hs : Within k r s) :
    Within k r (State.refuseRequest s src st) := by
  unfold State.refuseRequest
  repeat' first
    | with_reducible assumption
    | exact hk.of rfl
    | intro _
    | extract_lets
    | with_reducible apply State.completeWrite_within
    | with_reducible apply State.countRefusal_within
    | with_reducible apply State.turned_within
    | with_reducible refine Within.foldl ?_ ?_
    | with_reducible refine Within.foldlFst ?_ ?_
    | with_reducible refine Within.foldlSnd ?_ ?_
    | dsimp -zeta only
    | split

theorem State.turnAway_within {s src node blk off} (hk : Sub 132100 k) (hs : Within k r s) :
    Within k r (State.turnAway s src node blk off) := by
  unfold State.turnAway
  repeat' first
    | with_reducible assumption
    | exact hk.of rfl
    | intro _
    | extract_lets
    | with_reducible apply State.refuseRequest_within
    | with_reducible apply State.turned_within
    | with_reducible refine Within.foldl ?_ ?_
    | with_reducible refine Within.foldlFst ?_ ?_
    | with_reducible refine Within.foldlSnd ?_ ?_
    | dsimp -zeta only
    | split

end Sys2Proof.Machine
end

