-- ==== Sys2Proof/Laws/Frame/Sched.lean ====
section
/-! SUPPORT. What the functions of Machine/Sched.lean may change. -/

namespace Sys2Proof.Machine

variable {k : Nat} {r : State}

theorem State.dma_within {s part loc a b} (hk : Sub 976 k) (hs : Within k r s) :
    Within k r (State.dma s part loc a b) := by
  unfold State.dma
  repeat' first
    | with_reducible assumption
    | exact hk.of rfl
    | intro _
    | extract_lets
    | with_reducible apply State.hostWrite_within
    | with_reducible apply State.writeRun_within
    | with_reducible refine Within.foldl ?_ ?_
    | with_reducible refine Within.foldlFst ?_ ?_
    | with_reducible refine Within.foldlSnd ?_ ?_
    | dsimp -zeta only
    | split

theorem State.msix_within {s v} (hk : Sub 1024 k) (hs : Within k r s) :
    Within k r (State.msix s v) := by
  unfold State.msix
  repeat' first
    | with_reducible assumption
    | exact hk.of rfl
    | intro _
    | extract_lets
    | with_reducible apply State.emit_within
    | with_reducible refine Within.foldl ?_ ?_
    | with_reducible refine Within.foldlFst ?_ ?_
    | with_reducible refine Within.foldlSnd ?_ ?_
    | dsimp -zeta only
    | split

theorem State.event_within {s ring st kind node part arg0 addr arg1} (hk : Sub 5074 k) (hs : Within k r s) :
    Within k r (State.event s ring st kind node part arg0 addr arg1) := by
  unfold State.event
  repeat' first
    | with_reducible assumption
    | exact hk.of rfl
    | intro _
    | extract_lets
    | with_reducible apply State.count_within
    | with_reducible apply State.dma_within
    | with_reducible apply State.set_within
    | fail_if_no_progress ((with_reducible refine Within.sched ?_ ?_ _); exact hk.of rfl)
    | with_reducible refine Within.foldl ?_ ?_
    | with_reducible refine Within.foldlFst ?_ ?_
    | with_reducible refine Within.foldlSnd ?_ ?_
    | dsimp -zeta only
    | split

theorem State.setCtx_within {s c x} (hk : Sub 4096 k) (hs : Within k r s) :
    Within k r (State.setCtx s c x) := by
  unfold State.setCtx
  repeat' first
    | with_reducible assumption
    | exact hk.of rfl
    | intro _
    | extract_lets
    | fail_if_no_progress ((with_reducible refine Within.sched ?_ ?_ _); exact hk.of rfl)

theorem State.setCmd_within {s c} (hk : Sub 4096 k) (hs : Within k r s) :
    Within k r (State.setCmd s c) := by
  unfold State.setCmd
  repeat' first
    | with_reducible assumption
    | exact hk.of rfl
    | intro _
    | extract_lets
    | fail_if_no_progress ((with_reducible refine Within.sched ?_ ?_ _); exact hk.of rfl)

theorem State.latchWaits_within {s c} (hk : Sub 4096 k) (hs : Within k r s) :
    Within k r (State.latchWaits s c) := by
  unfold State.latchWaits
  repeat' first
    | with_reducible assumption
    | exact hk.of rfl
    | intro _
    | extract_lets
    | with_reducible apply State.setCmd_within
    | with_reducible refine Within.foldl ?_ ?_

theorem State.record_within {s c seq st result user node engine quiet irq} (hk : Sub 6096 k) (hs : Within k r s) :
    Within k r (State.record s c seq st result user node engine quiet irq) := by
  unfold State.record
  repeat' first
    | with_reducible assumption
    | exact hk.of rfl
    | intro _
    | extract_lets
    | with_reducible apply State.dma_within
    | with_reducible apply State.msix_within
    | with_reducible apply State.setCtx_within
    | with_reducible refine Within.foldl ?_ ?_
    | with_reducible refine Within.foldlFst ?_ ?_
    | with_reducible refine Within.foldlSnd ?_ ?_
    | dsimp -zeta only
    | split

theorem State.seqDone_within {s c seq} (hk : Sub 4098 k) (hs : Within k r s) :
    Within k r (State.seqDone s c seq) := by
  unfold State.seqDone
  repeat' first
    | with_reducible assumption
    | exact hk.of rfl
    | intro _
    | extract_lets
    | with_reducible apply State.latchWaits_within
    | with_reducible apply State.set_within
    | with_reducible apply State.setCtx_within

theorem State.dropRegions_within {s c} (hk : Sub 4096 k) (hs : Within k r s) :
    Within k r (State.dropRegions s c) := by
  unfold State.dropRegions
  repeat' first
    | with_reducible assumption
    | exact hk.of rfl
    | intro _
    | extract_lets
    | fail_if_no_progress ((with_reducible refine Within.sched ?_ ?_ _); exact hk.of rfl)

theorem State.remapNode_within {s c n} (hk : Sub 5074 k) (hs : Within k r s) :
    Within k r (State.remapNode s c n) := by
  unfold State.remapNode
  repeat' first
    | with_reducible assumption
    | exact hk.of rfl
    | intro _
    | extract_lets
    | with_reducible apply State.event_within
    | with_reducible apply State.set_within
    | with_reducible refine Within.foldl ?_ ?_
    | with_reducible refine Within.foldlFst ?_ ?_
    | with_reducible refine Within.foldlSnd ?_ ?_
    | dsimp -zeta only
    | split

theorem State.boundary_within {s c next} (hk : Sub 5074 k) (hs : Within k r s) :
    Within k r (State.boundary s c next) := by
  unfold State.boundary
  repeat' first
    | with_reducible assumption
    | exact hk.of rfl
    | intro _
    | extract_lets
    | with_reducible apply State.remapNode_within
    | with_reducible apply State.setCtx_within
    | with_reducible refine Within.foldl ?_ ?_
    | with_reducible refine Within.foldlFst ?_ ?_
    | with_reducible refine Within.foldlSnd ?_ ?_
    | dsimp -zeta only
    | split
    | with_reducible refine Within.ofFst ?_ (by assumption)
    | with_reducible refine Within.ofSnd ?_ (by assumption)
    | with_reducible refine Within.ofSome ?_ (by assumption)
    | dsimp -zeta +zetaDelta only

theorem State.checkBoundary_within {s c} (hk : Sub 5074 k) (hs : Within k r s) :
    Within k r (State.checkBoundary s c) := by
  unfold State.checkBoundary
  repeat' first
    | with_reducible assumption
    | exact hk.of rfl
    | intro _
    | extract_lets
    | with_reducible apply State.boundary_within
    | with_reducible apply State.setCtx_within
    | with_reducible refine Within.foldl ?_ ?_
    | with_reducible refine Within.foldlFst ?_ ?_
    | with_reducible refine Within.foldlSnd ?_ ?_
    | dsimp -zeta only
    | split

theorem State.applyBias_within {s node off val} (hk : Sub 18 k) (hs : Within k r s) :
    Within k r (State.applyBias s node off val) := by
  unfold State.applyBias
  repeat' first
    | with_reducible assumption
    | exact hk.of rfl
    | intro _
    | extract_lets
    | with_reducible apply State.poke_within
    | with_reducible apply State.setO_within
    | with_reducible refine Within.foldl ?_ ?_
    | with_reducible refine Within.foldlFst ?_ ?_
    | with_reducible refine Within.foldlSnd ?_ ?_
    | dsimp -zeta only
    | split

theorem State.releaseBias_within {s} (hk : Sub 262162 k) (hs : Within k r s) :
    Within k r (State.releaseBias s) := by
  unfold State.releaseBias
  repeat' first
    | with_reducible assumption
    | exact hk.of rfl
    | intro _
    | extract_lets
    | with_reducible apply State.applyBias_within
    | fail_if_no_progress ((with_reducible refine Within.kv ?_ ?_ _); exact hk.of rfl)
    | with_reducible refine Within.foldl ?_ ?_

theorem State.applyGate_within {s node off val} (hk : Sub 18 k) (hs : Within k r s) :
    Within k r (State.applyGate s node off val) := by
  unfold State.applyGate
  repeat' first
    | with_reducible assumption
    | exact hk.of rfl
    | intro _
    | extract_lets
    | with_reducible apply State.poke_within
    | with_reducible apply State.setO_within
    | with_reducible refine Within.foldl ?_ ?_
    | with_reducible refine Within.foldlFst ?_ ?_
    | with_reducible refine Within.foldlSnd ?_ ?_
    | dsimp -zeta only
    | split

theorem State.releaseGate_within {s} (hk : Sub 524306 k) (hs : Within k r s) :
    Within k r (State.releaseGate s) := by
  unfold State.releaseGate
  repeat' first
    | with_reducible assumption
    | exact hk.of rfl
    | intro _
    | extract_lets
    | with_reducible apply State.applyGate_within
    | fail_if_no_progress ((with_reducible refine Within.seq ?_ ?_ _); exact hk.of rfl)
    | with_reducible refine Within.foldl ?_ ?_

theorem State.removeCmd_within {s x1} (hk : Sub 4096 k) (hs : Within k r s) :
    Within k r (State.removeCmd s x1) := by
  unfold State.removeCmd
  repeat' first
    | with_reducible assumption
    | exact hk.of rfl
    | intro _
    | extract_lets
    | fail_if_no_progress ((with_reducible refine Within.sched ?_ ?_ _); exact hk.of rfl)

theorem State.completeOne_within {s x st result node} (hk : Sub 792530 k) (hs : Within k r s) :
    Within k r (State.completeOne s x st result node) := by
  unfold State.completeOne
  repeat' first
    | with_reducible assumption
    | exact hk.of rfl
    | intro _
    | extract_lets
    | with_reducible apply State.checkBoundary_within
    | with_reducible apply State.record_within
    | with_reducible apply State.releaseBias_within
    | with_reducible apply State.releaseGate_within
    | with_reducible apply State.removeCmd_within
    | with_reducible apply State.seqDone_within
    | with_reducible apply State.set_within
    | with_reducible refine Within.foldl ?_ ?_
    | with_reducible refine Within.foldlFst ?_ ?_
    | with_reducible refine Within.foldlSnd ?_ ?_
    | dsimp -zeta only
    | split

theorem State.settleWaits_within {n s} (hk : Sub 792530 k) (hs : Within k r s) : Within k r (State.settleWaits n s) := by
  induction n generalizing s with
  | zero => exact hs
  | succ n ih =>
    unfold State.settleWaits
    split
    · exact ih (State.completeOne_within (hk.of rfl) hs)
    · exact hs

theorem State.complete_within {s x st result node} (hk : Sub 792530 k) (hs : Within k r s) :
    Within k r (State.complete s x st result node) := by
  unfold State.complete
  repeat' first
    | with_reducible assumption
    | exact hk.of rfl
    | intro _
    | extract_lets
    | with_reducible apply State.completeOne_within
    | with_reducible apply State.settleWaits_within

theorem State.preemptOne_within {s x} (hk : Sub 792530 k) (hs : Within k r s) :
    Within k r (State.preemptOne s x) := by
  unfold State.preemptOne
  repeat' first
    | with_reducible assumption
    | exact hk.of rfl
    | intro _
    | extract_lets
    | with_reducible apply State.completeOne_within
    | with_reducible apply State.setO_within
    | with_reducible refine Within.foldl ?_ ?_
    | with_reducible refine Within.foldlFst ?_ ?_
    | with_reducible refine Within.foldlSnd ?_ ?_
    | dsimp -zeta only
    | split

theorem State.abortSweep_within {s c} (hk : Sub 792530 k) (hs : Within k r s) :
    Within k r (State.abortSweep s c) := by
  unfold State.abortSweep
  repeat' first
    | with_reducible assumption
    | exact hk.of rfl
    | intro _
    | extract_lets
    | with_reducible apply State.preemptOne_within
    | with_reducible apply State.set_within
    | with_reducible apply State.settleWaits_within
    | with_reducible refine Within.foldl ?_ ?_
    | with_reducible refine Within.foldlFst ?_ ?_
    | with_reducible refine Within.foldlSnd ?_ ?_
    | dsimp -zeta only
    | split

theorem State.finish_within {s x st result} (hk : Sub 4096 k) (hs : Within k r s) :
    Within k r (State.finish s x st result) := by
  unfold State.finish
  repeat' first
    | with_reducible assumption
    | exact hk.of rfl
    | intro _
    | extract_lets
    | with_reducible apply State.setCmd_within

end Sys2Proof.Machine
end

