-- ==== Sys2Proof/Laws/Frame/Guard.lean ====
section
/-! SUPPORT. What the functions of Machine/Guard.lean may change. -/

namespace Sys2Proof.Machine

variable {k : Nat} {r : State}

theorem State.setProt_within {s p x} (hk : Sub 131072 k) (hs : Within k r s) :
    Within k r (State.setProt s p x) := by
  unfold State.setProt
  repeat' first
    | with_reducible assumption
    | exact hk.of rfl
    | intro _
    | extract_lets
    | fail_if_no_progress ((with_reducible refine Within.sec ?_ ?_ _); exact hk.of rfl)

theorem State.denyWrite_within {s src} (hk : Sub 132096 k) (hs : Within k r s) :
    Within k r (State.denyWrite s src) := by
  unfold State.denyWrite
  repeat' first
    | with_reducible assumption
    | exact hk.of rfl
    | intro _
    | extract_lets
    | with_reducible apply State.completeWrite_within
    | with_reducible apply State.countRefusal_within

theorem State.objTurned_within {s src node blk off} (hk : Sub 132100 k) (hs : Within k r s) :
    Within k r (State.objTurned s src node blk off) := by
  unfold State.objTurned
  repeat' first
    | with_reducible assumption
    | exact hk.of rfl
    | intro _
    | extract_lets
    | with_reducible apply State.denyWrite_within
    | with_reducible apply State.turnAway_within
    | with_reducible refine Within.foldl ?_ ?_
    | with_reducible refine Within.foldlFst ?_ ?_
    | with_reducible refine Within.foldlSnd ?_ ?_
    | dsimp -zeta only
    | split

end Sys2Proof.Machine
end

