-- ==== Sys2Proof/Laws/Frame/Commands.lean ====
section
/-! SUPPORT. What the functions of Machine/Commands.lean may change. -/

namespace Sys2Proof.Machine

variable {k : Nat} {r : State}

theorem State.schedErr_within {s} (hk : Sub 2 k) (hs : Within k r s) :
    Within k r (State.schedErr s) := by
  unfold State.schedErr
  repeat' first
    | with_reducible assumption
    | exact hk.of rfl
    | intro _
    | extract_lets
    | with_reducible apply State.set_within

theorem State.takeSeq_within {s c stepEnd} (hk : Sub 4098 k) (hs : Within k r s) :
    Within k r (State.takeSeq s c stepEnd).2 := by
  unfold State.takeSeq
  repeat' first
    | with_reducible assumption
    | exact hk.of rfl
    | intro _
    | extract_lets
    | with_reducible apply State.set_within
    | with_reducible apply State.setCtx_within

theorem State.refuseFetched_within {s c seq st user engine irq} (hk : Sub 792530 k) (hs : Within k r s) :
    Within k r (State.refuseFetched s c seq st user engine irq) := by
  unfold State.refuseFetched
  repeat' first
    | with_reducible assumption
    | exact hk.of rfl
    | intro _
    | extract_lets
    | with_reducible apply State.checkBoundary_within
    | with_reducible apply State.record_within
    | with_reducible apply State.seqDone_within
    | with_reducible apply State.settleWaits_within

theorem State.fetchFail_within {s c st} (hk : Sub 792530 k) (hs : Within k r s) :
    Within k r (State.fetchFail s c st) := by
  unfold State.fetchFail
  repeat' first
    | with_reducible assumption
    | exact hk.of rfl
    | intro _
    | extract_lets
    | with_reducible apply State.refuseFetched_within
    | with_reducible apply State.takeSeq_within

theorem State.accept_within {s c env} (hk : Sub 792530 k) (hs : Within k r s) :
    Within k r (State.accept s c env) := by
  unfold State.accept
  repeat' first
    | with_reducible assumption
    | exact hk.of rfl
    | intro _
    | extract_lets
    | with_reducible apply State.refuseFetched_within
    | with_reducible apply State.set_within
    | with_reducible apply State.setCmd_within
    | with_reducible apply State.settleWaits_within
    | with_reducible apply State.takeSeq_within
    | fail_if_no_progress ((with_reducible refine Within.sched ?_ ?_ _); exact hk.of rfl)
    | with_reducible refine Within.foldl ?_ ?_
    | with_reducible refine Within.foldlFst ?_ ?_
    | with_reducible refine Within.foldlSnd ?_ ?_
    | dsimp -zeta only
    | split

theorem execCommandFetch_within {c errs s} (hk : Sub 792534 k) (hs : Within k r s) :
    OutWithin k r (execCommandFetch c errs s) := by
  unfold execCommandFetch
  repeat' first
    | with_reducible assumption
    | exact hk.of rfl
    | intro _
    | extract_lets
    | with_reducible refine OutWithin.ofNext ?_
    | with_reducible refine State.onClock_within ?_ ?_
    | with_reducible apply State.accept_within
    | with_reducible apply State.fetchFail_within
    | with_reducible apply State.readSectors_within
    | with_reducible refine Within.foldl ?_ ?_
    | with_reducible refine Within.foldlFst ?_ ?_
    | with_reducible refine Within.foldlSnd ?_ ?_
    | dsimp -zeta only
    | split

theorem execSqFetchFail_within {c timeout s} (hk : Sub 792530 k) (hs : Within k r s) :
    OutWithin k r (execSqFetchFail c timeout s) := by
  unfold execSqFetchFail
  repeat' first
    | with_reducible assumption
    | exact hk.of rfl
    | intro _
    | extract_lets
    | with_reducible refine OutWithin.ofNext ?_
    | with_reducible refine State.onClock_within ?_ ?_
    | with_reducible apply State.fetchFail_within
    | with_reducible refine Within.foldl ?_ ?_
    | with_reducible refine Within.foldlFst ?_ ?_
    | with_reducible refine Within.foldlSnd ?_ ?_
    | dsimp -zeta only
    | split

theorem State.setGeo_within {s node m g} (hk : Sub 1048576 k) (hs : Within k r s) :
    Within k r (State.setGeo s node m g) := by
  unfold State.setGeo
  repeat' first
    | with_reducible assumption
    | exact hk.of rfl
    | intro _
    | extract_lets
    | fail_if_no_progress ((with_reducible refine Within.geo ?_ ?_ _); exact hk.of rfl)

theorem State.grant_within {s node inst x} (hk : Sub 134221824 k) (hs : Within k r s) :
    Within k r (State.grant s node inst x) := by
  unfold State.grant
  repeat' first
    | with_reducible assumption
    | exact hk.of rfl
    | intro _
    | extract_lets
    | fail_if_no_progress ((with_reducible refine Within.schedPwr ?_ ?_ _ _); exact hk.of rfl)
    | with_reducible apply State.setCmd_within
    | with_reducible apply State.setCtx_within
    | fail_if_no_progress ((with_reducible refine Within.pwr ?_ ?_ _); exact hk.of rfl)
    | fail_if_no_progress ((with_reducible refine Within.sched ?_ ?_ _); exact hk.of rfl)
    | with_reducible refine Within.foldl ?_ ?_
    | with_reducible refine Within.foldlFst ?_ ?_
    | with_reducible refine Within.foldlSnd ?_ ?_
    | dsimp -zeta only
    | split

theorem execCommandDispatch_within {node inst s} (hk : Sub 134221824 k) (hs : Within k r s) :
    OutWithin k r (execCommandDispatch node inst s) := by
  unfold execCommandDispatch
  repeat' first
    | with_reducible assumption
    | exact hk.of rfl
    | intro _
    | extract_lets
    | with_reducible refine OutWithin.ofNext ?_
    | with_reducible refine State.onClock_within ?_ ?_
    | with_reducible apply State.finish_within
    | with_reducible apply State.grant_within
    | with_reducible refine Within.foldl ?_ ?_
    | with_reducible refine Within.foldlFst ?_ ?_
    | with_reducible refine Within.foldlSnd ?_ ?_
    | dsimp -zeta only
    | split

theorem execCommandComplete_within {c seq s} (hk : Sub 792530 k) (hs : Within k r s) :
    OutWithin k r (execCommandComplete c seq s) := by
  unfold execCommandComplete
  repeat' first
    | with_reducible assumption
    | exact hk.of rfl
    | intro _
    | extract_lets
    | with_reducible refine OutWithin.ofNext ?_
    | with_reducible refine State.onClock_within ?_ ?_
    | with_reducible apply State.abortSweep_within
    | with_reducible apply State.complete_within
    | with_reducible refine Within.foldl ?_ ?_
    | with_reducible refine Within.foldlFst ?_ ?_
    | with_reducible refine Within.foldlSnd ?_ ?_
    | dsimp -zeta only
    | split

theorem execCtxDb_within {src c val s} (hk : Sub 136198 k) (hs : Within k r s) :
    OutWithin k r (execCtxDb src c val s) := by
  unfold execCtxDb
  repeat' first
    | with_reducible assumption
    | exact hk.of rfl
    | intro _
    | extract_lets
    | with_reducible refine OutWithin.ofNext ?_
    | with_reducible refine State.onClock_within ?_ ?_
    | with_reducible apply State.schedErr_within
    | with_reducible apply State.setCtx_within
    | with_reducible apply State.turnAway_within
    | with_reducible refine Within.foldl ?_ ?_
    | with_reducible refine Within.foldlFst ?_ ?_
    | with_reducible refine Within.foldlSnd ?_ ?_
    | dsimp -zeta only
    | split

theorem State.ctrlTurned_within {s src c} (hk : Sub 132100 k) (hs : Within k r s) :
    Within k r (State.ctrlTurned s src c) := by
  unfold State.ctrlTurned
  repeat' first
    | with_reducible assumption
    | exact hk.of rfl
    | intro _
    | extract_lets
    | with_reducible apply State.turnAway_within
    | with_reducible refine Within.foldl ?_ ?_
    | with_reducible refine Within.foldlFst ?_ ?_
    | with_reducible refine Within.foldlSnd ?_ ?_
    | dsimp -zeta only
    | split

theorem execCtxEnable_within {src c s} (hk : Sub 923606 k) (hs : Within k r s) :
    OutWithin k r (execCtxEnable src c s) := by
  unfold execCtxEnable
  repeat' first
    | with_reducible assumption
    | exact hk.of rfl
    | intro _
    | extract_lets
    | with_reducible refine OutWithin.ofNext ?_
    | with_reducible refine State.onClock_within ?_ ?_
    | with_reducible apply State.ctrlTurned_within
    | with_reducible apply State.dropRegions_within
    | with_reducible apply State.schedErr_within
    | with_reducible apply State.set_within
    | with_reducible apply State.setCtx_within
    | with_reducible apply State.settleWaits_within
    | with_reducible refine Within.foldl ?_ ?_
    | with_reducible refine Within.foldlFst ?_ ?_
    | with_reducible refine Within.foldlSnd ?_ ?_
    | dsimp -zeta only
    | split

theorem State.haltCtx_within {s c} (hk : Sub 2 k) (hs : Within k r s) :
    Within k r (State.haltCtx s c) := by
  unfold State.haltCtx
  repeat' first
    | with_reducible assumption
    | exact hk.of rfl
    | intro _
    | extract_lets
    | with_reducible apply State.set_within
    | with_reducible refine Within.foldl ?_ ?_
    | with_reducible refine Within.foldlFst ?_ ?_
    | with_reducible refine Within.foldlSnd ?_ ?_
    | dsimp -zeta only
    | split

theorem execCtxHalt_within {src c s} (hk : Sub 132102 k) (hs : Within k r s) :
    OutWithin k r (execCtxHalt src c s) := by
  unfold execCtxHalt
  repeat' first
    | with_reducible assumption
    | exact hk.of rfl
    | intro _
    | extract_lets
    | with_reducible refine OutWithin.ofNext ?_
    | with_reducible refine State.onClock_within ?_ ?_
    | with_reducible apply State.ctrlTurned_within
    | with_reducible apply State.haltCtx_within
    | with_reducible apply State.schedErr_within
    | with_reducible refine Within.foldl ?_ ?_
    | with_reducible refine Within.foldlFst ?_ ?_
    | with_reducible refine Within.foldlSnd ?_ ?_
    | dsimp -zeta only
    | split

theorem execCtxResume_within {src c s} (hk : Sub 136198 k) (hs : Within k r s) :
    OutWithin k r (execCtxResume src c s) := by
  unfold execCtxResume
  repeat' first
    | with_reducible assumption
    | exact hk.of rfl
    | intro _
    | extract_lets
    | with_reducible refine OutWithin.ofNext ?_
    | with_reducible refine State.onClock_within ?_ ?_
    | with_reducible apply State.ctrlTurned_within
    | with_reducible apply State.schedErr_within
    | with_reducible apply State.set_within
    | with_reducible apply State.setCtx_within
    | with_reducible refine Within.foldl ?_ ?_
    | with_reducible refine Within.foldlFst ?_ ?_
    | with_reducible refine Within.foldlSnd ?_ ?_
    | dsimp -zeta only
    | split

theorem State.closeSlot_within {s node slot} (hk : Sub 524290 k) (hs : Within k r s) :
    Within k r (State.closeSlot s node slot) := by
  unfold State.closeSlot
  repeat' first
    | with_reducible assumption
    | exact hk.of rfl
    | intro _
    | extract_lets
    | with_reducible apply State.setO_within
    | fail_if_no_progress ((with_reducible refine Within.seq ?_ ?_ _); exact hk.of rfl)

theorem State.closeStream_within {s x1 w} (hk : Sub 524290 k) (hs : Within k r s) :
    Within k r (State.closeStream s x1 w) := by
  unfold State.closeStream
  repeat' first
    | with_reducible assumption
    | exact hk.of rfl
    | intro _
    | extract_lets
    | with_reducible apply State.closeSlot_within
    | fail_if_no_progress ((with_reducible refine Within.seq ?_ ?_ _); exact hk.of rfl)
    | with_reducible refine Within.foldl ?_ ?_
    | with_reducible refine Within.foldlFst ?_ ?_
    | with_reducible refine Within.foldlSnd ?_ ?_
    | dsimp -zeta only
    | split

theorem State.closeStreamsOf_within {s c} (hk : Sub 524290 k) (hs : Within k r s) :
    Within k r (State.closeStreamsOf s c) := by
  unfold State.closeStreamsOf
  repeat' first
    | with_reducible assumption
    | exact hk.of rfl
    | intro _
    | extract_lets
    | with_reducible apply State.closeStream_within
    | with_reducible refine Within.foldl ?_ ?_

theorem State.abortCtx_within {s c} (hk : Sub 792530 k) (hs : Within k r s) :
    Within k r (State.abortCtx s c) := by
  unfold State.abortCtx
  repeat' first
    | with_reducible assumption
    | exact hk.of rfl
    | intro _
    | extract_lets
    | with_reducible apply State.abortSweep_within
    | with_reducible apply State.closeStreamsOf_within
    | with_reducible apply State.dropRegions_within
    | with_reducible apply State.set_within
    | with_reducible apply State.settleWaits_within
    | with_reducible refine Within.foldl ?_ ?_
    | with_reducible refine Within.foldlFst ?_ ?_
    | with_reducible refine Within.foldlSnd ?_ ?_
    | dsimp -zeta only
    | split

theorem execCtxAbort_within {src c s} (hk : Sub 923606 k) (hs : Within k r s) :
    OutWithin k r (execCtxAbort src c s) := by
  unfold execCtxAbort
  repeat' first
    | with_reducible assumption
    | exact hk.of rfl
    | intro _
    | extract_lets
    | with_reducible refine OutWithin.ofNext ?_
    | with_reducible refine State.onClock_within ?_ ?_
    | with_reducible apply State.abortCtx_within
    | with_reducible apply State.ctrlTurned_within
    | with_reducible apply State.schedErr_within
    | with_reducible refine Within.foldl ?_ ?_
    | with_reducible refine Within.foldlFst ?_ ?_
    | with_reducible refine Within.foldlSnd ?_ ?_
    | dsimp -zeta only
    | split

theorem execCtxDisable_within {src c s} (hk : Sub 923606 k) (hs : Within k r s) :
    OutWithin k r (execCtxDisable src c s) := by
  unfold execCtxDisable
  repeat' first
    | with_reducible assumption
    | exact hk.of rfl
    | intro _
    | extract_lets
    | with_reducible refine OutWithin.ofNext ?_
    | with_reducible refine State.onClock_within ?_ ?_
    | with_reducible apply State.closeStreamsOf_within
    | with_reducible apply State.ctrlTurned_within
    | with_reducible apply State.dropRegions_within
    | with_reducible apply State.schedErr_within
    | with_reducible apply State.set_within
    | with_reducible apply State.settleWaits_within
    | with_reducible refine Within.foldl ?_ ?_
    | with_reducible refine Within.foldlFst ?_ ?_
    | with_reducible refine Within.foldlSnd ?_ ?_
    | dsimp -zeta only
    | split

theorem execEvqWrite_within {src ring val s} (hk : Sub 136198 k) (hs : Within k r s) :
    OutWithin k r (execEvqWrite src ring val s) := by
  unfold execEvqWrite
  repeat' first
    | with_reducible assumption
    | exact hk.of rfl
    | intro _
    | extract_lets
    | with_reducible refine OutWithin.ofNext ?_
    | with_reducible refine State.onClock_within ?_ ?_
    | with_reducible apply State.schedErr_within
    | with_reducible apply State.set_within
    | with_reducible apply State.turnAway_within
    | fail_if_no_progress ((with_reducible refine Within.sched ?_ ?_ _); exact hk.of rfl)
    | with_reducible refine Within.foldl ?_ ?_
    | with_reducible refine Within.foldlFst ?_ ?_
    | with_reducible refine Within.foldlSnd ?_ ?_
    | dsimp -zeta only
    | split

theorem State.scrambleRegion_within {s n x1} (hk : Sub 305 k) (hs : Within k r s) :
    Within k r (State.scrambleRegion s n x1) := by
  unfold State.scrambleRegion
  extract_lets lo
  refine Within.t1To (hk.of rfl) (Within.scrambledTo (hk.of rfl) hs (n := 1) (fun c hc => ?_) tsorted_filter)
    (fun w e he => w e (List.mem_of_mem_filter he))
  rw [List.mem_filter] at hc
  refine ⟨hc.1, State.blank_congr fun h4 h36 => tfind_tsets_ne (fun i hi => ?_)⟩
  rw [List.mem_range] at hi
  have hne : c.1 < lo ∨ lo + 4294967296 ≤ c.1 := by simpa using hc.2
  simp only [lo, glob] at hne
  omega

theorem execPartCfgWrite_within {src p val s} (hk : Sub 132407 k) (hs : Within k r s) :
    OutWithin k r (execPartCfgWrite src p val s) := by
  unfold execPartCfgWrite
  repeat' first
    | with_reducible assumption
    | exact hk.of rfl
    | intro _
    | extract_lets
    | with_reducible refine OutWithin.ofNext ?_
    | with_reducible refine State.onClock_within ?_ ?_
    | with_reducible apply State.schedErr_within
    | with_reducible apply State.scrambleRegion_within
    | with_reducible apply State.set_within
    | with_reducible apply State.turnAway_within
    | with_reducible refine Within.foldl ?_ ?_
    | with_reducible refine Within.foldlFst ?_ ?_
    | with_reducible refine Within.foldlSnd ?_ ?_
    | dsimp -zeta only
    | split

theorem execRsvWrite_within {src val s} (hk : Sub 132102 k) (hs : Within k r s) :
    OutWithin k r (execRsvWrite src val s) := by
  unfold execRsvWrite
  repeat' first
    | with_reducible assumption
    | exact hk.of rfl
    | intro _
    | extract_lets
    | with_reducible refine OutWithin.ofNext ?_
    | with_reducible refine State.onClock_within ?_ ?_
    | with_reducible apply State.objTurned_within
    | with_reducible apply State.schedErr_within
    | with_reducible apply State.set_within
    | with_reducible refine Within.foldl ?_ ?_
    | with_reducible refine Within.foldlFst ?_ ?_
    | with_reducible refine Within.foldlSnd ?_ ?_
    | dsimp -zeta only
    | split

end Sys2Proof.Machine
end

