-- ==== Sys2Proof/Laws/Frame/Routes.lean ====
section
/-! SUPPORT. What the functions of Machine/Routes.lean may change. -/

namespace Sys2Proof.Machine

variable {k : Nat} {r : State}

theorem State.setLink_within {s l v half} (hk : Sub 2 k) (hs : Within k r s) :
    Within k r (State.setLink s l v half) := by
  unfold State.setLink
  repeat' first
    | with_reducible assumption
    | exact hk.of rfl
    | intro _
    | extract_lets
    | with_reducible apply State.set_within
    | with_reducible apply State.setO_within
    | with_reducible refine Within.foldl ?_ ?_
    | with_reducible refine Within.foldlFst ?_ ?_
    | with_reducible refine Within.foldlSnd ?_ ?_
    | dsimp -zeta only
    | split
    | with_reducible refine Within.ofFst ?_ (by assumption)
    | with_reducible refine Within.ofSnd ?_ (by assumption)
    | with_reducible refine Within.ofSome ?_ (by assumption)
    | dsimp -zeta +zetaDelta only

end Sys2Proof.Machine
end

