-- ==== Sys2Proof/Laws/Frame/TileMover.lean ====
section
/-! SUPPORT. What the functions of Machine/TileMover.lean may change. -/

namespace Sys2Proof.Machine

variable {k : Nat} {r : State}

theorem State.putSector_within {s part alloc d j b p} (hk : Sub 976 k) (hs : Within k r s) :
    Within k r (State.putSector s part alloc d j b p) := by
  unfold State.putSector
  repeat' first
    | with_reducible assumption
    | exact hk.of rfl
    | intro _
    | extract_lets
    | with_reducible apply State.hostWrite_within
    | with_reducible apply State.writeSector_within
    | with_reducible refine Within.foldl ?_ ?_
    | with_reducible refine Within.foldlFst ?_ ?_
    | with_reducible refine Within.foldlSnd ?_ ?_
    | dsimp -zeta only
    | split

theorem State.missSector_within {s part alloc d j} (hk : Sub 912 k) (hs : Within k r s) :
    Within k r (State.missSector s part alloc d j) := by
  unfold State.missSector
  repeat' first
    | with_reducible assumption
    | exact hk.of rfl
    | intro _
    | extract_lets
    | with_reducible apply State.writeSector_within
    | with_reducible refine Within.foldl ?_ ?_
    | with_reducible refine Within.foldlFst ?_ ?_
    | with_reducible refine Within.foldlSnd ?_ ?_
    | dsimp -zeta only
    | split

theorem State.closeT3_within {s d e} (hk : Sub 65 k) (hs : Within k r s) :
    Within k r (State.closeT3 s d e).1 := by
  unfold State.closeT3
  repeat' first
    | with_reducible assumption
    | exact hk.of rfl
    | intro _
    | extract_lets
    | with_reducible apply State.hostWrite_within
    | fail_if_no_progress ((with_reducible refine Within.free ?_ ?_ _); exact hk.of rfl)
    | with_reducible refine Within.foldl ?_ ?_
    | with_reducible refine Within.foldlFst ?_ ?_
    | with_reducible refine Within.foldlSnd ?_ ?_
    | dsimp -zeta only
    | split

theorem State.copyTile_within {s part alloc src dsts errs e} (hk : Sub 983 k) (hs : Within k r s) :
    Within k r (State.copyTile s part alloc src dsts errs e).1 := by
  unfold State.copyTile
  repeat' first
    | with_reducible assumption
    | exact hk.of rfl
    | intro _
    | extract_lets
    | with_reducible apply State.closeT3_within
    | with_reducible apply State.missSector_within
    | with_reducible apply State.putSector_within
    | with_reducible apply State.readSectors_within
    | with_reducible refine Within.foldl ?_ ?_
    | with_reducible refine Within.foldlFst ?_ ?_
    | with_reducible refine Within.foldlSnd ?_ ?_
    | dsimp -zeta only
    | split

theorem State.fillTile_within {s part alloc pattern d e} (hk : Sub 977 k) (hs : Within k r s) :
    Within k r (State.fillTile s part alloc pattern d e).1 := by
  unfold State.fillTile
  repeat' first
    | with_reducible assumption
    | exact hk.of rfl
    | intro _
    | extract_lets
    | with_reducible apply State.closeT3_within
    | with_reducible apply State.putSector_within
    | with_reducible refine Within.foldl ?_ ?_

theorem State.flushLine_within {s back drop errs node way set} (hk : Sub 406 k) (hs : Within k r s) :
    Within k r (State.flushLine s back drop errs node way set).1 := by
  unfold State.flushLine
  repeat' first
    | with_reducible assumption
    | exact hk.of rfl
    | intro _
    | extract_lets
    | with_reducible apply State.countCorrected_within
    | with_reducible apply State.dropLine_within
    | with_reducible apply State.setPoison_within
    | with_reducible apply State.writeBack_within
    | with_reducible refine Within.foldl ?_ ?_
    | with_reducible refine Within.foldlFst ?_ ?_
    | with_reducible refine Within.foldlSnd ?_ ?_
    | dsimp -zeta only
    | split
    | with_reducible refine Within.ofFst ?_ (by assumption)
    | with_reducible refine Within.ofSnd ?_ (by assumption)
    | with_reducible refine Within.ofSome ?_ (by assumption)
    | dsimp -zeta +zetaDelta only

theorem State.flushTile_within {s back drop errs d} (hk : Sub 406 k) (hs : Within k r s) :
    Within k r (State.flushTile s back drop errs d).1 := by
  unfold State.flushTile
  repeat' first
    | with_reducible assumption
    | exact hk.of rfl
    | intro _
    | extract_lets
    | with_reducible apply State.flushLine_within
    | with_reducible refine Within.foldl ?_ ?_
    | with_reducible refine Within.foldlFst ?_ ?_
    | with_reducible refine Within.foldlSnd ?_ ?_
    | dsimp -zeta only
    | split

theorem State.wayFlush_within {s errs node mask} (hk : Sub 406 k) (hs : Within k r s) :
    Within k r (State.wayFlush s errs node mask).1 := by
  unfold State.wayFlush
  repeat' first
    | with_reducible assumption
    | exact hk.of rfl
    | intro _
    | extract_lets
    | with_reducible apply State.flushLine_within
    | with_reducible refine Within.foldl ?_ ?_
    | with_reducible refine Within.foldlFst ?_ ?_

theorem State.moveTile_within {s n part x f errs e} (hk : Sub 983 k) (hs : Within k r s) :
    Within k r (State.moveTile s n part x f errs e).1 := by
  unfold State.moveTile
  repeat' first
    | with_reducible assumption
    | exact hk.of rfl
    | intro _
    | extract_lets
    | with_reducible apply State.copyTile_within
    | with_reducible apply State.fillTile_within
    | with_reducible apply State.flushTile_within
    | with_reducible apply State.readSectors_within
    | with_reducible apply State.wayFlush_within
    | with_reducible refine Within.foldl ?_ ?_
    | with_reducible refine Within.foldlFst ?_ ?_
    | with_reducible refine Within.foldlSnd ?_ ?_
    | dsimp -zeta only
    | split
    | with_reducible refine Within.ofFst ?_ (by assumption)
    | with_reducible refine Within.ofSnd ?_ (by assumption)
    | with_reducible refine Within.ofSome ?_ (by assumption)
    | dsimp -zeta +zetaDelta only

theorem State.sentPackets_within {s n part x f} (hk : Sub 32768 k) (hs : Within k r s) :
    Within k r (State.sentPackets s n part x f) := by
  unfold State.sentPackets
  repeat' first
    | with_reducible assumption
    | exact hk.of rfl
    | intro _
    | extract_lets
    | fail_if_no_progress ((with_reducible refine Within.fabric ?_ ?_ _); exact hk.of rfl)
    | with_reducible refine Within.foldl ?_ ?_
    | with_reducible refine Within.foldlFst ?_ ?_
    | with_reducible refine Within.foldlSnd ?_ ?_
    | dsimp -zeta only
    | split

theorem State.endTile_within {s n part x t f errs e} (hk : Sub 33751 k) (hs : Within k r s) :
    Within k r (State.endTile s n part x t f errs e).1 := by
  unfold State.endTile
  repeat' first
    | with_reducible assumption
    | exact hk.of rfl
    | intro _
    | extract_lets
    | with_reducible apply State.moveTile_within
    | with_reducible apply State.sentPackets_within

theorem State.runTransfer_within {n part x free errs e i s t} (hk : Sub 33751 k) (hs : Within k r s) :
    Within k r (State.runTransfer n part x free errs e i s t).1 := by
  induction i generalizing s t with
  | zero => exact hs
  | succ i ih =>
    unfold State.runTransfer
    extract_lets
    split
    · exact hs
    · exact ih (State.endTile_within (hk.of rfl) hs)

theorem State.openTransfer_within {s x} (hk : Sub 135168 k) (hs : Within k r s) :
    Within k r (State.openTransfer s x).1 := by
  unfold State.openTransfer
  repeat' first
    | with_reducible assumption
    | exact hk.of rfl
    | intro _
    | extract_lets
    | with_reducible apply State.countRefusal_within
    | with_reducible apply State.finish_within
    | with_reducible refine Within.foldl ?_ ?_
    | with_reducible refine Within.foldlFst ?_ ?_
    | with_reducible refine Within.foldlSnd ?_ ?_
    | dsimp -zeta only
    | split

theorem State.keepTransfer_within {s x t} (hk : Sub 4096 k) (hs : Within k r s) :
    Within k r (State.keepTransfer s x t) := by
  unfold State.keepTransfer
  repeat' first
    | with_reducible assumption
    | exact hk.of rfl
    | intro _
    | extract_lets
    | with_reducible apply State.finish_within
    | fail_if_no_progress ((with_reducible refine Within.sched ?_ ?_ _); exact hk.of rfl)
    | with_reducible refine Within.foldl ?_ ?_
    | with_reducible refine Within.foldlFst ?_ ?_
    | with_reducible refine Within.foldlSnd ?_ ?_
    | dsimp -zeta only
    | split

theorem State.transferCommand_within {s is c seq errs bad} (hk : Sub 168919 k) (hs : Within k r s) :
    Within k r (State.transferCommand s is c seq errs bad) := by
  unfold State.transferCommand
  repeat' first
    | with_reducible assumption
    | exact hk.of rfl
    | intro _
    | extract_lets
    | with_reducible apply State.keepTransfer_within
    | with_reducible apply State.openTransfer_within
    | with_reducible apply State.runTransfer_within
    | with_reducible refine Within.foldl ?_ ?_
    | with_reducible refine Within.foldlFst ?_ ?_
    | with_reducible refine Within.foldlSnd ?_ ?_
    | dsimp -zeta only
    | split
    | with_reducible refine Within.ofFst ?_ (by assumption)

theorem execCopy_within {c seq errs bad s} (hk : Sub 168919 k) (hs : Within k r s) :
    OutWithin k r (execCopy c seq errs bad s) := by
  unfold execCopy
  repeat' first
    | with_reducible assumption
    | exact hk.of rfl
    | intro _
    | extract_lets
    | with_reducible refine OutWithin.ofNext ?_
    | with_reducible refine State.onClock_within ?_ ?_
    | with_reducible apply State.transferCommand_within

theorem execBroadcastCopy_within {c seq errs s} (hk : Sub 168919 k) (hs : Within k r s) :
    OutWithin k r (execBroadcastCopy c seq errs s) := by
  unfold execBroadcastCopy
  repeat' first
    | with_reducible assumption
    | exact hk.of rfl
    | intro _
    | extract_lets
    | with_reducible refine OutWithin.ofNext ?_
    | with_reducible refine State.onClock_within ?_ ?_
    | with_reducible apply State.transferCommand_within

theorem execFill_within {c seq bad s} (hk : Sub 168919 k) (hs : Within k r s) :
    OutWithin k r (execFill c seq bad s) := by
  unfold execFill
  repeat' first
    | with_reducible assumption
    | exact hk.of rfl
    | intro _
    | extract_lets
    | with_reducible refine OutWithin.ofNext ?_
    | with_reducible refine State.onClock_within ?_ ?_
    | with_reducible apply State.transferCommand_within

theorem execFlush_within {c seq errs s} (hk : Sub 168919 k) (hs : Within k r s) :
    OutWithin k r (execFlush c seq errs s) := by
  unfold execFlush
  repeat' first
    | with_reducible assumption
    | exact hk.of rfl
    | intro _
    | extract_lets
    | with_reducible refine OutWithin.ofNext ?_
    | with_reducible refine State.onClock_within ?_ ?_
    | with_reducible apply State.transferCommand_within

theorem execEvict_within {c seq errs s} (hk : Sub 168919 k) (hs : Within k r s) :
    OutWithin k r (execEvict c seq errs s) := by
  unfold execEvict
  repeat' first
    | with_reducible assumption
    | exact hk.of rfl
    | intro _
    | extract_lets
    | with_reducible refine OutWithin.ofNext ?_
    | with_reducible refine State.onClock_within ?_ ?_
    | with_reducible apply State.transferCommand_within

theorem execDiscard_within {c seq s} (hk : Sub 168919 k) (hs : Within k r s) :
    OutWithin k r (execDiscard c seq s) := by
  unfold execDiscard
  repeat' first
    | with_reducible assumption
    | exact hk.of rfl
    | intro _
    | extract_lets
    | with_reducible refine OutWithin.ofNext ?_
    | with_reducible refine State.onClock_within ?_ ?_
    | with_reducible apply State.transferCommand_within

theorem execPrefetch_within {c seq errs s} (hk : Sub 168919 k) (hs : Within k r s) :
    OutWithin k r (execPrefetch c seq errs s) := by
  unfold execPrefetch
  repeat' first
    | with_reducible assumption
    | exact hk.of rfl
    | intro _
    | extract_lets
    | with_reducible refine OutWithin.ofNext ?_
    | with_reducible refine State.onClock_within ?_ ?_
    | with_reducible apply State.transferCommand_within

theorem execWayflush_within {c seq errs s} (hk : Sub 168919 k) (hs : Within k r s) :
    OutWithin k r (execWayflush c seq errs s) := by
  unfold execWayflush
  repeat' first
    | with_reducible assumption
    | exact hk.of rfl
    | intro _
    | extract_lets
    | with_reducible refine OutWithin.ofNext ?_
    | with_reducible refine State.onClock_within ?_ ?_
    | with_reducible apply State.transferCommand_within

theorem execTileStart_within {node s} (hk : Sub 135168 k) (hs : Within k r s) :
    OutWithin k r (execTileStart node s) := by
  unfold execTileStart
  repeat' first
    | with_reducible assumption
    | exact hk.of rfl
    | intro _
    | extract_lets
    | with_reducible refine OutWithin.ofNext ?_
    | with_reducible refine State.onClock_within ?_ ?_
    | with_reducible apply State.keepTransfer_within
    | with_reducible apply State.openTransfer_within
    | with_reducible refine Within.foldl ?_ ?_
    | with_reducible refine Within.foldlFst ?_ ?_
    | with_reducible refine Within.foldlSnd ?_ ?_
    | dsimp -zeta only
    | split
    | with_reducible refine Within.ofFst ?_ (by assumption)

theorem State.tileEnds_within {s c seq index errs e} (hk : Sub 37847 k) (hs : Within k r s) :
    Within k r (State.tileEnds s c seq index errs e) := by
  unfold State.tileEnds
  repeat' first
    | with_reducible assumption
    | exact hk.of rfl
    | intro _
    | extract_lets
    | with_reducible apply State.endTile_within
    | with_reducible apply State.keepTransfer_within
    | with_reducible refine Within.foldl ?_ ?_
    | with_reducible refine Within.foldlFst ?_ ?_
    | with_reducible refine Within.foldlSnd ?_ ?_
    | dsimp -zeta only
    | split

theorem execTileComplete_within {c seq index errs bad s} (hk : Sub 37847 k) (hs : Within k r s) :
    OutWithin k r (execTileComplete c seq index errs bad s) := by
  unfold execTileComplete
  repeat' first
    | with_reducible assumption
    | exact hk.of rfl
    | intro _
    | extract_lets
    | with_reducible refine OutWithin.ofNext ?_
    | with_reducible refine State.onClock_within ?_ ?_
    | with_reducible apply State.tileEnds_within

theorem execT3Timeout_within {c seq index received s} (hk : Sub 37847 k) (hs : Within k r s) :
    OutWithin k r (execT3Timeout c seq index received s) := by
  unfold execT3Timeout
  repeat' first
    | with_reducible assumption
    | exact hk.of rfl
    | intro _
    | extract_lets
    | with_reducible refine OutWithin.ofNext ?_
    | with_reducible refine State.onClock_within ?_ ?_
    | with_reducible apply State.tileEnds_within
    | with_reducible refine Within.foldl ?_ ?_
    | with_reducible refine Within.foldlFst ?_ ?_
    | with_reducible refine Within.foldlSnd ?_ ?_
    | dsimp -zeta only
    | split

theorem execPatrolScrub_within {node sector found s} (hk : Sub 5078 k) (hs : Within k r s) :
    OutWithin k r (execPatrolScrub node sector found s) := by
  unfold execPatrolScrub
  repeat' first
    | with_reducible assumption
    | exact hk.of rfl
    | intro _
    | extract_lets
    | with_reducible refine OutWithin.ofNext ?_
    | with_reducible refine State.onClock_within ?_ ?_
    | with_reducible apply State.event_within
    | with_reducible apply State.setObj_within
    | with_reducible apply State.setPoison_within
    | with_reducible refine Within.foldl ?_ ?_
    | with_reducible refine Within.foldlFst ?_ ?_
    | with_reducible refine Within.foldlSnd ?_ ?_
    | dsimp -zeta only
    | split

theorem execWaymodeWrite_within {src node val s} (hk : Sub 132102 k) (hs : Within k r s) :
    OutWithin k r (execWaymodeWrite src node val s) := by
  unfold execWaymodeWrite
  repeat' first
    | with_reducible assumption
    | exact hk.of rfl
    | intro _
    | extract_lets
    | with_reducible refine OutWithin.ofNext ?_
    | with_reducible refine State.onClock_within ?_ ?_
    | with_reducible apply State.setO_within
    | with_reducible apply State.turnAway_within
    | with_reducible refine Within.foldl ?_ ?_
    | with_reducible refine Within.foldlFst ?_ ?_
    | with_reducible refine Within.foldlSnd ?_ ?_
    | dsimp -zeta only
    | split

end Sys2Proof.Machine
end

