-- ==== Sys2Proof/Laws/Frame/Switch.lean ====
section
/-! SUPPORT. What the functions of Machine/Switch.lean may change. -/

namespace Sys2Proof.Machine

variable {k : Nat} {r : State}

theorem State.moveRun_within {s part src dst sectors errs} (hk : Sub 918 k) (hs : Within k r s) :
    Within k r (State.moveRun s part src dst sectors errs) := by
  unfold State.moveRun
  repeat' first
    | with_reducible assumption
    | exact hk.of rfl
    | intro _
    | extract_lets
    | with_reducible apply State.readSectors_within
    | with_reducible apply State.writeSector_within
    | with_reducible refine Within.foldl ?_ ?_
    | with_reducible refine Within.foldlFst ?_ ?_
    | with_reducible refine Within.foldlSnd ?_ ?_
    | dsimp -zeta only
    | split

theorem State.saveRegion_within {s c node core errs} (hk : Sub 918 k) (hs : Within k r s) :
    Within k r (State.saveRegion s c node core errs) := by
  unfold State.saveRegion
  repeat' first
    | with_reducible assumption
    | exact hk.of rfl
    | intro _
    | extract_lets
    | with_reducible apply State.moveRun_within

theorem State.restoreRegion_within {s c node core errs} (hk : Sub 918 k) (hs : Within k r s) :
    Within k r (State.restoreRegion s c node core errs) := by
  unfold State.restoreRegion
  repeat' first
    | with_reducible assumption
    | exact hk.of rfl
    | intro _
    | extract_lets
    | with_reducible apply State.moveRun_within

theorem State.runEnvelope_within {s node part x errs e} (hk : Sub 33751 k) (hs : Within k r s) :
    Within k r (State.runEnvelope s node part x errs e).1 := by
  unfold State.runEnvelope
  exact State.runTransfer_within hk hs

theorem State.restageOne_within {s c node errs e i} (hk : Sub 33751 k) (hs : Within k r s) :
    Within k r (State.restageOne s c node errs e i).1 := by
  unfold State.restageOne
  repeat' first
    | with_reducible assumption
    | exact hk.of rfl
    | intro _
    | extract_lets
    | with_reducible apply State.readSectors_within
    | with_reducible apply State.runEnvelope_within
    | with_reducible refine Within.foldl ?_ ?_
    | with_reducible refine Within.foldlFst ?_ ?_
    | with_reducible refine Within.foldlSnd ?_ ?_
    | dsimp -zeta only
    | split

theorem State.restage_within {c node errs t3 i n s} (hk : Sub 33751 k) (hs : Within k r s) :
    Within k r (State.restage c node errs t3 n i s).1 := by
  induction n generalizing s i with
  | zero => exact hs
  | succ n ih =>
    have h := State.restageOne_within (c := c) (node := node) (errs := errs) (e := envelopeEnd t3 i) (i := i) hk hs
    have pair : ∀ q : State × Status, Within k r q.1 → Within k r (if q.2.usable then State.restage c node errs t3 n (i + 1) q.1
        else (q.1, some (i, q.2))).1 := by
      intro q hq
      split
      · exact ih hq
      · exact hq
    rw [State.restage]
    exact pair _ h

theorem State.restageFailed_within {s c node i st} (hk : Sub 5074 k) (hs : Within k r s) :
    Within k r (State.restageFailed s c node i st) := by
  unfold State.restageFailed
  repeat' first
    | with_reducible assumption
    | exact hk.of rfl
    | intro _
    | extract_lets
    | with_reducible apply State.event_within
    | with_reducible apply State.haltCtx_within
    | with_reducible apply State.set_within

theorem execT0Switch_within {node core rd s} (hk : Sub 37847 k) (hs : Within k r s) :
    OutWithin k r (execT0Switch node core rd s) := by
  unfold execT0Switch
  repeat' first
    | with_reducible assumption
    | exact hk.of rfl
    | intro _
    | extract_lets
    | with_reducible refine OutWithin.ofNext ?_
    | with_reducible refine State.onClock_within ?_ ?_
    | with_reducible apply State.restage_within
    | with_reducible apply State.restageFailed_within
    | with_reducible apply State.restoreRegion_within
    | with_reducible apply State.saveRegion_within
    | fail_if_no_progress ((with_reducible refine Within.sched ?_ ?_ _); exact hk.of rfl)
    | with_reducible refine Within.foldl ?_ ?_
    | with_reducible refine Within.foldlFst ?_ ?_
    | with_reducible refine Within.foldlSnd ?_ ?_
    | dsimp -zeta only
    | split
    | with_reducible refine Within.ofFst ?_ (by assumption)
    | with_reducible refine Within.ofSnd ?_ (by assumption)
    | with_reducible refine Within.ofSome ?_ (by assumption)
    | dsimp -zeta +zetaDelta only

theorem execT0SwitchComplete_within {node core s} (hk : Sub 4096 k) (hs : Within k r s) :
    OutWithin k r (execT0SwitchComplete node core s) := by
  unfold execT0SwitchComplete
  repeat' first
    | with_reducible assumption
    | exact hk.of rfl
    | intro _
    | extract_lets
    | with_reducible refine OutWithin.ofNext ?_
    | with_reducible refine State.onClock_within ?_ ?_
    | fail_if_no_progress ((with_reducible refine Within.sched ?_ ?_ _); exact hk.of rfl)
    | with_reducible refine Within.foldl ?_ ?_
    | with_reducible refine Within.foldlFst ?_ ?_
    | with_reducible refine Within.foldlSnd ?_ ?_
    | dsimp -zeta only
    | split

end Sys2Proof.Machine
end

