-- ==== Sys2Proof/Laws/Frame/Engine.lean ====
section
/-! SUPPORT. What the functions of Machine/Engine.lean may change. -/

namespace Sys2Proof.Machine

variable {k : Nat} {r : State}

theorem State.scatter_within {s part cells} (hk : Sub 912 k) (hs : Within k r s) :
    Within k r (State.scatter s part cells) := by
  unfold State.scatter
  repeat' first
    | with_reducible assumption
    | exact hk.of rfl
    | intro _
    | extract_lets
    | with_reducible apply State.writeSector_within
    | with_reducible refine Within.foldl ?_ ?_

theorem Plan.run_within {self x1 x2 x3} (hk : Sub 0 k) (hself : RunWithin k self.run) (hx3 : Within k r x3) :
    Within k r (Plan.run self x1 x2 x3).1 := by
  unfold Plan.run
  repeat' first
    | with_reducible assumption
    | exact hk.of rfl
    | intro _
    | extract_lets
    | with_reducible apply RunWithin.run

theorem State.stopCmd_within {s x} (hk : Sub 5009 k) (hs : Within k r s) :
    Within k r (State.stopCmd s x) := by
  unfold State.stopCmd
  repeat' first
    | with_reducible assumption
    | exact hk.of rfl
    | intro _
    | extract_lets
    | with_reducible apply State.setCmd_within
    | with_reducible apply State.writeRun_within
    | fail_if_no_progress ((with_reducible refine Within.sched ?_ ?_ _); exact hk.of rfl)
    | fail_if_no_progress ((with_reducible refine Within.free ?_ ?_ _); exact hk.of rfl)
    | with_reducible refine Within.foldl ?_ ?_
    | with_reducible refine Within.foldlFst ?_ ?_
    | with_reducible refine Within.foldlSnd ?_ ?_
    | dsimp -zeta only
    | split
    | with_reducible refine Within.ofFst ?_ (by assumption)
    | with_reducible refine Within.ofSnd ?_ (by assumption)
    | with_reducible refine Within.ofSome ?_ (by assumption)
    | dsimp -zeta +zetaDelta only

theorem State.poisonAll_within {s l} (hk : Sub 128 k) (hs : Within k r s) :
    Within k r (State.poisonAll s l) := by
  unfold State.poisonAll
  repeat' first
    | with_reducible assumption
    | exact hk.of rfl
    | intro _
    | extract_lets
    | with_reducible apply State.setPoison_within
    | with_reducible refine Within.foldl ?_ ?_

theorem State.runPlan_within {s x p hi errs} (hk : Sub 5015 k) (hs : Within k r s) (hp : RunWithin k p.run) :
    Within k r (State.runPlan s x p hi errs) := by
  unfold State.runPlan
  repeat' first
    | with_reducible assumption
    | exact hk.of rfl
    | intro _
    | extract_lets
    | with_reducible apply RunWithin.run
    | exact PlanWithin.plan (by assumption) _ rfl
    | with_reducible apply State.finish_within
    | with_reducible apply State.poisonAll_within
    | with_reducible apply State.readSectors_within
    | with_reducible apply State.stopCmd_within
    | with_reducible refine Within.foldl ?_ ?_
    | with_reducible refine Within.foldlFst ?_ ?_
    | with_reducible refine Within.foldlSnd ?_ ?_
    | dsimp -zeta only
    | split
    | with_reducible refine Within.ofFst ?_ (by assumption)
    | with_reducible refine Within.ofSnd ?_ (by assumption)
    | with_reducible refine Within.ofSome ?_ (by assumption)
    | dsimp -zeta +zetaDelta only

theorem State.runToEnd_within {s x pl errs} (hk : Sub 136087 k) (hs : Within k r s) (hpl : PlanWithin k pl) :
    Within k r (State.runToEnd s x pl errs) := by
  unfold State.runToEnd
  repeat' first
    | with_reducible assumption
    | exact hk.of rfl
    | intro _
    | extract_lets
    | with_reducible apply RunWithin.run
    | exact PlanWithin.plan (by assumption) _ rfl
    | with_reducible apply State.countRefusal_within
    | with_reducible apply State.finish_within
    | with_reducible apply State.runPlan_within
    | with_reducible refine Within.foldl ?_ ?_
    | with_reducible refine Within.foldlFst ?_ ?_
    | with_reducible refine Within.foldlSnd ?_ ?_
    | dsimp -zeta only
    | split

end Sys2Proof.Machine
end

