-- ==== Sys2Proof/Laws/Frame/Matrix.lean ====
section
/-! SUPPORT. What the functions of Machine/Matrix.lean may change. -/

namespace Sys2Proof.Machine

variable {k : Nat} {r : State}

theorem State.exportTiles_within {s part node g A l elts acc} (hk : Sub 912 k) (hs : Within k r s) :
    Within k r (State.exportTiles s part node g A l elts acc) := by
  unfold State.exportTiles
  repeat' first
    | with_reducible assumption
    | exact hk.of rfl
    | intro _
    | extract_lets
    | with_reducible apply State.writeRun_within
    | with_reducible refine Within.foldl ?_ ?_

theorem State.writeUnit_within {s part node w A addr pg elts acc} (hk : Sub 912 k) (hs : Within k r s) :
    Within k r (State.writeUnit s part node w A addr pg elts acc).1 := by
  unfold State.writeUnit
  repeat' first
    | with_reducible assumption
    | exact hk.of rfl
    | intro _
    | extract_lets
    | with_reducible apply State.exportTiles_within
    | with_reducible apply State.scatter_within
    | with_reducible refine Within.foldl ?_ ?_
    | with_reducible refine Within.foldlFst ?_ ?_
    | with_reducible refine Within.foldlSnd ?_ ?_
    | dsimp -zeta only
    | split

theorem State.countMatrix_within {s node products cycles} (hk : Sub 2 k) (hs : Within k r s) :
    Within k r (State.countMatrix s node products cycles) := by
  unfold State.countMatrix
  repeat' first
    | with_reducible assumption
    | exact hk.of rfl
    | intro _
    | extract_lets
    | with_reducible apply State.setO_within

theorem State.matmulPlan_within {s node x} (hk : Sub 914 k) :
    RunWithin k (State.matmulPlan s node x).run := by
  unfold State.matmulPlan
  repeat' first
    | with_reducible assumption
    | exact hk.of rfl
    | intro _
    | extract_lets
    | with_reducible apply State.countMatrix_within
    | with_reducible apply State.setO_within
    | with_reducible apply State.writeUnit_within
    | with_reducible refine Within.foldl ?_ ?_
    | with_reducible refine Within.foldlFst ?_ ?_
    | with_reducible refine Within.foldlSnd ?_ ?_
    | dsimp -zeta only
    | split
    | with_reducible refine RunWithin.of ?_

theorem State.planMatmul_within {s node x} (hk : Sub 914 k) :
    PlanWithin k (State.planMatmul s node x) := by
  unfold State.planMatmul
  repeat' first
    | with_reducible assumption
    | exact hk.of rfl
    | intro _
    | extract_lets
    | exact PlanWithin.refused
    | with_reducible refine PlanWithin.mk' ?_
    | with_reducible refine State.guardPlan_within ?_
    | with_reducible apply State.matmulPlan_within

theorem State.matrixCommand_within {s is plan node errs} (hk : Sub 136087 k) (hs : Within k r s)
    (hplan : ∀ u n x, PlanWithin k (plan u n x)) : Within k r (State.matrixCommand s is plan node errs) := by
  unfold State.matrixCommand
  split
  · split
    · exact State.runToEnd_within (hk.of rfl) hs (hplan _ _ _)
    · exact hs
  · exact hs

theorem execMatmul_within {node errs s} (hk : Sub 136087 k) (hs : Within k r s) :
    OutWithin k r (execMatmul node errs s) := by
  unfold execMatmul
  repeat' first
    | with_reducible assumption
    | exact hk.of rfl
    | intro _
    | extract_lets
    | with_reducible refine OutWithin.ofNext ?_
    | with_reducible refine State.onClock_within ?_ ?_
    | with_reducible apply State.matrixCommand_within
    | with_reducible apply State.planMatmul_within

theorem execScanOnly_within {node errs s} (hk : Sub 136087 k) (hs : Within k r s) :
    OutWithin k r (execScanOnly node errs s) := by
  unfold execScanOnly
  repeat' first
    | with_reducible assumption
    | exact hk.of rfl
    | intro _
    | extract_lets
    | with_reducible refine OutWithin.ofNext ?_
    | with_reducible refine State.onClock_within ?_ ?_
    | with_reducible apply State.matrixCommand_within
    | with_reducible apply State.planMatmul_within

theorem execIssuecapWrite_within {src node val s} (hk : Sub 132102 k) (hs : Within k r s) :
    OutWithin k r (execIssuecapWrite src node val s) := by
  unfold execIssuecapWrite
  repeat' first
    | with_reducible assumption
    | exact hk.of rfl
    | intro _
    | extract_lets
    | with_reducible refine OutWithin.ofNext ?_
    | with_reducible refine State.onClock_within ?_ ?_
    | with_reducible apply State.objTurned_within
    | with_reducible apply State.setO_within
    | with_reducible refine Within.foldl ?_ ?_
    | with_reducible refine Within.foldlFst ?_ ?_
    | with_reducible refine Within.foldlSnd ?_ ?_
    | dsimp -zeta only
    | split

end Sys2Proof.Machine
end

