-- ==== Sys2Proof/Laws/Frame/Vector.lean ====
section
/-! SUPPORT. What the functions of Machine/Vector.lean may change. -/

namespace Sys2Proof.Machine

variable {k : Nat} {r : State}

theorem State.vectorOneRow_within {s part node b m} (hk : Sub 912 k) (hs : Within k r s) :
    Within k r (State.vectorOneRow s part node b m).1 := by
  unfold State.vectorOneRow
  repeat' first
    | with_reducible assumption
    | exact hk.of rfl
    | intro _
    | extract_lets
    | with_reducible apply State.scatter_within

theorem State.proundRow_within {s part node b m} (hk : Sub 912 k) (hs : Within k r s) :
    Within k r (State.proundRow s part node b m).1 := by
  unfold State.proundRow
  repeat' first
    | with_reducible assumption
    | exact hk.of rfl
    | intro _
    | extract_lets
    | with_reducible apply State.scatter_within

theorem State.paddTileRow_within {s part node b x4} (hk : Sub 912 k) (hs : Within k r s) :
    Within k r (State.paddTileRow s part node b x4) := by
  unfold State.paddTileRow
  repeat' first
    | with_reducible assumption
    | exact hk.of rfl
    | intro _
    | extract_lets
    | with_reducible apply State.writeRun_within
    | with_reducible refine Within.foldl ?_ ?_

theorem State.vectorUnit_within {s part node b u} (hk : Sub 912 k) (hs : Within k r s) :
    Within k r (State.vectorUnit s part node b u).1 := by
  unfold State.vectorUnit
  repeat' first
    | with_reducible assumption
    | exact hk.of rfl
    | intro _
    | extract_lets
    | with_reducible apply State.paddTileRow_within
    | with_reducible apply State.proundRow_within
    | with_reducible apply State.vectorOneRow_within
    | with_reducible refine Within.foldl ?_ ?_
    | with_reducible refine Within.foldlFst ?_ ?_
    | with_reducible refine Within.foldlSnd ?_ ?_
    | dsimp -zeta only
    | split
    | with_reducible refine Within.ofFst ?_ (by assumption)
    | with_reducible refine Within.ofSnd ?_ (by assumption)
    | with_reducible refine Within.ofSome ?_ (by assumption)
    | dsimp -zeta +zetaDelta only

theorem State.vectorPlan_within {s node x} (hk : Sub 912 k) :
    RunWithin k (State.vectorPlan s node x).run := by
  unfold State.vectorPlan
  repeat' first
    | with_reducible assumption
    | exact hk.of rfl
    | intro _
    | extract_lets
    | with_reducible apply State.vectorUnit_within
    | with_reducible refine Within.foldl ?_ ?_
    | with_reducible refine Within.foldlFst ?_ ?_
    | with_reducible refine Within.foldlSnd ?_ ?_
    | dsimp -zeta only
    | split
    | with_reducible refine RunWithin.of ?_

theorem State.planVector_within {s node x} (hk : Sub 912 k) :
    PlanWithin k (State.planVector s node x) := by
  unfold State.planVector
  repeat' first
    | with_reducible assumption
    | exact hk.of rfl
    | intro _
    | extract_lets
    | exact PlanWithin.refused
    | with_reducible refine PlanWithin.mk' ?_
    | with_reducible refine State.guardPlan_within ?_
    | with_reducible apply State.vectorPlan_within

theorem State.vectorCommand_within {s is node errs} (hk : Sub 136087 k) (hs : Within k r s) :
    Within k r (State.vectorCommand s is node errs) := by
  unfold State.vectorCommand
  repeat' first
    | with_reducible assumption
    | exact hk.of rfl
    | intro _
    | extract_lets
    | with_reducible refine OutWithin.ofNext ?_
    | with_reducible refine State.onClock_within ?_ ?_
    | with_reducible apply State.planVector_within
    | with_reducible apply State.runToEnd_within
    | with_reducible refine Within.foldl ?_ ?_
    | with_reducible refine Within.foldlFst ?_ ?_
    | with_reducible refine Within.foldlSnd ?_ ?_
    | dsimp -zeta only
    | split

theorem execAdd_within {node errs s} (hk : Sub 136087 k) (hs : Within k r s) :
    OutWithin k r (execAdd node errs s) := by
  unfold execAdd
  repeat' first
    | with_reducible assumption
    | exact hk.of rfl
    | intro _
    | extract_lets
    | with_reducible refine OutWithin.ofNext ?_
    | with_reducible refine State.onClock_within ?_ ?_
    | with_reducible apply State.vectorCommand_within

theorem execMul_within {node errs s} (hk : Sub 136087 k) (hs : Within k r s) :
    OutWithin k r (execMul node errs s) := by
  unfold execMul
  repeat' first
    | with_reducible assumption
    | exact hk.of rfl
    | intro _
    | extract_lets
    | with_reducible refine OutWithin.ofNext ?_
    | with_reducible refine State.onClock_within ?_ ?_
    | with_reducible apply State.vectorCommand_within

theorem execFma_within {node errs s} (hk : Sub 136087 k) (hs : Within k r s) :
    OutWithin k r (execFma node errs s) := by
  unfold execFma
  repeat' first
    | with_reducible assumption
    | exact hk.of rfl
    | intro _
    | extract_lets
    | with_reducible refine OutWithin.ofNext ?_
    | with_reducible refine State.onClock_within ?_ ?_
    | with_reducible apply State.vectorCommand_within

theorem execMax_within {node errs s} (hk : Sub 136087 k) (hs : Within k r s) :
    OutWithin k r (execMax node errs s) := by
  unfold execMax
  repeat' first
    | with_reducible assumption
    | exact hk.of rfl
    | intro _
    | extract_lets
    | with_reducible refine OutWithin.ofNext ?_
    | with_reducible refine State.onClock_within ?_ ?_
    | with_reducible apply State.vectorCommand_within

theorem execMin_within {node errs s} (hk : Sub 136087 k) (hs : Within k r s) :
    OutWithin k r (execMin node errs s) := by
  unfold execMin
  repeat' first
    | with_reducible assumption
    | exact hk.of rfl
    | intro _
    | extract_lets
    | with_reducible refine OutWithin.ofNext ?_
    | with_reducible refine State.onClock_within ?_ ?_
    | with_reducible apply State.vectorCommand_within

theorem execCvt_within {node errs s} (hk : Sub 136087 k) (hs : Within k r s) :
    OutWithin k r (execCvt node errs s) := by
  unfold execCvt
  repeat' first
    | with_reducible assumption
    | exact hk.of rfl
    | intro _
    | extract_lets
    | with_reducible refine OutWithin.ofNext ?_
    | with_reducible refine State.onClock_within ?_ ?_
    | with_reducible apply State.vectorCommand_within

theorem execAct_within {node errs s} (hk : Sub 136087 k) (hs : Within k r s) :
    OutWithin k r (execAct node errs s) := by
  unfold execAct
  repeat' first
    | with_reducible assumption
    | exact hk.of rfl
    | intro _
    | extract_lets
    | with_reducible refine OutWithin.ofNext ?_
    | with_reducible refine State.onClock_within ?_ ?_
    | with_reducible apply State.vectorCommand_within

theorem execRsum_within {node errs s} (hk : Sub 136087 k) (hs : Within k r s) :
    OutWithin k r (execRsum node errs s) := by
  unfold execRsum
  repeat' first
    | with_reducible assumption
    | exact hk.of rfl
    | intro _
    | extract_lets
    | with_reducible refine OutWithin.ofNext ?_
    | with_reducible refine State.onClock_within ?_ ?_
    | with_reducible apply State.vectorCommand_within

theorem execRmax_within {node errs s} (hk : Sub 136087 k) (hs : Within k r s) :
    OutWithin k r (execRmax node errs s) := by
  unfold execRmax
  repeat' first
    | with_reducible assumption
    | exact hk.of rfl
    | intro _
    | extract_lets
    | with_reducible refine OutWithin.ofNext ?_
    | with_reducible refine State.onClock_within ?_ ?_
    | with_reducible apply State.vectorCommand_within

theorem execSoftmax_within {node errs s} (hk : Sub 136087 k) (hs : Within k r s) :
    OutWithin k r (execSoftmax node errs s) := by
  unfold execSoftmax
  repeat' first
    | with_reducible assumption
    | exact hk.of rfl
    | intro _
    | extract_lets
    | with_reducible refine OutWithin.ofNext ?_
    | with_reducible refine State.onClock_within ?_ ?_
    | with_reducible apply State.vectorCommand_within

theorem execRmsnorm_within {node errs s} (hk : Sub 136087 k) (hs : Within k r s) :
    OutWithin k r (execRmsnorm node errs s) := by
  unfold execRmsnorm
  repeat' first
    | with_reducible assumption
    | exact hk.of rfl
    | intro _
    | extract_lets
    | with_reducible refine OutWithin.ofNext ?_
    | with_reducible refine State.onClock_within ?_ ?_
    | with_reducible apply State.vectorCommand_within

theorem execLayernorm_within {node errs s} (hk : Sub 136087 k) (hs : Within k r s) :
    OutWithin k r (execLayernorm node errs s) := by
  unfold execLayernorm
  repeat' first
    | with_reducible assumption
    | exact hk.of rfl
    | intro _
    | extract_lets
    | with_reducible refine OutWithin.ofNext ?_
    | with_reducible refine State.onClock_within ?_ ?_
    | with_reducible apply State.vectorCommand_within

theorem execPadd_within {node errs s} (hk : Sub 136087 k) (hs : Within k r s) :
    OutWithin k r (execPadd node errs s) := by
  unfold execPadd
  repeat' first
    | with_reducible assumption
    | exact hk.of rfl
    | intro _
    | extract_lets
    | with_reducible refine OutWithin.ofNext ?_
    | with_reducible refine State.onClock_within ?_ ?_
    | with_reducible apply State.vectorCommand_within

theorem execPround_within {node errs s} (hk : Sub 136087 k) (hs : Within k r s) :
    OutWithin k r (execPround node errs s) := by
  unfold execPround
  repeat' first
    | with_reducible assumption
    | exact hk.of rfl
    | intro _
    | extract_lets
    | with_reducible refine OutWithin.ofNext ?_
    | with_reducible refine State.onClock_within ?_ ?_
    | with_reducible apply State.vectorCommand_within

end Sys2Proof.Machine
end

