-- ==== Sys2Proof/Laws/Frame/Attention.lean ====
section
/-! SUPPORT. What the functions of Machine/Attention.lean may change. -/

namespace Sys2Proof.Machine

variable {k : Nat} {r : State}

theorem State.setPtEntry_within {s node part a e} (hk : Sub 912 k) (hs : Within k r s) :
    Within k r (State.setPtEntry s node part a e) := by
  unfold State.setPtEntry
  repeat' first
    | with_reducible assumption
    | exact hk.of rfl
    | intro _
    | extract_lets
    | with_reducible apply State.writeWord_within

theorem State.setOwners_within {s t} (hk : Sub 262144 k) (hs : Within k r s) :
    Within k r (State.setOwners s t) := by
  unfold State.setOwners
  repeat' first
    | with_reducible assumption
    | exact hk.of rfl
    | intro _
    | extract_lets
    | fail_if_no_progress ((with_reducible refine Within.kv ?_ ?_ _); exact hk.of rfl)

theorem State.ownPage_within {s node p i entry count} (hk : Sub 263057 k) (hs : Within k r s) :
    Within k r (State.ownPage s node p i entry count) := by
  unfold State.ownPage
  repeat' first
    | with_reducible assumption
    | exact hk.of rfl
    | intro _
    | extract_lets
    | with_reducible apply State.setOwners_within
    | with_reducible apply State.writeRun_within
    | fail_if_no_progress ((with_reducible refine Within.free ?_ ?_ _); exact hk.of rfl)

theorem State.freePage_within {s node a} (hk : Sub 262144 k) (hs : Within k r s) :
    Within k r (State.freePage s node a) := by
  unfold State.freePage
  repeat' first
    | with_reducible assumption
    | exact hk.of rfl
    | intro _
    | extract_lets
    | with_reducible apply State.setOwners_within
    | with_reducible refine Within.foldl ?_ ?_
    | with_reducible refine Within.foldlFst ?_ ?_
    | with_reducible refine Within.foldlSnd ?_ ?_
    | dsimp -zeta only
    | split

theorem State.usePage_within {s node a count} (hk : Sub 263057 k) (hs : Within k r s) :
    Within k r (State.usePage s node a count) := by
  unfold State.usePage
  repeat' first
    | with_reducible assumption
    | exact hk.of rfl
    | intro _
    | extract_lets
    | with_reducible apply State.ownPage_within
    | with_reducible refine Within.foldl ?_ ?_
    | with_reducible refine Within.foldlFst ?_ ?_
    | with_reducible refine Within.foldlSnd ?_ ?_
    | dsimp -zeta only
    | split

theorem State.takePage_within {s node p c count a range i t} (hk : Sub 267219 k) (hs : Within k r s)
    (he : State.takePage s node p c count a range = some (i, t)) : Within k r t := by
  unfold State.takePage at he
  split at he
  · cases he
    exact State.ownPage_within (hk.of rfl) hs
  · split at he
    · cases he
    · cases he
      exact State.ownPage_within (hk.of rfl) (State.event_within (hk.of rfl) (State.setPtEntry_within (hk.of rfl) hs))

theorem State.scorePlan_within {s node x} (hk : Sub 912 k) :
    RunWithin k (State.scorePlan s node x).run := by
  unfold State.scorePlan
  repeat' first
    | with_reducible assumption
    | exact hk.of rfl
    | intro _
    | extract_lets
    | with_reducible apply State.scatter_within
    | with_reducible refine Within.foldl ?_ ?_
    | with_reducible refine Within.foldlFst ?_ ?_
    | with_reducible refine Within.foldlSnd ?_ ?_
    | dsimp -zeta only
    | split
    | with_reducible refine RunWithin.of ?_

theorem State.valuePlan_within {s node x} (hk : Sub 912 k) :
    RunWithin k (State.valuePlan s node x).run := by
  unfold State.valuePlan
  repeat' first
    | with_reducible assumption
    | exact hk.of rfl
    | intro _
    | extract_lets
    | with_reducible apply State.writeUnit_within
    | with_reducible refine Within.foldl ?_ ?_
    | with_reducible refine Within.foldlFst ?_ ?_
    | with_reducible refine Within.foldlSnd ?_ ?_
    | dsimp -zeta only
    | split
    | with_reducible refine RunWithin.of ?_

theorem State.droppedPlan_within {node b dests} (hk : Sub 0 k) :
    RunWithin k (State.droppedPlan node b dests).run := by
  unfold State.droppedPlan
  repeat' first
    | with_reducible assumption
    | exact hk.of rfl
    | intro _
    | extract_lets
    | with_reducible refine Within.foldl ?_ ?_
    | with_reducible refine Within.foldlFst ?_ ?_
    | with_reducible refine Within.foldlSnd ?_ ?_
    | dsimp -zeta only
    | split
    | with_reducible refine RunWithin.of ?_

theorem State.attnPlan_within {s node x} (hk : Sub 912 k) :
    RunWithin k (State.attnPlan s node x).run := by
  have h : RunWithin k (if (⟨x.body⟩ : ABody).op = 0 then s.scorePlan node x else s.valuePlan node x).run := by
    split
    · exact State.scorePlan_within (hk.of rfl)
    · exact State.valuePlan_within (hk.of rfl)
  unfold State.attnPlan
  extract_lets
  split
  · exact State.droppedPlan_within (hk.of rfl)
  · exact h

theorem State.planAttention_within {s node x} (hk : Sub 912 k) :
    PlanWithin k (State.planAttention s node x) := by
  unfold State.planAttention
  repeat' first
    | with_reducible assumption
    | exact hk.of rfl
    | intro _
    | extract_lets
    | exact PlanWithin.refused
    | with_reducible refine PlanWithin.mk' ?_
    | with_reducible refine State.guardPlan_within ?_
    | with_reducible apply State.attnPlan_within

theorem State.countAttn_within {s node} (hk : Sub 2 k) (hs : Within k r s) :
    Within k r (State.countAttn s node) := by
  unfold State.countAttn
  repeat' first
    | with_reducible assumption
    | exact hk.of rfl
    | intro _
    | extract_lets
    | with_reducible apply State.setO_within

theorem State.recordUse_within {s node b} (hk : Sub 263057 k) (hs : Within k r s) :
    Within k r (State.recordUse s node b) := by
  unfold State.recordUse
  repeat' first
    | with_reducible assumption
    | exact hk.of rfl
    | intro _
    | extract_lets
    | with_reducible apply State.usePage_within
    | with_reducible refine Within.foldl ?_ ?_

theorem State.attnRead_within {s is node errs} (hk : Sub 398231 k) (hs : Within k r s) :
    Within k r (State.attnRead s is node errs) := by
  unfold State.attnRead
  repeat' first
    | with_reducible assumption
    | exact hk.of rfl
    | intro _
    | extract_lets
    | with_reducible apply State.countAttn_within
    | with_reducible apply State.planAttention_within
    | with_reducible apply State.recordUse_within
    | with_reducible apply State.releaseBias_within
    | with_reducible apply State.runToEnd_within
    | with_reducible refine Within.foldl ?_ ?_
    | with_reducible refine Within.foldlFst ?_ ?_
    | with_reducible refine Within.foldlSnd ?_ ?_
    | dsimp -zeta only
    | split
    | with_reducible refine Within.ofFst ?_ (by assumption)
    | with_reducible refine Within.ofSnd ?_ (by assumption)
    | with_reducible refine Within.ofSome ?_ (by assumption)
    | dsimp -zeta +zetaDelta only

theorem execScore_within {node errs s} (hk : Sub 398231 k) (hs : Within k r s) :
    OutWithin k r (execScore node errs s) := by
  unfold execScore
  repeat' first
    | with_reducible assumption
    | exact hk.of rfl
    | intro _
    | extract_lets
    | with_reducible refine OutWithin.ofNext ?_
    | with_reducible refine State.onClock_within ?_ ?_
    | with_reducible apply State.attnRead_within

theorem execValue_within {node errs s} (hk : Sub 398231 k) (hs : Within k r s) :
    OutWithin k r (execValue node errs s) := by
  unfold execValue
  repeat' first
    | with_reducible assumption
    | exact hk.of rfl
    | intro _
    | extract_lets
    | with_reducible refine OutWithin.ofNext ?_
    | with_reducible refine State.onClock_within ?_ ?_
    | with_reducible apply State.attnRead_within

theorem State.givePages_within {node p c count b l s} (hk : Sub 267219 k) (hs : Within k r s) :
    Within k r (State.givePages node p c count b l s).1 := by
  induction l generalizing s with
  | nil => exact hs
  | cons a l ih =>
    unfold State.givePages
    split
    · exact hs
    · rename_i he
      exact ih (State.setPtEntry_within (hk.of rfl) (State.takePage_within (hk.of rfl) hs he))

theorem State.kvWriteRows_within {s node p count b} (hk : Sub 263057 k) (hs : Within k r s) :
    Within k r (State.kvWriteRows s node p count b) := by
  unfold State.kvWriteRows
  repeat' first
    | with_reducible assumption
    | exact hk.of rfl
    | intro _
    | extract_lets
    | with_reducible apply State.setPtEntry_within
    | with_reducible apply State.usePage_within
    | with_reducible apply State.writeRun_within
    | with_reducible refine Within.foldl ?_ ?_

theorem State.kvEntry_within {s node p b a} (hk : Sub 263056 k) (hs : Within k r s) :
    Within k r (State.kvEntry s node p b a) := by
  unfold State.kvEntry
  repeat' first
    | with_reducible assumption
    | exact hk.of rfl
    | intro _
    | extract_lets
    | with_reducible apply State.freePage_within
    | with_reducible apply State.setPtEntry_within
    | with_reducible refine Within.foldl ?_ ?_
    | with_reducible refine Within.foldlFst ?_ ?_
    | with_reducible refine Within.foldlSnd ?_ ?_
    | dsimp -zeta only
    | split

theorem State.kvApply_within {s node p c b} (hk : Sub 267219 k) (hs : Within k r s) :
    Within k r (State.kvApply s node p c b).1 := by
  unfold State.kvApply
  repeat' first
    | with_reducible assumption
    | exact hk.of rfl
    | intro _
    | extract_lets
    | with_reducible apply State.givePages_within
    | with_reducible apply State.kvEntry_within
    | with_reducible apply State.kvWriteRows_within
    | with_reducible refine Within.foldl ?_ ?_
    | with_reducible refine Within.foldlFst ?_ ?_
    | with_reducible refine Within.foldlSnd ?_ ?_
    | dsimp -zeta only
    | split

theorem State.kvPlan_within {s node b} (hk : Sub 0 k) :
    RunWithin k (State.kvPlan s node b).run := by
  unfold State.kvPlan
  repeat' first
    | with_reducible assumption
    | exact hk.of rfl
    | intro _
    | extract_lets
    | with_reducible refine Within.foldl ?_ ?_
    | with_reducible refine Within.foldlFst ?_ ?_
    | with_reducible refine Within.foldlSnd ?_ ?_
    | dsimp -zeta only
    | split
    | with_reducible refine RunWithin.of ?_

theorem State.kvCommand_within {s op node errs} (hk : Sub 398295 k) (hs : Within k r s) :
    Within k r (State.kvCommand s op node errs) := by
  unfold State.kvCommand
  repeat' first
    | with_reducible assumption
    | exact hk.of rfl
    | intro _
    | extract_lets
    | with_reducible apply State.countAttn_within
    | with_reducible apply State.countRefusal_within
    | with_reducible apply State.finish_within
    | with_reducible apply State.kvApply_within
    | with_reducible apply State.kvPlan_within
    | with_reducible apply State.poisonAll_within
    | with_reducible apply State.readSectors_within
    | with_reducible apply State.releaseBias_within
    | with_reducible refine Within.foldl ?_ ?_
    | with_reducible refine Within.foldlFst ?_ ?_
    | with_reducible refine Within.foldlSnd ?_ ?_
    | dsimp -zeta only
    | split

theorem execKvWrite_within {node errs s} (hk : Sub 398295 k) (hs : Within k r s) :
    OutWithin k r (execKvWrite node errs s) := by
  unfold execKvWrite
  repeat' first
    | with_reducible assumption
    | exact hk.of rfl
    | intro _
    | extract_lets
    | with_reducible refine OutWithin.ofNext ?_
    | with_reducible refine State.onClock_within ?_ ?_
    | with_reducible apply State.kvCommand_within

theorem execKvAlloc_within {node errs s} (hk : Sub 398295 k) (hs : Within k r s) :
    OutWithin k r (execKvAlloc node errs s) := by
  unfold execKvAlloc
  repeat' first
    | with_reducible assumption
    | exact hk.of rfl
    | intro _
    | extract_lets
    | with_reducible refine OutWithin.ofNext ?_
    | with_reducible refine State.onClock_within ?_ ?_
    | with_reducible apply State.kvCommand_within

theorem execKvMark_within {node errs s} (hk : Sub 398295 k) (hs : Within k r s) :
    OutWithin k r (execKvMark node errs s) := by
  unfold execKvMark
  repeat' first
    | with_reducible assumption
    | exact hk.of rfl
    | intro _
    | extract_lets
    | with_reducible refine OutWithin.ofNext ?_
    | with_reducible refine State.onClock_within ?_ ?_
    | with_reducible apply State.kvCommand_within

theorem execKvSeal_within {node errs s} (hk : Sub 398295 k) (hs : Within k r s) :
    OutWithin k r (execKvSeal node errs s) := by
  unfold execKvSeal
  repeat' first
    | with_reducible assumption
    | exact hk.of rfl
    | intro _
    | extract_lets
    | with_reducible refine OutWithin.ofNext ?_
    | with_reducible refine State.onClock_within ?_ ?_
    | with_reducible apply State.kvCommand_within

theorem execKvDrop_within {node errs s} (hk : Sub 398295 k) (hs : Within k r s) :
    OutWithin k r (execKvDrop node errs s) := by
  unfold execKvDrop
  repeat' first
    | with_reducible assumption
    | exact hk.of rfl
    | intro _
    | extract_lets
    | with_reducible refine OutWithin.ofNext ?_
    | with_reducible refine State.onClock_within ?_ ?_
    | with_reducible apply State.kvCommand_within

theorem execKvFree_within {node errs s} (hk : Sub 398295 k) (hs : Within k r s) :
    OutWithin k r (execKvFree node errs s) := by
  unfold execKvFree
  repeat' first
    | with_reducible assumption
    | exact hk.of rfl
    | intro _
    | extract_lets
    | with_reducible refine OutWithin.ofNext ?_
    | with_reducible refine State.onClock_within ?_ ?_
    | with_reducible apply State.kvCommand_within

theorem execKvAdopt_within {node errs s} (hk : Sub 398295 k) (hs : Within k r s) :
    OutWithin k r (execKvAdopt node errs s) := by
  unfold execKvAdopt
  repeat' first
    | with_reducible assumption
    | exact hk.of rfl
    | intro _
    | extract_lets
    | with_reducible refine OutWithin.ofNext ?_
    | with_reducible refine State.onClock_within ?_ ?_
    | with_reducible apply State.kvCommand_within

theorem execKvPin_within {node errs s} (hk : Sub 398295 k) (hs : Within k r s) :
    OutWithin k r (execKvPin node errs s) := by
  unfold execKvPin
  repeat' first
    | with_reducible assumption
    | exact hk.of rfl
    | intro _
    | extract_lets
    | with_reducible refine OutWithin.ofNext ?_
    | with_reducible refine State.onClock_within ?_ ?_
    | with_reducible apply State.kvCommand_within

theorem State.onyxTurned_within {s src node blk} (hk : Sub 132100 k) (hs : Within k r s) :
    Within k r (State.onyxTurned s src node blk) := by
  unfold State.onyxTurned
  repeat' first
    | with_reducible assumption
    | exact hk.of rfl
    | intro _
    | extract_lets
    | with_reducible apply State.turnAway_within
    | with_reducible refine Within.foldl ?_ ?_
    | with_reducible refine Within.foldlFst ?_ ?_
    | with_reducible refine Within.foldlSnd ?_ ?_
    | dsimp -zeta only
    | split

theorem execKvpoolWrite_within {src node p val s} (hk : Sub 395158 k) (hs : Within k r s) :
    OutWithin k r (execKvpoolWrite src node p val s) := by
  unfold execKvpoolWrite
  repeat' first
    | with_reducible assumption
    | exact hk.of rfl
    | intro _
    | extract_lets
    | with_reducible refine OutWithin.ofNext ?_
    | with_reducible refine State.onClock_within ?_ ?_
    | with_reducible apply State.onyxTurned_within
    | with_reducible apply State.setO_within
    | with_reducible apply State.writeRun_within
    | fail_if_no_progress ((with_reducible refine Within.kv ?_ ?_ _); exact hk.of rfl)
    | with_reducible refine Within.foldl ?_ ?_
    | with_reducible refine Within.foldlFst ?_ ?_
    | with_reducible refine Within.foldlSnd ?_ ?_
    | dsimp -zeta only
    | split

theorem execKvpoolInitDone_within {node p s} (hk : Sub 262144 k) (hs : Within k r s) :
    OutWithin k r (execKvpoolInitDone node p s) := by
  unfold execKvpoolInitDone
  repeat' first
    | with_reducible assumption
    | exact hk.of rfl
    | intro _
    | extract_lets
    | with_reducible refine OutWithin.ofNext ?_
    | with_reducible refine State.onClock_within ?_ ?_
    | fail_if_no_progress ((with_reducible refine Within.kv ?_ ?_ _); exact hk.of rfl)

theorem execBiasTableWrite_within {src node off val s} (hk : Sub 394262 k) (hs : Within k r s) :
    OutWithin k r (execBiasTableWrite src node off val s) := by
  unfold execBiasTableWrite
  repeat' first
    | with_reducible assumption
    | exact hk.of rfl
    | intro _
    | extract_lets
    | with_reducible refine OutWithin.ofNext ?_
    | with_reducible refine State.onClock_within ?_ ?_
    | with_reducible apply State.applyBias_within
    | with_reducible apply State.onyxTurned_within
    | fail_if_no_progress ((with_reducible refine Within.kv ?_ ?_ _); exact hk.of rfl)
    | with_reducible refine Within.foldl ?_ ?_
    | with_reducible refine Within.foldlFst ?_ ?_
    | with_reducible refine Within.foldlSnd ?_ ?_
    | dsimp -zeta only
    | split

end Sys2Proof.Machine
end

