-- ==== Sys2Proof/Laws/Frame/Sequence.lean ====
section
/-! SUPPORT. What the functions of Machine/Sequence.lean may change. -/

namespace Sys2Proof.Machine

variable {k : Nat} {r : State}

theorem State.scanSteps_within {part node b q src n i fresh s chs sat} (hk : Sub 912 k) (hs : Within k r s) :
    Within k r (State.scanSteps part node b q src n i fresh s chs sat).1 := by
  induction n generalizing s i fresh chs sat with
  | zero => exact hs
  | succ n ih =>
    unfold State.scanSteps
    extract_lets
    exact ih (State.scatter_within (hk.of rfl) hs)

theorem State.countSteps_within {s node x2} (hk : Sub 2 k) (hs : Within k r s) :
    Within k r (State.countSteps s node x2) := by
  unfold State.countSteps
  repeat' first
    | with_reducible assumption
    | exact hk.of rfl
    | intro _
    | extract_lets
    | with_reducible apply State.setO_within

theorem State.scanUnits_within {s part node b start lo hi} (hk : Sub 912 k) (hs : Within k r s) :
    Within k r (State.scanUnits s part node b start lo hi).1 := by
  unfold State.scanUnits
  repeat' first
    | with_reducible assumption
    | exact hk.of rfl
    | intro _
    | extract_lets
    | with_reducible apply State.scanSteps_within

theorem State.scanPlan_within {s node x} (hk : Sub 914 k) :
    RunWithin k (State.scanPlan s node x).run := by
  unfold State.scanPlan
  repeat' first
    | with_reducible assumption
    | exact hk.of rfl
    | intro _
    | extract_lets
    | with_reducible apply State.countSteps_within
    | with_reducible apply State.scanUnits_within
    | with_reducible apply State.scatter_within
    | with_reducible refine Within.foldl ?_ ?_
    | with_reducible refine Within.foldlFst ?_ ?_
    | with_reducible refine Within.foldlSnd ?_ ?_
    | dsimp -zeta only
    | split
    | with_reducible refine RunWithin.of ?_
    | with_reducible refine Within.ofFst ?_ (by assumption)
    | with_reducible refine Within.ofSnd ?_ (by assumption)
    | with_reducible refine Within.ofSome ?_ (by assumption)
    | dsimp -zeta +zetaDelta only

theorem State.planScan_within {s node x} (hk : Sub 914 k) :
    PlanWithin k (State.planScan s node x) := by
  unfold State.planScan
  repeat' first
    | with_reducible assumption
    | exact hk.of rfl
    | intro _
    | extract_lets
    | exact PlanWithin.refused
    | with_reducible refine PlanWithin.mk' ?_
    | with_reducible refine State.guardPlan_within ?_
    | with_reducible apply State.scanPlan_within

theorem execGateTableWrite_within {src node off val s} (hk : Sub 656406 k) (hs : Within k r s) :
    OutWithin k r (execGateTableWrite src node off val s) := by
  unfold execGateTableWrite
  repeat' first
    | with_reducible assumption
    | exact hk.of rfl
    | intro _
    | extract_lets
    | with_reducible refine OutWithin.ofNext ?_
    | with_reducible refine State.onClock_within ?_ ?_
    | with_reducible apply State.applyGate_within
    | with_reducible apply State.onyxTurned_within
    | with_reducible apply State.setO_within
    | fail_if_no_progress ((with_reducible refine Within.seq ?_ ?_ _); exact hk.of rfl)
    | with_reducible refine Within.foldl ?_ ?_
    | with_reducible refine Within.foldlFst ?_ ?_
    | with_reducible refine Within.foldlSnd ?_ ?_
    | dsimp -zeta only
    | split

theorem execScan_within {node errs s} (hk : Sub 660375 k) (hs : Within k r s) :
    OutWithin k r (execScan node errs s) := by
  unfold execScan
  repeat' first
    | with_reducible assumption
    | exact hk.of rfl
    | intro _
    | extract_lets
    | with_reducible refine OutWithin.ofNext ?_
    | with_reducible refine State.onClock_within ?_ ?_
    | with_reducible apply State.planScan_within
    | with_reducible apply State.releaseGate_within
    | with_reducible apply State.runToEnd_within
    | with_reducible refine Within.foldl ?_ ?_
    | with_reducible refine Within.foldlFst ?_ ?_
    | with_reducible refine Within.foldlSnd ?_ ?_
    | dsimp -zeta only
    | split

theorem State.openPlan_within {node b} (hk : Sub 0 k) :
    RunWithin k (State.openPlan node b).run := by
  unfold State.openPlan
  repeat' first
    | with_reducible assumption
    | exact hk.of rfl
    | intro _
    | extract_lets
    | with_reducible refine Within.foldl ?_ ?_
    | with_reducible refine Within.foldlFst ?_ ?_
    | with_reducible refine Within.foldlSnd ?_ ?_
    | dsimp -zeta only
    | split
    | with_reducible refine RunWithin.of ?_

theorem execStreamOpen_within {node errs s} (hk : Sub 660374 k) (hs : Within k r s) :
    OutWithin k r (execStreamOpen node errs s) := by
  unfold execStreamOpen
  repeat' first
    | with_reducible assumption
    | exact hk.of rfl
    | intro _
    | extract_lets
    | with_reducible refine OutWithin.ofNext ?_
    | with_reducible refine State.onClock_within ?_ ?_
    | with_reducible apply State.countRefusal_within
    | with_reducible apply State.finish_within
    | with_reducible apply State.openPlan_within
    | with_reducible apply State.poisonAll_within
    | with_reducible apply State.readSectors_within
    | with_reducible apply State.scatter_within
    | with_reducible apply State.setO_within
    | fail_if_no_progress ((with_reducible refine Within.seq ?_ ?_ _); exact hk.of rfl)
    | with_reducible refine Within.foldl ?_ ?_
    | with_reducible refine Within.foldlFst ?_ ?_
    | with_reducible refine Within.foldlSnd ?_ ?_
    | dsimp -zeta only
    | split
    | with_reducible refine Within.ofFst ?_ (by assumption)
    | with_reducible refine Within.ofSnd ?_ (by assumption)
    | with_reducible refine Within.ofSome ?_ (by assumption)
    | dsimp -zeta +zetaDelta only

theorem execStreamClose_within {node s} (hk : Sub 528402 k) (hs : Within k r s) :
    OutWithin k r (execStreamClose node s) := by
  unfold execStreamClose
  repeat' first
    | with_reducible assumption
    | exact hk.of rfl
    | intro _
    | extract_lets
    | with_reducible refine OutWithin.ofNext ?_
    | with_reducible refine State.onClock_within ?_ ?_
    | with_reducible apply State.closeSlot_within
    | with_reducible apply State.finish_within
    | with_reducible apply State.releaseGate_within
    | with_reducible refine Within.foldl ?_ ?_
    | with_reducible refine Within.foldlFst ?_ ?_
    | with_reducible refine Within.foldlSnd ?_ ?_
    | dsimp -zeta only
    | split

theorem State.ringDoorbell_within {s node slot add} (hk : Sub 524290 k) (hs : Within k r s) :
    Within k r (State.ringDoorbell s node slot add) := by
  unfold State.ringDoorbell
  repeat' first
    | with_reducible assumption
    | exact hk.of rfl
    | intro _
    | extract_lets
    | with_reducible apply State.setO_within
    | fail_if_no_progress ((with_reducible refine Within.seq ?_ ?_ _); exact hk.of rfl)
    | with_reducible refine Within.foldl ?_ ?_
    | with_reducible refine Within.foldlFst ?_ ?_
    | with_reducible refine Within.foldlSnd ?_ ?_
    | dsimp -zeta only
    | split

theorem execStreamDoorbell_within {src node slot val s} (hk : Sub 656390 k) (hs : Within k r s) :
    OutWithin k r (execStreamDoorbell src node slot val s) := by
  unfold execStreamDoorbell
  repeat' first
    | with_reducible assumption
    | exact hk.of rfl
    | intro _
    | extract_lets
    | with_reducible refine OutWithin.ofNext ?_
    | with_reducible refine State.onClock_within ?_ ?_
    | with_reducible apply State.onyxTurned_within
    | with_reducible apply State.ringDoorbell_within
    | with_reducible refine Within.foldl ?_ ?_
    | with_reducible refine Within.foldlFst ?_ ?_
    | with_reducible refine Within.foldlSnd ?_ ?_
    | dsimp -zeta only
    | split

theorem execStreamStep_within {node s} (hk : Sub 524288 k) (hs : Within k r s) :
    OutWithin k r (execStreamStep node s) := by
  unfold execStreamStep
  repeat' first
    | with_reducible assumption
    | exact hk.of rfl
    | intro _
    | extract_lets
    | with_reducible refine OutWithin.ofNext ?_
    | with_reducible refine State.onClock_within ?_ ?_
    | fail_if_no_progress ((with_reducible refine Within.seq ?_ ?_ _); exact hk.of rfl)
    | with_reducible refine Within.foldl ?_ ?_
    | with_reducible refine Within.foldlFst ?_ ?_
    | with_reducible refine Within.foldlSnd ?_ ?_
    | dsimp -zeta only
    | split

theorem State.streamPass_within {s node slot w errs} (hk : Sub 5078 k) (hs : Within k r s) :
    Within k r (State.streamPass s node slot w errs) := by
  unfold State.streamPass
  repeat' first
    | with_reducible assumption
    | exact hk.of rfl
    | intro _
    | extract_lets
    | with_reducible apply State.countSteps_within
    | with_reducible apply State.event_within
    | with_reducible apply State.poisonAll_within
    | with_reducible apply State.readSectors_within
    | with_reducible apply State.scatter_within
    | with_reducible apply State.setO_within
    | with_reducible refine Within.foldl ?_ ?_
    | with_reducible refine Within.foldlFst ?_ ?_
    | with_reducible refine Within.foldlSnd ?_ ?_
    | dsimp -zeta only
    | split
    | with_reducible refine Within.ofFst ?_ (by assumption)
    | with_reducible refine Within.ofSnd ?_ (by assumption)
    | with_reducible refine Within.ofSome ?_ (by assumption)
    | dsimp -zeta +zetaDelta only

theorem State.endStep_within {s node slot w errs} (hk : Sub 529366 k) (hs : Within k r s) :
    Within k r (State.endStep s node slot w errs) := by
  unfold State.endStep
  repeat' first
    | with_reducible assumption
    | exact hk.of rfl
    | intro _
    | extract_lets
    | with_reducible apply State.closeSlot_within
    | with_reducible apply State.releaseGate_within
    | with_reducible apply State.streamPass_within
    | fail_if_no_progress ((with_reducible refine Within.seq ?_ ?_ _); exact hk.of rfl)
    | with_reducible refine Within.foldl ?_ ?_
    | with_reducible refine Within.foldlFst ?_ ?_
    | with_reducible refine Within.foldlSnd ?_ ?_
    | dsimp -zeta only
    | split

theorem State.drainStep_within {s node} (hk : Sub 529366 k) (hs : Within k r s) :
    Within k r (State.drainStep s node) := by
  unfold State.drainStep
  repeat' first
    | with_reducible assumption
    | exact hk.of rfl
    | intro _
    | extract_lets
    | with_reducible apply State.endStep_within
    | with_reducible refine Within.foldl ?_ ?_
    | with_reducible refine Within.foldlFst ?_ ?_
    | with_reducible refine Within.foldlSnd ?_ ?_
    | dsimp -zeta only
    | split

theorem execStreamStepComplete_within {node errs s} (hk : Sub 529366 k) (hs : Within k r s) :
    OutWithin k r (execStreamStepComplete node errs s) := by
  unfold execStreamStepComplete
  repeat' first
    | with_reducible assumption
    | exact hk.of rfl
    | intro _
    | extract_lets
    | with_reducible refine OutWithin.ofNext ?_
    | with_reducible refine State.onClock_within ?_ ?_
    | with_reducible apply State.endStep_within
    | with_reducible refine Within.foldl ?_ ?_
    | with_reducible refine Within.foldlFst ?_ ?_
    | with_reducible refine Within.foldlSnd ?_ ?_
    | dsimp -zeta only
    | split

theorem State.gateRow_within {s part node b m} (hk : Sub 912 k) (hs : Within k r s) :
    Within k r (State.gateRow s part node b m).1 := by
  unfold State.gateRow
  repeat' first
    | with_reducible assumption
    | exact hk.of rfl
    | intro _
    | extract_lets
    | with_reducible apply State.scatter_within

theorem State.gatePlan_within {s node x} (hk : Sub 912 k) :
    RunWithin k (State.gatePlan s node x).run := by
  unfold State.gatePlan
  repeat' first
    | with_reducible assumption
    | exact hk.of rfl
    | intro _
    | extract_lets
    | with_reducible apply State.gateRow_within
    | with_reducible refine Within.foldl ?_ ?_
    | with_reducible refine Within.foldlFst ?_ ?_
    | with_reducible refine Within.foldlSnd ?_ ?_
    | dsimp -zeta only
    | split
    | with_reducible refine RunWithin.of ?_

theorem State.planGate_within {s node x} (hk : Sub 912 k) :
    PlanWithin k (State.planGate s node x) := by
  unfold State.planGate
  repeat' first
    | with_reducible assumption
    | exact hk.of rfl
    | intro _
    | extract_lets
    | exact PlanWithin.refused
    | with_reducible refine PlanWithin.mk' ?_
    | with_reducible refine State.guardPlan_within ?_
    | with_reducible apply State.gatePlan_within

theorem State.gateCommand_within {s is node errs} (hk : Sub 660375 k) (hs : Within k r s) :
    Within k r (State.gateCommand s is node errs) := by
  unfold State.gateCommand
  repeat' first
    | with_reducible assumption
    | exact hk.of rfl
    | intro _
    | extract_lets
    | with_reducible refine OutWithin.ofNext ?_
    | with_reducible refine State.onClock_within ?_ ?_
    | with_reducible apply State.planGate_within
    | with_reducible apply State.releaseGate_within
    | with_reducible apply State.runToEnd_within
    | with_reducible refine Within.foldl ?_ ?_
    | with_reducible refine Within.foldlFst ?_ ?_
    | with_reducible refine Within.foldlSnd ?_ ?_
    | dsimp -zeta only
    | split

theorem execMap_within {node errs s} (hk : Sub 660375 k) (hs : Within k r s) :
    OutWithin k r (execMap node errs s) := by
  unfold execMap
  repeat' first
    | with_reducible assumption
    | exact hk.of rfl
    | intro _
    | extract_lets
    | with_reducible refine OutWithin.ofNext ?_
    | with_reducible refine State.onClock_within ?_ ?_
    | with_reducible apply State.gateCommand_within

theorem execGmul_within {node errs s} (hk : Sub 660375 k) (hs : Within k r s) :
    OutWithin k r (execGmul node errs s) := by
  unfold execGmul
  repeat' first
    | with_reducible assumption
    | exact hk.of rfl
    | intro _
    | extract_lets
    | with_reducible refine OutWithin.ofNext ?_
    | with_reducible refine State.onClock_within ?_ ?_
    | with_reducible apply State.gateCommand_within

theorem execDecay_within {node errs s} (hk : Sub 660375 k) (hs : Within k r s) :
    OutWithin k r (execDecay node errs s) := by
  unfold execDecay
  repeat' first
    | with_reducible assumption
    | exact hk.of rfl
    | intro _
    | extract_lets
    | with_reducible refine OutWithin.ofNext ?_
    | with_reducible refine State.onClock_within ?_ ?_
    | with_reducible apply State.gateCommand_within

end Sys2Proof.Machine
end

