-- ==== Sys2Proof/Laws/Frame/Solver.lean ====
section
/-! SUPPORT. What the functions of Machine/Solver.lean may change. -/

namespace Sys2Proof.Machine

variable {k : Nat} {r : State}

theorem State.solveRecord_within {s part node b q f rd delta pivotsOk head} (hk : Sub 912 k) (hs : Within k r s) :
    Within k r (State.solveRecord s part node b q f rd delta pivotsOk head) := by
  unfold State.solveRecord
  repeat' first
    | with_reducible assumption
    | exact hk.of rfl
    | intro _
    | extract_lets
    | with_reducible refine Within.getD ?_ ?_
    | with_reducible apply State.writeRun_within
    | with_reducible apply State.writeWord_within

theorem State.factorRecord_within {s part node b q} (hk : Sub 914 k) (hs : Within k r s) :
    Within k r (State.factorRecord s part node b q) := by
  unfold State.factorRecord
  repeat' first
    | with_reducible assumption
    | exact hk.of rfl
    | intro _
    | extract_lets
    | with_reducible apply State.countO_within
    | with_reducible apply State.solveRecord_within
    | with_reducible apply State.writeRun_within

theorem State.solveOnly_within {s part node b q} (hk : Sub 912 k) (hs : Within k r s) :
    Within k r (State.solveOnly s part node b q) := by
  unfold State.solveOnly
  repeat' first
    | with_reducible assumption
    | exact hk.of rfl
    | intro _
    | extract_lets
    | with_reducible apply State.solveRecord_within

theorem State.triangleRecord_within {s part node b q} (hk : Sub 912 k) (hs : Within k r s) :
    Within k r (State.triangleRecord s part node b q) := by
  unfold State.triangleRecord
  repeat' first
    | with_reducible assumption
    | exact hk.of rfl
    | intro _
    | extract_lets
    | with_reducible apply State.writeRun_within
    | with_reducible apply State.writeWord_within

theorem State.applyDelta_within {s part node b e} (hk : Sub 912 k) (hs : Within k r s) :
    Within k r (State.applyDelta s part node b e) := by
  unfold State.applyDelta
  repeat' first
    | with_reducible assumption
    | exact hk.of rfl
    | intro _
    | extract_lets
    | with_reducible apply State.writeWord_within
    | with_reducible refine Within.foldl ?_ ?_
    | with_reducible refine Within.foldlFst ?_ ?_
    | with_reducible refine Within.foldlSnd ?_ ?_
    | dsimp -zeta only
    | split

theorem State.countSolver_within {s node b lo hi} (hk : Sub 3 k) (hs : Within k r s) :
    Within k r (State.countSolver s node b lo hi) := by
  unfold State.countSolver
  repeat' first
    | with_reducible assumption
    | exact hk.of rfl
    | intro _
    | extract_lets
    | with_reducible apply State.draw_within
    | with_reducible apply State.setO_within
    | with_reducible refine Within.foldl ?_ ?_
    | with_reducible refine Within.foldlFst ?_ ?_
    | with_reducible refine Within.foldlSnd ?_ ?_
    | dsimp -zeta only
    | split
    | with_reducible refine Within.ofFst ?_ (by assumption)
    | with_reducible refine Within.ofSnd ?_ (by assumption)
    | with_reducible refine Within.ofSome ?_ (by assumption)
    | dsimp -zeta +zetaDelta only

theorem State.solveProblem_within {s part node b q} (hk : Sub 914 k) (hs : Within k r s) :
    Within k r (State.solveProblem s part node b q) := by
  unfold State.solveProblem
  repeat' first
    | with_reducible assumption
    | exact hk.of rfl
    | intro _
    | extract_lets
    | with_reducible apply State.factorRecord_within
    | with_reducible apply State.solveOnly_within
    | with_reducible apply State.triangleRecord_within
    | with_reducible refine Within.foldl ?_ ?_
    | with_reducible refine Within.foldlFst ?_ ?_
    | with_reducible refine Within.foldlSnd ?_ ?_
    | dsimp -zeta only
    | split

theorem State.solverPlan_within {s node x} (hk : Sub 915 k) :
    RunWithin k (State.solverPlan s node x).run := by
  unfold State.solverPlan
  repeat' first
    | with_reducible assumption
    | exact hk.of rfl
    | intro _
    | extract_lets
    | with_reducible apply State.applyDelta_within
    | with_reducible apply State.countSolver_within
    | with_reducible apply State.setO_within
    | with_reducible apply State.solveProblem_within
    | with_reducible refine Within.foldl ?_ ?_
    | with_reducible refine Within.foldlFst ?_ ?_
    | with_reducible refine Within.foldlSnd ?_ ?_
    | dsimp -zeta only
    | split
    | with_reducible refine RunWithin.of ?_
    | with_reducible refine Within.ofFst ?_ (by assumption)
    | with_reducible refine Within.ofSnd ?_ (by assumption)
    | with_reducible refine Within.ofSome ?_ (by assumption)
    | dsimp -zeta +zetaDelta only

theorem State.planSolver_within {s node x} (hk : Sub 915 k) :
    PlanWithin k (State.planSolver s node x) := by
  unfold State.planSolver
  repeat' first
    | with_reducible assumption
    | exact hk.of rfl
    | intro _
    | extract_lets
    | exact PlanWithin.refused
    | with_reducible refine PlanWithin.mk' ?_
    | with_reducible refine State.guardPlan_within ?_
    | with_reducible apply State.solverPlan_within

theorem State.solverCommand_within {s is node errs} (hk : Sub 136087 k) (hs : Within k r s) :
    Within k r (State.solverCommand s is node errs) := by
  unfold State.solverCommand
  repeat' first
    | with_reducible assumption
    | exact hk.of rfl
    | intro _
    | extract_lets
    | with_reducible refine OutWithin.ofNext ?_
    | with_reducible refine State.onClock_within ?_ ?_
    | with_reducible apply State.planSolver_within
    | with_reducible apply State.runToEnd_within
    | with_reducible refine Within.foldl ?_ ?_
    | with_reducible refine Within.foldlFst ?_ ?_
    | with_reducible refine Within.foldlSnd ?_ ?_
    | dsimp -zeta only
    | split

theorem execFactor_within {node errs s} (hk : Sub 136087 k) (hs : Within k r s) :
    OutWithin k r (execFactor node errs s) := by
  unfold execFactor
  repeat' first
    | with_reducible assumption
    | exact hk.of rfl
    | intro _
    | extract_lets
    | with_reducible refine OutWithin.ofNext ?_
    | with_reducible refine State.onClock_within ?_ ?_
    | with_reducible apply State.solverCommand_within

theorem execSolve_within {node errs s} (hk : Sub 136087 k) (hs : Within k r s) :
    OutWithin k r (execSolve node errs s) := by
  unfold execSolve
  repeat' first
    | with_reducible assumption
    | exact hk.of rfl
    | intro _
    | extract_lets
    | with_reducible refine OutWithin.ofNext ?_
    | with_reducible refine State.onClock_within ?_ ?_
    | with_reducible apply State.solverCommand_within

theorem execUpdate_within {node errs s} (hk : Sub 136087 k) (hs : Within k r s) :
    OutWithin k r (execUpdate node errs s) := by
  unfold execUpdate
  repeat' first
    | with_reducible assumption
    | exact hk.of rfl
    | intro _
    | extract_lets
    | with_reducible refine OutWithin.ofNext ?_
    | with_reducible refine State.onClock_within ?_ ?_
    | with_reducible apply State.solverCommand_within

theorem execTrsolve_within {node errs s} (hk : Sub 136087 k) (hs : Within k r s) :
    OutWithin k r (execTrsolve node errs s) := by
  unfold execTrsolve
  repeat' first
    | with_reducible assumption
    | exact hk.of rfl
    | intro _
    | extract_lets
    | with_reducible refine OutWithin.ofNext ?_
    | with_reducible refine State.onClock_within ?_ ?_
    | with_reducible apply State.solverCommand_within

end Sys2Proof.Machine
end

