-- ==== Sys2Proof/Laws/Frame/Voxel.lean ====
section
/-! SUPPORT. What the functions of Machine/Voxel.lean may change. -/

namespace Sys2Proof.Machine

variable {k : Nat} {r : State}

theorem State.writeBrick_within {s part node m b cells} (hk : Sub 912 k) (hs : Within k r s) :
    Within k r (State.writeBrick s part node m b cells) := by
  unfold State.writeBrick
  repeat' first
    | with_reducible assumption
    | exact hk.of rfl
    | intro _
    | extract_lets
    | with_reducible apply State.writeRun_within

theorem State.showPool_within {s node m} (hk : Sub 2 k) (hs : Within k r s) :
    Within k r (State.showPool s node m) := by
  unfold State.showPool
  repeat' first
    | with_reducible assumption
    | exact hk.of rfl
    | intro _
    | extract_lets
    | with_reducible apply State.setO_within

theorem State.takeBrick_within {s node m used} (hk : Sub 1 k) (hs : Within k r s) :
    Within k r (State.takeBrick s node m used).2 := by
  unfold State.takeBrick
  repeat' first
    | with_reducible assumption
    | exact hk.of rfl
    | intro _
    | extract_lets
    | with_reducible apply State.draw_within

theorem integrateOne_within {part node b q i} (hk : Sub 1049489 k) (hs : Within k r (Integrated.st q)) :
    Within k r (integrateOne part node b q i).st := by
  unfold integrateOne
  split
  · exact hs
  · extract_lets m s idx g inc used e u cells slot s1
    split
    · exact State.writeBrick_within (hk.of rfl) hs
    · rw [apply_ite Integrated.st]
      split
      · exact hs
      · have h1 : Within k r s1 := State.writeWord_within (hk.of rfl) (State.writeBrick_within (hk.of rfl) (State.takeBrick_within (hk.of rfl) hs))
        have h2 : Within k r ({ s1 with freeCount := s1.freeCount + 1 } : State) := Within.free (hk.of rfl) h1 1
        exact State.setGeo_within (hk.of rfl) h2

theorem integrateFold_within {part node b q} {l : List Nat} (hk : Sub 1049489 k) (hs : Within k r (Integrated.st q)) :
    Within k r (l.foldl (integrateOne part node b) q).st := by
  induction l generalizing q with
  | nil => exact hs
  | cons i l ih => exact ih (integrateOne_within hk hs)

theorem State.runIntegrate_within {s node x errs} (hk : Sub 1053591 k) (hs : Within k r s) :
    Within k r (State.runIntegrate s node x errs) := by
  have tail : ∀ (q : ReadResult) (e : NBody → Integrated → Integrated) (n : Nat), Within k r q.st →
      (∀ b f, Within k r (Integrated.st f) → Within k r (e b f).st) → Within k r
        (let b : NBody := ⟨x.body⟩
         let f := e b { st := q.st }
         let s1 := if q.lost || q.poison then f.st.poisonAll (f.bricks.flatMap (f.st.brickSectors n b.map)) else f.st
         let met := (if f.full then [Status.queueFull] else []) ++ (if q.lost then [.tileUncorrectable] else []) ++
           (if q.poison then [.poisonedInput] else [])
         (s1.showPool n b.map).finish x (pickStatus met) f.applied) := by
    intro q e n hq he
    extract_lets b f s1 met
    have hf : Within k r f.st := he _ _ hq
    have h1 : Within k r s1 := by
      unfold s1
      split
      · exact State.poisonAll_within (hk.of rfl) hf
      · exact hf
    exact State.finish_within (hk.of rfl) (State.showPool_within (hk.of rfl) h1)
  exact tail _ (fun b f => (List.range b.count).foldl (integrateOne (s.ctxPart x.ctx) node b) f) node
    (State.readSectors_within (hk.of rfl) hs) (fun b f hf => integrateFold_within (hk.of rfl) hf)

theorem State.refuse_within {s x st} (hk : Sub 135168 k) (hs : Within k r s) :
    Within k r (State.refuse s x st) := by
  unfold State.refuse
  repeat' first
    | with_reducible assumption
    | exact hk.of rfl
    | intro _
    | extract_lets
    | with_reducible apply State.countRefusal_within
    | with_reducible apply State.finish_within
    | with_reducible refine Within.foldl ?_ ?_
    | with_reducible refine Within.foldlFst ?_ ?_
    | with_reducible refine Within.foldlSnd ?_ ?_
    | dsimp -zeta only
    | split

theorem execIntegrate_within {node errs s} (hk : Sub 1184663 k) (hs : Within k r s) :
    OutWithin k r (execIntegrate node errs s) := by
  unfold execIntegrate
  repeat' first
    | with_reducible assumption
    | exact hk.of rfl
    | intro _
    | extract_lets
    | with_reducible refine OutWithin.ofNext ?_
    | with_reducible refine State.onClock_within ?_ ?_
    | with_reducible apply State.refuse_within
    | with_reducible apply State.runIntegrate_within
    | with_reducible refine Within.foldl ?_ ?_
    | with_reducible refine Within.foldlFst ?_ ?_
    | with_reducible refine Within.foldlSnd ?_ ?_
    | dsimp -zeta only
    | split

theorem execCommit_within {node s} (hk : Sub 135168 k) (hs : Within k r s) :
    OutWithin k r (execCommit node s) := by
  unfold execCommit
  repeat' first
    | with_reducible assumption
    | exact hk.of rfl
    | intro _
    | extract_lets
    | with_reducible refine OutWithin.ofNext ?_
    | with_reducible refine State.onClock_within ?_ ?_
    | with_reducible apply State.refuse_within
    | with_reducible apply State.setCmd_within
    | with_reducible refine Within.foldl ?_ ?_
    | with_reducible refine Within.foldlFst ?_ ?_
    | with_reducible refine Within.foldlSnd ?_ ?_
    | dsimp -zeta only
    | split

theorem CommitView.targets_within {v part s l} (hk : Sub 913 k) (hs : Within k r s) :
    Within k r (CommitView.targets v part s l).2 := by
  unfold CommitView.targets
  repeat' first
    | with_reducible assumption
    | exact hk.of rfl
    | intro _
    | extract_lets
    | with_reducible apply State.takeBrick_within
    | with_reducible apply State.writeBrick_within
    | with_reducible refine Within.foldl ?_ ?_
    | with_reducible refine Within.foldlFst ?_ ?_
    | with_reducible refine Within.foldlSnd ?_ ?_
    | dsimp -zeta only
    | split

theorem State.classify_within {s part node m v} (hk : Sub 912 k) (hs : Within k r s) :
    Within k r (State.classify s part node m v).2 := by
  unfold State.classify
  repeat' first
    | with_reducible assumption
    | exact hk.of rfl
    | intro _
    | extract_lets
    | with_reducible apply State.writeBrick_within
    | with_reducible refine Within.foldl ?_ ?_
    | with_reducible refine Within.foldlFst ?_ ?_
    | with_reducible refine Within.foldlSnd ?_ ?_
    | dsimp -zeta only
    | split

theorem State.shiftOrigin_within {s node m v} (hk : Sub 2 k) (hs : Within k r s) :
    Within k r (State.shiftOrigin s node m v) := by
  unfold State.shiftOrigin
  repeat' first
    | with_reducible assumption
    | exact hk.of rfl
    | intro _
    | extract_lets
    | with_reducible apply State.setO_within

theorem State.runCommit_within {s node x errs} (hk : Sub 1053591 k) (hs : Within k r s) :
    Within k r (State.runCommit s node x errs) := by
  unfold State.runCommit
  repeat' first
    | with_reducible assumption
    | exact hk.of rfl
    | intro _
    | extract_lets
    | with_reducible apply CommitView.targets_within
    | with_reducible apply State.classify_within
    | with_reducible apply State.finish_within
    | with_reducible apply State.poisonAll_within
    | with_reducible apply State.readSectors_within
    | with_reducible apply State.setGeo_within
    | with_reducible apply State.setO_within
    | with_reducible apply State.shiftOrigin_within
    | with_reducible apply State.showPool_within
    | with_reducible apply State.writeBrick_within
    | with_reducible apply State.writeRun_within
    | with_reducible refine Within.foldl ?_ ?_
    | with_reducible refine Within.foldlFst ?_ ?_
    | with_reducible refine Within.foldlSnd ?_ ?_
    | dsimp -zeta only
    | split
    | with_reducible refine Within.ofFst ?_ (by assumption)
    | with_reducible refine Within.ofSnd ?_ (by assumption)
    | with_reducible refine Within.ofSome ?_ (by assumption)
    | dsimp -zeta +zetaDelta only

theorem execCommitWaitEnd_within {node errs s} (hk : Sub 1053591 k) (hs : Within k r s) :
    OutWithin k r (execCommitWaitEnd node errs s) := by
  unfold execCommitWaitEnd
  repeat' first
    | with_reducible assumption
    | exact hk.of rfl
    | intro _
    | extract_lets
    | with_reducible refine OutWithin.ofNext ?_
    | with_reducible refine State.onClock_within ?_ ?_
    | with_reducible apply State.runCommit_within
    | with_reducible refine Within.foldl ?_ ?_
    | with_reducible refine Within.foldlFst ?_ ?_
    | with_reducible refine Within.foldlSnd ?_ ?_
    | dsimp -zeta only
    | split

theorem State.storeMap_within {s node m reg val} (hk : Sub 2 k) (hs : Within k r s) :
    Within k r (State.storeMap s node m reg val) := by
  unfold State.storeMap
  repeat' first
    | with_reducible assumption
    | exact hk.of rfl
    | intro _
    | extract_lets
    | with_reducible apply State.setO_within
    | with_reducible refine Within.foldl ?_ ?_
    | with_reducible refine Within.foldlFst ?_ ?_
    | with_reducible refine Within.foldlSnd ?_ ?_
    | dsimp -zeta only
    | split

theorem execMapcfgWrite_within {src node m reg val s} (hk : Sub 1180678 k) (hs : Within k r s) :
    OutWithin k r (execMapcfgWrite src node m reg val s) := by
  unfold execMapcfgWrite
  repeat' first
    | with_reducible assumption
    | exact hk.of rfl
    | intro _
    | extract_lets
    | with_reducible refine OutWithin.ofNext ?_
    | with_reducible refine State.onClock_within ?_ ?_
    | with_reducible apply State.onyxTurned_within
    | with_reducible apply State.setGeo_within
    | with_reducible apply State.setO_within
    | with_reducible apply State.storeMap_within
    | with_reducible refine Within.foldl ?_ ?_
    | with_reducible refine Within.foldlFst ?_ ?_
    | with_reducible refine Within.foldlSnd ?_ ?_
    | dsimp -zeta only
    | split

theorem execMapInitDone_within {node m s} (hk : Sub 1049490 k) (hs : Within k r s) :
    OutWithin k r (execMapInitDone node m s) := by
  unfold execMapInitDone
  repeat' first
    | with_reducible assumption
    | exact hk.of rfl
    | intro _
    | extract_lets
    | with_reducible refine OutWithin.ofNext ?_
    | with_reducible refine State.onClock_within ?_ ?_
    | with_reducible apply State.setGeo_within
    | with_reducible apply State.showPool_within
    | with_reducible apply State.writeRun_within
    | with_reducible refine Within.foldl ?_ ?_
    | with_reducible refine Within.foldlFst ?_ ?_
    | with_reducible refine Within.foldlSnd ?_ ?_
    | dsimp -zeta only
    | split
    | with_reducible refine Within.ofFst ?_ (by assumption)
    | with_reducible refine Within.ofSnd ?_ (by assumption)
    | with_reducible refine Within.ofSome ?_ (by assumption)
    | dsimp -zeta +zetaDelta only

end Sys2Proof.Machine
end

