-- ==== Sys2Proof/Laws/Frame/Query.lean ====
section
/-! SUPPORT. What the functions of Machine/Query.lean may change. -/

namespace Sys2Proof.Machine

variable {k : Nat} {r : State}

theorem State.countQueries_within {s node spheres cells} (hk : Sub 3 k) (hs : Within k r s) :
    Within k r (State.countQueries s node spheres cells) := by
  unfold State.countQueries
  repeat' first
    | with_reducible assumption
    | exact hk.of rfl
    | intro _
    | extract_lets
    | with_reducible apply State.draw_within
    | with_reducible apply State.setO_within
    | with_reducible refine Within.foldl ?_ ?_
    | with_reducible refine Within.foldlFst ?_ ?_
    | with_reducible refine Within.foldlSnd ?_ ?_
    | dsimp -zeta only
    | split
    | with_reducible refine Within.ofFst ?_ (by assumption)
    | with_reducible refine Within.ofSnd ?_ (by assumption)
    | with_reducible refine Within.ofSome ?_ (by assumption)
    | dsimp -zeta +zetaDelta only

theorem State.queryPlan_within {s node x} (hk : Sub 915 k) :
    RunWithin k (State.queryPlan s node x).run := by
  unfold State.queryPlan
  repeat' first
    | with_reducible assumption
    | exact hk.of rfl
    | intro _
    | extract_lets
    | with_reducible refine Within.getD ?_ ?_
    | with_reducible apply State.countQueries_within
    | with_reducible apply State.writeRun_within
    | with_reducible refine Within.foldl ?_ ?_
    | with_reducible refine Within.foldlFst ?_ ?_
    | with_reducible refine Within.foldlSnd ?_ ?_
    | dsimp -zeta only
    | split
    | with_reducible refine RunWithin.of ?_

theorem State.planQuery_within {s node x} (hk : Sub 915 k) :
    PlanWithin k (State.planQuery s node x) := by
  unfold State.planQuery
  repeat' first
    | with_reducible assumption
    | exact hk.of rfl
    | intro _
    | extract_lets
    | exact PlanWithin.refused
    | with_reducible refine PlanWithin.mk' ?_
    | with_reducible refine State.guardPlan_within ?_
    | with_reducible apply State.queryPlan_within

theorem State.queryCommand_within {s is node pipe errs} (hk : Sub 136087 k) (hs : Within k r s) :
    Within k r (State.queryCommand s is node pipe errs) := by
  unfold State.queryCommand
  repeat' first
    | with_reducible assumption
    | exact hk.of rfl
    | intro _
    | extract_lets
    | with_reducible refine OutWithin.ofNext ?_
    | with_reducible refine State.onClock_within ?_ ?_
    | with_reducible apply State.planQuery_within
    | with_reducible apply State.runToEnd_within
    | with_reducible refine Within.foldl ?_ ?_
    | with_reducible refine Within.foldlFst ?_ ?_
    | with_reducible refine Within.foldlSnd ?_ ?_
    | dsimp -zeta only
    | split

theorem execPoint_within {node pipe errs s} (hk : Sub 136087 k) (hs : Within k r s) :
    OutWithin k r (execPoint node pipe errs s) := by
  unfold execPoint
  repeat' first
    | with_reducible assumption
    | exact hk.of rfl
    | intro _
    | extract_lets
    | with_reducible refine OutWithin.ofNext ?_
    | with_reducible refine State.onClock_within ?_ ?_
    | with_reducible apply State.queryCommand_within

theorem execEdge_within {node pipe errs s} (hk : Sub 136087 k) (hs : Within k r s) :
    OutWithin k r (execEdge node pipe errs s) := by
  unfold execEdge
  repeat' first
    | with_reducible assumption
    | exact hk.of rfl
    | intro _
    | extract_lets
    | with_reducible refine OutWithin.ofNext ?_
    | with_reducible refine State.onClock_within ?_ ?_
    | with_reducible apply State.queryCommand_within

theorem execRepair_within {node pipe errs s} (hk : Sub 136087 k) (hs : Within k r s) :
    OutWithin k r (execRepair node pipe errs s) := by
  unfold execRepair
  repeat' first
    | with_reducible assumption
    | exact hk.of rfl
    | intro _
    | extract_lets
    | with_reducible refine OutWithin.ofNext ?_
    | with_reducible refine State.onClock_within ?_ ?_
    | with_reducible apply State.queryCommand_within

end Sys2Proof.Machine
end

