-- ==== Sys2Proof/Laws/Frame/Sampler.lean ====
section
/-! SUPPORT. What the functions of Machine/Sampler.lean may change. -/

namespace Sys2Proof.Machine

variable {k : Nat} {r : State}

theorem State.samplerItem_within {src s part node b epoch i} (hk : Sub 912 k) (hsrc : Within k r src) (hs : Within k r s) :
    Within k r (State.samplerItem src s part node b epoch i) := by
  unfold State.samplerItem
  repeat' first
    | with_reducible assumption
    | exact hk.of rfl
    | intro _
    | extract_lets
    | with_reducible apply State.writeRun_within
    | with_reducible refine Within.foldl ?_ ?_
    | with_reducible refine Within.foldlFst ?_ ?_
    | with_reducible refine Within.foldlSnd ?_ ?_
    | dsimp -zeta only
    | split

theorem State.samplerPlan_within {s node x} (hk : Sub 912 k) :
    RunWithin k (State.samplerPlan s node x).run := by
  unfold State.samplerPlan
  repeat' first
    | with_reducible assumption
    | exact hk.of rfl
    | intro _
    | extract_lets
    | with_reducible refine Within.getD ?_ ?_
    | with_reducible apply State.samplerItem_within
    | with_reducible refine Within.foldl ?_ ?_
    | with_reducible refine Within.foldlFst ?_ ?_
    | with_reducible refine Within.foldlSnd ?_ ?_
    | dsimp -zeta only
    | split
    | with_reducible refine RunWithin.of ?_

theorem State.planSampler_within {s node x} (hk : Sub 912 k) :
    PlanWithin k (State.planSampler s node x) := by
  unfold State.planSampler
  repeat' first
    | with_reducible assumption
    | exact hk.of rfl
    | intro _
    | extract_lets
    | exact PlanWithin.refused
    | with_reducible refine PlanWithin.mk' ?_
    | with_reducible refine State.guardPlan_within ?_
    | with_reducible apply State.samplerPlan_within

theorem State.samplerCommand_within {s is node errs} (hk : Sub 136087 k) (hs : Within k r s) :
    Within k r (State.samplerCommand s is node errs) := by
  unfold State.samplerCommand
  repeat' first
    | with_reducible assumption
    | exact hk.of rfl
    | intro _
    | extract_lets
    | with_reducible refine OutWithin.ofNext ?_
    | with_reducible refine State.onClock_within ?_ ?_
    | with_reducible apply State.planSampler_within
    | with_reducible apply State.runToEnd_within
    | with_reducible refine Within.foldl ?_ ?_
    | with_reducible refine Within.foldlFst ?_ ?_
    | with_reducible refine Within.foldlSnd ?_ ?_
    | dsimp -zeta only
    | split

theorem execTree_within {node errs s} (hk : Sub 136087 k) (hs : Within k r s) :
    OutWithin k r (execTree node errs s) := by
  unfold execTree
  repeat' first
    | with_reducible assumption
    | exact hk.of rfl
    | intro _
    | extract_lets
    | with_reducible refine OutWithin.ofNext ?_
    | with_reducible refine State.onClock_within ?_ ?_
    | with_reducible apply State.samplerCommand_within

theorem execRoadmap_within {node errs s} (hk : Sub 136087 k) (hs : Within k r s) :
    OutWithin k r (execRoadmap node errs s) := by
  unfold execRoadmap
  repeat' first
    | with_reducible assumption
    | exact hk.of rfl
    | intro _
    | extract_lets
    | with_reducible refine OutWithin.ofNext ?_
    | with_reducible refine State.onClock_within ?_ ?_
    | with_reducible apply State.samplerCommand_within

theorem execPrim_within {node errs s} (hk : Sub 136087 k) (hs : Within k r s) :
    OutWithin k r (execPrim node errs s) := by
  unfold execPrim
  repeat' first
    | with_reducible assumption
    | exact hk.of rfl
    | intro _
    | extract_lets
    | with_reducible refine OutWithin.ofNext ?_
    | with_reducible refine State.onClock_within ?_ ?_
    | with_reducible apply State.samplerCommand_within

end Sys2Proof.Machine
end

