-- ==== Sys2Proof/Laws/Frame/Window.lean ====
section
/-! SUPPORT. What the functions of Machine/Window.lean may change. -/

namespace Sys2Proof.Machine

variable {k : Nat} {r : State}

theorem State.windowUnit_within {s part node b A elts} (hk : Sub 912 k) (hs : Within k r s) :
    Within k r (State.windowUnit s part node b A elts).1 := by
  unfold State.windowUnit
  repeat' first
    | with_reducible assumption
    | exact hk.of rfl
    | intro _
    | extract_lets
    | with_reducible apply State.exportTiles_within
    | with_reducible apply State.scatter_within
    | with_reducible refine Within.foldl ?_ ?_
    | with_reducible refine Within.foldlFst ?_ ?_
    | with_reducible refine Within.foldlSnd ?_ ?_
    | dsimp -zeta only
    | split

theorem State.windowPlan_within {s node x} (hk : Sub 914 k) :
    RunWithin k (State.windowPlan s node x).run := by
  unfold State.windowPlan
  repeat' first
    | with_reducible assumption
    | exact hk.of rfl
    | intro _
    | extract_lets
    | with_reducible apply State.countMatrix_within
    | with_reducible apply State.setO_within
    | with_reducible apply State.windowUnit_within
    | with_reducible refine Within.foldl ?_ ?_
    | with_reducible refine Within.foldlFst ?_ ?_
    | with_reducible refine Within.foldlSnd ?_ ?_
    | dsimp -zeta only
    | split
    | with_reducible refine RunWithin.of ?_

theorem State.planWindow_within {s node x} (hk : Sub 914 k) :
    PlanWithin k (State.planWindow s node x) := by
  unfold State.planWindow
  repeat' first
    | with_reducible assumption
    | exact hk.of rfl
    | intro _
    | extract_lets
    | exact PlanWithin.refused
    | with_reducible refine PlanWithin.mk' ?_
    | with_reducible refine State.guardPlan_within ?_
    | with_reducible apply State.windowPlan_within

theorem State.windowCommand_within {s x1 node errs} (hk : Sub 136087 k) (hs : Within k r s) :
    Within k r (State.windowCommand s x1 node errs) := by
  unfold State.windowCommand
  repeat' first
    | with_reducible assumption
    | exact hk.of rfl
    | intro _
    | extract_lets
    | with_reducible apply State.matrixCommand_within
    | with_reducible apply State.planWindow_within

theorem execConv_within {node errs s} (hk : Sub 136087 k) (hs : Within k r s) :
    OutWithin k r (execConv node errs s) := by
  unfold execConv
  repeat' first
    | with_reducible assumption
    | exact hk.of rfl
    | intro _
    | extract_lets
    | with_reducible refine OutWithin.ofNext ?_
    | with_reducible refine State.onClock_within ?_ ?_
    | with_reducible apply State.windowCommand_within

theorem execDwconv_within {node errs s} (hk : Sub 136087 k) (hs : Within k r s) :
    OutWithin k r (execDwconv node errs s) := by
  unfold execDwconv
  repeat' first
    | with_reducible assumption
    | exact hk.of rfl
    | intro _
    | extract_lets
    | with_reducible refine OutWithin.ofNext ?_
    | with_reducible refine State.onClock_within ?_ ?_
    | with_reducible apply State.windowCommand_within

theorem execPoolAvg_within {node errs s} (hk : Sub 136087 k) (hs : Within k r s) :
    OutWithin k r (execPoolAvg node errs s) := by
  unfold execPoolAvg
  repeat' first
    | with_reducible assumption
    | exact hk.of rfl
    | intro _
    | extract_lets
    | with_reducible refine OutWithin.ofNext ?_
    | with_reducible refine State.onClock_within ?_ ?_
    | with_reducible apply State.windowCommand_within

theorem execPoolMax_within {node errs s} (hk : Sub 136087 k) (hs : Within k r s) :
    OutWithin k r (execPoolMax node errs s) := by
  unfold execPoolMax
  repeat' first
    | with_reducible assumption
    | exact hk.of rfl
    | intro _
    | extract_lets
    | with_reducible refine OutWithin.ofNext ?_
    | with_reducible refine State.onClock_within ?_ ?_
    | with_reducible apply State.windowCommand_within

theorem execTconv_within {node errs s} (hk : Sub 136087 k) (hs : Within k r s) :
    OutWithin k r (execTconv node errs s) := by
  unfold execTconv
  repeat' first
    | with_reducible assumption
    | exact hk.of rfl
    | intro _
    | extract_lets
    | with_reducible refine OutWithin.ofNext ?_
    | with_reducible refine State.onClock_within ?_ ?_
    | with_reducible apply State.windowCommand_within

theorem execRelayout_within {node errs s} (hk : Sub 136087 k) (hs : Within k r s) :
    OutWithin k r (execRelayout node errs s) := by
  unfold execRelayout
  repeat' first
    | with_reducible assumption
    | exact hk.of rfl
    | intro _
    | extract_lets
    | with_reducible refine OutWithin.ofNext ?_
    | with_reducible refine State.onClock_within ?_ ?_
    | with_reducible apply State.windowCommand_within

end Sys2Proof.Machine
end

