-- ==== Sys2Proof/Laws/Frame/Preempt.lean ====
section
/-! SUPPORT. What the functions of Machine/Preempt.lean may change. -/

namespace Sys2Proof.Machine

variable {k : Nat} {r : State}

theorem State.planOf_within {s node inst x} (hk : Sub 915 k) :
    PlanWithin k (State.planOf s node inst x) := by
  unfold State.planOf
  repeat' first
    | with_reducible assumption
    | exact hk.of rfl
    | intro _
    | extract_lets
    | exact PlanWithin.refused
    | with_reducible refine PlanWithin.mk' ?_
    | with_reducible refine State.guardPlan_within ?_
    | with_reducible apply State.planAttention_within
    | with_reducible apply State.planGate_within
    | with_reducible apply State.planMatmul_within
    | with_reducible apply State.planQuery_within
    | with_reducible apply State.planSampler_within
    | with_reducible apply State.planScan_within
    | with_reducible apply State.planSolver_within
    | with_reducible apply State.planVector_within
    | with_reducible apply State.planWindow_within
    | with_reducible refine Within.foldl ?_ ?_
    | with_reducible refine Within.foldlFst ?_ ?_
    | with_reducible refine Within.foldlSnd ?_ ?_
    | dsimp -zeta only
    | split

theorem execPreemptionPoint_within {node inst units errs s} (hk : Sub 792535 k) (hs : Within k r s) :
    OutWithin k r (execPreemptionPoint node inst units errs s) := by
  unfold execPreemptionPoint
  repeat' first
    | with_reducible assumption
    | exact hk.of rfl
    | intro _
    | extract_lets
    | with_reducible refine PlanWithin.plan ?_ _ (by assumption)
    | with_reducible refine OutWithin.ofNext ?_
    | with_reducible refine State.onClock_within ?_ ?_
    | with_reducible apply State.abortSweep_within
    | with_reducible apply State.planOf_within
    | with_reducible apply State.runPlan_within
    | with_reducible refine Within.foldl ?_ ?_
    | with_reducible refine Within.foldlFst ?_ ?_
    | with_reducible refine Within.foldlSnd ?_ ?_
    | dsimp -zeta only
    | split

end Sys2Proof.Machine
end

