-- ==== Sys2Proof/Laws/Frame/Rings.lean ====
section
/-! SUPPORT. What the functions of Machine/Rings.lean may change. -/

namespace Sys2Proof.Machine

variable {k : Nat} {r : State}

theorem State.agateWrite_within {s a b} (hk : Sub 912 k) (hs : Within k r s) :
    OptWithin k r (State.agateWrite s a b) := by
  unfold State.agateWrite
  repeat' first
    | with_reducible assumption
    | exact hk.of rfl
    | intro _
    | extract_lets
    | exact OptWithin.none
    | with_reducible refine OptWithin.mk' ?_
    | with_reducible apply State.writeRun_within
    | with_reducible refine Within.foldl ?_ ?_
    | with_reducible refine Within.foldlFst ?_ ?_
    | with_reducible refine Within.foldlSnd ?_ ?_
    | dsimp -zeta only
    | split

theorem State.agateRead_within {s a n} (hk : Sub 918 k) (hs : Within k r s) :
    Within k r (State.agateRead s a n).1 := by
  unfold State.agateRead
  repeat' first
    | with_reducible assumption
    | exact hk.of rfl
    | intro _
    | extract_lets
    | with_reducible apply State.readSectors_within

theorem State.ringStored_within {s lost o} {g : RingReg} (hk : Sub 2097152 k) (hs : Within k r s) (ho : OptWithin k r o) :
    Within k r (State.ringStored s g lost o).1 := by
  cases o with
  | some t => exact ho.some t rfl
  | none => exact Within.rings hk hs _

theorem State.ringPut_within {s x b} {g : RingReg} (hk : Sub 2098064 k) (hs : Within k r s) :
    Within k r (State.ringPut s g x b).1 := by
  cases hf : tfind s.rings g.key with
  | none =>
    have e : State.ringPut s g x b = (s, false) := by
      unfold State.ringPut
      rw [hf]
    rw [e]
    exact hs
  | some lost =>
    obtain ⟨a, e⟩ : ∃ a, State.ringPut s g x b = s.ringStored g lost (s.agateWrite a b) := by
      unfold State.ringPut
      rw [hf]
      exact ⟨_, rfl⟩
    rw [e]
    exact State.ringStored_within (hk.of rfl) hs (State.agateWrite_within (hk.of rfl) hs)

theorem State.forward_within {s kind index b} (hk : Sub 1027 k) (hs : Within k r s) :
    Within k r (State.forward s kind index b) := by
  unfold State.forward
  repeat' first
    | with_reducible assumption
    | exact hk.of rfl
    | intro _
    | extract_lets
    | with_reducible apply State.draw_within
    | with_reducible apply State.emit_within
    | with_reducible apply State.set_within
    | with_reducible refine Within.foldl ?_ ?_
    | with_reducible refine Within.foldlFst ?_ ?_
    | with_reducible refine Within.foldlSnd ?_ ?_
    | dsimp -zeta only
    | split

end Sys2Proof.Machine
end

