-- ==== Sys2Proof/Laws/Frame/Ingest.lean ====
section
/-! SUPPORT. What the functions of Machine/Ingest.lean may change. -/

namespace Sys2Proof.Machine

variable {k : Nat} {r : State}

theorem State.ingTurned_within {s src off} (hk : Sub 132100 k) (hs : Within k r s) :
    Within k r (State.ingTurned s src off) := by
  unfold State.ingTurned
  repeat' first
    | with_reducible assumption
    | exact hk.of rfl
    | intro _
    | extract_lets
    | with_reducible apply State.turnAway_within

theorem State.setCam_within {s p c} (hk : Sub 4194304 k) (hs : Within k r s) :
    Within k r (State.setCam s p c) := by
  unfold State.setCam
  repeat' first
    | with_reducible assumption
    | exact hk.of rfl
    | intro _
    | extract_lets
    | fail_if_no_progress ((with_reducible refine Within.ing ?_ ?_ _); exact hk.of rfl)

theorem State.ingCfgErr_within {s} (hk : Sub 2 k) (hs : Within k r s) :
    Within k r (State.ingCfgErr s) := by
  unfold State.ingCfgErr
  repeat' first
    | with_reducible assumption
    | exact hk.of rfl
    | intro _
    | extract_lets
    | with_reducible apply State.set_within

theorem State.setCamState_within {s p v} (hk : Sub 2 k) (hs : Within k r s) :
    Within k r (State.setCamState s p v) := by
  unfold State.setCamState
  repeat' first
    | with_reducible assumption
    | exact hk.of rfl
    | intro _
    | extract_lets
    | with_reducible apply State.set_within

theorem State.setBuf_within {s p x2 v} (hk : Sub 2 k) (hs : Within k r s) :
    Within k r (State.setBuf s p x2 v) := by
  unfold State.setBuf
  repeat' first
    | with_reducible assumption
    | exact hk.of rfl
    | intro _
    | extract_lets
    | with_reducible apply State.set_within

theorem State.dropBufs_within {s p} (hk : Sub 2 k) (hs : Within k r s) :
    Within k r (State.dropBufs s p) := by
  unfold State.dropBufs
  repeat' first
    | with_reducible assumption
    | exact hk.of rfl
    | intro _
    | extract_lets
    | with_reducible apply State.setBuf_within
    | with_reducible refine Within.foldl ?_ ?_

theorem State.storeCam_within {s p val} (hk : Sub 2 k) (hs : Within k r s) :
    Within k r (State.storeCam s p val) := by
  unfold State.storeCam
  repeat' first
    | with_reducible assumption
    | exact hk.of rfl
    | intro _
    | extract_lets
    | with_reducible apply State.set_within

theorem execCamcfgWrite_within {src p reg val s} (hk : Sub 4326406 k) (hs : Within k r s) :
    OutWithin k r (execCamcfgWrite src p reg val s) := by
  unfold execCamcfgWrite
  repeat' first
    | with_reducible assumption
    | exact hk.of rfl
    | intro _
    | extract_lets
    | with_reducible refine OutWithin.ofNext ?_
    | with_reducible refine State.onClock_within ?_ ?_
    | with_reducible apply State.dropBufs_within
    | with_reducible apply State.ingCfgErr_within
    | with_reducible apply State.ingTurned_within
    | with_reducible apply State.set_within
    | with_reducible apply State.setCam_within
    | with_reducible apply State.setCamState_within
    | with_reducible apply State.storeCam_within
    | with_reducible refine Within.foldl ?_ ?_
    | with_reducible refine Within.foldlFst ?_ ?_
    | with_reducible refine Within.foldlSnd ?_ ?_
    | dsimp -zeta only
    | split

theorem State.excludeCam_within {s p cause} (hk : Sub 4199378 k) (hs : Within k r s) :
    Within k r (State.excludeCam s p cause) := by
  unfold State.excludeCam
  repeat' first
    | with_reducible assumption
    | exact hk.of rfl
    | intro _
    | extract_lets
    | with_reducible apply State.dropBufs_within
    | with_reducible apply State.event_within
    | with_reducible apply State.set_within
    | with_reducible apply State.setCam_within
    | with_reducible apply State.setCamState_within

theorem execExclude_within {src val s} (hk : Sub 4331478 k) (hs : Within k r s) :
    OutWithin k r (execExclude src val s) := by
  unfold execExclude
  repeat' first
    | with_reducible assumption
    | exact hk.of rfl
    | intro _
    | extract_lets
    | with_reducible refine OutWithin.ofNext ?_
    | with_reducible refine State.onClock_within ?_ ?_
    | with_reducible apply State.excludeCam_within
    | with_reducible apply State.ingTurned_within
    | with_reducible apply State.setCam_within
    | with_reducible refine Within.foldl ?_ ?_
    | with_reducible refine Within.foldlFst ?_ ?_
    | with_reducible refine Within.foldlSnd ?_ ?_
    | dsimp -zeta only
    | split
    | with_reducible refine Within.ofFst ?_ (by assumption)
    | with_reducible refine Within.ofSnd ?_ (by assumption)
    | with_reducible refine Within.ofSome ?_ (by assumption)
    | dsimp -zeta +zetaDelta only

theorem State.setImu_within {s i x} (hk : Sub 4194304 k) (hs : Within k r s) :
    Within k r (State.setImu s i x) := by
  unfold State.setImu
  repeat' first
    | with_reducible assumption
    | exact hk.of rfl
    | intro _
    | extract_lets
    | fail_if_no_progress ((with_reducible refine Within.ing ?_ ?_ _); exact hk.of rfl)

theorem State.setImuState_within {s i v} (hk : Sub 2 k) (hs : Within k r s) :
    Within k r (State.setImuState s i v) := by
  unfold State.setImuState
  repeat' first
    | with_reducible assumption
    | exact hk.of rfl
    | intro _
    | extract_lets
    | with_reducible apply State.set_within

theorem execReadmit_within {src val s} (hk : Sub 4326406 k) (hs : Within k r s) :
    OutWithin k r (execReadmit src val s) := by
  unfold execReadmit
  repeat' first
    | with_reducible assumption
    | exact hk.of rfl
    | intro _
    | extract_lets
    | with_reducible refine OutWithin.ofNext ?_
    | with_reducible refine State.onClock_within ?_ ?_
    | with_reducible apply State.ingTurned_within
    | with_reducible apply State.set_within
    | with_reducible apply State.setCamState_within
    | with_reducible apply State.setImu_within
    | with_reducible apply State.setImuState_within
    | with_reducible refine Within.foldl ?_ ?_
    | with_reducible refine Within.foldlFst ?_ ?_
    | with_reducible refine Within.foldlSnd ?_ ?_
    | dsimp -zeta only
    | split

theorem State.takeBuf_within {s p} (hk : Sub 2 k) (hs : Within k r s) :
    Within k r (State.takeBuf s p).1 := by
  unfold State.takeBuf
  repeat' first
    | with_reducible assumption
    | exact hk.of rfl
    | intro _
    | extract_lets
    | with_reducible apply State.count_within
    | with_reducible apply State.setBuf_within
    | with_reducible refine Within.foldl ?_ ?_
    | with_reducible refine Within.foldlFst ?_ ?_
    | with_reducible refine Within.foldlSnd ?_ ?_
    | dsimp -zeta only
    | split

theorem State.dropCur_within {s p} (hk : Sub 4194306 k) (hs : Within k r s) :
    Within k r (State.dropCur s p) := by
  unfold State.dropCur
  repeat' first
    | with_reducible assumption
    | exact hk.of rfl
    | intro _
    | extract_lets
    | with_reducible apply State.setBuf_within
    | with_reducible apply State.setCam_within
    | with_reducible refine Within.foldl ?_ ?_
    | with_reducible refine Within.foldlFst ?_ ?_
    | with_reducible refine Within.foldlSnd ?_ ?_
    | dsimp -zeta only
    | split
    | with_reducible refine Within.ofFst ?_ (by assumption)
    | with_reducible refine Within.ofSnd ?_ (by assumption)
    | with_reducible refine Within.ofSome ?_ (by assumption)
    | dsimp -zeta +zetaDelta only

theorem State.frameStart_within {s p vc no} (hk : Sub 4199378 k) (hs : Within k r s) :
    Within k r (State.frameStart s p vc no) := by
  unfold State.frameStart
  repeat' first
    | with_reducible assumption
    | exact hk.of rfl
    | intro _
    | extract_lets
    | with_reducible apply State.count_within
    | with_reducible apply State.dropCur_within
    | with_reducible apply State.excludeCam_within
    | with_reducible apply State.setCam_within
    | with_reducible apply State.takeBuf_within
    | with_reducible refine Within.foldl ?_ ?_
    | with_reducible refine Within.foldlFst ?_ ?_
    | with_reducible refine Within.foldlSnd ?_ ?_
    | dsimp -zeta only
    | split
    | with_reducible refine Within.ofFst ?_ (by assumption)
    | with_reducible refine Within.ofSnd ?_ (by assumption)
    | with_reducible refine Within.ofSome ?_ (by assumption)
    | dsimp -zeta +zetaDelta only

theorem execFrameMissing_within {p s} (hk : Sub 4199378 k) (hs : Within k r s) :
    OutWithin k r (execFrameMissing p s) := by
  unfold execFrameMissing
  repeat' first
    | with_reducible assumption
    | exact hk.of rfl
    | intro _
    | extract_lets
    | with_reducible refine OutWithin.ofNext ?_
    | with_reducible refine State.onClock_within ?_ ?_
    | with_reducible apply State.excludeCam_within
    | with_reducible refine Within.foldl ?_ ?_
    | with_reducible refine Within.foldlFst ?_ ?_
    | with_reducible refine Within.foldlSnd ?_ ?_
    | dsimp -zeta only
    | split

theorem State.writeFrame_within {s p buf bytes} (hk : Sub 912 k) (hs : Within k r s) :
    OptWithin k r (State.writeFrame s p buf bytes) := by
  unfold State.writeFrame
  have hw : ∀ u a b, Within k r u → OptWithin k r (State.agateWrite u a b) := fun u a b hu => State.agateWrite_within (hk.of rfl) hu
  generalize State.agateWrite = write at hw ⊢
  repeat' first
    | with_reducible assumption
    | exact hk.of rfl
    | intro _
    | extract_lets
    | with_reducible apply hw
    | with_reducible refine OptWithin.mk' ?_
    | exact OptWithin.none
    | with_reducible refine OptWithin.mk' ?_
    | with_reducible refine Within.foldl ?_ ?_
    | with_reducible refine Within.foldlFst ?_ ?_
    | with_reducible refine Within.foldlSnd ?_ ?_
    | dsimp -zeta only
    | split

theorem State.freeBuf_within {s p b} (hk : Sub 2 k) (hs : Within k r s) :
    Within k r (State.freeBuf s p b) := by
  unfold State.freeBuf
  repeat' first
    | with_reducible assumption
    | exact hk.of rfl
    | intro _
    | extract_lets
    | with_reducible apply State.setBuf_within
    | with_reducible refine Within.foldl ?_ ?_
    | with_reducible refine Within.foldlFst ?_ ?_
    | with_reducible refine Within.foldlSnd ?_ ?_
    | dsimp -zeta only
    | split

theorem State.judgeFrame_within {s p w} (hk : Sub 4199378 k) (hs : Within k r s) :
    Within k r (State.judgeFrame s p w).1 := by
  unfold State.judgeFrame
  repeat' first
    | with_reducible assumption
    | exact hk.of rfl
    | intro _
    | extract_lets
    | with_reducible refine Within.getD ?_ ?_
    | with_reducible apply State.count_within
    | with_reducible apply State.excludeCam_within
    | with_reducible apply State.freeBuf_within
    | with_reducible apply State.set_within
    | with_reducible apply State.setCam_within
    | with_reducible apply State.setCamState_within
    | with_reducible refine Within.foldl ?_ ?_
    | with_reducible refine Within.foldlFst ?_ ?_
    | with_reducible refine Within.foldlSnd ?_ ?_
    | dsimp -zeta only
    | split

theorem State.judgeWaits_within {p n s} (hk : Sub 4199378 k) (hs : Within k r s) :
    Within k r (State.judgeWaits p n s) := by
  have pair : ∀ n, (∀ {s}, Within k r s → Within k r (State.judgeWaits p n s)) → ∀ q : State × Option CamWait, Within k r q.1 →
      Within k r (match q.2 with
        | some w => q.1.setCam p { q.1.cam p with waits := w :: (q.1.cam p).waits }
        | none => State.judgeWaits p n q.1) := by
    intro n ih q hq
    split
    · exact State.setCam_within (hk.of rfl) hq
    · exact ih hq
  induction n generalizing s with
  | zero => exact hs
  | succ n ih =>
    unfold State.judgeWaits
    split
    · exact hs
    · split
      · exact hs
      · exact pair n ih _ (State.judgeFrame_within (hk.of rfl) (State.setCam_within (hk.of rfl) hs))

theorem State.frameEnd_within {s p vc err packets} (hk : Sub 4199379 k) (hs : Within k r s) :
    Within k r (State.frameEnd s p vc err packets) := by
  unfold State.frameEnd
  have hw : ∀ u q a b, Within k r u → OptWithin k r (State.writeFrame u q a b) :=
    fun u q a b hu => State.writeFrame_within (hk.of rfl) hu
  generalize State.writeFrame = write at hw ⊢
  repeat' first
    | with_reducible assumption
    | exact hk.of rfl
    | intro _
    | extract_lets
    | with_reducible apply State.count_within
    | with_reducible apply State.dropCur_within
    | with_reducible apply State.judgeWaits_within
    | with_reducible apply State.setBuf_within
    | with_reducible apply State.setCam_within
    | with_reducible apply State.writeFrame_within
    | with_reducible apply hw
    | fail_if_no_progress ((with_reducible refine Within.free ?_ ?_ _); exact hk.of rfl)
    | with_reducible refine Within.foldl ?_ ?_
    | with_reducible refine Within.foldlFst ?_ ?_
    | with_reducible refine Within.foldlSnd ?_ ?_
    | dsimp -zeta only
    | split
    | with_reducible refine Within.ofFst ?_ (by assumption)
    | with_reducible refine Within.ofSnd ?_ (by assumption)
    | with_reducible refine Within.ofSome ?_ (by assumption)
    | dsimp -zeta +zetaDelta only

theorem State.frameStored_within {s p x2 w} (hk : Sub 4195331 k) (hs : Within k r s) :
    Within k r (State.frameStored s p x2 w) := by
  unfold State.frameStored
  repeat' first
    | with_reducible assumption
    | exact hk.of rfl
    | intro _
    | extract_lets
    | with_reducible apply State.forward_within
    | with_reducible apply State.setBuf_within
    | with_reducible apply State.setCam_within

theorem State.frameErrored_within {s p x2 w} (hk : Sub 4194306 k) (hs : Within k r s) :
    Within k r (State.frameErrored s p x2 w) := by
  unfold State.frameErrored
  repeat' first
    | with_reducible assumption
    | exact hk.of rfl
    | intro _
    | extract_lets
    | with_reducible apply State.count_within
    | with_reducible apply State.set_within
    | with_reducible apply State.setBuf_within
    | with_reducible apply State.setCam_within
    | with_reducible apply State.setCamState_within

theorem State.frameReady_within {s p b w} (hk : Sub 4196243 k) (hs : Within k r s) :
    Within k r (State.frameReady s p b w) := by
  unfold State.frameReady
  exact Within.elim (State.agateWrite_within (hk.of rfl) hs) (State.frameErrored_within (hk.of rfl) hs)
    (fun t ht => State.frameStored_within (hk.of rfl) ht)

theorem execFrameReady_within {p s} (hk : Sub 4200403 k) (hs : Within k r s) :
    OutWithin k r (execFrameReady p s) := by
  unfold execFrameReady
  repeat' first
    | with_reducible assumption
    | exact hk.of rfl
    | intro _
    | extract_lets
    | with_reducible refine OutWithin.ofNext ?_
    | with_reducible refine State.onClock_within ?_ ?_
    | with_reducible apply State.frameReady_within
    | with_reducible apply State.judgeWaits_within
    | with_reducible apply State.setCam_within
    | with_reducible refine Within.foldl ?_ ?_
    | with_reducible refine Within.foldlFst ?_ ?_
    | with_reducible refine Within.foldlSnd ?_ ?_
    | dsimp -zeta only
    | split

theorem State.claim_within {s p} (hk : Sub 2 k) (hs : Within k r s) :
    Within k r (State.claim s p).1 := by
  unfold State.claim
  repeat' first
    | with_reducible assumption
    | exact hk.of rfl
    | intro _
    | extract_lets
    | with_reducible apply State.count_within
    | with_reducible apply State.setBuf_within
    | with_reducible refine Within.foldl ?_ ?_
    | with_reducible refine Within.foldlFst ?_ ?_
    | with_reducible refine Within.foldlSnd ?_ ?_
    | dsimp -zeta only
    | split

theorem State.claimRead_within {s p} (hk : Sub 2 k) (hs : Within k r s) :
    Within k r (State.claimRead s p).1 := by
  unfold State.claimRead
  repeat' first
    | with_reducible assumption
    | exact hk.of rfl
    | intro _
    | extract_lets
    | with_reducible apply State.claim_within

theorem State.releaseBufs_within {s p mask} (hk : Sub 2 k) (hs : Within k r s) :
    Within k r (State.releaseBufs s p mask) := by
  unfold State.releaseBufs
  repeat' first
    | with_reducible assumption
    | exact hk.of rfl
    | intro _
    | extract_lets
    | with_reducible apply State.setBuf_within
    | with_reducible refine Within.foldl ?_ ?_
    | with_reducible refine Within.foldlFst ?_ ?_
    | with_reducible refine Within.foldlSnd ?_ ?_
    | dsimp -zeta only
    | split

theorem State.snapshot_within {s mask} (hk : Sub 6292370 k) (hs : Within k r s) :
    Within k r (State.snapshot s mask) := by
  unfold State.snapshot
  repeat' first
    | with_reducible assumption
    | exact hk.of rfl
    | intro _
    | extract_lets
    | with_reducible apply State.claim_within
    | with_reducible apply State.ringPut_within
    | with_reducible apply State.set_within
    | with_reducible apply State.setCam_within
    | with_reducible refine Within.foldl ?_ ?_
    | with_reducible refine Within.foldlFst ?_ ?_
    | with_reducible refine Within.foldlSnd ?_ ?_
    | dsimp -zeta only
    | split

theorem State.snapWrite_within {s mask busy} (hk : Sub 6292370 k) (hs : Within k r s) :
    Within k r (State.snapWrite s mask busy) := by
  unfold State.snapWrite
  repeat' first
    | with_reducible assumption
    | exact hk.of rfl
    | intro _
    | extract_lets
    | with_reducible apply State.ingCfgErr_within
    | with_reducible apply State.set_within
    | with_reducible apply State.snapshot_within
    | fail_if_no_progress ((with_reducible refine Within.ing ?_ ?_ _); exact hk.of rfl)
    | with_reducible refine Within.foldl ?_ ?_
    | with_reducible refine Within.foldlFst ?_ ?_
    | with_reducible refine Within.foldlSnd ?_ ?_
    | dsimp -zeta only
    | split

theorem State.snapRun_within {s} (hk : Sub 6292370 k) (hs : Within k r s) :
    Within k r (State.snapRun s) := by
  unfold State.snapRun
  repeat' first
    | with_reducible assumption
    | exact hk.of rfl
    | intro _
    | extract_lets
    | with_reducible apply State.set_within
    | with_reducible apply State.snapshot_within
    | fail_if_no_progress ((with_reducible refine Within.ing ?_ ?_ _); exact hk.of rfl)
    | with_reducible refine Within.foldl ?_ ?_
    | with_reducible refine Within.foldlFst ?_ ?_
    | with_reducible refine Within.foldlSnd ?_ ?_
    | dsimp -zeta only
    | split

theorem State.camAct_within {s c} (hk : Sub 6297555 k) (hs : Within k r s) :
    Within k r (State.camAct s c) := by
  unfold State.camAct
  repeat' first
    | with_reducible assumption
    | exact hk.of rfl
    | intro _
    | extract_lets
    | with_reducible apply State.claimRead_within
    | with_reducible apply State.emit_within
    | with_reducible apply State.frameEnd_within
    | with_reducible apply State.frameStart_within
    | with_reducible apply State.releaseBufs_within
    | with_reducible apply State.snapRun_within
    | with_reducible apply State.snapWrite_within
    | with_reducible refine Within.foldl ?_ ?_
    | with_reducible refine Within.foldlFst ?_ ?_
    | with_reducible refine Within.foldlSnd ?_ ?_
    | dsimp -zeta only
    | split

theorem State.camTry_within {s c} (hk : Sub 6297555 k) (hs : Within k r s) :
    Within k r (State.camTry s c) := by
  unfold State.camTry
  repeat' first
    | with_reducible assumption
    | exact hk.of rfl
    | intro _
    | extract_lets
    | with_reducible apply State.camAct_within
    | fail_if_no_progress ((with_reducible refine Within.ing ?_ ?_ _); exact hk.of rfl)
    | with_reducible refine Within.foldl ?_ ?_
    | with_reducible refine Within.foldlFst ?_ ?_
    | with_reducible refine Within.foldlSnd ?_ ?_
    | dsimp -zeta only
    | split

theorem State.camTurn_within {s c} (hk : Sub 6297555 k) (hs : Within k r s) :
    Within k r (State.camTurn s c) := by
  unfold State.camTurn
  repeat' first
    | with_reducible assumption
    | exact hk.of rfl
    | intro _
    | extract_lets
    | with_reducible apply State.camAct_within
    | with_reducible apply State.camTry_within
    | fail_if_no_progress ((with_reducible refine Within.ing ?_ ?_ _); exact hk.of rfl)
    | with_reducible refine Within.foldl ?_ ?_
    | with_reducible refine Within.foldlFst ?_ ?_
    | with_reducible refine Within.foldlSnd ?_ ?_
    | dsimp -zeta only
    | split

theorem execCsiFrameStart_within {p f s} (hk : Sub 6297555 k) (hs : Within k r s) :
    OutWithin k r (execCsiFrameStart p f s) := by
  unfold execCsiFrameStart
  repeat' first
    | with_reducible assumption
    | exact hk.of rfl
    | intro _
    | extract_lets
    | with_reducible refine OutWithin.ofNext ?_
    | with_reducible refine State.onClock_within ?_ ?_
    | with_reducible apply State.camTurn_within

theorem execCsiFrameEnd_within {p err f s} (hk : Sub 6297555 k) (hs : Within k r s) :
    OutWithin k r (execCsiFrameEnd p err f s) := by
  unfold execCsiFrameEnd
  exact State.onClock_within hs (.ofNext (State.camTurn_within (hk.of rfl) hs))

theorem execClaim_within {src p s} (hk : Sub 6428631 k) (hs : Within k r s) :
    OutWithin k r (execClaim src p s) := by
  unfold execClaim
  repeat' first
    | with_reducible assumption
    | exact hk.of rfl
    | intro _
    | extract_lets
    | with_reducible refine OutWithin.ofNext ?_
    | with_reducible refine State.onClock_within ?_ ?_
    | with_reducible apply State.camTurn_within
    | with_reducible apply State.ingTurned_within
    | with_reducible refine Within.foldl ?_ ?_
    | with_reducible refine Within.foldlFst ?_ ?_
    | with_reducible refine Within.foldlSnd ?_ ?_
    | dsimp -zeta only
    | split

theorem execReleaseBuffer_within {src p val s} (hk : Sub 6428631 k) (hs : Within k r s) :
    OutWithin k r (execReleaseBuffer src p val s) := by
  unfold execReleaseBuffer
  repeat' first
    | with_reducible assumption
    | exact hk.of rfl
    | intro _
    | extract_lets
    | with_reducible refine OutWithin.ofNext ?_
    | with_reducible refine State.onClock_within ?_ ?_
    | with_reducible apply State.camTurn_within
    | with_reducible apply State.ingTurned_within
    | with_reducible refine Within.foldl ?_ ?_
    | with_reducible refine Within.foldlFst ?_ ?_
    | with_reducible refine Within.foldlSnd ?_ ?_
    | dsimp -zeta only
    | split

theorem execSnap_within {src mask busy s} (hk : Sub 6428631 k) (hs : Within k r s) :
    OutWithin k r (execSnap src mask busy s) := by
  unfold execSnap
  repeat' first
    | with_reducible assumption
    | exact hk.of rfl
    | intro _
    | extract_lets
    | with_reducible refine OutWithin.ofNext ?_
    | with_reducible refine State.onClock_within ?_ ?_
    | with_reducible apply State.camTurn_within
    | with_reducible apply State.ingTurned_within
    | with_reducible refine Within.foldl ?_ ?_
    | with_reducible refine Within.foldlFst ?_ ?_
    | with_reducible refine Within.foldlSnd ?_ ?_
    | dsimp -zeta only
    | split

theorem execSnapHeldRun_within {s} (hk : Sub 6297555 k) (hs : Within k r s) :
    OutWithin k r (execSnapHeldRun s) := by
  unfold execSnapHeldRun
  repeat' first
    | with_reducible assumption
    | exact hk.of rfl
    | intro _
    | extract_lets
    | with_reducible refine OutWithin.ofNext ?_
    | with_reducible refine State.onClock_within ?_ ?_
    | with_reducible apply State.camTurn_within

theorem execImucfgWrite_within {src i val s} (hk : Sub 4326406 k) (hs : Within k r s) :
    OutWithin k r (execImucfgWrite src i val s) := by
  unfold execImucfgWrite
  repeat' first
    | with_reducible assumption
    | exact hk.of rfl
    | intro _
    | extract_lets
    | with_reducible refine OutWithin.ofNext ?_
    | with_reducible refine State.onClock_within ?_ ?_
    | with_reducible apply State.ingTurned_within
    | with_reducible apply State.set_within
    | with_reducible apply State.setImu_within
    | with_reducible apply State.setImuState_within
    | with_reducible refine Within.foldl ?_ ?_
    | with_reducible refine Within.foldlFst ?_ ?_
    | with_reducible refine Within.foldlSnd ?_ ?_
    | dsimp -zeta only
    | split

theorem execImuDrdy_within {i s} (hk : Sub 4195333 k) (hs : Within k r s) :
    OutWithin k r (execImuDrdy i s) := by
  unfold execImuDrdy
  repeat' first
    | with_reducible assumption
    | exact hk.of rfl
    | intro _
    | extract_lets
    | with_reducible refine OutWithin.ofNext ?_
    | with_reducible refine State.onClock_within ?_ ?_
    | with_reducible apply State.draw_within
    | with_reducible apply State.emit_within
    | with_reducible apply State.setImu_within
    | with_reducible apply State.setObj_within
    | with_reducible refine Within.foldl ?_ ?_
    | with_reducible refine Within.foldlFst ?_ ?_
    | with_reducible refine Within.foldlSnd ?_ ?_
    | dsimp -zeta only
    | split

theorem execImuBurstComplete_within {i burst s} (hk : Sub 6293395 k) (hs : Within k r s) :
    OutWithin k r (execImuBurstComplete i burst s) := by
  unfold execImuBurstComplete
  repeat' first
    | with_reducible assumption
    | exact hk.of rfl
    | intro _
    | extract_lets
    | with_reducible refine OutWithin.ofNext ?_
    | with_reducible refine State.onClock_within ?_ ?_
    | with_reducible apply State.forward_within
    | with_reducible apply State.ringPut_within
    | with_reducible apply State.set_within
    | with_reducible apply State.setImu_within
    | fail_if_no_progress ((with_reducible refine Within.free ?_ ?_ _); exact hk.of rfl)
    | with_reducible refine Within.foldl ?_ ?_
    | with_reducible refine Within.foldlFst ?_ ?_
    | with_reducible refine Within.foldlSnd ?_ ?_
    | dsimp -zeta only
    | split

theorem execEncoderEdge_within {e l s} (hk : Sub 4194307 k) (hs : Within k r s) :
    OutWithin k r (execEncoderEdge e l s) := by
  unfold execEncoderEdge
  repeat' first
    | with_reducible assumption
    | exact hk.of rfl
    | intro _
    | extract_lets
    | with_reducible refine OutWithin.ofNext ?_
    | with_reducible refine State.onClock_within ?_ ?_
    | with_reducible apply State.draw_within
    | with_reducible apply State.set_within
    | fail_if_no_progress ((with_reducible refine Within.ing ?_ ?_ _); exact hk.of rfl)
    | with_reducible refine Within.foldl ?_ ?_
    | with_reducible refine Within.foldlFst ?_ ?_
    | with_reducible refine Within.foldlSnd ?_ ?_
    | dsimp -zeta only
    | split

end Sys2Proof.Machine
end

