-- ==== Sys2Proof/Laws/Frame/Ego.lean ====
section
/-! SUPPORT. What the functions of Machine/Ego.lean may change. -/

namespace Sys2Proof.Machine

variable {k : Nat} {r : State}

theorem State.setEgo_within {s e} (hk : Sub 4194304 k) (hs : Within k r s) :
    Within k r (State.setEgo s e) := by
  unfold State.setEgo
  repeat' first
    | with_reducible assumption
    | exact hk.of rfl
    | intro _
    | extract_lets
    | fail_if_no_progress ((with_reducible refine Within.ing ?_ ?_ _); exact hk.of rfl)

theorem execEgocfgWrite_within {src val s} (hk : Sub 4326406 k) (hs : Within k r s) :
    OutWithin k r (execEgocfgWrite src val s) := by
  unfold execEgocfgWrite
  repeat' first
    | with_reducible assumption
    | exact hk.of rfl
    | intro _
    | extract_lets
    | with_reducible refine OutWithin.ofNext ?_
    | with_reducible refine State.onClock_within ?_ ?_
    | with_reducible apply State.ingTurned_within
    | with_reducible apply State.set_within
    | with_reducible apply State.setEgo_within
    | with_reducible refine Within.foldl ?_ ?_
    | with_reducible refine Within.foldlFst ?_ ?_
    | with_reducible refine Within.foldlSnd ?_ ?_
    | dsimp -zeta only
    | split

theorem execEgoTick_within {s} (hk : Sub 4194304 k) (hs : Within k r s) :
    OutWithin k r (execEgoTick s) := by
  unfold execEgoTick
  repeat' first
    | with_reducible assumption
    | exact hk.of rfl
    | intro _
    | extract_lets
    | with_reducible refine OutWithin.ofNext ?_
    | with_reducible refine State.onClock_within ?_ ?_
    | with_reducible apply State.setEgo_within
    | with_reducible refine Within.foldl ?_ ?_
    | with_reducible refine Within.foldlFst ?_ ?_
    | with_reducible refine Within.foldlSnd ?_ ?_
    | dsimp -zeta only
    | split

theorem State.stageEgo_within {s} (hk : Sub 4194304 k) (hs : Within k r s) :
    Within k r (State.stageEgo s) := by
  unfold State.stageEgo
  repeat' first
    | with_reducible assumption
    | exact hk.of rfl
    | intro _
    | extract_lets
    | with_reducible apply State.setEgo_within

theorem execApply_within {s} (hk : Sub 4194304 k) (hs : Within k r s) :
    OutWithin k r (execApply s) := by
  unfold execApply
  repeat' first
    | with_reducible assumption
    | exact hk.of rfl
    | intro _
    | extract_lets
    | with_reducible refine OutWithin.ofNext ?_
    | with_reducible refine State.onClock_within ?_ ?_
    | with_reducible apply State.stageEgo_within
    | with_reducible refine Within.foldl ?_ ?_
    | with_reducible refine Within.foldlFst ?_ ?_
    | with_reducible refine Within.foldlSnd ?_ ?_
    | dsimp -zeta only
    | split

theorem State.runDev_within {s i up} (hk : Sub 4194304 k) (hs : Within k r s) :
    Within k r (State.runDev s i up) := by
  unfold State.runDev
  repeat' first
    | with_reducible assumption
    | exact hk.of rfl
    | intro _
    | extract_lets
    | with_reducible apply State.setImu_within

theorem State.farther_within {s a b} (hk : Sub 1 k) (hs : Within k r s) :
    Within k r (State.farther s a b).2 := by
  unfold State.farther
  repeat' first
    | with_reducible assumption
    | exact hk.of rfl
    | intro _
    | extract_lets
    | with_reducible apply State.draw_within
    | with_reducible refine Within.foldl ?_ ?_
    | with_reducible refine Within.foldlFst ?_ ?_
    | with_reducible refine Within.foldlSnd ?_ ?_
    | dsimp -zeta only
    | split

theorem State.judge_within {s ms est} (hk : Sub 4194307 k) (hs : Within k r s) :
    Within k r (State.judge s ms est) := by
  unfold State.judge
  repeat' first
    | with_reducible assumption
    | exact hk.of rfl
    | intro _
    | extract_lets
    | with_reducible apply State.farther_within
    | with_reducible apply State.runDev_within
    | with_reducible apply State.set_within
    | with_reducible apply State.setImuState_within
    | with_reducible refine Within.foldl ?_ ?_
    | with_reducible refine Within.foldlFst ?_ ?_
    | with_reducible refine Within.foldlSnd ?_ ?_
    | dsimp -zeta only
    | split

theorem State.excludeImus_within {s ms} (hk : Sub 4194306 k) (hs : Within k r s) :
    Within k r (State.excludeImus s ms) := by
  unfold State.excludeImus
  repeat' first
    | with_reducible assumption
    | exact hk.of rfl
    | intro _
    | extract_lets
    | with_reducible apply State.set_within
    | with_reducible apply State.setImu_within
    | with_reducible apply State.setImuState_within
    | with_reducible refine Within.foldl ?_ ?_
    | with_reducible refine Within.foldlFst ?_ ?_
    | with_reducible refine Within.foldlSnd ?_ ?_
    | dsimp -zeta only
    | split
    | with_reducible refine Within.ofFst ?_ (by assumption)
    | with_reducible refine Within.ofSnd ?_ (by assumption)
    | with_reducible refine Within.ofSome ?_ (by assumption)
    | dsimp -zeta +zetaDelta only

theorem State.odoCheck_within {s est} (hk : Sub 4194306 k) (hs : Within k r s) :
    Within k r (State.odoCheck s est) := by
  unfold State.odoCheck
  repeat' first
    | with_reducible assumption
    | exact hk.of rfl
    | intro _
    | extract_lets
    | with_reducible apply State.set_within
    | with_reducible apply State.setEgo_within
    | with_reducible refine Within.foldl ?_ ?_
    | with_reducible refine Within.foldlFst ?_ ?_
    | with_reducible refine Within.foldlSnd ?_ ?_
    | dsimp -zeta only
    | split

theorem State.egoAdvance_within {s est} (hk : Sub 4194304 k) (hs : Within k r s) :
    Within k r (State.egoAdvance s est) := by
  unfold State.egoAdvance
  repeat' first
    | with_reducible assumption
    | exact hk.of rfl
    | intro _
    | extract_lets
    | with_reducible refine Within.getD ?_ ?_
    | with_reducible apply State.setEgo_within

theorem State.writePose_within {s tick members valid} (hk : Sub 6293395 k) (hs : Within k r s) :
    Within k r (State.writePose s tick members valid) := by
  unfold State.writePose
  repeat' first
    | with_reducible assumption
    | exact hk.of rfl
    | intro _
    | extract_lets
    | with_reducible apply State.forward_within
    | with_reducible apply State.ringPut_within
    | with_reducible apply State.set_within
    | with_reducible apply State.setEgo_within
    | with_reducible refine Within.foldl ?_ ?_
    | with_reducible refine Within.foldlFst ?_ ?_
    | with_reducible refine Within.foldlSnd ?_ ?_
    | dsimp -zeta only
    | split

theorem execEgoEval_within {s} (hk : Sub 6293395 k) (hs : Within k r s) :
    OutWithin k r (execEgoEval s) := by
  unfold execEgoEval
  repeat' first
    | with_reducible assumption
    | exact hk.of rfl
    | intro _
    | extract_lets
    | with_reducible refine OutWithin.ofNext ?_
    | with_reducible refine State.onClock_within ?_ ?_
    | with_reducible refine Within.getD ?_ ?_
    | with_reducible apply State.egoAdvance_within
    | with_reducible apply State.excludeImus_within
    | with_reducible apply State.judge_within
    | with_reducible apply State.odoCheck_within
    | with_reducible apply State.writePose_within
    | with_reducible refine Within.foldl ?_ ?_
    | with_reducible refine Within.foldlFst ?_ ?_
    | with_reducible refine Within.foldlSnd ?_ ?_
    | dsimp -zeta only
    | split
    | with_reducible refine Within.ofFst ?_ (by assumption)
    | with_reducible refine Within.ofSnd ?_ (by assumption)
    | with_reducible refine Within.ofSome ?_ (by assumption)
    | dsimp -zeta +zetaDelta only

end Sys2Proof.Machine
end

