-- ==== Sys2Proof/Laws/Frame/Fabric.lean ====
section
/-! SUPPORT. What the functions of Machine/Fabric.lean may change. -/

namespace Sys2Proof.Machine

variable {k : Nat} {r : State}

theorem State.relabelTiles_within {s e e'} (hk : Sub 4096 k) (hs : Within k r s) :
    Within k r (State.relabelTiles s e e') := by
  unfold State.relabelTiles
  repeat' first
    | with_reducible assumption
    | exact hk.of rfl
    | intro _
    | extract_lets
    | fail_if_no_progress ((with_reducible refine Within.sched ?_ ?_ _); exact hk.of rfl)

theorem State.showPending_within {s} (hk : Sub 2 k) (hs : Within k r s) :
    Within k r (State.showPending s) := by
  unfold State.showPending
  repeat' first
    | with_reducible assumption
    | exact hk.of rfl
    | intro _
    | extract_lets
    | with_reducible apply State.set_within

theorem State.newEpoch_within {s} (hk : Sub 36866 k) (hs : Within k r s) :
    Within k r (State.newEpoch s) := by
  unfold State.newEpoch
  repeat' first
    | with_reducible assumption
    | exact hk.of rfl
    | intro _
    | extract_lets
    | with_reducible apply State.relabelTiles_within
    | with_reducible apply State.set_within
    | fail_if_no_progress ((with_reducible refine Within.fabric ?_ ?_ _); exact hk.of rfl)
    | with_reducible refine Within.foldl ?_ ?_
    | with_reducible refine Within.foldlFst ?_ ?_
    | with_reducible refine Within.foldlSnd ?_ ?_
    | dsimp -zeta only
    | split

theorem State.cutTile_within {s part x f stay got} (hk : Sub 976 k) (hs : Within k r s) :
    Within k r (State.cutTile s part x f stay got) := by
  unfold State.cutTile
  repeat' first
    | with_reducible assumption
    | exact hk.of rfl
    | intro _
    | extract_lets
    | with_reducible apply State.missSector_within
    | with_reducible apply State.putSector_within
    | with_reducible refine Within.foldl ?_ ?_
    | with_reducible refine Within.foldlFst ?_ ?_
    | with_reducible refine Within.foldlSnd ?_ ?_
    | dsimp -zeta only
    | split
    | with_reducible refine Within.ofFst ?_ (by assumption)
    | with_reducible refine Within.ofSnd ?_ (by assumption)
    | with_reducible refine Within.ofSome ?_ (by assumption)
    | dsimp -zeta +zetaDelta only

theorem State.endCut_within {s stay st got t} (hk : Sub 37840 k) (hs : Within k r s) :
    Within k r (State.endCut s stay st got t) := by
  unfold State.endCut
  repeat' first
    | with_reducible assumption
    | exact hk.of rfl
    | intro _
    | extract_lets
    | with_reducible apply State.cutTile_within
    | with_reducible apply State.keepTransfer_within
    | with_reducible apply State.sentPackets_within
    | with_reducible refine Within.foldl ?_ ?_
    | with_reducible refine Within.foldlFst ?_ ?_
    | with_reducible refine Within.foldlSnd ?_ ?_
    | dsimp -zeta only
    | split

theorem State.loseTile_within {s n got t} (hk : Sub 37840 k) (hs : Within k r s) :
    Within k r (State.loseTile s n got t) := by
  unfold State.loseTile
  repeat' first
    | with_reducible assumption
    | exact hk.of rfl
    | intro _
    | extract_lets
    | with_reducible apply State.endCut_within
    | fail_if_no_progress ((with_reducible refine Within.sched ?_ ?_ _); exact hk.of rfl)
    | with_reducible refine Within.foldl ?_ ?_
    | with_reducible refine Within.foldlFst ?_ ?_
    | with_reducible refine Within.foldlSnd ?_ ?_
    | dsimp -zeta only
    | split

theorem State.dropDie_within {s n} (hk : Sub 1840016 k) (hs : Within k r s) : Within k r (State.dropDie s n) := by
  unfold State.dropDie
  extract_lets
  exact .losses (hk.of rfl) hs _ _ _ _ _ _ _ _

theorem State.fixStep_within {s n c} (hk : Sub 4096 k) (hs : Within k r s) :
    Within k r (State.fixStep s n c) := by
  unfold State.fixStep
  repeat' first
    | with_reducible assumption
    | exact hk.of rfl
    | intro _
    | extract_lets
    | with_reducible apply State.setCmd_within
    | with_reducible apply State.setCtx_within
    | with_reducible refine Within.foldl ?_ ?_
    | with_reducible refine Within.foldlFst ?_ ?_
    | with_reducible refine Within.foldlSnd ?_ ?_
    | dsimp -zeta only
    | split
    | with_reducible refine Within.ofFst ?_ (by assumption)
    | with_reducible refine Within.ofSnd ?_ (by assumption)
    | with_reducible refine Within.ofSome ?_ (by assumption)
    | dsimp -zeta +zetaDelta only

theorem State.latchLoss_within {s n cause ctxs} (hk : Sub 5074 k) (hs : Within k r s) :
    Within k r (State.latchLoss s n cause ctxs) := by
  unfold State.latchLoss
  repeat' first
    | with_reducible assumption
    | exact hk.of rfl
    | intro _
    | extract_lets
    | with_reducible apply State.event_within
    | with_reducible apply State.set_within
    | with_reducible refine Within.foldl ?_ ?_

theorem State.closeDie_within {s n cause} (hk : Sub 32770 k) (hs : Within k r s) :
    Within k r (State.closeDie s n cause) := by
  unfold State.closeDie
  repeat' first
    | with_reducible assumption
    | exact hk.of rfl
    | intro _
    | extract_lets
    | with_reducible apply State.set_within
    | with_reducible apply State.setAdmitted_within
    | with_reducible apply State.setLink_within
    | fail_if_no_progress ((with_reducible refine Within.fabric ?_ ?_ _); exact hk.of rfl)
    | with_reducible refine Within.foldl ?_ ?_
    | with_reducible refine Within.foldlFst ?_ ?_
    | with_reducible refine Within.foldlSnd ?_ ?_
    | dsimp -zeta only
    | split
    | with_reducible refine Within.ofFst ?_ (by assumption)
    | with_reducible refine Within.ofSnd ?_ (by assumption)
    | with_reducible refine Within.ofSome ?_ (by assumption)
    | dsimp -zeta +zetaDelta only

theorem State.loseDie_within {s n cause ctxs got} (hk : Sub 1873874 k) (hs : Within k r s) :
    Within k r (State.loseDie s n cause ctxs got) := by
  unfold State.loseDie
  repeat' first
    | with_reducible assumption
    | exact hk.of rfl
    | intro _
    | extract_lets
    | with_reducible apply State.abortCtx_within
    | with_reducible apply State.checkBoundary_within
    | with_reducible apply State.completeOne_within
    | with_reducible apply State.dropDie_within
    | with_reducible apply State.latchLoss_within
    | with_reducible apply State.loseTile_within
    | with_reducible refine Within.foldl ?_ ?_

theorem State.fenceSet_within {s ls got} (hk : Sub 1873874 k) (hs : Within k r s) :
    Within k r (State.fenceSet s ls got) := by
  unfold State.fenceSet
  repeat' first
    | with_reducible assumption
    | exact hk.of rfl
    | intro _
    | extract_lets
    | with_reducible apply State.closeDie_within
    | with_reducible apply State.fixStep_within
    | with_reducible apply State.loseDie_within
    | with_reducible apply State.newEpoch_within
    | with_reducible apply State.settleWaits_within
    | with_reducible refine Within.foldl ?_ ?_
    | with_reducible refine Within.foldlFst ?_ ?_
    | with_reducible refine Within.foldlSnd ?_ ?_
    | dsimp -zeta only
    | split

theorem State.cascade_within {got n s} (hk : Sub 1873874 k) (hs : Within k r s) : Within k r (State.cascade got n s) := by
  induction n generalizing s with
  | zero => exact hs
  | succ n ih =>
    unfold State.cascade
    split
    · exact hs
    · exact ih (State.fenceSet_within (hk.of rfl) hs)

theorem State.fence_within {s n cause got} (hk : Sub 1873874 k) (hs : Within k r s) :
    Within k r (State.fence s n cause got) := by
  unfold State.fence
  repeat' first
    | with_reducible assumption
    | exact hk.of rfl
    | intro _
    | extract_lets
    | with_reducible apply State.cascade_within
    | with_reducible apply State.fenceSet_within

theorem State.loseAll_within {s own got} (hk : Sub 1873874 k) (hs : Within k r s) :
    Within k r (State.loseAll s own got) := by
  unfold State.loseAll
  repeat' first
    | with_reducible assumption
    | exact hk.of rfl
    | intro _
    | extract_lets
    | with_reducible apply State.cascade_within
    | with_reducible apply State.fenceSet_within

theorem State.countEnd_within {s l upper rx} (hk : Sub 2 k) (hs : Within k r s) :
    Within k r (State.countEnd s l upper rx) := by
  unfold State.countEnd
  repeat' first
    | with_reducible assumption
    | exact hk.of rfl
    | intro _
    | extract_lets
    | with_reducible apply State.count_within
    | with_reducible apply State.countO_within
    | with_reducible refine Within.foldl ?_ ?_
    | with_reducible refine Within.foldlFst ?_ ?_
    | with_reducible refine Within.foldlSnd ?_ ?_
    | dsimp -zeta only
    | split
    | with_reducible refine Within.ofFst ?_ (by assumption)
    | with_reducible refine Within.ofSnd ?_ (by assumption)
    | with_reducible refine Within.ofSome ?_ (by assumption)
    | dsimp -zeta +zetaDelta only

theorem State.countCrc_within {s l atUpper} (hk : Sub 2 k) (hs : Within k r s) :
    Within k r (State.countCrc s l atUpper) := by
  unfold State.countCrc
  repeat' first
    | with_reducible assumption
    | exact hk.of rfl
    | intro _
    | extract_lets
    | with_reducible apply State.countEnd_within

theorem State.countPacket_within {s l atUpper} (hk : Sub 2 k) (hs : Within k r s) :
    Within k r (State.countPacket s l atUpper) := by
  unfold State.countPacket
  repeat' first
    | with_reducible assumption
    | exact hk.of rfl
    | intro _
    | extract_lets
    | with_reducible apply State.countCrc_within
    | with_reducible apply State.countEnd_within

theorem State.fabEnd_within {s st} (hk : Sub 2 k) (hs : Within k r s) :
    Within k r (State.fabEnd s st) := by
  unfold State.fabEnd
  repeat' first
    | with_reducible assumption
    | exact hk.of rfl
    | intro _
    | extract_lets
    | with_reducible apply State.set_within

theorem State.abandonAdmit_within {s n} (hk : Sub 32770 k) (hs : Within k r s) :
    Within k r (State.abandonAdmit s n) := by
  unfold State.abandonAdmit
  repeat' first
    | with_reducible assumption
    | exact hk.of rfl
    | intro _
    | extract_lets
    | with_reducible apply State.fabEnd_within
    | with_reducible apply State.set_within
    | with_reducible apply State.setLink_within
    | fail_if_no_progress ((with_reducible refine Within.fabric ?_ ?_ _); exact hk.of rfl)
    | with_reducible refine Within.foldl ?_ ?_
    | with_reducible refine Within.foldlFst ?_ ?_
    | with_reducible refine Within.foldlSnd ?_ ?_
    | dsimp -zeta only
    | split

theorem State.linkFails_within {s l got} (hk : Sub 1873874 k) (hs : Within k r s) :
    Within k r (State.linkFails s l got) := by
  unfold State.linkFails
  repeat' first
    | with_reducible assumption
    | exact hk.of rfl
    | intro _
    | extract_lets
    | with_reducible apply State.abandonAdmit_within
    | with_reducible apply State.cascade_within
    | with_reducible apply State.endCut_within
    | with_reducible apply State.newEpoch_within
    | with_reducible apply State.setLink_within
    | with_reducible refine Within.foldl ?_ ?_
    | with_reducible refine Within.foldlFst ?_ ?_
    | with_reducible refine Within.foldlSnd ?_ ?_
    | dsimp -zeta only
    | split
    | with_reducible refine Within.ofFst ?_ (by assumption)
    | with_reducible refine Within.ofSnd ?_ (by assumption)
    | with_reducible refine Within.ofSome ?_ (by assumption)
    | dsimp -zeta +zetaDelta only

theorem execPacketCrcError_within {l atUpper pkt got s} (hk : Sub 1873874 k) (hs : Within k r s) :
    OutWithin k r (execPacketCrcError l atUpper pkt got s) := by
  unfold execPacketCrcError
  repeat' first
    | with_reducible assumption
    | exact hk.of rfl
    | intro _
    | extract_lets
    | with_reducible refine OutWithin.ofNext ?_
    | with_reducible refine State.onClock_within ?_ ?_
    | with_reducible apply State.countCrc_within
    | with_reducible apply State.countPacket_within
    | with_reducible apply State.linkFails_within
    | with_reducible apply State.setLink_within
    | fail_if_no_progress ((with_reducible refine Within.fabric ?_ ?_ _); exact hk.of rfl)
    | with_reducible refine Within.foldl ?_ ?_
    | with_reducible refine Within.foldlFst ?_ ?_
    | with_reducible refine Within.foldlSnd ?_ ?_
    | dsimp -zeta only
    | split

theorem execLinkDown_within {l got s} (hk : Sub 1873874 k) (hs : Within k r s) :
    OutWithin k r (execLinkDown l got s) := by
  unfold execLinkDown
  repeat' first
    | with_reducible assumption
    | exact hk.of rfl
    | intro _
    | extract_lets
    | with_reducible refine OutWithin.ofNext ?_
    | with_reducible refine State.onClock_within ?_ ?_
    | with_reducible apply State.linkFails_within

theorem execPacketAuthFail_within {c seq index j errs s} (hk : Sub 168918 k) (hs : Within k r s) :
    OutWithin k r (execPacketAuthFail c seq index j errs s) := by
  unfold execPacketAuthFail
  repeat' first
    | with_reducible assumption
    | exact hk.of rfl
    | intro _
    | extract_lets
    | with_reducible refine OutWithin.ofNext ?_
    | with_reducible refine State.onClock_within ?_ ?_
    | with_reducible apply State.cutTile_within
    | with_reducible apply State.keepTransfer_within
    | with_reducible apply State.readSectors_within
    | with_reducible apply State.sentPackets_within
    | fail_if_no_progress ((with_reducible refine Within.sec ?_ ?_ _); exact hk.of rfl)
    | with_reducible refine Within.foldl ?_ ?_
    | with_reducible refine Within.foldlFst ?_ ?_
    | with_reducible refine Within.foldlSnd ?_ ?_
    | dsimp -zeta only
    | split

theorem execHeartbeatSend_within {s} (hk : Sub 32768 k) (hs : Within k r s) :
    OutWithin k r (execHeartbeatSend s) := by
  unfold execHeartbeatSend
  repeat' first
    | with_reducible assumption
    | exact hk.of rfl
    | intro _
    | extract_lets
    | with_reducible refine OutWithin.ofNext ?_
    | with_reducible refine State.onClock_within ?_ ?_
    | fail_if_no_progress ((with_reducible refine Within.fabric ?_ ?_ _); exact hk.of rfl)
    | with_reducible refine Within.foldl ?_ ?_
    | with_reducible refine Within.foldlFst ?_ ?_
    | with_reducible refine Within.foldlSnd ?_ ?_
    | dsimp -zeta only
    | split

theorem execHeartbeatAnswer_within {n s} (hk : Sub 32768 k) (hs : Within k r s) :
    OutWithin k r (execHeartbeatAnswer n s) := by
  unfold execHeartbeatAnswer
  repeat' first
    | with_reducible assumption
    | exact hk.of rfl
    | intro _
    | extract_lets
    | with_reducible refine OutWithin.ofNext ?_
    | with_reducible refine State.onClock_within ?_ ?_
    | fail_if_no_progress ((with_reducible refine Within.fabric ?_ ?_ _); exact hk.of rfl)
    | with_reducible refine Within.foldl ?_ ?_
    | with_reducible refine Within.foldlFst ?_ ?_
    | with_reducible refine Within.foldlSnd ?_ ?_
    | dsimp -zeta only
    | split

theorem execLossTimeout_within {n got s} (hk : Sub 1873874 k) (hs : Within k r s) :
    OutWithin k r (execLossTimeout n got s) := by
  unfold execLossTimeout
  repeat' first
    | with_reducible assumption
    | exact hk.of rfl
    | intro _
    | extract_lets
    | with_reducible refine OutWithin.ofNext ?_
    | with_reducible refine State.onClock_within ?_ ?_
    | with_reducible apply State.loseAll_within
    | with_reducible refine Within.foldl ?_ ?_
    | with_reducible refine Within.foldlFst ?_ ?_
    | with_reducible refine Within.foldlSnd ?_ ?_
    | dsimp -zeta only
    | split

theorem execUncoreFatal_within {n got s} (hk : Sub 1873874 k) (hs : Within k r s) :
    OutWithin k r (execUncoreFatal n got s) := by
  unfold execUncoreFatal
  repeat' first
    | with_reducible assumption
    | exact hk.of rfl
    | intro _
    | extract_lets
    | with_reducible refine OutWithin.ofNext ?_
    | with_reducible refine State.onClock_within ?_ ?_
    | with_reducible apply State.abandonAdmit_within
    | with_reducible apply State.loseAll_within
    | with_reducible refine Within.foldl ?_ ?_
    | with_reducible refine Within.foldlFst ?_ ?_
    | with_reducible refine Within.foldlSnd ?_ ?_
    | dsimp -zeta only
    | split

theorem State.fabTurnedAway_within {s src} (hk : Sub 132102 k) (hs : Within k r s) :
    OptWithin k r (State.fabTurnedAway s src) := by
  unfold State.fabTurnedAway
  repeat' first
    | with_reducible assumption
    | exact hk.of rfl
    | intro _
    | extract_lets
    | exact OptWithin.none
    | with_reducible refine OptWithin.mk' ?_
    | with_reducible apply State.set_within
    | with_reducible apply State.turnAway_within
    | with_reducible refine Within.foldl ?_ ?_
    | with_reducible refine Within.foldlFst ?_ ?_
    | with_reducible refine Within.foldlSnd ?_ ?_
    | dsimp -zeta only
    | split

theorem State.plannedFence_within {s n got} (hk : Sub 1873874 k) (hs : Within k r s) :
    Within k r (State.plannedFence s n got) := by
  unfold State.plannedFence
  repeat' first
    | with_reducible assumption
    | exact hk.of rfl
    | intro _
    | extract_lets
    | with_reducible apply State.fabEnd_within
    | with_reducible apply State.fence_within
    | fail_if_no_progress ((with_reducible refine Within.fabric ?_ ?_ _); exact hk.of rfl)

theorem execFence_within {src val got s} (hk : Sub 2004950 k) (hs : Within k r s) :
    OutWithin k r (execFence src val got s) := by
  unfold execFence
  repeat' first
    | with_reducible assumption
    | exact hk.of rfl
    | intro _
    | extract_lets
    | with_reducible refine OutWithin.ofNext ?_
    | with_reducible refine State.onClock_within ?_ ?_
    | with_reducible apply State.fabEnd_within
    | with_reducible apply State.fabTurnedAway_within
    | with_reducible apply State.plannedFence_within
    | with_reducible apply State.set_within
    | fail_if_no_progress ((with_reducible refine Within.fabric ?_ ?_ _); exact hk.of rfl)
    | with_reducible refine Within.foldl ?_ ?_
    | with_reducible refine Within.foldlFst ?_ ?_
    | with_reducible refine Within.foldlSnd ?_ ?_
    | dsimp -zeta only
    | split
    | with_reducible refine Within.ofFst ?_ (by assumption)
    | with_reducible refine Within.ofSnd ?_ (by assumption)
    | with_reducible refine Within.ofSome ?_ (by assumption)

theorem execFenceDrainEnd_within {got s} (hk : Sub 1873874 k) (hs : Within k r s) :
    OutWithin k r (execFenceDrainEnd got s) := by
  unfold execFenceDrainEnd
  repeat' first
    | with_reducible assumption
    | exact hk.of rfl
    | intro _
    | extract_lets
    | with_reducible refine OutWithin.ofNext ?_
    | with_reducible refine State.onClock_within ?_ ?_
    | with_reducible apply State.fabEnd_within
    | with_reducible apply State.plannedFence_within
    | fail_if_no_progress ((with_reducible refine Within.fabric ?_ ?_ _); exact hk.of rfl)
    | with_reducible refine Within.foldl ?_ ?_
    | with_reducible refine Within.foldlFst ?_ ?_
    | with_reducible refine Within.foldlSnd ?_ ?_
    | dsimp -zeta only
    | split

theorem execAdmitDie_within {src val s} (hk : Sub 164870 k) (hs : Within k r s) :
    OutWithin k r (execAdmitDie src val s) := by
  unfold execAdmitDie
  repeat' first
    | with_reducible assumption
    | exact hk.of rfl
    | intro _
    | extract_lets
    | with_reducible refine OutWithin.ofNext ?_
    | with_reducible refine State.onClock_within ?_ ?_
    | with_reducible apply State.fabEnd_within
    | with_reducible apply State.fabTurnedAway_within
    | with_reducible apply State.set_within
    | fail_if_no_progress ((with_reducible refine Within.fabric ?_ ?_ _); exact hk.of rfl)
    | with_reducible refine Within.foldl ?_ ?_
    | with_reducible refine Within.foldlFst ?_ ?_
    | with_reducible refine Within.foldlSnd ?_ ?_
    | dsimp -zeta only
    | split
    | with_reducible refine Within.ofFst ?_ (by assumption)
    | with_reducible refine Within.ofSnd ?_ (by assumption)
    | with_reducible refine Within.ofSome ?_ (by assumption)

theorem State.admitNow_within {s n} (hk : Sub 36866 k) (hs : Within k r s) :
    Within k r (State.admitNow s n) := by
  unfold State.admitNow
  repeat' first
    | with_reducible assumption
    | exact hk.of rfl
    | intro _
    | extract_lets
    | with_reducible apply State.fabEnd_within
    | with_reducible apply State.newEpoch_within
    | with_reducible apply State.set_within
    | with_reducible apply State.setAdmitted_within
    | fail_if_no_progress ((with_reducible refine Within.fabric ?_ ?_ _); exact hk.of rfl)

theorem State.retrain_within {s l half} (hk : Sub 32770 k) (hs : Within k r s) :
    Within k r (State.retrain s l half) := by
  unfold State.retrain
  repeat' first
    | with_reducible assumption
    | exact hk.of rfl
    | intro _
    | extract_lets
    | with_reducible apply State.setLink_within
    | fail_if_no_progress ((with_reducible refine Within.fabric ?_ ?_ _); exact hk.of rfl)

theorem execAdmitComplete_within {ok half s} (hk : Sub 36866 k) (hs : Within k r s) :
    OutWithin k r (execAdmitComplete ok half s) := by
  unfold execAdmitComplete
  repeat' first
    | with_reducible assumption
    | exact hk.of rfl
    | intro _
    | extract_lets
    | with_reducible refine OutWithin.ofNext ?_
    | with_reducible refine State.onClock_within ?_ ?_
    | with_reducible apply State.abandonAdmit_within
    | with_reducible apply State.admitNow_within
    | with_reducible apply State.countPacket_within
    | with_reducible apply State.retrain_within
    | with_reducible apply State.showPending_within
    | fail_if_no_progress ((with_reducible refine Within.fabric ?_ ?_ _); exact hk.of rfl)
    | with_reducible refine Within.foldl ?_ ?_
    | with_reducible refine Within.foldlFst ?_ ?_
    | with_reducible refine Within.foldlSnd ?_ ?_
    | dsimp -zeta only
    | split

theorem execEpochRelease_within {s} (hk : Sub 36866 k) (hs : Within k r s) :
    OutWithin k r (execEpochRelease s) := by
  unfold execEpochRelease
  repeat' first
    | with_reducible assumption
    | exact hk.of rfl
    | intro _
    | extract_lets
    | with_reducible refine OutWithin.ofNext ?_
    | with_reducible refine State.onClock_within ?_ ?_
    | with_reducible apply State.admitNow_within
    | with_reducible apply State.showPending_within
    | fail_if_no_progress ((with_reducible refine Within.fabric ?_ ?_ _); exact hk.of rfl)
    | with_reducible refine Within.foldl ?_ ?_
    | with_reducible refine Within.foldlFst ?_ ?_
    | with_reducible refine Within.foldlSnd ?_ ?_
    | dsimp -zeta only
    | split

end Sys2Proof.Machine
end

