-- ==== Sys2Proof/Laws/Frame/Reflex.lean ====
section
/-! SUPPORT. What the functions of Machine/Reflex.lean may change. -/

namespace Sys2Proof.Machine

variable {k : Nat} {r : State}

theorem State.setRfx_within {s c x} (hk : Sub 8388608 k) (hs : Within k r s) :
    Within k r (State.setRfx s c x) := by
  unfold State.setRfx
  repeat' first
    | with_reducible assumption
    | exact hk.of rfl
    | intro _
    | extract_lets
    | fail_if_no_progress ((with_reducible refine Within.rfx ?_ ?_ _); exact hk.of rfl)

theorem State.setRfxBuffer_within {s l} (hk : Sub 8388608 k) (hs : Within k r s) :
    Within k r (State.setRfxBuffer s l) := by
  unfold State.setRfxBuffer
  repeat' first
    | with_reducible assumption
    | exact hk.of rfl
    | intro _
    | extract_lets
    | fail_if_no_progress ((with_reducible refine Within.rfx ?_ ?_ _); exact hk.of rfl)

theorem State.setRfxState_within {s c v} (hk : Sub 2 k) (hs : Within k r s) :
    Within k r (State.setRfxState s c v) := by
  unfold State.setRfxState
  repeat' first
    | with_reducible assumption
    | exact hk.of rfl
    | intro _
    | extract_lets
    | with_reducible apply State.set_within

theorem State.rfxRecord_within {s c kind thr} (hk : Sub 8388610 k) (hs : Within k r s) :
    Within k r (State.rfxRecord s c kind thr) := by
  unfold State.rfxRecord
  repeat' first
    | with_reducible assumption
    | exact hk.of rfl
    | intro _
    | extract_lets
    | with_reducible apply State.count_within
    | with_reducible apply State.setRfxBuffer_within
    | with_reducible refine Within.foldl ?_ ?_
    | with_reducible refine Within.foldlFst ?_ ?_
    | with_reducible refine Within.foldlSnd ?_ ?_
    | dsimp -zeta only
    | split

theorem State.rfxWrite_within {s b} (hk : Sub 2098066 k) (hs : Within k r s) :
    Within k r (State.rfxWrite s b) := by
  unfold State.rfxWrite
  repeat' first
    | with_reducible assumption
    | exact hk.of rfl
    | intro _
    | extract_lets
    | with_reducible apply State.count_within
    | with_reducible apply State.ringPut_within
    | with_reducible apply State.set_within
    | with_reducible refine Within.foldl ?_ ?_
    | with_reducible refine Within.foldlFst ?_ ?_
    | with_reducible refine Within.foldlSnd ?_ ?_
    | dsimp -zeta only
    | split

theorem State.rfxDrain_within {s} (hk : Sub 10486675 k) (hs : Within k r s) :
    Within k r (State.rfxDrain s) := by
  unfold State.rfxDrain
  repeat' first
    | with_reducible assumption
    | exact hk.of rfl
    | intro _
    | extract_lets
    | with_reducible apply State.draw_within
    | with_reducible apply State.rfxWrite_within
    | with_reducible apply State.setRfxBuffer_within
    | with_reducible refine Within.foldl ?_ ?_
    | with_reducible refine Within.foldlFst ?_ ?_
    | with_reducible refine Within.foldlSnd ?_ ?_
    | dsimp -zeta only
    | split

theorem State.rfxLow_within {s c} (hk : Sub 8388608 k) (hs : Within k r s) :
    Within k r (State.rfxLow s c) := by
  unfold State.rfxLow
  repeat' first
    | with_reducible assumption
    | exact hk.of rfl
    | intro _
    | extract_lets
    | with_reducible apply State.setRfx_within

theorem State.reportFault_within {s c} (hk : Sub 8389634 k) (hs : Within k r s) :
    Within k r (State.reportFault s c) := by
  unfold State.reportFault
  repeat' first
    | with_reducible assumption
    | exact hk.of rfl
    | intro _
    | extract_lets
    | with_reducible apply State.msix_within
    | with_reducible apply State.rfxRecord_within
    | with_reducible refine Within.foldl ?_ ?_
    | with_reducible refine Within.foldlFst ?_ ?_
    | with_reducible refine Within.foldlSnd ?_ ?_
    | dsimp -zeta only
    | split

theorem State.rfxFault_within {s c cause} (hk : Sub 8389634 k) (hs : Within k r s) :
    Within k r (State.rfxFault s c cause) := by
  unfold State.rfxFault
  repeat' first
    | with_reducible assumption
    | exact hk.of rfl
    | intro _
    | extract_lets
    | with_reducible apply State.reportFault_within
    | with_reducible apply State.rfxLow_within
    | with_reducible apply State.set_within
    | with_reducible apply State.setRfx_within
    | with_reducible apply State.setRfxState_within
    | with_reducible refine Within.foldl ?_ ?_
    | with_reducible refine Within.foldlFst ?_ ?_
    | with_reducible refine Within.foldlSnd ?_ ?_
    | dsimp -zeta only
    | split

theorem State.rfxSafe_within {s} (hk : Sub 8389634 k) (hs : Within k r s) :
    Within k r (State.rfxSafe s) := by
  unfold State.rfxSafe
  repeat' first
    | with_reducible assumption
    | exact hk.of rfl
    | intro _
    | extract_lets
    | with_reducible apply State.rfxFault_within
    | with_reducible refine Within.foldl ?_ ?_

theorem State.rfxDisarm_within {s c} (hk : Sub 8388610 k) (hs : Within k r s) :
    Within k r (State.rfxDisarm s c) := by
  unfold State.rfxDisarm
  repeat' first
    | with_reducible assumption
    | exact hk.of rfl
    | intro _
    | extract_lets
    | with_reducible apply State.rfxLow_within
    | with_reducible apply State.rfxRecord_within
    | with_reducible apply State.set_within
    | with_reducible apply State.setRfx_within
    | with_reducible apply State.setRfxState_within
    | with_reducible refine Within.foldl ?_ ?_
    | with_reducible refine Within.foldlFst ?_ ?_
    | with_reducible refine Within.foldlSnd ?_ ?_
    | dsimp -zeta only
    | split

theorem State.rfxDisarmAll_within {s} (hk : Sub 8388610 k) (hs : Within k r s) :
    Within k r (State.rfxDisarmAll s) := by
  unfold State.rfxDisarmAll
  repeat' first
    | with_reducible assumption
    | exact hk.of rfl
    | intro _
    | extract_lets
    | with_reducible apply State.rfxDisarm_within
    | with_reducible refine Within.foldl ?_ ?_

theorem State.crowbar_within {s c v} (hk : Sub 8389634 k) (hs : Within k r s) :
    Within k r (State.crowbar s c v) := by
  unfold State.crowbar
  repeat' first
    | with_reducible assumption
    | exact hk.of rfl
    | intro _
    | extract_lets
    | with_reducible apply State.rfxFault_within
    | with_reducible apply State.rfxLow_within
    | with_reducible apply State.set_within
    | with_reducible refine Within.foldl ?_ ?_
    | with_reducible refine Within.foldlFst ?_ ?_
    | with_reducible refine Within.foldlSnd ?_ ?_
    | dsimp -zeta only
    | split

theorem State.desat_within {s c level held} (hk : Sub 8389634 k) (hs : Within k r s) :
    Within k r (State.desat s c level held) := by
  unfold State.desat
  repeat' first
    | with_reducible assumption
    | exact hk.of rfl
    | intro _
    | extract_lets
    | with_reducible apply State.rfxFault_within
    | with_reducible apply State.rfxLow_within
    | with_reducible apply State.set_within
    | with_reducible refine Within.foldl ?_ ?_
    | with_reducible refine Within.foldlFst ?_ ?_
    | with_reducible refine Within.foldlSnd ?_ ?_
    | dsimp -zeta only
    | split

theorem State.rfxAhead_within {s c} (hk : Sub 8389634 k) (hs : Within k r s) :
    Within k r (State.rfxAhead s c) := by
  unfold State.rfxAhead
  repeat' first
    | with_reducible assumption
    | exact hk.of rfl
    | intro _
    | extract_lets
    | with_reducible apply State.crowbar_within
    | with_reducible apply State.desat_within
    | with_reducible apply State.rfxFault_within
    | with_reducible refine Within.foldl ?_ ?_
    | with_reducible refine Within.foldlFst ?_ ?_
    | with_reducible refine Within.foldlSnd ?_ ?_
    | dsimp -zeta only
    | split

theorem execCrowbarTrip_within {m s} (hk : Sub 8389634 k) (hs : Within k r s) :
    OutWithin k r (execCrowbarTrip m s) := by
  unfold execCrowbarTrip
  repeat' first
    | with_reducible assumption
    | exact hk.of rfl
    | intro _
    | extract_lets
    | with_reducible refine OutWithin.ofNext ?_
    | with_reducible refine State.onClock_within ?_ ?_
    | with_reducible apply State.crowbar_within

theorem execDesatTrip_within {d s} (hk : Sub 8389634 k) (hs : Within k r s) :
    OutWithin k r (execDesatTrip d s) := by
  unfold execDesatTrip
  repeat' first
    | with_reducible assumption
    | exact hk.of rfl
    | intro _
    | extract_lets
    | with_reducible refine OutWithin.ofNext ?_
    | with_reducible refine State.onClock_within ?_ ?_
    | with_reducible apply State.desat_within

theorem State.rfxOnEdge_within {s c thr} (hk : Sub 8388610 k) (hs : Within k r s) :
    Within k r (State.rfxOnEdge s c thr) := by
  unfold State.rfxOnEdge
  repeat' first
    | with_reducible assumption
    | exact hk.of rfl
    | intro _
    | extract_lets
    | with_reducible apply State.rfxRecord_within
    | with_reducible apply State.set_within
    | with_reducible apply State.setRfx_within
    | with_reducible refine Within.foldl ?_ ?_
    | with_reducible refine Within.foldlFst ?_ ?_
    | with_reducible refine Within.foldlSnd ?_ ?_
    | dsimp -zeta only
    | split

theorem State.rfxOffEdge_within {s c} (hk : Sub 8388608 k) (hs : Within k r s) :
    Within k r (State.rfxOffEdge s c) := by
  unfold State.rfxOffEdge
  repeat' first
    | with_reducible assumption
    | exact hk.of rfl
    | intro _
    | extract_lets
    | with_reducible apply State.setRfx_within

theorem State.rfxDecide_within {s c} (hk : Sub 8388610 k) (hs : Within k r s) :
    Within k r (State.rfxDecide s c) := by
  unfold State.rfxDecide
  repeat' first
    | with_reducible assumption
    | exact hk.of rfl
    | intro _
    | extract_lets
    | with_reducible apply State.rfxOffEdge_within
    | with_reducible apply State.rfxOnEdge_within
    | with_reducible apply State.rfxRecord_within
    | with_reducible apply State.set_within
    | with_reducible apply State.setRfx_within
    | with_reducible refine Within.foldl ?_ ?_
    | with_reducible refine Within.foldlFst ?_ ?_
    | with_reducible refine Within.foldlSnd ?_ ?_
    | dsimp -zeta only
    | split

theorem State.rfxSwitch_within {s c} (hk : Sub 8389634 k) (hs : Within k r s) :
    Within k r (State.rfxSwitch s c) := by
  unfold State.rfxSwitch
  repeat' first
    | with_reducible assumption
    | exact hk.of rfl
    | intro _
    | extract_lets
    | with_reducible apply State.rfxAhead_within
    | with_reducible apply State.rfxDecide_within
    | with_reducible apply State.rfxDisarm_within
    | with_reducible refine Within.foldl ?_ ?_
    | with_reducible refine Within.foldlFst ?_ ?_
    | with_reducible refine Within.foldlSnd ?_ ?_
    | dsimp -zeta only
    | split

theorem execComparatorCrossing_within {c upper p n s} (hk : Sub 8389634 k) (hs : Within k r s) :
    OutWithin k r (execComparatorCrossing c upper p n s) := by
  unfold execComparatorCrossing
  repeat' first
    | with_reducible assumption
    | exact hk.of rfl
    | intro _
    | extract_lets
    | with_reducible refine OutWithin.ofNext ?_
    | with_reducible refine State.onClock_within ?_ ?_
    | with_reducible apply State.rfxSwitch_within
    | with_reducible apply State.setRfx_within
    | with_reducible refine Within.foldl ?_ ?_
    | with_reducible refine Within.foldlFst ?_ ?_
    | with_reducible refine Within.foldlSnd ?_ ?_
    | dsimp -zeta only
    | split

theorem execSwitchBlockEnd_within {c blank minRun s} (hk : Sub 8389634 k) (hs : Within k r s) :
    OutWithin k r (execSwitchBlockEnd c blank minRun s) := by
  unfold execSwitchBlockEnd
  repeat' first
    | with_reducible assumption
    | exact hk.of rfl
    | intro _
    | extract_lets
    | with_reducible refine OutWithin.ofNext ?_
    | with_reducible refine State.onClock_within ?_ ?_
    | with_reducible apply State.rfxSwitch_within
    | with_reducible apply State.setRfx_within
    | with_reducible refine Within.foldl ?_ ?_
    | with_reducible refine Within.foldlFst ?_ ?_
    | with_reducible refine Within.foldlSnd ?_ ?_
    | dsimp -zeta only
    | split

theorem execDeadtimeEnd_within {c on s} (hk : Sub 8389634 k) (hs : Within k r s) :
    OutWithin k r (execDeadtimeEnd c on s) := by
  unfold execDeadtimeEnd
  repeat' first
    | with_reducible assumption
    | exact hk.of rfl
    | intro _
    | extract_lets
    | with_reducible refine OutWithin.ofNext ?_
    | with_reducible refine State.onClock_within ?_ ?_
    | with_reducible apply State.rfxAhead_within
    | with_reducible apply State.rfxDecide_within
    | with_reducible apply State.rfxDisarm_within
    | with_reducible apply State.rfxOffEdge_within
    | with_reducible apply State.rfxOnEdge_within
    | with_reducible refine Within.foldl ?_ ?_
    | with_reducible refine Within.foldlFst ?_ ?_
    | with_reducible refine Within.foldlSnd ?_ ?_
    | dsimp -zeta only
    | split
    | with_reducible refine Within.ofFst ?_ (by assumption)
    | with_reducible refine Within.ofSnd ?_ (by assumption)
    | with_reducible refine Within.ofSome ?_ (by assumption)
    | dsimp -zeta +zetaDelta only

theorem execSpEdge_within {c high period dir s} (hk : Sub 8388608 k) (hs : Within k r s) :
    OutWithin k r (execSpEdge c high period dir s) := by
  unfold execSpEdge
  repeat' first
    | with_reducible assumption
    | exact hk.of rfl
    | intro _
    | extract_lets
    | with_reducible refine OutWithin.ofNext ?_
    | with_reducible refine State.onClock_within ?_ ?_
    | with_reducible apply State.setRfx_within
    | with_reducible refine Within.foldl ?_ ?_
    | with_reducible refine Within.foldlFst ?_ ?_
    | with_reducible refine Within.foldlSnd ?_ ?_
    | dsimp -zeta only
    | split

theorem execSpLost_within {c s} (hk : Sub 8389634 k) (hs : Within k r s) :
    OutWithin k r (execSpLost c s) := by
  unfold execSpLost
  repeat' first
    | with_reducible assumption
    | exact hk.of rfl
    | intro _
    | extract_lets
    | with_reducible refine OutWithin.ofNext ?_
    | with_reducible refine State.onClock_within ?_ ?_
    | with_reducible apply State.rfxAhead_within
    | with_reducible refine Within.foldl ?_ ?_
    | with_reducible refine Within.foldlFst ?_ ?_
    | with_reducible refine Within.foldlSnd ?_ ?_
    | dsimp -zeta only
    | split

theorem State.rfxSetPoint_within {s c v} (hk : Sub 8388610 k) (hs : Within k r s) :
    Within k r (State.rfxSetPoint s c v) := by
  unfold State.rfxSetPoint
  repeat' first
    | with_reducible assumption
    | exact hk.of rfl
    | intro _
    | extract_lets
    | with_reducible apply State.set_within
    | with_reducible apply State.setRfx_within
    | with_reducible refine Within.foldl ?_ ?_
    | with_reducible refine Within.foldlFst ?_ ?_
    | with_reducible refine Within.foldlSnd ?_ ?_
    | dsimp -zeta only
    | split

theorem State.setTrim_within {s c v} (hk : Sub 2 k) (hs : Within k r s) :
    Within k r (State.setTrim s c v) := by
  unfold State.setTrim
  repeat' first
    | with_reducible assumption
    | exact hk.of rfl
    | intro _
    | extract_lets
    | with_reducible apply State.set_within

theorem State.rfxDacs_within {s c} (hk : Sub 2 k) (hs : Within k r s) :
    Within k r (State.rfxDacs s c) := by
  unfold State.rfxDacs
  repeat' first
    | with_reducible assumption
    | exact hk.of rfl
    | intro _
    | extract_lets
    | with_reducible apply State.set_within
    | with_reducible refine Within.foldl ?_ ?_
    | with_reducible refine Within.foldlFst ?_ ?_
    | with_reducible refine Within.foldlSnd ?_ ?_
    | dsimp -zeta only
    | split

theorem State.rfxToBeryl_within {s c} (hk : Sub 8388610 k) (hs : Within k r s) :
    Within k r (State.rfxToBeryl s c) := by
  unfold State.rfxToBeryl
  repeat' first
    | with_reducible assumption
    | exact hk.of rfl
    | intro _
    | extract_lets
    | with_reducible apply State.rfxDacs_within
    | with_reducible apply State.setRfx_within
    | with_reducible apply State.setTrim_within
    | with_reducible refine Within.foldl ?_ ?_
    | with_reducible refine Within.foldlFst ?_ ?_
    | with_reducible refine Within.foldlSnd ?_ ?_
    | dsimp -zeta only
    | split

theorem State.rfxBoundary_within {s c sp v desat} (hk : Sub 8388610 k) (hs : Within k r s) :
    Within k r (State.rfxBoundary s c sp v desat) := by
  unfold State.rfxBoundary
  repeat' first
    | with_reducible assumption
    | exact hk.of rfl
    | intro _
    | extract_lets
    | with_reducible apply State.rfxOffEdge_within
    | with_reducible apply State.rfxRecord_within
    | with_reducible apply State.rfxSetPoint_within
    | with_reducible apply State.rfxToBeryl_within
    | with_reducible apply State.set_within
    | with_reducible apply State.setRfx_within
    | with_reducible refine Within.foldl ?_ ?_
    | with_reducible refine Within.foldlFst ?_ ?_
    | with_reducible refine Within.foldlSnd ?_ ?_
    | dsimp -zeta only
    | split
    | with_reducible refine Within.ofFst ?_ (by assumption)
    | with_reducible refine Within.ofSnd ?_ (by assumption)
    | with_reducible refine Within.ofSome ?_ (by assumption)
    | dsimp -zeta +zetaDelta only

theorem execSampleBoundary_within {sps vms desat s} (hk : Sub 8388610 k) (hs : Within k r s) :
    OutWithin k r (execSampleBoundary sps vms desat s) := by
  unfold execSampleBoundary
  repeat' first
    | with_reducible assumption
    | exact hk.of rfl
    | intro _
    | extract_lets
    | with_reducible refine OutWithin.ofNext ?_
    | with_reducible refine State.onClock_within ?_ ?_
    | with_reducible apply State.rfxBoundary_within
    | with_reducible refine Within.foldl ?_ ?_
    | with_reducible refine Within.foldlFst ?_ ?_
    | with_reducible refine Within.foldlSnd ?_ ?_
    | dsimp -zeta only
    | split

theorem State.rfxArm_within {s c} (hk : Sub 8388610 k) (hs : Within k r s) :
    Within k r (State.rfxArm s c) := by
  unfold State.rfxArm
  repeat' first
    | with_reducible assumption
    | exact hk.of rfl
    | intro _
    | extract_lets
    | with_reducible apply State.rfxRecord_within
    | with_reducible apply State.set_within
    | with_reducible apply State.setRfx_within
    | with_reducible apply State.setRfxState_within

theorem State.rfxAnswer_within {s st mask} (hk : Sub 2 k) (hs : Within k r s) :
    Within k r (State.rfxAnswer s st mask) := by
  unfold State.rfxAnswer
  repeat' first
    | with_reducible assumption
    | exact hk.of rfl
    | intro _
    | extract_lets
    | with_reducible apply State.set_within

theorem State.rfxArmAll_within {s rearm mask} (hk : Sub 8388610 k) (hs : Within k r s) :
    Within k r (State.rfxArmAll s rearm mask) := by
  unfold State.rfxArmAll
  repeat' first
    | with_reducible assumption
    | exact hk.of rfl
    | intro _
    | extract_lets
    | with_reducible apply State.rfxAnswer_within
    | with_reducible apply State.rfxArm_within
    | with_reducible refine Within.foldl ?_ ?_
    | with_reducible refine Within.foldlFst ?_ ?_
    | with_reducible refine Within.foldlSnd ?_ ?_
    | dsimp -zeta only
    | split

theorem State.relockDisarm_within {s} (hk : Sub 8388610 k) (hs : Within k r s) :
    Within k r (State.relockDisarm s) := by
  unfold State.relockDisarm
  repeat' first
    | with_reducible assumption
    | exact hk.of rfl
    | intro _
    | extract_lets
    | with_reducible apply State.rfxDisarmAll_within
    | with_reducible refine Within.foldl ?_ ?_
    | with_reducible refine Within.foldlFst ?_ ?_
    | with_reducible refine Within.foldlSnd ?_ ?_
    | dsimp -zeta only
    | split

theorem State.rfxCommand_within {s0 op mask} (hk : Sub 8389634 k) (hs0 : Within k r s0) :
    Within k r (State.rfxCommand s0 op mask) := by
  unfold State.rfxCommand
  repeat' first
    | with_reducible assumption
    | exact hk.of rfl
    | intro _
    | extract_lets
    | with_reducible apply State.relockDisarm_within
    | with_reducible apply State.rfxAhead_within
    | with_reducible apply State.rfxAnswer_within
    | with_reducible apply State.rfxArmAll_within
    | with_reducible apply State.rfxDisarm_within
    | with_reducible apply State.set_within
    | with_reducible refine Within.foldl ?_ ?_
    | with_reducible refine Within.foldlFst ?_ ?_
    | with_reducible refine Within.foldlSnd ?_ ?_
    | dsimp -zeta only
    | split

theorem State.rfxCmdWrite_within {s src op mask} (hk : Sub 8520710 k) (hs : Within k r s) :
    Within k r (State.rfxCmdWrite s src op mask) := by
  unfold State.rfxCmdWrite
  repeat' first
    | with_reducible assumption
    | exact hk.of rfl
    | intro _
    | extract_lets
    | with_reducible apply State.rfxCommand_within
    | with_reducible apply State.turnAway_within
    | with_reducible refine Within.foldl ?_ ?_
    | with_reducible refine Within.foldlFst ?_ ?_
    | with_reducible refine Within.foldlSnd ?_ ?_
    | dsimp -zeta only
    | split

theorem execArm_within {src mask s} (hk : Sub 8520710 k) (hs : Within k r s) :
    OutWithin k r (execArm src mask s) := by
  unfold execArm
  repeat' first
    | with_reducible assumption
    | exact hk.of rfl
    | intro _
    | extract_lets
    | with_reducible refine OutWithin.ofNext ?_
    | with_reducible refine State.onClock_within ?_ ?_
    | with_reducible apply State.rfxCmdWrite_within

theorem execDisarm_within {src mask s} (hk : Sub 8520710 k) (hs : Within k r s) :
    OutWithin k r (execDisarm src mask s) := by
  unfold execDisarm
  repeat' first
    | with_reducible assumption
    | exact hk.of rfl
    | intro _
    | extract_lets
    | with_reducible refine OutWithin.ofNext ?_
    | with_reducible refine State.onClock_within ?_ ?_
    | with_reducible apply State.rfxCmdWrite_within

theorem execRearm_within {src mask s} (hk : Sub 8520710 k) (hs : Within k r s) :
    OutWithin k r (execRearm src mask s) := by
  unfold execRearm
  repeat' first
    | with_reducible assumption
    | exact hk.of rfl
    | intro _
    | extract_lets
    | with_reducible refine OutWithin.ofNext ?_
    | with_reducible refine State.onClock_within ?_ ?_
    | with_reducible apply State.rfxCmdWrite_within

theorem execSwap_within {src val s} (hk : Sub 132102 k) (hs : Within k r s) :
    OutWithin k r (execSwap src val s) := by
  unfold execSwap
  repeat' first
    | with_reducible assumption
    | exact hk.of rfl
    | intro _
    | extract_lets
    | with_reducible refine OutWithin.ofNext ?_
    | with_reducible refine State.onClock_within ?_ ?_
    | with_reducible apply State.set_within
    | with_reducible apply State.turnAway_within
    | with_reducible refine Within.foldl ?_ ?_
    | with_reducible refine Within.foldlFst ?_ ?_
    | with_reducible refine Within.foldlSnd ?_ ?_
    | dsimp -zeta only
    | split

theorem State.wrote_within {s off} (hk : Sub 2097154 k) (hs : Within k r s) :
    Within k r (State.wrote s off) := by
  unfold State.wrote
  repeat' first
    | with_reducible assumption
    | exact hk.of rfl
    | intro _
    | extract_lets
    | with_reducible apply State.rfxDacs_within
    | fail_if_no_progress ((with_reducible refine Within.rings ?_ ?_ _); exact hk.of rfl)
    | with_reducible refine Within.foldl ?_ ?_
    | with_reducible refine Within.foldlFst ?_ ?_
    | with_reducible refine Within.foldlSnd ?_ ?_
    | dsimp -zeta only
    | split
    | with_reducible refine Within.ofFst ?_ (by assumption)
    | with_reducible refine Within.ofSnd ?_ (by assumption)
    | with_reducible refine Within.ofSome ?_ (by assumption)
    | dsimp -zeta +zetaDelta only

theorem State.loadReg_within {s idx sub off} (hk : Sub 2097154 k) (hs : Within k r s) :
    Within k r (State.loadReg s idx sub off) := by
  unfold State.loadReg
  repeat' first
    | with_reducible assumption
    | exact hk.of rfl
    | intro _
    | extract_lets
    | with_reducible apply State.putReg_within
    | with_reducible apply State.wrote_within
    | with_reducible refine Within.foldl ?_ ?_
    | with_reducible refine Within.foldlFst ?_ ?_
    | with_reducible refine Within.foldlSnd ?_ ?_
    | dsimp -zeta only
    | split

theorem State.resetReflex_within {s} (hk : Sub 10485906 k) (hs : Within k r s) :
    Within k r (State.resetReflex s) := by
  unfold State.resetReflex
  repeat' first
    | with_reducible assumption
    | exact hk.of rfl
    | intro _
    | extract_lets
    | with_reducible apply State.loadReg_within
    | with_reducible apply State.resetBlock_within
    | fail_if_no_progress ((with_reducible refine Within.rfx ?_ ?_ _); exact hk.of rfl)
    | with_reducible refine Within.foldl ?_ ?_

theorem State.resetBeryl_within {s} (hk : Sub 2097298 k) (hs : Within k r s) :
    Within k r (State.resetBeryl s) := by
  unfold State.resetBeryl
  repeat' first
    | with_reducible assumption
    | exact hk.of rfl
    | intro _
    | extract_lets
    | with_reducible apply State.resetBlock_within
    | with_reducible apply State.setTrim_within
    | with_reducible refine Within.foldl ?_ ?_
    | with_reducible refine Within.foldlFst ?_ ?_
    | with_reducible refine Within.foldlSnd ?_ ?_
    | dsimp -zeta only
    | split

end Sys2Proof.Machine
end

