-- ==== Sys2Proof/Laws/Frame/Time.lean ====
section
/-! SUPPORT. What the functions of Machine/Time.lean may change. -/

namespace Sys2Proof.Machine

variable {k : Nat} {r : State}

theorem State.setTime_within {s t} (hk : Sub 16384 k) (hs : Within k r s) :
    Within k r (State.setTime s t) := by
  unfold State.setTime
  repeat' first
    | with_reducible assumption
    | exact hk.of rfl
    | intro _
    | extract_lets
    | fail_if_no_progress ((with_reducible refine Within.time ?_ ?_ _); exact hk.of rfl)

theorem State.timeErr_within {s} (hk : Sub 2 k) (hs : Within k r s) :
    Within k r (State.timeErr s) := by
  unfold State.timeErr
  repeat' first
    | with_reducible assumption
    | exact hk.of rfl
    | intro _
    | extract_lets
    | with_reducible apply State.set_within

theorem State.latchCoarse_within {s} (hk : Sub 134217728 k) (hs : Within k r s) :
    Within k r (State.latchCoarse s) := by
  unfold State.latchCoarse
  repeat' first
    | with_reducible assumption
    | exact hk.of rfl
    | intro _
    | extract_lets
    | fail_if_no_progress ((with_reducible refine Within.pwr ?_ ?_ _); exact hk.of rfl)

theorem State.advance_within {s x1} (hk : Sub 134234112 k) (hs : Within k r s) :
    Within k r (State.advance s x1) := by
  unfold State.advance
  repeat' first
    | with_reducible assumption
    | exact hk.of rfl
    | intro _
    | extract_lets
    | with_reducible apply State.latchCoarse_within
    | with_reducible apply State.setTime_within
    | with_reducible refine Within.foldl ?_ ?_
    | with_reducible refine Within.foldlFst ?_ ?_
    | with_reducible refine Within.foldlSnd ?_ ?_
    | dsimp -zeta only
    | split
    | with_reducible refine Within.ofFst ?_ (by assumption)
    | with_reducible refine Within.ofSnd ?_ (by assumption)
    | with_reducible refine Within.ofSome ?_ (by assumption)
    | dsimp -zeta +zetaDelta only

theorem State.boundRate_within {s} (hk : Sub 2 k) (hs : Within k r s) :
    Within k r (State.boundRate s) := by
  unfold State.boundRate
  repeat' first
    | with_reducible assumption
    | exact hk.of rfl
    | intro _
    | extract_lets
    | with_reducible apply State.set_within

theorem State.rateCycle_within {s} (hk : Sub 16386 k) (hs : Within k r s) :
    Within k r (State.rateCycle s) := by
  unfold State.rateCycle
  repeat' first
    | with_reducible assumption
    | exact hk.of rfl
    | intro _
    | extract_lets
    | with_reducible apply State.set_within
    | with_reducible apply State.setTime_within
    | with_reducible refine Within.foldl ?_ ?_

theorem State.timeCycle_within {s} (hk : Sub 134234114 k) (hs : Within k r s) :
    Within k r (State.timeCycle s) := by
  unfold State.timeCycle
  repeat' first
    | with_reducible assumption
    | exact hk.of rfl
    | intro _
    | extract_lets
    | with_reducible apply State.advance_within
    | with_reducible apply State.rateCycle_within

theorem State.feed_within {s theta} (hk : Sub 16384 k) (hs : Within k r s) :
    Within k r (State.feed s theta) := by
  unfold State.feed
  repeat' first
    | with_reducible assumption
    | exact hk.of rfl
    | intro _
    | extract_lets
    | with_reducible apply State.setTime_within

theorem State.holdRate_within {s} (hk : Sub 16386 k) (hs : Within k r s) :
    Within k r (State.holdRate s) := by
  unfold State.holdRate
  repeat' first
    | with_reducible assumption
    | exact hk.of rfl
    | intro _
    | extract_lets
    | with_reducible apply State.set_within
    | with_reducible apply State.setTime_within

theorem State.timeIrq_within {s} (hk : Sub 1024 k) (hs : Within k r s) :
    Within k r (State.timeIrq s) := by
  unfold State.timeIrq
  repeat' first
    | with_reducible assumption
    | exact hk.of rfl
    | intro _
    | extract_lets
    | with_reducible apply State.msix_within
    | with_reducible refine Within.foldl ?_ ?_
    | with_reducible refine Within.foldlFst ?_ ?_
    | with_reducible refine Within.foldlSnd ?_ ?_
    | dsimp -zeta only
    | split

theorem State.stepOffset_within {s theta} (hk : Sub 17410 k) (hs : Within k r s) :
    Within k r (State.stepOffset s theta) := by
  unfold State.stepOffset
  repeat' first
    | with_reducible assumption
    | exact hk.of rfl
    | intro _
    | extract_lets
    | with_reducible apply State.set_within
    | with_reducible apply State.setTime_within
    | with_reducible apply State.timeIrq_within

theorem State.refuseSample_within {s theta} (hk : Sub 17410 k) (hs : Within k r s) :
    Within k r (State.refuseSample s theta) := by
  unfold State.refuseSample
  repeat' first
    | with_reducible assumption
    | exact hk.of rfl
    | intro _
    | extract_lets
    | with_reducible apply State.count_within
    | with_reducible apply State.set_within
    | with_reducible apply State.setTime_within
    | with_reducible apply State.timeIrq_within

theorem State.noteSample_within {s theta} (hk : Sub 16387 k) (hs : Within k r s) :
    Within k r (State.noteSample s theta) := by
  unfold State.noteSample
  repeat' first
    | with_reducible assumption
    | exact hk.of rfl
    | intro _
    | extract_lets
    | with_reducible apply State.draw_within
    | with_reducible apply State.set_within
    | with_reducible apply State.setTime_within
    | with_reducible refine Within.foldl ?_ ?_
    | with_reducible refine Within.foldlFst ?_ ?_
    | with_reducible refine Within.foldlSnd ?_ ?_
    | dsimp -zeta only
    | split
    | with_reducible refine Within.ofFst ?_ (by assumption)
    | with_reducible refine Within.ofSnd ?_ (by assumption)
    | with_reducible refine Within.ofSome ?_ (by assumption)
    | dsimp -zeta +zetaDelta only

theorem State.sample_within {s0 theta} (hk : Sub 17411 k) (hs0 : Within k r s0) :
    Within k r (State.sample s0 theta) := by
  unfold State.sample
  repeat' first
    | with_reducible assumption
    | exact hk.of rfl
    | intro _
    | extract_lets
    | with_reducible apply State.feed_within
    | with_reducible apply State.noteSample_within
    | with_reducible apply State.refuseSample_within
    | with_reducible apply State.set_within
    | with_reducible apply State.setTime_within
    | with_reducible apply State.stepOffset_within
    | with_reducible refine Within.foldl ?_ ?_
    | with_reducible refine Within.foldlFst ?_ ?_
    | with_reducible refine Within.foldlSnd ?_ ?_
    | dsimp -zeta only
    | split

theorem State.takeSample_within {s theta} (hk : Sub 17411 k) (hs : Within k r s) :
    Within k r (State.takeSample s theta) := by
  unfold State.takeSample
  repeat' first
    | with_reducible assumption
    | exact hk.of rfl
    | intro _
    | extract_lets
    | with_reducible apply State.sample_within
    | with_reducible refine Within.foldl ?_ ?_
    | with_reducible refine Within.foldlFst ?_ ?_
    | with_reducible refine Within.foldlSnd ?_ ?_
    | dsimp -zeta only
    | split

theorem State.ptpTake_within {s port clock domain t2 t1 corr} (hk : Sub 17411 k) (hs : Within k r s) :
    Within k r (State.ptpTake s port clock domain t2 t1 corr) := by
  unfold State.ptpTake
  repeat' first
    | with_reducible assumption
    | exact hk.of rfl
    | intro _
    | extract_lets
    | with_reducible apply State.takeSample_within
    | with_reducible refine Within.foldl ?_ ?_
    | with_reducible refine Within.foldlFst ?_ ?_
    | with_reducible refine Within.foldlSnd ?_ ?_
    | dsimp -zeta only
    | split

theorem State.swTake_within {s val} (hk : Sub 17411 k) (hs : Within k r s) :
    Within k r (State.swTake s val) := by
  unfold State.swTake
  repeat' first
    | with_reducible assumption
    | exact hk.of rfl
    | intro _
    | extract_lets
    | with_reducible apply State.takeSample_within
    | with_reducible refine Within.foldl ?_ ?_
    | with_reducible refine Within.foldlFst ?_ ?_
    | with_reducible refine Within.foldlSnd ?_ ?_
    | dsimp -zeta only
    | split

theorem State.modeStore_within {s val} (hk : Sub 16386 k) (hs : Within k r s) :
    Within k r (State.modeStore s val) := by
  unfold State.modeStore
  repeat' first
    | with_reducible assumption
    | exact hk.of rfl
    | intro _
    | extract_lets
    | with_reducible apply State.set_within
    | with_reducible apply State.setTime_within
    | with_reducible apply State.timeErr_within
    | with_reducible refine Within.foldl ?_ ?_
    | with_reducible refine Within.foldlFst ?_ ?_
    | with_reducible refine Within.foldlSnd ?_ ?_
    | dsimp -zeta only
    | split
    | with_reducible refine Within.ofFst ?_ (by assumption)
    | with_reducible refine Within.ofSnd ?_ (by assumption)
    | with_reducible refine Within.ofSome ?_ (by assumption)
    | dsimp -zeta +zetaDelta only

theorem State.masterStore_within {s val} (hk : Sub 17410 k) (hs : Within k r s) :
    Within k r (State.masterStore s val) := by
  unfold State.masterStore
  repeat' first
    | with_reducible assumption
    | exact hk.of rfl
    | intro _
    | extract_lets
    | with_reducible apply State.holdRate_within
    | with_reducible apply State.set_within
    | with_reducible apply State.setTime_within
    | with_reducible apply State.timeIrq_within
    | with_reducible refine Within.foldl ?_ ?_
    | with_reducible refine Within.foldlFst ?_ ?_
    | with_reducible refine Within.foldlSnd ?_ ?_
    | dsimp -zeta only
    | split

theorem State.acceptJump_within {s} (hk : Sub 17410 k) (hs : Within k r s) :
    Within k r (State.acceptJump s) := by
  unfold State.acceptJump
  repeat' first
    | with_reducible assumption
    | exact hk.of rfl
    | intro _
    | extract_lets
    | with_reducible apply State.set_within
    | with_reducible apply State.setTime_within
    | with_reducible apply State.stepOffset_within
    | with_reducible apply State.timeErr_within
    | with_reducible refine Within.foldl ?_ ?_
    | with_reducible refine Within.foldlFst ?_ ?_
    | with_reducible refine Within.foldlSnd ?_ ?_
    | dsimp -zeta only
    | split

theorem State.servoAct_within {s c} (hk : Sub 17411 k) (hs : Within k r s) :
    Within k r (State.servoAct s c) := by
  unfold State.servoAct
  repeat' first
    | with_reducible assumption
    | exact hk.of rfl
    | intro _
    | extract_lets
    | with_reducible apply State.acceptJump_within
    | with_reducible apply State.masterStore_within
    | with_reducible apply State.modeStore_within
    | with_reducible apply State.ptpTake_within
    | with_reducible apply State.swTake_within
    | with_reducible refine Within.foldl ?_ ?_
    | with_reducible refine Within.foldlFst ?_ ?_
    | with_reducible refine Within.foldlSnd ?_ ?_
    | dsimp -zeta only
    | split

theorem State.servoTry_within {s c} (hk : Sub 17411 k) (hs : Within k r s) :
    Within k r (State.servoTry s c) := by
  unfold State.servoTry
  repeat' first
    | with_reducible assumption
    | exact hk.of rfl
    | intro _
    | extract_lets
    | with_reducible apply State.servoAct_within
    | with_reducible apply State.setTime_within
    | with_reducible refine Within.foldl ?_ ?_
    | with_reducible refine Within.foldlFst ?_ ?_
    | with_reducible refine Within.foldlSnd ?_ ?_
    | dsimp -zeta only
    | split

theorem State.servoNext_within {s} (hk : Sub 17411 k) (hs : Within k r s) :
    Within k r (State.servoNext s) := by
  unfold State.servoNext
  repeat' first
    | with_reducible assumption
    | exact hk.of rfl
    | intro _
    | extract_lets
    | with_reducible apply State.servoTry_within
    | with_reducible refine Within.foldl ?_ ?_

theorem State.servoTurn_within {s c} (hk : Sub 17411 k) (hs : Within k r s) :
    Within k r (State.servoTurn s c) := by
  unfold State.servoTurn
  repeat' first
    | with_reducible assumption
    | exact hk.of rfl
    | intro _
    | extract_lets
    | with_reducible apply State.servoAct_within
    | with_reducible apply State.servoNext_within
    | with_reducible apply State.setTime_within
    | with_reducible refine Within.foldl ?_ ?_
    | with_reducible refine Within.foldlFst ?_ ?_
    | with_reducible refine Within.foldlSnd ?_ ?_
    | dsimp -zeta only
    | split

theorem execPtpSample_within {port clock domain t2 t1 corr s} (hk : Sub 17411 k) (hs : Within k r s) :
    OutWithin k r (execPtpSample port clock domain t2 t1 corr s) := by
  unfold execPtpSample
  repeat' first
    | with_reducible assumption
    | exact hk.of rfl
    | intro _
    | extract_lets
    | with_reducible refine OutWithin.ofNext ?_
    | with_reducible refine State.onClock_within ?_ ?_
    | with_reducible apply State.servoTurn_within

theorem execSwsample_within {src val s} (hk : Sub 148487 k) (hs : Within k r s) :
    OutWithin k r (execSwsample src val s) := by
  unfold execSwsample
  repeat' first
    | with_reducible assumption
    | exact hk.of rfl
    | intro _
    | extract_lets
    | with_reducible refine OutWithin.ofNext ?_
    | with_reducible refine State.onClock_within ?_ ?_
    | with_reducible apply State.servoTurn_within
    | with_reducible apply State.turnAway_within
    | with_reducible refine Within.foldl ?_ ?_
    | with_reducible refine Within.foldlFst ?_ ?_
    | with_reducible refine Within.foldlSnd ?_ ?_
    | dsimp -zeta only
    | split

theorem execModeWrite_within {src val s} (hk : Sub 148487 k) (hs : Within k r s) :
    OutWithin k r (execModeWrite src val s) := by
  unfold execModeWrite
  repeat' first
    | with_reducible assumption
    | exact hk.of rfl
    | intro _
    | extract_lets
    | with_reducible refine OutWithin.ofNext ?_
    | with_reducible refine State.onClock_within ?_ ?_
    | with_reducible apply State.servoTurn_within
    | with_reducible apply State.turnAway_within
    | with_reducible refine Within.foldl ?_ ?_
    | with_reducible refine Within.foldlFst ?_ ?_
    | with_reducible refine Within.foldlSnd ?_ ?_
    | dsimp -zeta only
    | split

theorem execMasterWrite_within {src val s} (hk : Sub 148487 k) (hs : Within k r s) :
    OutWithin k r (execMasterWrite src val s) := by
  unfold execMasterWrite
  repeat' first
    | with_reducible assumption
    | exact hk.of rfl
    | intro _
    | extract_lets
    | with_reducible refine OutWithin.ofNext ?_
    | with_reducible refine State.onClock_within ?_ ?_
    | with_reducible apply State.servoTurn_within
    | with_reducible apply State.turnAway_within
    | with_reducible refine Within.foldl ?_ ?_
    | with_reducible refine Within.foldlFst ?_ ?_
    | with_reducible refine Within.foldlSnd ?_ ?_
    | dsimp -zeta only
    | split

theorem execAccept_within {src s} (hk : Sub 148487 k) (hs : Within k r s) :
    OutWithin k r (execAccept src s) := by
  unfold execAccept
  repeat' first
    | with_reducible assumption
    | exact hk.of rfl
    | intro _
    | extract_lets
    | with_reducible refine OutWithin.ofNext ?_
    | with_reducible refine State.onClock_within ?_ ?_
    | with_reducible apply State.servoTurn_within
    | with_reducible apply State.turnAway_within
    | with_reducible refine Within.foldl ?_ ?_
    | with_reducible refine Within.foldlFst ?_ ?_
    | with_reducible refine Within.foldlSnd ?_ ?_
    | dsimp -zeta only
    | split

theorem execHoldoverTimeout_within {s} (hk : Sub 16386 k) (hs : Within k r s) :
    OutWithin k r (execHoldoverTimeout s) := by
  unfold execHoldoverTimeout
  repeat' first
    | with_reducible assumption
    | exact hk.of rfl
    | intro _
    | extract_lets
    | with_reducible refine OutWithin.ofNext ?_
    | with_reducible refine State.onClock_within ?_ ?_
    | with_reducible apply State.holdRate_within
    | with_reducible apply State.set_within
    | with_reducible refine Within.foldl ?_ ?_
    | with_reducible refine Within.foldlFst ?_ ?_
    | with_reducible refine Within.foldlSnd ?_ ?_
    | dsimp -zeta only
    | split

theorem execNowRead_within {src s} (hk : Sub 132102 k) (hs : Within k r s) :
    OutWithin k r (execNowRead src s) := by
  unfold execNowRead
  repeat' first
    | with_reducible assumption
    | exact hk.of rfl
    | intro _
    | extract_lets
    | with_reducible refine OutWithin.ofNext ?_
    | with_reducible refine State.onClock_within ?_ ?_
    | with_reducible apply State.emit_within
    | with_reducible apply State.set_within
    | with_reducible apply State.turnAway_within
    | with_reducible refine Within.foldl ?_ ?_
    | with_reducible refine Within.foldlFst ?_ ?_
    | with_reducible refine Within.foldlSnd ?_ ?_
    | dsimp -zeta only
    | split

theorem execRateWrite_within {src val s} (hk : Sub 132102 k) (hs : Within k r s) :
    OutWithin k r (execRateWrite src val s) := by
  unfold execRateWrite
  repeat' first
    | with_reducible assumption
    | exact hk.of rfl
    | intro _
    | extract_lets
    | with_reducible refine OutWithin.ofNext ?_
    | with_reducible refine State.onClock_within ?_ ?_
    | with_reducible apply State.set_within
    | with_reducible apply State.timeErr_within
    | with_reducible apply State.turnAway_within
    | with_reducible refine Within.foldl ?_ ?_
    | with_reducible refine Within.foldlFst ?_ ?_
    | with_reducible refine Within.foldlSnd ?_ ?_
    | dsimp -zeta only
    | split

theorem execAdjWrite_within {src val s} (hk : Sub 132102 k) (hs : Within k r s) :
    OutWithin k r (execAdjWrite src val s) := by
  unfold execAdjWrite
  repeat' first
    | with_reducible assumption
    | exact hk.of rfl
    | intro _
    | extract_lets
    | with_reducible refine OutWithin.ofNext ?_
    | with_reducible refine State.onClock_within ?_ ?_
    | with_reducible apply State.set_within
    | with_reducible apply State.timeErr_within
    | with_reducible apply State.turnAway_within
    | with_reducible refine Within.foldl ?_ ?_
    | with_reducible refine Within.foldlFst ?_ ?_
    | with_reducible refine Within.foldlSnd ?_ ?_
    | dsimp -zeta only
    | split

theorem State.setTxQueue_within {s p q gap} (hk : Sub 16384 k) (hs : Within k r s) :
    Within k r (State.setTxQueue s p q gap) := by
  unfold State.setTxQueue
  repeat' first
    | with_reducible assumption
    | exact hk.of rfl
    | intro _
    | extract_lets
    | with_reducible apply State.setTime_within
    | with_reducible refine Within.foldl ?_ ?_
    | with_reducible refine Within.foldlFst ?_ ?_
    | with_reducible refine Within.foldlSnd ?_ ?_
    | dsimp -zeta only
    | split

theorem State.stampTx_within {s p tsid} (hk : Sub 16386 k) (hs : Within k r s) :
    Within k r (State.stampTx s p tsid) := by
  unfold State.stampTx
  repeat' first
    | with_reducible assumption
    | exact hk.of rfl
    | intro _
    | extract_lets
    | with_reducible apply State.count_within
    | with_reducible apply State.setTxQueue_within
    | with_reducible refine Within.foldl ?_ ?_
    | with_reducible refine Within.foldlFst ?_ ?_
    | with_reducible refine Within.foldlSnd ?_ ?_
    | dsimp -zeta only
    | split

theorem execTxtsqRead_within {src p s} (hk : Sub 148486 k) (hs : Within k r s) :
    OutWithin k r (execTxtsqRead src p s) := by
  unfold execTxtsqRead
  repeat' first
    | with_reducible assumption
    | exact hk.of rfl
    | intro _
    | extract_lets
    | with_reducible refine OutWithin.ofNext ?_
    | with_reducible refine State.onClock_within ?_ ?_
    | with_reducible apply State.emit_within
    | with_reducible apply State.set_within
    | with_reducible apply State.setTxQueue_within
    | with_reducible apply State.turnAway_within
    | with_reducible refine Within.foldl ?_ ?_
    | with_reducible refine Within.foldlFst ?_ ?_
    | with_reducible refine Within.foldlSnd ?_ ?_
    | dsimp -zeta only
    | split

theorem execPpsPulse_within {s} (hk : Sub 17408 k) (hs : Within k r s) :
    OutWithin k r (execPpsPulse s) := by
  unfold execPpsPulse
  repeat' first
    | with_reducible assumption
    | exact hk.of rfl
    | intro _
    | extract_lets
    | with_reducible refine OutWithin.ofNext ?_
    | with_reducible refine State.onClock_within ?_ ?_
    | with_reducible apply State.emit_within
    | with_reducible apply State.setTime_within
    | with_reducible refine Within.foldl ?_ ?_
    | with_reducible refine Within.foldlFst ?_ ?_
    | with_reducible refine Within.foldlSnd ?_ ?_
    | dsimp -zeta only
    | split

end Sys2Proof.Machine
end

