-- ==== Sys2Proof/Laws/Frame/Comparator.lean ====
section
/-! SUPPORT. What the functions of Machine/Comparator.lean may change. -/

namespace Sys2Proof.Machine

variable {k : Nat} {r : State}

theorem State.setCmp_within {s c} (hk : Sub 16777216 k) (hs : Within k r s) :
    Within k r (State.setCmp s c) := by
  unfold State.setCmp
  repeat' first
    | with_reducible assumption
    | exact hk.of rfl
    | intro _
    | extract_lets
    | fail_if_no_progress ((with_reducible refine Within.cmp ?_ ?_ _); exact hk.of rfl)

theorem State.emcy_within {s code} (hk : Sub 1028 k) (hs : Within k r s) :
    Within k r (State.emcy s code) := by
  unfold State.emcy
  repeat' first
    | with_reducible assumption
    | exact hk.of rfl
    | intro _
    | extract_lets
    | with_reducible apply State.emit_within
    | with_reducible apply State.setObj_within
    | with_reducible refine Within.foldl ?_ ?_
    | with_reducible refine Within.foldlFst ?_ ?_
    | with_reducible refine Within.foldlSnd ?_ ?_
    | dsimp -zeta only
    | split
    | with_reducible refine Within.ofFst ?_ (by assumption)
    | with_reducible refine Within.ofSnd ?_ (by assumption)
    | with_reducible refine Within.ofSome ?_ (by assumption)
    | dsimp -zeta +zetaDelta only

theorem State.emcyOpen_within {s} (hk : Sub 1029 k) (hs : Within k r s) :
    Within k r (State.emcyOpen s) := by
  unfold State.emcyOpen
  repeat' first
    | with_reducible assumption
    | exact hk.of rfl
    | intro _
    | extract_lets
    | with_reducible apply State.draw_within
    | with_reducible apply State.emcy_within

theorem State.latchSafe_within {s causes} (hk : Sub 25166854 k) (hs : Within k r s) :
    Within k r (State.latchSafe s causes) := by
  unfold State.latchSafe
  repeat' first
    | with_reducible assumption
    | exact hk.of rfl
    | intro _
    | extract_lets
    | with_reducible apply State.count_within
    | with_reducible apply State.emcy_within
    | with_reducible apply State.rfxSafe_within
    | with_reducible apply State.set_within
    | with_reducible apply State.setCmp_within
    | with_reducible apply State.setObj_within
    | with_reducible refine Within.foldl ?_ ?_
    | with_reducible refine Within.foldlFst ?_ ?_
    | with_reducible refine Within.foldlSnd ?_ ?_
    | dsimp -zeta only
    | split

theorem execLatchReq_within {s} (hk : Sub 25166854 k) (hs : Within k r s) :
    OutWithin k r (execLatchReq s) := by
  unfold execLatchReq
  repeat' first
    | with_reducible assumption
    | exact hk.of rfl
    | intro _
    | extract_lets
    | with_reducible refine OutWithin.ofNext ?_
    | with_reducible refine State.onClock_within ?_ ?_
    | with_reducible apply State.latchSafe_within

theorem execHbWrite_within {src val s} (hk : Sub 132102 k) (hs : Within k r s) :
    OutWithin k r (execHbWrite src val s) := by
  unfold execHbWrite
  repeat' first
    | with_reducible assumption
    | exact hk.of rfl
    | intro _
    | extract_lets
    | with_reducible refine OutWithin.ofNext ?_
    | with_reducible refine State.onClock_within ?_ ?_
    | with_reducible apply State.denyWrite_within
    | with_reducible apply State.set_within
    | with_reducible apply State.turnAway_within
    | with_reducible refine Within.foldl ?_ ?_
    | with_reducible refine Within.foldlFst ?_ ?_
    | with_reducible refine Within.foldlSnd ?_ ?_
    | dsimp -zeta only
    | split

theorem execHeartbeatCheck_within {s} (hk : Sub 25166854 k) (hs : Within k r s) :
    OutWithin k r (execHeartbeatCheck s) := by
  unfold execHeartbeatCheck
  repeat' first
    | with_reducible assumption
    | exact hk.of rfl
    | intro _
    | extract_lets
    | with_reducible refine OutWithin.ofNext ?_
    | with_reducible refine State.onClock_within ?_ ?_
    | with_reducible apply State.latchSafe_within
    | with_reducible apply State.setCmp_within
    | with_reducible refine Within.foldl ?_ ?_
    | with_reducible refine Within.foldlFst ?_ ?_
    | with_reducible refine Within.foldlSnd ?_ ?_
    | dsimp -zeta only
    | split

theorem execSafeLineEdge_within {s} (hk : Sub 16777216 k) (hs : Within k r s) :
    OutWithin k r (execSafeLineEdge s) := by
  unfold execSafeLineEdge
  repeat' first
    | with_reducible assumption
    | exact hk.of rfl
    | intro _
    | extract_lets
    | with_reducible refine OutWithin.ofNext ?_
    | with_reducible refine State.onClock_within ?_ ?_
    | with_reducible apply State.setCmp_within
    | with_reducible refine Within.foldl ?_ ?_
    | with_reducible refine Within.foldlFst ?_ ?_
    | with_reducible refine Within.foldlSnd ?_ ?_
    | dsimp -zeta only
    | split

theorem State.showRun_within {s} (hk : Sub 2 k) (hs : Within k r s) :
    Within k r (State.showRun s) := by
  unfold State.showRun
  repeat' first
    | with_reducible assumption
    | exact hk.of rfl
    | intro _
    | extract_lets
    | with_reducible apply State.set_within

theorem State.nonAgree_within {s} (hk : Sub 25166854 k) (hs : Within k r s) :
    Within k r (State.nonAgree s) := by
  unfold State.nonAgree
  repeat' first
    | with_reducible assumption
    | exact hk.of rfl
    | intro _
    | extract_lets
    | with_reducible apply State.count_within
    | with_reducible apply State.latchSafe_within
    | with_reducible apply State.setCmp_within
    | with_reducible apply State.showRun_within
    | with_reducible refine Within.foldl ?_ ?_
    | with_reducible refine Within.foldlFst ?_ ?_
    | with_reducible refine Within.foldlSnd ?_ ?_
    | dsimp -zeta only
    | split

theorem State.countBad_within {s g t} (hk : Sub 2 k) (hs : Within k r s) :
    Within k r (State.countBad s g t) := by
  unfold State.countBad
  repeat' first
    | with_reducible assumption
    | exact hk.of rfl
    | intro _
    | extract_lets
    | with_reducible apply State.count_within
    | with_reducible refine Within.foldl ?_ ?_
    | with_reducible refine Within.foldlFst ?_ ?_
    | with_reducible refine Within.foldlSnd ?_ ?_
    | dsimp -zeta only
    | split

theorem State.decideOutput_within {s g} (hk : Sub 25166854 k) (hs : Within k r s) :
    Within k r (State.decideOutput s g) := by
  unfold State.decideOutput
  repeat' first
    | with_reducible assumption
    | exact hk.of rfl
    | intro _
    | extract_lets
    | with_reducible refine Within.getD ?_ ?_
    | with_reducible apply State.countBad_within
    | with_reducible apply State.nonAgree_within
    | with_reducible apply State.setCmp_within
    | with_reducible refine Within.foldl ?_ ?_
    | with_reducible refine Within.foldlFst ?_ ?_
    | with_reducible refine Within.foldlSnd ?_ ?_
    | dsimp -zeta only
    | split
    | with_reducible refine Within.ofFst ?_ (by assumption)
    | with_reducible refine Within.ofSnd ?_ (by assumption)
    | with_reducible refine Within.ofSome ?_ (by assumption)
    | dsimp -zeta +zetaDelta only

theorem State.bufferWrite_within {s src off b poison} (hk : Sub 16910227 k) (hs : Within k r s) :
    Within k r (State.bufferWrite s src off b poison) := by
  unfold State.bufferWrite
  repeat' first
    | with_reducible assumption
    | exact hk.of rfl
    | intro _
    | extract_lets
    | with_reducible apply State.denyWrite_within
    | with_reducible apply State.forward_within
    | with_reducible apply State.setCmp_within
    | with_reducible apply State.writeRun_within
    | with_reducible refine Within.foldl ?_ ?_
    | with_reducible refine Within.foldlFst ?_ ?_
    | with_reducible refine Within.foldlSnd ?_ ?_
    | dsimp -zeta only
    | split

theorem State.deadline_within {s g} (hk : Sub 25166854 k) (hs : Within k r s) :
    Within k r (State.deadline s g) := by
  unfold State.deadline
  repeat' first
    | with_reducible assumption
    | exact hk.of rfl
    | with_reducible apply State.decideOutput_within
    | split

theorem State.decideDue_within {s} (hk : Sub 25166854 k) (hs : Within k r s) :
    Within k r (State.decideDue s) := by
  unfold State.decideDue
  repeat' first
    | with_reducible assumption
    | exact hk.of rfl
    | intro _
    | with_reducible apply State.deadline_within
    | with_reducible apply State.setCmp_within
    | with_reducible refine Within.foldl ?_ ?_

theorem execGuardedBufferWrite_within {src off b poison s} (hk : Sub 25298839 k) (hs : Within k r s) :
    OutWithin k r (execGuardedBufferWrite src off b poison s) := by
  unfold execGuardedBufferWrite
  repeat' first
    | with_reducible assumption
    | exact hk.of rfl
    | with_reducible refine OutWithin.ofNext ?_
    | with_reducible refine State.onClock_within ?_ ?_
    | with_reducible apply State.decideDue_within
    | with_reducible apply State.bufferWrite_within

theorem execOutputDeadline_within {g s} (hk : Sub 25166854 k) (hs : Within k r s) :
    OutWithin k r (execOutputDeadline g s) := by
  unfold execOutputDeadline
  repeat' first
    | with_reducible assumption
    | exact hk.of rfl
    | with_reducible refine OutWithin.ofNext ?_
    | with_reducible refine State.onClock_within ?_ ?_
    | with_reducible apply State.deadline_within
    | with_reducible apply State.setCmp_within
    | split

theorem State.endFrame_within {s0} (hk : Sub 27264918 k) (hs0 : Within k r s0) :
    Within k r (State.endFrame s0) := by
  unfold State.endFrame
  repeat' first
    | with_reducible assumption
    | exact hk.of rfl
    | intro _
    | extract_lets
    | with_reducible apply State.decideOutput_within
    | with_reducible apply State.ringPut_within
    | with_reducible apply State.set_within
    | with_reducible apply State.setCmp_within
    | with_reducible refine Within.foldl ?_ ?_

theorem State.linesStart_within {s} (hk : Sub 16777216 k) (hs : Within k r s) :
    Within k r (State.linesStart s) := by
  unfold State.linesStart
  repeat' first
    | with_reducible assumption
    | exact hk.of rfl
    | intro _
    | extract_lets
    | with_reducible apply State.setCmp_within

theorem State.releaseNow_within {s} (hk : Sub 16778246 k) (hs : Within k r s) :
    Within k r (State.releaseNow s) := by
  unfold State.releaseNow
  repeat' first
    | with_reducible assumption
    | exact hk.of rfl
    | intro _
    | extract_lets
    | with_reducible apply State.emcy_within
    | with_reducible apply State.linesStart_within
    | with_reducible apply State.set_within
    | with_reducible apply State.setCmp_within
    | with_reducible apply State.setObj_within

theorem execGuardedFrameStart_within {s} (hk : Sub 27264918 k) (hs : Within k r s) :
    OutWithin k r (execGuardedFrameStart s) := by
  unfold execGuardedFrameStart
  repeat' first
    | with_reducible assumption
    | exact hk.of rfl
    | intro _
    | extract_lets
    | with_reducible refine OutWithin.ofNext ?_
    | with_reducible refine State.onClock_within ?_ ?_
    | with_reducible apply State.endFrame_within
    | with_reducible apply State.linesStart_within
    | with_reducible apply State.releaseNow_within
    | with_reducible apply State.setCmp_within
    | with_reducible apply State.showRun_within
    | with_reducible refine Within.foldl ?_ ?_
    | with_reducible refine Within.foldlFst ?_ ?_
    | with_reducible refine Within.foldlSnd ?_ ?_
    | dsimp -zeta only
    | split
    | with_reducible refine Within.ofFst ?_ (by assumption)
    | with_reducible refine Within.ofSnd ?_ (by assumption)
    | with_reducible refine Within.ofSome ?_ (by assumption)
    | dsimp -zeta +zetaDelta only

theorem State.enableGuarded_within {s} (hk : Sub 16777218 k) (hs : Within k r s) :
    Within k r (State.enableGuarded s) := by
  unfold State.enableGuarded
  repeat' first
    | with_reducible assumption
    | exact hk.of rfl
    | intro _
    | extract_lets
    | with_reducible apply State.set_within
    | with_reducible apply State.setCmp_within

theorem State.releaseReq_within {s} (hk : Sub 16777216 k) (hs : Within k r s) :
    Within k r (State.releaseReq s).1 := by
  unfold State.releaseReq
  repeat' first
    | with_reducible assumption
    | exact hk.of rfl
    | intro _
    | extract_lets
    | with_reducible apply State.setCmp_within
    | with_reducible refine Within.foldl ?_ ?_
    | with_reducible refine Within.foldlFst ?_ ?_
    | with_reducible refine Within.foldlSnd ?_ ?_
    | dsimp -zeta only
    | split

theorem execRelease_within {src s} (hk : Sub 16909312 k) (hs : Within k r s) :
    OutWithin k r (execRelease src s) := by
  unfold execRelease
  repeat' first
    | with_reducible assumption
    | exact hk.of rfl
    | intro _
    | extract_lets
    | with_reducible refine OutWithin.ofNext ?_
    | with_reducible refine State.onClock_within ?_ ?_
    | with_reducible apply State.denyWrite_within
    | with_reducible apply State.releaseReq_within
    | with_reducible refine Within.foldl ?_ ?_
    | with_reducible refine Within.foldlFst ?_ ?_
    | with_reducible refine Within.foldlSnd ?_ ?_
    | dsimp -zeta only
    | split

theorem State.placeGuarded_within {s img} (hk : Sub 16777216 k) (hs : Within k r s) :
    Within k r (State.placeGuarded s img).1 := by
  unfold State.placeGuarded
  repeat' first
    | with_reducible assumption
    | exact hk.of rfl
    | intro _
    | extract_lets
    | with_reducible apply State.setCmp_within
    | with_reducible refine Within.foldl ?_ ?_
    | with_reducible refine Within.foldlFst ?_ ?_

end Sys2Proof.Machine
end

