-- ==== Sys2Proof/Laws/Frame/Ports.lean ====
section
/-! SUPPORT. What the functions of Machine/Ports.lean may change. -/

namespace Sys2Proof.Machine

variable {k : Nat} {r : State}

theorem State.dropT3Tile_within {s got t} (hk : Sub 37847 k) (hs : Within k r s) :
    Within k r (State.dropT3Tile s got t) := by
  unfold State.dropT3Tile
  repeat' first
    | with_reducible assumption
    | exact hk.of rfl
    | intro _
    | extract_lets
    | with_reducible apply State.tileEnds_within
    | with_reducible refine Within.foldl ?_ ?_
    | with_reducible refine Within.foldlFst ?_ ?_
    | with_reducible refine Within.foldlSnd ?_ ?_
    | dsimp -zeta only
    | split

theorem State.hostGone_within {s fn got} (hk : Sub 68073431 k) (hs : Within k r s) :
    Within k r (State.hostGone s fn got) := by
  unfold State.hostGone
  repeat' first
    | with_reducible assumption
    | exact hk.of rfl
    | intro _
    | extract_lets
    | fail_if_no_progress ((with_reducible refine Within.secDic ?_ ?_ _ _); exact hk.of rfl)
    | with_reducible apply State.abortCtx_within
    | with_reducible apply State.dropT3Tile_within
    | with_reducible apply State.set_within
    | fail_if_no_progress ((with_reducible refine Within.dic ?_ ?_ _); exact hk.of rfl)
    | fail_if_no_progress ((with_reducible refine Within.sec ?_ ?_ _); exact hk.of rfl)
    | fail_if_no_progress ((with_reducible refine Within.host ?_ ?_ _); exact hk.of rfl)
    | with_reducible refine Within.foldl ?_ ?_
    | with_reducible refine Within.foldlFst ?_ ?_
    | with_reducible refine Within.foldlSnd ?_ ?_
    | dsimp -zeta only
    | split
    | with_reducible refine Within.ofFst ?_ (by assumption)
    | with_reducible refine Within.ofSnd ?_ (by assumption)
    | with_reducible refine Within.ofSome ?_ (by assumption)
    | dsimp -zeta +zetaDelta only

theorem execHostDown_within {got s} (hk : Sub 68073431 k) (hs : Within k r s) :
    OutWithin k r (execHostDown got s) := by
  unfold execHostDown
  repeat' first
    | with_reducible assumption
    | exact hk.of rfl
    | intro _
    | extract_lets
    | with_reducible refine OutWithin.ofNext ?_
    | with_reducible refine State.onClock_within ?_ ?_
    | with_reducible apply State.hostGone_within

theorem execFlr_within {fn got s} (hk : Sub 68073431 k) (hs : Within k r s) :
    OutWithin k r (execFlr fn got s) := by
  unfold execFlr
  repeat' first
    | with_reducible assumption
    | exact hk.of rfl
    | intro _
    | extract_lets
    | with_reducible refine OutWithin.ofNext ?_
    | with_reducible refine State.onClock_within ?_ ?_
    | with_reducible apply State.hostGone_within

theorem State.setEcat_within {s e} (hk : Sub 33554432 k) (hs : Within k r s) :
    Within k r (State.setEcat s e) := by
  unfold State.setEcat
  repeat' first
    | with_reducible assumption
    | exact hk.of rfl
    | intro _
    | extract_lets
    | fail_if_no_progress ((with_reducible refine Within.ecat ?_ ?_ _); exact hk.of rfl)

theorem State.ecatErr_within {s} (hk : Sub 2 k) (hs : Within k r s) :
    Within k r (State.ecatErr s) := by
  unfold State.ecatErr
  repeat' first
    | with_reducible assumption
    | exact hk.of rfl
    | intro _
    | extract_lets
    | with_reducible apply State.set_within

theorem State.ecatIrq_within {s} (hk : Sub 1024 k) (hs : Within k r s) :
    Within k r (State.ecatIrq s) := by
  unfold State.ecatIrq
  repeat' first
    | with_reducible assumption
    | exact hk.of rfl
    | intro _
    | extract_lets
    | with_reducible apply State.msix_within
    | with_reducible refine Within.foldl ?_ ?_
    | with_reducible refine Within.foldlFst ?_ ?_
    | with_reducible refine Within.foldlSnd ?_ ?_
    | dsimp -zeta only
    | split

theorem State.ecatCtrl_within {s val} (hk : Sub 33554434 k) (hs : Within k r s) :
    Within k r (State.ecatCtrl s val) := by
  unfold State.ecatCtrl
  repeat' first
    | with_reducible assumption
    | exact hk.of rfl
    | intro _
    | extract_lets
    | with_reducible apply State.ecatErr_within
    | with_reducible apply State.set_within
    | with_reducible apply State.setEcat_within
    | with_reducible refine Within.foldl ?_ ?_
    | with_reducible refine Within.foldlFst ?_ ?_
    | with_reducible refine Within.foldlSnd ?_ ?_
    | dsimp -zeta only
    | split
    | with_reducible refine Within.ofFst ?_ (by assumption)
    | with_reducible refine Within.ofSnd ?_ (by assumption)
    | with_reducible refine Within.ofSome ?_ (by assumption)
    | dsimp -zeta +zetaDelta only

theorem State.ecatImg_within {s val} (hk : Sub 2 k) (hs : Within k r s) :
    Within k r (State.ecatImg s val) := by
  unfold State.ecatImg
  repeat' first
    | with_reducible assumption
    | exact hk.of rfl
    | intro _
    | extract_lets
    | with_reducible apply State.ecatErr_within
    | with_reducible apply State.set_within
    | with_reducible refine Within.foldl ?_ ?_
    | with_reducible refine Within.foldlFst ?_ ?_
    | with_reducible refine Within.foldlSnd ?_ ?_
    | dsimp -zeta only
    | split

theorem State.setSub_within {s n x} (hk : Sub 33554432 k) (hs : Within k r s) :
    Within k r (State.setSub s n x) := by
  unfold State.setSub
  repeat' first
    | with_reducible assumption
    | exact hk.of rfl
    | intro _
    | extract_lets
    | with_reducible apply State.setEcat_within

theorem State.subGoes_within {s n st} (hk : Sub 33555456 k) (hs : Within k r s) :
    Within k r (State.subGoes s n st) := by
  unfold State.subGoes
  repeat' first
    | with_reducible assumption
    | exact hk.of rfl
    | intro _
    | extract_lets
    | with_reducible apply State.ecatIrq_within
    | with_reducible apply State.setSub_within

theorem State.subAbsent_within {s n} (hk : Sub 33555461 k) (hs : Within k r s) :
    Within k r (State.subAbsent s n) := by
  unfold State.subAbsent
  repeat' first
    | with_reducible assumption
    | exact hk.of rfl
    | intro _
    | extract_lets
    | with_reducible apply State.ecatIrq_within
    | with_reducible apply State.emcyOpen_within
    | with_reducible apply State.setSub_within

theorem State.readIdentity_within {s n} (hk : Sub 1024 k) (hs : Within k r s) :
    Within k r (State.readIdentity s n) := by
  unfold State.readIdentity
  repeat' first
    | with_reducible assumption
    | exact hk.of rfl
    | intro _
    | extract_lets
    | with_reducible apply State.emit_within
    | with_reducible refine Within.foldl ?_ ?_

theorem State.ecatLink_within {s port v} (hk : Sub 2 k) (hs : Within k r s) :
    Within k r (State.ecatLink s port v) := by
  unfold State.ecatLink
  repeat' first
    | with_reducible assumption
    | exact hk.of rfl
    | intro _
    | extract_lets
    | with_reducible apply State.set_within
    | with_reducible refine Within.foldl ?_ ?_
    | with_reducible refine Within.foldlFst ?_ ?_
    | with_reducible refine Within.foldlSnd ?_ ?_
    | dsimp -zeta only
    | split

theorem execSubdeviceAnswer_within {n port s} (hk : Sub 33555463 k) (hs : Within k r s) :
    OutWithin k r (execSubdeviceAnswer n port s) := by
  unfold execSubdeviceAnswer
  repeat' first
    | with_reducible assumption
    | exact hk.of rfl
    | intro _
    | extract_lets
    | with_reducible refine OutWithin.ofNext ?_
    | with_reducible refine State.onClock_within ?_ ?_
    | with_reducible apply State.ecatLink_within
    | with_reducible apply State.emcyOpen_within
    | with_reducible apply State.readIdentity_within
    | with_reducible apply State.subGoes_within
    | with_reducible refine Within.foldl ?_ ?_
    | with_reducible refine Within.foldlFst ?_ ?_
    | with_reducible refine Within.foldlSnd ?_ ?_
    | dsimp -zeta only
    | split
    | with_reducible refine Within.ofFst ?_ (by assumption)
    | with_reducible refine Within.ofSnd ?_ (by assumption)
    | with_reducible refine Within.ofSome ?_ (by assumption)
    | dsimp -zeta +zetaDelta only

theorem execIdentityReadComplete_within {n id s} (hk : Sub 33555461 k) (hs : Within k r s) :
    OutWithin k r (execIdentityReadComplete n id s) := by
  unfold execIdentityReadComplete
  repeat' first
    | with_reducible assumption
    | exact hk.of rfl
    | intro _
    | extract_lets
    | with_reducible refine OutWithin.ofNext ?_
    | with_reducible refine State.onClock_within ?_ ?_
    | with_reducible apply State.emcyOpen_within
    | with_reducible apply State.subGoes_within
    | with_reducible refine Within.foldl ?_ ?_
    | with_reducible refine Within.foldlFst ?_ ?_
    | with_reducible refine Within.foldlSnd ?_ ?_
    | dsimp -zeta only
    | split

theorem execRetryExpire_within {n s} (hk : Sub 33555461 k) (hs : Within k r s) :
    OutWithin k r (execRetryExpire n s) := by
  unfold execRetryExpire
  repeat' first
    | with_reducible assumption
    | exact hk.of rfl
    | intro _
    | extract_lets
    | with_reducible refine OutWithin.ofNext ?_
    | with_reducible refine State.onClock_within ?_ ?_
    | with_reducible apply State.emcyOpen_within
    | with_reducible apply State.subGoes_within
    | with_reducible refine Within.foldl ?_ ?_
    | with_reducible refine Within.foldlFst ?_ ?_
    | with_reducible refine Within.foldlSnd ?_ ?_
    | dsimp -zeta only
    | split

theorem State.recheck_within {s n} (hk : Sub 33555456 k) (hs : Within k r s) :
    Within k r (State.recheck s n) := by
  unfold State.recheck
  repeat' first
    | with_reducible assumption
    | exact hk.of rfl
    | intro _
    | extract_lets
    | with_reducible apply State.readIdentity_within
    | with_reducible apply State.subGoes_within
    | with_reducible refine Within.foldl ?_ ?_
    | with_reducible refine Within.foldlFst ?_ ?_
    | with_reducible refine Within.foldlSnd ?_ ?_
    | dsimp -zeta only
    | split

theorem execRecheck_within {n s} (hk : Sub 33555456 k) (hs : Within k r s) :
    OutWithin k r (execRecheck n s) := by
  unfold execRecheck
  repeat' first
    | with_reducible assumption
    | exact hk.of rfl
    | intro _
    | extract_lets
    | with_reducible refine OutWithin.ofNext ?_
    | with_reducible refine State.onClock_within ?_ ?_
    | with_reducible apply State.recheck_within
    | with_reducible refine Within.foldl ?_ ?_
    | with_reducible refine Within.foldlFst ?_ ?_
    | with_reducible refine Within.foldlSnd ?_ ?_
    | dsimp -zeta only
    | split

theorem execEcatLinkLoss_within {port positions s} (hk : Sub 33555463 k) (hs : Within k r s) :
    OutWithin k r (execEcatLinkLoss port positions s) := by
  unfold execEcatLinkLoss
  repeat' first
    | with_reducible assumption
    | exact hk.of rfl
    | intro _
    | extract_lets
    | with_reducible refine OutWithin.ofNext ?_
    | with_reducible refine State.onClock_within ?_ ?_
    | with_reducible apply State.ecatLink_within
    | with_reducible apply State.subAbsent_within
    | with_reducible refine Within.foldl ?_ ?_
    | with_reducible refine Within.foldlFst ?_ ?_
    | with_reducible refine Within.foldlSnd ?_ ?_
    | dsimp -zeta only
    | split

theorem State.feed1_within {s f} (hk : Sub 33555348 k) (hs : Within k r s) :
    Within k r (State.feed1 s f) := by
  unfold State.feed1
  repeat' first
    | with_reducible assumption
    | exact hk.of rfl
    | intro _
    | extract_lets
    | with_reducible apply State.scatter_within
    | with_reducible apply State.setEcat_within
    | with_reducible apply State.setObj_within
    | with_reducible refine Within.foldl ?_ ?_
    | with_reducible refine Within.foldlFst ?_ ?_
    | with_reducible refine Within.foldlSnd ?_ ?_
    | dsimp -zeta only
    | split

theorem execFeedWriteComplete_within {f s} (hk : Sub 34078722 k) (hs : Within k r s) :
    OutWithin k r (execFeedWriteComplete f s) := by
  unfold execFeedWriteComplete
  repeat' first
    | with_reducible assumption
    | exact hk.of rfl
    | intro _
    | extract_lets
    | with_reducible refine OutWithin.ofNext ?_
    | with_reducible refine State.onClock_within ?_ ?_
    | with_reducible apply State.ringDoorbell_within
    | with_reducible apply State.setEcat_within
    | with_reducible refine Within.foldl ?_ ?_
    | with_reducible refine Within.foldlFst ?_ ?_
    | with_reducible refine Within.foldlSnd ?_ ?_
    | dsimp -zeta only
    | split

theorem State.countMiss_within {s n} (hk : Sub 33555461 k) (hs : Within k r s) :
    Within k r (State.countMiss s n) := by
  unfold State.countMiss
  repeat' first
    | with_reducible assumption
    | exact hk.of rfl
    | intro _
    | extract_lets
    | with_reducible apply State.setSub_within
    | with_reducible apply State.subAbsent_within
    | with_reducible refine Within.foldl ?_ ?_
    | with_reducible refine Within.foldlFst ?_ ?_
    | with_reducible refine Within.foldlSnd ?_ ?_
    | dsimp -zeta only
    | split

theorem State.endCycle_within {s} (hk : Sub 33556375 k) (hs : Within k r s) :
    Within k r (State.endCycle s) := by
  unfold State.endCycle
  repeat' first
    | with_reducible assumption
    | exact hk.of rfl
    | intro _
    | extract_lets
    | with_reducible apply State.countMiss_within
    | with_reducible apply State.feed1_within
    | with_reducible apply State.forward_within
    | with_reducible apply State.poke_within
    | with_reducible apply State.set_within
    | with_reducible apply State.setEcat_within
    | with_reducible refine Within.foldl ?_ ?_
    | with_reducible refine Within.foldlFst ?_ ?_
    | with_reducible refine Within.foldlSnd ?_ ?_
    | dsimp -zeta only
    | split

theorem State.returnLimit_within {s} (hk : Sub 33556375 k) (hs : Within k r s) :
    Within k r (State.returnLimit s) := by
  unfold State.returnLimit
  repeat' first
    | with_reducible assumption
    | exact hk.of rfl
    | intro _
    | extract_lets
    | with_reducible apply State.count_within
    | with_reducible apply State.ecatIrq_within
    | with_reducible apply State.endCycle_within
    | with_reducible apply State.set_within
    | with_reducible refine Within.foldl ?_ ?_
    | with_reducible refine Within.foldlFst ?_ ?_
    | with_reducible refine Within.foldlSnd ?_ ?_
    | dsimp -zeta only
    | split

theorem execEcatReturnLimit_within {s} (hk : Sub 33556375 k) (hs : Within k r s) :
    OutWithin k r (execEcatReturnLimit s) := by
  unfold execEcatReturnLimit
  repeat' first
    | with_reducible assumption
    | exact hk.of rfl
    | intro _
    | extract_lets
    | with_reducible refine OutWithin.ofNext ?_
    | with_reducible refine State.onClock_within ?_ ?_
    | with_reducible apply State.returnLimit_within
    | with_reducible refine Within.foldl ?_ ?_
    | with_reducible refine Within.foldlFst ?_ ?_
    | with_reducible refine Within.foldlSnd ?_ ?_
    | dsimp -zeta only
    | split

theorem execEcatCycleStart_within {s0} (hk : Sub 50333591 k) (hs0 : Within k r s0) :
    OutWithin k r (execEcatCycleStart s0) := by
  unfold execEcatCycleStart
  repeat' first
    | with_reducible assumption
    | exact hk.of rfl
    | intro _
    | extract_lets
    | with_reducible refine OutWithin.ofNext ?_
    | with_reducible refine State.onClock_within ?_ ?_
    | with_reducible apply State.emit_within
    | with_reducible apply State.placeGuarded_within
    | with_reducible apply State.returnLimit_within
    | with_reducible apply State.set_within
    | with_reducible apply State.setEcat_within
    | with_reducible refine Within.foldl ?_ ?_
    | with_reducible refine Within.foldlFst ?_ ?_
    | with_reducible refine Within.foldlSnd ?_ ?_
    | dsimp -zeta only
    | split

theorem execEcatFrameReturn_within {f port grams s} (hk : Sub 33556375 k) (hs : Within k r s) :
    OutWithin k r (execEcatFrameReturn f port grams s) := by
  unfold execEcatFrameReturn
  repeat' first
    | with_reducible assumption
    | exact hk.of rfl
    | intro _
    | extract_lets
    | with_reducible refine OutWithin.ofNext ?_
    | with_reducible refine State.onClock_within ?_ ?_
    | with_reducible apply State.ecatLink_within
    | with_reducible apply State.endCycle_within
    | with_reducible apply State.setEcat_within
    | with_reducible refine Within.foldl ?_ ?_
    | with_reducible refine Within.foldlFst ?_ ?_
    | with_reducible refine Within.foldlSnd ?_ ?_
    | dsimp -zeta only
    | split

theorem State.mbxEnd_within {s st size abort} (hk : Sub 33554434 k) (hs : Within k r s) :
    Within k r (State.mbxEnd s st size abort) := by
  unfold State.mbxEnd
  repeat' first
    | with_reducible assumption
    | exact hk.of rfl
    | intro _
    | extract_lets
    | with_reducible apply State.set_within
    | with_reducible apply State.setEcat_within

theorem State.mbxTurnedAway_within {s src} (hk : Sub 132102 k) (hs : Within k r s) :
    OptWithin k r (State.mbxTurnedAway s src) := by
  unfold State.mbxTurnedAway
  repeat' first
    | with_reducible assumption
    | exact hk.of rfl
    | intro _
    | extract_lets
    | exact OptWithin.none
    | with_reducible refine OptWithin.mk' ?_
    | with_reducible apply State.set_within
    | with_reducible apply State.turnAway_within
    | with_reducible refine Within.foldl ?_ ?_
    | with_reducible refine Within.foldlFst ?_ ?_
    | with_reducible refine Within.foldlSnd ?_ ?_
    | dsimp -zeta only
    | split

theorem State.mbxStart_within {s j} (hk : Sub 33555458 k) (hs : Within k r s) :
    Within k r (State.mbxStart s j) := by
  unfold State.mbxStart
  repeat' first
    | with_reducible assumption
    | exact hk.of rfl
    | intro _
    | extract_lets
    | with_reducible apply State.emit_within
    | with_reducible apply State.set_within
    | with_reducible apply State.setEcat_within

theorem execMbxRead_within {src val s} (hk : Sub 33686534 k) (hs : Within k r s) :
    OutWithin k r (execMbxRead src val s) := by
  unfold execMbxRead
  repeat' first
    | with_reducible assumption
    | exact hk.of rfl
    | intro _
    | extract_lets
    | with_reducible refine OutWithin.ofNext ?_
    | with_reducible refine State.onClock_within ?_ ?_
    | with_reducible apply State.mbxEnd_within
    | with_reducible apply State.mbxStart_within
    | with_reducible apply State.mbxTurnedAway_within
    | with_reducible apply State.set_within
    | with_reducible refine Within.foldl ?_ ?_
    | with_reducible refine Within.foldlFst ?_ ?_
    | with_reducible refine Within.foldlSnd ?_ ?_
    | dsimp -zeta only
    | split
    | with_reducible refine Within.ofFst ?_ (by assumption)
    | with_reducible refine Within.ofSnd ?_ (by assumption)
    | with_reducible refine Within.ofSome ?_ (by assumption)

theorem execMbxWrite_within {src val size s} (hk : Sub 33686534 k) (hs : Within k r s) :
    OutWithin k r (execMbxWrite src val size s) := by
  unfold execMbxWrite
  repeat' first
    | with_reducible assumption
    | exact hk.of rfl
    | intro _
    | extract_lets
    | with_reducible refine OutWithin.ofNext ?_
    | with_reducible refine State.onClock_within ?_ ?_
    | with_reducible apply State.mbxEnd_within
    | with_reducible apply State.mbxStart_within
    | with_reducible apply State.mbxTurnedAway_within
    | with_reducible apply State.setEcat_within
    | with_reducible refine Within.foldl ?_ ?_
    | with_reducible refine Within.foldlFst ?_ ?_
    | with_reducible refine Within.foldlSnd ?_ ?_
    | dsimp -zeta only
    | split
    | with_reducible refine Within.ofFst ?_ (by assumption)
    | with_reducible refine Within.ofSnd ?_ (by assumption)
    | with_reducible refine Within.ofSome ?_ (by assumption)

theorem execMbxResponse_within {abort bytes s} (hk : Sub 33554434 k) (hs : Within k r s) :
    OutWithin k r (execMbxResponse abort bytes s) := by
  unfold execMbxResponse
  repeat' first
    | with_reducible assumption
    | exact hk.of rfl
    | intro _
    | extract_lets
    | with_reducible refine OutWithin.ofNext ?_
    | with_reducible refine State.onClock_within ?_ ?_
    | with_reducible apply State.mbxEnd_within
    | with_reducible apply State.set_within
    | with_reducible apply State.setEcat_within
    | with_reducible refine Within.foldl ?_ ?_
    | with_reducible refine Within.foldlFst ?_ ?_
    | with_reducible refine Within.foldlSnd ?_ ?_
    | dsimp -zeta only
    | split

theorem execMbxTimeout_within {s} (hk : Sub 33554434 k) (hs : Within k r s) :
    OutWithin k r (execMbxTimeout s) := by
  unfold execMbxTimeout
  repeat' first
    | with_reducible assumption
    | exact hk.of rfl
    | intro _
    | extract_lets
    | with_reducible refine OutWithin.ofNext ?_
    | with_reducible refine State.onClock_within ?_ ?_
    | with_reducible apply State.mbxEnd_within
    | with_reducible refine Within.foldl ?_ ?_
    | with_reducible refine Within.foldlFst ?_ ?_
    | with_reducible refine Within.foldlSnd ?_ ?_
    | dsimp -zeta only
    | split

theorem execCanBusOff_within {c s} (hk : Sub 2 k) (hs : Within k r s) :
    OutWithin k r (execCanBusOff c s) := by
  unfold execCanBusOff
  repeat' first
    | with_reducible assumption
    | exact hk.of rfl
    | intro _
    | extract_lets
    | with_reducible refine OutWithin.ofNext ?_
    | with_reducible refine State.onClock_within ?_ ?_
    | with_reducible apply State.count_within
    | with_reducible apply State.set_within
    | with_reducible refine Within.foldl ?_ ?_
    | with_reducible refine Within.foldlFst ?_ ?_
    | with_reducible refine Within.foldlSnd ?_ ?_
    | dsimp -zeta only
    | split

theorem execCanBusOffRecovery_within {c s} (hk : Sub 1031 k) (hs : Within k r s) :
    OutWithin k r (execCanBusOffRecovery c s) := by
  unfold execCanBusOffRecovery
  repeat' first
    | with_reducible assumption
    | exact hk.of rfl
    | intro _
    | extract_lets
    | with_reducible refine OutWithin.ofNext ?_
    | with_reducible refine State.onClock_within ?_ ?_
    | with_reducible apply State.emcyOpen_within
    | with_reducible apply State.set_within
    | with_reducible refine Within.foldl ?_ ?_
    | with_reducible refine Within.foldlFst ?_ ?_
    | with_reducible refine Within.foldlSnd ?_ ?_
    | dsimp -zeta only
    | split

theorem execCanHeartbeat_within {c s} (hk : Sub 1024 k) (hs : Within k r s) :
    OutWithin k r (execCanHeartbeat c s) := by
  unfold execCanHeartbeat
  repeat' first
    | with_reducible assumption
    | exact hk.of rfl
    | intro _
    | extract_lets
    | with_reducible refine OutWithin.ofNext ?_
    | with_reducible refine State.onClock_within ?_ ?_
    | with_reducible apply State.emit_within
    | with_reducible refine Within.foldl ?_ ?_
    | with_reducible refine Within.foldlFst ?_ ?_
    | with_reducible refine Within.foldlSnd ?_ ?_
    | dsimp -zeta only
    | split

theorem State.netIrq_within {s p} (hk : Sub 1024 k) (hs : Within k r s) :
    Within k r (State.netIrq s p) := by
  unfold State.netIrq
  repeat' first
    | with_reducible assumption
    | exact hk.of rfl
    | intro _
    | extract_lets
    | with_reducible apply State.msix_within
    | with_reducible refine Within.foldl ?_ ?_
    | with_reducible refine Within.foldlFst ?_ ?_
    | with_reducible refine Within.foldlSnd ?_ ?_
    | dsimp -zeta only
    | split

theorem execTxDoorbell_within {src p val s} (hk : Sub 132102 k) (hs : Within k r s) :
    OutWithin k r (execTxDoorbell src p val s) := by
  unfold execTxDoorbell
  repeat' first
    | with_reducible assumption
    | exact hk.of rfl
    | intro _
    | extract_lets
    | with_reducible refine OutWithin.ofNext ?_
    | with_reducible refine State.onClock_within ?_ ?_
    | with_reducible apply State.set_within
    | with_reducible apply State.turnAway_within
    | with_reducible refine Within.foldl ?_ ?_
    | with_reducible refine Within.foldlFst ?_ ?_
    | with_reducible refine Within.foldlSnd ?_ ?_
    | dsimp -zeta only
    | split

theorem State.txFetch_within {s d} (hk : Sub 918 k) (hs : Within k r s) : Within k r (State.txFetch s d).1 := by
  unfold State.txFetch
  split
  · exact hs
  · exact State.agateRead_within (hk.of rfl) hs

theorem State.txSent_within {s p d next frame} (hk : Sub 18326 k) (hs : Within k r s) :
    Within k r (State.txSent s p d next frame) := by
  have h1 : Within k r (if bit d 79 then s.stampTx p (bits d 80 16) else s) := by
    split
    · exact State.stampTx_within (hk.of rfl) hs
    · exact hs
  exact State.netIrq_within (hk.of rfl) (State.set_within (hk.of rfl) (State.emit_within (hk.of rfl) h1 _))

theorem execTxTimestampPoint_within {p s} (hk : Sub 18326 k) (hs : Within k r s) :
    OutWithin k r (execTxTimestampPoint p s) := by
  unfold execTxTimestampPoint
  refine State.onClock_within hs ?_
  dsimp only
  split
  · exact .ofNext hs
  · exact .ofNext (State.txSent_within (hk.of rfl) (State.txFetch_within (hk.of rfl) (State.agateRead_within (hk.of rfl) hs)))

theorem execEthFrameReceive_within {p f s} (hk : Sub 2099095 k) (hs : Within k r s) :
    OutWithin k r (execEthFrameReceive p f s) := by
  unfold execEthFrameReceive
  repeat' first
    | with_reducible assumption
    | exact hk.of rfl
    | intro _
    | extract_lets
    | with_reducible refine OutWithin.ofNext ?_
    | with_reducible refine State.onClock_within ?_ ?_
    | with_reducible refine Within.getD ?_ ?_
    | with_reducible apply Within.getD
    | with_reducible apply State.agateWrite_within
    | with_reducible apply State.count_within
    | with_reducible apply State.forward_within
    | with_reducible apply State.netIrq_within
    | with_reducible apply State.set_within
    | with_reducible apply State.setObj_within
    | fail_if_no_progress ((with_reducible refine Within.rings ?_ ?_ _); exact hk.of rfl)
    | with_reducible refine Within.foldl ?_ ?_
    | with_reducible refine Within.foldlFst ?_ ?_
    | with_reducible refine Within.foldlSnd ?_ ?_
    | dsimp -zeta only
    | split
    | with_reducible refine Within.ofFst ?_ (by assumption)
    | with_reducible refine Within.ofSnd ?_ (by assumption)
    | with_reducible refine Within.ofSome ?_ (by assumption)

end Sys2Proof.Machine
end

