-- ==== Sys2Proof/Laws/Frame/Power.lean ====
section
/-! SUPPORT. What the functions of Machine/Power.lean may change. -/

namespace Sys2Proof.Machine

variable {k : Nat} {r : State}

theorem State.setPwr_within {s p} (hk : Sub 134217728 k) (hs : Within k r s) :
    Within k r (State.setPwr s p) := by
  unfold State.setPwr
  repeat' first
    | with_reducible assumption
    | exact hk.of rfl
    | intro _
    | extract_lets
    | fail_if_no_progress ((with_reducible refine Within.pwr ?_ ?_ _); exact hk.of rfl)

theorem State.setDiePwr_within {s n d} (hk : Sub 134217728 k) (hs : Within k r s) :
    Within k r (State.setDiePwr s n d) := by
  unfold State.setDiePwr
  repeat' first
    | with_reducible assumption
    | exact hk.of rfl
    | intro _
    | extract_lets
    | with_reducible apply State.setPwr_within

theorem State.loadClocks_within {s n} (hk : Sub 134217730 k) (hs : Within k r s) :
    Within k r (State.loadClocks s n) := by
  unfold State.loadClocks
  repeat' first
    | with_reducible assumption
    | exact hk.of rfl
    | intro _
    | extract_lets
    | with_reducible apply State.setDiePwr_within
    | with_reducible apply State.setO_within
    | with_reducible refine Within.foldl ?_ ?_

theorem State.aimK_within {s n c v} (hk : Sub 134217730 k) (hs : Within k r s) :
    Within k r (State.aimK s n c v) := by
  unfold State.aimK
  repeat' first
    | with_reducible assumption
    | exact hk.of rfl
    | intro _
    | extract_lets
    | with_reducible apply State.setDiePwr_within
    | with_reducible apply State.setO_within
    | with_reducible refine Within.foldl ?_ ?_
    | with_reducible refine Within.foldlFst ?_ ?_
    | with_reducible refine Within.foldlSnd ?_ ?_
    | dsimp -zeta only
    | split

theorem State.setCap_within {s n v} (hk : Sub 134217730 k) (hs : Within k r s) :
    Within k r (State.setCap s n v) := by
  unfold State.setCap
  repeat' first
    | with_reducible assumption
    | exact hk.of rfl
    | intro _
    | extract_lets
    | with_reducible apply State.setDiePwr_within
    | with_reducible apply State.setO_within

theorem execAvsStepComplete_within {n s} (hk : Sub 134217730 k) (hs : Within k r s) :
    OutWithin k r (execAvsStepComplete n s) := by
  unfold execAvsStepComplete
  repeat' first
    | with_reducible assumption
    | exact hk.of rfl
    | intro _
    | extract_lets
    | with_reducible refine OutWithin.ofNext ?_
    | with_reducible refine State.onClock_within ?_ ?_
    | with_reducible apply State.setDiePwr_within
    | with_reducible apply State.setO_within
    | with_reducible refine Within.foldl ?_ ?_
    | with_reducible refine Within.foldlFst ?_ ?_
    | with_reducible refine Within.foldlSnd ?_ ?_
    | dsimp -zeta only
    | split

theorem execMatrixIdleTimeout_within {n s} (hk : Sub 134217730 k) (hs : Within k r s) :
    OutWithin k r (execMatrixIdleTimeout n s) := by
  unfold execMatrixIdleTimeout
  repeat' first
    | with_reducible assumption
    | exact hk.of rfl
    | intro _
    | extract_lets
    | with_reducible refine OutWithin.ofNext ?_
    | with_reducible refine State.onClock_within ?_ ?_
    | with_reducible apply State.setDiePwr_within
    | with_reducible apply State.setO_within
    | with_reducible refine Within.foldl ?_ ?_
    | with_reducible refine Within.foldlFst ?_ ?_
    | with_reducible refine Within.foldlSnd ?_ ?_
    | dsimp -zeta only
    | split

theorem execHintWrite_within {src n val s} (hk : Sub 134349830 k) (hs : Within k r s) :
    OutWithin k r (execHintWrite src n val s) := by
  unfold execHintWrite
  repeat' first
    | with_reducible assumption
    | exact hk.of rfl
    | intro _
    | extract_lets
    | with_reducible refine OutWithin.ofNext ?_
    | with_reducible refine State.onClock_within ?_ ?_
    | with_reducible apply State.setDiePwr_within
    | with_reducible apply State.setO_within
    | with_reducible apply State.turnAway_within
    | with_reducible refine Within.foldl ?_ ?_
    | with_reducible refine Within.foldlFst ?_ ?_
    | with_reducible refine Within.foldlSnd ?_ ?_
    | dsimp -zeta only
    | split

theorem execHintExpire_within {n s} (hk : Sub 2 k) (hs : Within k r s) :
    OutWithin k r (execHintExpire n s) := by
  unfold execHintExpire
  repeat' first
    | with_reducible assumption
    | exact hk.of rfl
    | intro _
    | extract_lets
    | with_reducible refine OutWithin.ofNext ?_
    | with_reducible refine State.onClock_within ?_ ?_
    | with_reducible apply State.setO_within
    | with_reducible refine Within.foldl ?_ ?_
    | with_reducible refine Within.foldlFst ?_ ?_
    | with_reducible refine Within.foldlSnd ?_ ?_
    | dsimp -zeta only
    | split

theorem State.setRelock_within {s b} (hk : Sub 2 k) (hs : Within k r s) :
    Within k r (State.setRelock s b) := by
  unfold State.setRelock
  repeat' first
    | with_reducible assumption
    | exact hk.of rfl
    | intro _
    | extract_lets
    | with_reducible apply State.set_within

theorem execLossOfLock_within {s} (hk : Sub 142606338 k) (hs : Within k r s) :
    OutWithin k r (execLossOfLock s) := by
  unfold execLossOfLock
  repeat' first
    | with_reducible assumption
    | exact hk.of rfl
    | intro _
    | extract_lets
    | with_reducible refine OutWithin.ofNext ?_
    | with_reducible refine State.onClock_within ?_ ?_
    | with_reducible apply State.count_within
    | with_reducible apply State.rfxDisarmAll_within
    | with_reducible apply State.set_within
    | with_reducible apply State.setPwr_within
    | with_reducible apply State.setRelock_within
    | with_reducible refine Within.foldl ?_ ?_
    | with_reducible refine Within.foldlFst ?_ ?_
    | with_reducible refine Within.foldlSnd ?_ ?_
    | dsimp -zeta only
    | split

theorem execPllLock_within {s} (hk : Sub 134217730 k) (hs : Within k r s) :
    OutWithin k r (execPllLock s) := by
  unfold execPllLock
  repeat' first
    | with_reducible assumption
    | exact hk.of rfl
    | intro _
    | extract_lets
    | with_reducible refine OutWithin.ofNext ?_
    | with_reducible refine State.onClock_within ?_ ?_
    | with_reducible apply State.set_within
    | with_reducible apply State.setPwr_within
    | with_reducible refine Within.foldl ?_ ?_
    | with_reducible refine Within.foldlFst ?_ ?_
    | with_reducible refine Within.foldlSnd ?_ ?_
    | dsimp -zeta only
    | split

theorem execDividerRestart_within {s} (hk : Sub 134217730 k) (hs : Within k r s) :
    OutWithin k r (execDividerRestart s) := by
  unfold execDividerRestart
  repeat' first
    | with_reducible assumption
    | exact hk.of rfl
    | intro _
    | extract_lets
    | with_reducible refine OutWithin.ofNext ?_
    | with_reducible refine State.onClock_within ?_ ?_
    | with_reducible apply State.setDiePwr_within
    | with_reducible apply State.setO_within
    | with_reducible apply State.setPwr_within
    | with_reducible apply State.setRelock_within
    | with_reducible refine Within.foldl ?_ ?_
    | with_reducible refine Within.foldlFst ?_ ?_
    | with_reducible refine Within.foldlSnd ?_ ?_
    | dsimp -zeta only
    | split

theorem execRelockTimeout_within {s} (hk : Sub 134217730 k) (hs : Within k r s) :
    OutWithin k r (execRelockTimeout s) := by
  unfold execRelockTimeout
  repeat' first
    | with_reducible assumption
    | exact hk.of rfl
    | intro _
    | extract_lets
    | with_reducible refine OutWithin.ofNext ?_
    | with_reducible refine State.onClock_within ?_ ?_
    | with_reducible apply State.set_within
    | with_reducible apply State.setPwr_within
    | with_reducible refine Within.foldl ?_ ?_
    | with_reducible refine Within.foldlFst ?_ ?_
    | with_reducible refine Within.foldlSnd ?_ ?_
    | dsimp -zeta only
    | split

theorem State.noteUnderVolt_within {s m} (hk : Sub 134218756 k) (hs : Within k r s) :
    Within k r (State.noteUnderVolt s m) := by
  unfold State.noteUnderVolt
  repeat' first
    | with_reducible assumption
    | exact hk.of rfl
    | intro _
    | extract_lets
    | with_reducible apply State.emcy_within
    | with_reducible apply State.setPwr_within
    | with_reducible refine Within.foldl ?_ ?_
    | with_reducible refine Within.foldlFst ?_ ?_
    | with_reducible refine Within.foldlSnd ?_ ?_
    | dsimp -zeta only
    | split

theorem State.sampleWindow_within {s rails total} (hk : Sub 134217728 k) (hs : Within k r s) :
    Within k r (State.sampleWindow s rails total) := by
  unfold State.sampleWindow
  repeat' first
    | with_reducible assumption
    | exact hk.of rfl
    | intro _
    | extract_lets
    | with_reducible apply State.setPwr_within

theorem State.lowerDie_within {s over' sum floor n} (hk : Sub 134217730 k) (hs : Within k r s) :
    Within k r (State.lowerDie s over' sum floor n) := by
  unfold State.lowerDie
  repeat' first
    | with_reducible assumption
    | exact hk.of rfl
    | intro _
    | extract_lets
    | with_reducible apply State.aimK_within
    | with_reducible apply State.setCap_within
    | with_reducible refine Within.foldl ?_ ?_
    | with_reducible refine Within.foldlFst ?_ ?_
    | with_reducible refine Within.foldlSnd ?_ ?_
    | dsimp -zeta only
    | split

theorem State.raiseDie_within {s n} (hk : Sub 134217730 k) (hs : Within k r s) :
    Within k r (State.raiseDie s n) := by
  unfold State.raiseDie
  repeat' first
    | with_reducible assumption
    | exact hk.of rfl
    | intro _
    | extract_lets
    | with_reducible apply State.aimK_within
    | with_reducible apply State.setCap_within
    | with_reducible apply State.setDiePwr_within
    | with_reducible refine Within.foldl ?_ ?_
    | with_reducible refine Within.foldlFst ?_ ?_
    | with_reducible refine Within.foldlSnd ?_ ?_
    | dsimp -zeta only
    | split
    | with_reducible refine Within.ofFst ?_ (by assumption)
    | with_reducible refine Within.ofSnd ?_ (by assumption)
    | with_reducible refine Within.ofSome ?_ (by assumption)
    | dsimp -zeta +zetaDelta only

theorem State.powerLoop_within {s p rails} (hk : Sub 134217730 k) (hs : Within k r s) :
    Within k r (State.powerLoop s p rails) := by
  unfold State.powerLoop
  repeat' first
    | with_reducible assumption
    | exact hk.of rfl
    | intro _
    | extract_lets
    | with_reducible apply State.count_within
    | with_reducible apply State.lowerDie_within
    | with_reducible apply State.raiseDie_within
    | with_reducible apply State.set_within
    | with_reducible refine Within.foldl ?_ ?_
    | with_reducible refine Within.foldlFst ?_ ?_
    | with_reducible refine Within.foldlSnd ?_ ?_
    | dsimp -zeta only
    | split

theorem execPowerSample_within {rails s} (hk : Sub 134218758 k) (hs : Within k r s) :
    OutWithin k r (execPowerSample rails s) := by
  unfold execPowerSample
  repeat' first
    | with_reducible assumption
    | exact hk.of rfl
    | intro _
    | extract_lets
    | with_reducible refine OutWithin.ofNext ?_
    | with_reducible refine State.onClock_within ?_ ?_
    | with_reducible apply State.noteUnderVolt_within
    | with_reducible apply State.powerLoop_within
    | with_reducible apply State.sampleWindow_within
    | with_reducible apply State.set_within
    | with_reducible refine Within.foldl ?_ ?_
    | with_reducible refine Within.foldlFst ?_ ?_
    | with_reducible refine Within.foldlSnd ?_ ?_
    | dsimp -zeta only
    | split

theorem execPmbAlert_within {status overcurrent underVolt s} (hk : Sub 134218758 k) (hs : Within k r s) :
    OutWithin k r (execPmbAlert status overcurrent underVolt s) := by
  unfold execPmbAlert
  repeat' first
    | with_reducible assumption
    | exact hk.of rfl
    | intro _
    | extract_lets
    | with_reducible refine OutWithin.ofNext ?_
    | with_reducible refine State.onClock_within ?_ ?_
    | with_reducible apply State.noteUnderVolt_within
    | with_reducible apply State.set_within
    | with_reducible apply State.setCap_within
    | with_reducible refine Within.foldl ?_ ?_
    | with_reducible refine Within.foldlFst ?_ ?_
    | with_reducible refine Within.foldlSnd ?_ ?_
    | dsimp -zeta only
    | split

theorem State.showThermal_within {s d} (hk : Sub 1030 k) (hs : Within k r s) :
    Within k r (State.showThermal s d) := by
  unfold State.showThermal
  repeat' first
    | with_reducible assumption
    | exact hk.of rfl
    | intro _
    | extract_lets
    | with_reducible apply State.emcy_within
    | with_reducible apply State.set_within
    | with_reducible refine Within.foldl ?_ ?_
    | with_reducible refine Within.foldlFst ?_ ?_
    | with_reducible refine Within.foldlSnd ?_ ?_
    | dsimp -zeta only
    | split

theorem State.tripAll_within {s ds got} (hk : Sub 161257430 k) (hs : Within k r s) :
    Within k r (State.tripAll s ds got) := by
  unfold State.tripAll
  repeat' first
    | with_reducible assumption
    | exact hk.of rfl
    | intro _
    | extract_lets
    | with_reducible apply State.abandonAdmit_within
    | with_reducible apply State.latchSafe_within
    | with_reducible apply State.loseAll_within
    | with_reducible apply State.rfxDisarmAll_within
    | with_reducible apply State.setPwr_within
    | with_reducible refine Within.foldl ?_ ?_
    | with_reducible refine Within.foldlFst ?_ ?_
    | with_reducible refine Within.foldlSnd ?_ ?_
    | dsimp -zeta only
    | split
    | with_reducible refine Within.ofFst ?_ (by assumption)
    | with_reducible refine Within.ofSnd ?_ (by assumption)
    | with_reducible refine Within.ofSome ?_ (by assumption)
    | dsimp -zeta +zetaDelta only

theorem execThermalEval_within {readings got s} (hk : Sub 161257430 k) (hs : Within k r s) :
    OutWithin k r (execThermalEval readings got s) := by
  unfold execThermalEval
  repeat' first
    | with_reducible assumption
    | exact hk.of rfl
    | intro _
    | extract_lets
    | with_reducible refine OutWithin.ofNext ?_
    | with_reducible refine State.onClock_within ?_ ?_
    | with_reducible apply State.set_within
    | with_reducible apply State.setPwr_within
    | with_reducible apply State.showThermal_within
    | with_reducible apply State.tripAll_within
    | with_reducible refine Within.foldl ?_ ?_
    | with_reducible refine Within.foldlFst ?_ ?_
    | with_reducible refine Within.foldlSnd ?_ ?_
    | dsimp -zeta only
    | split

theorem State.throttle_within {s n} (hk : Sub 134217730 k) (hs : Within k r s) :
    Within k r (State.throttle s n) := by
  unfold State.throttle
  repeat' first
    | with_reducible assumption
    | exact hk.of rfl
    | intro _
    | extract_lets
    | with_reducible apply State.aimK_within
    | with_reducible apply State.setCap_within
    | with_reducible apply State.setDiePwr_within
    | with_reducible refine Within.foldl ?_ ?_
    | with_reducible refine Within.foldlFst ?_ ?_
    | with_reducible refine Within.foldlSnd ?_ ?_
    | dsimp -zeta only
    | split

theorem execThrottleStep_within {s} (hk : Sub 134217730 k) (hs : Within k r s) :
    OutWithin k r (execThrottleStep s) := by
  unfold execThrottleStep
  repeat' first
    | with_reducible assumption
    | exact hk.of rfl
    | intro _
    | extract_lets
    | with_reducible refine OutWithin.ofNext ?_
    | with_reducible refine State.onClock_within ?_ ?_
    | with_reducible apply State.throttle_within
    | with_reducible refine Within.foldl ?_ ?_

end Sys2Proof.Machine
end

