-- ==== Sys2Proof/Laws/Frame/Security.lean ====
section
/-! SUPPORT. What the functions of Machine/Security.lean may change. -/

namespace Sys2Proof.Machine

variable {k : Nat} {r : State}

theorem State.setSec_within {s x} (hk : Sub 131072 k) (hs : Within k r s) :
    Within k r (State.setSec s x) := by
  unfold State.setSec
  repeat' first
    | with_reducible assumption
    | exact hk.of rfl
    | intro _
    | extract_lets
    | fail_if_no_progress ((with_reducible refine Within.sec ?_ ?_ _); exact hk.of rfl)

theorem State.mailbox_within {s p op act} (hk : Sub 131074 k) (hs : Within k r s) (hact : ∀ u0, Within k r u0 → Within k r (act u0).1) :
    Within k r (State.mailbox s p op act) := by
  unfold State.mailbox
  repeat' first
    | with_reducible assumption
    | exact hk.of rfl
    | intro _
    | extract_lets
    | with_reducible apply hact
    | with_reducible apply State.countRefusal_within
    | with_reducible apply State.set_within
    | with_reducible apply State.setSec_within
    | with_reducible refine Within.foldl ?_ ?_
    | with_reducible refine Within.foldlFst ?_ ?_
    | with_reducible refine Within.foldlSnd ?_ ?_
    | dsimp -zeta only
    | split
    | with_reducible refine Within.ofFst ?_ (by assumption)
    | with_reducible refine Within.ofSnd ?_ (by assumption)
    | with_reducible refine Within.ofSome ?_ (by assumption)
    | dsimp -zeta +zetaDelta only

theorem State.deny_within {s} (hk : Sub 0 k) (hs : Within k r s) :
    Within k r (State.deny s).1 := by
  unfold State.deny
  repeat' first
    | with_reducible assumption

theorem State.answer_within {s b} (hk : Sub 0 k) (hs : Within k r s) :
    Within k r (State.answer s b).1 := by
  unfold State.answer
  repeat' first
    | with_reducible assumption

theorem State.ticketed_within {s p op session args} (hk : Sub 131072 k) (hs : Within k r s) :
    Within k r (State.ticketed s p op session args).1 := by
  unfold State.ticketed
  repeat' first
    | with_reducible assumption
    | exact hk.of rfl
    | intro _
    | extract_lets
    | with_reducible apply State.deny_within
    | with_reducible apply State.setSec_within
    | with_reducible refine Within.foldl ?_ ?_
    | with_reducible refine Within.foldlFst ?_ ?_
    | with_reducible refine Within.foldlSnd ?_ ?_
    | dsimp -zeta only
    | split

theorem State.inSession_within {s p a w} (hk : Sub 131072 k) (hs : Within k r s) (he : State.inSession s p a = some w) :
    Within k r w.2 := by
  unfold State.inSession at he
  split at he
  · split at he
    · cases he
      exact State.setSec_within (hk.of rfl) hs
    · cases he
  · cases he

theorem State.owned_within {s p a act} (hk : Sub 131072 k) (hs : Within k r s) (hact : ∀ u0 u1, Within k r u1 → Within k r (act u0 u1).1) :
    Within k r (State.owned s p a act).1 := by
  unfold State.owned
  repeat' first
    | with_reducible assumption
    | exact hk.of rfl
    | intro _
    | extract_lets
    | with_reducible apply hact
    | with_reducible apply State.deny_within
    | with_reducible apply State.inSession_within
    | with_reducible refine Within.foldl ?_ ?_
    | with_reducible refine Within.foldlFst ?_ ?_
    | with_reducible refine Within.foldlSnd ?_ ?_
    | dsimp -zeta only
    | split

theorem State.endSession_within {s id} (hk : Sub 131072 k) (hs : Within k r s) :
    Within k r (State.endSession s id) := by
  unfold State.endSession
  repeat' first
    | with_reducible assumption
    | exact hk.of rfl
    | intro _
    | extract_lets
    | with_reducible apply State.setSec_within

theorem execMailboxAnswer_within {p s} (hk : Sub 131090 k) (hs : Within k r s) :
    OutWithin k r (execMailboxAnswer p s) := by
  unfold execMailboxAnswer
  repeat' first
    | with_reducible assumption
    | exact hk.of rfl
    | intro _
    | extract_lets
    | with_reducible refine OutWithin.ofNext ?_
    | with_reducible refine State.onClock_within ?_ ?_
    | with_reducible apply State.poke_within
    | with_reducible apply State.set_within
    | with_reducible apply State.setSec_within
    | with_reducible refine Within.foldl ?_ ?_
    | with_reducible refine Within.foldlFst ?_ ?_
    | with_reducible refine Within.foldlSnd ?_ ?_
    | dsimp -zeta only
    | split

theorem execGetCert_within {p s} (hk : Sub 131075 k) (hs : Within k r s) :
    OutWithin k r (execGetCert p s) := by
  unfold execGetCert
  repeat' first
    | with_reducible assumption
    | exact hk.of rfl
    | intro _
    | extract_lets
    | with_reducible refine OutWithin.ofNext ?_
    | with_reducible refine State.onClock_within ?_ ?_
    | with_reducible apply State.answer_within
    | with_reducible apply State.draw_within
    | with_reducible apply State.mailbox_within

theorem execAttest_within {p nonce s} (hk : Sub 131074 k) (hs : Within k r s) :
    OutWithin k r (execAttest p nonce s) := by
  unfold execAttest
  repeat' first
    | with_reducible assumption
    | exact hk.of rfl
    | intro _
    | extract_lets
    | with_reducible refine OutWithin.ofNext ?_
    | with_reducible refine State.onClock_within ?_ ?_
    | with_reducible apply State.mailbox_within
    | with_reducible apply State.ticketed_within

theorem execGetNonce_within {p s} (hk : Sub 131075 k) (hs : Within k r s) :
    OutWithin k r (execGetNonce p s) := by
  unfold execGetNonce
  repeat' first
    | with_reducible assumption
    | exact hk.of rfl
    | intro _
    | extract_lets
    | with_reducible refine OutWithin.ofNext ?_
    | with_reducible refine State.onClock_within ?_ ?_
    | with_reducible apply State.answer_within
    | with_reducible apply State.draw_within
    | with_reducible apply State.mailbox_within
    | with_reducible apply State.setSec_within
    | with_reducible refine Within.foldl ?_ ?_
    | with_reducible refine Within.foldlFst ?_ ?_
    | with_reducible refine Within.foldlSnd ?_ ?_
    | dsimp -zeta only
    | split
    | with_reducible refine Within.ofFst ?_ (by assumption)
    | with_reducible refine Within.ofSnd ?_ (by assumption)
    | with_reducible refine Within.ofSome ?_ (by assumption)
    | dsimp -zeta +zetaDelta only

theorem execSessionOpen_within {p request s} (hk : Sub 131074 k) (hs : Within k r s) :
    OutWithin k r (execSessionOpen p request s) := by
  unfold execSessionOpen
  repeat' first
    | with_reducible assumption
    | exact hk.of rfl
    | intro _
    | extract_lets
    | with_reducible refine OutWithin.ofNext ?_
    | with_reducible refine State.onClock_within ?_ ?_
    | with_reducible apply State.deny_within
    | with_reducible apply State.mailbox_within
    | with_reducible apply State.ticketed_within
    | with_reducible refine Within.foldl ?_ ?_
    | with_reducible refine Within.foldlFst ?_ ?_
    | with_reducible refine Within.foldlSnd ?_ ?_
    | dsimp -zeta only
    | split

theorem execSessionFinish_within {p s} (hk : Sub 131074 k) (hs : Within k r s) :
    OutWithin k r (execSessionFinish p s) := by
  unfold execSessionFinish
  repeat' first
    | with_reducible assumption
    | exact hk.of rfl
    | intro _
    | extract_lets
    | with_reducible refine OutWithin.ofNext ?_
    | with_reducible refine State.onClock_within ?_ ?_
    | with_reducible apply State.deny_within
    | with_reducible apply State.mailbox_within
    | with_reducible apply State.setSec_within
    | with_reducible apply State.ticketed_within
    | with_reducible refine Within.foldl ?_ ?_
    | with_reducible refine Within.foldlFst ?_ ?_
    | with_reducible refine Within.foldlSnd ?_ ?_
    | dsimp -zeta only
    | split

theorem execSessionClose_within {p a s} (hk : Sub 131074 k) (hs : Within k r s) :
    OutWithin k r (execSessionClose p a s) := by
  unfold execSessionClose
  repeat' first
    | with_reducible assumption
    | exact hk.of rfl
    | intro _
    | extract_lets
    | with_reducible refine OutWithin.ofNext ?_
    | with_reducible refine State.onClock_within ?_ ?_
    | with_reducible apply State.answer_within
    | with_reducible apply State.endSession_within
    | with_reducible apply State.mailbox_within
    | with_reducible apply State.owned_within

theorem execSessionTimeout_within {id s} (hk : Sub 131072 k) (hs : Within k r s) :
    OutWithin k r (execSessionTimeout id s) := by
  unfold execSessionTimeout
  repeat' first
    | with_reducible assumption
    | exact hk.of rfl
    | intro _
    | extract_lets
    | with_reducible refine OutWithin.ofNext ?_
    | with_reducible refine State.onClock_within ?_ ?_
    | with_reducible apply State.endSession_within
    | with_reducible refine Within.foldl ?_ ?_
    | with_reducible refine Within.foldlFst ?_ ?_
    | with_reducible refine Within.foldlSnd ?_ ?_
    | dsimp -zeta only
    | split

theorem State.rekey_within {s n u c} (hk : Sub 49 k) (hs : Within k r s) : Within k r (State.rekey s n u c) := by
  unfold State.rekey
  extract_lets lo hi
  split
  · exact hs
  · refine Within.scrambledTo (hk.of rfl) hs (n := 1) (fun e he => ?_) tsorted_filter
    rw [List.mem_filter] at he
    refine ⟨he.1, State.blank_congr fun h4 h36 => tfind_tsets_ne (fun i hi' => ?_)⟩
    rw [List.mem_range] at hi'
    have hne : e.1 < lo ∨ hi ≤ e.1 := by simpa using he.2
    simp only [lo, hi, glob, rangeUnit] at hne
    omega

theorem execPartProtect_within {p a request s} (hk : Sub 131123 k) (hs : Within k r s) :
    OutWithin k r (execPartProtect p a request s) := by
  unfold execPartProtect
  repeat' first
    | with_reducible assumption
    | exact hk.of rfl
    | intro _
    | extract_lets
    | with_reducible refine OutWithin.ofNext ?_
    | with_reducible refine State.onClock_within ?_ ?_
    | with_reducible apply State.answer_within
    | with_reducible apply State.deny_within
    | with_reducible apply State.mailbox_within
    | with_reducible apply State.owned_within
    | with_reducible apply State.rekey_within
    | with_reducible apply State.setProt_within
    | with_reducible apply State.setSec_within
    | with_reducible refine Within.foldl ?_ ?_
    | with_reducible refine Within.foldlFst ?_ ?_
    | with_reducible refine Within.foldlSnd ?_ ?_
    | dsimp -zeta only
    | split

theorem State.releasePart_within {s q} (hk : Sub 923602 k) (hs : Within k r s) :
    Within k r (State.releasePart s q) := by
  unfold State.releasePart
  repeat' first
    | with_reducible assumption
    | exact hk.of rfl
    | intro _
    | extract_lets
    | with_reducible apply State.abortCtx_within
    | with_reducible apply State.setProt_within
    | with_reducible apply State.setSec_within
    | with_reducible refine Within.foldl ?_ ?_
    | with_reducible refine Within.foldlFst ?_ ?_
    | with_reducible refine Within.foldlSnd ?_ ?_
    | dsimp -zeta only
    | split

theorem execPartRelease_within {p a q s} (hk : Sub 923602 k) (hs : Within k r s) :
    OutWithin k r (execPartRelease p a q s) := by
  unfold execPartRelease
  repeat' first
    | with_reducible assumption
    | exact hk.of rfl
    | intro _
    | extract_lets
    | with_reducible refine OutWithin.ofNext ?_
    | with_reducible refine State.onClock_within ?_ ?_
    | with_reducible apply State.deny_within
    | with_reducible apply State.mailbox_within
    | with_reducible apply State.owned_within
    | with_reducible apply State.releasePart_within
    | with_reducible apply State.ticketed_within
    | with_reducible refine Within.foldl ?_ ?_
    | with_reducible refine Within.foldlFst ?_ ?_
    | with_reducible refine Within.foldlSnd ?_ ?_
    | dsimp -zeta only
    | split
    | with_reducible refine Within.ofFst ?_ (by assumption)
    | with_reducible refine Within.ofSnd ?_ (by assumption)
    | with_reducible refine Within.ofSome ?_ (by assumption)
    | dsimp -zeta +zetaDelta only

theorem State.zeroArea_within {s n} {a : Nat × Nat} (hk : Sub 432 k) (hs : Within k r s) : Within k r (State.zeroArea s n a) := by
  unfold State.zeroArea
  extract_lets lo inside unit gone t
  have h1 : Within k r t := .foldl hs (fun u x hu => State.dropLine_within (hk.of rfl) hu _ _ _)
  let v := if a.1 < 0x1000000000 then tkeep (fun k => !unit (glob (k / 256) (k % 256 * rangeUnit))) t.scrambled else t.scrambled
  have h2 : Within k r ({ t with mem := t.mem.filter (fun c => !inside c.1), scrambled := v } : State) := by
    refine Within.scrambledKeep (hk.of rfl) h1 (fun e he => ?_) tsorted_filter
    rw [List.mem_filter] at he
    refine ⟨he.1, State.blank_congr fun h4 h36 => ?_⟩
    by_cases ha : a.1 < 0x1000000000
    · simp only [v, if_pos ha]
      refine tfind_tkeep ?_
      have hne : e.1 < lo ∨ lo + a.2 ≤ e.1 := by simpa [inside] using he.2
      have hu : e.1 % 2 ^ 48 / 268435456 < 256 := by omega
      have hd : (256 * (e.1 / 2 ^ 48) + e.1 % 2 ^ 48 / 268435456) / 256 = e.1 / 2 ^ 48 := by omega
      have hr : (256 * (e.1 / 2 ^ 48) + e.1 % 2 ^ 48 / 268435456) % 256 = e.1 % 2 ^ 48 / 268435456 := by omega
      simp only [unit, hd, hr, Bool.not_eq_true', Bool.and_eq_false_iff, decide_eq_false_iff_not]
      simp only [glob, rangeUnit]
      omega
    · simp only [v, if_neg ha]
  exact Within.poisonFilter (hk.of rfl) h2 _

theorem execClearStart_within {q s} (hk : Sub 131504 k) (hs : Within k r s) :
    OutWithin k r (execClearStart q s) := by
  unfold execClearStart
  repeat' first
    | with_reducible assumption
    | exact hk.of rfl
    | intro _
    | extract_lets
    | with_reducible refine OutWithin.ofNext ?_
    | with_reducible refine State.onClock_within ?_ ?_
    | with_reducible apply State.setProt_within
    | with_reducible apply State.setSec_within
    | with_reducible apply State.zeroArea_within
    | with_reducible refine Within.foldl ?_ ?_
    | with_reducible refine Within.foldlFst ?_ ?_
    | with_reducible refine Within.foldlSnd ?_ ?_
    | dsimp -zeta only
    | split

theorem State.clearRecord_within {s q outcome start owner} (hk : Sub 131072 k) (hs : Within k r s) :
    Within k r (State.clearRecord s q outcome start owner) := by
  unfold State.clearRecord
  repeat' first
    | with_reducible assumption
    | exact hk.of rfl
    | intro _
    | extract_lets
    | with_reducible apply State.setSec_within

theorem execClearComplete_within {q s} (hk : Sub 131504 k) (hs : Within k r s) :
    OutWithin k r (execClearComplete q s) := by
  unfold execClearComplete
  repeat' first
    | with_reducible assumption
    | exact hk.of rfl
    | intro _
    | extract_lets
    | with_reducible refine OutWithin.ofNext ?_
    | with_reducible refine State.onClock_within ?_ ?_
    | with_reducible apply State.clearRecord_within
    | with_reducible apply State.setProt_within
    | with_reducible apply State.setSec_within
    | with_reducible apply State.zeroArea_within
    | with_reducible refine Within.foldl ?_ ?_
    | with_reducible refine Within.foldlFst ?_ ?_
    | with_reducible refine Within.foldlSnd ?_ ?_
    | dsimp -zeta only
    | split

theorem execKeyImport_within {p a slot q blob s} (hk : Sub 131074 k) (hs : Within k r s) :
    OutWithin k r (execKeyImport p a slot q blob s) := by
  unfold execKeyImport
  repeat' first
    | with_reducible assumption
    | exact hk.of rfl
    | intro _
    | extract_lets
    | with_reducible refine OutWithin.ofNext ?_
    | with_reducible refine State.onClock_within ?_ ?_
    | with_reducible apply State.deny_within
    | with_reducible apply State.mailbox_within
    | with_reducible apply State.owned_within
    | with_reducible apply State.ticketed_within
    | with_reducible refine Within.foldl ?_ ?_
    | with_reducible refine Within.foldlFst ?_ ?_
    | with_reducible refine Within.foldlSnd ?_ ?_
    | dsimp -zeta only
    | split

theorem execKeyDestroy_within {p a slot s} (hk : Sub 131074 k) (hs : Within k r s) :
    OutWithin k r (execKeyDestroy p a slot s) := by
  unfold execKeyDestroy
  repeat' first
    | with_reducible assumption
    | exact hk.of rfl
    | intro _
    | extract_lets
    | with_reducible refine OutWithin.ofNext ?_
    | with_reducible refine State.onClock_within ?_ ?_
    | with_reducible apply State.answer_within
    | with_reducible apply State.deny_within
    | with_reducible apply State.mailbox_within
    | with_reducible apply State.owned_within
    | with_reducible apply State.setSec_within
    | with_reducible refine Within.foldl ?_ ?_
    | with_reducible refine Within.foldlFst ?_ ?_
    | with_reducible refine Within.foldlSnd ?_ ?_
    | dsimp -zeta only
    | split

theorem execModelLoad_within {p a slot imageId t3 src tags dst count s} (hk : Sub 131074 k) (hs : Within k r s) :
    OutWithin k r (execModelLoad p a slot imageId t3 src tags dst count s) := by
  unfold execModelLoad
  repeat' first
    | with_reducible assumption
    | exact hk.of rfl
    | intro _
    | extract_lets
    | with_reducible refine OutWithin.ofNext ?_
    | with_reducible refine State.onClock_within ?_ ?_
    | with_reducible apply State.deny_within
    | with_reducible apply State.mailbox_within
    | with_reducible apply State.owned_within
    | with_reducible apply State.ticketed_within
    | with_reducible refine Within.foldl ?_ ?_
    | with_reducible refine Within.foldlFst ?_ ?_
    | with_reducible refine Within.foldlSnd ?_ ?_
    | dsimp -zeta only
    | split

theorem State.loadRead_within {s t3 a n} (hk : Sub 918 k) (hs : Within k r s) :
    Within k r (State.loadRead s t3 a n).1 := by
  unfold State.loadRead
  repeat' first
    | with_reducible assumption
    | exact hk.of rfl
    | intro _
    | extract_lets
    | with_reducible apply State.agateRead_within
    | with_reducible refine Within.foldl ?_ ?_
    | with_reducible refine Within.foldlFst ?_ ?_
    | with_reducible refine Within.foldlSnd ?_ ?_
    | dsimp -zeta only
    | split

theorem State.loadChunks_within {s key imageId t3 src tags dst count part} (hk : Sub 918 k) (hs : Within k r s) :
    Within k r (State.loadChunks s key imageId t3 src tags dst count part) := by
  unfold State.loadChunks
  repeat' first
    | with_reducible assumption
    | exact hk.of rfl
    | intro _
    | extract_lets
    | with_reducible apply State.loadRead_within
    | with_reducible apply State.writeRun_within
    | with_reducible refine Within.foldl ?_ ?_

theorem State.spoilChunks_within {s dst count part} (hk : Sub 912 k) (hs : Within k r s) :
    Within k r (State.spoilChunks s dst count part) := by
  unfold State.spoilChunks
  repeat' first
    | with_reducible assumption
    | exact hk.of rfl
    | intro _
    | extract_lets
    | with_reducible apply State.writeSector_within
    | with_reducible refine Within.foldl ?_ ?_

theorem execDebugEnable_within {p tokenOk s} (hk : Sub 923602 k) (hs : Within k r s) :
    OutWithin k r (execDebugEnable p tokenOk s) := by
  unfold execDebugEnable
  repeat' first
    | with_reducible assumption
    | exact hk.of rfl
    | intro _
    | extract_lets
    | with_reducible refine OutWithin.ofNext ?_
    | with_reducible refine State.onClock_within ?_ ?_
    | with_reducible apply State.deny_within
    | with_reducible apply State.endSession_within
    | with_reducible apply State.mailbox_within
    | with_reducible apply State.releasePart_within
    | with_reducible apply State.ticketed_within
    | with_reducible refine Within.foldl ?_ ?_
    | with_reducible refine Within.foldlFst ?_ ?_
    | with_reducible refine Within.foldlSnd ?_ ?_
    | dsimp -zeta only
    | split

theorem execCfgkeyFuse_within {p slot revoke digest sigOk s} (hk : Sub 131074 k) (hs : Within k r s) :
    OutWithin k r (execCfgkeyFuse p slot revoke digest sigOk s) := by
  unfold execCfgkeyFuse
  repeat' first
    | with_reducible assumption
    | exact hk.of rfl
    | intro _
    | extract_lets
    | with_reducible refine OutWithin.ofNext ?_
    | with_reducible refine State.onClock_within ?_ ?_
    | with_reducible apply State.deny_within
    | with_reducible apply State.mailbox_within
    | with_reducible apply State.ticketed_within
    | with_reducible refine Within.foldl ?_ ?_
    | with_reducible refine Within.foldlFst ?_ ?_
    | with_reducible refine Within.foldlSnd ?_ ?_
    | dsimp -zeta only
    | split

theorem State.writeDefects_within {s l} (hk : Sub 268435456 k) (hs : Within k r s) :
    Within k r (State.writeDefects s l) := by
  unfold State.writeDefects
  repeat' first
    | with_reducible assumption
    | exact hk.of rfl
    | intro _
    | extract_lets
    | fail_if_no_progress ((with_reducible refine Within.bu ?_ ?_ _); exact hk.of rfl)

theorem execDefectClear_within {p a tokenOk s} (hk : Sub 131074 k) (hs : Within k r s) :
    OutWithin k r (execDefectClear p a tokenOk s) := by
  unfold execDefectClear
  repeat' first
    | with_reducible assumption
    | exact hk.of rfl
    | intro _
    | extract_lets
    | with_reducible refine OutWithin.ofNext ?_
    | with_reducible refine State.onClock_within ?_ ?_
    | with_reducible apply State.deny_within
    | with_reducible apply State.mailbox_within
    | with_reducible apply State.owned_within
    | with_reducible apply State.ticketed_within
    | with_reducible refine Within.foldl ?_ ?_
    | with_reducible refine Within.foldlFst ?_ ?_
    | with_reducible refine Within.foldlSnd ?_ ?_
    | dsimp -zeta only
    | split

theorem State.ticketEffect_within {s t ok w} (hk : Sub 268632983 k) (hs : Within k r s) (he : State.ticketEffect s t ok = some w) :
    Within k r w.1 := by
  unfold State.ticketEffect at he
  simp only at he
  split at he
  · cases he
    exact hs
  · split at he
    · cases he
      exact hs
    · cases he
      exact State.setSec_within (hk.of rfl) (State.draw_within (hk.of rfl) hs)
  · split at he
    · cases he
      exact hs
    · cases he
      exact State.setSec_within (hk.of rfl) hs
  · split at he
    · cases he
    · cases he
      exact hs
  · split at he
    · cases he
      exact State.setSec_within (hk.of rfl) hs
    · cases he
      exact hs
  · split at he
    · split at he
      · cases he
        exact hs
      · split at he
        · cases he
          exact State.loadChunks_within (hk.of rfl) hs
        · cases he
          exact State.spoilChunks_within (hk.of rfl) hs
    · cases he
      exact hs
  · split at he
    · cases he
    · cases he
      have h1 : Within k r ({ s with sec := { s.sec with debugNow := true } } : State) := Within.sec (hk.of rfl) hs _
      exact Within.fusesTo (v := { s.fuses with debugCount := s.fuses.debugCount + 1 }) (hk.of rfl) h1
        ⟨rfl, rfl, rfl, rfl, rfl, Nat.le_add_right _ 1, fun _ h => h⟩
  · split at he
    · cases he
      exact hs
    · split at he
      · cases he
        exact Within.fusesTo (hk.of rfl) hs ⟨rfl, rfl, rfl, rfl, rfl, Nat.le_refl _, fun i hi => bit_setBit_of hi⟩
      · cases he
        exact Within.fusesTo (hk.of rfl) hs ⟨rfl, rfl, rfl, rfl, rfl, Nat.le_refl _, fun i hi => hi⟩
  · cases he
    exact Within.bu (hk.of rfl) (State.writeDefects_within (hk.of rfl) hs) _

theorem execTicketOpComplete_within {id ok s} (hk : Sub 268632983 k) (hs : Within k r s) :
    OutWithin k r (execTicketOpComplete id ok s) := by
  unfold execTicketOpComplete
  repeat' first
    | with_reducible assumption
    | exact hk.of rfl
    | intro _
    | extract_lets
    | with_reducible refine OutWithin.ofNext ?_
    | with_reducible refine State.onClock_within ?_ ?_
    | with_reducible apply State.setSec_within
    | with_reducible apply State.ticketEffect_within
    | with_reducible refine Within.foldl ?_ ?_
    | with_reducible refine Within.foldlFst ?_ ?_
    | with_reducible refine Within.foldlSnd ?_ ?_
    | dsimp -zeta only
    | split

theorem execTicketExpire_within {id s} (hk : Sub 131072 k) (hs : Within k r s) :
    OutWithin k r (execTicketExpire id s) := by
  unfold execTicketExpire
  repeat' first
    | with_reducible assumption
    | exact hk.of rfl
    | intro _
    | extract_lets
    | with_reducible refine OutWithin.ofNext ?_
    | with_reducible refine State.onClock_within ?_ ?_
    | with_reducible apply State.setSec_within

theorem execCollect_within {p id s} (hk : Sub 131074 k) (hs : Within k r s) :
    OutWithin k r (execCollect p id s) := by
  unfold execCollect
  repeat' first
    | with_reducible assumption
    | exact hk.of rfl
    | intro _
    | extract_lets
    | with_reducible refine OutWithin.ofNext ?_
    | with_reducible refine State.onClock_within ?_ ?_
    | with_reducible apply State.answer_within
    | with_reducible apply State.deny_within
    | with_reducible apply State.mailbox_within
    | with_reducible refine Within.foldl ?_ ?_
    | with_reducible refine Within.foldlFst ?_ ?_
    | with_reducible refine Within.foldlSnd ?_ ?_
    | dsimp -zeta only
    | split

end Sys2Proof.Machine
end

