-- ==== Sys2Proof/Laws/Frame/Bringup.lean ====
section
/-! SUPPORT. What the functions of Machine/Bringup.lean may change. -/

namespace Sys2Proof.Machine

variable {k : Nat} {r : State}

theorem State.setBu_within {s b} (hk : Sub 268435456 k) (hs : Within k r s) :
    Within k r (State.setBu s b) := by
  unfold State.setBu
  repeat' first
    | with_reducible assumption
    | exact hk.of rfl
    | intro _
    | extract_lets
    | fail_if_no_progress ((with_reducible refine Within.bu ?_ ?_ _); exact hk.of rfl)

theorem State.forget_within {s node lo len} (hk : Sub 144 k) (hs : Within k r s) :
    Within k r (State.forget s node lo len) := by
  unfold State.forget
  exact Within.poisonFilter (hk.of rfl) (Within.memFilter (hk.of rfl) hs _) _

theorem State.loadCap_within {s n} (hk : Sub 2 k) (hs : Within k r s) :
    Within k r (State.loadCap s n) := by
  unfold State.loadCap
  repeat' first
    | with_reducible assumption
    | exact hk.of rfl
    | intro _
    | extract_lets
    | with_reducible apply State.setO_within
    | with_reducible refine Within.foldl ?_ ?_
    | with_reducible refine Within.foldlFst ?_ ?_
    | with_reducible refine Within.foldlSnd ?_ ?_
    | dsimp -zeta only
    | split

theorem State.loseCore_within {s n c} (hk : Sub 3936402 k) (hs : Within k r s) :
    Within k r (State.loseCore s n c) := by
  unfold State.loseCore
  repeat' first
    | with_reducible assumption
    | exact hk.of rfl
    | intro _
    | extract_lets
    | with_reducible apply State.forget_within
    | with_reducible apply State.loadCap_within
    | with_reducible apply State.resetBlock_within
    | fail_if_no_progress ((with_reducible refine Within.kv ?_ ?_ _); exact hk.of rfl)
    | fail_if_no_progress ((with_reducible refine Within.geo ?_ ?_ _); exact hk.of rfl)
    | fail_if_no_progress ((with_reducible refine Within.seq ?_ ?_ _); exact hk.of rfl)
    | fail_if_no_progress ((with_reducible refine Within.sched ?_ ?_ _); exact hk.of rfl)
    | with_reducible refine Within.foldl ?_ ?_
    | with_reducible refine Within.foldlFst ?_ ?_
    | with_reducible refine Within.foldlSnd ?_ ?_
    | dsimp -zeta only
    | split
    | with_reducible refine Within.ofFst ?_ (by assumption)
    | with_reducible refine Within.ofSnd ?_ (by assumption)
    | with_reducible refine Within.ofSome ?_ (by assumption)
    | dsimp -zeta +zetaDelta only

theorem State.loseWays_within {s n mask} (hk : Sub 400 k) (hs : Within k r s) :
    Within k r (State.loseWays s n mask) := by
  unfold State.loseWays
  repeat' first
    | with_reducible assumption
    | exact hk.of rfl
    | intro _
    | extract_lets
    | fail_if_no_progress ((with_reducible refine Within.t1Filter ?_ ?_ _); exact hk.of rfl)
    | with_reducible apply State.forget_within
    | with_reducible refine Within.foldl ?_ ?_

theorem State.loseT2_within {s n} (hk : Sub 262320 k) (hs : Within k r s) : Within k r (State.loseT2 s n) := by
  unfold State.loseT2
  extract_lets inside
  refine Within.kv (hk.of rfl) (Within.poisonFilter (hk.of rfl)
    (Within.scrambledKeep (hk.of rfl) hs (fun c hc => ?_) tsorted_filter) _) _
  rw [List.mem_filter] at hc
  refine ⟨hc.1, State.blank_congr fun h4 h36 => tfind_tkeep (p := fun i => i / 256 != n) ?_⟩
  have hne : c.1 < glob n 0 ∨ glob n 0x1000000000 ≤ c.1 := by
    have h := hc.2
    simp only [inside, Bool.not_eq_true', Bool.and_eq_false_iff, decide_eq_false_iff_not] at h
    omega
  simp only [glob] at hne
  simp only [bne_iff_ne, ne_eq]
  omega

theorem State.loseDomain_within {s d} (hk : Sub 117356535 k) (hs : Within k r s) :
    Within k r (State.loseDomain s d) := by
  unfold State.loseDomain
  repeat' first
    | with_reducible assumption
    | exact hk.of rfl
    | intro _
    | extract_lets
    | with_reducible apply State.forget_within
    | with_reducible apply State.hostGone_within
    | with_reducible apply State.loseCore_within
    | with_reducible apply State.loseT2_within
    | with_reducible apply State.loseWays_within
    | with_reducible apply State.resetBeryl_within
    | with_reducible apply State.resetBlock_within
    | with_reducible apply State.resetReflex_within
    | fail_if_no_progress ((with_reducible refine Within.ing ?_ ?_ _); exact hk.of rfl)
    | fail_if_no_progress ((with_reducible refine Within.ecat ?_ ?_ _); exact hk.of rfl)
    | with_reducible refine Within.foldl ?_ ?_
    | with_reducible refine Within.foldlFst ?_ ?_
    | with_reducible refine Within.foldlSnd ?_ ?_
    | dsimp -zeta only
    | split

theorem State.setDom_within {s d v} (hk : Sub 2048 k) (hs : Within k r s) :
    Within k r (State.setDom s d v) := by
  unfold State.setDom
  repeat' first
    | with_reducible assumption
    | exact hk.of rfl
    | intro _
    | extract_lets
    | fail_if_no_progress ((with_reducible refine Within.pkg ?_ ?_ _); exact hk.of rfl)

theorem State.domainUp_within {s d} (hk : Sub 144706194 k) (hs : Within k r s) :
    Within k r (State.domainUp s d) := by
  unfold State.domainUp
  repeat' first
    | with_reducible assumption
    | exact hk.of rfl
    | intro _
    | extract_lets
    | with_reducible apply State.loadClocks_within
    | with_reducible apply State.resetBeryl_within
    | with_reducible apply State.resetReflex_within
    | with_reducible apply State.setDom_within
    | with_reducible apply State.setPwr_within
    | fail_if_no_progress ((with_reducible refine Within.plru ?_ ?_ _); exact hk.of rfl)
    | with_reducible refine Within.foldl ?_ ?_
    | with_reducible refine Within.foldlFst ?_ ?_
    | with_reducible refine Within.foldlSnd ?_ ?_
    | dsimp -zeta only
    | split
    | with_reducible refine Within.ofFst ?_ (by assumption)
    | with_reducible refine Within.ofSnd ?_ (by assumption)
    | with_reducible refine Within.ofSome ?_ (by assumption)
    | dsimp -zeta +zetaDelta only

theorem State.switchNext_within {s} (hk : Sub 117358583 k) (hs : Within k r s) :
    Within k r (State.switchNext s) := by
  unfold State.switchNext
  repeat' first
    | with_reducible assumption
    | exact hk.of rfl
    | intro _
    | extract_lets
    | with_reducible apply State.loseDomain_within
    | with_reducible apply State.setDom_within
    | with_reducible refine Within.foldl ?_ ?_
    | with_reducible refine Within.foldlFst ?_ ?_
    | with_reducible refine Within.foldlSnd ?_ ?_
    | dsimp -zeta only
    | split

theorem State.buSettle_within {s st result} (hk : Sub 268435456 k) (hs : Within k r s) :
    Within k r (State.buSettle s st result) := by
  unfold State.buSettle
  repeat' first
    | with_reducible assumption
    | exact hk.of rfl
    | intro _
    | extract_lets
    | with_reducible apply State.setBu_within
    | with_reducible refine Within.foldl ?_ ?_
    | with_reducible refine Within.foldlFst ?_ ?_
    | with_reducible refine Within.foldlSnd ?_ ?_
    | dsimp -zeta only
    | split

theorem State.buBegin_within {s origin op arg} (hk : Sub 268435458 k) (hs : Within k r s) :
    Within k r (State.buBegin s origin op arg) := by
  unfold State.buBegin
  repeat' first
    | with_reducible assumption
    | exact hk.of rfl
    | intro _
    | extract_lets
    | with_reducible apply State.set_within
    | with_reducible apply State.setBu_within

theorem State.buErr_within {s} (hk : Sub 2 k) (hs : Within k r s) :
    Within k r (State.buErr s) := by
  unfold State.buErr
  repeat' first
    | with_reducible assumption
    | exact hk.of rfl
    | intro _
    | extract_lets
    | with_reducible apply State.set_within

theorem State.buWrite_within {s op arg act} (hk : Sub 268435458 k) (hs : Within k r s) (hact : ∀ u0, Within k r u0 → Within k r (act u0)) :
    Within k r (State.buWrite s op arg act) := by
  unfold State.buWrite
  repeat' first
    | with_reducible assumption
    | exact hk.of rfl
    | intro _
    | extract_lets
    | with_reducible apply hact
    | with_reducible apply State.buBegin_within
    | with_reducible apply State.buErr_within
    | with_reducible apply State.set_within
    | with_reducible refine Within.foldl ?_ ?_
    | with_reducible refine Within.foldlFst ?_ ?_
    | with_reducible refine Within.foldlSnd ?_ ?_
    | dsimp -zeta only
    | split

theorem State.buFinish_within {s} (hk : Sub 268436486 k) (hs : Within k r s) :
    Within k r (State.buFinish s) := by
  unfold State.buFinish
  repeat' first
    | with_reducible assumption
    | exact hk.of rfl
    | intro _
    | extract_lets
    | with_reducible apply State.emit_within
    | with_reducible apply State.set_within
    | with_reducible apply State.setBu_within
    | with_reducible apply State.setObj_within
    | with_reducible refine Within.foldl ?_ ?_
    | with_reducible refine Within.foldlFst ?_ ?_
    | with_reducible refine Within.foldlSnd ?_ ?_
    | dsimp -zeta only
    | split
    | with_reducible refine Within.ofFst ?_ (by assumption)
    | with_reducible refine Within.ofSnd ?_ (by assumption)
    | with_reducible refine Within.ofSome ?_ (by assumption)
    | dsimp -zeta +zetaDelta only

theorem execBuStepComplete_within {s} (hk : Sub 268436486 k) (hs : Within k r s) :
    OutWithin k r (execBuStepComplete s) := by
  unfold execBuStepComplete
  repeat' first
    | with_reducible assumption
    | exact hk.of rfl
    | intro _
    | extract_lets
    | with_reducible refine OutWithin.ofNext ?_
    | with_reducible refine State.onClock_within ?_ ?_
    | with_reducible apply State.buFinish_within
    | with_reducible refine Within.foldl ?_ ?_
    | with_reducible refine Within.foldlFst ?_ ?_
    | with_reducible refine Within.foldlSnd ?_ ?_
    | dsimp -zeta only
    | split

theorem State.buStep_within {s x1 arg argBits pre act} (hk : Sub 268435458 k) (hs : Within k r s) (hact : ∀ u0, Within k r u0 → Within k r (act u0)) :
    Within k r (State.buStep s x1 arg argBits pre act) := by
  unfold State.buStep
  repeat' first
    | with_reducible assumption
    | exact hk.of rfl
    | intro _
    | extract_lets
    | with_reducible apply hact
    | with_reducible apply State.buSettle_within
    | with_reducible apply State.buWrite_within
    | with_reducible apply State.setBu_within
    | with_reducible refine Within.foldl ?_ ?_
    | with_reducible refine Within.foldlFst ?_ ?_
    | with_reducible refine Within.foldlSnd ?_ ?_
    | dsimp -zeta only
    | split

theorem State.domainsAct_within {s mask up} (hk : Sub 385794039 k) (hs : Within k r s) :
    Within k r (State.domainsAct s mask up) := by
  unfold State.domainsAct
  repeat' first
    | with_reducible assumption
    | exact hk.of rfl
    | intro _
    | extract_lets
    | with_reducible apply State.buSettle_within
    | with_reducible apply State.switchNext_within
    | fail_if_no_progress ((with_reducible refine Within.pkg ?_ ?_ _); exact hk.of rfl)
    | with_reducible refine Within.foldl ?_ ?_
    | with_reducible refine Within.foldlFst ?_ ?_
    | with_reducible refine Within.foldlSnd ?_ ?_
    | dsimp -zeta only
    | split

theorem execDomains_within {arg s} (hk : Sub 385794039 k) (hs : Within k r s) :
    OutWithin k r (execDomains arg s) := by
  unfold execDomains
  repeat' first
    | with_reducible assumption
    | exact hk.of rfl
    | intro _
    | extract_lets
    | with_reducible refine OutWithin.ofNext ?_
    | with_reducible refine State.onClock_within ?_ ?_
    | with_reducible apply State.buStep_within
    | with_reducible apply State.domainsAct_within

theorem execDomainSwitchDone_within {s} (hk : Sub 520011767 k) (hs : Within k r s) :
    OutWithin k r (execDomainSwitchDone s) := by
  unfold execDomainSwitchDone
  repeat' first
    | with_reducible assumption
    | exact hk.of rfl
    | intro _
    | extract_lets
    | with_reducible refine OutWithin.ofNext ?_
    | with_reducible refine State.onClock_within ?_ ?_
    | with_reducible apply State.buSettle_within
    | with_reducible apply State.domainUp_within
    | with_reducible apply State.setDom_within
    | with_reducible apply State.switchNext_within
    | fail_if_no_progress ((with_reducible refine Within.pkg ?_ ?_ _); exact hk.of rfl)
    | with_reducible refine Within.foldl ?_ ?_
    | with_reducible refine Within.foldlFst ?_ ?_
    | with_reducible refine Within.foldlSnd ?_ ?_
    | dsimp -zeta only
    | split
    | with_reducible refine Within.ofFst ?_ (by assumption)
    | with_reducible refine Within.ofSnd ?_ (by assumption)
    | with_reducible refine Within.ofSome ?_ (by assumption)
    | dsimp -zeta +zetaDelta only

theorem execRootPll_within {arg locks s} (hk : Sub 268435458 k) (hs : Within k r s) :
    OutWithin k r (execRootPll arg locks s) := by
  unfold execRootPll
  repeat' first
    | with_reducible assumption
    | exact hk.of rfl
    | intro _
    | extract_lets
    | with_reducible refine OutWithin.ofNext ?_
    | with_reducible refine State.onClock_within ?_ ?_
    | with_reducible apply State.buSettle_within
    | with_reducible apply State.buStep_within
    | with_reducible apply State.set_within
    | with_reducible refine Within.foldl ?_ ?_
    | with_reducible refine Within.foldlFst ?_ ?_
    | with_reducible refine Within.foldlSnd ?_ ?_
    | dsimp -zeta only
    | split

theorem execFuseLoad_within {arg agateOk bad s} (hk : Sub 402653186 k) (hs : Within k r s) :
    OutWithin k r (execFuseLoad arg agateOk bad s) := by
  unfold execFuseLoad
  repeat' first
    | with_reducible assumption
    | exact hk.of rfl
    | intro _
    | extract_lets
    | with_reducible refine OutWithin.ofNext ?_
    | with_reducible refine State.onClock_within ?_ ?_
    | with_reducible apply State.buSettle_within
    | with_reducible apply State.buStep_within
    | with_reducible apply State.loadClocks_within
    | with_reducible apply State.setBu_within
    | with_reducible refine Within.foldl ?_ ?_

theorem State.testNodes_within {s nodes x2} (hk : Sub 268435460 k) (hs : Within k r s) :
    Within k r (State.testNodes s nodes x2).1 := by
  unfold State.testNodes
  repeat' first
    | with_reducible assumption
    | exact hk.of rfl
    | intro _
    | extract_lets
    | with_reducible apply State.setBu_within
    | with_reducible apply State.setObj_within
    | with_reducible apply State.writeDefects_within
    | with_reducible refine Within.foldl ?_ ?_
    | with_reducible refine Within.foldlFst ?_ ?_
    | with_reducible refine Within.foldlSnd ?_ ?_
    | dsimp -zeta only
    | split
    | with_reducible refine Within.ofFst ?_ (by assumption)
    | with_reducible refine Within.ofSnd ?_ (by assumption)
    | with_reducible refine Within.ofSome ?_ (by assumption)
    | dsimp -zeta +zetaDelta only

theorem execStartTest_within {arg x1 s} (hk : Sub 268435462 k) (hs : Within k r s) :
    OutWithin k r (execStartTest arg x1 s) := by
  unfold execStartTest
  repeat' first
    | with_reducible assumption
    | exact hk.of rfl
    | intro _
    | extract_lets
    | with_reducible refine OutWithin.ofNext ?_
    | with_reducible refine State.onClock_within ?_ ?_
    | with_reducible apply State.buSettle_within
    | with_reducible apply State.buStep_within
    | with_reducible apply State.set_within
    | with_reducible apply State.setBu_within
    | with_reducible apply State.testNodes_within

theorem State.fmaxDie_within {s n speeds} (hk : Sub 134283266 k) (hs : Within k r s) :
    Within k r (State.fmaxDie s n speeds).1 := by
  unfold State.fmaxDie
  extract_lets one r
  refine State.loadClocks_within (hk.of rfl) (Within.foldlFst hs fun u x hu => ?_)
  simp only [one]
  exact Within.fusesTo (hk.of rfl) hu ⟨rfl, rfl, rfl, rfl, rfl, Nat.le_refl _, fun _ h => h⟩

theorem execFmax_within {arg x1 s} (hk : Sub 402718722 k) (hs : Within k r s) :
    OutWithin k r (execFmax arg x1 s) := by
  unfold execFmax
  repeat' first
    | with_reducible assumption
    | exact hk.of rfl
    | intro _
    | extract_lets
    | with_reducible refine OutWithin.ofNext ?_
    | with_reducible refine State.onClock_within ?_ ?_
    | with_reducible apply State.buSettle_within
    | with_reducible apply State.buStep_within
    | with_reducible apply State.fmaxDie_within
    | with_reducible apply State.setBu_within
    | with_reducible refine Within.foldl ?_ ?_
    | with_reducible refine Within.foldlFst ?_ ?_

theorem execDiscover_within {arg trained half info s} (hk : Sub 268468226 k) (hs : Within k r s) :
    OutWithin k r (execDiscover arg trained half info s) := by
  unfold execDiscover
  repeat' first
    | with_reducible assumption
    | exact hk.of rfl
    | intro _
    | extract_lets
    | with_reducible refine OutWithin.ofNext ?_
    | with_reducible refine State.onClock_within ?_ ?_
    | with_reducible apply State.buSettle_within
    | with_reducible apply State.buStep_within
    | with_reducible apply State.set_within
    | with_reducible apply State.setLink_within
    | fail_if_no_progress ((with_reducible refine Within.fabric ?_ ?_ _); exact hk.of rfl)
    | with_reducible refine Within.foldl ?_ ?_
    | with_reducible refine Within.foldlFst ?_ ?_
    | with_reducible refine Within.foldlSnd ?_ ?_
    | dsimp -zeta only
    | split

theorem State.setComponent_within {s i c} (hk : Sub 268435456 k) (hs : Within k r s) :
    Within k r (State.setComponent s i c) := by
  unfold State.setComponent
  repeat' first
    | with_reducible assumption
    | exact hk.of rfl
    | intro _
    | extract_lets
    | with_reducible apply State.setBu_within

theorem State.loadOnyx_within {s n unverified} (hk : Sub 268435456 k) (hs : Within k r s) :
    Within k r (State.loadOnyx s n unverified) := by
  unfold State.loadOnyx
  repeat' first
    | with_reducible assumption
    | exact hk.of rfl
    | intro _
    | extract_lets
    | with_reducible apply State.setBu_within
    | with_reducible apply State.setComponent_within
    | with_reducible refine Within.foldl ?_ ?_
    | with_reducible refine Within.foldlFst ?_ ?_
    | with_reducible refine Within.foldlSnd ?_ ?_
    | dsimp -zeta only
    | split

theorem State.loadStep_within {unverified acc i} (hk : Sub 402653184 k) (hacc : Within k r acc.1) :
    Within k r (State.loadStep unverified acc i).1 := by
  unfold State.loadStep
  repeat' first
    | with_reducible assumption
    | exact hk.of rfl
    | intro _
    | extract_lets
    | with_reducible apply State.setBu_within
    | with_reducible apply State.setComponent_within
    | with_reducible apply State.setPwr_within
    | with_reducible refine Within.foldl ?_ ?_
    | with_reducible refine Within.foldlFst ?_ ?_
    | with_reducible refine Within.foldlSnd ?_ ?_
    | dsimp -zeta only
    | split
    | with_reducible refine Within.ofFst ?_ (by assumption)
    | with_reducible refine Within.ofSnd ?_ (by assumption)
    | with_reducible refine Within.ofSome ?_ (by assumption)
    | dsimp -zeta +zetaDelta only

theorem execFwLoad_within {arg unverified s} (hk : Sub 402653186 k) (hs : Within k r s) :
    OutWithin k r (execFwLoad arg unverified s) := by
  unfold execFwLoad
  repeat' first
    | with_reducible assumption
    | exact hk.of rfl
    | intro _
    | extract_lets
    | with_reducible refine OutWithin.ofNext ?_
    | with_reducible refine State.onClock_within ?_ ?_
    | with_reducible apply State.buSettle_within
    | with_reducible apply State.buStep_within
    | with_reducible apply State.loadStep_within
    | with_reducible refine Within.foldl ?_ ?_
    | with_reducible refine Within.foldlFst ?_ ?_

theorem State.injectCounts_within {s pass} (hk : Sub 6 k) (hs : Within k r s) :
    Within k r (State.injectCounts s pass) := by
  unfold State.injectCounts
  repeat' first
    | with_reducible assumption
    | exact hk.of rfl
    | intro _
    | extract_lets
    | with_reducible apply State.countO_within
    | with_reducible apply State.countPacket_within
    | with_reducible apply State.setObj_within
    | with_reducible refine Within.foldl ?_ ?_
    | with_reducible refine Within.foldlFst ?_ ?_
    | with_reducible refine Within.foldlSnd ?_ ?_
    | dsimp -zeta only
    | split
    | with_reducible refine Within.ofFst ?_ (by assumption)
    | with_reducible refine Within.ofSnd ?_ (by assumption)
    | with_reducible refine Within.ofSome ?_ (by assumption)
    | dsimp -zeta +zetaDelta only

theorem execInject_within {arg pass s} (hk : Sub 268435462 k) (hs : Within k r s) :
    OutWithin k r (execInject arg pass s) := by
  unfold execInject
  repeat' first
    | with_reducible assumption
    | exact hk.of rfl
    | intro _
    | extract_lets
    | with_reducible refine OutWithin.ofNext ?_
    | with_reducible refine State.onClock_within ?_ ?_
    | with_reducible apply State.buSettle_within
    | with_reducible apply State.buStep_within
    | with_reducible apply State.injectCounts_within
    | with_reducible apply State.set_within

theorem execOutputEnable_within {arg s} (hk : Sub 285212674 k) (hs : Within k r s) :
    OutWithin k r (execOutputEnable arg s) := by
  unfold execOutputEnable
  repeat' first
    | with_reducible assumption
    | exact hk.of rfl
    | intro _
    | extract_lets
    | with_reducible refine OutWithin.ofNext ?_
    | with_reducible refine State.onClock_within ?_ ?_
    | with_reducible apply State.buSettle_within
    | with_reducible apply State.buStep_within
    | with_reducible apply State.enableGuarded_within

end Sys2Proof.Machine
end

