-- ==== Sys2Proof/Laws/Frame/Reset.lean ====
section
/-! SUPPORT. What the functions of Machine/Reset.lean may change. -/

namespace Sys2Proof.Machine

variable {k : Nat} {r : State}

theorem State.poisonRest_within {s n c got x} (hk : Sub 915 k) (hs : Within k r s) :
    Within k r (State.poisonRest s n c got x) := by
  unfold State.poisonRest
  repeat' first
    | with_reducible assumption
    | exact hk.of rfl
    | intro _
    | extract_lets
    | with_reducible refine PlanWithin.plan ?_ _ (by assumption)
    | with_reducible apply State.planOf_within
    | with_reducible apply State.poisonAll_within
    | with_reducible refine Within.foldl ?_ ?_
    | with_reducible refine Within.foldlFst ?_ ?_
    | with_reducible refine Within.foldlSnd ?_ ?_
    | dsimp -zeta only
    | split

theorem State.absorbCore_within {s n c got} (hk : Sub 825299 k) (hs : Within k r s) :
    Within k r (State.absorbCore s n c got) := by
  unfold State.absorbCore
  repeat' first
    | with_reducible assumption
    | exact hk.of rfl
    | intro _
    | extract_lets
    | with_reducible apply State.completeOne_within
    | with_reducible apply State.endCut_within
    | with_reducible apply State.poisonRest_within
    | with_reducible apply State.settleWaits_within
    | with_reducible refine Within.foldl ?_ ?_

theorem State.preemptNamed_within {s n c} (hk : Sub 792530 k) (hs : Within k r s) :
    Within k r (State.preemptNamed s n c) := by
  unfold State.preemptNamed
  repeat' first
    | with_reducible assumption
    | exact hk.of rfl
    | intro _
    | extract_lets
    | with_reducible apply State.completeOne_within
    | with_reducible apply State.settleWaits_within
    | with_reducible refine Within.foldl ?_ ?_

theorem State.setReset_within {s j} (hk : Sub 268435456 k) (hs : Within k r s) :
    Within k r (State.setReset s j) := by
  unfold State.setReset
  repeat' first
    | with_reducible assumption
    | exact hk.of rfl
    | intro _
    | extract_lets
    | with_reducible apply State.setBu_within

theorem State.coreReset_within {s a got} (hk : Sub 269260755 k) (hs : Within k r s) :
    Within k r (State.coreReset s a got) := by
  unfold State.coreReset
  repeat' first
    | with_reducible assumption
    | exact hk.of rfl
    | intro _
    | extract_lets
    | with_reducible apply State.absorbCore_within
    | with_reducible apply State.buSettle_within
    | with_reducible apply State.setReset_within
    | with_reducible refine Within.foldl ?_ ?_
    | with_reducible refine Within.foldlFst ?_ ?_
    | with_reducible refine Within.foldlSnd ?_ ?_
    | dsimp -zeta only
    | split

theorem State.dieReset_within {s a got} (hk : Sub 270309330 k) (hs : Within k r s) :
    Within k r (State.dieReset s a got) := by
  unfold State.dieReset
  repeat' first
    | with_reducible assumption
    | exact hk.of rfl
    | intro _
    | extract_lets
    | with_reducible apply State.buSettle_within
    | with_reducible apply State.fence_within
    | with_reducible apply State.setReset_within
    | with_reducible refine Within.foldl ?_ ?_
    | with_reducible refine Within.foldlFst ?_ ?_
    | with_reducible refine Within.foldlSnd ?_ ?_
    | dsimp -zeta only
    | split

theorem State.endPart_within {s q} (hk : Sub 923602 k) (hs : Within k r s) :
    Within k r (State.endPart s q) := by
  unfold State.endPart
  repeat' first
    | with_reducible assumption
    | exact hk.of rfl
    | intro _
    | extract_lets
    | with_reducible apply State.abortCtx_within
    | with_reducible apply State.releasePart_within
    | with_reducible refine Within.foldl ?_ ?_

theorem State.partReset_within {s a} (hk : Sub 269359058 k) (hs : Within k r s) :
    Within k r (State.partReset s a) := by
  unfold State.partReset
  repeat' first
    | with_reducible assumption
    | exact hk.of rfl
    | intro _
    | extract_lets
    | with_reducible apply State.buSettle_within
    | with_reducible apply State.endPart_within
    | with_reducible apply State.haltCtx_within
    | with_reducible apply State.setReset_within
    | with_reducible refine Within.foldl ?_ ?_
    | with_reducible refine Within.foldlFst ?_ ?_
    | with_reducible refine Within.foldlSnd ?_ ?_
    | dsimp -zeta only
    | split

theorem State.packageReset_within {s} (hk : Sub 536804286 k) (hs : Within k r s) : Within k r (State.packageReset s) := by
  unfold State.packageReset
  extract_lets keep q
  refine State.boundRate_within (hk.of rfl) (Within.foldl (Within.change hk hs rfl ⟨Nat.le_refl _, List.prefix_refl _, s.fuses.kept_refl⟩
    (fun w => State.wf_of w (fun _ => rfl) id (fun _ => rfl) (fun _ => rfl) (fun _ => rfl) (fun _ => rfl) (fun _ _ h => nomatch h)) ?_)
    (fun u f hu => State.set_within (hk.of rfl) hu))
  intro p hp
  cases p <;> first | rfl | exact absurd hp (by decide)

theorem State.resetAct_within {s a got} (hk : Sub 536805375 k) (hs : Within k r s) :
    Within k r (State.resetAct s a got) := by
  unfold State.resetAct
  repeat' first
    | with_reducible assumption
    | exact hk.of rfl
    | intro _
    | extract_lets
    | with_reducible apply State.buSettle_within
    | with_reducible apply State.coreReset_within
    | with_reducible apply State.dieReset_within
    | with_reducible apply State.packageReset_within
    | with_reducible apply State.partReset_within
    | with_reducible refine Within.foldl ?_ ?_
    | with_reducible refine Within.foldlFst ?_ ?_
    | with_reducible refine Within.foldlSnd ?_ ?_
    | dsimp -zeta only
    | split

theorem execCoreReset_within {arg got s} (hk : Sub 536805375 k) (hs : Within k r s) :
    OutWithin k r (execCoreReset arg got s) := by
  unfold execCoreReset
  repeat' first
    | with_reducible assumption
    | exact hk.of rfl
    | intro _
    | extract_lets
    | with_reducible refine OutWithin.ofNext ?_
    | with_reducible refine State.onClock_within ?_ ?_
    | with_reducible apply State.buWrite_within
    | with_reducible apply State.resetAct_within

theorem execDieReset_within {arg got s} (hk : Sub 536805375 k) (hs : Within k r s) :
    OutWithin k r (execDieReset arg got s) := by
  unfold execDieReset
  repeat' first
    | with_reducible assumption
    | exact hk.of rfl
    | intro _
    | extract_lets
    | with_reducible refine OutWithin.ofNext ?_
    | with_reducible refine State.onClock_within ?_ ?_
    | with_reducible apply State.buWrite_within
    | with_reducible apply State.resetAct_within

theorem execPartitionReset_within {arg s} (hk : Sub 536805375 k) (hs : Within k r s) :
    OutWithin k r (execPartitionReset arg s) := by
  unfold execPartitionReset
  repeat' first
    | with_reducible assumption
    | exact hk.of rfl
    | intro _
    | extract_lets
    | with_reducible refine OutWithin.ofNext ?_
    | with_reducible refine State.onClock_within ?_ ?_
    | with_reducible apply State.buWrite_within
    | with_reducible apply State.resetAct_within

theorem execPackageReset_within {arg s} (hk : Sub 536805375 k) (hs : Within k r s) :
    OutWithin k r (execPackageReset arg s) := by
  unfold execPackageReset
  repeat' first
    | with_reducible assumption
    | exact hk.of rfl
    | intro _
    | extract_lets
    | with_reducible refine OutWithin.ofNext ?_
    | with_reducible refine State.onClock_within ?_ ?_
    | with_reducible apply State.buWrite_within
    | with_reducible apply State.resetAct_within

theorem execResetDrainTimeout_within {got s} (hk : Sub 270440403 k) (hs : Within k r s) :
    OutWithin k r (execResetDrainTimeout got s) := by
  unfold execResetDrainTimeout
  repeat' first
    | with_reducible assumption
    | exact hk.of rfl
    | intro _
    | extract_lets
    | with_reducible refine OutWithin.ofNext ?_
    | with_reducible refine State.onClock_within ?_ ?_
    | with_reducible apply State.absorbCore_within
    | with_reducible apply State.endPart_within
    | with_reducible apply State.fence_within
    | with_reducible apply State.setReset_within
    | with_reducible refine Within.foldl ?_ ?_
    | with_reducible refine Within.foldlFst ?_ ?_
    | with_reducible refine Within.foldlSnd ?_ ?_
    | dsimp -zeta only
    | split

theorem State.dieTested_within {s n ok unverified} (hk : Sub 268468224 k) (hs : Within k r s) :
    Within k r (State.dieTested s n ok unverified) := by
  unfold State.dieTested
  repeat' first
    | with_reducible assumption
    | exact hk.of rfl
    | intro _
    | extract_lets
    | with_reducible apply State.loadOnyx_within
    | with_reducible apply State.setBu_within
    | fail_if_no_progress ((with_reducible refine Within.fabric ?_ ?_ _); exact hk.of rfl)
    | with_reducible refine Within.foldl ?_ ?_
    | with_reducible refine Within.foldlFst ?_ ?_
    | with_reducible refine Within.foldlSnd ?_ ?_
    | dsimp -zeta only
    | split

theorem State.powerCycle_within {s n} (hk : Sub 520011767 k) (hs : Within k r s) :
    Within k r (State.powerCycle s n) := by
  unfold State.powerCycle
  repeat' first
    | with_reducible assumption
    | exact hk.of rfl
    | intro _
    | extract_lets
    | with_reducible apply State.domainUp_within
    | with_reducible apply State.loseDomain_within
    | with_reducible apply State.setBu_within
    | with_reducible refine Within.foldl ?_ ?_

theorem State.cycleDie_within {s n x2} (hk : Sub 520077303 k) (hs : Within k r s) :
    Within k r (State.cycleDie s n x2).1 := by
  unfold State.cycleDie
  repeat' first
    | with_reducible assumption
    | exact hk.of rfl
    | intro _
    | extract_lets
    | with_reducible apply State.dieTested_within
    | with_reducible apply State.fmaxDie_within
    | with_reducible apply State.powerCycle_within
    | with_reducible apply State.testNodes_within

theorem State.resetEnds_within {s st result} (hk : Sub 268436486 k) (hs : Within k r s) :
    Within k r (State.resetEnds s st result) := by
  unfold State.resetEnds
  repeat' first
    | with_reducible assumption
    | exact hk.of rfl
    | intro _
    | extract_lets
    | with_reducible apply State.buFinish_within
    | with_reducible apply State.buSettle_within
    | with_reducible apply State.setReset_within

theorem State.coverQueued_within {s n} (hk : Sub 268435460 k) (hs : Within k r s) :
    Within k r (State.coverQueued s n) := by
  unfold State.coverQueued
  repeat' first
    | with_reducible assumption
    | exact hk.of rfl
    | intro _
    | extract_lets
    | with_reducible apply State.setBu_within
    | with_reducible apply State.setObj_within
    | with_reducible refine Within.foldl ?_ ?_
    | with_reducible refine Within.foldlFst ?_ ?_
    | with_reducible refine Within.foldlSnd ?_ ?_
    | dsimp -zeta only
    | split

theorem execResetComplete_within {x0 s} (hk : Sub 520077303 k) (hs : Within k r s) :
    OutWithin k r (execResetComplete x0 s) := by
  unfold execResetComplete
  repeat' first
    | with_reducible assumption
    | exact hk.of rfl
    | intro _
    | extract_lets
    | with_reducible refine OutWithin.ofNext ?_
    | with_reducible refine State.onClock_within ?_ ?_
    | with_reducible apply State.coverQueued_within
    | with_reducible apply State.cycleDie_within
    | with_reducible apply State.drainStep_within
    | with_reducible apply State.endPart_within
    | with_reducible apply State.fence_within
    | with_reducible apply State.loseCore_within
    | with_reducible apply State.preemptNamed_within
    | with_reducible apply State.resetEnds_within
    | with_reducible apply State.setReset_within
    | with_reducible refine Within.foldl ?_ ?_
    | with_reducible refine Within.foldlFst ?_ ?_
    | with_reducible refine Within.foldlSnd ?_ ?_
    | dsimp -zeta only
    | split
    | with_reducible refine Within.ofFst ?_ (by assumption)
    | with_reducible refine Within.ofSnd ?_ (by assumption)
    | with_reducible refine Within.ofSome ?_ (by assumption)
    | dsimp -zeta +zetaDelta only

theorem State.startRequest_within {s origin v got} (hk : Sub 536805375 k) (hs : Within k r s) :
    Within k r (State.startRequest s origin v got) := by
  unfold State.startRequest
  repeat' first
    | with_reducible assumption
    | exact hk.of rfl
    | intro _
    | extract_lets
    | with_reducible apply State.buBegin_within
    | with_reducible apply State.buSettle_within
    | with_reducible apply State.domainsAct_within
    | with_reducible apply State.resetAct_within
    | with_reducible refine Within.foldl ?_ ?_
    | with_reducible refine Within.foldlFst ?_ ?_
    | with_reducible refine Within.foldlSnd ?_ ?_
    | dsimp -zeta only
    | split

theorem State.queueRequest_within {s origin v} (hk : Sub 536805375 k) (hs : Within k r s) :
    Within k r (State.queueRequest s origin v).1 := by
  unfold State.queueRequest
  repeat' first
    | with_reducible assumption
    | exact hk.of rfl
    | intro _
    | extract_lets
    | with_reducible apply State.setBu_within
    | with_reducible apply State.startRequest_within
    | with_reducible refine Within.foldl ?_ ?_
    | with_reducible refine Within.foldlFst ?_ ?_
    | with_reducible refine Within.foldlSnd ?_ ?_
    | dsimp -zeta only
    | split

theorem execDomainRequest_within {src val s} (hk : Sub 536805375 k) (hs : Within k r s) :
    OutWithin k r (execDomainRequest src val s) := by
  unfold execDomainRequest
  repeat' first
    | with_reducible assumption
    | exact hk.of rfl
    | intro _
    | extract_lets
    | with_reducible refine OutWithin.ofNext ?_
    | with_reducible refine State.onClock_within ?_ ?_
    | with_reducible apply State.denyWrite_within
    | with_reducible apply State.queueRequest_within
    | with_reducible refine Within.foldl ?_ ?_
    | with_reducible refine Within.foldlFst ?_ ?_
    | with_reducible refine Within.foldlSnd ?_ ?_
    | dsimp -zeta only
    | split

theorem execResetRequest_within {src val s} (hk : Sub 536805375 k) (hs : Within k r s) :
    OutWithin k r (execResetRequest src val s) := by
  unfold execResetRequest
  repeat' first
    | with_reducible assumption
    | exact hk.of rfl
    | intro _
    | extract_lets
    | with_reducible refine OutWithin.ofNext ?_
    | with_reducible refine State.onClock_within ?_ ?_
    | with_reducible apply State.denyWrite_within
    | with_reducible apply State.queueRequest_within
    | with_reducible refine Within.foldl ?_ ?_
    | with_reducible refine Within.foldlFst ?_ ?_
    | with_reducible refine Within.foldlSnd ?_ ?_
    | dsimp -zeta only
    | split

theorem execBuQueuedRequestStart_within {got s} (hk : Sub 536805375 k) (hs : Within k r s) :
    OutWithin k r (execBuQueuedRequestStart got s) := by
  unfold execBuQueuedRequestStart
  repeat' first
    | with_reducible assumption
    | exact hk.of rfl
    | intro _
    | extract_lets
    | with_reducible refine OutWithin.ofNext ?_
    | with_reducible refine State.onClock_within ?_ ?_
    | with_reducible apply State.setBu_within
    | with_reducible apply State.startRequest_within
    | with_reducible refine Within.foldl ?_ ?_
    | with_reducible refine Within.foldlFst ?_ ?_
    | with_reducible refine Within.foldlSnd ?_ ?_
    | dsimp -zeta only
    | split

theorem State.setShut_within {s j} (hk : Sub 268435456 k) (hs : Within k r s) :
    Within k r (State.setShut s j) := by
  unfold State.setShut
  repeat' first
    | with_reducible assumption
    | exact hk.of rfl
    | intro _
    | extract_lets
    | with_reducible apply State.setBu_within

theorem execShutdown_within {arg s} (hk : Sub 293602310 k) (hs : Within k r s) :
    OutWithin k r (execShutdown arg s) := by
  unfold execShutdown
  repeat' first
    | with_reducible assumption
    | exact hk.of rfl
    | intro _
    | extract_lets
    | with_reducible refine OutWithin.ofNext ?_
    | with_reducible refine State.onClock_within ?_ ?_
    | with_reducible apply State.buSettle_within
    | with_reducible apply State.buWrite_within
    | with_reducible apply State.haltCtx_within
    | with_reducible apply State.latchSafe_within
    | with_reducible apply State.rfxDisarm_within
    | with_reducible apply State.set_within
    | with_reducible apply State.setShut_within
    | with_reducible refine Within.foldl ?_ ?_
    | with_reducible refine Within.foldlFst ?_ ?_
    | with_reducible refine Within.foldlSnd ?_ ?_
    | dsimp -zeta only
    | split

theorem State.showRegion_within {s} (hk : Sub 2 k) (hs : Within k r s) :
    Within k r (State.showRegion s) := by
  unfold State.showRegion
  repeat' first
    | with_reducible assumption
    | exact hk.of rfl
    | intro _
    | extract_lets
    | with_reducible refine Within.getD ?_ ?_
    | with_reducible apply State.set_within
    | with_reducible refine Within.foldl ?_ ?_
    | with_reducible refine Within.foldlFst ?_ ?_
    | with_reducible refine Within.foldlSnd ?_ ?_
    | dsimp -zeta only
    | split

theorem State.sealShut_within {s j} (hk : Sub 2 k) (hs : Within k r s) :
    Within k r (State.sealShut s j) := by
  unfold State.sealShut
  repeat' first
    | with_reducible assumption
    | exact hk.of rfl
    | intro _
    | extract_lets
    | with_reducible apply State.set_within

theorem State.bistNext_within {s j} (hk : Sub 336508887 k) (hs : Within k r s) :
    Within k r (State.bistNext s j) := by
  unfold State.bistNext
  repeat' first
    | with_reducible assumption
    | exact hk.of rfl
    | intro _
    | extract_lets
    | with_reducible apply State.hostGone_within
    | with_reducible apply State.sealShut_within
    | with_reducible apply State.setShut_within
    | with_reducible apply State.showRegion_within
    | with_reducible refine Within.foldl ?_ ?_
    | with_reducible refine Within.foldlFst ?_ ?_
    | with_reducible refine Within.foldlSnd ?_ ?_
    | dsimp -zeta only
    | split
    | with_reducible refine Within.ofFst ?_ (by assumption)
    | with_reducible refine Within.ofSnd ?_ (by assumption)
    | with_reducible refine Within.ofSome ?_ (by assumption)
    | dsimp -zeta +zetaDelta only

theorem execQuiesceEnd_within {s} (hk : Sub 336508887 k) (hs : Within k r s) :
    OutWithin k r (execQuiesceEnd s) := by
  unfold execQuiesceEnd
  repeat' first
    | with_reducible assumption
    | exact hk.of rfl
    | intro _
    | extract_lets
    | with_reducible refine OutWithin.ofNext ?_
    | with_reducible refine State.onClock_within ?_ ?_
    | with_reducible apply State.bistNext_within
    | with_reducible apply State.set_within
    | with_reducible refine Within.foldl ?_ ?_
    | with_reducible refine Within.foldlFst ?_ ?_
    | with_reducible refine Within.foldlSnd ?_ ?_
    | dsimp -zeta only
    | split

theorem State.abortShut_within {s} (hk : Sub 268436486 k) (hs : Within k r s) :
    Within k r (State.abortShut s) := by
  unfold State.abortShut
  repeat' first
    | with_reducible assumption
    | exact hk.of rfl
    | intro _
    | extract_lets
    | with_reducible apply State.buFinish_within
    | with_reducible apply State.buSettle_within
    | with_reducible apply State.set_within
    | with_reducible apply State.setShut_within
    | with_reducible apply State.showRegion_within

theorem execRegionBistComplete_within {d pass s} (hk : Sub 336508887 k) (hs : Within k r s) :
    OutWithin k r (execRegionBistComplete d pass s) := by
  unfold execRegionBistComplete
  repeat' first
    | with_reducible assumption
    | exact hk.of rfl
    | intro _
    | extract_lets
    | with_reducible refine OutWithin.ofNext ?_
    | with_reducible refine State.onClock_within ?_ ?_
    | with_reducible apply State.abortShut_within
    | with_reducible apply State.bistNext_within
    | with_reducible apply State.setShut_within
    | with_reducible apply State.showRegion_within
    | fail_if_no_progress ((with_reducible refine Within.fabric ?_ ?_ _); exact hk.of rfl)
    | with_reducible refine Within.foldl ?_ ?_
    | with_reducible refine Within.foldlFst ?_ ?_
    | with_reducible refine Within.foldlSnd ?_ ?_
    | dsimp -zeta only
    | split

theorem execShutdownOff_within {s} (hk : Sub 385794039 k) (hs : Within k r s) :
    OutWithin k r (execShutdownOff s) := by
  unfold execShutdownOff
  repeat' first
    | with_reducible assumption
    | exact hk.of rfl
    | intro _
    | extract_lets
    | with_reducible refine OutWithin.ofNext ?_
    | with_reducible refine State.onClock_within ?_ ?_
    | with_reducible apply State.buFinish_within
    | with_reducible apply State.buSettle_within
    | with_reducible apply State.emit_within
    | with_reducible apply State.loseDomain_within
    | with_reducible apply State.set_within
    | with_reducible apply State.setDom_within
    | with_reducible apply State.setShut_within
    | with_reducible refine Within.foldl ?_ ?_
    | with_reducible refine Within.foldlFst ?_ ?_
    | with_reducible refine Within.foldlSnd ?_ ?_
    | dsimp -zeta only
    | split

theorem State.abortRefused_within {s} (hk : Sub 1026 k) (hs : Within k r s) :
    Within k r (State.abortRefused s) := by
  unfold State.abortRefused
  repeat' first
    | with_reducible assumption
    | exact hk.of rfl
    | intro _
    | extract_lets
    | with_reducible apply State.emit_within
    | with_reducible apply State.set_within

theorem execShutdownAbort_within {s} (hk : Sub 268436486 k) (hs : Within k r s) :
    OutWithin k r (execShutdownAbort s) := by
  unfold execShutdownAbort
  repeat' first
    | with_reducible assumption
    | exact hk.of rfl
    | intro _
    | extract_lets
    | with_reducible refine OutWithin.ofNext ?_
    | with_reducible refine State.onClock_within ?_ ?_
    | with_reducible apply State.abortRefused_within
    | with_reducible apply State.abortShut_within
    | with_reducible apply State.buErr_within
    | with_reducible apply State.buSettle_within
    | with_reducible apply State.buWrite_within
    | with_reducible apply State.setShut_within
    | with_reducible refine Within.foldl ?_ ?_
    | with_reducible refine Within.foldlFst ?_ ?_
    | with_reducible refine Within.foldlSnd ?_ ?_
    | dsimp -zeta only
    | split

theorem State.unpowered_within {s} (hk : Sub 536804286 k) (hs : Within k r s) : Within k r (State.unpowered s) := by
  refine Within.change hk hs rfl ⟨Nat.le_refl _, List.prefix_refl _, s.fuses.kept_refl⟩
    (fun w => State.wf_of w (fun _ => rfl) id (fun _ => rfl) (fun _ => rfl) (fun _ => rfl) (fun _ => rfl) (fun _ _ h => nomatch h)) ?_
  intro p hp
  cases p <;> first | rfl | exact absurd hp (by decide)

theorem execVddAonLoss_within {s} (hk : Sub 536804286 k) (hs : Within k r s) :
    OutWithin k r (execVddAonLoss s) := by
  unfold execVddAonLoss
  repeat' first
    | with_reducible assumption
    | exact hk.of rfl
    | intro _
    | extract_lets
    | with_reducible refine OutWithin.ofNext ?_
    | with_reducible refine State.onClock_within ?_ ?_
    | with_reducible apply State.unpowered_within

theorem execVddAonApply_within {s} (hk : Sub 536804286 k) (hs : Within k r s) :
    OutWithin k r (execVddAonApply s) := by
  unfold execVddAonApply
  repeat' first
    | with_reducible assumption
    | exact hk.of rfl
    | intro _
    | extract_lets
    | with_reducible refine OutWithin.ofNext ?_
    | with_reducible apply State.set_within
    | with_reducible apply State.unpowered_within
    | fail_if_no_progress ((with_reducible refine Within.pkg ?_ ?_ _); exact hk.of rfl)
    | with_reducible refine Within.foldl ?_ ?_
    | with_reducible refine Within.foldlFst ?_ ?_
    | with_reducible refine Within.foldlSnd ?_ ?_
    | dsimp -zeta only
    | split

theorem execVddIo18Loss_within {s} (hk : Sub 2048 k) (hs : Within k r s) :
    OutWithin k r (execVddIo18Loss s) := by
  unfold execVddIo18Loss
  repeat' first
    | with_reducible assumption
    | exact hk.of rfl
    | intro _
    | extract_lets
    | with_reducible refine OutWithin.ofNext ?_
    | with_reducible refine State.onClock_within ?_ ?_
    | fail_if_no_progress ((with_reducible refine Within.pkg ?_ ?_ _); exact hk.of rfl)

theorem execVddIo18Apply_within {s} (hk : Sub 2048 k) (hs : Within k r s) :
    OutWithin k r (execVddIo18Apply s) := by
  unfold execVddIo18Apply
  repeat' first
    | with_reducible assumption
    | exact hk.of rfl
    | intro _
    | extract_lets
    | with_reducible refine OutWithin.ofNext ?_
    | with_reducible refine State.onClock_within ?_ ?_
    | fail_if_no_progress ((with_reducible refine Within.pkg ?_ ?_ _); exact hk.of rfl)

theorem execBuResetNAssert_within {s} (hk : Sub 536804286 k) (hs : Within k r s) :
    OutWithin k r (execBuResetNAssert s) := by
  unfold execBuResetNAssert
  repeat' first
    | with_reducible assumption
    | exact hk.of rfl
    | intro _
    | extract_lets
    | with_reducible refine OutWithin.ofNext ?_
    | with_reducible refine State.onClock_within ?_ ?_
    | with_reducible apply State.packageReset_within
    | with_reducible apply State.set_within
    | fail_if_no_progress ((with_reducible refine Within.pkg ?_ ?_ _); exact hk.of rfl)
    | with_reducible refine Within.foldl ?_ ?_
    | with_reducible refine Within.foldlFst ?_ ?_
    | with_reducible refine Within.foldlSnd ?_ ?_
    | dsimp -zeta only
    | split

theorem execBuResetNDeassert_within {s} (hk : Sub 2050 k) (hs : Within k r s) :
    OutWithin k r (execBuResetNDeassert s) := by
  unfold execBuResetNDeassert
  repeat' first
    | with_reducible assumption
    | exact hk.of rfl
    | intro _
    | extract_lets
    | with_reducible refine OutWithin.ofNext ?_
    | with_reducible refine State.onClock_within ?_ ?_
    | with_reducible apply State.set_within
    | fail_if_no_progress ((with_reducible refine Within.pkg ?_ ?_ _); exact hk.of rfl)
    | with_reducible refine Within.foldl ?_ ?_
    | with_reducible refine Within.foldlFst ?_ ?_
    | with_reducible refine Within.foldlSnd ?_ ?_
    | dsimp -zeta only
    | split

theorem execRefclkLoss_within {s} (hk : Sub 2048 k) (hs : Within k r s) :
    OutWithin k r (execRefclkLoss s) := by
  unfold execRefclkLoss
  repeat' first
    | with_reducible assumption
    | exact hk.of rfl
    | intro _
    | extract_lets
    | with_reducible refine OutWithin.ofNext ?_
    | with_reducible refine State.onClock_within ?_ ?_
    | fail_if_no_progress ((with_reducible refine Within.pkg ?_ ?_ _); exact hk.of rfl)

end Sys2Proof.Machine
end

