-- ==== Sys2Proof/Laws/Frame/Service.lean ====
section
/-! SUPPORT. What the functions of Machine/Service.lean may change. -/

namespace Sys2Proof.Machine

variable {k : Nat} {r : State}

theorem State.imageWrite_within {s i image sigOk} (hk : Sub 268435456 k) (hs : Within k r s) :
    Within k r (State.imageWrite s i image sigOk).1 := by
  unfold State.imageWrite
  repeat' first
    | with_reducible assumption
    | exact hk.of rfl
    | intro _
    | extract_lets
    | with_reducible apply State.setComponent_within
    | with_reducible refine Within.foldl ?_ ?_
    | with_reducible refine Within.foldlFst ?_ ?_
    | with_reducible refine Within.foldlSnd ?_ ?_
    | dsimp -zeta only
    | split

theorem execImage_within {src i image sigOk s} (hk : Sub 268567552 k) (hs : Within k r s) :
    OutWithin k r (execImage src i image sigOk s) := by
  unfold execImage
  repeat' first
    | with_reducible assumption
    | exact hk.of rfl
    | intro _
    | extract_lets
    | with_reducible refine OutWithin.ofNext ?_
    | with_reducible refine State.onClock_within ?_ ?_
    | with_reducible apply State.denyWrite_within
    | with_reducible apply State.imageWrite_within
    | with_reducible refine Within.foldl ?_ ?_
    | with_reducible refine Within.foldlFst ?_ ?_
    | with_reducible refine Within.foldlSnd ?_ ?_
    | dsimp -zeta only
    | split

theorem execImageStageComplete_within {i ok s} (hk : Sub 268435456 k) (hs : Within k r s) :
    OutWithin k r (execImageStageComplete i ok s) := by
  unfold execImageStageComplete
  repeat' first
    | with_reducible assumption
    | exact hk.of rfl
    | intro _
    | extract_lets
    | with_reducible refine OutWithin.ofNext ?_
    | with_reducible refine State.onClock_within ?_ ?_
    | with_reducible apply State.setBu_within
    | with_reducible apply State.setComponent_within
    | with_reducible refine Within.foldl ?_ ?_
    | with_reducible refine Within.foldlFst ?_ ?_
    | with_reducible refine Within.foldlSnd ?_ ?_
    | dsimp -zeta only
    | split

theorem State.activateWrite_within {s i val} (hk : Sub 268435456 k) (hs : Within k r s) :
    Within k r (State.activateWrite s i val).1 := by
  unfold State.activateWrite
  repeat' first
    | with_reducible assumption
    | exact hk.of rfl
    | intro _
    | extract_lets
    | with_reducible apply State.setComponent_within
    | with_reducible refine Within.foldl ?_ ?_
    | with_reducible refine Within.foldlFst ?_ ?_
    | with_reducible refine Within.foldlSnd ?_ ?_
    | dsimp -zeta only
    | split

theorem execActivate_within {src i val s} (hk : Sub 268567552 k) (hs : Within k r s) :
    OutWithin k r (execActivate src i val s) := by
  unfold execActivate
  repeat' first
    | with_reducible assumption
    | exact hk.of rfl
    | intro _
    | extract_lets
    | with_reducible refine OutWithin.ofNext ?_
    | with_reducible refine State.onClock_within ?_ ?_
    | with_reducible apply State.activateWrite_within
    | with_reducible apply State.denyWrite_within
    | with_reducible refine Within.foldl ?_ ?_
    | with_reducible refine Within.foldlFst ?_ ?_
    | with_reducible refine Within.foldlSnd ?_ ?_
    | dsimp -zeta only
    | split

theorem execActivateComplete_within {i unverified s} (hk : Sub 402653184 k) (hs : Within k r s) :
    OutWithin k r (execActivateComplete i unverified s) := by
  unfold execActivateComplete
  repeat' first
    | with_reducible assumption
    | exact hk.of rfl
    | intro _
    | extract_lets
    | with_reducible refine OutWithin.ofNext ?_
    | with_reducible refine State.onClock_within ?_ ?_
    | with_reducible apply State.setComponent_within
    | with_reducible apply State.setPwr_within
    | with_reducible refine Within.foldl ?_ ?_
    | with_reducible refine Within.foldlFst ?_ ?_
    | with_reducible refine Within.foldlSnd ?_ ?_
    | dsimp -zeta only
    | split

theorem execBrlChTrimWrite_within {src c val s} (hk : Sub 8520710 k) (hs : Within k r s) :
    OutWithin k r (execBrlChTrimWrite src c val s) := by
  unfold execBrlChTrimWrite
  repeat' first
    | with_reducible assumption
    | exact hk.of rfl
    | intro _
    | extract_lets
    | with_reducible refine OutWithin.ofNext ?_
    | with_reducible refine State.onClock_within ?_ ?_
    | with_reducible apply State.setRfx_within
    | with_reducible apply State.setTrim_within
    | with_reducible apply State.turnAway_within
    | with_reducible refine Within.foldl ?_ ?_
    | with_reducible refine Within.foldlFst ?_ ?_
    | with_reducible refine Within.foldlSnd ?_ ?_
    | dsimp -zeta only
    | split

end Sys2Proof.Machine
end

