-- ==== Sys2Proof/Laws/Frame/Registers.lean ====
section
/-! SUPPORT. What the functions of Machine/Registers.lean may change. -/

namespace Sys2Proof.Machine

variable {k : Nat} {r : State}

theorem State.clearRead_within {s node off} (hk : Sub 2 k) (hs : Within k r s) :
    Within k r (State.clearRead s node off) := by
  unfold State.clearRead
  repeat' first
    | with_reducible assumption
    | exact hk.of rfl
    | intro _
    | extract_lets
    | with_reducible apply State.setO_within
    | with_reducible refine Within.foldl ?_ ?_
    | with_reducible refine Within.foldlFst ?_ ?_
    | with_reducible refine Within.foldlSnd ?_ ?_
    | dsimp -zeta only
    | split

theorem State.blockErr_within {s off} (hk : Sub 2 k) (hs : Within k r s) :
    Within k r (State.blockErr s off) := by
  unfold State.blockErr
  repeat' first
    | with_reducible assumption
    | exact hk.of rfl
    | intro _
    | extract_lets
    | with_reducible apply State.ecatErr_within
    | with_reducible apply State.schedErr_within
    | with_reducible apply State.set_within
    | with_reducible refine Within.foldl ?_ ?_
    | with_reducible refine Within.foldlFst ?_ ?_
    | with_reducible refine Within.foldlSnd ?_ ?_
    | dsimp -zeta only
    | split

theorem State.storeReg_within {s node off val} (hk : Sub 35651602 k) (hs : Within k r s) :
    Within k r (State.storeReg s node off val) := by
  unfold State.storeReg
  repeat' first
    | with_reducible assumption
    | exact hk.of rfl
    | intro _
    | extract_lets
    | with_reducible apply State.blockErr_within
    | with_reducible apply State.ecatCtrl_within
    | with_reducible apply State.ecatImg_within
    | with_reducible apply State.poke_within
    | with_reducible apply State.putReg_within
    | with_reducible apply State.schedErr_within
    | with_reducible apply State.wrote_within
    | with_reducible refine Within.foldl ?_ ?_
    | with_reducible refine Within.foldlFst ?_ ?_
    | with_reducible refine Within.foldlSnd ?_ ?_
    | dsimp -zeta only
    | split

end Sys2Proof.Machine
end

