-- ==== Sys2Proof/Laws/Frame/Slots.lean ====
section
/-! SUPPORT. What the functions of Machine/Slots.lean may change. -/

namespace Sys2Proof.Machine

variable {k : Nat} {r : State}

theorem settled_within {s o} (hk : Sub 0 k) (hs : Within k r s) (ho : OutWithin k r o) : Within k r (settled s o) := by
  cases o with
  | next t => exact ho.next t rfl
  | fault f => exact hs
  | refused f => exact hs

theorem State.setDic_within {s d} (hk : Sub 67108864 k) (hs : Within k r s) :
    Within k r (State.setDic s d) := by
  unfold State.setDic
  repeat' first
    | with_reducible assumption
    | exact hk.of rfl
    | intro _
    | extract_lets
    | fail_if_no_progress ((with_reducible refine Within.dic ?_ ?_ _); exact hk.of rfl)

theorem State.dictAnswer_within {s rank mute v size read} (hk : Sub 1026 k) (hs : Within k r s) :
    Within k r (State.dictAnswer s rank mute v size read) := by
  unfold State.dictAnswer
  repeat' first
    | with_reducible assumption
    | exact hk.of rfl
    | intro _
    | extract_lets
    | with_reducible refine Within.elimOf ?_ ?_
    | with_reducible apply State.emit_within
    | with_reducible apply State.set_within
    | with_reducible refine Within.foldl ?_ ?_
    | with_reducible refine Within.foldlFst ?_ ?_
    | with_reducible refine Within.foldlSnd ?_ ?_
    | dsimp -zeta only
    | split

theorem State.writeAnswer_within {s rank mute v n} (hk : Sub 1026 k) (hs : Within k r s) :
    Within k r (State.writeAnswer s rank mute v n) := by
  unfold State.writeAnswer
  repeat' first
    | with_reducible assumption
    | exact hk.of rfl
    | intro _
    | extract_lets
    | with_reducible apply State.dictAnswer_within

theorem State.dictRefuse_within {s rank v} (hk : Sub 67240962 k) (hs : Within k r s) :
    Within k r (State.dictRefuse s rank v) := by
  unfold State.dictRefuse
  repeat' first
    | with_reducible assumption
    | exact hk.of rfl
    | intro _
    | extract_lets
    | with_reducible apply State.countRefusal_within
    | with_reducible apply State.dictAnswer_within
    | with_reducible apply State.setDic_within
    | with_reducible refine Within.foldl ?_ ?_
    | with_reducible refine Within.foldlFst ?_ ?_
    | with_reducible refine Within.foldlSnd ?_ ?_
    | dsimp -zeta only
    | split

theorem State.loadObject_within {s x1 b} (hk : Sub 8388622 k) (hs : Within k r s) :
    Within k r (State.loadObject s x1 b) := by
  unfold State.loadObject
  repeat' first
    | with_reducible assumption
    | exact hk.of rfl
    | intro _
    | extract_lets
    | with_reducible apply State.boundRate_within
    | with_reducible apply State.putReg_within
    | with_reducible apply State.setBlob_within
    | with_reducible apply State.setO_within
    | with_reducible apply State.setObj_within
    | with_reducible apply State.setRfx_within
    | with_reducible apply State.setTrim_within
    | with_reducible refine Within.foldl ?_ ?_
    | with_reducible refine Within.foldlFst ?_ ?_
    | with_reducible refine Within.foldlSnd ?_ ?_
    | dsimp -zeta only
    | split

theorem State.restoreDefaults_within {s} (hk : Sub 8388622 k) (hs : Within k r s) : Within k r (State.restoreDefaults s) := by
  unfold State.restoreDefaults
  refine State.boundRate_within (hk.of rfl)
    (Within.foldl (Within.blobsTo (hk.of rfl) (Within.dictTo (hk.of rfl) hs tsorted_filter) tsorted_filter) (fun u x hu => ?_))
  generalize leBytes 8 (u.objDefault (x / 256) (x % 256)) = b
  split
  · exact hu
  · exact State.loadObject_within (hk.of rfl) hu

theorem State.setCfgCopy_within {s x1 c} (hk : Sub 67108864 k) (hs : Within k r s) :
    Within k r (State.setCfgCopy s x1 c) := by
  unfold State.setCfgCopy
  repeat' first
    | with_reducible assumption
    | exact hk.of rfl
    | intro _
    | extract_lets
    | with_reducible apply State.setDic_within

theorem State.storeBegin_within {s src mute} (hk : Sub 67108864 k) (hs : Within k r s) :
    Within k r (State.storeBegin s src mute) := by
  unfold State.storeBegin
  repeat' first
    | with_reducible assumption
    | exact hk.of rfl
    | intro _
    | extract_lets
    | with_reducible apply State.setCfgCopy_within
    | with_reducible apply State.setDic_within

theorem State.writeReflex_within {s c sub v} (hk : Sub 10486798 k) (hs : Within k r s) :
    Within k r (State.writeReflex s c sub v).1 := by
  unfold State.writeReflex
  repeat' first
    | with_reducible assumption
    | exact hk.of rfl
    | intro _
    | extract_lets
    | with_reducible apply State.blockErr_within
    | with_reducible apply State.loadObject_within
    | with_reducible apply State.putReg_within
    | with_reducible apply State.rfxCommand_within
    | with_reducible apply State.wrote_within
    | with_reducible refine Within.foldl ?_ ?_
    | with_reducible refine Within.foldlFst ?_ ?_
    | with_reducible refine Within.foldlSnd ?_ ?_
    | dsimp -zeta only
    | split

theorem State.writeSafety_within {s idx sub b} (hk : Sub 25166862 k) (hs : Within k r s) :
    Within k r (State.writeSafety s idx sub b).1 := by
  unfold State.writeSafety
  repeat' first
    | with_reducible assumption
    | exact hk.of rfl
    | intro _
    | extract_lets
    | with_reducible apply State.latchSafe_within
    | with_reducible apply State.loadObject_within
    | with_reducible apply State.putReg_within
    | with_reducible apply State.releaseReq_within
    | with_reducible refine Within.foldl ?_ ?_
    | with_reducible refine Within.foldlFst ?_ ?_
    | with_reducible refine Within.foldlSnd ?_ ?_
    | dsimp -zeta only
    | split

theorem judged_within {x} (hx : Within k r x.1) : Within k r (judged x).1 := hx

theorem concluded_within {x} (hx : Within k r x.1) : Within k r (concluded x).1 := hx

theorem State.writeObject_within {s w sigOk} (hk : Sub 536805375 k) (hs : Within k r s) :
    Within k r (State.writeObject s w sigOk).1 := by
  unfold State.writeObject
  repeat' first
    | with_reducible assumption
    | exact hk.of rfl
    | intro _
    | extract_lets
    | with_reducible apply judged_within
    | with_reducible apply concluded_within
    | with_reducible refine Within.iteFst ?_ ?_
    | with_reducible apply State.activateWrite_within
    | with_reducible apply State.blockErr_within
    | with_reducible apply State.ecatErr_within
    | with_reducible apply State.imageWrite_within
    | with_reducible apply State.loadObject_within
    | with_reducible apply State.putReg_within
    | with_reducible apply State.queueRequest_within
    | with_reducible apply State.recheck_within
    | with_reducible apply State.restoreDefaults_within
    | with_reducible apply State.schedErr_within
    | with_reducible apply State.setObj_within
    | with_reducible apply State.stageEgo_within
    | with_reducible apply State.storeBegin_within
    | with_reducible apply State.writeReflex_within
    | with_reducible apply State.writeSafety_within
    | with_reducible apply State.wrote_within
    | with_reducible refine Within.foldl ?_ ?_
    | with_reducible refine Within.foldlFst ?_ ?_
    | with_reducible refine Within.foldlSnd ?_ ?_
    | dsimp -zeta only
    | split

theorem State.writeContended_within {s w got} (hk : Sub 37672919 k) (hs : Within k r s) :
    Within k r (State.writeContended s w got) := by
  unfold State.writeContended
  repeat' first
    | with_reducible assumption
    | exact hk.of rfl
    | intro _
    | extract_lets
    | with_reducible refine settled_within ?_ ?_ ?_
    | with_reducible refine OutWithin.ofNext ?_
    | with_reducible refine State.onClock_within ?_ ?_
    | with_reducible apply State.schedErr_within
    | with_reducible apply State.servoAct_within
    | with_reducible apply State.storeReg_within
    | with_reducible apply execAdmitDie_within
    | with_reducible apply execCtxAbort_within
    | with_reducible apply execCtxDisable_within
    | with_reducible apply execCtxEnable_within
    | with_reducible apply execCtxHalt_within
    | with_reducible apply execCtxResume_within
    | with_reducible apply execFence_within
    | with_reducible refine Within.foldl ?_ ?_
    | with_reducible refine Within.foldlFst ?_ ?_
    | with_reducible refine Within.foldlSnd ?_ ?_
    | dsimp -zeta only
    | split

theorem State.regAnswer_within {s w st} (hk : Sub 1024 k) (hs : Within k r s) :
    Within k r (State.regAnswer s w st) := by
  unfold State.regAnswer
  repeat' first
    | with_reducible assumption
    | exact hk.of rfl
    | intro _
    | extract_lets
    | with_reducible apply State.completeWrite_within
    | with_reducible refine Within.foldl ?_ ?_
    | with_reducible refine Within.foldlFst ?_ ?_
    | with_reducible refine Within.foldlSnd ?_ ?_
    | dsimp -zeta only
    | split

theorem State.decideReflex_within {l s w i} (hk : Sub 8389634 k) (hs : Within k r s) :
    Within k r (State.decideReflex l s w i) := by
  unfold State.decideReflex
  repeat' first
    | with_reducible assumption
    | exact hk.of rfl
    | intro _
    | extract_lets
    | with_reducible apply State.regAnswer_within
    | with_reducible apply State.rfxCommand_within
    | with_reducible refine Within.foldl ?_ ?_
    | with_reducible refine Within.foldlFst ?_ ?_
    | with_reducible refine Within.foldlSnd ?_ ?_
    | dsimp -zeta only
    | split

theorem State.writeWon_within {s w got} (hk : Sub 37672919 k) (hs : Within k r s) :
    Within k r (State.writeWon s w got) := by
  unfold State.writeWon
  repeat' first
    | with_reducible assumption
    | exact hk.of rfl
    | intro _
    | extract_lets
    | with_reducible refine settled_within ?_ ?_ ?_
    | with_reducible refine OutWithin.ofNext ?_
    | with_reducible apply State.writeContended_within
    | with_reducible apply execIssuecapWrite_within
    | with_reducible apply execRsvWrite_within
    | with_reducible refine Within.foldl ?_ ?_
    | with_reducible refine Within.foldlFst ?_ ?_
    | with_reducible refine Within.foldlSnd ?_ ?_
    | dsimp -zeta only
    | split

theorem State.decideRegister_within {l got s w i} (hk : Sub 46061527 k) (hs : Within k r s) :
    Within k r (State.decideRegister l got s w i) := by
  unfold State.decideRegister
  repeat' first
    | with_reducible assumption
    | exact hk.of rfl
    | intro _
    | extract_lets
    | with_reducible apply State.decideReflex_within
    | with_reducible apply State.regAnswer_within
    | with_reducible apply State.turnAway_within
    | with_reducible apply State.writeWon_within
    | with_reducible refine Within.foldl ?_ ?_
    | with_reducible refine Within.foldlFst ?_ ?_
    | with_reducible refine Within.foldlSnd ?_ ?_
    | dsimp -zeta only
    | split

theorem State.decideWrite_within {l got sigOk s e} (hk : Sub 536805375 k) (hs : Within k r s) :
    Within k r (State.decideWrite l got sigOk s e) := by
  unfold State.decideWrite
  repeat' first
    | with_reducible assumption
    | exact hk.of rfl
    | intro _
    | extract_lets
    | with_reducible apply State.decideRegister_within
    | with_reducible apply State.writeAnswer_within
    | with_reducible apply State.writeObject_within
    | with_reducible refine Within.foldl ?_ ?_
    | with_reducible refine Within.foldlFst ?_ ?_
    | with_reducible refine Within.foldlSnd ?_ ?_
    | dsimp -zeta only
    | split

theorem execSlotEnd_within {got sigOk s} (hk : Sub 536805375 k) (hs : Within k r s) :
    OutWithin k r (execSlotEnd got sigOk s) := by
  unfold execSlotEnd
  repeat' first
    | with_reducible assumption
    | exact hk.of rfl
    | intro _
    | extract_lets
    | with_reducible refine OutWithin.ofNext ?_
    | with_reducible refine State.onClock_within ?_ ?_
    | with_reducible apply State.decideWrite_within
    | with_reducible apply State.servoNext_within
    | with_reducible apply State.setDic_within
    | with_reducible refine Within.foldl ?_ ?_

theorem State.stage_within {s w} (hk : Sub 67108864 k) (hs : Within k r s) :
    Within k r (State.stage s w) := by
  unfold State.stage
  repeat' first
    | with_reducible assumption
    | exact hk.of rfl
    | intro _
    | extract_lets
    | with_reducible apply State.setDic_within

theorem State.request_within {s rank src write size idx sub ofs} (hk : Sub 67240962 k) (hs : Within k r s) :
    Within k r (State.request s rank src write size idx sub ofs) := by
  unfold State.request
  repeat' first
    | with_reducible assumption
    | exact hk.of rfl
    | intro _
    | extract_lets
    | with_reducible apply State.dictAnswer_within
    | with_reducible apply State.dictRefuse_within
    | with_reducible apply State.stage_within
    | with_reducible refine Within.foldl ?_ ?_
    | with_reducible refine Within.foldlFst ?_ ?_
    | with_reducible refine Within.foldlSnd ?_ ?_
    | dsimp -zeta only
    | split

theorem execDictRead_within {p idx sub ofs s} (hk : Sub 67240962 k) (hs : Within k r s) :
    OutWithin k r (execDictRead p idx sub ofs s) := by
  unfold execDictRead
  repeat' first
    | with_reducible assumption
    | exact hk.of rfl
    | intro _
    | extract_lets
    | with_reducible refine OutWithin.ofNext ?_
    | with_reducible refine State.onClock_within ?_ ?_
    | with_reducible apply State.request_within
    | with_reducible apply State.set_within
    | with_reducible refine Within.foldl ?_ ?_
    | with_reducible refine Within.foldlFst ?_ ?_
    | with_reducible refine Within.foldlSnd ?_ ?_
    | dsimp -zeta only
    | split

theorem execDictWrite_within {p idx sub ofs s} (hk : Sub 67240962 k) (hs : Within k r s) :
    OutWithin k r (execDictWrite p idx sub ofs s) := by
  unfold execDictWrite
  repeat' first
    | with_reducible assumption
    | exact hk.of rfl
    | intro _
    | extract_lets
    | with_reducible refine OutWithin.ofNext ?_
    | with_reducible refine State.onClock_within ?_ ?_
    | with_reducible refine Within.getD ?_ ?_
    | with_reducible apply State.dictAnswer_within
    | with_reducible apply State.request_within
    | with_reducible apply State.set_within
    | with_reducible apply State.setDic_within
    | with_reducible refine Within.foldl ?_ ?_
    | with_reducible refine Within.foldlFst ?_ ?_
    | with_reducible refine Within.foldlSnd ?_ ?_
    | dsimp -zeta only
    | split

theorem State.busRequest_within {s rank src write idx sub} (hk : Sub 67240962 k) (hs : Within k r s) :
    Within k r (State.busRequest s rank src write idx sub) := by
  unfold State.busRequest
  repeat' first
    | with_reducible assumption
    | exact hk.of rfl
    | intro _
    | extract_lets
    | with_reducible apply State.dictAnswer_within
    | with_reducible apply State.request_within
    | with_reducible refine Within.foldl ?_ ?_
    | with_reducible refine Within.foldlFst ?_ ?_
    | with_reducible refine Within.foldlSnd ?_ ?_
    | dsimp -zeta only
    | split

theorem execUsdoRequest_within {c idx sub write s} (hk : Sub 67240962 k) (hs : Within k r s) :
    OutWithin k r (execUsdoRequest c idx sub write s) := by
  unfold execUsdoRequest
  repeat' first
    | with_reducible assumption
    | exact hk.of rfl
    | intro _
    | extract_lets
    | with_reducible refine OutWithin.ofNext ?_
    | with_reducible refine State.onClock_within ?_ ?_
    | with_reducible apply State.busRequest_within
    | with_reducible refine Within.foldl ?_ ?_
    | with_reducible refine Within.foldlFst ?_ ?_
    | with_reducible refine Within.foldlSnd ?_ ?_
    | dsimp -zeta only
    | split

theorem execCoeSdoRequest_within {n idx sub write s} (hk : Sub 67240962 k) (hs : Within k r s) :
    OutWithin k r (execCoeSdoRequest n idx sub write s) := by
  unfold execCoeSdoRequest
  repeat' first
    | with_reducible assumption
    | exact hk.of rfl
    | intro _
    | extract_lets
    | with_reducible refine OutWithin.ofNext ?_
    | with_reducible refine State.onClock_within ?_ ?_
    | with_reducible apply State.busRequest_within
    | with_reducible refine Within.foldl ?_ ?_
    | with_reducible refine Within.foldlFst ?_ ?_
    | with_reducible refine Within.foldlSnd ?_ ?_
    | dsimp -zeta only
    | split

theorem execSafetyDictRequest_within {idx sub write s} (hk : Sub 67240962 k) (hs : Within k r s) :
    OutWithin k r (execSafetyDictRequest idx sub write s) := by
  unfold execSafetyDictRequest
  repeat' first
    | with_reducible assumption
    | exact hk.of rfl
    | intro _
    | extract_lets
    | with_reducible refine OutWithin.ofNext ?_
    | with_reducible refine State.onClock_within ?_ ?_
    | with_reducible apply State.busRequest_within
    | with_reducible refine Within.foldl ?_ ?_
    | with_reducible refine Within.foldlFst ?_ ?_
    | with_reducible refine Within.foldlSnd ?_ ?_
    | dsimp -zeta only
    | split

theorem execStoreParameters_within {src s} (hk : Sub 67240962 k) (hs : Within k r s) :
    OutWithin k r (execStoreParameters src s) := by
  unfold execStoreParameters
  repeat' first
    | with_reducible assumption
    | exact hk.of rfl
    | intro _
    | extract_lets
    | with_reducible refine OutWithin.ofNext ?_
    | with_reducible refine State.onClock_within ?_ ?_
    | with_reducible apply State.denyWrite_within
    | with_reducible apply State.dictAnswer_within
    | with_reducible apply State.set_within
    | with_reducible apply State.storeBegin_within
    | with_reducible refine Within.foldl ?_ ?_
    | with_reducible refine Within.foldlFst ?_ ?_
    | with_reducible refine Within.foldlSnd ?_ ?_
    | dsimp -zeta only
    | split

theorem execStoreComplete_within {ok s} (hk : Sub 67109891 k) (hs : Within k r s) :
    OutWithin k r (execStoreComplete ok s) := by
  unfold execStoreComplete
  repeat' first
    | with_reducible assumption
    | exact hk.of rfl
    | intro _
    | extract_lets
    | with_reducible refine OutWithin.ofNext ?_
    | with_reducible refine State.onClock_within ?_ ?_
    | with_reducible apply State.draw_within
    | with_reducible apply State.setCfgCopy_within
    | with_reducible apply State.setDic_within
    | with_reducible apply State.writeAnswer_within
    | with_reducible refine Within.foldl ?_ ?_
    | with_reducible refine Within.foldlFst ?_ ?_
    | with_reducible refine Within.foldlSnd ?_ ?_
    | dsimp -zeta only
    | split

theorem execRestoreDefaults_within {src s} (hk : Sub 8520718 k) (hs : Within k r s) :
    OutWithin k r (execRestoreDefaults src s) := by
  unfold execRestoreDefaults
  repeat' first
    | with_reducible assumption
    | exact hk.of rfl
    | intro _
    | extract_lets
    | with_reducible refine OutWithin.ofNext ?_
    | with_reducible refine State.onClock_within ?_ ?_
    | with_reducible apply State.denyWrite_within
    | with_reducible apply State.restoreDefaults_within
    | with_reducible refine Within.foldl ?_ ?_
    | with_reducible refine Within.foldlFst ?_ ?_
    | with_reducible refine Within.foldlSnd ?_ ?_
    | dsimp -zeta only
    | split

theorem State.loadRecord_within {s e} (hk : Sub 77594638 k) (hs : Within k r s) :
    Within k r (State.loadRecord s e) := by
  unfold State.loadRecord
  repeat' first
    | with_reducible assumption
    | exact hk.of rfl
    | intro _
    | extract_lets
    | with_reducible apply State.loadObject_within
    | with_reducible apply State.setDic_within
    | with_reducible apply State.wrote_within
    | with_reducible refine Within.foldl ?_ ?_
    | with_reducible refine Within.foldlFst ?_ ?_
    | with_reducible refine Within.foldlSnd ?_ ?_
    | dsimp -zeta only
    | split

theorem State.cfgLoad_within {s sigOk} (hk : Sub 346032142 k) (hs : Within k r s) :
    Within k r (State.cfgLoad s sigOk) := by
  unfold State.cfgLoad
  repeat' first
    | with_reducible assumption
    | exact hk.of rfl
    | intro _
    | extract_lets
    | with_reducible refine Within.getD ?_ ?_
    | with_reducible apply State.buSettle_within
    | with_reducible apply State.loadRecord_within
    | with_reducible apply State.setDic_within
    | fail_if_no_progress ((with_reducible refine Within.pkg ?_ ?_ _); exact hk.of rfl)
    | with_reducible refine Within.foldl ?_ ?_
    | with_reducible refine Within.foldlFst ?_ ?_
    | with_reducible refine Within.foldlSnd ?_ ?_
    | dsimp -zeta only
    | split
    | with_reducible refine Within.ofFst ?_ (by assumption)
    | with_reducible refine Within.ofSnd ?_ (by assumption)
    | with_reducible refine Within.ofSome ?_ (by assumption)
    | dsimp -zeta +zetaDelta only

theorem execCfgLoad_within {arg sigOk s} (hk : Sub 346032142 k) (hs : Within k r s) :
    OutWithin k r (execCfgLoad arg sigOk s) := by
  unfold execCfgLoad
  repeat' first
    | with_reducible assumption
    | exact hk.of rfl
    | intro _
    | extract_lets
    | with_reducible refine OutWithin.ofNext ?_
    | with_reducible refine State.onClock_within ?_ ?_
    | with_reducible apply State.buStep_within
    | with_reducible apply State.cfgLoad_within

end Sys2Proof.Machine
end

