-- ==== Sys2Proof/Laws/Frame/Access.lean ====
section
/-! SUPPORT. What the functions of Machine/Access.lean may change. -/

namespace Sys2Proof.Machine

variable {k : Nat} {r : State}

theorem State.onyxOwnWrite_within {s src node off val} (hk : Sub 136185750 k) (hs : Within k r s) :
    Within k r (State.onyxOwnWrite s src node off val) := by
  unfold State.onyxOwnWrite
  repeat' first
    | with_reducible assumption
    | exact hk.of rfl
    | intro _
    | extract_lets
    | with_reducible refine settled_within ?_ ?_ ?_
    | with_reducible refine OutWithin.ofNext ?_
    | with_reducible apply execBiasTableWrite_within
    | with_reducible apply execGateTableWrite_within
    | with_reducible apply execHintWrite_within
    | with_reducible apply execKvpoolWrite_within
    | with_reducible apply execMapcfgWrite_within
    | with_reducible apply execStreamDoorbell_within
    | with_reducible apply execWaymodeWrite_within
    | with_reducible refine Within.foldl ?_ ?_
    | with_reducible refine Within.foldlFst ?_ ?_
    | with_reducible refine Within.foldlSnd ?_ ?_
    | dsimp -zeta only
    | split

theorem State.buCmdWrite_within {s val} (hk : Sub 536805375 k) (hs : Within k r s) :
    Within k r (State.buCmdWrite s val) := by
  unfold State.buCmdWrite
  repeat' first
    | with_reducible assumption
    | exact hk.of rfl
    | intro _
    | extract_lets
    | with_reducible refine settled_within ?_ ?_ ?_
    | with_reducible refine OutWithin.ofNext ?_
    | with_reducible apply State.buSettle_within
    | with_reducible apply State.buWrite_within
    | with_reducible apply execDomains_within
    | with_reducible apply execOutputEnable_within
    | with_reducible apply execPackageReset_within
    | with_reducible apply execPartitionReset_within
    | with_reducible apply execShutdown_within
    | with_reducible apply execShutdownAbort_within
    | with_reducible refine Within.foldl ?_ ?_
    | with_reducible refine Within.foldlFst ?_ ?_
    | with_reducible refine Within.foldlSnd ?_ ?_
    | dsimp -zeta only
    | split

theorem State.agateOwnWrite_within {s src off val} (hk : Sub 536805375 k) (hs : Within k r s) :
    Within k r (State.agateOwnWrite s src off val) := by
  unfold State.agateOwnWrite
  repeat' first
    | with_reducible assumption
    | exact hk.of rfl
    | intro _
    | extract_lets
    | with_reducible refine settled_within ?_ ?_ ?_
    | with_reducible refine OutWithin.ofNext ?_
    | with_reducible refine OutWithin.ite ?_ ?_
    | with_reducible apply State.buCmdWrite_within
    | with_reducible apply State.set_within
    | with_reducible apply execAdjWrite_within
    | with_reducible apply execBrlChTrimWrite_within
    | with_reducible apply execCamcfgWrite_within
    | with_reducible apply execCtxDb_within
    | with_reducible apply execEgocfgWrite_within
    | with_reducible apply execEvqWrite_within
    | with_reducible apply execExclude_within
    | with_reducible apply execHbWrite_within
    | with_reducible apply execImucfgWrite_within
    | with_reducible apply execMbxRead_within
    | with_reducible apply execPartCfgWrite_within
    | with_reducible apply execRateWrite_within
    | with_reducible apply execReadmit_within
    | with_reducible apply execReleaseBuffer_within
    | with_reducible apply execSwap_within
    | with_reducible apply execSwsample_within
    | with_reducible apply execTxDoorbell_within
    | with_reducible refine Within.foldl ?_ ?_
    | with_reducible refine Within.foldlFst ?_ ?_
    | with_reducible refine Within.foldlSnd ?_ ?_
    | dsimp -zeta only
    | split

theorem State.regWrite_within {s src mute node off val} (hk : Sub 536805375 k) (hs : Within k r s) :
    Within k r (State.regWrite s src mute node off val) := by
  unfold State.regWrite
  repeat' first
    | with_reducible assumption
    | exact hk.of rfl
    | intro _
    | extract_lets
    | with_reducible refine Within.getD ?_ ?_
    | with_reducible refine settled_within ?_ ?_ ?_
    | with_reducible refine OutWithin.ofNext ?_
    | with_reducible refine State.onClock_within ?_ ?_
    | with_reducible apply State.agateOwnWrite_within
    | with_reducible apply State.onyxOwnWrite_within
    | with_reducible apply State.set_within
    | with_reducible apply State.stage_within
    | with_reducible apply State.storeReg_within
    | with_reducible apply execDictRead_within
    | with_reducible apply execDictWrite_within
    | with_reducible refine Within.foldl ?_ ?_
    | with_reducible refine Within.foldlFst ?_ ?_
    | with_reducible refine Within.foldlSnd ?_ ?_
    | dsimp -zeta only
    | split

theorem State.nodeWrite_within {s src mute a val} (hk : Sub 536805375 k) (hs : Within k r s) :
    Within k r (State.nodeWrite s src mute a val) := by
  unfold State.nodeWrite
  repeat' first
    | with_reducible assumption
    | exact hk.of rfl
    | intro _
    | extract_lets
    | with_reducible apply State.regWrite_within
    | with_reducible apply State.turned_within
    | with_reducible refine Within.foldl ?_ ?_
    | with_reducible refine Within.foldlFst ?_ ?_
    | with_reducible refine Within.foldlSnd ?_ ?_
    | dsimp -zeta only
    | split

theorem State.broadcastWrite_within {s src a val} (hk : Sub 536805375 k) (hs : Within k r s) :
    Within k r (State.broadcastWrite s src a val) := by
  unfold State.broadcastWrite
  repeat' first
    | with_reducible assumption
    | exact hk.of rfl
    | intro _
    | extract_lets
    | with_reducible apply State.completeWrite_within
    | with_reducible apply State.nodeWrite_within
    | with_reducible refine Within.foldl ?_ ?_

theorem execRegisterWrite_within {src a val s} (hk : Sub 536805375 k) (hs : Within k r s) :
    OutWithin k r (execRegisterWrite src a val s) := by
  unfold execRegisterWrite
  repeat' first
    | with_reducible assumption
    | exact hk.of rfl
    | intro _
    | extract_lets
    | with_reducible refine OutWithin.ofNext ?_
    | with_reducible refine State.onClock_within ?_ ?_
    | with_reducible apply State.broadcastWrite_within
    | with_reducible apply State.completeWrite_within
    | with_reducible apply State.denyWrite_within
    | with_reducible apply State.nodeWrite_within
    | with_reducible apply State.refuseRequest_within
    | with_reducible refine Within.foldl ?_ ?_
    | with_reducible refine Within.foldlFst ?_ ?_
    | with_reducible refine Within.foldlSnd ?_ ?_
    | dsimp -zeta only
    | split

theorem execDict_within {p a idx sub write s} (hk : Sub 131074 k) (hs : Within k r s) :
    OutWithin k r (execDict p a idx sub write s) := by
  unfold execDict
  repeat' first
    | with_reducible assumption
    | exact hk.of rfl
    | intro _
    | extract_lets
    | with_reducible refine OutWithin.ofNext ?_
    | with_reducible refine State.onClock_within ?_ ?_
    | with_reducible apply State.answer_within
    | with_reducible apply State.deny_within
    | with_reducible apply State.mailbox_within
    | with_reducible apply State.owned_within
    | with_reducible refine Within.foldl ?_ ?_
    | with_reducible refine Within.foldlFst ?_ ?_
    | with_reducible refine Within.foldlSnd ?_ ?_
    | dsimp -zeta only
    | split

theorem State.readBy_within {s o} (hk : Sub 0 k) (hs : Within k r s) (ho : OutWithin k r o) :
    Within k r (State.readBy s o).1 := by
  have h : Within k r (settled s o) := settled_within hk hs ho
  unfold State.readBy
  refine ⟨h.queue, ⟨h.kept.1, hs.kept.2.1, h.kept.2.2⟩, h.wf, fun p hp => ?_⟩
  cases p <;> first | exact h.parts _ hp | exact hs.parts _ hp

theorem State.exactRead_within {s a} (hk : Sub 148486 k) (hs : Within k r s) :
    Within k r (State.exactRead s a).1 := by
  unfold State.exactRead
  repeat' first
    | with_reducible assumption
    | exact hk.of rfl
    | intro _
    | extract_lets
    | with_reducible refine OutWithin.ofNext ?_
    | with_reducible refine State.onClock_within ?_ ?_
    | with_reducible apply State.claimRead_within
    | with_reducible apply State.clearRead_within
    | with_reducible apply State.readBy_within
    | with_reducible apply execNowRead_within
    | with_reducible apply execTxtsqRead_within
    | with_reducible refine Within.foldl ?_ ?_
    | with_reducible refine Within.foldlFst ?_ ?_
    | with_reducible refine Within.foldlSnd ?_ ?_
    | dsimp -zeta only
    | split

theorem execRegread_within {p a addrs s} (hk : Sub 148486 k) (hs : Within k r s) :
    OutWithin k r (execRegread p a addrs s) := by
  unfold execRegread
  repeat' first
    | with_reducible assumption
    | exact hk.of rfl
    | intro _
    | extract_lets
    | with_reducible refine OutWithin.ofNext ?_
    | with_reducible refine State.onClock_within ?_ ?_
    | with_reducible apply State.answer_within
    | with_reducible apply State.deny_within
    | with_reducible apply State.exactRead_within
    | with_reducible apply State.mailbox_within
    | with_reducible apply State.owned_within
    | with_reducible refine Within.foldl ?_ ?_
    | with_reducible refine Within.foldlFst ?_ ?_
    | with_reducible refine Within.foldlSnd ?_ ?_
    | dsimp -zeta only
    | split

theorem execDeniedResponse_within {dict a b s} (hk : Sub 67901394 k) (hs : Within k r s) :
    OutWithin k r (execDeniedResponse dict a b s) := by
  unfold execDeniedResponse
  repeat' first
    | with_reducible assumption
    | exact hk.of rfl
    | intro _
    | extract_lets
    | with_reducible refine OutWithin.ofNext ?_
    | with_reducible refine State.onClock_within ?_ ?_
    | with_reducible apply State.abortSweep_within
    | with_reducible apply State.complete_within
    | with_reducible apply State.dictAnswer_within
    | with_reducible apply State.setDic_within
    | with_reducible refine Within.foldl ?_ ?_
    | with_reducible refine Within.foldlFst ?_ ?_
    | with_reducible refine Within.foldlSnd ?_ ?_
    | dsimp -zeta only
    | split

theorem execSrdoTransmit_within {n s} (hk : Sub 1024 k) (hs : Within k r s) :
    OutWithin k r (execSrdoTransmit n s) := by
  unfold execSrdoTransmit
  repeat' first
    | with_reducible assumption
    | exact hk.of rfl
    | intro _
    | extract_lets
    | with_reducible refine OutWithin.ofNext ?_
    | with_reducible refine State.onClock_within ?_ ?_
    | with_reducible apply State.emit_within
    | with_reducible refine Within.foldl ?_ ?_
    | with_reducible refine Within.foldlFst ?_ ?_
    | with_reducible refine Within.foldlSnd ?_ ?_
    | dsimp -zeta only
    | split

end Sys2Proof.Machine
end

