-- ==== Sys2Proof/Laws/Frame/Dispatch.lean ====
section
/-! SUPPORT. What the functions of Machine/Dispatch.lean may change. -/

namespace Sys2Proof.Machine

variable {k : Nat} {r : State}

theorem exec_within {i s} (hk : Sub 536870911 k) (hs : Within k r s) :
    OutWithin k r (exec i s) := by
  unfold exec
  repeat' first
    | with_reducible assumption
    | exact hk.of rfl
    | intro _
    | extract_lets
    | with_reducible refine OutWithin.ofNext ?_
    | with_reducible refine State.onClock_within ?_ ?_
    | with_reducible apply execAccept_within
    | with_reducible apply execAct_within
    | with_reducible apply execActivate_within
    | with_reducible apply execActivateComplete_within
    | with_reducible apply execAdd_within
    | with_reducible apply execAdjWrite_within
    | with_reducible apply execAdmitComplete_within
    | with_reducible apply execAdmitDie_within
    | with_reducible apply execApply_within
    | with_reducible apply execArm_within
    | with_reducible apply execAttest_within
    | with_reducible apply execAvsStepComplete_within
    | with_reducible apply execBiasTableWrite_within
    | with_reducible apply execBrlChTrimWrite_within
    | with_reducible apply execBroadcastCopy_within
    | with_reducible apply execBuQueuedRequestStart_within
    | with_reducible apply execBuResetNAssert_within
    | with_reducible apply execBuResetNDeassert_within
    | with_reducible apply execBuStepComplete_within
    | with_reducible apply execCamcfgWrite_within
    | with_reducible apply execCanBusOff_within
    | with_reducible apply execCanBusOffRecovery_within
    | with_reducible apply execCanHeartbeat_within
    | with_reducible apply execCfgLoad_within
    | with_reducible apply execCfgkeyFuse_within
    | with_reducible apply execClaim_within
    | with_reducible apply execClearComplete_within
    | with_reducible apply execClearStart_within
    | with_reducible apply execCoeSdoRequest_within
    | with_reducible apply execCollect_within
    | with_reducible apply execCommandComplete_within
    | with_reducible apply execCommandDispatch_within
    | with_reducible apply execCommandFetch_within
    | with_reducible apply execCommit_within
    | with_reducible apply execCommitWaitEnd_within
    | with_reducible apply execComparatorCrossing_within
    | with_reducible apply execConv_within
    | with_reducible apply execCopy_within
    | with_reducible apply execCoreReset_within
    | with_reducible apply execCrowbarTrip_within
    | with_reducible apply execCsiFrameEnd_within
    | with_reducible apply execCsiFrameStart_within
    | with_reducible apply execCtxAbort_within
    | with_reducible apply execCtxDb_within
    | with_reducible apply execCtxDisable_within
    | with_reducible apply execCtxEnable_within
    | with_reducible apply execCtxHalt_within
    | with_reducible apply execCtxResume_within
    | with_reducible apply execCvt_within
    | with_reducible apply execDeadtimeEnd_within
    | with_reducible apply execDebugEnable_within
    | with_reducible apply execDecay_within
    | with_reducible apply execDefectClear_within
    | with_reducible apply execDeniedResponse_within
    | with_reducible apply execDesatTrip_within
    | with_reducible apply execDict_within
    | with_reducible apply execDictRead_within
    | with_reducible apply execDictWrite_within
    | with_reducible apply execDieReset_within
    | with_reducible apply execDisarm_within
    | with_reducible apply execDiscard_within
    | with_reducible apply execDiscover_within
    | with_reducible apply execDividerRestart_within
    | with_reducible apply execDomainRequest_within
    | with_reducible apply execDomainSwitchDone_within
    | with_reducible apply execDomains_within
    | with_reducible apply execDwconv_within
    | with_reducible apply execEcatCycleStart_within
    | with_reducible apply execEcatFrameReturn_within
    | with_reducible apply execEcatLinkLoss_within
    | with_reducible apply execEcatReturnLimit_within
    | with_reducible apply execEdge_within
    | with_reducible apply execEgoEval_within
    | with_reducible apply execEgoTick_within
    | with_reducible apply execEgocfgWrite_within
    | with_reducible apply execEncoderEdge_within
    | with_reducible apply execEpochRelease_within
    | with_reducible apply execEthFrameReceive_within
    | with_reducible apply execEvict_within
    | with_reducible apply execEvqWrite_within
    | with_reducible apply execExclude_within
    | with_reducible apply execFactor_within
    | with_reducible apply execFeedWriteComplete_within
    | with_reducible apply execFence_within
    | with_reducible apply execFenceDrainEnd_within
    | with_reducible apply execFill_within
    | with_reducible apply execFlr_within
    | with_reducible apply execFlush_within
    | with_reducible apply execFma_within
    | with_reducible apply execFmax_within
    | with_reducible apply execFrameMissing_within
    | with_reducible apply execFrameReady_within
    | with_reducible apply execFuseLoad_within
    | with_reducible apply execFwLoad_within
    | with_reducible apply execGateTableWrite_within
    | with_reducible apply execGetCert_within
    | with_reducible apply execGetNonce_within
    | with_reducible apply execGmul_within
    | with_reducible apply execGuardedBufferWrite_within
    | with_reducible apply execGuardedFrameStart_within
    | with_reducible apply execHbWrite_within
    | with_reducible apply execHeartbeatAnswer_within
    | with_reducible apply execHeartbeatCheck_within
    | with_reducible apply execHeartbeatSend_within
    | with_reducible apply execHintExpire_within
    | with_reducible apply execHintWrite_within
    | with_reducible apply execHoldoverTimeout_within
    | with_reducible apply execHostDown_within
    | with_reducible apply execIdentityReadComplete_within
    | with_reducible apply execImage_within
    | with_reducible apply execImageStageComplete_within
    | with_reducible apply execImuBurstComplete_within
    | with_reducible apply execImuDrdy_within
    | with_reducible apply execImucfgWrite_within
    | with_reducible apply execInject_within
    | with_reducible apply execIntegrate_within
    | with_reducible apply execIssuecapWrite_within
    | with_reducible apply execKeyDestroy_within
    | with_reducible apply execKeyImport_within
    | with_reducible apply execKvAdopt_within
    | with_reducible apply execKvAlloc_within
    | with_reducible apply execKvDrop_within
    | with_reducible apply execKvFree_within
    | with_reducible apply execKvMark_within
    | with_reducible apply execKvPin_within
    | with_reducible apply execKvSeal_within
    | with_reducible apply execKvWrite_within
    | with_reducible apply execKvpoolInitDone_within
    | with_reducible apply execKvpoolWrite_within
    | with_reducible apply execLatchReq_within
    | with_reducible apply execLayernorm_within
    | with_reducible apply execLinkDown_within
    | with_reducible apply execLossOfLock_within
    | with_reducible apply execLossTimeout_within
    | with_reducible apply execMailboxAnswer_within
    | with_reducible apply execMap_within
    | with_reducible apply execMapInitDone_within
    | with_reducible apply execMapcfgWrite_within
    | with_reducible apply execMasterWrite_within
    | with_reducible apply execMatmul_within
    | with_reducible apply execMatrixIdleTimeout_within
    | with_reducible apply execMax_within
    | with_reducible apply execMbxRead_within
    | with_reducible apply execMbxResponse_within
    | with_reducible apply execMbxTimeout_within
    | with_reducible apply execMbxWrite_within
    | with_reducible apply execMin_within
    | with_reducible apply execModeWrite_within
    | with_reducible apply execModelLoad_within
    | with_reducible apply execMul_within
    | with_reducible apply execNowRead_within
    | with_reducible apply execOutputDeadline_within
    | with_reducible apply execOutputEnable_within
    | with_reducible apply execPackageReset_within
    | with_reducible apply execPacketAuthFail_within
    | with_reducible apply execPacketCrcError_within
    | with_reducible apply execPadd_within
    | with_reducible apply execPartCfgWrite_within
    | with_reducible apply execPartProtect_within
    | with_reducible apply execPartRelease_within
    | with_reducible apply execPartitionReset_within
    | with_reducible apply execPatrolScrub_within
    | with_reducible apply execPllLock_within
    | with_reducible apply execPmbAlert_within
    | with_reducible apply execPoint_within
    | with_reducible apply execPoolAvg_within
    | with_reducible apply execPoolMax_within
    | with_reducible apply execPowerSample_within
    | with_reducible apply execPpsPulse_within
    | with_reducible apply execPreemptionPoint_within
    | with_reducible apply execPrefetch_within
    | with_reducible apply execPrim_within
    | with_reducible apply execPround_within
    | with_reducible apply execPtpSample_within
    | with_reducible apply execQuiesceEnd_within
    | with_reducible apply execRateWrite_within
    | with_reducible apply execReadmit_within
    | with_reducible apply execRearm_within
    | with_reducible apply execRecheck_within
    | with_reducible apply execRefclkLoss_within
    | with_reducible apply execRegionBistComplete_within
    | with_reducible apply execRegisterWrite_within
    | with_reducible apply execRegread_within
    | with_reducible apply execRelayout_within
    | with_reducible apply execRelease_within
    | with_reducible apply execReleaseBuffer_within
    | with_reducible apply execRelockTimeout_within
    | with_reducible apply execRepair_within
    | with_reducible apply execResetComplete_within
    | with_reducible apply execResetDrainTimeout_within
    | with_reducible apply execResetRequest_within
    | with_reducible apply execRestoreDefaults_within
    | with_reducible apply execRetryExpire_within
    | with_reducible apply execRmax_within
    | with_reducible apply execRmsnorm_within
    | with_reducible apply execRoadmap_within
    | with_reducible apply execRootPll_within
    | with_reducible apply execRsum_within
    | with_reducible apply execRsvWrite_within
    | with_reducible apply execSafeLineEdge_within
    | with_reducible apply execSafetyDictRequest_within
    | with_reducible apply execSampleBoundary_within
    | with_reducible apply execScan_within
    | with_reducible apply execScanOnly_within
    | with_reducible apply execScore_within
    | with_reducible apply execSessionClose_within
    | with_reducible apply execSessionFinish_within
    | with_reducible apply execSessionOpen_within
    | with_reducible apply execSessionTimeout_within
    | with_reducible apply execShutdown_within
    | with_reducible apply execShutdownAbort_within
    | with_reducible apply execShutdownOff_within
    | with_reducible apply execSlotEnd_within
    | with_reducible apply execSnap_within
    | with_reducible apply execSnapHeldRun_within
    | with_reducible apply execSoftmax_within
    | with_reducible apply execSolve_within
    | with_reducible apply execSpEdge_within
    | with_reducible apply execSpLost_within
    | with_reducible apply execSqFetchFail_within
    | with_reducible apply execSrdoTransmit_within
    | with_reducible apply execStartTest_within
    | with_reducible apply execStoreComplete_within
    | with_reducible apply execStoreParameters_within
    | with_reducible apply execStreamClose_within
    | with_reducible apply execStreamDoorbell_within
    | with_reducible apply execStreamOpen_within
    | with_reducible apply execStreamStep_within
    | with_reducible apply execStreamStepComplete_within
    | with_reducible apply execSubdeviceAnswer_within
    | with_reducible apply execSwap_within
    | with_reducible apply execSwitchBlockEnd_within
    | with_reducible apply execSwsample_within
    | with_reducible apply execT0Switch_within
    | with_reducible apply execT0SwitchComplete_within
    | with_reducible apply execT3Timeout_within
    | with_reducible apply execTconv_within
    | with_reducible apply execThermalEval_within
    | with_reducible apply execThrottleStep_within
    | with_reducible apply execTicketExpire_within
    | with_reducible apply execTicketOpComplete_within
    | with_reducible apply execTileComplete_within
    | with_reducible apply execTileStart_within
    | with_reducible apply execTree_within
    | with_reducible apply execTrsolve_within
    | with_reducible apply execTxDoorbell_within
    | with_reducible apply execTxTimestampPoint_within
    | with_reducible apply execTxtsqRead_within
    | with_reducible apply execUncoreFatal_within
    | with_reducible apply execUpdate_within
    | with_reducible apply execUsdoRequest_within
    | with_reducible apply execValue_within
    | with_reducible apply execVddAonApply_within
    | with_reducible apply execVddAonLoss_within
    | with_reducible apply execVddIo18Apply_within
    | with_reducible apply execVddIo18Loss_within
    | with_reducible apply execWayflush_within
    | with_reducible apply execWaymodeWrite_within
    | with_reducible refine Within.foldl ?_ ?_
    | with_reducible refine Within.foldlFst ?_ ?_
    | with_reducible refine Within.foldlSnd ?_ ?_
    | dsimp -zeta only
    | split

end Sys2Proof.Machine
end

