-- ==== Sys2Proof/Laws/Frame/Step.lean ====
section
/-! SUPPORT. What the functions of Machine/Step.lean may change, and how a bound on what changed gives `sameBut`. -/

namespace Sys2Proof.Machine

variable {k : Nat} {r : State}

theorem State.holdReset_within {s} (hk : Sub 536804286 k) (hs : Within k r s) :
    Within k r (State.holdReset s) := by
  unfold State.holdReset
  repeat' first
    | with_reducible assumption
    | exact hk.of rfl
    | intro _
    | extract_lets
    | with_reducible apply State.packageReset_within
    | fail_if_no_progress ((with_reducible refine Within.bu ?_ ?_ _); exact hk.of rfl)
    | with_reducible refine Within.foldl ?_ ?_
    | with_reducible refine Within.foldlFst ?_ ?_
    | with_reducible refine Within.foldlSnd ?_ ?_
    | dsimp -zeta only
    | split

theorem State.idle_within {s} (hk : Sub 536804287 k) (hs : Within k r s) :
    Within k r (State.idle s) := by
  unfold State.idle
  repeat' first
    | with_reducible assumption
    | exact hk.of rfl
    | intro _
    | extract_lets
    | with_reducible apply State.holdReset_within
    | with_reducible apply State.rfxDrain_within
    | with_reducible apply State.timeCycle_within
    | with_reducible refine Within.foldl ?_ ?_
    | with_reducible refine Within.foldlFst ?_ ?_
    | with_reducible refine Within.foldlSnd ?_ ?_
    | dsimp -zeta only
    | split

theorem Sub.self (k : Nat) : Sub k k := Nat.and_self k

/-- Every part. -/
def allParts : List Part :=
  [.free, .regs, .dict, .blobs, .mem, .scrambled, .hostMem, .poison, .t1, .plru, .out, .pkg, .sched, .host, .time, .fabric, .fuses,
   .sec, .kv, .seq, .geo, .rings, .ing, .rfx, .cmp, .ecat, .dic, .pwr, .bu]

theorem mem_allParts (p : Part) : p ∈ allParts := by cases p <;> decide

theorem Within.sameBut {t : State} {ps : List Part} (h : Within k r t)
    (hp : allParts.all (fun p => ps.contains p || !k.testBit p.num) = true) : r.sameBut ps t := by
  refine ⟨h.queue, fun p hn => h.parts p ?_⟩
  have hq := List.all_eq_true.1 hp p (mem_allParts p)
  simpa [hn] using hq

theorem OutWithin.sameBut {t : State} {o : Host.Outcome State Fault Refusal} {ps : List Part} (h : OutWithin k r o) (ho : o = .next t)
    (hp : allParts.all (fun p => ps.contains p || !k.testBit p.num) = true) : r.sameBut ps t := (h.next t ho).sameBut hp

/-- What any step does: the queue loses its front, nothing is undone, and every canonical form is kept. -/
theorem step_within {s t : State} (h : step s = .next t) : Within 536870911 { s with pending := s.pending.tail } t := by
  unfold step at h
  split at h
  · rename_i c rest e
    rw [e]
    exact (exec_within (Sub.self _) (Within.refl _ _)).next t h
  · rename_i e
    cases h
    rw [e]
    have : ({ s with pending := [] } : State) = s := by rw [← e]
    rw [List.tail_nil, this]
    exact State.idle_within (show Sub _ _ from rfl) (Within.refl _ _)

end Sys2Proof.Machine
end

