-- ==== Sys2Proof/Laws/State.lean ====
section
/-! SUPPORT. What each update of the state leaves as it was: one lemma per field per update. -/

namespace Sys2Proof.Machine

variable (s : State)

/-! ### `setO` -/

@[simp] theorem State.setO_pending (f : Fld) (n i v : Nat) : (s.setO f n i v).pending = s.pending := rfl
@[simp] theorem State.setO_freeCount (f : Fld) (n i v : Nat) : (s.setO f n i v).freeCount = s.freeCount := rfl
@[simp] theorem State.setO_dict (f : Fld) (n i v : Nat) : (s.setO f n i v).dict = s.dict := rfl
@[simp] theorem State.setO_blobs (f : Fld) (n i v : Nat) : (s.setO f n i v).blobs = s.blobs := rfl
@[simp] theorem State.setO_mem (f : Fld) (n i v : Nat) : (s.setO f n i v).mem = s.mem := rfl
@[simp] theorem State.setO_scrambled (f : Fld) (n i v : Nat) : (s.setO f n i v).scrambled = s.scrambled := rfl
@[simp] theorem State.setO_hostMem (f : Fld) (n i v : Nat) : (s.setO f n i v).hostMem = s.hostMem := rfl
@[simp] theorem State.setO_poison (f : Fld) (n i v : Nat) : (s.setO f n i v).poison = s.poison := rfl
@[simp] theorem State.setO_t1 (f : Fld) (n i v : Nat) : (s.setO f n i v).t1 = s.t1 := rfl
@[simp] theorem State.setO_plru (f : Fld) (n i v : Nat) : (s.setO f n i v).plru = s.plru := rfl
@[simp] theorem State.setO_out (f : Fld) (n i v : Nat) : (s.setO f n i v).out = s.out := rfl
@[simp] theorem State.setO_pkg (f : Fld) (n i v : Nat) : (s.setO f n i v).pkg = s.pkg := rfl
@[simp] theorem State.setO_sched (f : Fld) (n i v : Nat) : (s.setO f n i v).sched = s.sched := rfl
@[simp] theorem State.setO_host (f : Fld) (n i v : Nat) : (s.setO f n i v).host = s.host := rfl
@[simp] theorem State.setO_time (f : Fld) (n i v : Nat) : (s.setO f n i v).time = s.time := rfl
@[simp] theorem State.setO_fabric (f : Fld) (n i v : Nat) : (s.setO f n i v).fabric = s.fabric := rfl
@[simp] theorem State.setO_fuses (f : Fld) (n i v : Nat) : (s.setO f n i v).fuses = s.fuses := rfl
@[simp] theorem State.setO_sec (f : Fld) (n i v : Nat) : (s.setO f n i v).sec = s.sec := rfl
@[simp] theorem State.setO_kv (f : Fld) (n i v : Nat) : (s.setO f n i v).kv = s.kv := rfl
@[simp] theorem State.setO_seq (f : Fld) (n i v : Nat) : (s.setO f n i v).seq = s.seq := rfl
@[simp] theorem State.setO_geo (f : Fld) (n i v : Nat) : (s.setO f n i v).geo = s.geo := rfl
@[simp] theorem State.setO_rings (f : Fld) (n i v : Nat) : (s.setO f n i v).rings = s.rings := rfl
@[simp] theorem State.setO_ing (f : Fld) (n i v : Nat) : (s.setO f n i v).ing = s.ing := rfl
@[simp] theorem State.setO_rfx (f : Fld) (n i v : Nat) : (s.setO f n i v).rfx = s.rfx := rfl
@[simp] theorem State.setO_cmp (f : Fld) (n i v : Nat) : (s.setO f n i v).cmp = s.cmp := rfl
@[simp] theorem State.setO_ecat (f : Fld) (n i v : Nat) : (s.setO f n i v).ecat = s.ecat := rfl
@[simp] theorem State.setO_dic (f : Fld) (n i v : Nat) : (s.setO f n i v).dic = s.dic := rfl
@[simp] theorem State.setO_pwr (f : Fld) (n i v : Nat) : (s.setO f n i v).pwr = s.pwr := rfl
@[simp] theorem State.setO_bu (f : Fld) (n i v : Nat) : (s.setO f n i v).bu = s.bu := rfl

/-! ### `set` -/

@[simp] theorem State.set_pending (f : Fld) (i v : Nat) : (s.set f i v).pending = s.pending := rfl
@[simp] theorem State.set_freeCount (f : Fld) (i v : Nat) : (s.set f i v).freeCount = s.freeCount := rfl
@[simp] theorem State.set_dict (f : Fld) (i v : Nat) : (s.set f i v).dict = s.dict := rfl
@[simp] theorem State.set_blobs (f : Fld) (i v : Nat) : (s.set f i v).blobs = s.blobs := rfl
@[simp] theorem State.set_mem (f : Fld) (i v : Nat) : (s.set f i v).mem = s.mem := rfl
@[simp] theorem State.set_scrambled (f : Fld) (i v : Nat) : (s.set f i v).scrambled = s.scrambled := rfl
@[simp] theorem State.set_hostMem (f : Fld) (i v : Nat) : (s.set f i v).hostMem = s.hostMem := rfl
@[simp] theorem State.set_poison (f : Fld) (i v : Nat) : (s.set f i v).poison = s.poison := rfl
@[simp] theorem State.set_t1 (f : Fld) (i v : Nat) : (s.set f i v).t1 = s.t1 := rfl
@[simp] theorem State.set_plru (f : Fld) (i v : Nat) : (s.set f i v).plru = s.plru := rfl
@[simp] theorem State.set_out (f : Fld) (i v : Nat) : (s.set f i v).out = s.out := rfl
@[simp] theorem State.set_pkg (f : Fld) (i v : Nat) : (s.set f i v).pkg = s.pkg := rfl
@[simp] theorem State.set_sched (f : Fld) (i v : Nat) : (s.set f i v).sched = s.sched := rfl
@[simp] theorem State.set_host (f : Fld) (i v : Nat) : (s.set f i v).host = s.host := rfl
@[simp] theorem State.set_time (f : Fld) (i v : Nat) : (s.set f i v).time = s.time := rfl
@[simp] theorem State.set_fabric (f : Fld) (i v : Nat) : (s.set f i v).fabric = s.fabric := rfl
@[simp] theorem State.set_fuses (f : Fld) (i v : Nat) : (s.set f i v).fuses = s.fuses := rfl
@[simp] theorem State.set_sec (f : Fld) (i v : Nat) : (s.set f i v).sec = s.sec := rfl
@[simp] theorem State.set_kv (f : Fld) (i v : Nat) : (s.set f i v).kv = s.kv := rfl
@[simp] theorem State.set_seq (f : Fld) (i v : Nat) : (s.set f i v).seq = s.seq := rfl
@[simp] theorem State.set_geo (f : Fld) (i v : Nat) : (s.set f i v).geo = s.geo := rfl
@[simp] theorem State.set_rings (f : Fld) (i v : Nat) : (s.set f i v).rings = s.rings := rfl
@[simp] theorem State.set_ing (f : Fld) (i v : Nat) : (s.set f i v).ing = s.ing := rfl
@[simp] theorem State.set_rfx (f : Fld) (i v : Nat) : (s.set f i v).rfx = s.rfx := rfl
@[simp] theorem State.set_cmp (f : Fld) (i v : Nat) : (s.set f i v).cmp = s.cmp := rfl
@[simp] theorem State.set_ecat (f : Fld) (i v : Nat) : (s.set f i v).ecat = s.ecat := rfl
@[simp] theorem State.set_dic (f : Fld) (i v : Nat) : (s.set f i v).dic = s.dic := rfl
@[simp] theorem State.set_pwr (f : Fld) (i v : Nat) : (s.set f i v).pwr = s.pwr := rfl
@[simp] theorem State.set_bu (f : Fld) (i v : Nat) : (s.set f i v).bu = s.bu := rfl

/-! ### `countO` -/

@[simp] theorem State.countO_pending (f : Fld) (n i k : Nat) : (s.countO f n i k).pending = s.pending := rfl
@[simp] theorem State.countO_freeCount (f : Fld) (n i k : Nat) : (s.countO f n i k).freeCount = s.freeCount := rfl
@[simp] theorem State.countO_dict (f : Fld) (n i k : Nat) : (s.countO f n i k).dict = s.dict := rfl
@[simp] theorem State.countO_blobs (f : Fld) (n i k : Nat) : (s.countO f n i k).blobs = s.blobs := rfl
@[simp] theorem State.countO_mem (f : Fld) (n i k : Nat) : (s.countO f n i k).mem = s.mem := rfl
@[simp] theorem State.countO_scrambled (f : Fld) (n i k : Nat) : (s.countO f n i k).scrambled = s.scrambled := rfl
@[simp] theorem State.countO_hostMem (f : Fld) (n i k : Nat) : (s.countO f n i k).hostMem = s.hostMem := rfl
@[simp] theorem State.countO_poison (f : Fld) (n i k : Nat) : (s.countO f n i k).poison = s.poison := rfl
@[simp] theorem State.countO_t1 (f : Fld) (n i k : Nat) : (s.countO f n i k).t1 = s.t1 := rfl
@[simp] theorem State.countO_plru (f : Fld) (n i k : Nat) : (s.countO f n i k).plru = s.plru := rfl
@[simp] theorem State.countO_out (f : Fld) (n i k : Nat) : (s.countO f n i k).out = s.out := rfl
@[simp] theorem State.countO_pkg (f : Fld) (n i k : Nat) : (s.countO f n i k).pkg = s.pkg := rfl
@[simp] theorem State.countO_sched (f : Fld) (n i k : Nat) : (s.countO f n i k).sched = s.sched := rfl
@[simp] theorem State.countO_host (f : Fld) (n i k : Nat) : (s.countO f n i k).host = s.host := rfl
@[simp] theorem State.countO_time (f : Fld) (n i k : Nat) : (s.countO f n i k).time = s.time := rfl
@[simp] theorem State.countO_fabric (f : Fld) (n i k : Nat) : (s.countO f n i k).fabric = s.fabric := rfl
@[simp] theorem State.countO_fuses (f : Fld) (n i k : Nat) : (s.countO f n i k).fuses = s.fuses := rfl
@[simp] theorem State.countO_sec (f : Fld) (n i k : Nat) : (s.countO f n i k).sec = s.sec := rfl
@[simp] theorem State.countO_kv (f : Fld) (n i k : Nat) : (s.countO f n i k).kv = s.kv := rfl
@[simp] theorem State.countO_seq (f : Fld) (n i k : Nat) : (s.countO f n i k).seq = s.seq := rfl
@[simp] theorem State.countO_geo (f : Fld) (n i k : Nat) : (s.countO f n i k).geo = s.geo := rfl
@[simp] theorem State.countO_rings (f : Fld) (n i k : Nat) : (s.countO f n i k).rings = s.rings := rfl
@[simp] theorem State.countO_ing (f : Fld) (n i k : Nat) : (s.countO f n i k).ing = s.ing := rfl
@[simp] theorem State.countO_rfx (f : Fld) (n i k : Nat) : (s.countO f n i k).rfx = s.rfx := rfl
@[simp] theorem State.countO_cmp (f : Fld) (n i k : Nat) : (s.countO f n i k).cmp = s.cmp := rfl
@[simp] theorem State.countO_ecat (f : Fld) (n i k : Nat) : (s.countO f n i k).ecat = s.ecat := rfl
@[simp] theorem State.countO_dic (f : Fld) (n i k : Nat) : (s.countO f n i k).dic = s.dic := rfl
@[simp] theorem State.countO_pwr (f : Fld) (n i k : Nat) : (s.countO f n i k).pwr = s.pwr := rfl
@[simp] theorem State.countO_bu (f : Fld) (n i k : Nat) : (s.countO f n i k).bu = s.bu := rfl

/-! ### `count` -/

@[simp] theorem State.count_pending (f : Fld) (i k : Nat) : (s.count f i k).pending = s.pending := rfl
@[simp] theorem State.count_freeCount (f : Fld) (i k : Nat) : (s.count f i k).freeCount = s.freeCount := rfl
@[simp] theorem State.count_dict (f : Fld) (i k : Nat) : (s.count f i k).dict = s.dict := rfl
@[simp] theorem State.count_blobs (f : Fld) (i k : Nat) : (s.count f i k).blobs = s.blobs := rfl
@[simp] theorem State.count_mem (f : Fld) (i k : Nat) : (s.count f i k).mem = s.mem := rfl
@[simp] theorem State.count_scrambled (f : Fld) (i k : Nat) : (s.count f i k).scrambled = s.scrambled := rfl
@[simp] theorem State.count_hostMem (f : Fld) (i k : Nat) : (s.count f i k).hostMem = s.hostMem := rfl
@[simp] theorem State.count_poison (f : Fld) (i k : Nat) : (s.count f i k).poison = s.poison := rfl
@[simp] theorem State.count_t1 (f : Fld) (i k : Nat) : (s.count f i k).t1 = s.t1 := rfl
@[simp] theorem State.count_plru (f : Fld) (i k : Nat) : (s.count f i k).plru = s.plru := rfl
@[simp] theorem State.count_out (f : Fld) (i k : Nat) : (s.count f i k).out = s.out := rfl
@[simp] theorem State.count_pkg (f : Fld) (i k : Nat) : (s.count f i k).pkg = s.pkg := rfl
@[simp] theorem State.count_sched (f : Fld) (i k : Nat) : (s.count f i k).sched = s.sched := rfl
@[simp] theorem State.count_host (f : Fld) (i k : Nat) : (s.count f i k).host = s.host := rfl
@[simp] theorem State.count_time (f : Fld) (i k : Nat) : (s.count f i k).time = s.time := rfl
@[simp] theorem State.count_fabric (f : Fld) (i k : Nat) : (s.count f i k).fabric = s.fabric := rfl
@[simp] theorem State.count_fuses (f : Fld) (i k : Nat) : (s.count f i k).fuses = s.fuses := rfl
@[simp] theorem State.count_sec (f : Fld) (i k : Nat) : (s.count f i k).sec = s.sec := rfl
@[simp] theorem State.count_kv (f : Fld) (i k : Nat) : (s.count f i k).kv = s.kv := rfl
@[simp] theorem State.count_seq (f : Fld) (i k : Nat) : (s.count f i k).seq = s.seq := rfl
@[simp] theorem State.count_geo (f : Fld) (i k : Nat) : (s.count f i k).geo = s.geo := rfl
@[simp] theorem State.count_rings (f : Fld) (i k : Nat) : (s.count f i k).rings = s.rings := rfl
@[simp] theorem State.count_ing (f : Fld) (i k : Nat) : (s.count f i k).ing = s.ing := rfl
@[simp] theorem State.count_rfx (f : Fld) (i k : Nat) : (s.count f i k).rfx = s.rfx := rfl
@[simp] theorem State.count_cmp (f : Fld) (i k : Nat) : (s.count f i k).cmp = s.cmp := rfl
@[simp] theorem State.count_ecat (f : Fld) (i k : Nat) : (s.count f i k).ecat = s.ecat := rfl
@[simp] theorem State.count_dic (f : Fld) (i k : Nat) : (s.count f i k).dic = s.dic := rfl
@[simp] theorem State.count_pwr (f : Fld) (i k : Nat) : (s.count f i k).pwr = s.pwr := rfl
@[simp] theorem State.count_bu (f : Fld) (i k : Nat) : (s.count f i k).bu = s.bu := rfl

/-! ### `emit` -/

@[simp] theorem State.emit_pending (o : Output) : (s.emit o).pending = s.pending := rfl
@[simp] theorem State.emit_freeCount (o : Output) : (s.emit o).freeCount = s.freeCount := rfl
@[simp] theorem State.emit_regs (o : Output) : (s.emit o).regs = s.regs := rfl
@[simp] theorem State.emit_dict (o : Output) : (s.emit o).dict = s.dict := rfl
@[simp] theorem State.emit_blobs (o : Output) : (s.emit o).blobs = s.blobs := rfl
@[simp] theorem State.emit_mem (o : Output) : (s.emit o).mem = s.mem := rfl
@[simp] theorem State.emit_scrambled (o : Output) : (s.emit o).scrambled = s.scrambled := rfl
@[simp] theorem State.emit_hostMem (o : Output) : (s.emit o).hostMem = s.hostMem := rfl
@[simp] theorem State.emit_poison (o : Output) : (s.emit o).poison = s.poison := rfl
@[simp] theorem State.emit_t1 (o : Output) : (s.emit o).t1 = s.t1 := rfl
@[simp] theorem State.emit_plru (o : Output) : (s.emit o).plru = s.plru := rfl
@[simp] theorem State.emit_out (o : Output) : (s.emit o).out = s.out ++ [o] := rfl
@[simp] theorem State.emit_pkg (o : Output) : (s.emit o).pkg = s.pkg := rfl
@[simp] theorem State.emit_sched (o : Output) : (s.emit o).sched = s.sched := rfl
@[simp] theorem State.emit_host (o : Output) : (s.emit o).host = s.host := rfl
@[simp] theorem State.emit_time (o : Output) : (s.emit o).time = s.time := rfl
@[simp] theorem State.emit_fabric (o : Output) : (s.emit o).fabric = s.fabric := rfl
@[simp] theorem State.emit_fuses (o : Output) : (s.emit o).fuses = s.fuses := rfl
@[simp] theorem State.emit_sec (o : Output) : (s.emit o).sec = s.sec := rfl
@[simp] theorem State.emit_kv (o : Output) : (s.emit o).kv = s.kv := rfl
@[simp] theorem State.emit_seq (o : Output) : (s.emit o).seq = s.seq := rfl
@[simp] theorem State.emit_geo (o : Output) : (s.emit o).geo = s.geo := rfl
@[simp] theorem State.emit_rings (o : Output) : (s.emit o).rings = s.rings := rfl
@[simp] theorem State.emit_ing (o : Output) : (s.emit o).ing = s.ing := rfl
@[simp] theorem State.emit_rfx (o : Output) : (s.emit o).rfx = s.rfx := rfl
@[simp] theorem State.emit_cmp (o : Output) : (s.emit o).cmp = s.cmp := rfl
@[simp] theorem State.emit_ecat (o : Output) : (s.emit o).ecat = s.ecat := rfl
@[simp] theorem State.emit_dic (o : Output) : (s.emit o).dic = s.dic := rfl
@[simp] theorem State.emit_pwr (o : Output) : (s.emit o).pwr = s.pwr := rfl
@[simp] theorem State.emit_bu (o : Output) : (s.emit o).bu = s.bu := rfl

/-! ### `setObj` -/

@[simp] theorem State.setObj_pending (d idx sub v : Nat) : (s.setObj d idx sub v).pending = s.pending := rfl
@[simp] theorem State.setObj_freeCount (d idx sub v : Nat) : (s.setObj d idx sub v).freeCount = s.freeCount := rfl
@[simp] theorem State.setObj_regs (d idx sub v : Nat) : (s.setObj d idx sub v).regs = s.regs := rfl
@[simp] theorem State.setObj_blobs (d idx sub v : Nat) : (s.setObj d idx sub v).blobs = s.blobs := rfl
@[simp] theorem State.setObj_mem (d idx sub v : Nat) : (s.setObj d idx sub v).mem = s.mem := rfl
@[simp] theorem State.setObj_scrambled (d idx sub v : Nat) : (s.setObj d idx sub v).scrambled = s.scrambled := rfl
@[simp] theorem State.setObj_hostMem (d idx sub v : Nat) : (s.setObj d idx sub v).hostMem = s.hostMem := rfl
@[simp] theorem State.setObj_poison (d idx sub v : Nat) : (s.setObj d idx sub v).poison = s.poison := rfl
@[simp] theorem State.setObj_t1 (d idx sub v : Nat) : (s.setObj d idx sub v).t1 = s.t1 := rfl
@[simp] theorem State.setObj_plru (d idx sub v : Nat) : (s.setObj d idx sub v).plru = s.plru := rfl
@[simp] theorem State.setObj_out (d idx sub v : Nat) : (s.setObj d idx sub v).out = s.out := rfl
@[simp] theorem State.setObj_pkg (d idx sub v : Nat) : (s.setObj d idx sub v).pkg = s.pkg := rfl
@[simp] theorem State.setObj_sched (d idx sub v : Nat) : (s.setObj d idx sub v).sched = s.sched := rfl
@[simp] theorem State.setObj_host (d idx sub v : Nat) : (s.setObj d idx sub v).host = s.host := rfl
@[simp] theorem State.setObj_time (d idx sub v : Nat) : (s.setObj d idx sub v).time = s.time := rfl
@[simp] theorem State.setObj_fabric (d idx sub v : Nat) : (s.setObj d idx sub v).fabric = s.fabric := rfl
@[simp] theorem State.setObj_fuses (d idx sub v : Nat) : (s.setObj d idx sub v).fuses = s.fuses := rfl
@[simp] theorem State.setObj_sec (d idx sub v : Nat) : (s.setObj d idx sub v).sec = s.sec := rfl
@[simp] theorem State.setObj_kv (d idx sub v : Nat) : (s.setObj d idx sub v).kv = s.kv := rfl
@[simp] theorem State.setObj_seq (d idx sub v : Nat) : (s.setObj d idx sub v).seq = s.seq := rfl
@[simp] theorem State.setObj_geo (d idx sub v : Nat) : (s.setObj d idx sub v).geo = s.geo := rfl
@[simp] theorem State.setObj_rings (d idx sub v : Nat) : (s.setObj d idx sub v).rings = s.rings := rfl
@[simp] theorem State.setObj_ing (d idx sub v : Nat) : (s.setObj d idx sub v).ing = s.ing := rfl
@[simp] theorem State.setObj_rfx (d idx sub v : Nat) : (s.setObj d idx sub v).rfx = s.rfx := rfl
@[simp] theorem State.setObj_cmp (d idx sub v : Nat) : (s.setObj d idx sub v).cmp = s.cmp := rfl
@[simp] theorem State.setObj_ecat (d idx sub v : Nat) : (s.setObj d idx sub v).ecat = s.ecat := rfl
@[simp] theorem State.setObj_dic (d idx sub v : Nat) : (s.setObj d idx sub v).dic = s.dic := rfl
@[simp] theorem State.setObj_pwr (d idx sub v : Nat) : (s.setObj d idx sub v).pwr = s.pwr := rfl
@[simp] theorem State.setObj_bu (d idx sub v : Nat) : (s.setObj d idx sub v).bu = s.bu := rfl

/-! ### `setBlob` -/

@[simp] theorem State.setBlob_pending (idx sub : Nat) (b : List Byte) : (s.setBlob idx sub b).pending = s.pending := rfl
@[simp] theorem State.setBlob_freeCount (idx sub : Nat) (b : List Byte) : (s.setBlob idx sub b).freeCount = s.freeCount := rfl
@[simp] theorem State.setBlob_regs (idx sub : Nat) (b : List Byte) : (s.setBlob idx sub b).regs = s.regs := rfl
@[simp] theorem State.setBlob_dict (idx sub : Nat) (b : List Byte) : (s.setBlob idx sub b).dict = s.dict := rfl
@[simp] theorem State.setBlob_mem (idx sub : Nat) (b : List Byte) : (s.setBlob idx sub b).mem = s.mem := rfl
@[simp] theorem State.setBlob_scrambled (idx sub : Nat) (b : List Byte) : (s.setBlob idx sub b).scrambled = s.scrambled := rfl
@[simp] theorem State.setBlob_hostMem (idx sub : Nat) (b : List Byte) : (s.setBlob idx sub b).hostMem = s.hostMem := rfl
@[simp] theorem State.setBlob_poison (idx sub : Nat) (b : List Byte) : (s.setBlob idx sub b).poison = s.poison := rfl
@[simp] theorem State.setBlob_t1 (idx sub : Nat) (b : List Byte) : (s.setBlob idx sub b).t1 = s.t1 := rfl
@[simp] theorem State.setBlob_plru (idx sub : Nat) (b : List Byte) : (s.setBlob idx sub b).plru = s.plru := rfl
@[simp] theorem State.setBlob_out (idx sub : Nat) (b : List Byte) : (s.setBlob idx sub b).out = s.out := rfl
@[simp] theorem State.setBlob_pkg (idx sub : Nat) (b : List Byte) : (s.setBlob idx sub b).pkg = s.pkg := rfl
@[simp] theorem State.setBlob_sched (idx sub : Nat) (b : List Byte) : (s.setBlob idx sub b).sched = s.sched := rfl
@[simp] theorem State.setBlob_host (idx sub : Nat) (b : List Byte) : (s.setBlob idx sub b).host = s.host := rfl
@[simp] theorem State.setBlob_time (idx sub : Nat) (b : List Byte) : (s.setBlob idx sub b).time = s.time := rfl
@[simp] theorem State.setBlob_fabric (idx sub : Nat) (b : List Byte) : (s.setBlob idx sub b).fabric = s.fabric := rfl
@[simp] theorem State.setBlob_fuses (idx sub : Nat) (b : List Byte) : (s.setBlob idx sub b).fuses = s.fuses := rfl
@[simp] theorem State.setBlob_sec (idx sub : Nat) (b : List Byte) : (s.setBlob idx sub b).sec = s.sec := rfl
@[simp] theorem State.setBlob_kv (idx sub : Nat) (b : List Byte) : (s.setBlob idx sub b).kv = s.kv := rfl
@[simp] theorem State.setBlob_seq (idx sub : Nat) (b : List Byte) : (s.setBlob idx sub b).seq = s.seq := rfl
@[simp] theorem State.setBlob_geo (idx sub : Nat) (b : List Byte) : (s.setBlob idx sub b).geo = s.geo := rfl
@[simp] theorem State.setBlob_rings (idx sub : Nat) (b : List Byte) : (s.setBlob idx sub b).rings = s.rings := rfl
@[simp] theorem State.setBlob_ing (idx sub : Nat) (b : List Byte) : (s.setBlob idx sub b).ing = s.ing := rfl
@[simp] theorem State.setBlob_rfx (idx sub : Nat) (b : List Byte) : (s.setBlob idx sub b).rfx = s.rfx := rfl
@[simp] theorem State.setBlob_cmp (idx sub : Nat) (b : List Byte) : (s.setBlob idx sub b).cmp = s.cmp := rfl
@[simp] theorem State.setBlob_ecat (idx sub : Nat) (b : List Byte) : (s.setBlob idx sub b).ecat = s.ecat := rfl
@[simp] theorem State.setBlob_dic (idx sub : Nat) (b : List Byte) : (s.setBlob idx sub b).dic = s.dic := rfl
@[simp] theorem State.setBlob_pwr (idx sub : Nat) (b : List Byte) : (s.setBlob idx sub b).pwr = s.pwr := rfl
@[simp] theorem State.setBlob_bu (idx sub : Nat) (b : List Byte) : (s.setBlob idx sub b).bu = s.bu := rfl

/-! ### `poke` -/

@[simp] theorem State.poke_pending (p : Nat) (b : List Byte) : (s.poke p b).pending = s.pending := rfl
@[simp] theorem State.poke_freeCount (p : Nat) (b : List Byte) : (s.poke p b).freeCount = s.freeCount := rfl
@[simp] theorem State.poke_regs (p : Nat) (b : List Byte) : (s.poke p b).regs = s.regs := rfl
@[simp] theorem State.poke_dict (p : Nat) (b : List Byte) : (s.poke p b).dict = s.dict := rfl
@[simp] theorem State.poke_blobs (p : Nat) (b : List Byte) : (s.poke p b).blobs = s.blobs := rfl
@[simp] theorem State.poke_scrambled (p : Nat) (b : List Byte) : (s.poke p b).scrambled = s.scrambled := rfl
@[simp] theorem State.poke_hostMem (p : Nat) (b : List Byte) : (s.poke p b).hostMem = s.hostMem := rfl
@[simp] theorem State.poke_poison (p : Nat) (b : List Byte) : (s.poke p b).poison = s.poison := rfl
@[simp] theorem State.poke_t1 (p : Nat) (b : List Byte) : (s.poke p b).t1 = s.t1 := rfl
@[simp] theorem State.poke_plru (p : Nat) (b : List Byte) : (s.poke p b).plru = s.plru := rfl
@[simp] theorem State.poke_out (p : Nat) (b : List Byte) : (s.poke p b).out = s.out := rfl
@[simp] theorem State.poke_pkg (p : Nat) (b : List Byte) : (s.poke p b).pkg = s.pkg := rfl
@[simp] theorem State.poke_sched (p : Nat) (b : List Byte) : (s.poke p b).sched = s.sched := rfl
@[simp] theorem State.poke_host (p : Nat) (b : List Byte) : (s.poke p b).host = s.host := rfl
@[simp] theorem State.poke_time (p : Nat) (b : List Byte) : (s.poke p b).time = s.time := rfl
@[simp] theorem State.poke_fabric (p : Nat) (b : List Byte) : (s.poke p b).fabric = s.fabric := rfl
@[simp] theorem State.poke_fuses (p : Nat) (b : List Byte) : (s.poke p b).fuses = s.fuses := rfl
@[simp] theorem State.poke_sec (p : Nat) (b : List Byte) : (s.poke p b).sec = s.sec := rfl
@[simp] theorem State.poke_kv (p : Nat) (b : List Byte) : (s.poke p b).kv = s.kv := rfl
@[simp] theorem State.poke_seq (p : Nat) (b : List Byte) : (s.poke p b).seq = s.seq := rfl
@[simp] theorem State.poke_geo (p : Nat) (b : List Byte) : (s.poke p b).geo = s.geo := rfl
@[simp] theorem State.poke_rings (p : Nat) (b : List Byte) : (s.poke p b).rings = s.rings := rfl
@[simp] theorem State.poke_ing (p : Nat) (b : List Byte) : (s.poke p b).ing = s.ing := rfl
@[simp] theorem State.poke_rfx (p : Nat) (b : List Byte) : (s.poke p b).rfx = s.rfx := rfl
@[simp] theorem State.poke_cmp (p : Nat) (b : List Byte) : (s.poke p b).cmp = s.cmp := rfl
@[simp] theorem State.poke_ecat (p : Nat) (b : List Byte) : (s.poke p b).ecat = s.ecat := rfl
@[simp] theorem State.poke_dic (p : Nat) (b : List Byte) : (s.poke p b).dic = s.dic := rfl
@[simp] theorem State.poke_pwr (p : Nat) (b : List Byte) : (s.poke p b).pwr = s.pwr := rfl
@[simp] theorem State.poke_bu (p : Nat) (b : List Byte) : (s.poke p b).bu = s.bu := rfl

/-! ### `hostWrite` -/

@[simp] theorem State.hostWrite_pending (a : Nat) (b : List Byte) : (s.hostWrite a b).pending = s.pending := rfl
@[simp] theorem State.hostWrite_freeCount (a : Nat) (b : List Byte) : (s.hostWrite a b).freeCount = s.freeCount := rfl
@[simp] theorem State.hostWrite_regs (a : Nat) (b : List Byte) : (s.hostWrite a b).regs = s.regs := rfl
@[simp] theorem State.hostWrite_dict (a : Nat) (b : List Byte) : (s.hostWrite a b).dict = s.dict := rfl
@[simp] theorem State.hostWrite_blobs (a : Nat) (b : List Byte) : (s.hostWrite a b).blobs = s.blobs := rfl
@[simp] theorem State.hostWrite_mem (a : Nat) (b : List Byte) : (s.hostWrite a b).mem = s.mem := rfl
@[simp] theorem State.hostWrite_scrambled (a : Nat) (b : List Byte) : (s.hostWrite a b).scrambled = s.scrambled := rfl
@[simp] theorem State.hostWrite_poison (a : Nat) (b : List Byte) : (s.hostWrite a b).poison = s.poison := rfl
@[simp] theorem State.hostWrite_t1 (a : Nat) (b : List Byte) : (s.hostWrite a b).t1 = s.t1 := rfl
@[simp] theorem State.hostWrite_plru (a : Nat) (b : List Byte) : (s.hostWrite a b).plru = s.plru := rfl
@[simp] theorem State.hostWrite_out (a : Nat) (b : List Byte) : (s.hostWrite a b).out = s.out := rfl
@[simp] theorem State.hostWrite_pkg (a : Nat) (b : List Byte) : (s.hostWrite a b).pkg = s.pkg := rfl
@[simp] theorem State.hostWrite_sched (a : Nat) (b : List Byte) : (s.hostWrite a b).sched = s.sched := rfl
@[simp] theorem State.hostWrite_host (a : Nat) (b : List Byte) : (s.hostWrite a b).host = s.host := rfl
@[simp] theorem State.hostWrite_time (a : Nat) (b : List Byte) : (s.hostWrite a b).time = s.time := rfl
@[simp] theorem State.hostWrite_fabric (a : Nat) (b : List Byte) : (s.hostWrite a b).fabric = s.fabric := rfl
@[simp] theorem State.hostWrite_fuses (a : Nat) (b : List Byte) : (s.hostWrite a b).fuses = s.fuses := rfl
@[simp] theorem State.hostWrite_sec (a : Nat) (b : List Byte) : (s.hostWrite a b).sec = s.sec := rfl
@[simp] theorem State.hostWrite_kv (a : Nat) (b : List Byte) : (s.hostWrite a b).kv = s.kv := rfl
@[simp] theorem State.hostWrite_seq (a : Nat) (b : List Byte) : (s.hostWrite a b).seq = s.seq := rfl
@[simp] theorem State.hostWrite_geo (a : Nat) (b : List Byte) : (s.hostWrite a b).geo = s.geo := rfl
@[simp] theorem State.hostWrite_rings (a : Nat) (b : List Byte) : (s.hostWrite a b).rings = s.rings := rfl
@[simp] theorem State.hostWrite_ing (a : Nat) (b : List Byte) : (s.hostWrite a b).ing = s.ing := rfl
@[simp] theorem State.hostWrite_rfx (a : Nat) (b : List Byte) : (s.hostWrite a b).rfx = s.rfx := rfl
@[simp] theorem State.hostWrite_cmp (a : Nat) (b : List Byte) : (s.hostWrite a b).cmp = s.cmp := rfl
@[simp] theorem State.hostWrite_ecat (a : Nat) (b : List Byte) : (s.hostWrite a b).ecat = s.ecat := rfl
@[simp] theorem State.hostWrite_dic (a : Nat) (b : List Byte) : (s.hostWrite a b).dic = s.dic := rfl
@[simp] theorem State.hostWrite_pwr (a : Nat) (b : List Byte) : (s.hostWrite a b).pwr = s.pwr := rfl
@[simp] theorem State.hostWrite_bu (a : Nat) (b : List Byte) : (s.hostWrite a b).bu = s.bu := rfl

/-! ### `setPoison` -/

@[simp] theorem State.setPoison_pending (p : Nat) (b : Bool) : (s.setPoison p b).pending = s.pending := rfl
@[simp] theorem State.setPoison_freeCount (p : Nat) (b : Bool) : (s.setPoison p b).freeCount = s.freeCount := rfl
@[simp] theorem State.setPoison_regs (p : Nat) (b : Bool) : (s.setPoison p b).regs = s.regs := rfl
@[simp] theorem State.setPoison_dict (p : Nat) (b : Bool) : (s.setPoison p b).dict = s.dict := rfl
@[simp] theorem State.setPoison_blobs (p : Nat) (b : Bool) : (s.setPoison p b).blobs = s.blobs := rfl
@[simp] theorem State.setPoison_mem (p : Nat) (b : Bool) : (s.setPoison p b).mem = s.mem := rfl
@[simp] theorem State.setPoison_scrambled (p : Nat) (b : Bool) : (s.setPoison p b).scrambled = s.scrambled := rfl
@[simp] theorem State.setPoison_hostMem (p : Nat) (b : Bool) : (s.setPoison p b).hostMem = s.hostMem := rfl
@[simp] theorem State.setPoison_t1 (p : Nat) (b : Bool) : (s.setPoison p b).t1 = s.t1 := rfl
@[simp] theorem State.setPoison_plru (p : Nat) (b : Bool) : (s.setPoison p b).plru = s.plru := rfl
@[simp] theorem State.setPoison_out (p : Nat) (b : Bool) : (s.setPoison p b).out = s.out := rfl
@[simp] theorem State.setPoison_pkg (p : Nat) (b : Bool) : (s.setPoison p b).pkg = s.pkg := rfl
@[simp] theorem State.setPoison_sched (p : Nat) (b : Bool) : (s.setPoison p b).sched = s.sched := rfl
@[simp] theorem State.setPoison_host (p : Nat) (b : Bool) : (s.setPoison p b).host = s.host := rfl
@[simp] theorem State.setPoison_time (p : Nat) (b : Bool) : (s.setPoison p b).time = s.time := rfl
@[simp] theorem State.setPoison_fabric (p : Nat) (b : Bool) : (s.setPoison p b).fabric = s.fabric := rfl
@[simp] theorem State.setPoison_fuses (p : Nat) (b : Bool) : (s.setPoison p b).fuses = s.fuses := rfl
@[simp] theorem State.setPoison_sec (p : Nat) (b : Bool) : (s.setPoison p b).sec = s.sec := rfl
@[simp] theorem State.setPoison_kv (p : Nat) (b : Bool) : (s.setPoison p b).kv = s.kv := rfl
@[simp] theorem State.setPoison_seq (p : Nat) (b : Bool) : (s.setPoison p b).seq = s.seq := rfl
@[simp] theorem State.setPoison_geo (p : Nat) (b : Bool) : (s.setPoison p b).geo = s.geo := rfl
@[simp] theorem State.setPoison_rings (p : Nat) (b : Bool) : (s.setPoison p b).rings = s.rings := rfl
@[simp] theorem State.setPoison_ing (p : Nat) (b : Bool) : (s.setPoison p b).ing = s.ing := rfl
@[simp] theorem State.setPoison_rfx (p : Nat) (b : Bool) : (s.setPoison p b).rfx = s.rfx := rfl
@[simp] theorem State.setPoison_cmp (p : Nat) (b : Bool) : (s.setPoison p b).cmp = s.cmp := rfl
@[simp] theorem State.setPoison_ecat (p : Nat) (b : Bool) : (s.setPoison p b).ecat = s.ecat := rfl
@[simp] theorem State.setPoison_dic (p : Nat) (b : Bool) : (s.setPoison p b).dic = s.dic := rfl
@[simp] theorem State.setPoison_pwr (p : Nat) (b : Bool) : (s.setPoison p b).pwr = s.pwr := rfl
@[simp] theorem State.setPoison_bu (p : Nat) (b : Bool) : (s.setPoison p b).bu = s.bu := rfl

/-! ### `setCtx` -/

@[simp] theorem State.setCtx_pending (c : Nat) (x : Ctx) : (s.setCtx c x).pending = s.pending := rfl
@[simp] theorem State.setCtx_freeCount (c : Nat) (x : Ctx) : (s.setCtx c x).freeCount = s.freeCount := rfl
@[simp] theorem State.setCtx_regs (c : Nat) (x : Ctx) : (s.setCtx c x).regs = s.regs := rfl
@[simp] theorem State.setCtx_dict (c : Nat) (x : Ctx) : (s.setCtx c x).dict = s.dict := rfl
@[simp] theorem State.setCtx_blobs (c : Nat) (x : Ctx) : (s.setCtx c x).blobs = s.blobs := rfl
@[simp] theorem State.setCtx_mem (c : Nat) (x : Ctx) : (s.setCtx c x).mem = s.mem := rfl
@[simp] theorem State.setCtx_scrambled (c : Nat) (x : Ctx) : (s.setCtx c x).scrambled = s.scrambled := rfl
@[simp] theorem State.setCtx_hostMem (c : Nat) (x : Ctx) : (s.setCtx c x).hostMem = s.hostMem := rfl
@[simp] theorem State.setCtx_poison (c : Nat) (x : Ctx) : (s.setCtx c x).poison = s.poison := rfl
@[simp] theorem State.setCtx_t1 (c : Nat) (x : Ctx) : (s.setCtx c x).t1 = s.t1 := rfl
@[simp] theorem State.setCtx_plru (c : Nat) (x : Ctx) : (s.setCtx c x).plru = s.plru := rfl
@[simp] theorem State.setCtx_out (c : Nat) (x : Ctx) : (s.setCtx c x).out = s.out := rfl
@[simp] theorem State.setCtx_pkg (c : Nat) (x : Ctx) : (s.setCtx c x).pkg = s.pkg := rfl
@[simp] theorem State.setCtx_host (c : Nat) (x : Ctx) : (s.setCtx c x).host = s.host := rfl
@[simp] theorem State.setCtx_time (c : Nat) (x : Ctx) : (s.setCtx c x).time = s.time := rfl
@[simp] theorem State.setCtx_fabric (c : Nat) (x : Ctx) : (s.setCtx c x).fabric = s.fabric := rfl
@[simp] theorem State.setCtx_fuses (c : Nat) (x : Ctx) : (s.setCtx c x).fuses = s.fuses := rfl
@[simp] theorem State.setCtx_sec (c : Nat) (x : Ctx) : (s.setCtx c x).sec = s.sec := rfl
@[simp] theorem State.setCtx_kv (c : Nat) (x : Ctx) : (s.setCtx c x).kv = s.kv := rfl
@[simp] theorem State.setCtx_seq (c : Nat) (x : Ctx) : (s.setCtx c x).seq = s.seq := rfl
@[simp] theorem State.setCtx_geo (c : Nat) (x : Ctx) : (s.setCtx c x).geo = s.geo := rfl
@[simp] theorem State.setCtx_rings (c : Nat) (x : Ctx) : (s.setCtx c x).rings = s.rings := rfl
@[simp] theorem State.setCtx_ing (c : Nat) (x : Ctx) : (s.setCtx c x).ing = s.ing := rfl
@[simp] theorem State.setCtx_rfx (c : Nat) (x : Ctx) : (s.setCtx c x).rfx = s.rfx := rfl
@[simp] theorem State.setCtx_cmp (c : Nat) (x : Ctx) : (s.setCtx c x).cmp = s.cmp := rfl
@[simp] theorem State.setCtx_ecat (c : Nat) (x : Ctx) : (s.setCtx c x).ecat = s.ecat := rfl
@[simp] theorem State.setCtx_dic (c : Nat) (x : Ctx) : (s.setCtx c x).dic = s.dic := rfl
@[simp] theorem State.setCtx_pwr (c : Nat) (x : Ctx) : (s.setCtx c x).pwr = s.pwr := rfl
@[simp] theorem State.setCtx_bu (c : Nat) (x : Ctx) : (s.setCtx c x).bu = s.bu := rfl

/-! ### `setCmd` -/

@[simp] theorem State.setCmd_pending (x : Cmd) : (s.setCmd x).pending = s.pending := rfl
@[simp] theorem State.setCmd_freeCount (x : Cmd) : (s.setCmd x).freeCount = s.freeCount := rfl
@[simp] theorem State.setCmd_regs (x : Cmd) : (s.setCmd x).regs = s.regs := rfl
@[simp] theorem State.setCmd_dict (x : Cmd) : (s.setCmd x).dict = s.dict := rfl
@[simp] theorem State.setCmd_blobs (x : Cmd) : (s.setCmd x).blobs = s.blobs := rfl
@[simp] theorem State.setCmd_mem (x : Cmd) : (s.setCmd x).mem = s.mem := rfl
@[simp] theorem State.setCmd_scrambled (x : Cmd) : (s.setCmd x).scrambled = s.scrambled := rfl
@[simp] theorem State.setCmd_hostMem (x : Cmd) : (s.setCmd x).hostMem = s.hostMem := rfl
@[simp] theorem State.setCmd_poison (x : Cmd) : (s.setCmd x).poison = s.poison := rfl
@[simp] theorem State.setCmd_t1 (x : Cmd) : (s.setCmd x).t1 = s.t1 := rfl
@[simp] theorem State.setCmd_plru (x : Cmd) : (s.setCmd x).plru = s.plru := rfl
@[simp] theorem State.setCmd_out (x : Cmd) : (s.setCmd x).out = s.out := rfl
@[simp] theorem State.setCmd_pkg (x : Cmd) : (s.setCmd x).pkg = s.pkg := rfl
@[simp] theorem State.setCmd_host (x : Cmd) : (s.setCmd x).host = s.host := rfl
@[simp] theorem State.setCmd_time (x : Cmd) : (s.setCmd x).time = s.time := rfl
@[simp] theorem State.setCmd_fabric (x : Cmd) : (s.setCmd x).fabric = s.fabric := rfl
@[simp] theorem State.setCmd_fuses (x : Cmd) : (s.setCmd x).fuses = s.fuses := rfl
@[simp] theorem State.setCmd_sec (x : Cmd) : (s.setCmd x).sec = s.sec := rfl
@[simp] theorem State.setCmd_kv (x : Cmd) : (s.setCmd x).kv = s.kv := rfl
@[simp] theorem State.setCmd_seq (x : Cmd) : (s.setCmd x).seq = s.seq := rfl
@[simp] theorem State.setCmd_geo (x : Cmd) : (s.setCmd x).geo = s.geo := rfl
@[simp] theorem State.setCmd_rings (x : Cmd) : (s.setCmd x).rings = s.rings := rfl
@[simp] theorem State.setCmd_ing (x : Cmd) : (s.setCmd x).ing = s.ing := rfl
@[simp] theorem State.setCmd_rfx (x : Cmd) : (s.setCmd x).rfx = s.rfx := rfl
@[simp] theorem State.setCmd_cmp (x : Cmd) : (s.setCmd x).cmp = s.cmp := rfl
@[simp] theorem State.setCmd_ecat (x : Cmd) : (s.setCmd x).ecat = s.ecat := rfl
@[simp] theorem State.setCmd_dic (x : Cmd) : (s.setCmd x).dic = s.dic := rfl
@[simp] theorem State.setCmd_pwr (x : Cmd) : (s.setCmd x).pwr = s.pwr := rfl
@[simp] theorem State.setCmd_bu (x : Cmd) : (s.setCmd x).bu = s.bu := rfl

/-! ### `setSec` -/

@[simp] theorem State.setSec_pending (x : SecUnit) : (s.setSec x).pending = s.pending := rfl
@[simp] theorem State.setSec_freeCount (x : SecUnit) : (s.setSec x).freeCount = s.freeCount := rfl
@[simp] theorem State.setSec_regs (x : SecUnit) : (s.setSec x).regs = s.regs := rfl
@[simp] theorem State.setSec_dict (x : SecUnit) : (s.setSec x).dict = s.dict := rfl
@[simp] theorem State.setSec_blobs (x : SecUnit) : (s.setSec x).blobs = s.blobs := rfl
@[simp] theorem State.setSec_mem (x : SecUnit) : (s.setSec x).mem = s.mem := rfl
@[simp] theorem State.setSec_scrambled (x : SecUnit) : (s.setSec x).scrambled = s.scrambled := rfl
@[simp] theorem State.setSec_hostMem (x : SecUnit) : (s.setSec x).hostMem = s.hostMem := rfl
@[simp] theorem State.setSec_poison (x : SecUnit) : (s.setSec x).poison = s.poison := rfl
@[simp] theorem State.setSec_t1 (x : SecUnit) : (s.setSec x).t1 = s.t1 := rfl
@[simp] theorem State.setSec_plru (x : SecUnit) : (s.setSec x).plru = s.plru := rfl
@[simp] theorem State.setSec_out (x : SecUnit) : (s.setSec x).out = s.out := rfl
@[simp] theorem State.setSec_pkg (x : SecUnit) : (s.setSec x).pkg = s.pkg := rfl
@[simp] theorem State.setSec_sched (x : SecUnit) : (s.setSec x).sched = s.sched := rfl
@[simp] theorem State.setSec_host (x : SecUnit) : (s.setSec x).host = s.host := rfl
@[simp] theorem State.setSec_time (x : SecUnit) : (s.setSec x).time = s.time := rfl
@[simp] theorem State.setSec_fabric (x : SecUnit) : (s.setSec x).fabric = s.fabric := rfl
@[simp] theorem State.setSec_fuses (x : SecUnit) : (s.setSec x).fuses = s.fuses := rfl
@[simp] theorem State.setSec_sec (x : SecUnit) : (s.setSec x).sec = x := rfl
@[simp] theorem State.setSec_kv (x : SecUnit) : (s.setSec x).kv = s.kv := rfl
@[simp] theorem State.setSec_seq (x : SecUnit) : (s.setSec x).seq = s.seq := rfl
@[simp] theorem State.setSec_geo (x : SecUnit) : (s.setSec x).geo = s.geo := rfl
@[simp] theorem State.setSec_rings (x : SecUnit) : (s.setSec x).rings = s.rings := rfl
@[simp] theorem State.setSec_ing (x : SecUnit) : (s.setSec x).ing = s.ing := rfl
@[simp] theorem State.setSec_rfx (x : SecUnit) : (s.setSec x).rfx = s.rfx := rfl
@[simp] theorem State.setSec_cmp (x : SecUnit) : (s.setSec x).cmp = s.cmp := rfl
@[simp] theorem State.setSec_ecat (x : SecUnit) : (s.setSec x).ecat = s.ecat := rfl
@[simp] theorem State.setSec_dic (x : SecUnit) : (s.setSec x).dic = s.dic := rfl
@[simp] theorem State.setSec_pwr (x : SecUnit) : (s.setSec x).pwr = s.pwr := rfl
@[simp] theorem State.setSec_bu (x : SecUnit) : (s.setSec x).bu = s.bu := rfl

/-! ### `setTime` -/

@[simp] theorem State.setTime_pending (x : TimeUnit) : (s.setTime x).pending = s.pending := rfl
@[simp] theorem State.setTime_freeCount (x : TimeUnit) : (s.setTime x).freeCount = s.freeCount := rfl
@[simp] theorem State.setTime_regs (x : TimeUnit) : (s.setTime x).regs = s.regs := rfl
@[simp] theorem State.setTime_dict (x : TimeUnit) : (s.setTime x).dict = s.dict := rfl
@[simp] theorem State.setTime_blobs (x : TimeUnit) : (s.setTime x).blobs = s.blobs := rfl
@[simp] theorem State.setTime_mem (x : TimeUnit) : (s.setTime x).mem = s.mem := rfl
@[simp] theorem State.setTime_scrambled (x : TimeUnit) : (s.setTime x).scrambled = s.scrambled := rfl
@[simp] theorem State.setTime_hostMem (x : TimeUnit) : (s.setTime x).hostMem = s.hostMem := rfl
@[simp] theorem State.setTime_poison (x : TimeUnit) : (s.setTime x).poison = s.poison := rfl
@[simp] theorem State.setTime_t1 (x : TimeUnit) : (s.setTime x).t1 = s.t1 := rfl
@[simp] theorem State.setTime_plru (x : TimeUnit) : (s.setTime x).plru = s.plru := rfl
@[simp] theorem State.setTime_out (x : TimeUnit) : (s.setTime x).out = s.out := rfl
@[simp] theorem State.setTime_pkg (x : TimeUnit) : (s.setTime x).pkg = s.pkg := rfl
@[simp] theorem State.setTime_sched (x : TimeUnit) : (s.setTime x).sched = s.sched := rfl
@[simp] theorem State.setTime_host (x : TimeUnit) : (s.setTime x).host = s.host := rfl
@[simp] theorem State.setTime_time (x : TimeUnit) : (s.setTime x).time = x := rfl
@[simp] theorem State.setTime_fabric (x : TimeUnit) : (s.setTime x).fabric = s.fabric := rfl
@[simp] theorem State.setTime_fuses (x : TimeUnit) : (s.setTime x).fuses = s.fuses := rfl
@[simp] theorem State.setTime_sec (x : TimeUnit) : (s.setTime x).sec = s.sec := rfl
@[simp] theorem State.setTime_kv (x : TimeUnit) : (s.setTime x).kv = s.kv := rfl
@[simp] theorem State.setTime_seq (x : TimeUnit) : (s.setTime x).seq = s.seq := rfl
@[simp] theorem State.setTime_geo (x : TimeUnit) : (s.setTime x).geo = s.geo := rfl
@[simp] theorem State.setTime_rings (x : TimeUnit) : (s.setTime x).rings = s.rings := rfl
@[simp] theorem State.setTime_ing (x : TimeUnit) : (s.setTime x).ing = s.ing := rfl
@[simp] theorem State.setTime_rfx (x : TimeUnit) : (s.setTime x).rfx = s.rfx := rfl
@[simp] theorem State.setTime_cmp (x : TimeUnit) : (s.setTime x).cmp = s.cmp := rfl
@[simp] theorem State.setTime_ecat (x : TimeUnit) : (s.setTime x).ecat = s.ecat := rfl
@[simp] theorem State.setTime_dic (x : TimeUnit) : (s.setTime x).dic = s.dic := rfl
@[simp] theorem State.setTime_pwr (x : TimeUnit) : (s.setTime x).pwr = s.pwr := rfl
@[simp] theorem State.setTime_bu (x : TimeUnit) : (s.setTime x).bu = s.bu := rfl

/-! ### `setDic` -/

@[simp] theorem State.setDic_pending (x : DictUnit) : (s.setDic x).pending = s.pending := rfl
@[simp] theorem State.setDic_freeCount (x : DictUnit) : (s.setDic x).freeCount = s.freeCount := rfl
@[simp] theorem State.setDic_regs (x : DictUnit) : (s.setDic x).regs = s.regs := rfl
@[simp] theorem State.setDic_dict (x : DictUnit) : (s.setDic x).dict = s.dict := rfl
@[simp] theorem State.setDic_blobs (x : DictUnit) : (s.setDic x).blobs = s.blobs := rfl
@[simp] theorem State.setDic_mem (x : DictUnit) : (s.setDic x).mem = s.mem := rfl
@[simp] theorem State.setDic_scrambled (x : DictUnit) : (s.setDic x).scrambled = s.scrambled := rfl
@[simp] theorem State.setDic_hostMem (x : DictUnit) : (s.setDic x).hostMem = s.hostMem := rfl
@[simp] theorem State.setDic_poison (x : DictUnit) : (s.setDic x).poison = s.poison := rfl
@[simp] theorem State.setDic_t1 (x : DictUnit) : (s.setDic x).t1 = s.t1 := rfl
@[simp] theorem State.setDic_plru (x : DictUnit) : (s.setDic x).plru = s.plru := rfl
@[simp] theorem State.setDic_out (x : DictUnit) : (s.setDic x).out = s.out := rfl
@[simp] theorem State.setDic_pkg (x : DictUnit) : (s.setDic x).pkg = s.pkg := rfl
@[simp] theorem State.setDic_sched (x : DictUnit) : (s.setDic x).sched = s.sched := rfl
@[simp] theorem State.setDic_host (x : DictUnit) : (s.setDic x).host = s.host := rfl
@[simp] theorem State.setDic_time (x : DictUnit) : (s.setDic x).time = s.time := rfl
@[simp] theorem State.setDic_fabric (x : DictUnit) : (s.setDic x).fabric = s.fabric := rfl
@[simp] theorem State.setDic_fuses (x : DictUnit) : (s.setDic x).fuses = s.fuses := rfl
@[simp] theorem State.setDic_sec (x : DictUnit) : (s.setDic x).sec = s.sec := rfl
@[simp] theorem State.setDic_kv (x : DictUnit) : (s.setDic x).kv = s.kv := rfl
@[simp] theorem State.setDic_seq (x : DictUnit) : (s.setDic x).seq = s.seq := rfl
@[simp] theorem State.setDic_geo (x : DictUnit) : (s.setDic x).geo = s.geo := rfl
@[simp] theorem State.setDic_rings (x : DictUnit) : (s.setDic x).rings = s.rings := rfl
@[simp] theorem State.setDic_ing (x : DictUnit) : (s.setDic x).ing = s.ing := rfl
@[simp] theorem State.setDic_rfx (x : DictUnit) : (s.setDic x).rfx = s.rfx := rfl
@[simp] theorem State.setDic_cmp (x : DictUnit) : (s.setDic x).cmp = s.cmp := rfl
@[simp] theorem State.setDic_ecat (x : DictUnit) : (s.setDic x).ecat = s.ecat := rfl
@[simp] theorem State.setDic_dic (x : DictUnit) : (s.setDic x).dic = x := rfl
@[simp] theorem State.setDic_pwr (x : DictUnit) : (s.setDic x).pwr = s.pwr := rfl
@[simp] theorem State.setDic_bu (x : DictUnit) : (s.setDic x).bu = s.bu := rfl

/-! ### `setPwr` -/

@[simp] theorem State.setPwr_pending (x : Power) : (s.setPwr x).pending = s.pending := rfl
@[simp] theorem State.setPwr_freeCount (x : Power) : (s.setPwr x).freeCount = s.freeCount := rfl
@[simp] theorem State.setPwr_regs (x : Power) : (s.setPwr x).regs = s.regs := rfl
@[simp] theorem State.setPwr_dict (x : Power) : (s.setPwr x).dict = s.dict := rfl
@[simp] theorem State.setPwr_blobs (x : Power) : (s.setPwr x).blobs = s.blobs := rfl
@[simp] theorem State.setPwr_mem (x : Power) : (s.setPwr x).mem = s.mem := rfl
@[simp] theorem State.setPwr_scrambled (x : Power) : (s.setPwr x).scrambled = s.scrambled := rfl
@[simp] theorem State.setPwr_hostMem (x : Power) : (s.setPwr x).hostMem = s.hostMem := rfl
@[simp] theorem State.setPwr_poison (x : Power) : (s.setPwr x).poison = s.poison := rfl
@[simp] theorem State.setPwr_t1 (x : Power) : (s.setPwr x).t1 = s.t1 := rfl
@[simp] theorem State.setPwr_plru (x : Power) : (s.setPwr x).plru = s.plru := rfl
@[simp] theorem State.setPwr_out (x : Power) : (s.setPwr x).out = s.out := rfl
@[simp] theorem State.setPwr_pkg (x : Power) : (s.setPwr x).pkg = s.pkg := rfl
@[simp] theorem State.setPwr_sched (x : Power) : (s.setPwr x).sched = s.sched := rfl
@[simp] theorem State.setPwr_host (x : Power) : (s.setPwr x).host = s.host := rfl
@[simp] theorem State.setPwr_time (x : Power) : (s.setPwr x).time = s.time := rfl
@[simp] theorem State.setPwr_fabric (x : Power) : (s.setPwr x).fabric = s.fabric := rfl
@[simp] theorem State.setPwr_fuses (x : Power) : (s.setPwr x).fuses = s.fuses := rfl
@[simp] theorem State.setPwr_sec (x : Power) : (s.setPwr x).sec = s.sec := rfl
@[simp] theorem State.setPwr_kv (x : Power) : (s.setPwr x).kv = s.kv := rfl
@[simp] theorem State.setPwr_seq (x : Power) : (s.setPwr x).seq = s.seq := rfl
@[simp] theorem State.setPwr_geo (x : Power) : (s.setPwr x).geo = s.geo := rfl
@[simp] theorem State.setPwr_rings (x : Power) : (s.setPwr x).rings = s.rings := rfl
@[simp] theorem State.setPwr_ing (x : Power) : (s.setPwr x).ing = s.ing := rfl
@[simp] theorem State.setPwr_rfx (x : Power) : (s.setPwr x).rfx = s.rfx := rfl
@[simp] theorem State.setPwr_cmp (x : Power) : (s.setPwr x).cmp = s.cmp := rfl
@[simp] theorem State.setPwr_ecat (x : Power) : (s.setPwr x).ecat = s.ecat := rfl
@[simp] theorem State.setPwr_dic (x : Power) : (s.setPwr x).dic = s.dic := rfl
@[simp] theorem State.setPwr_pwr (x : Power) : (s.setPwr x).pwr = x := rfl
@[simp] theorem State.setPwr_bu (x : Power) : (s.setPwr x).bu = s.bu := rfl

/-! ### `setBu` -/

@[simp] theorem State.setBu_pending (x : BringUp) : (s.setBu x).pending = s.pending := rfl
@[simp] theorem State.setBu_freeCount (x : BringUp) : (s.setBu x).freeCount = s.freeCount := rfl
@[simp] theorem State.setBu_regs (x : BringUp) : (s.setBu x).regs = s.regs := rfl
@[simp] theorem State.setBu_dict (x : BringUp) : (s.setBu x).dict = s.dict := rfl
@[simp] theorem State.setBu_blobs (x : BringUp) : (s.setBu x).blobs = s.blobs := rfl
@[simp] theorem State.setBu_mem (x : BringUp) : (s.setBu x).mem = s.mem := rfl
@[simp] theorem State.setBu_scrambled (x : BringUp) : (s.setBu x).scrambled = s.scrambled := rfl
@[simp] theorem State.setBu_hostMem (x : BringUp) : (s.setBu x).hostMem = s.hostMem := rfl
@[simp] theorem State.setBu_poison (x : BringUp) : (s.setBu x).poison = s.poison := rfl
@[simp] theorem State.setBu_t1 (x : BringUp) : (s.setBu x).t1 = s.t1 := rfl
@[simp] theorem State.setBu_plru (x : BringUp) : (s.setBu x).plru = s.plru := rfl
@[simp] theorem State.setBu_out (x : BringUp) : (s.setBu x).out = s.out := rfl
@[simp] theorem State.setBu_pkg (x : BringUp) : (s.setBu x).pkg = s.pkg := rfl
@[simp] theorem State.setBu_sched (x : BringUp) : (s.setBu x).sched = s.sched := rfl
@[simp] theorem State.setBu_host (x : BringUp) : (s.setBu x).host = s.host := rfl
@[simp] theorem State.setBu_time (x : BringUp) : (s.setBu x).time = s.time := rfl
@[simp] theorem State.setBu_fabric (x : BringUp) : (s.setBu x).fabric = s.fabric := rfl
@[simp] theorem State.setBu_fuses (x : BringUp) : (s.setBu x).fuses = s.fuses := rfl
@[simp] theorem State.setBu_sec (x : BringUp) : (s.setBu x).sec = s.sec := rfl
@[simp] theorem State.setBu_kv (x : BringUp) : (s.setBu x).kv = s.kv := rfl
@[simp] theorem State.setBu_seq (x : BringUp) : (s.setBu x).seq = s.seq := rfl
@[simp] theorem State.setBu_geo (x : BringUp) : (s.setBu x).geo = s.geo := rfl
@[simp] theorem State.setBu_rings (x : BringUp) : (s.setBu x).rings = s.rings := rfl
@[simp] theorem State.setBu_ing (x : BringUp) : (s.setBu x).ing = s.ing := rfl
@[simp] theorem State.setBu_rfx (x : BringUp) : (s.setBu x).rfx = s.rfx := rfl
@[simp] theorem State.setBu_cmp (x : BringUp) : (s.setBu x).cmp = s.cmp := rfl
@[simp] theorem State.setBu_ecat (x : BringUp) : (s.setBu x).ecat = s.ecat := rfl
@[simp] theorem State.setBu_dic (x : BringUp) : (s.setBu x).dic = s.dic := rfl
@[simp] theorem State.setBu_pwr (x : BringUp) : (s.setBu x).pwr = s.pwr := rfl
@[simp] theorem State.setBu_bu (x : BringUp) : (s.setBu x).bu = x := rfl

/-! ### `setCmp` -/

@[simp] theorem State.setCmp_pending (x : Comparator) : (s.setCmp x).pending = s.pending := rfl
@[simp] theorem State.setCmp_freeCount (x : Comparator) : (s.setCmp x).freeCount = s.freeCount := rfl
@[simp] theorem State.setCmp_regs (x : Comparator) : (s.setCmp x).regs = s.regs := rfl
@[simp] theorem State.setCmp_dict (x : Comparator) : (s.setCmp x).dict = s.dict := rfl
@[simp] theorem State.setCmp_blobs (x : Comparator) : (s.setCmp x).blobs = s.blobs := rfl
@[simp] theorem State.setCmp_mem (x : Comparator) : (s.setCmp x).mem = s.mem := rfl
@[simp] theorem State.setCmp_scrambled (x : Comparator) : (s.setCmp x).scrambled = s.scrambled := rfl
@[simp] theorem State.setCmp_hostMem (x : Comparator) : (s.setCmp x).hostMem = s.hostMem := rfl
@[simp] theorem State.setCmp_poison (x : Comparator) : (s.setCmp x).poison = s.poison := rfl
@[simp] theorem State.setCmp_t1 (x : Comparator) : (s.setCmp x).t1 = s.t1 := rfl
@[simp] theorem State.setCmp_plru (x : Comparator) : (s.setCmp x).plru = s.plru := rfl
@[simp] theorem State.setCmp_out (x : Comparator) : (s.setCmp x).out = s.out := rfl
@[simp] theorem State.setCmp_pkg (x : Comparator) : (s.setCmp x).pkg = s.pkg := rfl
@[simp] theorem State.setCmp_sched (x : Comparator) : (s.setCmp x).sched = s.sched := rfl
@[simp] theorem State.setCmp_host (x : Comparator) : (s.setCmp x).host = s.host := rfl
@[simp] theorem State.setCmp_time (x : Comparator) : (s.setCmp x).time = s.time := rfl
@[simp] theorem State.setCmp_fabric (x : Comparator) : (s.setCmp x).fabric = s.fabric := rfl
@[simp] theorem State.setCmp_fuses (x : Comparator) : (s.setCmp x).fuses = s.fuses := rfl
@[simp] theorem State.setCmp_sec (x : Comparator) : (s.setCmp x).sec = s.sec := rfl
@[simp] theorem State.setCmp_kv (x : Comparator) : (s.setCmp x).kv = s.kv := rfl
@[simp] theorem State.setCmp_seq (x : Comparator) : (s.setCmp x).seq = s.seq := rfl
@[simp] theorem State.setCmp_geo (x : Comparator) : (s.setCmp x).geo = s.geo := rfl
@[simp] theorem State.setCmp_rings (x : Comparator) : (s.setCmp x).rings = s.rings := rfl
@[simp] theorem State.setCmp_ing (x : Comparator) : (s.setCmp x).ing = s.ing := rfl
@[simp] theorem State.setCmp_rfx (x : Comparator) : (s.setCmp x).rfx = s.rfx := rfl
@[simp] theorem State.setCmp_cmp (x : Comparator) : (s.setCmp x).cmp = x := rfl
@[simp] theorem State.setCmp_ecat (x : Comparator) : (s.setCmp x).ecat = s.ecat := rfl
@[simp] theorem State.setCmp_dic (x : Comparator) : (s.setCmp x).dic = s.dic := rfl
@[simp] theorem State.setCmp_pwr (x : Comparator) : (s.setCmp x).pwr = s.pwr := rfl
@[simp] theorem State.setCmp_bu (x : Comparator) : (s.setCmp x).bu = s.bu := rfl

/-! ### `setEcat` -/

@[simp] theorem State.setEcat_pending (x : Ecat) : (s.setEcat x).pending = s.pending := rfl
@[simp] theorem State.setEcat_freeCount (x : Ecat) : (s.setEcat x).freeCount = s.freeCount := rfl
@[simp] theorem State.setEcat_regs (x : Ecat) : (s.setEcat x).regs = s.regs := rfl
@[simp] theorem State.setEcat_dict (x : Ecat) : (s.setEcat x).dict = s.dict := rfl
@[simp] theorem State.setEcat_blobs (x : Ecat) : (s.setEcat x).blobs = s.blobs := rfl
@[simp] theorem State.setEcat_mem (x : Ecat) : (s.setEcat x).mem = s.mem := rfl
@[simp] theorem State.setEcat_scrambled (x : Ecat) : (s.setEcat x).scrambled = s.scrambled := rfl
@[simp] theorem State.setEcat_hostMem (x : Ecat) : (s.setEcat x).hostMem = s.hostMem := rfl
@[simp] theorem State.setEcat_poison (x : Ecat) : (s.setEcat x).poison = s.poison := rfl
@[simp] theorem State.setEcat_t1 (x : Ecat) : (s.setEcat x).t1 = s.t1 := rfl
@[simp] theorem State.setEcat_plru (x : Ecat) : (s.setEcat x).plru = s.plru := rfl
@[simp] theorem State.setEcat_out (x : Ecat) : (s.setEcat x).out = s.out := rfl
@[simp] theorem State.setEcat_pkg (x : Ecat) : (s.setEcat x).pkg = s.pkg := rfl
@[simp] theorem State.setEcat_sched (x : Ecat) : (s.setEcat x).sched = s.sched := rfl
@[simp] theorem State.setEcat_host (x : Ecat) : (s.setEcat x).host = s.host := rfl
@[simp] theorem State.setEcat_time (x : Ecat) : (s.setEcat x).time = s.time := rfl
@[simp] theorem State.setEcat_fabric (x : Ecat) : (s.setEcat x).fabric = s.fabric := rfl
@[simp] theorem State.setEcat_fuses (x : Ecat) : (s.setEcat x).fuses = s.fuses := rfl
@[simp] theorem State.setEcat_sec (x : Ecat) : (s.setEcat x).sec = s.sec := rfl
@[simp] theorem State.setEcat_kv (x : Ecat) : (s.setEcat x).kv = s.kv := rfl
@[simp] theorem State.setEcat_seq (x : Ecat) : (s.setEcat x).seq = s.seq := rfl
@[simp] theorem State.setEcat_geo (x : Ecat) : (s.setEcat x).geo = s.geo := rfl
@[simp] theorem State.setEcat_rings (x : Ecat) : (s.setEcat x).rings = s.rings := rfl
@[simp] theorem State.setEcat_ing (x : Ecat) : (s.setEcat x).ing = s.ing := rfl
@[simp] theorem State.setEcat_rfx (x : Ecat) : (s.setEcat x).rfx = s.rfx := rfl
@[simp] theorem State.setEcat_cmp (x : Ecat) : (s.setEcat x).cmp = s.cmp := rfl
@[simp] theorem State.setEcat_ecat (x : Ecat) : (s.setEcat x).ecat = x := rfl
@[simp] theorem State.setEcat_dic (x : Ecat) : (s.setEcat x).dic = s.dic := rfl
@[simp] theorem State.setEcat_pwr (x : Ecat) : (s.setEcat x).pwr = s.pwr := rfl
@[simp] theorem State.setEcat_bu (x : Ecat) : (s.setEcat x).bu = s.bu := rfl

/-! ### `setRfx` -/

@[simp] theorem State.setRfx_pending (c : Nat) (x : RfxChan) : (s.setRfx c x).pending = s.pending := rfl
@[simp] theorem State.setRfx_freeCount (c : Nat) (x : RfxChan) : (s.setRfx c x).freeCount = s.freeCount := rfl
@[simp] theorem State.setRfx_regs (c : Nat) (x : RfxChan) : (s.setRfx c x).regs = s.regs := rfl
@[simp] theorem State.setRfx_dict (c : Nat) (x : RfxChan) : (s.setRfx c x).dict = s.dict := rfl
@[simp] theorem State.setRfx_blobs (c : Nat) (x : RfxChan) : (s.setRfx c x).blobs = s.blobs := rfl
@[simp] theorem State.setRfx_mem (c : Nat) (x : RfxChan) : (s.setRfx c x).mem = s.mem := rfl
@[simp] theorem State.setRfx_scrambled (c : Nat) (x : RfxChan) : (s.setRfx c x).scrambled = s.scrambled := rfl
@[simp] theorem State.setRfx_hostMem (c : Nat) (x : RfxChan) : (s.setRfx c x).hostMem = s.hostMem := rfl
@[simp] theorem State.setRfx_poison (c : Nat) (x : RfxChan) : (s.setRfx c x).poison = s.poison := rfl
@[simp] theorem State.setRfx_t1 (c : Nat) (x : RfxChan) : (s.setRfx c x).t1 = s.t1 := rfl
@[simp] theorem State.setRfx_plru (c : Nat) (x : RfxChan) : (s.setRfx c x).plru = s.plru := rfl
@[simp] theorem State.setRfx_out (c : Nat) (x : RfxChan) : (s.setRfx c x).out = s.out := rfl
@[simp] theorem State.setRfx_pkg (c : Nat) (x : RfxChan) : (s.setRfx c x).pkg = s.pkg := rfl
@[simp] theorem State.setRfx_sched (c : Nat) (x : RfxChan) : (s.setRfx c x).sched = s.sched := rfl
@[simp] theorem State.setRfx_host (c : Nat) (x : RfxChan) : (s.setRfx c x).host = s.host := rfl
@[simp] theorem State.setRfx_time (c : Nat) (x : RfxChan) : (s.setRfx c x).time = s.time := rfl
@[simp] theorem State.setRfx_fabric (c : Nat) (x : RfxChan) : (s.setRfx c x).fabric = s.fabric := rfl
@[simp] theorem State.setRfx_fuses (c : Nat) (x : RfxChan) : (s.setRfx c x).fuses = s.fuses := rfl
@[simp] theorem State.setRfx_sec (c : Nat) (x : RfxChan) : (s.setRfx c x).sec = s.sec := rfl
@[simp] theorem State.setRfx_kv (c : Nat) (x : RfxChan) : (s.setRfx c x).kv = s.kv := rfl
@[simp] theorem State.setRfx_seq (c : Nat) (x : RfxChan) : (s.setRfx c x).seq = s.seq := rfl
@[simp] theorem State.setRfx_geo (c : Nat) (x : RfxChan) : (s.setRfx c x).geo = s.geo := rfl
@[simp] theorem State.setRfx_rings (c : Nat) (x : RfxChan) : (s.setRfx c x).rings = s.rings := rfl
@[simp] theorem State.setRfx_ing (c : Nat) (x : RfxChan) : (s.setRfx c x).ing = s.ing := rfl
@[simp] theorem State.setRfx_cmp (c : Nat) (x : RfxChan) : (s.setRfx c x).cmp = s.cmp := rfl
@[simp] theorem State.setRfx_ecat (c : Nat) (x : RfxChan) : (s.setRfx c x).ecat = s.ecat := rfl
@[simp] theorem State.setRfx_dic (c : Nat) (x : RfxChan) : (s.setRfx c x).dic = s.dic := rfl
@[simp] theorem State.setRfx_pwr (c : Nat) (x : RfxChan) : (s.setRfx c x).pwr = s.pwr := rfl
@[simp] theorem State.setRfx_bu (c : Nat) (x : RfxChan) : (s.setRfx c x).bu = s.bu := rfl

/-! ### `setCam` -/

@[simp] theorem State.setCam_pending (p : Nat) (x : CamPort) : (s.setCam p x).pending = s.pending := rfl
@[simp] theorem State.setCam_freeCount (p : Nat) (x : CamPort) : (s.setCam p x).freeCount = s.freeCount := rfl
@[simp] theorem State.setCam_regs (p : Nat) (x : CamPort) : (s.setCam p x).regs = s.regs := rfl
@[simp] theorem State.setCam_dict (p : Nat) (x : CamPort) : (s.setCam p x).dict = s.dict := rfl
@[simp] theorem State.setCam_blobs (p : Nat) (x : CamPort) : (s.setCam p x).blobs = s.blobs := rfl
@[simp] theorem State.setCam_mem (p : Nat) (x : CamPort) : (s.setCam p x).mem = s.mem := rfl
@[simp] theorem State.setCam_scrambled (p : Nat) (x : CamPort) : (s.setCam p x).scrambled = s.scrambled := rfl
@[simp] theorem State.setCam_hostMem (p : Nat) (x : CamPort) : (s.setCam p x).hostMem = s.hostMem := rfl
@[simp] theorem State.setCam_poison (p : Nat) (x : CamPort) : (s.setCam p x).poison = s.poison := rfl
@[simp] theorem State.setCam_t1 (p : Nat) (x : CamPort) : (s.setCam p x).t1 = s.t1 := rfl
@[simp] theorem State.setCam_plru (p : Nat) (x : CamPort) : (s.setCam p x).plru = s.plru := rfl
@[simp] theorem State.setCam_out (p : Nat) (x : CamPort) : (s.setCam p x).out = s.out := rfl
@[simp] theorem State.setCam_pkg (p : Nat) (x : CamPort) : (s.setCam p x).pkg = s.pkg := rfl
@[simp] theorem State.setCam_sched (p : Nat) (x : CamPort) : (s.setCam p x).sched = s.sched := rfl
@[simp] theorem State.setCam_host (p : Nat) (x : CamPort) : (s.setCam p x).host = s.host := rfl
@[simp] theorem State.setCam_time (p : Nat) (x : CamPort) : (s.setCam p x).time = s.time := rfl
@[simp] theorem State.setCam_fabric (p : Nat) (x : CamPort) : (s.setCam p x).fabric = s.fabric := rfl
@[simp] theorem State.setCam_fuses (p : Nat) (x : CamPort) : (s.setCam p x).fuses = s.fuses := rfl
@[simp] theorem State.setCam_sec (p : Nat) (x : CamPort) : (s.setCam p x).sec = s.sec := rfl
@[simp] theorem State.setCam_kv (p : Nat) (x : CamPort) : (s.setCam p x).kv = s.kv := rfl
@[simp] theorem State.setCam_seq (p : Nat) (x : CamPort) : (s.setCam p x).seq = s.seq := rfl
@[simp] theorem State.setCam_geo (p : Nat) (x : CamPort) : (s.setCam p x).geo = s.geo := rfl
@[simp] theorem State.setCam_rings (p : Nat) (x : CamPort) : (s.setCam p x).rings = s.rings := rfl
@[simp] theorem State.setCam_rfx (p : Nat) (x : CamPort) : (s.setCam p x).rfx = s.rfx := rfl
@[simp] theorem State.setCam_cmp (p : Nat) (x : CamPort) : (s.setCam p x).cmp = s.cmp := rfl
@[simp] theorem State.setCam_ecat (p : Nat) (x : CamPort) : (s.setCam p x).ecat = s.ecat := rfl
@[simp] theorem State.setCam_dic (p : Nat) (x : CamPort) : (s.setCam p x).dic = s.dic := rfl
@[simp] theorem State.setCam_pwr (p : Nat) (x : CamPort) : (s.setCam p x).pwr = s.pwr := rfl
@[simp] theorem State.setCam_bu (p : Nat) (x : CamPort) : (s.setCam p x).bu = s.bu := rfl

/-! ### `setImu` -/

@[simp] theorem State.setImu_pending (p : Nat) (x : ImuPort) : (s.setImu p x).pending = s.pending := rfl
@[simp] theorem State.setImu_freeCount (p : Nat) (x : ImuPort) : (s.setImu p x).freeCount = s.freeCount := rfl
@[simp] theorem State.setImu_regs (p : Nat) (x : ImuPort) : (s.setImu p x).regs = s.regs := rfl
@[simp] theorem State.setImu_dict (p : Nat) (x : ImuPort) : (s.setImu p x).dict = s.dict := rfl
@[simp] theorem State.setImu_blobs (p : Nat) (x : ImuPort) : (s.setImu p x).blobs = s.blobs := rfl
@[simp] theorem State.setImu_mem (p : Nat) (x : ImuPort) : (s.setImu p x).mem = s.mem := rfl
@[simp] theorem State.setImu_scrambled (p : Nat) (x : ImuPort) : (s.setImu p x).scrambled = s.scrambled := rfl
@[simp] theorem State.setImu_hostMem (p : Nat) (x : ImuPort) : (s.setImu p x).hostMem = s.hostMem := rfl
@[simp] theorem State.setImu_poison (p : Nat) (x : ImuPort) : (s.setImu p x).poison = s.poison := rfl
@[simp] theorem State.setImu_t1 (p : Nat) (x : ImuPort) : (s.setImu p x).t1 = s.t1 := rfl
@[simp] theorem State.setImu_plru (p : Nat) (x : ImuPort) : (s.setImu p x).plru = s.plru := rfl
@[simp] theorem State.setImu_out (p : Nat) (x : ImuPort) : (s.setImu p x).out = s.out := rfl
@[simp] theorem State.setImu_pkg (p : Nat) (x : ImuPort) : (s.setImu p x).pkg = s.pkg := rfl
@[simp] theorem State.setImu_sched (p : Nat) (x : ImuPort) : (s.setImu p x).sched = s.sched := rfl
@[simp] theorem State.setImu_host (p : Nat) (x : ImuPort) : (s.setImu p x).host = s.host := rfl
@[simp] theorem State.setImu_time (p : Nat) (x : ImuPort) : (s.setImu p x).time = s.time := rfl
@[simp] theorem State.setImu_fabric (p : Nat) (x : ImuPort) : (s.setImu p x).fabric = s.fabric := rfl
@[simp] theorem State.setImu_fuses (p : Nat) (x : ImuPort) : (s.setImu p x).fuses = s.fuses := rfl
@[simp] theorem State.setImu_sec (p : Nat) (x : ImuPort) : (s.setImu p x).sec = s.sec := rfl
@[simp] theorem State.setImu_kv (p : Nat) (x : ImuPort) : (s.setImu p x).kv = s.kv := rfl
@[simp] theorem State.setImu_seq (p : Nat) (x : ImuPort) : (s.setImu p x).seq = s.seq := rfl
@[simp] theorem State.setImu_geo (p : Nat) (x : ImuPort) : (s.setImu p x).geo = s.geo := rfl
@[simp] theorem State.setImu_rings (p : Nat) (x : ImuPort) : (s.setImu p x).rings = s.rings := rfl
@[simp] theorem State.setImu_rfx (p : Nat) (x : ImuPort) : (s.setImu p x).rfx = s.rfx := rfl
@[simp] theorem State.setImu_cmp (p : Nat) (x : ImuPort) : (s.setImu p x).cmp = s.cmp := rfl
@[simp] theorem State.setImu_ecat (p : Nat) (x : ImuPort) : (s.setImu p x).ecat = s.ecat := rfl
@[simp] theorem State.setImu_dic (p : Nat) (x : ImuPort) : (s.setImu p x).dic = s.dic := rfl
@[simp] theorem State.setImu_pwr (p : Nat) (x : ImuPort) : (s.setImu p x).pwr = s.pwr := rfl
@[simp] theorem State.setImu_bu (p : Nat) (x : ImuPort) : (s.setImu p x).bu = s.bu := rfl

end Sys2Proof.Machine
end

