-- ==== Sys2Proof/Laws/Regs.lean ====
section
/-! SUPPORT. What is read back after an update: register fields, objects, contexts and commands. -/

namespace Sys2Proof.Machine

variable (s : State)

@[simp] theorem State.obj_setO (f : Fld) (n i v : Nat) (d' idx' sub' : Nat) : (s.setO f n i v).obj d' idx' sub' = s.obj d' idx' sub' := rfl
@[simp] theorem State.domPowered_setO (f : Fld) (n i v : Nat) (j : Nat) : (s.setO f n i v).domPowered j = s.domPowered j := rfl
@[simp] theorem State.domOn_setO (f : Fld) (n i v : Nat) (j : Nat) : (s.setO f n i v).domOn j = s.domOn j := rfl
@[simp] theorem State.clocked_setO (f : Fld) (n i v : Nat)  : (s.setO f n i v).clocked = s.clocked := rfl
@[simp] theorem State.ctx_setO (f : Fld) (n i v : Nat) (j : Nat) : (s.setO f n i v).ctx j = s.ctx j := rfl
@[simp] theorem State.cmd_setO (f : Fld) (n i v : Nat) (j : Nat) : (s.setO f n i v).cmd j = s.cmd j := rfl
@[simp] theorem State.obj_set (f : Fld) (i v : Nat) (d' idx' sub' : Nat) : (s.set f i v).obj d' idx' sub' = s.obj d' idx' sub' := rfl
@[simp] theorem State.domPowered_set (f : Fld) (i v : Nat) (j : Nat) : (s.set f i v).domPowered j = s.domPowered j := rfl
@[simp] theorem State.domOn_set (f : Fld) (i v : Nat) (j : Nat) : (s.set f i v).domOn j = s.domOn j := rfl
@[simp] theorem State.clocked_set (f : Fld) (i v : Nat)  : (s.set f i v).clocked = s.clocked := rfl
@[simp] theorem State.ctx_set (f : Fld) (i v : Nat) (j : Nat) : (s.set f i v).ctx j = s.ctx j := rfl
@[simp] theorem State.cmd_set (f : Fld) (i v : Nat) (j : Nat) : (s.set f i v).cmd j = s.cmd j := rfl
@[simp] theorem State.obj_countO (f : Fld) (n i k : Nat) (d' idx' sub' : Nat) : (s.countO f n i k).obj d' idx' sub' = s.obj d' idx' sub' := rfl
@[simp] theorem State.domPowered_countO (f : Fld) (n i k : Nat) (j : Nat) : (s.countO f n i k).domPowered j = s.domPowered j := rfl
@[simp] theorem State.domOn_countO (f : Fld) (n i k : Nat) (j : Nat) : (s.countO f n i k).domOn j = s.domOn j := rfl
@[simp] theorem State.clocked_countO (f : Fld) (n i k : Nat)  : (s.countO f n i k).clocked = s.clocked := rfl
@[simp] theorem State.ctx_countO (f : Fld) (n i k : Nat) (j : Nat) : (s.countO f n i k).ctx j = s.ctx j := rfl
@[simp] theorem State.cmd_countO (f : Fld) (n i k : Nat) (j : Nat) : (s.countO f n i k).cmd j = s.cmd j := rfl
@[simp] theorem State.obj_count (f : Fld) (i k : Nat) (d' idx' sub' : Nat) : (s.count f i k).obj d' idx' sub' = s.obj d' idx' sub' := rfl
@[simp] theorem State.domPowered_count (f : Fld) (i k : Nat) (j : Nat) : (s.count f i k).domPowered j = s.domPowered j := rfl
@[simp] theorem State.domOn_count (f : Fld) (i k : Nat) (j : Nat) : (s.count f i k).domOn j = s.domOn j := rfl
@[simp] theorem State.clocked_count (f : Fld) (i k : Nat)  : (s.count f i k).clocked = s.clocked := rfl
@[simp] theorem State.ctx_count (f : Fld) (i k : Nat) (j : Nat) : (s.count f i k).ctx j = s.ctx j := rfl
@[simp] theorem State.cmd_count (f : Fld) (i k : Nat) (j : Nat) : (s.count f i k).cmd j = s.cmd j := rfl
@[simp] theorem State.getO_emit (o : Output) (g : Fld) (m j : Nat) : (s.emit o).getO g m j = s.getO g m j := rfl
@[simp] theorem State.get_emit (o : Output) (g : Fld) (j : Nat) : (s.emit o).get g j = s.get g j := rfl
@[simp] theorem State.isSet_emit (o : Output) (g : Fld) (j : Nat) : (s.emit o).isSet g j = s.isSet g j := rfl
@[simp] theorem State.obj_emit (o : Output) (d' idx' sub' : Nat) : (s.emit o).obj d' idx' sub' = s.obj d' idx' sub' := rfl
@[simp] theorem State.domPowered_emit (o : Output) (j : Nat) : (s.emit o).domPowered j = s.domPowered j := rfl
@[simp] theorem State.domOn_emit (o : Output) (j : Nat) : (s.emit o).domOn j = s.domOn j := rfl
@[simp] theorem State.clocked_emit (o : Output)  : (s.emit o).clocked = s.clocked := rfl
@[simp] theorem State.ctx_emit (o : Output) (j : Nat) : (s.emit o).ctx j = s.ctx j := rfl
@[simp] theorem State.cmd_emit (o : Output) (j : Nat) : (s.emit o).cmd j = s.cmd j := rfl
@[simp] theorem State.getO_setObj (d idx sub v : Nat) (g : Fld) (m j : Nat) : (s.setObj d idx sub v).getO g m j = s.getO g m j := rfl
@[simp] theorem State.get_setObj (d idx sub v : Nat) (g : Fld) (j : Nat) : (s.setObj d idx sub v).get g j = s.get g j := rfl
@[simp] theorem State.isSet_setObj (d idx sub v : Nat) (g : Fld) (j : Nat) : (s.setObj d idx sub v).isSet g j = s.isSet g j := rfl
@[simp] theorem State.domPowered_setObj (d idx sub v : Nat) (j : Nat) : (s.setObj d idx sub v).domPowered j = s.domPowered j := rfl
@[simp] theorem State.domOn_setObj (d idx sub v : Nat) (j : Nat) : (s.setObj d idx sub v).domOn j = s.domOn j := rfl
@[simp] theorem State.clocked_setObj (d idx sub v : Nat)  : (s.setObj d idx sub v).clocked = s.clocked := rfl
@[simp] theorem State.ctx_setObj (d idx sub v : Nat) (j : Nat) : (s.setObj d idx sub v).ctx j = s.ctx j := rfl
@[simp] theorem State.cmd_setObj (d idx sub v : Nat) (j : Nat) : (s.setObj d idx sub v).cmd j = s.cmd j := rfl
@[simp] theorem State.getO_setBlob (idx sub : Nat) (b : List Byte) (g : Fld) (m j : Nat) : (s.setBlob idx sub b).getO g m j = s.getO g m j := rfl
@[simp] theorem State.get_setBlob (idx sub : Nat) (b : List Byte) (g : Fld) (j : Nat) : (s.setBlob idx sub b).get g j = s.get g j := rfl
@[simp] theorem State.isSet_setBlob (idx sub : Nat) (b : List Byte) (g : Fld) (j : Nat) : (s.setBlob idx sub b).isSet g j = s.isSet g j := rfl
@[simp] theorem State.obj_setBlob (idx sub : Nat) (b : List Byte) (d' idx' sub' : Nat) : (s.setBlob idx sub b).obj d' idx' sub' = s.obj d' idx' sub' := rfl
@[simp] theorem State.domPowered_setBlob (idx sub : Nat) (b : List Byte) (j : Nat) : (s.setBlob idx sub b).domPowered j = s.domPowered j := rfl
@[simp] theorem State.domOn_setBlob (idx sub : Nat) (b : List Byte) (j : Nat) : (s.setBlob idx sub b).domOn j = s.domOn j := rfl
@[simp] theorem State.clocked_setBlob (idx sub : Nat) (b : List Byte)  : (s.setBlob idx sub b).clocked = s.clocked := rfl
@[simp] theorem State.ctx_setBlob (idx sub : Nat) (b : List Byte) (j : Nat) : (s.setBlob idx sub b).ctx j = s.ctx j := rfl
@[simp] theorem State.cmd_setBlob (idx sub : Nat) (b : List Byte) (j : Nat) : (s.setBlob idx sub b).cmd j = s.cmd j := rfl
@[simp] theorem State.getO_poke (p : Nat) (b : List Byte) (g : Fld) (m j : Nat) : (s.poke p b).getO g m j = s.getO g m j := rfl
@[simp] theorem State.get_poke (p : Nat) (b : List Byte) (g : Fld) (j : Nat) : (s.poke p b).get g j = s.get g j := rfl
@[simp] theorem State.isSet_poke (p : Nat) (b : List Byte) (g : Fld) (j : Nat) : (s.poke p b).isSet g j = s.isSet g j := rfl
@[simp] theorem State.obj_poke (p : Nat) (b : List Byte) (d' idx' sub' : Nat) : (s.poke p b).obj d' idx' sub' = s.obj d' idx' sub' := rfl
@[simp] theorem State.domPowered_poke (p : Nat) (b : List Byte) (j : Nat) : (s.poke p b).domPowered j = s.domPowered j := rfl
@[simp] theorem State.domOn_poke (p : Nat) (b : List Byte) (j : Nat) : (s.poke p b).domOn j = s.domOn j := rfl
@[simp] theorem State.clocked_poke (p : Nat) (b : List Byte)  : (s.poke p b).clocked = s.clocked := rfl
@[simp] theorem State.ctx_poke (p : Nat) (b : List Byte) (j : Nat) : (s.poke p b).ctx j = s.ctx j := rfl
@[simp] theorem State.cmd_poke (p : Nat) (b : List Byte) (j : Nat) : (s.poke p b).cmd j = s.cmd j := rfl
@[simp] theorem State.getO_hostWrite (a : Nat) (b : List Byte) (g : Fld) (m j : Nat) : (s.hostWrite a b).getO g m j = s.getO g m j := rfl
@[simp] theorem State.get_hostWrite (a : Nat) (b : List Byte) (g : Fld) (j : Nat) : (s.hostWrite a b).get g j = s.get g j := rfl
@[simp] theorem State.isSet_hostWrite (a : Nat) (b : List Byte) (g : Fld) (j : Nat) : (s.hostWrite a b).isSet g j = s.isSet g j := rfl
@[simp] theorem State.obj_hostWrite (a : Nat) (b : List Byte) (d' idx' sub' : Nat) : (s.hostWrite a b).obj d' idx' sub' = s.obj d' idx' sub' := rfl
@[simp] theorem State.domPowered_hostWrite (a : Nat) (b : List Byte) (j : Nat) : (s.hostWrite a b).domPowered j = s.domPowered j := rfl
@[simp] theorem State.domOn_hostWrite (a : Nat) (b : List Byte) (j : Nat) : (s.hostWrite a b).domOn j = s.domOn j := rfl
@[simp] theorem State.clocked_hostWrite (a : Nat) (b : List Byte)  : (s.hostWrite a b).clocked = s.clocked := rfl
@[simp] theorem State.ctx_hostWrite (a : Nat) (b : List Byte) (j : Nat) : (s.hostWrite a b).ctx j = s.ctx j := rfl
@[simp] theorem State.cmd_hostWrite (a : Nat) (b : List Byte) (j : Nat) : (s.hostWrite a b).cmd j = s.cmd j := rfl
@[simp] theorem State.getO_setPoison (p : Nat) (b : Bool) (g : Fld) (m j : Nat) : (s.setPoison p b).getO g m j = s.getO g m j := rfl
@[simp] theorem State.get_setPoison (p : Nat) (b : Bool) (g : Fld) (j : Nat) : (s.setPoison p b).get g j = s.get g j := rfl
@[simp] theorem State.isSet_setPoison (p : Nat) (b : Bool) (g : Fld) (j : Nat) : (s.setPoison p b).isSet g j = s.isSet g j := rfl
@[simp] theorem State.obj_setPoison (p : Nat) (b : Bool) (d' idx' sub' : Nat) : (s.setPoison p b).obj d' idx' sub' = s.obj d' idx' sub' := rfl
@[simp] theorem State.domPowered_setPoison (p : Nat) (b : Bool) (j : Nat) : (s.setPoison p b).domPowered j = s.domPowered j := rfl
@[simp] theorem State.domOn_setPoison (p : Nat) (b : Bool) (j : Nat) : (s.setPoison p b).domOn j = s.domOn j := rfl
@[simp] theorem State.clocked_setPoison (p : Nat) (b : Bool)  : (s.setPoison p b).clocked = s.clocked := rfl
@[simp] theorem State.ctx_setPoison (p : Nat) (b : Bool) (j : Nat) : (s.setPoison p b).ctx j = s.ctx j := rfl
@[simp] theorem State.cmd_setPoison (p : Nat) (b : Bool) (j : Nat) : (s.setPoison p b).cmd j = s.cmd j := rfl
@[simp] theorem State.getO_setCtx (c : Nat) (x : Ctx) (g : Fld) (m j : Nat) : (s.setCtx c x).getO g m j = s.getO g m j := rfl
@[simp] theorem State.get_setCtx (c : Nat) (x : Ctx) (g : Fld) (j : Nat) : (s.setCtx c x).get g j = s.get g j := rfl
@[simp] theorem State.isSet_setCtx (c : Nat) (x : Ctx) (g : Fld) (j : Nat) : (s.setCtx c x).isSet g j = s.isSet g j := rfl
@[simp] theorem State.obj_setCtx (c : Nat) (x : Ctx) (d' idx' sub' : Nat) : (s.setCtx c x).obj d' idx' sub' = s.obj d' idx' sub' := rfl
@[simp] theorem State.domPowered_setCtx (c : Nat) (x : Ctx) (j : Nat) : (s.setCtx c x).domPowered j = s.domPowered j := rfl
@[simp] theorem State.domOn_setCtx (c : Nat) (x : Ctx) (j : Nat) : (s.setCtx c x).domOn j = s.domOn j := rfl
@[simp] theorem State.clocked_setCtx (c : Nat) (x : Ctx)  : (s.setCtx c x).clocked = s.clocked := rfl
@[simp] theorem State.getO_setCmd (x : Cmd) (g : Fld) (m j : Nat) : (s.setCmd x).getO g m j = s.getO g m j := rfl
@[simp] theorem State.get_setCmd (x : Cmd) (g : Fld) (j : Nat) : (s.setCmd x).get g j = s.get g j := rfl
@[simp] theorem State.isSet_setCmd (x : Cmd) (g : Fld) (j : Nat) : (s.setCmd x).isSet g j = s.isSet g j := rfl
@[simp] theorem State.obj_setCmd (x : Cmd) (d' idx' sub' : Nat) : (s.setCmd x).obj d' idx' sub' = s.obj d' idx' sub' := rfl
@[simp] theorem State.domPowered_setCmd (x : Cmd) (j : Nat) : (s.setCmd x).domPowered j = s.domPowered j := rfl
@[simp] theorem State.domOn_setCmd (x : Cmd) (j : Nat) : (s.setCmd x).domOn j = s.domOn j := rfl
@[simp] theorem State.clocked_setCmd (x : Cmd)  : (s.setCmd x).clocked = s.clocked := rfl
@[simp] theorem State.getO_setSec (x : SecUnit) (g : Fld) (m j : Nat) : (s.setSec x).getO g m j = s.getO g m j := rfl
@[simp] theorem State.get_setSec (x : SecUnit) (g : Fld) (j : Nat) : (s.setSec x).get g j = s.get g j := rfl
@[simp] theorem State.isSet_setSec (x : SecUnit) (g : Fld) (j : Nat) : (s.setSec x).isSet g j = s.isSet g j := rfl
@[simp] theorem State.obj_setSec (x : SecUnit) (d' idx' sub' : Nat) : (s.setSec x).obj d' idx' sub' = s.obj d' idx' sub' := rfl
@[simp] theorem State.domPowered_setSec (x : SecUnit) (j : Nat) : (s.setSec x).domPowered j = s.domPowered j := rfl
@[simp] theorem State.domOn_setSec (x : SecUnit) (j : Nat) : (s.setSec x).domOn j = s.domOn j := rfl
@[simp] theorem State.clocked_setSec (x : SecUnit)  : (s.setSec x).clocked = s.clocked := rfl
@[simp] theorem State.ctx_setSec (x : SecUnit) (j : Nat) : (s.setSec x).ctx j = s.ctx j := rfl
@[simp] theorem State.cmd_setSec (x : SecUnit) (j : Nat) : (s.setSec x).cmd j = s.cmd j := rfl
@[simp] theorem State.getO_setTime (x : TimeUnit) (g : Fld) (m j : Nat) : (s.setTime x).getO g m j = s.getO g m j := rfl
@[simp] theorem State.get_setTime (x : TimeUnit) (g : Fld) (j : Nat) : (s.setTime x).get g j = s.get g j := rfl
@[simp] theorem State.isSet_setTime (x : TimeUnit) (g : Fld) (j : Nat) : (s.setTime x).isSet g j = s.isSet g j := rfl
@[simp] theorem State.obj_setTime (x : TimeUnit) (d' idx' sub' : Nat) : (s.setTime x).obj d' idx' sub' = s.obj d' idx' sub' := rfl
@[simp] theorem State.domPowered_setTime (x : TimeUnit) (j : Nat) : (s.setTime x).domPowered j = s.domPowered j := rfl
@[simp] theorem State.domOn_setTime (x : TimeUnit) (j : Nat) : (s.setTime x).domOn j = s.domOn j := rfl
@[simp] theorem State.clocked_setTime (x : TimeUnit)  : (s.setTime x).clocked = s.clocked := rfl
@[simp] theorem State.ctx_setTime (x : TimeUnit) (j : Nat) : (s.setTime x).ctx j = s.ctx j := rfl
@[simp] theorem State.cmd_setTime (x : TimeUnit) (j : Nat) : (s.setTime x).cmd j = s.cmd j := rfl
@[simp] theorem State.getO_setDic (x : DictUnit) (g : Fld) (m j : Nat) : (s.setDic x).getO g m j = s.getO g m j := rfl
@[simp] theorem State.get_setDic (x : DictUnit) (g : Fld) (j : Nat) : (s.setDic x).get g j = s.get g j := rfl
@[simp] theorem State.isSet_setDic (x : DictUnit) (g : Fld) (j : Nat) : (s.setDic x).isSet g j = s.isSet g j := rfl
@[simp] theorem State.obj_setDic (x : DictUnit) (d' idx' sub' : Nat) : (s.setDic x).obj d' idx' sub' = s.obj d' idx' sub' := rfl
@[simp] theorem State.domPowered_setDic (x : DictUnit) (j : Nat) : (s.setDic x).domPowered j = s.domPowered j := rfl
@[simp] theorem State.domOn_setDic (x : DictUnit) (j : Nat) : (s.setDic x).domOn j = s.domOn j := rfl
@[simp] theorem State.clocked_setDic (x : DictUnit)  : (s.setDic x).clocked = s.clocked := rfl
@[simp] theorem State.ctx_setDic (x : DictUnit) (j : Nat) : (s.setDic x).ctx j = s.ctx j := rfl
@[simp] theorem State.cmd_setDic (x : DictUnit) (j : Nat) : (s.setDic x).cmd j = s.cmd j := rfl
@[simp] theorem State.getO_setPwr (x : Power) (g : Fld) (m j : Nat) : (s.setPwr x).getO g m j = s.getO g m j := rfl
@[simp] theorem State.get_setPwr (x : Power) (g : Fld) (j : Nat) : (s.setPwr x).get g j = s.get g j := rfl
@[simp] theorem State.isSet_setPwr (x : Power) (g : Fld) (j : Nat) : (s.setPwr x).isSet g j = s.isSet g j := rfl
@[simp] theorem State.obj_setPwr (x : Power) (d' idx' sub' : Nat) : (s.setPwr x).obj d' idx' sub' = s.obj d' idx' sub' := rfl
@[simp] theorem State.domPowered_setPwr (x : Power) (j : Nat) : (s.setPwr x).domPowered j = s.domPowered j := rfl
@[simp] theorem State.domOn_setPwr (x : Power) (j : Nat) : (s.setPwr x).domOn j = s.domOn j := rfl
@[simp] theorem State.clocked_setPwr (x : Power)  : (s.setPwr x).clocked = s.clocked := rfl
@[simp] theorem State.ctx_setPwr (x : Power) (j : Nat) : (s.setPwr x).ctx j = s.ctx j := rfl
@[simp] theorem State.cmd_setPwr (x : Power) (j : Nat) : (s.setPwr x).cmd j = s.cmd j := rfl
@[simp] theorem State.getO_setBu (x : BringUp) (g : Fld) (m j : Nat) : (s.setBu x).getO g m j = s.getO g m j := rfl
@[simp] theorem State.get_setBu (x : BringUp) (g : Fld) (j : Nat) : (s.setBu x).get g j = s.get g j := rfl
@[simp] theorem State.isSet_setBu (x : BringUp) (g : Fld) (j : Nat) : (s.setBu x).isSet g j = s.isSet g j := rfl
@[simp] theorem State.obj_setBu (x : BringUp) (d' idx' sub' : Nat) : (s.setBu x).obj d' idx' sub' = s.obj d' idx' sub' := rfl
@[simp] theorem State.domPowered_setBu (x : BringUp) (j : Nat) : (s.setBu x).domPowered j = s.domPowered j := rfl
@[simp] theorem State.clocked_setBu (x : BringUp)  : (s.setBu x).clocked = s.clocked := rfl
@[simp] theorem State.ctx_setBu (x : BringUp) (j : Nat) : (s.setBu x).ctx j = s.ctx j := rfl
@[simp] theorem State.cmd_setBu (x : BringUp) (j : Nat) : (s.setBu x).cmd j = s.cmd j := rfl
@[simp] theorem State.getO_setCmp (x : Comparator) (g : Fld) (m j : Nat) : (s.setCmp x).getO g m j = s.getO g m j := rfl
@[simp] theorem State.get_setCmp (x : Comparator) (g : Fld) (j : Nat) : (s.setCmp x).get g j = s.get g j := rfl
@[simp] theorem State.isSet_setCmp (x : Comparator) (g : Fld) (j : Nat) : (s.setCmp x).isSet g j = s.isSet g j := rfl
@[simp] theorem State.obj_setCmp (x : Comparator) (d' idx' sub' : Nat) : (s.setCmp x).obj d' idx' sub' = s.obj d' idx' sub' := rfl
@[simp] theorem State.domPowered_setCmp (x : Comparator) (j : Nat) : (s.setCmp x).domPowered j = s.domPowered j := rfl
@[simp] theorem State.domOn_setCmp (x : Comparator) (j : Nat) : (s.setCmp x).domOn j = s.domOn j := rfl
@[simp] theorem State.clocked_setCmp (x : Comparator)  : (s.setCmp x).clocked = s.clocked := rfl
@[simp] theorem State.ctx_setCmp (x : Comparator) (j : Nat) : (s.setCmp x).ctx j = s.ctx j := rfl
@[simp] theorem State.cmd_setCmp (x : Comparator) (j : Nat) : (s.setCmp x).cmd j = s.cmd j := rfl
@[simp] theorem State.getO_setEcat (x : Ecat) (g : Fld) (m j : Nat) : (s.setEcat x).getO g m j = s.getO g m j := rfl
@[simp] theorem State.get_setEcat (x : Ecat) (g : Fld) (j : Nat) : (s.setEcat x).get g j = s.get g j := rfl
@[simp] theorem State.isSet_setEcat (x : Ecat) (g : Fld) (j : Nat) : (s.setEcat x).isSet g j = s.isSet g j := rfl
@[simp] theorem State.obj_setEcat (x : Ecat) (d' idx' sub' : Nat) : (s.setEcat x).obj d' idx' sub' = s.obj d' idx' sub' := rfl
@[simp] theorem State.domPowered_setEcat (x : Ecat) (j : Nat) : (s.setEcat x).domPowered j = s.domPowered j := rfl
@[simp] theorem State.domOn_setEcat (x : Ecat) (j : Nat) : (s.setEcat x).domOn j = s.domOn j := rfl
@[simp] theorem State.clocked_setEcat (x : Ecat)  : (s.setEcat x).clocked = s.clocked := rfl
@[simp] theorem State.ctx_setEcat (x : Ecat) (j : Nat) : (s.setEcat x).ctx j = s.ctx j := rfl
@[simp] theorem State.cmd_setEcat (x : Ecat) (j : Nat) : (s.setEcat x).cmd j = s.cmd j := rfl
@[simp] theorem State.getO_setRfx (c : Nat) (x : RfxChan) (g : Fld) (m j : Nat) : (s.setRfx c x).getO g m j = s.getO g m j := rfl
@[simp] theorem State.get_setRfx (c : Nat) (x : RfxChan) (g : Fld) (j : Nat) : (s.setRfx c x).get g j = s.get g j := rfl
@[simp] theorem State.isSet_setRfx (c : Nat) (x : RfxChan) (g : Fld) (j : Nat) : (s.setRfx c x).isSet g j = s.isSet g j := rfl
@[simp] theorem State.obj_setRfx (c : Nat) (x : RfxChan) (d' idx' sub' : Nat) : (s.setRfx c x).obj d' idx' sub' = s.obj d' idx' sub' := rfl
@[simp] theorem State.domPowered_setRfx (c : Nat) (x : RfxChan) (j : Nat) : (s.setRfx c x).domPowered j = s.domPowered j := rfl
@[simp] theorem State.domOn_setRfx (c : Nat) (x : RfxChan) (j : Nat) : (s.setRfx c x).domOn j = s.domOn j := rfl
@[simp] theorem State.clocked_setRfx (c : Nat) (x : RfxChan)  : (s.setRfx c x).clocked = s.clocked := rfl
@[simp] theorem State.ctx_setRfx (c : Nat) (x : RfxChan) (j : Nat) : (s.setRfx c x).ctx j = s.ctx j := rfl
@[simp] theorem State.cmd_setRfx (c : Nat) (x : RfxChan) (j : Nat) : (s.setRfx c x).cmd j = s.cmd j := rfl
@[simp] theorem State.getO_setCam (p : Nat) (x : CamPort) (g : Fld) (m j : Nat) : (s.setCam p x).getO g m j = s.getO g m j := rfl
@[simp] theorem State.get_setCam (p : Nat) (x : CamPort) (g : Fld) (j : Nat) : (s.setCam p x).get g j = s.get g j := rfl
@[simp] theorem State.isSet_setCam (p : Nat) (x : CamPort) (g : Fld) (j : Nat) : (s.setCam p x).isSet g j = s.isSet g j := rfl
@[simp] theorem State.obj_setCam (p : Nat) (x : CamPort) (d' idx' sub' : Nat) : (s.setCam p x).obj d' idx' sub' = s.obj d' idx' sub' := rfl
@[simp] theorem State.domPowered_setCam (p : Nat) (x : CamPort) (j : Nat) : (s.setCam p x).domPowered j = s.domPowered j := rfl
@[simp] theorem State.domOn_setCam (p : Nat) (x : CamPort) (j : Nat) : (s.setCam p x).domOn j = s.domOn j := rfl
@[simp] theorem State.clocked_setCam (p : Nat) (x : CamPort)  : (s.setCam p x).clocked = s.clocked := rfl
@[simp] theorem State.ctx_setCam (p : Nat) (x : CamPort) (j : Nat) : (s.setCam p x).ctx j = s.ctx j := rfl
@[simp] theorem State.cmd_setCam (p : Nat) (x : CamPort) (j : Nat) : (s.setCam p x).cmd j = s.cmd j := rfl
@[simp] theorem State.getO_setImu (p : Nat) (x : ImuPort) (g : Fld) (m j : Nat) : (s.setImu p x).getO g m j = s.getO g m j := rfl
@[simp] theorem State.get_setImu (p : Nat) (x : ImuPort) (g : Fld) (j : Nat) : (s.setImu p x).get g j = s.get g j := rfl
@[simp] theorem State.isSet_setImu (p : Nat) (x : ImuPort) (g : Fld) (j : Nat) : (s.setImu p x).isSet g j = s.isSet g j := rfl
@[simp] theorem State.obj_setImu (p : Nat) (x : ImuPort) (d' idx' sub' : Nat) : (s.setImu p x).obj d' idx' sub' = s.obj d' idx' sub' := rfl
@[simp] theorem State.domPowered_setImu (p : Nat) (x : ImuPort) (j : Nat) : (s.setImu p x).domPowered j = s.domPowered j := rfl
@[simp] theorem State.domOn_setImu (p : Nat) (x : ImuPort) (j : Nat) : (s.setImu p x).domOn j = s.domOn j := rfl
@[simp] theorem State.clocked_setImu (p : Nat) (x : ImuPort)  : (s.setImu p x).clocked = s.clocked := rfl
@[simp] theorem State.ctx_setImu (p : Nat) (x : ImuPort) (j : Nat) : (s.setImu p x).ctx j = s.ctx j := rfl
@[simp] theorem State.cmd_setImu (p : Nat) (x : ImuPort) (j : Nat) : (s.setImu p x).cmd j = s.cmd j := rfl

variable {s}

@[simp] theorem State.getO_setO_self (f : Fld) (n i v : Nat) : (s.setO f n i v).getO f n i = v % 2 ^ f.width := tget_tput_self

theorem State.getO_setO_ne {f g : Fld} {n i m j v : Nat} (h : g.key m j ≠ f.key n i) : (s.setO f n i v).getO g m j = s.getO g m j :=
  tget_tput_ne h

@[simp] theorem State.get_set_self (f : Fld) (i v : Nat) : (s.set f i v).get f i = v % 2 ^ f.width := tget_tput_self

theorem State.get_set_ne {f g : Fld} {i j v : Nat} (h : g.key 4 j ≠ f.key 4 i) : (s.set f i v).get g j = s.get g j := tget_tput_ne h

theorem State.isSet_set_ne {f g : Fld} {i j v : Nat} (h : g.key 4 j ≠ f.key 4 i) : (s.set f i v).isSet g j = s.isSet g j := by
  unfold State.isSet
  rw [State.get_set_ne h]

@[simp] theorem State.ctx_setCtx_self (c : Nat) (x : Ctx) : (s.setCtx c x).ctx c = x := tget_tset_self

theorem State.ctx_setCtx_ne {c d : Nat} {x : Ctx} (h : d ≠ c) : (s.setCtx c x).ctx d = s.ctx d := tget_tset_ne h

@[simp] theorem State.cmd_setCmd_self (x : Cmd) : (s.setCmd x).cmd x.key = some x := tfind_tset_self

theorem State.cmd_setCmd_ne {x : Cmd} {k : Nat} (h : k ≠ x.key) : (s.setCmd x).cmd k = s.cmd k := tfind_tset_ne h

@[simp] theorem State.cmd_finish (x : Cmd) (st : Status) (v : Nat) :
    (s.finish x st v).cmd x.key = some { x with phase := .finished, status := st, result := v } := tfind_tset_self

@[simp] theorem State.obj_setObj_self (d idx sub v : Nat) : (s.setObj d idx sub v).obj d idx sub = v := tget_tput_self

theorem State.onClock_of {o : Host.Outcome State Fault Refusal} (h : s.clocked = true) : s.onClock o = o := by
  simp [State.onClock, h]

end Sys2Proof.Machine
end

