-- ==== Sys2Proof/Tests/Slice0.lean ====
section
/-! SUPPORT. Tests: ill-formed commands are refused, small runs of one step, and for every statement with hypotheses a state and operands
that meet them. -/

namespace Sys2Proof.Tests

open Sys2Proof.Machine Sys2Proof.Machine.Reg Host

-- One theorem after the other: the kernel evaluates each, and a thread for every one of them takes too much memory.
set_option Elab.async false

/-! ## Well-formed commands -/

/-- A request of session 1. -/
def auth : Auth := { session := 1, counter := 1, tagOk := true }

theorem test_well_formed_1 : ([
    .vddAonApply, .vddAonLoss, .buResetNAssert, .buResetNDeassert, .refclkLoss, .registerWrite .sideband (2 ^ 52 - 1) (2 ^ 64 - 1),
    .domains (2 ^ 56 - 1), .domainSwitchDone, .rootPll (2 ^ 56 - 1) true, .fuseLoad (2 ^ 56 - 1) true (2 ^ 6 - 1),
    .startTest (2 ^ 56 - 1) {}, .fmax (2 ^ 56 - 1) {}, .discover (2 ^ 56 - 1) (2 ^ 9 - 1) (2 ^ 9 - 1) (2 ^ 6 - 1),
    .fwLoad (2 ^ 56 - 1) (2 ^ 8 - 1), .cfgLoad (2 ^ 56 - 1) 3, .inject (2 ^ 56 - 1) (2 ^ 6 - 1), .outputEnable (2 ^ 56 - 1),
    .buStepComplete, .buQueuedRequestStart [], .domainRequest .sideband (2 ^ 16 - 1), .resetRequest .sideband (2 ^ 32 - 1),
    .coreReset (2 ^ 56 - 1) [], .dieReset (2 ^ 56 - 1) [], .partitionReset (2 ^ 56 - 1), .packageReset (2 ^ 56 - 1),
    .resetDrainTimeout [], .resetComplete {}, .shutdown (2 ^ 56 - 1), .quiesceEnd, .regionBistComplete 43 true, .shutdownOff,
    .shutdownAbort, .copy 511 (2 ^ 32 - 1) {} [], .broadcastCopy 511 (2 ^ 32 - 1) {}, .fill 511 (2 ^ 32 - 1) [],
    .flush 511 (2 ^ 32 - 1) {}, .evict 511 (2 ^ 32 - 1) {}, .discard 511 (2 ^ 32 - 1), .prefetch 511 (2 ^ 32 - 1) {},
    .wayflush 511 (2 ^ 32 - 1) {}, .tileStart 3, .tileComplete 511 (2 ^ 32 - 1) (2 ^ 13 - 1) {} [],
    .t3Timeout 511 (2 ^ 32 - 1) (2 ^ 13 - 1) [], .patrolScrub 3 (2 ^ 28 - 1) 2, .waymodeWrite .sideband 3 (2 ^ 64 - 1)] : List Instr).all (fun c => c.wf) = true := by decide +kernel

theorem test_well_formed_2 : ([
    .matmul 3 {}, .scanOnly 3 {}, .conv 3 {}, .dwconv 3 {}, .poolAvg 3 {}, .poolMax 3 {}, .tconv 3 {}, .relayout 3 {}, .add 3 {},
    .mul 3 {}, .fma 3 {}, .max 3 {}, .min 3 {}, .cvt 3 {}, .act 3 {}, .rsum 3 {}, .rmax 3 {}, .softmax 3 {}, .rmsnorm 3 {},
    .layernorm 3 {}, .padd 3 {}, .pround 3 {}, .issuecapWrite .sideband 3 (2 ^ 64 - 1), .score 3 {}, .value 3 {}, .kvWrite 3 {},
    .kvAlloc 3 {}, .kvMark 3 {}, .kvSeal 3 {}, .kvDrop 3 {}, .kvFree 3 {}, .kvAdopt 3 {}, .kvPin 3 {},
    .kvpoolWrite .sideband 3 15 (2 ^ 64 - 1), .kvpoolInitDone 3 15, .biasTableWrite .sideband 3 (2 ^ 20 - 1) (2 ^ 64 - 1), .scan 3 {},
    .streamOpen 3 {}, .streamClose 3, .streamDoorbell .sideband 3 7 (2 ^ 64 - 1), .streamStep 3, .streamStepComplete 3 {}, .map 3 {},
    .gmul 3 {}, .decay 3 {}] : List Instr).all (fun c => c.wf) = true := by decide +kernel

theorem test_well_formed_3 : ([
    .gateTableWrite .sideband 3 (2 ^ 20 - 1) (2 ^ 64 - 1), .factor 3 {}, .solve 3 {}, .update 3 {}, .trsolve 3 {}, .integrate 3 {},
    .commit 3, .commitWaitEnd 3 {}, .point 3 3 {}, .edge 3 3 {}, .repair 3 3 {}, .tree 3 {}, .roadmap 3 {}, .prim 3 {},
    .mapcfgWrite .sideband 3 3 2 (2 ^ 64 - 1), .mapInitDone 3 3, .commandFetch 511 {}, .sqFetchFail 511 true, .commandDispatch 3 12,
    .preemptionPoint 3 12 (2 ^ 64 - 1) {}, .commandComplete 511 (2 ^ 32 - 1), .t0Switch 3 3 { t3 := [(254, true, [])] }, .t0SwitchComplete 3 3,
    .ctxDb .sideband 511 (2 ^ 64 - 1), .ctxEnable .sideband 511, .ctxHalt .sideband 511, .ctxResume .sideband 511,
    .ctxAbort .sideband 511, .ctxDisable .sideband 511, .evqWrite .sideband 16 (2 ^ 64 - 1), .partCfgWrite .sideband 15 (2 ^ 64 - 1),
    .rsvWrite .sideband (2 ^ 64 - 1), .packetCrcError 8 true 0 [], .linkDown 8 [],
    .packetAuthFail 511 (2 ^ 32 - 1) (2 ^ 13 - 1) (2 ^ 8 - 1) {}, .heartbeatSend, .heartbeatAnswer 3, .lossTimeout 3 [],
    .uncoreFatal 3 [], .fence .sideband (2 ^ 64 - 1) [], .fenceDrainEnd [], .admitDie .sideband (2 ^ 64 - 1), .epochRelease,
    .csiFrameStart 11 ⟨3, 2 ^ 16 - 1⟩, .csiFrameEnd 11 true ⟨3, [(63, [])]⟩] : List Instr).all (fun c => c.wf) = true := by decide +kernel

theorem test_well_formed_4 : ([
    .frameReady 11, .frameMissing 11, .claim .sideband 11, .releaseBuffer .sideband 11 (2 ^ 64 - 1), .exclude .sideband (2 ^ 64 - 1),
    .readmit .sideband (2 ^ 64 - 1), .camcfgWrite .sideband 11 1 (2 ^ 64 - 1), .snap .sideband (2 ^ 12 - 1) true, .snapHeldRun,
    .imuDrdy 3, .imuBurstComplete 3 [], .imucfgWrite .sideband 3 (2 ^ 64 - 1), .encoderEdge 7 ⟨true, false, 0⟩, .egoTick, .egoEval,
    .egocfgWrite .sideband (2 ^ 64 - 1), .apply, .sampleBoundary (List.replicate 32 0) (List.replicate 32 0) (2 ^ 32 - 1),
    .comparatorCrossing 31 true 0 0, .switchBlockEnd 31 true true, .deadtimeEnd 31 true, .crowbarTrip ⟨31, 0, 0⟩, .desatTrip ⟨31, true, 2 ^ 32 - 1⟩, .spEdge 31 (2 ^ 32 - 1) (2 ^ 32 - 1) true, .spLost 31, .arm .sideband (2 ^ 32 - 1), .disarm .sideband (2 ^ 32 - 1),
    .rearm .sideband (2 ^ 32 - 1), .swap .sideband (2 ^ 64 - 1), .brlChTrimWrite .sideband 31 (2 ^ 64 - 1), .nowRead .sideband,
    .ptpSample 1 (2 ^ 64 - 1) 127 (2 ^ 64 - 1) (2 ^ 64 - 1) 0, .swsample .sideband (2 ^ 64 - 1), .modeWrite .sideband (2 ^ 64 - 1),
    .masterWrite .sideband (2 ^ 64 - 1), .accept .sideband, .holdoverTimeout, .rateWrite .sideband (2 ^ 64 - 1),
    .adjWrite .sideband (2 ^ 64 - 1), .txTimestampPoint 1, .txtsqRead .sideband 1, .ppsPulse,
    .dictRead 1 (2 ^ 16 - 1) (2 ^ 8 - 1) (2 ^ 24 - 1), .dictWrite 1 (2 ^ 16 - 1) (2 ^ 8 - 1) (2 ^ 24 - 1),
    .usdoRequest 1 (2 ^ 16 - 1) (2 ^ 8 - 1) none] : List Instr).all (fun c => c.wf) = true := by decide +kernel

theorem test_well_formed_5 : ([
    .coeSdoRequest 127 (2 ^ 16 - 1) (2 ^ 8 - 1) none, .safetyDictRequest (2 ^ 16 - 1) (2 ^ 8 - 1) none, .slotEnd [] true,
    .storeParameters .sideband, .storeComplete true, .restoreDefaults .sideband, .hostDown [], .flr 65 [], .ecatCycleStart,
    .ecatFrameReturn 3 1 [], .ecatReturnLimit, .ecatLinkLoss 1 [], .subdeviceAnswer 127 1, .identityReadComplete 127 none,
    .retryExpire 127, .recheck 127, .mbxRead .sideband (2 ^ 64 - 1), .mbxWrite .sideband (2 ^ 64 - 1) (2 ^ 24 - 1),
    .mbxResponse (2 ^ 32 - 1) [], .mbxTimeout, .feedWriteComplete 3, .canBusOff 1, .canBusOffRecovery 1, .canHeartbeat 1,
    .txDoorbell .sideband 1 (2 ^ 64 - 1), .ethFrameReceive 1 [], .hbWrite .sideband (2 ^ 64 - 1), .heartbeatCheck, .safeLineEdge,
    .guardedFrameStart, .guardedBufferWrite .sideband (2 ^ 20 - 1) [] true, .outputDeadline 31, .latchReq, .release .sideband,
    .getCert 1, .attest 1 (List.replicate 48 0), .sessionOpen 1 [], .sessionFinish 1, .sessionClose 1 auth, .partProtect 1 auth [],
    .partRelease 1 none 15, .clearStart 15, .clearComplete 15, .keyImport 1 auth 31 15 [], .keyDestroy 1 auth 31] : List Instr).all (fun c => c.wf) = true := by decide +kernel

theorem test_well_formed_6 : ([
    .modelLoad 1 auth 31 (2 ^ 32 - 1) true (2 ^ 64 - 1) (2 ^ 64 - 1) (2 ^ 52 - 1) (2 ^ 21 - 1), .collect 1 (2 ^ 32 - 1), .getNonce 1,
    .debugEnable 1 true, .cfgkeyFuse 1 3 true (2 ^ 384 - 1) true, .defectClear 1 auth true, .dict 1 auth (2 ^ 16 - 1) (2 ^ 8 - 1) none,
    .regread 1 auth [], .mailboxAnswer 1, .ticketOpComplete 0 true, .ticketExpire 0, .sessionTimeout 0,
    .deniedResponse true 511 (2 ^ 32 - 1), .lossOfLock, .pllLock, .dividerRestart, .relockTimeout,
    .powerSample (List.replicate 12 default), .pmbAlert [] (2 ^ 12 - 1) (2 ^ 12 - 1), .avsStepComplete 3, .matrixIdleTimeout 3,
    .hintWrite .sideband 3 (2 ^ 64 - 1), .hintExpire 3, .thermalEval (List.replicate 40 none) [], .throttleStep,
    .image .sideband 4 [] true, .imageStageComplete 4 true, .activate .sideband 4 (2 ^ 8 - 1), .activateComplete 4 (2 ^ 8 - 1),
    .admitComplete true [], .vddIo18Loss, .vddIo18Apply, .srdoTransmit 64] : List Instr).all (fun c => c.wf) = true := by decide +kernel

theorem test_ill_formed_1 : ([
    .registerWrite (.vf 64) (2 ^ 52 - 1) (2 ^ 64 - 1), .registerWrite .sideband (2 ^ 52) (2 ^ 64 - 1),
    .registerWrite .sideband (2 ^ 52 - 1) (2 ^ 64), .domains (2 ^ 56), .rootPll (2 ^ 56) true, .fuseLoad (2 ^ 56) true (2 ^ 6 - 1),
    .fuseLoad (2 ^ 56 - 1) true (2 ^ 6), .startTest (2 ^ 56) {}, .startTest (2 ^ 56 - 1) { bad := 64 }, .fmax (2 ^ 56) {},
    .fmax (2 ^ 56 - 1) { bad := 64 }, .discover (2 ^ 56) (2 ^ 9 - 1) (2 ^ 9 - 1) (2 ^ 6 - 1),
    .discover (2 ^ 56 - 1) (2 ^ 9) (2 ^ 9 - 1) (2 ^ 6 - 1), .discover (2 ^ 56 - 1) (2 ^ 9 - 1) (2 ^ 9) (2 ^ 6 - 1),
    .discover (2 ^ 56 - 1) (2 ^ 9 - 1) (2 ^ 9 - 1) (2 ^ 6), .fwLoad (2 ^ 56) (2 ^ 8 - 1), .fwLoad (2 ^ 56 - 1) (2 ^ 8),
    .cfgLoad (2 ^ 56) 3, .cfgLoad (2 ^ 56 - 1) 4, .inject (2 ^ 56) (2 ^ 6 - 1), .inject (2 ^ 56 - 1) (2 ^ 6), .outputEnable (2 ^ 56),
    .domainRequest (.vf 64) (2 ^ 16 - 1), .domainRequest .sideband (2 ^ 16), .resetRequest (.vf 64) (2 ^ 32 - 1),
    .resetRequest .sideband (2 ^ 32), .coreReset (2 ^ 56) [], .dieReset (2 ^ 56) [], .partitionReset (2 ^ 56), .packageReset (2 ^ 56),
    .resetComplete { bad := 64 }, .shutdown (2 ^ 56), .regionBistComplete 44 true, .copy 512 (2 ^ 32 - 1) {} [],
    .copy 511 (2 ^ 32) {} [], .copy 511 (2 ^ 32 - 1) { uncorrectable := [1] } [], .copy 511 (2 ^ 32 - 1) {} [1],
    .broadcastCopy 512 (2 ^ 32 - 1) {}, .broadcastCopy 511 (2 ^ 32) {}, .broadcastCopy 511 (2 ^ 32 - 1) { uncorrectable := [1] },
    .fill 512 (2 ^ 32 - 1) [], .fill 511 (2 ^ 32) [], .fill 511 (2 ^ 32 - 1) [1], .flush 512 (2 ^ 32 - 1) {}, .flush 511 (2 ^ 32) {}] : List Instr).all (fun c => !c.wf) = true := by decide +kernel

theorem test_ill_formed_2 : ([
    .flush 511 (2 ^ 32 - 1) { uncorrectable := [1] }, .evict 512 (2 ^ 32 - 1) {}, .evict 511 (2 ^ 32) {},
    .evict 511 (2 ^ 32 - 1) { uncorrectable := [1] }, .discard 512 (2 ^ 32 - 1), .discard 511 (2 ^ 32), .prefetch 512 (2 ^ 32 - 1) {},
    .prefetch 511 (2 ^ 32) {}, .prefetch 511 (2 ^ 32 - 1) { uncorrectable := [1] }, .wayflush 512 (2 ^ 32 - 1) {},
    .wayflush 511 (2 ^ 32) {}, .wayflush 511 (2 ^ 32 - 1) { uncorrectable := [1] }, .tileStart 4,
    .tileComplete 512 (2 ^ 32 - 1) (2 ^ 13 - 1) {} [], .tileComplete 511 (2 ^ 32) (2 ^ 13 - 1) {} [],
    .tileComplete 511 (2 ^ 32 - 1) (2 ^ 13) {} [], .tileComplete 511 (2 ^ 32 - 1) (2 ^ 13 - 1) { uncorrectable := [1] } [],
    .tileComplete 511 (2 ^ 32 - 1) (2 ^ 13 - 1) {} [1], .t3Timeout 512 (2 ^ 32 - 1) (2 ^ 13 - 1) [],
    .t3Timeout 511 (2 ^ 32) (2 ^ 13 - 1) [], .t3Timeout 511 (2 ^ 32 - 1) (2 ^ 13) [], .t3Timeout 511 (2 ^ 32 - 1) (2 ^ 13 - 1) [1],
    .patrolScrub 4 (2 ^ 28 - 1) 2, .patrolScrub 3 (2 ^ 28) 2, .patrolScrub 3 (2 ^ 28 - 1) 3, .waymodeWrite (.vf 64) 3 (2 ^ 64 - 1),
    .waymodeWrite .sideband 4 (2 ^ 64 - 1), .waymodeWrite .sideband 3 (2 ^ 64), .matmul 4 {}, .matmul 3 { uncorrectable := [1] },
    .scanOnly 4 {}, .scanOnly 3 { uncorrectable := [1] }, .conv 4 {}, .conv 3 { uncorrectable := [1] }, .dwconv 4 {},
    .dwconv 3 { uncorrectable := [1] }, .poolAvg 4 {}, .poolAvg 3 { uncorrectable := [1] }, .poolMax 4 {},
    .poolMax 3 { uncorrectable := [1] }, .tconv 4 {}, .tconv 3 { uncorrectable := [1] }, .relayout 4 {},
    .relayout 3 { uncorrectable := [1] }, .add 4 {}] : List Instr).all (fun c => !c.wf) = true := by decide +kernel

theorem test_ill_formed_3 : ([
    .add 3 { uncorrectable := [1] }, .mul 4 {}, .mul 3 { uncorrectable := [1] }, .fma 4 {}, .fma 3 { uncorrectable := [1] }, .max 4 {},
    .max 3 { uncorrectable := [1] }, .min 4 {}, .min 3 { uncorrectable := [1] }, .cvt 4 {}, .cvt 3 { uncorrectable := [1] }, .act 4 {},
    .act 3 { uncorrectable := [1] }, .rsum 4 {}, .rsum 3 { uncorrectable := [1] }, .rmax 4 {}, .rmax 3 { uncorrectable := [1] },
    .softmax 4 {}, .softmax 3 { uncorrectable := [1] }, .rmsnorm 4 {}, .rmsnorm 3 { uncorrectable := [1] }, .layernorm 4 {},
    .layernorm 3 { uncorrectable := [1] }, .padd 4 {}, .padd 3 { uncorrectable := [1] }, .pround 4 {},
    .pround 3 { uncorrectable := [1] }, .issuecapWrite (.vf 64) 3 (2 ^ 64 - 1), .issuecapWrite .sideband 4 (2 ^ 64 - 1),
    .issuecapWrite .sideband 3 (2 ^ 64), .score 4 {}, .score 3 { uncorrectable := [1] }, .value 4 {}, .value 3 { uncorrectable := [1] },
    .kvWrite 4 {}, .kvWrite 3 { uncorrectable := [1] }, .kvAlloc 4 {}, .kvAlloc 3 { uncorrectable := [1] }, .kvMark 4 {},
    .kvMark 3 { uncorrectable := [1] }, .kvSeal 4 {}, .kvSeal 3 { uncorrectable := [1] }, .kvDrop 4 {},
    .kvDrop 3 { uncorrectable := [1] }, .kvFree 4 {}] : List Instr).all (fun c => !c.wf) = true := by decide +kernel

theorem test_ill_formed_4 : ([
    .kvFree 3 { uncorrectable := [1] }, .kvAdopt 4 {}, .kvAdopt 3 { uncorrectable := [1] }, .kvPin 4 {},
    .kvPin 3 { uncorrectable := [1] }, .kvpoolWrite (.vf 64) 3 15 (2 ^ 64 - 1), .kvpoolWrite .sideband 4 15 (2 ^ 64 - 1),
    .kvpoolWrite .sideband 3 16 (2 ^ 64 - 1), .kvpoolWrite .sideband 3 15 (2 ^ 64), .kvpoolInitDone 4 15, .kvpoolInitDone 3 16,
    .biasTableWrite (.vf 64) 3 (2 ^ 20 - 1) (2 ^ 64 - 1), .biasTableWrite .sideband 4 (2 ^ 20 - 1) (2 ^ 64 - 1),
    .biasTableWrite .sideband 3 (2 ^ 20) (2 ^ 64 - 1), .biasTableWrite .sideband 3 (2 ^ 20 - 1) (2 ^ 64), .scan 4 {},
    .scan 3 { uncorrectable := [1] }, .streamOpen 4 {}, .streamOpen 3 { uncorrectable := [1] }, .streamClose 4,
    .streamDoorbell (.vf 64) 3 7 (2 ^ 64 - 1), .streamDoorbell .sideband 4 7 (2 ^ 64 - 1), .streamDoorbell .sideband 3 8 (2 ^ 64 - 1),
    .streamDoorbell .sideband 3 7 (2 ^ 64), .streamStep 4, .streamStepComplete 4 {}, .streamStepComplete 3 { uncorrectable := [1] },
    .map 4 {}, .map 3 { uncorrectable := [1] }, .gmul 4 {}, .gmul 3 { uncorrectable := [1] }, .decay 4 {},
    .decay 3 { uncorrectable := [1] }, .gateTableWrite (.vf 64) 3 (2 ^ 20 - 1) (2 ^ 64 - 1),
    .gateTableWrite .sideband 4 (2 ^ 20 - 1) (2 ^ 64 - 1), .gateTableWrite .sideband 3 (2 ^ 20) (2 ^ 64 - 1),
    .gateTableWrite .sideband 3 (2 ^ 20 - 1) (2 ^ 64), .factor 4 {}, .factor 3 { uncorrectable := [1] }, .solve 4 {},
    .solve 3 { uncorrectable := [1] }, .update 4 {}, .update 3 { uncorrectable := [1] }, .trsolve 4 {},
    .trsolve 3 { uncorrectable := [1] }] : List Instr).all (fun c => !c.wf) = true := by decide +kernel

theorem test_ill_formed_5 : ([
    .integrate 4 {}, .integrate 3 { uncorrectable := [1] }, .commit 4, .commitWaitEnd 4 {}, .commitWaitEnd 3 { uncorrectable := [1] },
    .point 4 3 {}, .point 3 4 {}, .point 3 3 { uncorrectable := [1] }, .edge 4 3 {}, .edge 3 4 {}, .edge 3 3 { uncorrectable := [1] },
    .repair 4 3 {}, .repair 3 4 {}, .repair 3 3 { uncorrectable := [1] }, .tree 4 {}, .tree 3 { uncorrectable := [1] }, .roadmap 4 {},
    .roadmap 3 { uncorrectable := [1] }, .prim 4 {}, .prim 3 { uncorrectable := [1] }, .mapcfgWrite (.vf 64) 3 3 2 (2 ^ 64 - 1),
    .mapcfgWrite .sideband 4 3 2 (2 ^ 64 - 1), .mapcfgWrite .sideband 3 4 2 (2 ^ 64 - 1), .mapcfgWrite .sideband 3 3 3 (2 ^ 64 - 1),
    .mapcfgWrite .sideband 3 3 2 (2 ^ 64), .mapInitDone 4 3, .mapInitDone 3 4, .commandFetch 512 {},
    .commandFetch 511 { uncorrectable := [1] }, .sqFetchFail 512 true, .commandDispatch 4 12, .commandDispatch 3 13,
    .preemptionPoint 4 12 (2 ^ 64 - 1) {}, .preemptionPoint 3 12 0 {}, .preemptionPoint 3 13 (2 ^ 64 - 1) {}, .preemptionPoint 3 12 (2 ^ 64) {},
    .preemptionPoint 3 12 (2 ^ 64 - 1) { uncorrectable := [1] }, .commandComplete 512 (2 ^ 32 - 1), .commandComplete 511 (2 ^ 32),
    .t0Switch 4 3 {}, .t0Switch 3 4 {}, .t0Switch 3 3 { errs := { uncorrectable := [1] } }, .t0Switch 3 3 { t3 := [(255, true, [])] }, .t0SwitchComplete 4 3, .t0SwitchComplete 3 4,
    .ctxDb (.vf 64) 511 (2 ^ 64 - 1), .ctxDb .sideband 512 (2 ^ 64 - 1)] : List Instr).all (fun c => !c.wf) = true := by decide +kernel

theorem test_ill_formed_6 : ([
    .ctxDb .sideband 511 (2 ^ 64), .ctxEnable (.vf 64) 511, .ctxEnable .sideband 512, .ctxHalt (.vf 64) 511, .ctxHalt .sideband 512,
    .ctxResume (.vf 64) 511, .ctxResume .sideband 512, .ctxAbort (.vf 64) 511, .ctxAbort .sideband 512, .ctxDisable (.vf 64) 511,
    .ctxDisable .sideband 512, .evqWrite (.vf 64) 16 (2 ^ 64 - 1), .evqWrite .sideband 17 (2 ^ 64 - 1), .evqWrite .sideband 16 (2 ^ 64),
    .partCfgWrite (.vf 64) 15 (2 ^ 64 - 1), .partCfgWrite .sideband 16 (2 ^ 64 - 1), .partCfgWrite .sideband 15 (2 ^ 64),
    .rsvWrite (.vf 64) (2 ^ 64 - 1), .rsvWrite .sideband (2 ^ 64), .packetCrcError 9 true 0 [], .linkDown 9 [],
    .packetAuthFail 512 (2 ^ 32 - 1) (2 ^ 13 - 1) (2 ^ 8 - 1) {}, .packetAuthFail 511 (2 ^ 32) (2 ^ 13 - 1) (2 ^ 8 - 1) {},
    .packetAuthFail 511 (2 ^ 32 - 1) (2 ^ 13) (2 ^ 8 - 1) {}, .packetAuthFail 511 (2 ^ 32 - 1) (2 ^ 13 - 1) (2 ^ 8) {},
    .packetAuthFail 511 (2 ^ 32 - 1) (2 ^ 13 - 1) (2 ^ 8 - 1) { uncorrectable := [1] }, .heartbeatAnswer 4, .lossTimeout 4 [],
    .uncoreFatal 4 [], .fence (.vf 64) (2 ^ 64 - 1) [], .fence .sideband (2 ^ 64) [], .admitDie (.vf 64) (2 ^ 64 - 1),
    .admitDie .sideband (2 ^ 64), .csiFrameStart 12 ⟨3, 2 ^ 16 - 1⟩, .csiFrameStart 11 ⟨4, 0⟩,
    .csiFrameStart 11 ⟨3, 2 ^ 16⟩, .csiFrameEnd 12 true ⟨3, []⟩, .csiFrameEnd 11 true ⟨4, []⟩, .csiFrameEnd 11 true ⟨3, [(64, [])]⟩, .frameReady 12,
    .frameMissing 12, .claim (.vf 64) 11, .claim .sideband 12, .releaseBuffer (.vf 64) 11 (2 ^ 64 - 1),
    .releaseBuffer .sideband 12 (2 ^ 64 - 1), .releaseBuffer .sideband 11 (2 ^ 64), .exclude (.vf 64) (2 ^ 64 - 1),
    .exclude .sideband (2 ^ 64)] : List Instr).all (fun c => !c.wf) = true := by decide +kernel

theorem test_ill_formed_7 : ([
    .readmit (.vf 64) (2 ^ 64 - 1), .readmit .sideband (2 ^ 64), .camcfgWrite (.vf 64) 11 1 (2 ^ 64 - 1),
    .camcfgWrite .sideband 12 1 (2 ^ 64 - 1), .camcfgWrite .sideband 11 2 (2 ^ 64 - 1), .camcfgWrite .sideband 11 1 (2 ^ 64),
    .snap (.vf 64) (2 ^ 12 - 1) true, .snap .sideband (2 ^ 12) true, .imuDrdy 4, .imuBurstComplete 4 [],
    .imucfgWrite (.vf 64) 3 (2 ^ 64 - 1), .imucfgWrite .sideband 4 (2 ^ 64 - 1), .imucfgWrite .sideband 3 (2 ^ 64), .encoderEdge 8 ⟨true, true, 0⟩,
    .egocfgWrite (.vf 64) (2 ^ 64 - 1), .egocfgWrite .sideband (2 ^ 64), .sampleBoundary [] (List.replicate 32 0) 0,
    .sampleBoundary (List.replicate 32 0) [] 0, .sampleBoundary (List.replicate 32 0) (List.replicate 32 0) (2 ^ 32),
    .comparatorCrossing 32 true 0 0, .switchBlockEnd 32 true true, .deadtimeEnd 32 true, .crowbarTrip ⟨32, 0, 0⟩, .desatTrip ⟨32, true, 0⟩,
    .desatTrip ⟨31, true, 2 ^ 32⟩,
    .spEdge 32 (2 ^ 32 - 1) (2 ^ 32 - 1) true, .spEdge 31 (2 ^ 32) (2 ^ 32 - 1) true, .spEdge 31 (2 ^ 32 - 1) (2 ^ 32) true, .spLost 32,
    .arm (.vf 64) (2 ^ 32 - 1), .arm .sideband (2 ^ 32), .disarm (.vf 64) (2 ^ 32 - 1), .disarm .sideband (2 ^ 32),
    .rearm (.vf 64) (2 ^ 32 - 1), .rearm .sideband (2 ^ 32), .swap (.vf 64) (2 ^ 64 - 1), .swap .sideband (2 ^ 64),
    .brlChTrimWrite (.vf 64) 31 (2 ^ 64 - 1), .brlChTrimWrite .sideband 32 (2 ^ 64 - 1), .brlChTrimWrite .sideband 31 (2 ^ 64),
    .nowRead (.vf 64), .ptpSample 2 (2 ^ 64 - 1) 127 (2 ^ 64 - 1) (2 ^ 64 - 1) 0] : List Instr).all (fun c => !c.wf) = true := by decide +kernel

theorem test_ill_formed_8 : ([
    .ptpSample 1 (2 ^ 64) 127 (2 ^ 64 - 1) (2 ^ 64 - 1) 0, .ptpSample 1 (2 ^ 64 - 1) 128 (2 ^ 64 - 1) (2 ^ 64 - 1) 0,
    .ptpSample 1 (2 ^ 64 - 1) 127 (2 ^ 64) (2 ^ 64 - 1) 0, .ptpSample 1 (2 ^ 64 - 1) 127 (2 ^ 64 - 1) (2 ^ 64) 0,
    .swsample (.vf 64) (2 ^ 64 - 1), .swsample .sideband (2 ^ 64), .modeWrite (.vf 64) (2 ^ 64 - 1), .modeWrite .sideband (2 ^ 64),
    .masterWrite (.vf 64) (2 ^ 64 - 1), .masterWrite .sideband (2 ^ 64), .accept (.vf 64), .rateWrite (.vf 64) (2 ^ 64 - 1),
    .rateWrite .sideband (2 ^ 64), .adjWrite (.vf 64) (2 ^ 64 - 1), .adjWrite .sideband (2 ^ 64), .txTimestampPoint 2,
    .txtsqRead (.vf 64) 1, .txtsqRead .sideband 2, .dictRead 2 (2 ^ 16 - 1) (2 ^ 8 - 1) (2 ^ 24 - 1),
    .dictRead 1 (2 ^ 16) (2 ^ 8 - 1) (2 ^ 24 - 1), .dictRead 1 (2 ^ 16 - 1) (2 ^ 8) (2 ^ 24 - 1),
    .dictRead 1 (2 ^ 16 - 1) (2 ^ 8 - 1) (2 ^ 24), .dictWrite 2 (2 ^ 16 - 1) (2 ^ 8 - 1) (2 ^ 24 - 1),
    .dictWrite 1 (2 ^ 16) (2 ^ 8 - 1) (2 ^ 24 - 1), .dictWrite 1 (2 ^ 16 - 1) (2 ^ 8) (2 ^ 24 - 1),
    .dictWrite 1 (2 ^ 16 - 1) (2 ^ 8 - 1) (2 ^ 24), .usdoRequest 2 (2 ^ 16 - 1) (2 ^ 8 - 1) none,
    .usdoRequest 1 (2 ^ 16) (2 ^ 8 - 1) none, .usdoRequest 1 (2 ^ 16 - 1) (2 ^ 8) none,
    .coeSdoRequest 128 (2 ^ 16 - 1) (2 ^ 8 - 1) none, .coeSdoRequest 127 (2 ^ 16) (2 ^ 8 - 1) none,
    .coeSdoRequest 127 (2 ^ 16 - 1) (2 ^ 8) none, .safetyDictRequest (2 ^ 16) (2 ^ 8 - 1) none,
    .safetyDictRequest (2 ^ 16 - 1) (2 ^ 8) none, .storeParameters (.vf 64), .restoreDefaults (.vf 64), .flr 66 [],
    .ecatFrameReturn 4 1 [], .ecatFrameReturn 3 2 [], .ecatLinkLoss 2 [], .ecatLinkLoss 1 [128], .subdeviceAnswer 128 1,
    .subdeviceAnswer 127 2, .identityReadComplete 128 none, .retryExpire 128] : List Instr).all (fun c => !c.wf) = true := by decide +kernel

theorem test_ill_formed_9 : ([
    .recheck 128, .mbxRead (.vf 64) (2 ^ 64 - 1), .mbxRead .sideband (2 ^ 64), .mbxWrite (.vf 64) (2 ^ 64 - 1) (2 ^ 24 - 1),
    .mbxWrite .sideband (2 ^ 64) (2 ^ 24 - 1), .mbxWrite .sideband (2 ^ 64 - 1) (2 ^ 24), .mbxResponse (2 ^ 32) [],
    .feedWriteComplete 4, .canBusOff 2, .canBusOffRecovery 2, .canHeartbeat 2, .txDoorbell (.vf 64) 1 (2 ^ 64 - 1),
    .txDoorbell .sideband 2 (2 ^ 64 - 1), .txDoorbell .sideband 1 (2 ^ 64), .ethFrameReceive 2 [],
    .ethFrameReceive 1 (List.replicate 9217 0), .hbWrite (.vf 64) (2 ^ 64 - 1), .hbWrite .sideband (2 ^ 64),
    .guardedBufferWrite (.vf 64) (2 ^ 20 - 1) [] true, .guardedBufferWrite .sideband (2 ^ 20) [] true, .outputDeadline 32,
    .release (.vf 64), .getCert 2, .attest 2 (List.replicate 48 0), .attest 1 [], .sessionOpen 2 [],
    .sessionOpen 1 (List.replicate 4096 0), .sessionFinish 2, .sessionClose 2 auth, .sessionClose 1 { auth with counter := 2 ^ 64 },
    .partProtect 2 auth [], .partProtect 1 { auth with counter := 2 ^ 64 } [], .partProtect 1 auth (List.replicate 4096 0),
    .partRelease 2 none 15, .partRelease 1 none 16, .clearStart 16, .clearComplete 16, .keyImport 2 auth 31 15 [],
    .keyImport 1 { auth with counter := 2 ^ 64 } 31 15 [], .keyImport 1 auth 32 15 [], .keyImport 1 auth 31 16 [],
    .keyImport 1 auth 31 15 (List.replicate 4096 0), .keyDestroy 2 auth 31, .keyDestroy 1 { auth with counter := 2 ^ 64 } 31,
    .keyDestroy 1 auth 32] : List Instr).all (fun c => !c.wf) = true := by decide +kernel

theorem test_ill_formed_10 : ([
    .modelLoad 2 auth 31 (2 ^ 32 - 1) true (2 ^ 64 - 1) (2 ^ 64 - 1) (2 ^ 52 - 1) (2 ^ 21 - 1),
    .modelLoad 1 { auth with counter := 2 ^ 64 } 31 (2 ^ 32 - 1) true (2 ^ 64 - 1) (2 ^ 64 - 1) (2 ^ 52 - 1) (2 ^ 21 - 1),
    .modelLoad 1 auth 32 (2 ^ 32 - 1) true (2 ^ 64 - 1) (2 ^ 64 - 1) (2 ^ 52 - 1) (2 ^ 21 - 1),
    .modelLoad 1 auth 31 (2 ^ 32) true (2 ^ 64 - 1) (2 ^ 64 - 1) (2 ^ 52 - 1) (2 ^ 21 - 1),
    .modelLoad 1 auth 31 (2 ^ 32 - 1) true (2 ^ 64) (2 ^ 64 - 1) (2 ^ 52 - 1) (2 ^ 21 - 1),
    .modelLoad 1 auth 31 (2 ^ 32 - 1) true (2 ^ 64 - 1) (2 ^ 64) (2 ^ 52 - 1) (2 ^ 21 - 1),
    .modelLoad 1 auth 31 (2 ^ 32 - 1) true (2 ^ 64 - 1) (2 ^ 64 - 1) (2 ^ 52) (2 ^ 21 - 1),
    .modelLoad 1 auth 31 (2 ^ 32 - 1) true (2 ^ 64 - 1) (2 ^ 64 - 1) (2 ^ 52 - 1) (2 ^ 21), .collect 2 (2 ^ 32 - 1),
    .collect 1 (2 ^ 32), .getNonce 2, .debugEnable 2 true, .cfgkeyFuse 2 3 true (2 ^ 384 - 1) true,
    .cfgkeyFuse 1 4 true (2 ^ 384 - 1) true, .cfgkeyFuse 1 3 true (2 ^ 384) true, .defectClear 2 auth true,
    .defectClear 1 { auth with counter := 2 ^ 64 } true, .dict 2 auth (2 ^ 16 - 1) (2 ^ 8 - 1) none,
    .dict 1 { auth with counter := 2 ^ 64 } (2 ^ 16 - 1) (2 ^ 8 - 1) none, .dict 1 auth (2 ^ 16) (2 ^ 8 - 1) none,
    .dict 1 auth (2 ^ 16 - 1) (2 ^ 8) none, .regread 2 auth [], .regread 1 { auth with counter := 2 ^ 64 } [], .regread 1 auth [2 ^ 52],
    .mailboxAnswer 2, .deniedResponse true 512 (2 ^ 32 - 1), .deniedResponse true 511 (2 ^ 32), .powerSample [],
    .pmbAlert [256] (2 ^ 12 - 1) (2 ^ 12 - 1), .pmbAlert [] (2 ^ 12) (2 ^ 12 - 1), .pmbAlert [] (2 ^ 12 - 1) (2 ^ 12),
    .avsStepComplete 4, .matrixIdleTimeout 4, .hintWrite (.vf 64) 3 (2 ^ 64 - 1), .hintWrite .sideband 4 (2 ^ 64 - 1),
    .hintWrite .sideband 3 (2 ^ 64), .hintExpire 4, .thermalEval [] [], .image (.vf 64) 4 [] true, .image .sideband 5 [] true,
    .imageStageComplete 5 true, .activate (.vf 64) 4 (2 ^ 8 - 1), .activate .sideband 5 (2 ^ 8 - 1), .activate .sideband 4 (2 ^ 8),
    .activateComplete 5 (2 ^ 8 - 1)] : List Instr).all (fun c => !c.wf) = true := by decide +kernel

theorem test_ill_formed_11 : ([
    .activateComplete 4 (2 ^ 8), .admitComplete true [9], .srdoTransmit 65] : List Instr).all (fun c => !c.wf) = true := by decide +kernel

/-! ## A package that is up -/

/-- Every domain on, every die admitted, every step of bring-up done. -/
def up : State :=
  let s : State := { State.reset with pkg := { vddAon := true, vddIo18 := true, refclk := true, dom := (List.range 44).map (fun d => (d, .on)) } }
  (s.set AGT_FAB_STATUS.ADMITTED 0 0xF).set AGT_BU_STEPS.DONE 0 0x3FF

/-- The field `w` bits wide at bit `lo` with value `v`, for words written out field by field. -/
def fld (lo v : Nat) : Nat := v * 2 ^ lo

/-- The package that is up, with a command of context 3 running on an engine instance of node 0. -/
def runs (inst body : Nat) : State :=
  let x : Cmd := { ctx := 3, seq := 0, env := body * 2 ^ 128, phase := .running, node := 0, inst := inst }
  let s := up.setCmd x
  { s with sched := { s.sched with order := [x.key], busy := [(inst, x.key)] } }

/-- The command that `runs` starts. -/
def cmdOf (inst body : Nat) : Cmd := { ctx := 3, seq := 0, env := body * 2 ^ 128, phase := .running, node := 0, inst := inst }

/-- Is a body planned? -/
def isPlan : Planned → Bool
  | .plan _ => true
  | .refused _ => false

theorem plan_of_isPlan {p : Planned} (h : isPlan p = true) : ∃ q, p = .plan q := by
  cases p with
  | plan q => exact ⟨q, rfl⟩
  | refused st => simp [isPlan] at h

/-! ## States and operands that meet the hypotheses of the statements -/

theorem witness_EmptyQueueCountsTime :
    (up.pending = [] ∧ up.pkg.vddAon = true ∧ up.pkg.refclk = true ∧ up.pkg.testMode = false ∧ up.time.nextRate = [] ∧ up.rfx.buffer = []) ∧
    (let s : State := { up with pkg := { up.pkg with refclk := false } }
     s.pending = [] ∧ s.pkg.testMode = false ∧ s.pkg.refclk = false) := by decide +kernel

theorem witness_StepKeepsWellFormed :
    let s : State := { (up.poke 0x1000 [1, 2, 3]) with pending := [.pllLock] }
    s.wf = true ∧ ∃ t, step s = .next t := ⟨by decide +kernel, _, rfl⟩

theorem witness_StepTakesOneAndUndoesNothing : ∃ t, step { up with pending := [.ecatCycleStart, .pllLock] } = .next t := ⟨_, rfl⟩

theorem witness_CommandsKeepOtherParts : ∃ t, exec .heartbeatSend up = .next t ∧ t ≠ up := ⟨_, rfl, by decide +kernel⟩

theorem witness_NoClockNoEffect :
    unclocked .heartbeatSend = false ∧ ({ up with pkg := { up.pkg with vddAon := false } } : State).pkg.vddAon = false ∧
    ({ up with pkg := { up.pkg with refclk := false } } : State).pkg.refclk = false ∧
    ({ up with pkg := { up.pkg with resetNLow := true } } : State).pkg.resetNLow = true ∧
    ({ up with pkg := { up.pkg with testMode := true } } : State).pkg.testMode = true := by decide +kernel

theorem witness_RegisterFieldReadsBack : AGT_TIME_RATE.RATE.key 4 0 ≠ AGT_SCHED_RSV.RSV.key 4 0 := by decide +kernel

theorem witness_BytesReadBack : Memory.wf up.blank (up.poke 0xFF [1, 2]).mem = true := by decide +kernel

/-- T2 address 0x12345 is cached in way 3, with all its sectors valid. -/
def cached : State := { up with t1 := [(t1Key 0 3 (t1Set 0x12345), ⟨t1Tag 0x12345, 0xFFFF, 0⟩)] }

theorem witness_WriteHitGoesIntoT1 :
    Memory.wf cached.blank cached.mem = true ∧ isT2 0x12345 = true ∧ cached.t1Find 0x12345 = some 3 ∧ cached.t1Valid 0x12345 3 = true ∧
    0 < ([1, 2] : List Byte).length ∧ 0x12345 % 256 + (List.replicate 187 (0 : Byte)).length ≤ 256 ∧
    (0x12346 : Nat) < 0x12345 + 2 ∧ isT2 0x12345 = true ∧ isT2 0x12344 = true := by decide +kernel

theorem witness_StatusPrecedence : ([.ok, .denied] : List Status) ≠ [] ∧ pickStatus [.ok, .pageDropped, .denied] = .denied := by decide

theorem witness_SumsInAnyOrder (a b : Elt × Elt) : ([a, b] : List (Elt × Elt)).Perm [b, a] := List.Perm.swap _ _ _

theorem witness_ExactPartialWord :
    (Acc.sp ⟨-(2 ^ 93), true, .finite⟩ = .finite ∧ (-(2 ^ 93) : Int) ≤ 2 ^ 93 - 1 ∧ (2 ^ 93 - 1 : Int) < 2 ^ 93) ∧
    (Special.overrange, 4) ∈ [(Special.nan, 1), (.posInf, 2), (.negInf, 3), (.overrange, 4)] ∧
    (2 ^ 94 + 5 < 2 ^ 96 ∧ bit (2 ^ 94 + 5) 95 ≠ bit (2 ^ 94 + 5) 94 ∧
      2 ^ 94 + 5 ∉ [2 ^ 94, 2 ^ 94 + 2, 2 ^ 94 + 3, 2 ^ 94 + 4]) ∧
    Acc.word ⟨-1, false, .finite⟩ = 2 ^ 96 - 2 ∧ Acc.word ⟨2 ^ 93 - 1, true, .finite⟩ = 2 ^ 94 - 1 := by decide +kernel

/-! ### Engine bodies -/

/-- A MATMUL body (R91): one bf16 product at the start of T0 of M, with an anchor mode. -/
def matBody (mode : Nat) : Nat :=
  fld 96 (0x999 + mode * 2 ^ 16 + fld 48 0x7F7F) + fld 160 0x1800000 + fld 192 0x1800001 + fld 224 0x1800002 + fld 288 1 + fld 308 1 + fld 328 1

/-- A WINDOW body (R114) of a kind: one channel, one position, one tap. -/
def winBody (kind : Nat) : Nat :=
  1 + fld 16 1 + fld 22 1 + fld 96 (0x999 + fld 48 0x7F7F) + fld 160 0x1800000 + fld 192 (if kind ∈ [2, 3, 5] then 0 else 0x1800001) + fld 224 0x1800002 +
  fld 288 kind

/-- A vector body (R105): one bf16 element; exact partials for PADD and PROUND. -/
def vecBody (op : Nat) : Nat :=
  let part := op = 0x10 ∨ op = 0x11
  let y := op ≤ 4 ∨ op = 0x0B ∨ op = 0x0C ∨ op = 0x10
  op + (if part then (if op = 0x11 then fld 12 9 else 0) else fld 8 0x99) + (if op = 0x10 then fld 6 2 else fld 16 9) + fld 96 0x1800000 +
  (if y then fld 128 0x1800010 else 0) + fld 160 0x1800020 + fld 192 16 + fld 212 16 + fld 232 16

/-- A SCORE or VALUE body (R133): one query row and one head, the 64 rows of one page, fp32 scores. -/
def attBody (op : Nat) : Nat :=
  op + fld 96 (if op = 0 then 0xB99 else 0x999 + fld 40 6) + fld 192 0 + fld 224 0x1800010 + fld 256 0x1800020

/-- A KV body (R144) on the first entry of the table at T2 offset 0. -/
def kvBody (op : Nat) : Nat := op + fld 96 0x90 + (if op = 2 then fld 224 0x1800000 + fld 256 0x1800010 else 0)

/-- A SCAN body, or one of a stream command (R162). -/
def scanBody (op : Nat) : Nat :=
  op + fld 8 9 + fld 12 9 + fld 16 9 + fld 128 0x1810000 + fld 160 0x1810010 + fld 224 0x1810030 + fld 256 0x1810040

/-- A gate body (R175). -/
def gateBody (op : Nat) : Nat :=
  op + fld 8 9 + (if op = 0 then 0 else fld 12 9) + fld 16 9 + fld 96 0x1810000 + (if op = 0 then 0 else fld 128 0x1810010) + fld 160 0x1810020

/-- A solver body (R183): one unknown, Cholesky. -/
def solBody (op : Nat) : Nat := op + fld 16 1 + fld 64 0x1820000 + (if op = 0 then fld 192 0x3F800000 else 0)

/-- The state that a solver command finds: the record of its one problem, factored. -/
def solves (op : Nat) : State := (runs 5 (solBody op)).poke 0x1820000000 [1, 1]

/-- A body of the geometry core (R226). -/
def geoBody (op : Nat) : Nat :=
  op + (if op = 5 ∨ op = 6 then fld 160 0x3F800000 else 0) +
  (if op = 1 ∨ op = 6 then 0 else fld 64 0x1830010) + (if op = 1 then 0 else fld 96 0x1830020) +
  (if op ≤ 2 then 0 else if op = 7 then 0 else fld 128 0x1830030)

/-- The state that a geometry command finds: map slot 0 enabled, model 0 in T0. -/
def maps (inst op : Nat) : State :=
  let x : Cmd := { cmdOf inst (geoBody op) with anchor := some 0 }
  let s := (((runs inst (geoBody op)).setCmd x).poke (0x1830000000 + 5200) [0xFF]).setO ONX_G_MAPCFG.ENABLE 0 0 1
  ((s.setO ONX_G_MAPCFG.DCLIP 0 0 511).setO ONX_G_MODEL.VALID 0 0 1).setO ONX_G_MODEL.ADDR 0 0 0x1830000

def geoCmd (inst op : Nat) : Cmd := { cmdOf inst (geoBody op) with anchor := some 0 }

/-! ### Engine commands -/

theorem witness_AutoDataflow :
    MBody.flow ⟨matBody 0 + fld 4 2⟩ = 2 ∧ Acw.anchorMode (MBody.acw ⟨matBody 0 + fld 4 2⟩) ≠ 2 ∧
    (cmdOf 0 (matBody 0 + fld 4 2)).anchor = none ∧
    isPlan ((runs 0 (matBody 0 + fld 4 2)).planMatmul 0 (cmdOf 0 (matBody 0 + fld 4 2))) = true := by decide +kernel

/-- Nothing is protected, nothing waits for a clear, and no partition is segregated. -/
abbrev unguarded (s : State) : Prop := s.sec.prots = [] ∧ s.sec.deferrals = [] ∧ ∀ q ∈ List.range 16, s.segregated q = false

/-- Then a body with no fault of its own passes, whatever it touches. -/
theorem passes {s : State} (h : unguarded s) (part : Nat) (p : Plan) {met : List Status} (hm : met = []) : s.bodyPasses part p met := by
  refine ⟨by simp [State.denied, h.1, h.2.1], hm, fun a _ => ?_⟩
  simp only [State.segForeign, Bool.and_eq_false_iff, List.any_eq_false]
  exact .inr (fun q hq => by simp [h.2.2 q hq])

theorem witness_MatrixCommandsFinish : ∀ m ∈ [0, 2], let s := runs 0 (matBody m); let x := cmdOf 0 (matBody m)
    (s.clocked = true ∧ s.executing 0 0 = some x ∧ MBody.op ⟨x.body⟩ ≠ 1 ∧ Acw.anchorMode (MBody.acw ⟨x.body⟩) = m) ∧
    s.bodyPasses (s.ctxPart x.ctx) (s.matmulPlan 0 x) (s.matmulFaults 0 x) := by
  have h : ∀ m ∈ [0, 2], let s := runs 0 (matBody m); let x := cmdOf 0 (matBody m)
      (s.clocked = true ∧ s.executing 0 0 = some x ∧ MBody.op ⟨x.body⟩ ≠ 1 ∧ Acw.anchorMode (MBody.acw ⟨x.body⟩) = m) ∧
      unguarded s ∧ s.matmulFaults 0 x = [] := by decide +kernel
  exact fun m hm => ⟨(h m hm).1, passes (h m hm).2.1 _ _ (h m hm).2.2⟩

theorem witness_WindowCommandsFinish : ∀ k ∈ List.range 6, let s := runs 0 (winBody k); let x := cmdOf 0 (winBody k)
    (s.clocked = true ∧ s.executing 0 0 = some x ∧ MBody.op ⟨x.body⟩ = 1 ∧ MBody.kind ⟨x.body⟩ = k) ∧
    s.bodyPasses (s.ctxPart x.ctx) (s.windowPlan 0 x) (s.windowFaults 0 x) := by
  have h : ∀ k ∈ List.range 6, let s := runs 0 (winBody k); let x := cmdOf 0 (winBody k)
      (s.clocked = true ∧ s.executing 0 0 = some x ∧ MBody.op ⟨x.body⟩ = 1 ∧ MBody.kind ⟨x.body⟩ = k) ∧
      unguarded s ∧ s.windowFaults 0 x = [] := by decide +kernel
  exact fun k hk => ⟨(h k hk).1, passes (h k hk).2.1 _ _ (h k hk).2.2⟩

theorem witness_VectorCommandsFinish : ∀ v ∈ [0, 1, 2, 3, 4, 5, 6, 8, 9, 10, 11, 12, 16, 17],
    let s := runs 1 (vecBody v); let x := cmdOf 1 (vecBody v)
    (s.clocked = true ∧ s.executing 0 1 = some x ∧ VBody.vop ⟨x.body⟩ = v) ∧
    s.bodyPasses (s.ctxPart x.ctx) (s.vectorPlan 0 x) (s.vectorFaults 0 x) := by
  have h : ∀ v ∈ [0, 1, 2, 3, 4, 5, 6, 8, 9, 10, 11, 12, 16, 17], let s := runs 1 (vecBody v); let x := cmdOf 1 (vecBody v)
      (s.clocked = true ∧ s.executing 0 1 = some x ∧ VBody.vop ⟨x.body⟩ = v) ∧
      unguarded s ∧ s.vectorFaults 0 x = [] := by decide +kernel
  exact fun v hv => ⟨(h v hv).1, passes (h v hv).2.1 _ _ (h v hv).2.2⟩

theorem witness_SequenceCommandsFinish :
    (let s := runs 3 (scanBody 0); let x := cmdOf 3 (scanBody 0)
     (s.clocked = true ∧ s.executing 0 3 = some x ∧ SBody.op ⟨x.body⟩ = 0) ∧
     s.bodyPasses (s.ctxPart x.ctx) (s.scanPlan 0 x) (x.onStart (faultsOf (s.scanBad 0 x) false))) ∧
    ∀ g ∈ [0, 1, 2], let s := runs 4 (gateBody g); let x := cmdOf 4 (gateBody g)
     (s.clocked = true ∧ s.executing 0 4 = some x ∧ s.gateTaken 0 = false ∧ GBody.gop ⟨x.body⟩ = g) ∧
     s.bodyPasses (s.ctxPart x.ctx) (s.gatePlan 0 x) (x.onStart (faultsOf (s.gateBad 0 ⟨x.body⟩) false)) := by
  have h1 : let s := runs 3 (scanBody 0); let x := cmdOf 3 (scanBody 0)
      (s.clocked = true ∧ s.executing 0 3 = some x ∧ SBody.op ⟨x.body⟩ = 0) ∧
      unguarded s ∧ x.onStart (faultsOf (s.scanBad 0 x) false) = [] := by decide +kernel
  have h2 : ∀ g ∈ [0, 1, 2], let s := runs 4 (gateBody g); let x := cmdOf 4 (gateBody g)
      (s.clocked = true ∧ s.executing 0 4 = some x ∧ s.gateTaken 0 = false ∧ GBody.gop ⟨x.body⟩ = g) ∧
      unguarded s ∧ x.onStart (faultsOf (s.gateBad 0 ⟨x.body⟩) false) = [] := by decide +kernel
  exact ⟨⟨h1.1, passes h1.2.1 _ _ h1.2.2⟩, fun g hg => ⟨(h2 g hg).1, passes (h2 g hg).2.1 _ _ (h2 g hg).2.2⟩⟩

theorem witness_SolverCommandsFinish : ∀ o ∈ [0, 1, 2, 3], let s := solves o; let x := cmdOf 5 (solBody o)
    (s.clocked = true ∧ s.executing 0 5 = some x ∧ LBody.op ⟨x.body⟩ = o) ∧
    s.bodyPasses (s.ctxPart x.ctx) (s.solverPlan 0 x) (x.onStart (s.solverFaults 0 ⟨x.body⟩)) := by
  have h : ∀ o ∈ [0, 1, 2, 3], let s := solves o; let x := cmdOf 5 (solBody o)
      (s.clocked = true ∧ s.executing 0 5 = some x ∧ LBody.op ⟨x.body⟩ = o) ∧
      unguarded s ∧ x.onStart (s.solverFaults 0 ⟨x.body⟩) = [] := by decide +kernel
  exact fun o ho => ⟨(h o ho).1, passes (h o ho).2.1 _ _ (h o ho).2.2⟩

theorem witness_QueryCommandsFinish : ∀ o ∈ [2, 3, 4], let s := maps 10 o; let x := geoCmd 10 o
    (s.clocked = true ∧ s.executing 0 (7 + 3) = some x ∧ s.mapWaits 0 (NBody.map ⟨x.body⟩) = false ∧ NBody.op ⟨x.body⟩ = o) ∧
    s.bodyPasses (s.ctxPart x.ctx) (s.queryPlan 0 x) (x.onStart (faultsOf (s.queryBad 0 x) false)) := by
  have h : ∀ o ∈ [2, 3, 4], let s := maps 10 o; let x := geoCmd 10 o
      (s.clocked = true ∧ s.executing 0 (7 + 3) = some x ∧ s.mapWaits 0 (NBody.map ⟨x.body⟩) = false ∧ NBody.op ⟨x.body⟩ = o) ∧
      unguarded s ∧ x.onStart (faultsOf (s.queryBad 0 x) false) = [] := by decide +kernel
  exact fun o ho => ⟨(h o ho).1, passes (h o ho).2.1 _ _ (h o ho).2.2⟩

/-- The configuration array of PRIM, whose address the spec leaves open, is placed wherever it may lie. -/
theorem primPlaced {s : State} {node : Nat} {b : NBody} (h : s.placeOk node 3 (t0Base 3) (272 * s.edgeRows node b) = true) :
    s.placeOk node 3 (s.primRows node b) (272 * s.edgeRows node b) = true := by
  unfold State.primRows
  dsimp only
  split <;> assumption

theorem witness_SamplerCommandsFinish :
    (∀ o ∈ [5, 6, 7], let s := maps 11 o; let x := geoCmd 11 o
      (s.clocked = true ∧ s.executing 0 11 = some x ∧ s.mapWaits 0 (NBody.map ⟨x.body⟩) = false ∧ NBody.op ⟨x.body⟩ = o) ∧
      s.bodyPasses (s.ctxPart x.ctx) (s.samplerPlan 0 x) (x.onStart (faultsOf (s.samplerBad 0 x) false))) := by
  have h : ∀ o ∈ [5, 6, 7], let s := maps 11 o; let x := geoCmd 11 o
      (s.clocked = true ∧ s.executing 0 11 = some x ∧ s.mapWaits 0 (NBody.map ⟨x.body⟩) = false ∧ NBody.op ⟨x.body⟩ = o) ∧
      unguarded s ∧ s.placeOk 0 3 (t0Base 3) (272 * s.edgeRows 0 ⟨x.body⟩) = true := by decide +kernel
  have g : ∀ o ∈ [5, 6], (maps 11 o).samplerBad 0 (geoCmd 11 o) = false := by decide +kernel
  have g7 : (maps 11 7).samplerBad 0 (geoCmd 11 7) = false := by
    unfold State.samplerBad
    simp only [primPlaced (h 7 (by decide)).2.2]
    decide +kernel
  intro o ho
  refine ⟨(h o ho).1, passes (h o ho).2.1 _ _ ?_⟩
  have e : (maps 11 o).samplerBad 0 (geoCmd 11 o) = false := by
    simp only [List.mem_cons, List.not_mem_nil, or_false] at ho
    rcases ho with rfl | rfl | rfl
    · exact g 5 (by decide)
    · exact g 6 (by decide)
    · exact g7
  simp [e, Cmd.onStart, faultsOf]

theorem witness_AttentionCommandsFinish : ∀ o ∈ [0, 1], let s := (runs 2 (attBody o)).poke 0 [1, 64, 0, 0, 1]
    let x := cmdOf 2 (attBody o)
    (s.clocked = true ∧ s.executing 0 2 = some x ∧ s.poolWaits 0 (s.ctxPart x.ctx) = false ∧ ABody.op ⟨x.body⟩ = o) ∧
    s.bodyPasses (s.ctxPart x.ctx) (s.attnPlan 0 x) (x.onStart (s.attnFaults 0 (s.ctxPart x.ctx) ⟨x.body⟩)) := by
  have h : ∀ o ∈ [0, 1], let s := (runs 2 (attBody o)).poke 0 [1, 64, 0, 0, 1]; let x := cmdOf 2 (attBody o)
      (s.clocked = true ∧ s.executing 0 2 = some x ∧ s.poolWaits 0 (s.ctxPart x.ctx) = false ∧ ABody.op ⟨x.body⟩ = o) ∧
      unguarded s ∧ x.onStart (s.attnFaults 0 (s.ctxPart x.ctx) ⟨x.body⟩) = [] := by decide +kernel
  exact fun o ho => ⟨(h o ho).1, passes (h o ho).2.1 _ _ (h o ho).2.2⟩

/-- The state that a KV operation finds: the entry of its range in a state that admits it, with 63 rows filled for KV_WRITE. -/
def kvState (op : Nat) : State :=
  (runs 2 (kvBody op)).poke 0 (match op with
    | 2 => [1, 63]
    | 4 => [2]
    | 5 => [3]
    | 6 | 9 => [1]
    | _ => [0])

theorem witness_KvCommandsFinish : ∀ o ∈ [2, 3, 4, 5, 6, 7, 8, 9], let s := kvState o; let x := cmdOf 2 (kvBody o)
    let b : ABody := ⟨x.body⟩
    let r := s.readSectors (s.ctxPart x.ctx) true {} (s.kvReads 0 b)
    (s.clocked = true ∧ s.executing 0 2 = some x ∧ s.poolWaits 0 (s.ctxPart x.ctx) = false ∧ b.op = o ∧ r.lost = false ∧
      r.poison = false) ∧
    s.bodyPasses (s.ctxPart x.ctx) (s.kvPlan 0 b) (s.kvFaults 0 (s.ctxPart x.ctx) b) := by
  have h : ∀ o ∈ [2, 3, 4, 5, 6, 7, 8, 9], let s := kvState o; let x := cmdOf 2 (kvBody o)
      let b : ABody := ⟨x.body⟩
      let r := s.readSectors (s.ctxPart x.ctx) true {} (s.kvReads 0 b)
      (s.clocked = true ∧ s.executing 0 2 = some x ∧ s.poolWaits 0 (s.ctxPart x.ctx) = false ∧ b.op = o ∧ r.lost = false ∧
        r.poison = false) ∧
      unguarded s ∧ s.kvFaults 0 (s.ctxPart x.ctx) b = [] := by decide +kernel
  exact fun o ho => ⟨(h o ho).1, passes (h o ho).2.1 _ _ (h o ho).2.2⟩

/-- A sector that a KV operation reads is poisoned. -/
theorem witness_KvPoisonedRead : let s := (kvState 2).setPoison 0 true; let b : ABody := ⟨(cmdOf 2 (kvBody 2)).body⟩
    s.executing 0 2 = some (cmdOf 2 (kvBody 2)) ∧ (s.readSectors 0 true {} (s.kvReads 0 b)).poison = true ∧
    s.kvFaults 0 (s.ctxPart 3) b = [] := by decide +kernel

/-- Is a body refused with a status? -/
def isRefused (p : Planned) (st : Status) : Bool :=
  match p with
  | .refused u => u == st
  | .plan _ => false

theorem refused_of_isRefused {p : Planned} {st : Status} (h : isRefused p st = true) : p = .refused st := by
  cases p with
  | plan q => simp [isRefused] at h
  | refused u => simp only [isRefused, beq_iff_eq] at h; rw [h]

theorem witness_RefusedBodyWritesNothing :
    (let b := matBody 0 + fld 6 1; let s := runs 0 b; let x := cmdOf 0 b
     s.clocked = true ∧ s.executing 0 0 = some x ∧ MBody.op ⟨x.body⟩ ≠ 1 ∧ isRefused (s.planMatmul 0 x) .badDescriptor = true) ∧
    (let b := vecBody 0x0A + fld 68 1; let s := runs 1 b; let x := cmdOf 1 b
     s.executing 0 1 = some x ∧ VBody.vop ⟨x.body⟩ = 0x0A ∧ isRefused (s.planVector 0 x) .badDescriptor = true) ∧
    (let s := runs 5 (solBody 0); let x := cmdOf 5 (solBody 0)
     s.executing 0 5 = some x ∧ LBody.op ⟨x.body⟩ = 0 ∧ isRefused (s.planSolver 0 x) .badLayout = true) ∧
    (let s := (maps 7 3).setO ONX_G_MODEL.VALID 0 0 0; let x := geoCmd 7 3
     s.executing 0 7 = some x ∧ s.mapWaits 0 (NBody.map ⟨x.body⟩) = false ∧ NBody.op ⟨x.body⟩ = 3 ∧
     isRefused (s.planQuery 0 x) .badDescriptor = true) := by decide +kernel

theorem witness_VoxelCommandsFinish :
    (∀ o ∈ [0, 1], let s := maps 6 o; let x := geoCmd 6 o; let b : NBody := ⟨x.body⟩
      s.clocked = true ∧ s.executing 0 6 = some x ∧
      s.mapDenied (s.ctxPart x.ctx) 0 b.map
        (if b.op = 0 then [⟨false, glob 0 (b.addr 0), 8 * b.count⟩, ⟨false, glob 0 (b.addr 1), 4096 * b.count⟩] else []) = false ∧
      s.voxelBad 0 b = false ∧ s.mapForeign (s.ctxPart x.ctx) 0 b.map = false ∧ s.mapWaits 0 b.map = false ∧ b.op = o ∧
      x.unitsDone = 0) ∧
    (let x : Cmd := { geoCmd 6 1 with unitsDone := 1 }; let s := (maps 6 1).setCmd x; let b : NBody := ⟨x.body⟩
     s.executing 0 6 = some x ∧ s.mapDenied (s.ctxPart x.ctx) 0 b.map [] = false ∧ s.voxelBad 0 b = false ∧
     s.mapForeign (s.ctxPart x.ctx) 0 b.map = false ∧ s.mapWaits 0 b.map = false ∧ b.op = 1 ∧ x.unitsDone ≠ 0 ∧
     s.epochHeld 0 b.map = false) := by decide +kernel

/-- Slot 0 of node 0 holds a stream of context 3, with one step of an earlier cycle accepted. -/
def streaming : State :=
  let s := (runs 3 (scanBody 2)).setO ONX_Q_STREAM.OPEN 0 0 1
  { s with seq := { s.seq with streams := [(0, { ctx := 3, body := scanBody 1 })], queue := [(0, [(0, 0)])] }
           time := { s.time with now := 8 } }

theorem witness_StreamCommandsRun :
    (let s := runs 3 (scanBody 1); let x := cmdOf 3 (scanBody 1); let b : SBody := ⟨x.body⟩
     (s.clocked = true ∧ s.executing 0 3 = some x ∧ b.op = 1) ∧
     s.bodyPasses (s.ctxPart x.ctx) (State.openPlan 0 b) (faultsOf (s.scanBad 0 x) false)) ∧
    (let s := streaming; let x := cmdOf 3 (scanBody 2)
     s.clocked = true ∧ s.executing 0 3 = some x ∧ SBody.op ⟨x.body⟩ = 2 ∧ s.scanBad 0 x = false ∧
     tfind s.seq.stepping 0 ≠ some (SBody.slot ⟨x.body⟩)) ∧
    (let s := { streaming with sched := {} }
     s.onyxWrites .mgmt 0 2 = true ∧ s.getO ONX_Q_STREAM.OPEN 0 0 = 1 ∧ 255 % 2 ^ 8 ≠ 0 ∧
     s.getO ONX_Q_STREAM.PENDING 0 0 + 255 % 2 ^ 8 ≤ 255 ∧ s.nextStep 0 = some (0, 0) ∧ tfind s.seq.stepping 0 = none) ∧
    (∀ closing ∈ [false, true], let w : Stream := { ctx := 3, body := scanBody 1, closing := closing }
     let s : State := { streaming with seq := { streaming.seq with stepping := [(0, 0)], streams := [(0, w)] } }
     tfind s.seq.stepping 0 = some 0 ∧ tfind s.seq.streams (8 * 0 + 0) = some w) := by
  have h : let s := runs 3 (scanBody 1); let x := cmdOf 3 (scanBody 1); let b : SBody := ⟨x.body⟩
      (s.clocked = true ∧ s.executing 0 3 = some x ∧ b.op = 1) ∧ unguarded s ∧ faultsOf (s.scanBad 0 x) false = [] := by decide +kernel
  exact ⟨⟨h.1, passes h.2.1 _ _ h.2.2⟩, by decide +kernel⟩

/-! ### Transfers and the units -/

/-- A transfer body (R71) on one tile of 4 KiB. -/
def xferBody (op src dst : Nat) : Nat := op + fld 64 src + fld 128 dst

/-- A tile-mover command of context 3 runs on node 0, with no tile started. -/
def moverCmd (body : Nat) : Cmd :=
  { ctx := 3, seq := 0, env := fld 4 4 + fld 8 9 + fld 128 body, phase := .running, node := 0, inst := 12 }
def moves (body : Nat) : State :=
  let s := up.setCmd (moverCmd body)
  { s with sched := { s.sched with order := [(moverCmd body).key], issue := [(moverCmd body).key] } }

theorem witness_TransferCommandsFinish :
    ∀ b ∈ [xferBody 0 0 0x10000, xferBody 0 0 (0xF * 2 ^ 48 + 0x10000), xferBody 1 0 0x10000, xferBody 2 0 0x10000, xferBody 3 0 0x10000,
        xferBody 4 0 0x10000, xferBody 5 0 0x10000, xferBody 6 0 0 + fld 32 0xFFFF],
      let s := moves b; let x := moverCmd b
      s.clocked = true ∧ s.mover 3 0 = some x ∧ x.key = 3 * 2 ^ 32 + 0 ∧ tfind s.sched.transfers x.key = none ∧
      s.transferRefused x.node (s.ctxPart x.ctx) (xfer x.body) = none ∧ s.slotsUsed x.node x.key < 1024 ∧
      s.nextIssue x.node = some x := by decide +kernel

theorem witness_BroadcastCopy : (xfer (xferBody 0 0 (0xF * 2 ^ 48 + 0x10000))).broadcast = true ∧
    (xfer (xferBody 0 0 0x10000)).broadcast = false := by decide +kernel

/-- A tile of that command in flight over link 4, since package time 0. -/
def flying (body : Nat) : State :=
  let s := moves body
  { s with sched := { s.sched with transfers := [((moverCmd body).key, { count := 1, started := 1, flight := [⟨0, 0, [4], [0], [], false, 0⟩] })] },
           sec := { s.sec with prots := [(0, { isProt := true })] } }

theorem witness_TilesStartAndEnd :
    (let b := xferBody 0 0 0x10000; let s := moves b; let x := moverCmd b
     s.clocked = true ∧ s.nextIssue 0 = some x ∧ s.slotsUsed 0 (2 ^ 64) < 1024 ∧ tfind s.sched.transfers x.key = none ∧
     s.transferRefused x.node (s.ctxPart x.ctx) (xfer x.body) = none) ∧
    (let b := xferBody 0 0 0x10000; let s := flying b; let x := moverCmd b
     s.mover 3 0 = some x ∧
     tfind s.sched.transfers x.key = some { count := 1, started := 1, flight := [⟨0, 0, [4], [0], [], false, 0⟩] } ∧
     (s.prot (s.ctxPart 3)).isProt = true ∧ 256 * 15 < (xfer x.body).size) ∧
    (let b := xferBody 0 0 0x10000 + fld 6 1; let x := moverCmd b; let s := { flying b with time := { up.time with now := 40000 * 200 } }
     s.mover 3 0 = some x ∧ (xfer x.body).op = 0 ∧ (xfer x.body).srcT3 = true ∧ tfind s.sched.transfers x.key ≠ none ∧
     0 + s.t3Limit x.body ≤ s.time.now) ∧
    (let b := xferBody 1 0 0x10000 + fld 7 1; let x := moverCmd b; let s := { flying b with time := { up.time with now := 40000 * 200 } }
     s.mover 3 0 = some x ∧ (xfer x.body).op ≤ 1 ∧ (xfer x.body).dstT3 = true ∧ tfind s.sched.transfers x.key ≠ none ∧
     0 + s.t3Limit x.body ≤ s.time.now) := by
  decide +kernel

theorem witness_UnitConfiguration :
    (0xFFFFFFF < 0x10000000 ∧ up.clocked = true ∧ up.t2Up 3 = true ∧ up.admitted 3 = true ∧ up.domOn (8 * 3) = true ∧
     up.reaches .mgmt 3 5 0 = true ∧ up.onyxWrites .mgmt 3 1 = true ∧ up.onyxWrites .mgmt 3 2 = true ∧ up.onyxWrites .mgmt 3 4 = true) ∧
    (up.getO ONX_M_KVPOOL.ENABLE 3 15 ≠ 1) ∧
    (let s := up.setO ONX_M_KVPOOL.ENABLE 3 15 1
     let t : State := { s with kv := { s.kv with owners := [((16 * 3 + 15) * 2 ^ 18, ⟨0, 0⟩)] } }
     s.getO ONX_M_KVPOOL.ENABLE 3 15 = 1 ∧ bit (2 ^ 30) 30 = true ∧ t.getO ONX_M_KVPOOL.ENABLE 3 15 = 1 ∧ t.poolHeld 3 15 = true) ∧
    (biasOf 0x278 = some 15 ∧ biasOf 0x2FFFC = some 15 ∧ up.biasInUse 3 15 = false ∧
     (runs 2 (fld 24 15 + fld 28 1)).biasInUse 0 15 = false ∧
     (let x : Cmd := { cmdOf 2 (fld 24 15 + fld 28 1) with env := fld 8 2 + fld 128 (fld 24 15 + fld 28 1) }
      ((runs 2 0).setCmd x).biasInUse 0 15 = true)) ∧
    (gateOf 0x238 = some 7 ∧ gateOf 0x13FF8 = some 7 ∧ gcfgOk 0 = true ∧ up.gateInUse 3 7 = false ∧
     (let x : Cmd := { cmdOf 4 0 with env := fld 8 4 + fld 128 (fld 4 15) }
      ((runs 4 0).setCmd x).gateInUse 0 7 = true)) ∧
    (up.mapOn 3 3 = false ∧ mapValueOk 0 (fld 28 1 + fld 32 327 + fld 48 1) = true ∧ bit (fld 28 1 + fld 32 327 + fld 48 1) 28 = true ∧
     ({ up with geo := [(15, { zeroing := true })] } : State).mapWaits 3 3 = true) := by decide +kernel

/-! ### Scheduling -/

/-- Context 511 is ACTIVE with one command published, its rings in T2 or in the host. -/
def published (loc : Nat) : State :=
  (((up.set AGT_SCHED_CTX_STAT.STATE 511 1).set AGT_SCHED_CTX_CFG.SQ_LOG2 511 4).set AGT_SCHED_CTX_CFG.SQ_LOC 511 loc).setCtx 511
    { sqTail := 1 }

/-- A command of context 3, ACTIVE, that waits for the vector engine of node 0. -/
def waitsFor : Cmd := { ctx := 3, seq := 0, env := fld 8 1 + fld 128 (vecBody 0) }
def waits : State :=
  let s := ((up.set AGT_SCHED_CTX_STAT.STATE 3 1).set (mapValid 0) 3 1).setCmd waitsFor
  { s with sched := { s.sched with order := [waitsFor.key] } }

theorem witness_CommandLifecycle :
    ((published 1).clocked = true ∧ (published 1).canFetch 511 = true ∧ (published 1).get AGT_SCHED_CTX_CFG.SQ_LOC 511 = 1) ∧
    (let s := published 0
     let r := s.readSectors (s.ctxPart 511) true {} [sectorOf (s.sqEntry 511)]
     s.canFetch 511 = true ∧ s.get AGT_SCHED_CTX_CFG.SQ_LOC 511 ≠ 1 ∧ r.lost = false ∧ r.poison = false) ∧
    (let s := (published 0).setPoison (sectorOf ((published 0).sqEntry 511)) true
     let r := s.readSectors (s.ctxPart 511) true {} [sectorOf (s.sqEntry 511)]
     s.canFetch 511 = true ∧ r.poison = true) ∧
    (let s := waits
     s.clocked = true ∧ tfind s.sched.busy (16 * 0 + 1) = none ∧ s.unitHeld 0 1 = false ∧
     s.pick 0 1 (fun y => s.ready y && !s.tilesHeld y && (y.phase != .waiting || s.firstPipe 0 1)) = some waitsFor ∧ s.admitted 0 = true ∧ s.instOn 0 1 = true) ∧
    (let s := waits.set AGT_FAB_STATUS.ADMITTED 0 0xE
     s.pick 0 1 (fun y => s.ready y && !s.tilesHeld y && (y.phase != .waiting || s.firstPipe 0 1)) = some waitsFor ∧ s.admitted 0 = false) ∧
    (let s : State := { waits with pkg := { waits.pkg with dom := tset waits.pkg.dom 4 .off } }
     s.pick 0 1 (fun y => s.ready y && !s.tilesHeld y && (y.phase != .waiting || s.firstPipe 0 1)) = some waitsFor ∧ s.admitted 0 = true ∧ s.instOn 0 1 = false) ∧
    (let x : Cmd := { waitsFor with phase := .finished, status := .badLayout }
     (waits.setCmd x).cmd (3 * 2 ^ 32 + 0) = some x ∧ x.phase = .finished ∧ x.status ≠ .denied ∧ ¬(x.engine = 7 ∨ x.engine = 8)) ∧
    (let x : Cmd := { geoCmd 10 3 with env := fld 8 7 + fld 128 (geoBody 3), anchor := some 4, phase := .finished }
     let s := up.setCmd x
     s.cmd (3 * 2 ^ 32 + 0) = some x ∧ x.phase = .finished ∧ x.status ≠ .denied ∧ x.engine = 7 ∧ x.anchor = some 4 ∧
     s.getO ONX_G_MAPSTAT.EPOCH x.node (bits x.body 4 2) ≠ 4) := by decide +kernel

/-- Context 511 with a configuration that is valid for ENABLE. -/
def configured : State :=
  ((up.set AGT_SCHED_CTX_CFG.SQ_LOG2 511 4).set AGT_SCHED_CTX_CFG.CLASS 511 0).set AGT_SCHED_CTX_CFG.DEPTH_M1 511 14

/-- A vector body of two work units. -/
def twoUnits : Nat := 5 + fld 8 0x99 + fld 16 9 + fld 32 64 + fld 96 0x1800000 + fld 160 0x1801000 + fld 192 16 + fld 212 16 + fld 232 16

/-- Context 3 waits for the region of T0 of M that context 4 holds. -/
def switches : State :=
  let s := (waits.set (t0SizeF 0) 3 1).set (t0SizeF 0) 4 1
  { s with sched := { s.sched with held := [heldKey 4 0 0] } }

theorem witness_ContextsAndPreemption :
    (let s := configured
     s.clocked = true ∧ s.reaches .pf0 4 2 (0x10040 + 128 * 511) = true ∧ 15 % 2 ^ 15 < s.ringSize 511 ∧
     bits (15 * 2 ^ 16) 16 15 < s.ringSize 511 ∧ s.ctrlReaches .pf0 511 1 = true ∧ s.ctxState 511 = 0 ∧ s.configValid 511 = true) ∧
    (let s := configured.set AGT_SCHED_CTX_STAT.STATE 511 1
     s.ctrlReaches .pf0 511 2 = true ∧ s.ctrlReaches .pf0 511 4 = true ∧ s.ctxState 511 = 1) ∧
    (let s := configured.set AGT_SCHED_CTX_STAT.STATE 511 2
     s.ctrlReaches .pf0 511 3 = true ∧ s.ctrlReaches .pf0 511 5 = true ∧ s.ctxState 511 = 2 ∧ s.mapFenced 511 = false ∧
     (s.ctx 511).lostNodes = [] ∧ s.get AGT_SCHED_CTX_STAT.OUTSTANDING 511 = 0) ∧
    (let s := (runs 1 twoUnits).set AGT_SCHED_CTX_STAT.STATE 3 3; let x := cmdOf 1 twoUnits
     s.clocked = true ∧ s.executing 0 1 = some x ∧ s.stops 0 1 x = true ∧
     (match s.planOf 0 1 x with
      | .plan p => decide (0 < 1 ∧ x.unitsDone + 1 < p.units)
      | .refused _ => false) = true) ∧
    (let s := switches
     s.clocked = true ∧ tfind s.sched.switches (4 * 0 + 0) = none ∧ s.switchFor 0 0 = some waitsFor ∧
     s.sched.saved.contains (heldKey 3 0 0) = false) ∧
    (let s : State := { switches with sched := { switches.sched with saved := [heldKey 3 0 0] } }
     tfind s.sched.switches (4 * 0 + 0) = none ∧ s.switchFor 0 0 = some waitsFor ∧ s.sched.saved.contains (heldKey 3 0 0) = true ∧
     s.get AGT_SCHED_CTX_RESTAGE.COUNT 3 = 0) ∧
    (let s : State := { switches with sched := { switches.sched with switches := [(0, { ctx := 3, out := [4] })] } }
     tfind s.sched.switches (4 * 0 + 0) = some { ctx := 3, out := [4] }) := by decide +kernel

theorem witness_SchedulerRegisterWrites :
    (up.clocked = true ∧ up.reaches .pf0 4 2 0x10 = true ∧ up.reaches .pf0 4 2 (0x108 + 32 * 15) = true ∧ 4 ≤ bits (4 * 2) 1 4) ∧
    (let val := fld 1 56 + fld 16 1
     up.reaches .pf0 4 2 (0x100 + 32 * 15) = true ∧ bits val 16 16 ≠ 0 ∧
     up.rateSum 15 (bits val 0 1) (bits val 1 7) (up.get AGT_SCHED_RSV.RSV 0) ≤ 64 ∧ bits val 0 1 = up.get AGT_SCHED_PART_CFG.MODE 15 ∧
     bits val 32 16 = up.get AGT_SCHED_PART_CFG.CHMASK 15 ∧ ¬bits 0 16 16 ≠ 0) ∧
    (let val := 1 + fld 16 0xFFFF + fld 32 0x8000
     let s := (List.range 4).foldl (fun st n => st.setO ONX_T1_WAYMASK.ALLOC n 15 0) up
     bits val 0 1 = 1 ∧ bits val 16 16 ≠ 0 ∧ s.rateSum 15 1 0 (s.get AGT_SCHED_RSV.RSV 0) ≤ 64 ∧
     (∀ m ∈ s.chMasks 15 0 0, m &&& bits val 32 16 = 0) ∧ popcount16 (bits val 32 16) = 1 ∧ s.waysOverlap 15 = false ∧
     (∀ k, k < 512 → s.ctxState k ≠ 0 → s.ctxPart k ≠ 15 ∧ s.segregated (s.ctxPart k) = true) ∧ s.anyDirty = false) ∧
    (Src.maintHost .pf0 = true ∧ up.reaches .pf0 4 2 0x8 = true ∧ 32 % 2 ^ 7 ≤ 32 ∧ up.rateSum 16 0 0 (32 % 2 ^ 7) ≤ 64) ∧
    (Src.maintHost .mgmt = true ∧ up.reaches .mgmt 3 1 0 = true ∧ bits (64 * 2 ^ 8) 8 7 = 64) := by decide +kernel

/-! ### The fabric -/

/-- Package time `now` has come. -/
def atTime (s : State) (now : Nat) : State := { s with time := { s.time with now := now } }

theorem witness_LinkErrors :
    (let s := up.set AGT_FAB_LINK.STATE 8 1
     s.clocked = true ∧ 8 < 9 ∧ s.linkState 8 ≠ 0 ∧ 0 < 8) ∧
    (let s := { up.set AGT_FAB_LINK.STATE 8 1 with fabric := { up.fabric with packetReplays := [(32 * 3 + 2 * 8 + 1, 7)] } }
     s.linkState 8 ≠ 0 ∧ tget 0 s.fabric.packetReplays (32 * 3 + 2 * 8 + 1) = 7) ∧
    (let s := { up.set AGT_FAB_LINK.STATE 8 2 with fabric := { up.fabric with packetReplays := [(32 * 3 + 2 * 8 + 1, 8)] } }
     s.linkState 8 ≠ 0 ∧ 8 ≤ tget 0 s.fabric.packetReplays (32 * 3 + 2 * 8 + 1)) := by decide +kernel

/-- Heartbeats were sent, and die 3 answered at time 0. -/
def beating : State := { up with fabric := { up.fabric with lastBeat := some 0, lastAnswer := [(3, 0)] } }

theorem witness_DiesAreFenced :
    (up.clocked = true ∧ up.stepDone 6 = true ∧ up.admitted 3 = true ∧ beating.fabric.lastBeat.isSome = true ∧
     (up.set AGT_FAB_STATUS.ADMITTED 0 7).admitted 3 = false ∧ up.pending = []) ∧
    (let s := atTime beating (4000 * 30)
     s.admitted 3 = true ∧ s.beatSuspended 3 = false ∧ tfind s.fabric.lastAnswer 3 = some 0 ∧
     0 + 4000 * s.obj 30 0x3800 1 ≤ s.time.now) ∧
    (up.reaches .pf0 4 13 0x8 = true ∧ up.isSet AGT_FAB_CMDSTAT.BUSY 0 = false ∧ bits (1 + fld 4 3) 0 4 = 1 ∧
     up.admitted (bits (1 + fld 4 3) 4 4) = true ∧ bit (1 + fld 4 3) 8 = false) ∧
    (up.dieBusy 3 = false ∧ (runs 0 (matBody 0)).dieBusy 0 = true ∧ bit (1 + fld 8 1) 8 = true) ∧
    (let s : State := { up with fabric := { up.fabric with drain := some (3, 0) } }
     s.fabric.drain = some (3, 0) ∧ s.admitted 3 = true ∧ s.dieBusy 3 = false) ∧
    (let s := atTime { runs 0 (matBody 0) with fabric := { up.fabric with drain := some (0, 0) } } (4000 * 1000)
     s.dieBusy 0 = true ∧ 0 + 4000 * s.obj 1000 0x3800 3 ≤ s.time.now) := by decide +kernel

/-- Die 3 is fenced and was restored. -/
def fenced3 : State :=
  let s := (up.set AGT_FAB_STATUS.ADMITTED 0 7).set AGT_FAB_STATUS.FENCED 0 8
  { s with fabric := { s.fabric with restored := [3] } }

theorem witness_DiesAreAdmitted :
    (let s := fenced3
     let val := 2 + fld 4 3
     s.clocked = true ∧ s.reaches .pf0 4 13 0x8 = true ∧ s.isSet AGT_FAB_CMDSTAT.BUSY 0 = false ∧ bits val 0 4 = 2 ∧ bit val 8 = false ∧
     s.fenced (bits val 4 4) = true ∧ s.fabric.restored.contains (bits val 4 4) = true) ∧
    (let s : State := { fenced3 with fabric := { fenced3.fabric with admitting := some 3 } }
     s.fabric.admitting = some 3 ∧ s.fabric.pendingAdmit.contains 3 = false ∧ s.domOn (8 * 3) = true ∧ s.fabric.retained = none) ∧
    (let s : State := { fenced3 with fabric := { fenced3.fabric with admitting := some 3, retained := some {} } }
     s.fabric.admitting = some 3 ∧ s.fabric.retained.isSome = true ∧ s.epochUsed 0 = false) := by decide +kernel

/-! ### Ingest -/

/-- The value of CAMCFG for RAW8 at 16 by 1 pixels in two buffers, enabled. -/
def camVal : Nat := 1 + fld 4 0x2A + fld 14 1 + fld 32 15

/-- Camera port 11 so configured, in a state. -/
def camera (st : Nat) : State := (((up.storeCam 11 camVal).set AGT_ING_CAMCFG.ENABLE 11 1).set AGT_ING_CAMSTAT.STATE 11 st)

/-- One line of 16 pixels: black, but for the ninth. -/
def line : List Byte := List.replicate 8 0 ++ [255] ++ List.replicate 7 0

/-- A frame is under way in a buffer of that port, or in none. -/
def receiving (st : Nat) (b : Option Nat) : State := (camera st).setCam 11 { cur := some ({ seq := 1 }, b), lastSof := some 0 }

/-- What is left of that line's frame in memory, if all its writes are accepted. -/
def frameWritten (s : State) (b : Option Nat) : Option State :=
  let px := [(line, 0)].map (fun l => (linePixels 0x2A ((Config.free (s.freeCount + l.2)).toNat % 256) l.1).take (s.camW 11))
  ({ s.dropCur 11 with freeCount := s.freeCount + 1 } : State).writeFrame 11 b
    (px.flatMap (fun l => l.flatMap (pixelBytes (camFmt (s.get AGT_ING_CAMCFG.OUTFMT 11)) (codeBits 0x2A))))

/-- Does it pass both detectors of R242 and R243 once it is written, with no frame before it? -/
def framePasses (s : State) (b : Option Nat) : Bool :=
  let px := (linePixels 0x2A 0 line).take (s.camW 11)
  match frameWritten s b with
  | some u => (u.cam 11).waits.isEmpty &&
      decide ((((bandCrcs [line]).zip ((u.cam 11).ref.getD [])).filter (fun q => q.1 == q.2)).length < (u.cam 11).lim.bands ∧
        (u.cam 11).lim.flatSpan < codeSpan (thinned 8 [px]))
  | none => false

/-- A frame of port 11 that was written to buffer 1 and waits for its writes, judged or not. -/
def camWait (judged : Bool) : CamWait :=
  { buf := some 1, frame := { seq := 1 }, sig := [], span := 0, judged := judged, state := 3, thumb := [] }

theorem witness_Cameras :
    (up.clocked = true ∧ 11 < 12 ∧ up.ingWrites .pf0 (0x100 + 64 * 11) = true ∧ up.get AGT_ING_CAMCFG.ENABLE 11 ≠ 1 ∧
     bit camVal 0 = true ∧ (∀ k, k < 8 → up.bufState 11 k ≠ 3) ∧ (up.storeCam 11 camVal).camCfgOk 11 = true) ∧
    (let s := camera 1
     s.camTakes 11 0 = true ∧ s.camState 11 ∈ [1, 2, 3] ∧ (s.cam 11).cur = none ∧ s.camBehind [11] 3 = false ∧ s.ing.waiting = [] ∧
     (s.cam 11).lastNo ≠ some (7 % 2 ^ 16)) ∧
    (∀ st ∈ [1, 2, 3], let s := receiving st (some 1)
     let lines := ([(0x2A, line)].filter (fun l => l.1 == s.get AGT_ING_CAMCFG.DT 11)).map (·.2)
     (s.cam 11).cur = some ({ seq := 1 }, some 1) ∧ s.camTakes 11 0 = true ∧ s.camRuns 11 = true ∧ s.ing.waiting = [] ∧
     s.camState 11 = st ∧ s.get AGT_ING_CAMCFG.DT 11 = 0x2A ∧ lines = [line] ∧ lines.length = s.camH 11 ∧
     (∀ l ∈ lines, l.length = lineBytes 0x2A (s.camW 11)) ∧ framePasses s (some 1) = true) ∧
    (let s := (receiving 3 (some 2)).setCam 11 { (receiving 3 (some 2)).cam 11 with waits := [camWait true] }
     (s.cam 11).cur = some ({ seq := 1 }, some 2) ∧ s.camRuns 11 = true ∧
     (frameWritten s (some 2)).map (fun u => (u.cam 11).waits) = some [camWait true] ∧ (camWait true).judged = true) ∧
    (let s := ((camera 3).setBuf 11 1 1).setCam 11 { waits := [camWait true, camWait false] }
     (s.cam 11).waits = camWait true :: [camWait false] ∧ (camWait true).buf = some 1 ∧ s.camRuns 11 = true ∧ s.bufState 11 1 = 1) ∧
    (let s := atTime ((camera 3).setCam 11 { lastSof := some 0 }) (2 * 33333 * 4000)
     (s.cam 11).lastSof = some 0 ∧ s.camJudged 11 = true ∧ 0 + 2 * (s.cam 11).lim.period * 4000 ≤ s.time.now) := by decide +kernel

theorem witness_CamerasInUse :
    (let s := (camera 3).setBuf 11 1 2
     s.ingWrites .pf0 (0x120 + 64 * 11) = true ∧ s.camBehind [11] 1 = false ∧ s.camBehind [11] 2 = false ∧ s.ing.waiting = [] ∧
     s.readyBuf 11 true = some 1 ∧ (camera 3).readyBuf 11 true = none) ∧
    (let s := (camera 3).setBuf 11 1 3
     s.ingWrites .pf0 (0x128 + 64 * 11) = true ∧ bit 2 1 = true ∧ s.bufState 11 1 = 3) ∧
    (let s := (camera 4).setCam 11 { excludedAt := some 0 }
     up.ingWrites .pf0 0x10 = true ∧ (camera 3).camRuns 11 = true ∧ up.ingWrites .pf0 8 = true ∧ (camera 4).camState 11 = 4 ∧
     ((camera 4).cam 11).excludedAt ≠ some (camera 4).time.now ∧ bit (camera 4).excludesAhead 11 = false ∧
     (s.cam 11).excludedAt = some s.time.now ∧
     bit ({ camera 4 with pending := [.exclude .pf0 (2 ^ 11)] } : State).excludesAhead 11 = true) ∧
    (let s : State := { receiving 3 (some 1) with pending := [.csiFrameEnd 11 false ⟨0, [(0x2A, line)]⟩] }
     s.clocked = true ∧ s.ingWrites .pf0 (0x120 + 64 * 11) = true ∧ s.ing.waiting = []) := by decide +kernel

theorem witness_SnapshotsAndEgoMotion :
    (up.clocked = true ∧ up.ingWrites .pf0 0x18 = true ∧ up.ing.snapHeld = none ∧ up.camBehind (maskList 12 0xFFF) 1 = false ∧
     up.ing.waiting = [] ∧
     (let s : State := { up with ing := { up.ing with snapHeld := some 0xFFF } }
      s.ing.snapHeld = some 0xFFF ∧ s.camBehind (maskList 12 0xFFF) 1 = false ∧ s.ing.waiting = [])) ∧
    (up.ingWrites .pf0 (0x400 + 32 * 3) = true ∧ bit 0 0 = false ∧ bit 1 0 = true ∧ up.get AGT_ING_IMUCFG.ENABLE 3 ≠ 1) ∧
    (let s := up.set AGT_ING_IMUSTAT.STATE 3 1
     let t : State := { s with ing := { s.ing with imus := [(3, { edge := some 8 })] } }
     s.ingOn = true ∧ s.imuState 3 ≠ 0 ∧ (s.imu 3).edge = none ∧ t.imuState 3 ≠ 0 ∧ (t.imu 3).edge = some 8) ∧
    (∀ mode ∈ [0, 1], let s := ((up.set AGT_ING_ENCCFG.ENABLE 7 1).set AGT_ING_ENCCFG.MODE 7 mode).set AGT_ING_ENCCFG.FILTER 7 5
     s.ingOn = true ∧ s.get AGT_ING_ENCCFG.ENABLE 7 = 1 ∧ s.get AGT_ING_ENCCFG.MODE 7 = mode ∧ mode < 2 ∧
     40 * s.get AGT_ING_ENCCFG.FILTER 7 ≤ 200 ∧ 199 < 40 * s.get AGT_ING_ENCCFG.FILTER 7 ∧ s.get AGT_ING_ENCCFG.ENABLE 0 ≠ 1) ∧
    (up.ingWrites .pf0 0x600 = true ∧ up.get AGT_ING_EGOCFG.ENABLE 0 ≠ 1 ∧ bit 1 0 = true) ∧
    (let s := up.set AGT_ING_EGOCFG.ENABLE 0 1
     s.ingOn = true ∧ s.get AGT_ING_EGOCFG.ENABLE 0 = 1 ∧
     ({ s with ing := { s.ing with ego := { tick := some 40000 } } } : State).ego.tick = some 40000) := by decide +kernel

/-! ### The reflex engine and time -/

/-- Channel 31 in a state of R325 and a phase, with a dead time in both banks, and the comparator thresholds a quarter and three quarters
of the way from −0.9 V to 0.9 V. -/
def channel (st phase dead : Nat) : State :=
  let s := ((up.set AGT_RFX_CH_STAT.STATE 31 st).set AGT_RFX_CH_STAT.PHASE 31 phase).set AGT_RFX_CH_BANKA1.DEADTIME 31 dead
  (((s.set AGT_RFX_CH_BANKA0.BAND 31 1).set AGT_RFX_CH_CFG.DESAT_EN 31 1).set BRL_CH_THRESH.LO 31 256).set BRL_CH_THRESH.HI 31 768

/-- Channel 31, ARMED, with what runs on it. -/
def channelWith (phase dead : Nat) (x : RfxChan) : State := (channel 1 phase dead).setRfx 31 x

theorem witness_ReflexOutputs :
    (∀ dead ∈ [0, 4], ∀ phase ∈ [0, 1], let s := channelWith phase dead { lastOn := some 0 }; let x := s.rfxChan 31
     s.clocked = true ∧ s.rfxOn = true ∧ 31 < 32 ∧ s.pending = [] ∧ s.spDue 31 = false ∧ s.domOn 42 = true ∧ s.rfxState 31 = 1 ∧
     x.arming = false ∧ x.dead = none ∧ x.blank = none ∧ x.minRun = none ∧ s.isSet AGT_RFX_CH_STAT.PHASE 31 = (phase == 1) ∧
     s.bankGet AGT_RFX_CH_BANKA1.DEADTIME AGT_RFX_CH_BANKB1.DEADTIME 31 = dead ∧ x.lastOn = some 0 ∧
     4096 * ((-450000000 : Int) + 900000000) ≤ 1800000000 * s.lowerAt 31 ∧
     ¬4096 * ((-449999999 : Int) + 900000000) ≤ 1800000000 * s.lowerAt 31 ∧
     1800000000 * s.upperAt 31 ≤ 4096 * ((450000000 : Int) + 900000000) ∧
     ¬1800000000 * s.upperAt 31 ≤ 4096 * ((449999999 : Int) + 900000000) ∧ s.cmpLow 31 = false ∧ s.cmpHigh 31 = false) ∧
    (∀ phase ∈ [0, 1], ∀ vm ∈ [(-450000000 : Int), 450000000], let s := channelWith phase 4 { vm := some vm }
     s.crosses 31 (decide (0 < vm)) 0 = true ∧ s.pending = [] ∧ s.spDue 31 = false ∧ s.rfxState 31 = 1 ∧
     s.isSet AGT_RFX_CH_STAT.PHASE 31 = (phase == 1)) ∧
    (let s := channelWith 0 4 { blank := some 0, minRun := some 0 }
     s.pending = [] ∧ s.spDue 31 = false ∧ (s.rfxChan 31).blank = some 0 ∧ (s.rfxChan 31).minRun = some 0 ∧ 0 ≤ s.time.ticks) ∧
    (∀ on ∈ [true, false], let s := channelWith 0 4 { dead := some (on, 5, 0) }
     s.pending = [] ∧ s.spDue 31 = false ∧ (s.rfxChan 31).dead = some (on, 5, 0) ∧ 0 ≤ s.time.ticks) := by decide +kernel

theorem witness_ReflexTrips :
    (let s := (channel 1 1 0).set BRL_CH_CB.CODE 31 768
     s.rfxOn = true ∧ s.crowbarHit 31 450000000 = true ∧ s.crowbarHit 31 449999999 = false ∧ s.domOn 42 = true ∧ s.clocked = true ∧
     s.rfxState 31 = 1 ∧ (let t : State := { s with pending := [.crowbarTrip ⟨31, 450000000, 0⟩] }
      t.clocked = true ∧ t.reaches .pf0 4 4 0x8 = true ∧ t.rfxState 31 = 1 ∧ t.crowbarHit 31 450000000 = true)) ∧
    (let s := (channel 1 1 0).set AGT_RFX_CH_CFG.DESAT_FILT 31 2
     s.isSet AGT_RFX_CH_CFG.DESAT_POL 31 = false ∧ s.isSet AGT_RFX_CH_CFG.DESAT_EN 31 = true ∧
     80 * s.get AGT_RFX_CH_CFG.DESAT_FILT 31 < 161) ∧
    (let s := atTime ((channel 1 1 0).set AGT_RFX_CH_CFG.SRC 31 2) 40000000
     s.pending = [] ∧ s.get AGT_RFX_CH_CFG.SRC 31 = 2 ∧ s.rfxState 31 = 1 ∧ (s.rfxChan 31).lastEdge + 40000000 ≤ s.time.now) ∧
    (let s := (channel 1 1 0).set AGT_RFX_CH_CFG.SRC 31 3
     s.get AGT_RFX_CH_CFG.SRC 31 = 3 ∧ s.rfxState 31 = 1) := by decide +kernel

theorem witness_ReflexCommands :
    (let s := channel 0 0 4
     s.clocked = true ∧ s.rfxOn = true ∧ s.reaches .pf0 4 4 0x8 = true ∧ s.reaches .pf0 4 4 0x18 = true ∧ s.pending = [] ∧
     s.isSet AGT_PWR_CLKSTAT.RELOCK 0 = false ∧
     (∀ c, c < 32 → bit (2 ^ 31) c = true → s.armable false c = true ∧ s.safeAllows c = true)) ∧
    (let s := channel 2 0 4
     s.pending = [] ∧ s.isSet AGT_PWR_CLKSTAT.RELOCK 0 = false ∧
     ∀ c, c < 32 → bit (2 ^ 31) c = true → s.armable true c = true ∧ s.safeAllows c = true) ∧
    (up.pending = [] ∧ up.isSet AGT_PWR_CLKSTAT.RELOCK 0 = false ∧ up.spDue 31 = false ∧ bit (2 ^ 31) 31 = true ∧
     up.armable false 31 = false) ∧
    (let s := (channel 0 0 4).set AGT_RFX_CH_STAT.SWAP_PEND 31 1
     s.isSet AGT_RFX_CH_STAT.SWAP_PEND 31 = true) := by decide +kernel

/-- The servo in a mode and a state. -/
def servo (mode st : Nat) : State := (up.set AGT_TIME_CTRL.MODE 0 mode).set AGT_TIME_STATUS.STATE 0 st

theorem witness_ServoStates :
    (let s := servo 3 1
     s.clocked = true ∧ s.time.waiting = [] ∧ s.timeWrites .pf0 0x58 = true ∧ s.get AGT_TIME_CTRL.MODE 0 = 3 ∧
     s.servoBehind 4 = false ∧ s.time.rebased ≠ some s.time.now ∧
     (servo 1 1).get AGT_TIME_CTRL.MODE 0 = 1 ∧ (servo 1 1).agateReloads = false ∧
     (let r : State := { s with time := { s.time with rebased := some s.time.now } }
      r.clocked = true ∧ r.time.waiting = [] ∧ r.servoBehind 4 = false ∧ r.time.rebased = some r.time.now) ∧
     (let r : State := { s with pending := [.accept .pf0] }
      r.clocked = true ∧ r.time.waiting = [] ∧ r.servoBehind 4 = true)) ∧
    (∀ st ∈ [1, 2, 3], let s := servo 1 st
     s.get AGT_TIME_STATUS.STATE 0 = st ∧ s.jumpThr < (4001 : Int).natAbs ∧ (-4000 : Int).natAbs ≤ s.jumpThr) ∧
    (let s := atTime (servo 1 2) (4000000 * 3000)
     s.get AGT_TIME_STATUS.STATE 0 = 2 ∧ s.time.lastSample + s.holdTo ≤ s.time.now) ∧
    (∀ st ∈ [1, 2], let s := servo 1 st
     s.timeWrites .pf0 0x40 = true ∧ s.servoBehind 2 = false ∧ 1 % 2 ^ 64 ≠ s.get AGT_TIME_MASTER.CLOCK_ID 0 ∧
     s.get AGT_TIME_STATUS.STATE 0 = st) ∧
    (∀ st ∈ [2, 3], let s : State := { servo 3 st with time := { up.time with heldJump := some (-5) } }
     s.timeWrites .pf0 0x38 = true ∧ s.servoBehind 3 = false ∧ s.time.heldJump = some (-5) ∧ s.get AGT_TIME_CTRL.MODE 0 % 2 = 1 ∧
     s.get AGT_TIME_STATUS.STATE 0 = st) := by decide +kernel

theorem witness_TimeRegistersAndTimestamps :
    (up.clocked = true ∧ up.reaches .pf0 4 3 0x10 = true ∧ up.timeWrites .pf0 0 = true ∧ up.time.waiting = [] ∧ bits (fld 27 127) 27 8 ≤ 127 ∧
     up.timeWrites .pf0 0x28 = true ∧ up.timeWrites .pf0 0x30 = true ∧ (servo 2 0).get AGT_TIME_CTRL.MODE 0 % 2 = 0 ∧
     (servo 1 0).get AGT_TIME_CTRL.MODE 0 % 2 = 1 ∧
     (let s := up.set AGT_TIME_CTRL.PPS_EN 0 1
      s.isSet AGT_TIME_CTRL.PPS_EN 0 = true ∧ s.ptp % 4000000000 ≤ (if s.timeClock then 1 else 4) * s.incr / 2 ^ 32 ∧
      s.time.lastPps ≠ some (s.ptp / 4000000000) ∧
      ({ s with time := { s.time with lastPps := some 0 } } : State).time.lastPps = some (s.ptp / 4000000000))) ∧
    (let e : TxStamp := ⟨1, 2, false⟩
     let s : State := { up with time := { up.time with queue1 := List.replicate 15 e } }
     let t : State := { up with time := { up.time with queue1 := List.replicate 16 e } }
     up.reaches .pf0 4 3 (0x100 + 32 * 1) = true ∧ up.txQueue 1 = [] ∧ s.txQueue 1 = e :: List.replicate 14 e ∧
     (s.txQueue 1).length < 16 ∧ 16 ≤ (t.txQueue 1).length) ∧
    (let s := (up.set AGT_NET_CTRL.ENABLE 1 1).set AGT_NET_TXDB.TAIL 1 1
     s.netOn 1 = true ∧ s.get AGT_NET_TXHEAD.HEAD 1 ≠ s.get AGT_NET_TXDB.TAIL 1) := by decide +kernel

/-! ### Clocks, power and heat -/

theorem witness_RootPllAndIssueCaps :
    (let s := up.set AGT_PWR_CLKSTAT.ROOT_LOCK 0 1
     s.clocked = true ∧ s.relock = false ∧ s.isSet AGT_PWR_CLKSTAT.ROOT_LOCK 0 = true) ∧
    (∀ tries ∈ [2, 3], let s : State := { up.set AGT_PWR_CLKSTAT.RELOCK 0 1 with pwr := { up.pwr with tries := tries } }
     s.relock = true ∧ s.pwr.locked = false ∧ s.isSet AGT_PWR_CLKSTAT.ROOT_FAIL 0 = false ∧ s.pwr.tries = tries) ∧
    (let s : State := { up.set AGT_PWR_CLKSTAT.RELOCK 0 1 with pwr := { up.pwr with locked := true } }
     s.relock = true ∧ s.pwr.locked = true) ∧
    (up.relock = false ∧ up.matrixBusy 3 = false ∧ up.getO ONX_UNC_HINT.HEAVY 3 0 ≠ 1 ∧ up.domOn (8 * 3) = true ∧
     up.reaches .mgmt 3 0 0x180 = true ∧ bit (1 + fld 8 1) 0 = true ∧ bits (1 + fld 8 1) 8 8 ≠ 0) := by decide +kernel

/-- Readings of the twelve rails at 0.8 V and 100 A. -/
def railReadings : List Reading := List.replicate 12 (8000, 1000, none, 0, false)

/-- Thirty-nine diodes at 40 °C and one without a reading. -/
def diodes : List (Option Int) := List.replicate 39 (some 320) ++ [none]

theorem witness_PowerAndThermal :
    up.clocked = true ∧ railReadings.length = 12 ∧ railReadings[11]? = some (8000, 1000, none, 0, false) ∧ bits 8 0 4 ≠ 0 ∧
    bit 8 3 = true ∧ up.domOn 42 = true ∧ diodes.length = 40 ∧ diodes[38]? = some (some 320) ∧ diodes[39]? = some none ∧
    1 < min (up.diePwr 3).cap ((up.setO ONX_M_ISSUECAP.LOOP_CAP 3 0 2).loopCap 3) := by decide +kernel

/-! ### Supplies, bring-up, resets and shutdown -/

theorem witness_AlwaysOnDomainStaysOn : ∃ t, step { up with pending := [.pllLock] } = .next t ∧ up.pkg.vddAon = true ∧
    up.domPowered 32 = true ∧ 32 ∉ up.pkg.switchPlan := ⟨_, rfl, by decide +kernel⟩

theorem witness_SuppliesAndPins :
    ({ up with pkg := {} } : State).pkg.vddAon = false ∧ up.pkg.vddAon = true ∧ up.pkg.resetNLow = false ∧
    ({ up with pkg := { up.pkg with resetNLow := true } } : State).pkg.resetNLow = true ∧
    (let s : State := { up with pkg := { up.pkg with testMode := true } }
     s.pkg.vddAon = true ∧ s.pkg.testMode = true ∧ s.pending = []) := by decide +kernel

/-- Guarded outputs are on, with output 31 guarded; the safe state is latched or not. -/
def guarding (latched : Nat) : State :=
  let s := ((up.set AGT_CMP_STATUS.ENABLED 0 1).set AGT_CMP_STATUS.LATCHED 0 latched).set AGT_CMP_OUTCFG.ENABLE 31 1
  { s with cmp := { s.cmp with running := true } }

/-- The steps before step `k` are done. -/
def stepsTo (k : Nat) : State := up.set AGT_BU_STEPS.DONE 0 (2 ^ (k - 1) - 1)

/-- A package whose step 10 finds every test of the outputs passed. -/
def tested : State := ((stepsTo 10).set AGT_CMP_INJ.PASS 0 0x3F).set AGT_CMP_INJ.DONE 0 1

theorem witness_BringUpStepsSettle :
    (up.buReached = true ∧ (stepsTo 1).stepMay 2 = false ∧
     ({ up with pkg := { up.pkg with testMode := true } } : State).pkg.held = true ∧
     (up.set AGT_BU_STAT.BUSY 0 1).isSet AGT_BU_STAT.BUSY 0 = true) ∧
    (∀ k ∈ [1, 2, 3, 4, 5, 6, 7, 8, 9, 10], let s := stepsTo k
     s.buReached = true ∧ s.pkg.held = false ∧ s.isSet AGT_BU_STAT.BUSY 0 = false ∧ s.stepMay k = true) ∧
    (¬(2 ^ 45 < 2 ^ 45) ∧ ¬(1 = 0) ∧ ¬(2 ^ 7 < 2 ^ 7) ∧ (guarding 0).guardedOn = true ∧ up.enableOk = false) ∧
    (up.switchPlanFor (2 ^ 44 - 1) true = some [] ∧ State.reset.switchPlanFor (2 ^ 34) true = some [34] ∧
     State.reset.switchPlanFor (2 ^ 1) true = none ∧ up.switchPlanFor (2 ^ 43) false = some [43]) ∧
    ((∀ n ∈ maskList 6 (bits 0x3F 0 6), (n < 4 → ∀ i, i < 8 → up.domPowered (8 * n + i) = true) ∧ (n = 4 → up.domPowered 39 = true) ∧
      (n = 5 → up.domPowered 40 = true ∧ up.domPowered 41 = true)) ∧
     ({} : TestResult).found = [] ∧ up.defects.1.entries = [] ∧ bit ({} : TestResult).bad 4 = false ∧ bit (2 ^ 4) 4 = true) ∧
    (up.domPowered 37 = true ∧ up.domPowered 38 = true ∧ bit (2 ^ 8) 8 = true ∧ bit (2 ^ 5) 5 = true ∧ bit (2 ^ 8 - 1) 8 = false ∧
     bit ({ up with bu := { up.bu with passed := 2 ^ 5 } } : State).bu.passed 5 = true) ∧
    ((stepsTo 9).guardedOn = false ∧ tested.stepMay 10 = true ∧ tested.enableOk = true) := by decide +kernel

theorem witness_CommandsOfBringUpComplete :
    (let s : State := { up with pkg := { up.pkg with switchPlan := [43, 34], switchOn := true } }
     s.clocked = true ∧ s.pkg.switchPlan = 43 :: [34] ∧ 43 ∉ [34]) ∧
    (∀ k ∈ [1, 10], ∀ origin ∈ [0, 1, 2], let j : BuRun := { op := k, origin := origin, done := some (.ok, 0) }
     let s : State := { up with bu := { up.bu with run := some j }, cmp := { up.cmp with running := true } }
     s.bu.run = some j ∧ j.done = some (.ok, 0) ∧ (j.op ≠ 10 ∨ s.cmp.running = true)) ∧
    (let j : BuRun := { op := 10, done := some (.ok, 0) }
     let s : State := { up with bu := { up.bu with run := some j } }
     s.bu.run = some j ∧ j.op = 10 ∧ s.cmp.running = false) ∧
    (let s : State := { up with bu := { up.bu with queue := [(1, 5)] } }
     s.bu.run = none ∧ s.bu.queue = (1, 5) :: []) ∧
    (∀ n ∈ [3, 4], let s : State := { up.set AGT_BU_STAT.BUSY 0 1 with bu := { up.bu with queue := List.replicate n (1, 5) } }
     s.isSet AGT_BU_STAT.BUSY 0 = true ∧ s.bu.queue.length = n) ∧
    (up.isSet AGT_BU_STAT.BUSY 0 = false ∧ 2 % 4 ≠ 3 ∧ 7 % 4 = 3 ∧ Src.pf0 ≠ .sideband ∧ Src.pf0 ≠ .pf1) := by decide +kernel

theorem witness_ResetsRunAndEnd :
    (up.buReached = true ∧ up.pkg.held = false ∧ up.isSet AGT_BU_STAT.BUSY 0 = false ∧ up.bu.shut = none ∧
     up.admitted 3 = true ∧ up.domOn (8 * 3 + 4 + 3) = true ∧ up.domPowered 37 = true) ∧
    (let s := (up.set AGT_SCHED_CTX_STAT.STATE 511 1).set AGT_SCHED_CTX_CFG.PART 511 15
     s.ctxPart 511 = 15 ∧ s.ctxState 511 = 1) ∧
    (∀ level ∈ [0, 1, 2], let j : ResetJob := { level := level, draining := true, start := 0 }
     let s := atTime { up with bu := { up.bu with reset := some j } } (4000 * 10000)
     s.clocked = true ∧ s.bu.reset = some j ∧ j.draining = true ∧ j.start + s.drainBound j.level ≤ s.time.now) ∧
    (let j : ResetJob := { level := 0, node := 3, core := 3, draining := true, start := 0 }
     let s : State := { up with bu := { up.bu with reset := some j } }
     s.bu.reset = some j ∧ j.level = 0 ∧ s.admitted j.node = true ∧ s.coreBusy j.node j.core = false ∧
     (s.set AGT_FAB_STATUS.ADMITTED 0 7).admitted j.node = false) ∧
    (let j : ResetJob := { level := 1, node := 3, draining := true, start := 0 }
     let s : State := { up with bu := { up.bu with reset := some j } }
     s.bu.reset = some j ∧ s.dieBusy j.node = false) ∧
    (let j : ResetJob := { level := 2, part := 15, draining := false, start := 0 }
     let s : State := { up with bu := { up.bu with reset := some j } }
     s.bu.reset = some j ∧ j.draining = false ∧ s.partContexts j.part = []) := by decide +kernel

/-- A shutdown in a phase. -/
def shutting (phase : Nat) (j : ShutJob) : State :=
  let s := up.set AGT_BU_SHUT.PHASE 0 phase
  { s with bu := { s.bu with shut := some j } }

theorem witness_ShutdownRuns :
    (let arg := 2 ^ 44 + 2 ^ 40 + 1
     up.buReached = true ∧ up.pkg.held = false ∧ up.isSet AGT_BU_STAT.BUSY 0 = false ∧ arg < 2 ^ 45 ∧
     ∀ d, d < 44 → bit arg d = true → up.regionOk d = true) ∧
    (let j : ShutJob := { plan := [0, 40], pwroff := false, start := 0 }
     let s := shutting 1 j
     s.bu.shut = some j ∧ s.clocked = true ∧ s.get AGT_BU_SHUT.PHASE 0 = 1 ∧ s.enginesIdle = true ∧ j.testing = []) ∧
    (let j : ShutJob := { plan := [40], testing := [0], pwroff := false, start := 0 }
     let s := shutting 2 j
     s.bu.shut = some j ∧ 0 ∈ j.testing ∧ j.aborted = false ∧ s.buReached = true ∧ s.get AGT_BU_SHUT.PHASE 0 = 2 ∧ j.testing ≠ []) ∧
    (let j : ShutJob := { plan := [], pwroff := true, start := 0 }
     (shutting 3 j).bu.shut = some j ∧ (shutting 3 j).get AGT_BU_SHUT.PHASE 0 = 3 ∧ j.next = [] ∧ j.testing = []) := by decide +kernel

/-! ### The dictionary and register access -/

/-- AGT_ECAT runs, and the links to Scarab are up. -/
def linked : State := (up.set AGT_ECAT_CTRL.RUN 0 1).set AGT_FAB_LINK.STATE 8 1

/-- The firmware of Agate is being reloaded. -/
def reloading : State := { linked with bu := { linked.bu with comps := [(2, { state := 3 })] } }

theorem witness_DictionaryRequests :
    (∀ p ∈ [0, 1], up.dictPort p = true ∧ up.isSet AGT_UNC_DICT_RSP.BUSY p = false ∧
      (up.set AGT_UNC_DICT_RSP.BUSY p 1).isSet AGT_UNC_DICT_RSP.BUSY p = true ∧
      up.dictCheck (roleMask (2 + p) false) none true 0x1000 0 = none ∧ 0 % 8 = 0 ∧
      up.dictCheck (roleMask (2 + p) false) none true 0 0 = some (.badDescriptor, 0x06020000) ∧
      up.dictCheck (roleMask (2 + p) false) none true 0x4000 1 = some Verdict.denied ∧
      (let s := up.set AGT_UNC_DICT_DATA.VALUE p 1000
       let b := (leBytes 8 (s.get AGT_UNC_DICT_DATA.VALUE p)).take 2
       (objRow 0x3800 1).bind (fun r => typeBytes r.typ) = some 2 ∧
       s.dictCheck (roleMask (2 + p) false) (some b) true 0x3800 1 = none)) ∧
    (let s := linked
     s.clocked = true ∧ s.domOn 40 = true ∧ s.pwr.scarabHalted = false ∧ s.linkState 8 ≠ 0 ∧ s.domOn 34 = true ∧
     s.get AGT_NET_CANSTAT.STATE 1 ≠ 2 ∧ s.ecatRuns = true ∧ s.agateReloads = false ∧
     (∀ rank ∈ [1, 4, 5], s.dictCheck (roleMask rank false) none true 0x1000 0 = none) ∧
     s.dictCheck (roleMask 1 false) (some [1]) true 0x3C00 1 = none ∧ s.dictCheck (roleMask 4 false) (some [2]) true 0x4400 1 = none ∧
     s.dictCheck (roleMask 5 false) (some [3]) true 0x4400 1 = none) ∧
    (reloading.agateReloads = true ∧ reloading.ecatRuns = true ∧ reloading.domOn 40 = true) ∧
    (2 ∈ ({ up with dic := { up.dic with denied := [2, 3] } } : State).dic.denied) := by decide +kernel

/-- A write of object 0x3800:0x01 by the sideband or the host. -/
def slotWrite (rank v : Nat) : SlotWrite := { rank := rank, src := portSrc (rank - 2), obj := 256 * 0x3800 + 1, bytes := leBytes 2 v }

/-- A write of a register of Agate by the host that waits for the end of its slot. -/
def slotReg (off v : Nat) : SlotWrite := { rank := 3, src := .pf0, obj := 2 ^ 24 + off, bytes := leBytes 8 v }

theorem witness_SlotDecisions :
    (let l := [slotWrite 3 20, slotWrite 2 1000, slotWrite 2 30]
     winner (fun x => x.obj == 256 * 0x3800 + 1) l = some 2 ∧ l[2]? = some (slotWrite 2 30) ∧ wins l (slotWrite 2 30) 2 = true ∧
     wins l (slotWrite 3 20) 0 = false) ∧
    ((slotWrite 2 30).obj < 2 ^ 24 ∧ (slotWrite 2 30).reg = false ∧ (up.writeObject (slotWrite 2 30) true).2 = some Verdict.ok ∧
     (up.writeObject (slotWrite 3 20) true).2 = some Verdict.ok ∧ up.clocked = true) ∧
    (let l := [slotReg 0x300000 1, slotReg 0x300000 0]
     2 ^ 24 ≤ (slotReg 0x300000 1).obj ∧ (slotReg 0x300000 1).reg = false ∧ (slotReg 0x300000 1).rfxCmd = false ∧
     up.reaches .pf0 4 3 0 = true ∧ wins l (slotReg 0x300000 1) 0 = false ∧ wins l (slotReg 0x300000 0) 1 = true) ∧
    ((slotReg 0x400008 2).rfxCmd = true ∧ up.reaches .pf0 4 4 8 = true) := by decide +kernel

theorem witness_StoresAndDefaults :
    (up.clocked = true ∧ up.flashBusy = false ∧ up.dic.current ≠ some 0 ∧ persistent (256 * 0x3800 + 1) = true ∧
     persistent (256 * 0x1001) = false) ∧
    (let j : StoreJob := ⟨1, 3, [], .sideband, false⟩
     let s : State := { up with dic := { up.dic with store := some j, current := some 0 } }
     s.flashBusy = true ∧ s.dic.store = some j ∧ s.dic.current = some 0 ∧ CfgCopy.fits ⟨j.seq, j.records⟩ = true) ∧
    (let s : State := { stepsTo 8 with dic := { up.dic with copy0 := some ⟨2 ^ 32 - 1, []⟩, copy1 := some ⟨0, []⟩ } }
     s.buReached = true ∧ s.pkg.held = false ∧ s.isSet AGT_BU_STAT.BUSY 0 = false ∧ s.stepMay 8 = true ∧
     s.dic.copy0.filter CfgCopy.fits = some ⟨2 ^ 32 - 1, []⟩ ∧ s.dic.copy1.filter CfgCopy.fits = some ⟨0, []⟩ ∧
     bit 3 0 = true ∧ bit 3 1 = true ∧ bit 1 1 = false ∧ bit 2 0 = false) := by decide +kernel

theorem witness_StoreTooLong : ∃ j : StoreJob, CfgCopy.fits ⟨j.seq, j.records⟩ = false := by
  have long (n : Nat) (h : 1048448 < n) : CfgCopy.fits ⟨0, [⟨0, 0, List.replicate n 0⟩]⟩ = false := by
    simp only [CfgCopy.fits, CfgCopy.body, List.flatMap_cons, CfgRecord.bytes, List.length_append, List.length_replicate, decide_eq_false_iff_not]
    omega
  exact ⟨{ copy := 0, seq := 0, records := [⟨0, 0, List.replicate 1048449 0⟩], src := .sideband }, long _ (by decide)⟩

theorem witness_RegisterWritesAndSrdos :
    (up.clocked = true ∧ up.requestRefused .pf0 (regSpace 5 0) true = some .denied ∧
     (up.set AGT_FAB_STATUS.ADMITTED 0 7).requestRefused .pf0 (regSpace 3 0) true = some .nodeLost ∧
     up.requestRefused .pf0 (glob 4 0) true = some .denied ∧ up.requestRefused .pf0 0x1000 true = none ∧
     localOf 0x1000 < 0x2000000000) ∧
    (let off := 0x600100
     up.requestRefused .pf0 (regSpace 4 off) true = none ∧ up.arrives .pf0 4 6 0x100 = true ∧ up.writeDenied .pf0 4 off = true) ∧
    (∀ off ∈ [0x300000, 0x200008], up.requestRefused .pf0 (regSpace 4 off) true = none ∧
     up.arrives .pf0 4 (off / 0x100000) (off % 0x100000) = true ∧ up.writeDenied .pf0 4 off = false ∧ defers 4 off = true) ∧
    (up.requestRefused .mgmt (regSpace 3 0x100000) true = none ∧ up.arrives .mgmt 3 1 0 = true ∧ up.writeDenied .mgmt 3 0x100000 = false ∧
     defers 3 0x100000 = true) ∧
    (∀ e ∈ [(0x300048, false), (0x300030, true)], up.requestRefused .pf0 (regSpace 4 e.1) true = none ∧
     0x2000000000 ≤ localOf (regSpace 4 e.1) ∧ localOf (regSpace 4 e.1) < 0x2010000000 ∧ nodeOf (regSpace 4 e.1) = 4 ∧
     up.arrives .pf0 4 3 (e.1 % 0x100000) = true ∧ up.writeDenied .pf0 4 e.1 = false ∧ defers 4 e.1 = false ∧
     (fieldsAt 4 e.1).any (fun f => ownFields.contains f.1) = e.2) ∧
    (∀ e ∈ [(0x108, false, false), (0x180, true, false), (0x110000, false, true)], up.requestRefused .mgmt (regSpace 3 e.1) true = none ∧
     nodeOf (regSpace 3 e.1) = 3 ∧ up.arrives .mgmt 3 (e.1 / 0x100000) (e.1 % 0x100000) = true ∧ up.writeDenied .mgmt 3 e.1 = false ∧
     defers 3 e.1 = false ∧ (fieldsAt 3 e.1).any (fun f => ownFields.contains f.1) = e.2.1 ∧ inWindow 3 e.1 = e.2.2) ∧
    (bits (2 ^ 24) AGT_PWR_CAPSTAT.ALERT.lo AGT_PWR_CAPSTAT.ALERT.width ≠ 1 ∨ AGT_PWR_CAPSTAT.ALERT.acc = .w1c) ∧
    (let s := (up.setObj 0 (0x1300 + 64) 1 1).setObj 0 0x13FE 0 0xA5
     s.domOn 34 = true ∧ s.obj 0 (0x1300 + 64) 1 = 1 ∧ s.obj 0 0x13FE 0 = 0xA5) ∧
    (let x : Cmd := { waitsFor with phase := .finished, status := .denied }
     (waits.setCmd x).cmd (3 * 2 ^ 32 + 0) = some x ∧ x.phase = .finished ∧ x.status = .denied) := by decide +kernel

/-! ### Host and field interfaces -/

/-- A cycle is under way, with these frames still out. -/
def cycling (waiting : List Nat) : State := { linked with ecat := { linked.ecat with open' := true, waiting := waiting, feedWaits := [3] } }

theorem witness_EthercatCycles :
    (linked.clocked = true ∧ linked.ecatRuns = true ∧ linked.ecat.open' = false) ∧
    (let s := cycling [0, 2]
     s.ecatRuns = true ∧ s.ecat.open' = true ∧ 2 * 0 + 0 ∈ s.ecat.waiting ∧ s.ecat.waiting.filter (fun k => k != 2 * 0 + 0) ≠ [] ∧
     s.ecatRing = false ∧ 3 ∈ s.ecat.feedWaits) ∧
    (let s := cycling [7]
     2 * 3 + 1 ∈ s.ecat.waiting ∧ s.ecat.waiting.filter (fun k => k != 2 * 3 + 1) = []) ∧
    ((cycling []).ecat.open' = true ∧ (cycling []).ecat.waiting = []) := by decide +kernel

/-- Position 127 is in a state. -/
def position (st : SubState) : State := { linked with ecat := { linked.ecat with subs := [(127, { st := st })] } }

theorem witness_SubdevicesAndMailbox :
    (up.clocked = true ∧ up.domOn 34 = true ∧ 127 < 128 ∧ ((position .present).sub 127).st = .present ∧
     ((position .absent).sub 127).st = .absent ∧ ((position .lost).sub 127).st = .lost ∧ ((position .checking).sub 127).st = .checking ∧
     ((position .refused).sub 127).st = .refused) ∧
    (let s := atTime (position .absent) (4000000 * 100)
     (s.sub 127).st = .absent ∧ (s.sub 127).retry + 4000000 * s.obj 100 0x2C01 1 ≤ s.time.now) ∧
    (let val := fld 8 127 + fld 24 0x1018 + fld 16 1
     let s := position .present
     s.reaches .pf0 4 8 0x40 = true ∧ s.isSet AGT_ECAT_MBX_RSP.BUSY 0 = false ∧ (s.sub (bits val 8 7)).st = .present ∧
     bits val 40 12 = 0 ∧ ((position .lost).sub (bits val 8 7)).st ≠ .present ∧
     (s.set AGT_ECAT_MBX_RSP.BUSY 0 1).isSet AGT_ECAT_MBX_RSP.BUSY 0 = true) ∧
    (∀ write ∈ [true, false], let j : MbxJob := ⟨write, 127, 0x1018, 1, []⟩
     let s : State := { linked with ecat := { linked.ecat with mbx := some j } }
     s.ecat.mbx = some j ∧ j.write = write) := by decide +kernel

/-- A PTP frame, which goes to ring 0 (R387). -/
def ptp : List Byte := List.replicate 12 0 ++ [0x88, 0xF7] ++ List.replicate 46 0

/-- Port 1 is enabled and its receive ring 0 written, with `depth` entries. -/
def receives (depth : Nat) : State :=
  let s := (up.set AGT_NET_CTRL.ENABLE 1 1).set AGT_NET_RXRING.DEPTH_M1 8 (depth - 1)
  { s with rings := [(AGT_NET_RXRING.BASE.addr 4 8, 0)] }

theorem witness_HostAndNetworks :
    (up.clocked = true ∧ up.domOn 34 = true ∧ (up.set AGT_NET_CANSTAT.STATE 1 2).get AGT_NET_CANSTAT.STATE 1 = 2 ∧
     up.get AGT_NET_CANSTAT.STATE 1 ≠ 2 ∧ up.agateReloads = false ∧ up.obj 100 0x1017 0 ≠ 0) ∧
    (up.reaches .pf0 4 9 (0x1000 * 1 + 0x18) = true ∧ bits 0 0 8 ≤ up.get AGT_NET_TXRING.DEPTH_M1 1) ∧
    ((receives 2).netOn 1 = true ∧ (receives 2).ringFor 1 ptp = some 0 ∧
     thas (receives 2).rings (AGT_NET_RXRING.BASE.addr 4 (rxIdx 1 0)) = true ∧
     (let s := receives 1
      (s.get AGT_NET_RXSTAT.TAIL 8 + 1) % (s.get AGT_NET_RXRING.DEPTH_M1 8 + 1) = s.get AGT_NET_RXDB.HEAD 8) ∧
     (let s := receives 2
      let ra := glob (s.get AGT_NET_RXRING.NODE 8) (4096 * s.get AGT_NET_RXRING.BASE 8 + 32 * s.get AGT_NET_RXSTAT.TAIL 8)
      (s.get AGT_NET_RXSTAT.TAIL 8 + 1) % (s.get AGT_NET_RXRING.DEPTH_M1 8 + 1) ≠ s.get AGT_NET_RXDB.HEAD 8 ∧ s.sec.prots = [] ∧
      s.sec.deferrals = [] ∧ isT2 ra = true ∧ isT2 (ra + 31) = true ∧ nodeOf (ra + 31) = nodeOf ra ∧ s.t2Up (nodeOf ra) = true)) := by
  decide +kernel

/-- Where no filter setting names a frame, and it is no PTP frame, no ring takes it. -/
theorem no_ring (s : State) (p : Nat) (f : List Byte) (hp : (ptpFrame f).1 = false) (h : ∀ v, Config.ethMatch v f = false) :
    s.ringFor p f = none := by
  simp [State.ringFor, hp, h]

theorem witness_HostAndNetworks_dropped (h : ∀ v, Config.ethMatch v (List.replicate 60 0) = false) :
    (receives 2).netOn 1 = true ∧ (receives 2).ringFor 1 (List.replicate 60 0) = none :=
  ⟨by decide +kernel, no_ring _ _ _ (by decide +kernel) h⟩

/-! ### Safety -/

theorem witness_SafeState :
    (let s := up.set AGT_FAB_LINK.STATE 8 1
     s.clocked = true ∧ s.reaches .scarab 4 6 0x20 = true ∧ s.domOn 41 = true ∧ s.pwr.scarabHalted = false ∧ (.sideband : Src) ≠ .scarab ∧
     s.domPowered 40 = true ∧ s.domPowered 41 = true ∧ s.guardedOn = false ∧ s.cmp.running = false) ∧
    (let s := guarding 0
     s.guardedOn = true ∧ s.latched = false ∧ s.cmp.running = true ∧ s.get AGT_CMP_HB.COUNT 0 = s.cmp.hbSeen ∧
     (s.set AGT_CMP_HB.COUNT 0 1).get AGT_CMP_HB.COUNT 0 ≠ (s.set AGT_CMP_HB.COUNT 0 1).cmp.hbSeen ∧ s.cmp.hbSame + 1 < 3 ∧
     ({ s with cmp := { s.cmp with hbSame := 1 } } : State).cmp.hbSame + 1 < 3 ∧
     3 ≤ ({ s with cmp := { s.cmp with hbSame := 2 } } : State).cmp.hbSame + 1) ∧
    (let s := guarding 1
     let t : State := { s with cmp := { s.cmp with releasing := true } }
     s.guardedOn = true ∧ s.latched = true ∧ s.cmp.releasing = false ∧ t.latched = true ∧ t.cmp.releasing = true ∧ s.releaseOk = false) ∧
    (let s : State := { guarding 1 with cmp := { (guarding 1).cmp with hbChecks := List.replicate 4 (0, true), goodFrames := 255 } }
     s.releaseOk = true) := by decide +kernel

theorem witness_GuardedFrames :
    (let s := up.set AGT_FAB_LINK.STATE 8 1
     s.clocked = true ∧ s.domOn 40 = true ∧ s.pwr.scarabHalted = false ∧ s.scarabCut .scarab 4 = false ∧ s.cmp.waiting = []) ∧
    (up.clocked = true ∧ up.admitted 3 = true ∧ up.scarabCut .scarab 4 = true ∧ 0x10000 ≤ 0x10000 ∧ 0x8FFFF < 0x90000 ∧ 0x4FFFF < 0x50000 ∧
     ¬(0x50000 < 0x50000) ∧ 0xFFFF < 0x10000 ∧ up.cmp.running = false) ∧
    (let s := guarding 0
     s.recordDue 31 = false ∧ s.cmp.running = true ∧ 31 ∈ s.outputs ∧ thas s.cmp.decided 31 = false ∧
     ({ s with pending := [.guardedBufferWrite .scarab 0x8EFFF [0] false] } : State).recordDue 31 = true ∧
     ({ s with pending := [.guardedBufferWrite .scarab 0x8F000 [0] false] } : State).recordDue 31 = false ∧
     (tget {} s.cmp.tracks (trackKey 0 31 0) : RecTrack).vals = none) ∧
    (let s : State := { guarding 0 with cmp := { (guarding 0).cmp with tracks := [(trackKey 0 31 0, { vals := some [0] })] } }
     s.get AGT_CMP_FRAME.INDEX 0 % 2 = 0 ∧ (tget {} s.cmp.tracks (trackKey 0 31 0) : RecTrack).vals = some [0] ∧
     (tget {} s.cmp.tracks (trackKey 1 31 0) : RecTrack).vals = none) ∧
    (∀ e ∈ [0, 0x3F800000], let t : Tab RecTrack := [(trackKey 0 31 0, { vals := some [0] }), (trackKey 1 31 0, { vals := some [e] })]
     let s : State := { guarding 0 with cmp := { (guarding 0).cmp with tracks := t } }
     (tget {} s.cmp.tracks (trackKey 0 31 0) : RecTrack).vals = some [0] ∧
     (tget {} s.cmp.tracks (trackKey 1 31 0) : RecTrack).vals = some [e] ∧
     ([0].zip [e]).all (fun p => s.agrees 31 p.1 p.2) = (e == 0)) ∧
    (let s : State := { guarding 0 with cmp := {} }
     s.guardedOn = true ∧ s.cmp.running = false ∧ (guarding 1).latched = true) := by decide +kernel

/-! ### Security -/

/-- Port 1 is idle, with a session open and a protected partition 15 of its owner. -/
def secured : State :=
  let w : Session := { id := 1, owner := 7, keys := 1, lastRequest := 0 }
  let s := (up.set AGT_SEC_MB_RSP.DONE 0 1).set AGT_SEC_MB_RSP.DONE 1 1
  { s with sec := { s.sec with sessions := [w], nonce := some 1, opening := some (7, 1), prots := [(15, { isProt := true, owner := 7 })],
                               slots := [(31, ⟨15, 0, 1⟩)] } }

/-- A ticket of an operation on port 1, at an end or running. -/
def ticketed (op : Nat) (args : List Nat) (ended : Option Bool) : State :=
  { secured with sec := { secured.sec with
      tickets := [{ id := 1, port := 1, op := op, session := some 1, args := args, ended := ended }], nextTicket := 2 } }

theorem witness_MailboxRequests :
    (∀ p ∈ [0, 1], up.clocked = true ∧ up.portReached p = true ∧ (up.set AGT_SEC_MB_RSP.DONE p 0).get AGT_SEC_MB_RSP.DONE p = 0 ∧
      (up.set AGT_SEC_MB_RSP.DONE p 1).get AGT_SEC_MB_RSP.DONE p ≠ 0) ∧
    (let s := secured
     s.get AGT_SEC_MB_RSP.DONE 1 ≠ 0 ∧ (s.sec.tickets.filter (fun k => k.port == 1)).length < 8 ∧ s.sec.debugNow = false ∧
     s.sec.opening = some (7, 1)) ∧
    (let k : Ticket := { id := 1, port := 1, op := 2, session := none }
     let s : State := { secured with sec := { secured.sec with tickets := List.replicate 8 k } }
     ¬(s.sec.tickets.filter (fun k => k.port == 1)).length < 8) ∧
    ((ticketed 2 [0] (some true)).sec.tickets.find? (fun v => v.port == 1 && v.id % 2 ^ 32 == 1)).bind (·.ended) = some true ∧
    ((ticketed 2 [0] none).sec.tickets.find? (fun v => v.port == 1 && v.id % 2 ^ 32 == 1)).isSome = true ∧
    (let a : Auth := { session := 1, counter := 1, tagOk := false }
     let b : Auth := { session := 1, counter := 3, tagOk := true }
     (∀ w, secured.sec.sessions.find? (fun w => w.id == a.session && w.port == 1) = some w → a.tagOk = false) ∧
     (secured.sec.sessions.find? (fun w => w.id == b.session && w.port == 1)).all (fun w => b.counter != w.counter + 1) = true ∧
     (secured.sec.sessions.find? (fun w => w.id == 1 && w.port == 1)).isSome = true) ∧
    (let s : State := { up with sec := { up.sec with answers := [(1, { ok := true })] } }
     tfind s.sec.answers 1 = some { ok := true }) := by
  refine ⟨by decide +kernel, by decide +kernel, by decide +kernel, by decide +kernel, by decide +kernel, ⟨fun _ _ => rfl, by decide +kernel⟩,
    by decide +kernel⟩

theorem witness_OwnerRequests :
    (let s := secured
     s.clocked = true ∧ s.portReached 1 = true ∧ s.get AGT_SEC_MB_RSP.DONE 1 ≠ 0 ∧
     (s.sec.tickets.filter (fun k => k.port == 1)).length < 8 ∧
     s.sec.sessions.find? (fun w => w.id == auth.session && w.port == 1) = some { id := 1, owner := 7, keys := 1, lastRequest := 0 } ∧
     auth.tagOk = true ∧ auth.counter = 0 + 1 ∧ s.protectOk 0 (protectBody [0]) = true ∧ leVal (([0] : List Byte).take 1) = 0 ∧
     (s.prot 15).isProt = true ∧ (s.prot 15).clearing = false ∧ (s.prot 15).owner = 7 ∧ s.sec.debugNow = false ∧
     tfind s.sec.slots 31 = some ⟨15, 0, 1⟩ ∧ s.sec.nonce.isSome = true ∧ s.dictCheck 16 none true 0x1000 0 = none ∧
     s.readable (regSpace 3 0) = true ∧ nodeOf (regSpace 3 0) ≠ 4 ∧ (List.replicate 64 (regSpace 3 0)).length ≤ 64) ∧
    (let s : State := { secured with sec := { secured.sec with prots := [(15, { isProt := true, owner := 7, base := [0, 0, 0, 2], size := [0, 0, 0, 1] })] } }
     let dst := glob 3 (2 * rangeUnit)
     let x := s.prot 15
     dst % 65536 = 0 ∧ nodeOf dst < 4 ∧ lget 0 x.base (nodeOf dst) * rangeUnit ≤ localOf dst ∧
     localOf dst + 65536 * 4096 ≤ (lget 0 x.base (nodeOf dst) + lget 0 x.size (nodeOf dst)) * rangeUnit) ∧
    (({ secured with sec := { secured.sec with prots := [] } } : State).sec.prots = []) ∧
    (let s := secured
     s.portReached 0 = true ∧ s.get AGT_SEC_MB_RSP.DONE 0 ≠ 0 ∧ s.fuses.debugDisable = false ∧ s.guardedOn = false ∧
     s.fuses.debugCount ≠ 255 ∧ s.fuseOk 3 false true = true) := by decide +kernel

theorem witness_TicketsAndClears :
    (∀ op ∈ [2, 4, 0x0D], let s := ticketed op [0] none
      s.clocked = true ∧ (s.sec.tickets.find? (fun v => v.id == 1 && v.ended.isNone)).isSome = true ∧ s.sec.debugNow = false ∧
      s.sec.sessions.length < 4) ∧
    (let k : Ticket := { id := 1, port := 1, op := 7, session := some 1, args := [15] }
     let s : State := { secured with sec := { secured.sec with tickets := [k], prots := [(15, { isProt := true, clearing := true })] } }
     s.sec.tickets.find? (fun v => v.id == 1 && v.ended.isNone) = some k ∧ k.op = 7 ∧ (s.prot (lget 0 k.args 0)).clearing = true ∧
     (s.ticketEffect k true).isNone = true) ∧
    (let s := atTime (ticketed 2 [0] (some true)) 4000000000
     ∃ v ∈ s.sec.tickets, v.id = 1 ∧ v.ended.isSome = true ∧ v.endTime + 4000000000 ≤ s.time.now) ∧
    (let w : Session := { id := 1, owner := 7, keys := 1, lastRequest := 0 }
     secured.sec.sessions.find? (fun v => v.id == 1) = some w ∧ w.lastRequest + 40000000000 ≤ (atTime secured 40000000000).time.now ∧
     (atTime secured 39999999999).time.now < w.lastRequest + 40000000000) ∧
    (let s : State := { secured with sec := { secured.sec with prots := [(15, { isProt := true, clearing := true })] } }
     (s.prot 15).clearing = true ∧ (s.prot 15).filling = false ∧ s.stepDone 6 = true ∧
     (∀ c, c < 512 → s.ctxPart c ≠ 15 ∨ s.ctxState c = 0) ∧
     (s.set AGT_FAB_STATUS.ADMITTED 0 7).admitted 3 = false) ∧
    (({ secured with sec := { secured.sec with prots := [(15, { filling := true })] } } : State).prot 15).filling = true := by
  decide +kernel

/-! ### Firmware and trims -/

/-- An image of component `i` with an empty payload and ACT_SEQ 1. -/
def image (i : Nat) : List Byte := leBytes 256 (0x4D4C4657 + fld 32 i + fld 96 1)

/-- Component 4 in a state. -/
def component4 (c : Component) : State := { up with bu := { up.bu with comps := [(4, c)] } }

theorem witness_FirmwareAndTrims :
    (∀ i ∈ [1, 2, 3, 4], up.clocked = true ∧ up.flashBusy = false ∧ (up.component i).state ≠ 1 ∧ (up.component i).state ≠ 3 ∧
      up.rollout = false ∧ up.imageOk i (image i) true = true ∧ up.imageOk i (image i) false = false ∧ (up.component i).running ≤ 1) ∧
    (let j : StoreJob := ⟨1, 3, [], .sideband, false⟩
     ({ up with dic := { up.dic with store := some j } } : State).flashBusy = true) ∧
    ((component4 { state := 1 }).component 4).state = 1 ∧
    (((component4 { state := 2 }).component 4).state = 2 ∧ (guarding 0).guardedOn = true ∧ (guarding 1).latched = true) ∧
    (let f : FwSlot := ⟨1, 1, [], []⟩
     let s := component4 { state := 3, slot1 := some f }
     (s.component 4).state = 3 ∧ ((s.component 4).slot (s.component 4).newest).isSome = true) ∧
    (let s := component4 { state := 3 }
     (s.component 4).state = 3 ∧ (s.component 4).slot0 = none ∧ (s.component 4).slot1 = none) ∧
    (31 < 32 ∧ up.domOn 42 = true ∧ up.reaches .mgmt 4 5 (32 * 31 + 0x10) = true ∧ (channel 1 0 0).rfxState 31 = 1 ∧
     up.rfxState 31 ≠ 1) := by decide +kernel

/-! ## One step each; the values expected are worked out by hand from the rules named -/

/-- The state after a command. -/
def after (c : Instr) (s : State) : State :=
  match exec c s with
  | .next t => t
  | _ => s

/-- The status and the result of the command of context 3. -/
def outcome (s : State) : Option (Status × Nat) := (s.cmd (3 * 2 ^ 32)).map (fun x => (x.status, x.result))

/-- bf16 1.5 and 2.0 as the first elements of A and B. -/
def operands (s : State) (a b : Nat) : State := (s.poke a [0xC0, 0x3F]).poke b [0x00, 0x40]

/-- R91: 1.5 × 2 = 3, of one product. -/
theorem test_matmul : (after (.matmul 0 {}) (operands (runs 0 (matBody 0)) 0x1800000000 0x1800001000)).bytes 0x1800002000 2 = [0x40, 0x40] := by
  decide +kernel

/-- R39: a scan writes nothing. -/
theorem test_scan_only :
    (after (.scanOnly 0 {}) (operands (runs 0 (matBody 2)) 0x1800000000 0x1800001000)).bytes 0x1800002000 2 = [0, 0] := by decide +kernel

/-- R110: a reserved bit is refused before anything is written. -/
theorem test_matmul_reserved :
    outcome (after (.matmul 0 {}) (operands (runs 0 (matBody 0 + fld 6 1)) 0x1800000000 0x1800001000)) = some (.badDescriptor, 0) := by
  decide +kernel

/-- R114: a convolution of one tap, and a maximum over one tap. -/
theorem test_conv : (after (.conv 0 {}) (operands (runs 0 (winBody 0)) 0x1800000000 0x1800001000)).bytes 0x1800002000 2 = [0x40, 0x40] := by
  decide +kernel
theorem test_pool_max : (after (.poolMax 0 {}) (operands (runs 0 (winBody 3)) 0x1800000000 0x1800001000)).bytes 0x1800002000 2 = [0xC0, 0x3F] := by
  decide +kernel

/-- R106: 1.5 + 2 = 3.5 where β is 1, and z is rounded once. -/
theorem test_vector_max : (after (.max 0 {}) (operands (runs 1 (vecBody 3)) 0x1800000000 0x1800010000)).bytes 0x1800020000 2 = [0x00, 0x40] := by
  decide +kernel
theorem test_vector_min : (after (.min 0 {}) (operands (runs 1 (vecBody 4)) 0x1800000000 0x1800010000)).bytes 0x1800020000 2 = [0xC0, 0x3F] := by
  decide +kernel

/-- R79: a poisoned operand poisons the destination. -/
theorem test_poison : let t := after (.max 0 {}) ((runs 1 (vecBody 3)).setPoison 0x1800000000 true)
    t.poisoned 0x1800020000 = true ∧ outcome t = some (.poisonedInput, 0) := by decide +kernel

/-- R156: with a = 0.5 and h = 2 before, b = 0 and x = 1: h = 1. The state is kept in fp32 at STATE_ADDR. -/
theorem test_scan :
    let b := fld 8 9 + fld 12 9 + fld 16 0xB + fld 23 1 + fld 128 0x1810000 + fld 160 0x1810010 + fld 224 0x1810030 + fld 256 0x1810040
    let s := ((runs 3 b).poke 0x1810010000 [0, 0, 0, 0x3F]).poke 0x1810040000 [0, 0, 0, 0x40]
    (after (.scan 0 {}) s).bytes 0x1810040000 4 = [0, 0, 0x80, 0x3F] := by decide +kernel

/-- R175: MAP with α = 2 and β = 0 through no gate. -/
theorem test_map :
    (after (.map 0 {}) ((runs 4 (gateBody 0 + fld 192 0x40000000)).poke 0x1810000000 [0xC0, 0x3F])).bytes 0x1810020000 2 = [0x40, 0x40] := by
  decide +kernel

/-- R188: the Cholesky factor of 4 is 2, its reciprocal 0.5. -/
theorem test_factor :
    let t := after (.factor 0 {}) ((runs 5 (solBody 0)).poke 0x1820000000 ([1] ++ List.replicate 63 0 ++ [0, 0, 0x80, 0x40]))
    t.bytes 0x1820000044 8 = [0, 0, 0, 0x40, 0, 0, 0, 0x3F] ∧ outcome t = some (.ok, 0) := by decide +kernel

/-- R72: COPY copies a tile and no more. -/
theorem test_copy : (after (.copy 3 0 {} []) ((moves (xferBody 0 0 0x10000)).poke 0xFFE [5, 6, 7])).bytes 0x10FFE 3 = [5, 6, 0] := by
  decide +kernel

/-- A dirty sector of T1 over T2 offset 0x10000. -/
def dirty (op : Nat) : State :=
  { (moves (xferBody op 0 0x10000)).poke (t1Home 0 3 16) [9] with t1 := [(t1Key 0 3 16, ⟨0, 1, 1⟩)] }

/-- R72: EVICT writes a dirty sector back; DISCARD loses it. -/
theorem test_evict : let t := after (.evict 3 0 {}) (dirty 3)
    t.bytes 0x10000 1 = [9] ∧ t.t1Find 0x10000 = none := by decide +kernel
theorem test_discard : let t := after (.discard 3 0) (dirty 4)
    t.bytes 0x10000 1 = [0] ∧ t.t1Find 0x10000 = none := by decide +kernel

/-- R81: a tile of T3 that does not come back within the T3_TIMEOUT of 200 × 10 µs; one cycle before, nothing happens. -/
theorem test_t3_timeout : let s := flying (xferBody 0 0 0x10000 + fld 6 1)
    outcome (after (.t3Timeout 3 0 0 []) (atTime s 8000000)) = some (.lowerTierTimeout, 0) ∧
    after (.t3Timeout 3 0 0 []) (atTime s 7999996) = atTime s 7999996 := by decide +kernel

/-- R144: KV_DROP of a RESIDENT entry with FILL 7 makes it DROPPED with TARGET 7; KV_PIN sets PIN alone. -/
theorem test_kv_drop : (after (.kvDrop 0 {}) ((runs 2 (kvBody 6)).poke 0 [1, 7])).ptEntry 0 0 = ⟨2, false, 7, 7, 0, 0⟩ := by decide +kernel
theorem test_kv_pin : (after (.kvPin 0 {}) ((runs 2 (kvBody 9 + fld 31 1)).poke 0 [2, 0, 5])).ptEntry 0 0 = ⟨2, true, 0, 5, 0, 0⟩ := by decide +kernel

/-- R148: KV_ALLOC without a page ends QUEUE_FULL with none changed. -/
theorem test_kv_alloc_full : outcome (after (.kvAlloc 0 {}) (kvState 3)) = some (.queueFull, 0) := by decide +kernel

/-- R289, R294: the first fetch takes SEQ 0 and advances SQ_HEAD. -/
theorem test_fetch : let t := after (.commandFetch 511 {}) ((published 1).set (mapValid 0) 511 1)
    t.sqHead 511 = 1 ∧ (t.ctx 511).nextSeq = 1 ∧ (t.ctx 511).reserved = 1 := by decide +kernel

/-- R287: HALT of an ACTIVE context; HALT of a DISABLED one sets CFG_ERR. -/
theorem test_halt : (after (.ctxHalt .pf0 511) (published 1)).ctxState 511 = 2 := by decide +kernel
theorem test_halt_disabled : (after (.ctxHalt .pf0 511) up).get AGT_SCHED_STATUS.CFG_ERR 0 = 1 := by decide +kernel

/-- R16: a command of a node that is not admitted. -/
theorem test_node_lost : outcome (after (.commandDispatch 0 1) (waits.set AGT_FAB_STATUS.ADMITTED 0 0xE)) = some (.nodeLost, 0) := by decide +kernel

/-- R251: by STEP and DIR, a step down from a count of 0 wraps; a level held for less than FILTER × 10 ns does nothing. -/
theorem test_encoder_wraps : let s := ((up.set AGT_ING_ENCCFG.ENABLE 7 1).set AGT_ING_ENCCFG.MODE 7 1).set AGT_ING_ENCCFG.FILTER 7 5
    (after (.encoderEdge 7 ⟨true, false, 200⟩) s).get AGT_ING_ENCCNT.COUNT 7 = 0xFFFFFFFF ∧ after (.encoderEdge 7 ⟨true, false, 199⟩) s = s := by
  decide +kernel

/-- R321: V_M at the upper threshold in phase ON drops RFX_GH; 1 nV below it nothing switches. -/
theorem test_crossing : let s := channelWith 1 0 { gh := true }
    (after (.comparatorCrossing 31 true 300000000 (-150000000)) s).get AGT_RFX_CH_STAT.PHASE 31 = 0 ∧
    (after (.comparatorCrossing 31 true 300000000 (-149999999)) s).get AGT_RFX_CH_STAT.PHASE 31 = 1 := by decide +kernel

/-- R325: an unconfigured channel cannot be armed, and FAILMASK names it. -/
theorem test_arm_fails : let t := after (.arm .pf0 (2 ^ 31)) up
    t.rfxState 31 = 0 ∧ t.get AGT_RFX_CMDSTAT.FAILMASK 0 = 2 ^ 31 := by decide +kernel

/-- R343: ADJ adds to OFFSET in mode 0, modulo 2^64. -/
theorem test_adj_wraps :
    (after (.adjWrite .pf0 2) ((servo 0 0).set AGT_TIME_OFFSET.OFFSET 0 (2 ^ 64 - 1))).get AGT_TIME_OFFSET.OFFSET 0 = 1 := by decide +kernel

/-- R340: a read of NOW answers package time. -/
theorem test_now : (after (.nowRead .pf0) (atTime up 77)).out = [.value 77] := by decide +kernel

/-- R359: a read of an object that does not exist, and a write of one that is read only. -/
theorem test_dict_absent : (after (.dictRead 0 0x5FFF 0 0) up).get AGT_UNC_DICT_ABORT.CODE 0 = 0x06020000 := by decide +kernel
theorem test_dict_read_only : (after (.dictWrite 0 0x1000 0 0) up).get AGT_UNC_DICT_ABORT.CODE 0 = 0x06010002 := by decide +kernel

/-- R364: of two writes in one slot the sideband's wins over the host's. -/
theorem test_slot :
    let s : State := { up with dic := { up.dic with slot := [slotWrite 2 25, slotWrite 3 40] } }
    (after (.slotEnd [] true) s).obj 30 0x3800 1 = 25 := by decide +kernel

/-- R380: a wrong identity is REFUSED. -/
theorem test_identity : ((after (.identityReadComplete 127 none) (position .checking)).sub 127).st = .refused := by decide +kernel

/-- R384: bus-off counts. -/
theorem test_bus_off : (after (.canBusOff 1) up).get AGT_NET_CANSTAT.BUSOFF_CNT 1 = 1 := by decide +kernel

/-- R407: the third heartbeat check without a change latches the safe state. -/
theorem test_heartbeat :
    let s : State := { guarding 0 with cmp := { (guarding 0).cmp with hbSame := 2 } }
    (after .heartbeatCheck s).latched = true := by decide +kernel

/-- R448: a loss of lock is counted, and a re-lock starts. -/
theorem test_loss_of_lock : let t := after .lossOfLock (up.set AGT_PWR_CLKSTAT.ROOT_LOCK 0 1)
    t.get AGT_PWR_CLKSTAT.RELOCK_CNT 0 = 1 ∧ t.relock = true := by decide +kernel

/-- R472: step 1 switches the domains asked for, parents first. -/
theorem test_domains : (after (.domains (2 ^ 44 + 2 ^ 34)) State.reset).pkg.switchPlan = [34] := by decide +kernel

/-- R482: a package reset leaves domain 32 alone on. -/
theorem test_package_reset : let t := after (.packageReset 0) up
    (List.range 44).filter t.domPowered = [32] := by decide +kernel

/-- R419, R436: a request of port 1 while DONE = 0 is ignored. -/
theorem test_mailbox_busy : (after (.getNonce 1) (up.set AGT_SEC_MB_RSP.DONE 1 0)).get AGT_SEC_MB_RSP.CFG_ERR 1 = 1 := by decide +kernel

/-- R490: an image whose header is not of the component is refused. -/
theorem test_image : ((after (.image .sideband 1 (image 2) true) up).component 1).state = 4 := by decide +kernel

end Sys2Proof.Tests
end

section
/-! PROOFS. The parts that each command leaves as they are: the bounds of Laws/Frame, read against `touches`. -/

namespace Sys2Proof.Machine

theorem allParts_num (p : Part) : allParts[p.num]? = some p := by cases p <;> rfl

theorem Part.num_lt (p : Part) : p.num < 29 := (List.getElem?_eq_some_iff.1 (allParts_num p)).1

theorem Part.num_inj {p q : Part} (h : p.num = q.num) : p = q :=
  Option.some.inj ((allParts_num p).symm.trans (h ▸ allParts_num q))

/-- The parts of the mask `k` that a list leaves out. -/
def restOf (k : Nat) (ps : List Part) : Nat := ps.foldl (fun m p => m &&& (2 ^ 29 - 1 ^^^ 2 ^ p.num)) k

theorem testBit_restOf {p : Part} {ps : List Part} (h : p ∉ ps) {k : Nat} : (restOf k ps).testBit p.num = k.testBit p.num := by
  induction ps generalizing k with
  | nil => rfl
  | cons q ps ih =>
    obtain ⟨hq, hps⟩ := not_or.1 (mt List.mem_cons.2 h)
    have hne : q.num ≠ p.num := fun e => hq (Part.num_inj e).symm
    calc (restOf (k &&& (2 ^ 29 - 1 ^^^ 2 ^ q.num)) ps).testBit p.num
      _ = (k &&& (2 ^ 29 - 1 ^^^ 2 ^ q.num)).testBit p.num := ih hps
      _ = k.testBit p.num := by
        rw [Nat.testBit_land, Nat.testBit_xor, Nat.testBit_two_pow_sub_one, Nat.testBit_two_pow_of_ne hne]
        simp [p.num_lt]

/-- A bound on what changed gives the frame for a list that names every part of the bound. -/
theorem OutWithin.frame {k : Nat} {s t : State} {o : Host.Outcome State Fault Refusal} {ps : List Part} (h : OutWithin k s o)
    (hk : restOf k ps = 0) (ho : o = .next t) : s.sameBut ps t :=
  ⟨(h.next t ho).queue, fun p hp => (h.next t ho).parts p (by rw [← testBit_restOf hp, hk, Nat.zero_testBit])⟩

/-- The frame of every command, each from what its function may change. -/
theorem exec_sameBut_touches {c : Instr} {s t : State} (h : exec c s = .next t) : s.sameBut (touches c) t := by
  cases c with
  | vddAonApply => exact (execVddAonApply_within (.self _) (.refl _ _)).frame rfl h
  | vddAonLoss => exact (execVddAonLoss_within (.self _) (.refl _ _)).frame rfl h
  | buResetNAssert => exact (execBuResetNAssert_within (.self _) (.refl _ _)).frame rfl h
  | buResetNDeassert => exact (execBuResetNDeassert_within (.self _) (.refl _ _)).frame rfl h
  | refclkLoss => exact (execRefclkLoss_within (.self _) (.refl _ _)).frame rfl h
  | registerWrite => exact (execRegisterWrite_within (.self _) (.refl _ _)).frame rfl h
  | domains => exact (execDomains_within (.self _) (.refl _ _)).frame rfl h
  | domainSwitchDone => exact (execDomainSwitchDone_within (.self _) (.refl _ _)).frame rfl h
  | rootPll => exact (execRootPll_within (.self _) (.refl _ _)).frame rfl h
  | fuseLoad => exact (execFuseLoad_within (.self _) (.refl _ _)).frame rfl h
  | startTest => exact (execStartTest_within (.self _) (.refl _ _)).frame rfl h
  | fmax => exact (execFmax_within (.self _) (.refl _ _)).frame rfl h
  | discover => exact (execDiscover_within (.self _) (.refl _ _)).frame rfl h
  | fwLoad => exact (execFwLoad_within (.self _) (.refl _ _)).frame rfl h
  | cfgLoad => exact (execCfgLoad_within (.self _) (.refl _ _)).frame rfl h
  | inject => exact (execInject_within (.self _) (.refl _ _)).frame rfl h
  | outputEnable => exact (execOutputEnable_within (.self _) (.refl _ _)).frame rfl h
  | buStepComplete => exact (execBuStepComplete_within (.self _) (.refl _ _)).frame rfl h
  | buQueuedRequestStart => exact (execBuQueuedRequestStart_within (.self _) (.refl _ _)).frame rfl h
  | domainRequest => exact (execDomainRequest_within (.self _) (.refl _ _)).frame rfl h
  | resetRequest => exact (execResetRequest_within (.self _) (.refl _ _)).frame rfl h
  | coreReset => exact (execCoreReset_within (.self _) (.refl _ _)).frame rfl h
  | dieReset => exact (execDieReset_within (.self _) (.refl _ _)).frame rfl h
  | partitionReset => exact (execPartitionReset_within (.self _) (.refl _ _)).frame rfl h
  | packageReset => exact (execPackageReset_within (.self _) (.refl _ _)).frame rfl h
  | resetDrainTimeout => exact (execResetDrainTimeout_within (.self _) (.refl _ _)).frame rfl h
  | resetComplete => exact (execResetComplete_within (.self _) (.refl _ _)).frame rfl h
  | shutdown => exact (execShutdown_within (.self _) (.refl _ _)).frame rfl h
  | quiesceEnd => exact (execQuiesceEnd_within (.self _) (.refl _ _)).frame rfl h
  | regionBistComplete => exact (execRegionBistComplete_within (.self _) (.refl _ _)).frame rfl h
  | shutdownOff => exact (execShutdownOff_within (.self _) (.refl _ _)).frame rfl h
  | shutdownAbort => exact (execShutdownAbort_within (.self _) (.refl _ _)).frame rfl h
  | copy => exact (execCopy_within (.self _) (.refl _ _)).frame rfl h
  | broadcastCopy => exact (execBroadcastCopy_within (.self _) (.refl _ _)).frame rfl h
  | fill => exact (execFill_within (.self _) (.refl _ _)).frame rfl h
  | flush => exact (execFlush_within (.self _) (.refl _ _)).frame rfl h
  | evict => exact (execEvict_within (.self _) (.refl _ _)).frame rfl h
  | discard => exact (execDiscard_within (.self _) (.refl _ _)).frame rfl h
  | prefetch => exact (execPrefetch_within (.self _) (.refl _ _)).frame rfl h
  | wayflush => exact (execWayflush_within (.self _) (.refl _ _)).frame rfl h
  | tileStart => exact (execTileStart_within (.self _) (.refl _ _)).frame rfl h
  | tileComplete => exact (execTileComplete_within (.self _) (.refl _ _)).frame rfl h
  | t3Timeout => exact (execT3Timeout_within (.self _) (.refl _ _)).frame rfl h
  | patrolScrub => exact (execPatrolScrub_within (.self _) (.refl _ _)).frame rfl h
  | waymodeWrite => exact (execWaymodeWrite_within (.self _) (.refl _ _)).frame rfl h
  | matmul => exact (execMatmul_within (.self _) (.refl _ _)).frame rfl h
  | scanOnly => exact (execScanOnly_within (.self _) (.refl _ _)).frame rfl h
  | conv => exact (execConv_within (.self _) (.refl _ _)).frame rfl h
  | dwconv => exact (execDwconv_within (.self _) (.refl _ _)).frame rfl h
  | poolAvg => exact (execPoolAvg_within (.self _) (.refl _ _)).frame rfl h
  | poolMax => exact (execPoolMax_within (.self _) (.refl _ _)).frame rfl h
  | tconv => exact (execTconv_within (.self _) (.refl _ _)).frame rfl h
  | relayout => exact (execRelayout_within (.self _) (.refl _ _)).frame rfl h
  | add => exact (execAdd_within (.self _) (.refl _ _)).frame rfl h
  | mul => exact (execMul_within (.self _) (.refl _ _)).frame rfl h
  | fma => exact (execFma_within (.self _) (.refl _ _)).frame rfl h
  | max => exact (execMax_within (.self _) (.refl _ _)).frame rfl h
  | min => exact (execMin_within (.self _) (.refl _ _)).frame rfl h
  | cvt => exact (execCvt_within (.self _) (.refl _ _)).frame rfl h
  | act => exact (execAct_within (.self _) (.refl _ _)).frame rfl h
  | rsum => exact (execRsum_within (.self _) (.refl _ _)).frame rfl h
  | rmax => exact (execRmax_within (.self _) (.refl _ _)).frame rfl h
  | softmax => exact (execSoftmax_within (.self _) (.refl _ _)).frame rfl h
  | rmsnorm => exact (execRmsnorm_within (.self _) (.refl _ _)).frame rfl h
  | layernorm => exact (execLayernorm_within (.self _) (.refl _ _)).frame rfl h
  | padd => exact (execPadd_within (.self _) (.refl _ _)).frame rfl h
  | pround => exact (execPround_within (.self _) (.refl _ _)).frame rfl h
  | issuecapWrite => exact (execIssuecapWrite_within (.self _) (.refl _ _)).frame rfl h
  | score => exact (execScore_within (.self _) (.refl _ _)).frame rfl h
  | value => exact (execValue_within (.self _) (.refl _ _)).frame rfl h
  | kvWrite => exact (execKvWrite_within (.self _) (.refl _ _)).frame rfl h
  | kvAlloc => exact (execKvAlloc_within (.self _) (.refl _ _)).frame rfl h
  | kvMark => exact (execKvMark_within (.self _) (.refl _ _)).frame rfl h
  | kvSeal => exact (execKvSeal_within (.self _) (.refl _ _)).frame rfl h
  | kvDrop => exact (execKvDrop_within (.self _) (.refl _ _)).frame rfl h
  | kvFree => exact (execKvFree_within (.self _) (.refl _ _)).frame rfl h
  | kvAdopt => exact (execKvAdopt_within (.self _) (.refl _ _)).frame rfl h
  | kvPin => exact (execKvPin_within (.self _) (.refl _ _)).frame rfl h
  | kvpoolWrite => exact (execKvpoolWrite_within (.self _) (.refl _ _)).frame rfl h
  | kvpoolInitDone => exact (execKvpoolInitDone_within (.self _) (.refl _ _)).frame rfl h
  | biasTableWrite => exact (execBiasTableWrite_within (.self _) (.refl _ _)).frame rfl h
  | scan => exact (execScan_within (.self _) (.refl _ _)).frame rfl h
  | streamOpen => exact (execStreamOpen_within (.self _) (.refl _ _)).frame rfl h
  | streamClose => exact (execStreamClose_within (.self _) (.refl _ _)).frame rfl h
  | streamDoorbell => exact (execStreamDoorbell_within (.self _) (.refl _ _)).frame rfl h
  | streamStep => exact (execStreamStep_within (.self _) (.refl _ _)).frame rfl h
  | streamStepComplete => exact (execStreamStepComplete_within (.self _) (.refl _ _)).frame rfl h
  | map => exact (execMap_within (.self _) (.refl _ _)).frame rfl h
  | gmul => exact (execGmul_within (.self _) (.refl _ _)).frame rfl h
  | decay => exact (execDecay_within (.self _) (.refl _ _)).frame rfl h
  | gateTableWrite => exact (execGateTableWrite_within (.self _) (.refl _ _)).frame rfl h
  | factor => exact (execFactor_within (.self _) (.refl _ _)).frame rfl h
  | solve => exact (execSolve_within (.self _) (.refl _ _)).frame rfl h
  | update => exact (execUpdate_within (.self _) (.refl _ _)).frame rfl h
  | trsolve => exact (execTrsolve_within (.self _) (.refl _ _)).frame rfl h
  | integrate => exact (execIntegrate_within (.self _) (.refl _ _)).frame rfl h
  | commit => exact (execCommit_within (.self _) (.refl _ _)).frame rfl h
  | commitWaitEnd => exact (execCommitWaitEnd_within (.self _) (.refl _ _)).frame rfl h
  | point => exact (execPoint_within (.self _) (.refl _ _)).frame rfl h
  | edge => exact (execEdge_within (.self _) (.refl _ _)).frame rfl h
  | repair => exact (execRepair_within (.self _) (.refl _ _)).frame rfl h
  | tree => exact (execTree_within (.self _) (.refl _ _)).frame rfl h
  | roadmap => exact (execRoadmap_within (.self _) (.refl _ _)).frame rfl h
  | prim => exact (execPrim_within (.self _) (.refl _ _)).frame rfl h
  | mapcfgWrite => exact (execMapcfgWrite_within (.self _) (.refl _ _)).frame rfl h
  | mapInitDone => exact (execMapInitDone_within (.self _) (.refl _ _)).frame rfl h
  | commandFetch => exact (execCommandFetch_within (.self _) (.refl _ _)).frame rfl h
  | sqFetchFail => exact (execSqFetchFail_within (.self _) (.refl _ _)).frame rfl h
  | commandDispatch => exact (execCommandDispatch_within (.self _) (.refl _ _)).frame rfl h
  | preemptionPoint => exact (execPreemptionPoint_within (.self _) (.refl _ _)).frame rfl h
  | commandComplete => exact (execCommandComplete_within (.self _) (.refl _ _)).frame rfl h
  | t0Switch => exact (execT0Switch_within (.self _) (.refl _ _)).frame rfl h
  | t0SwitchComplete => exact (execT0SwitchComplete_within (.self _) (.refl _ _)).frame rfl h
  | ctxDb => exact (execCtxDb_within (.self _) (.refl _ _)).frame rfl h
  | ctxEnable => exact (execCtxEnable_within (.self _) (.refl _ _)).frame rfl h
  | ctxHalt => exact (execCtxHalt_within (.self _) (.refl _ _)).frame rfl h
  | ctxResume => exact (execCtxResume_within (.self _) (.refl _ _)).frame rfl h
  | ctxAbort => exact (execCtxAbort_within (.self _) (.refl _ _)).frame rfl h
  | ctxDisable => exact (execCtxDisable_within (.self _) (.refl _ _)).frame rfl h
  | evqWrite => exact (execEvqWrite_within (.self _) (.refl _ _)).frame rfl h
  | partCfgWrite => exact (execPartCfgWrite_within (.self _) (.refl _ _)).frame rfl h
  | rsvWrite => exact (execRsvWrite_within (.self _) (.refl _ _)).frame rfl h
  | packetCrcError => exact (execPacketCrcError_within (.self _) (.refl _ _)).frame rfl h
  | linkDown => exact (execLinkDown_within (.self _) (.refl _ _)).frame rfl h
  | packetAuthFail => exact (execPacketAuthFail_within (.self _) (.refl _ _)).frame rfl h
  | heartbeatSend => exact (execHeartbeatSend_within (.self _) (.refl _ _)).frame rfl h
  | heartbeatAnswer => exact (execHeartbeatAnswer_within (.self _) (.refl _ _)).frame rfl h
  | lossTimeout => exact (execLossTimeout_within (.self _) (.refl _ _)).frame rfl h
  | uncoreFatal => exact (execUncoreFatal_within (.self _) (.refl _ _)).frame rfl h
  | fence => exact (execFence_within (.self _) (.refl _ _)).frame rfl h
  | fenceDrainEnd => exact (execFenceDrainEnd_within (.self _) (.refl _ _)).frame rfl h
  | admitDie => exact (execAdmitDie_within (.self _) (.refl _ _)).frame rfl h
  | epochRelease => exact (execEpochRelease_within (.self _) (.refl _ _)).frame rfl h
  | csiFrameStart => exact (execCsiFrameStart_within (.self _) (.refl _ _)).frame rfl h
  | csiFrameEnd => exact (execCsiFrameEnd_within (.self _) (.refl _ _)).frame rfl h
  | frameReady => exact (execFrameReady_within (.self _) (.refl _ _)).frame rfl h
  | frameMissing => exact (execFrameMissing_within (.self _) (.refl _ _)).frame rfl h
  | claim => exact (execClaim_within (.self _) (.refl _ _)).frame rfl h
  | releaseBuffer => exact (execReleaseBuffer_within (.self _) (.refl _ _)).frame rfl h
  | exclude => exact (execExclude_within (.self _) (.refl _ _)).frame rfl h
  | readmit => exact (execReadmit_within (.self _) (.refl _ _)).frame rfl h
  | camcfgWrite => exact (execCamcfgWrite_within (.self _) (.refl _ _)).frame rfl h
  | snap => exact (execSnap_within (.self _) (.refl _ _)).frame rfl h
  | snapHeldRun => exact (execSnapHeldRun_within (.self _) (.refl _ _)).frame rfl h
  | imuDrdy => exact (execImuDrdy_within (.self _) (.refl _ _)).frame rfl h
  | imuBurstComplete => exact (execImuBurstComplete_within (.self _) (.refl _ _)).frame rfl h
  | imucfgWrite => exact (execImucfgWrite_within (.self _) (.refl _ _)).frame rfl h
  | encoderEdge => exact (execEncoderEdge_within (.self _) (.refl _ _)).frame rfl h
  | egoTick => exact (execEgoTick_within (.self _) (.refl _ _)).frame rfl h
  | egoEval => exact (execEgoEval_within (.self _) (.refl _ _)).frame rfl h
  | egocfgWrite => exact (execEgocfgWrite_within (.self _) (.refl _ _)).frame rfl h
  | apply => exact (execApply_within (.self _) (.refl _ _)).frame rfl h
  | sampleBoundary => exact (execSampleBoundary_within (.self _) (.refl _ _)).frame rfl h
  | comparatorCrossing => exact (execComparatorCrossing_within (.self _) (.refl _ _)).frame rfl h
  | switchBlockEnd => exact (execSwitchBlockEnd_within (.self _) (.refl _ _)).frame rfl h
  | deadtimeEnd => exact (execDeadtimeEnd_within (.self _) (.refl _ _)).frame rfl h
  | crowbarTrip => exact (execCrowbarTrip_within (.self _) (.refl _ _)).frame rfl h
  | desatTrip => exact (execDesatTrip_within (.self _) (.refl _ _)).frame rfl h
  | spEdge => exact (execSpEdge_within (.self _) (.refl _ _)).frame rfl h
  | spLost => exact (execSpLost_within (.self _) (.refl _ _)).frame rfl h
  | arm => exact (execArm_within (.self _) (.refl _ _)).frame rfl h
  | disarm => exact (execDisarm_within (.self _) (.refl _ _)).frame rfl h
  | rearm => exact (execRearm_within (.self _) (.refl _ _)).frame rfl h
  | swap => exact (execSwap_within (.self _) (.refl _ _)).frame rfl h
  | brlChTrimWrite => exact (execBrlChTrimWrite_within (.self _) (.refl _ _)).frame rfl h
  | nowRead => exact (execNowRead_within (.self _) (.refl _ _)).frame rfl h
  | ptpSample => exact (execPtpSample_within (.self _) (.refl _ _)).frame rfl h
  | swsample => exact (execSwsample_within (.self _) (.refl _ _)).frame rfl h
  | modeWrite => exact (execModeWrite_within (.self _) (.refl _ _)).frame rfl h
  | masterWrite => exact (execMasterWrite_within (.self _) (.refl _ _)).frame rfl h
  | accept => exact (execAccept_within (.self _) (.refl _ _)).frame rfl h
  | holdoverTimeout => exact (execHoldoverTimeout_within (.self _) (.refl _ _)).frame rfl h
  | rateWrite => exact (execRateWrite_within (.self _) (.refl _ _)).frame rfl h
  | adjWrite => exact (execAdjWrite_within (.self _) (.refl _ _)).frame rfl h
  | txTimestampPoint => exact (execTxTimestampPoint_within (.self _) (.refl _ _)).frame rfl h
  | txtsqRead => exact (execTxtsqRead_within (.self _) (.refl _ _)).frame rfl h
  | ppsPulse => exact (execPpsPulse_within (.self _) (.refl _ _)).frame rfl h
  | dictRead => exact (execDictRead_within (.self _) (.refl _ _)).frame rfl h
  | dictWrite => exact (execDictWrite_within (.self _) (.refl _ _)).frame rfl h
  | usdoRequest => exact (execUsdoRequest_within (.self _) (.refl _ _)).frame rfl h
  | coeSdoRequest => exact (execCoeSdoRequest_within (.self _) (.refl _ _)).frame rfl h
  | safetyDictRequest => exact (execSafetyDictRequest_within (.self _) (.refl _ _)).frame rfl h
  | slotEnd => exact (execSlotEnd_within (.self _) (.refl _ _)).frame rfl h
  | storeParameters => exact (execStoreParameters_within (.self _) (.refl _ _)).frame rfl h
  | storeComplete => exact (execStoreComplete_within (.self _) (.refl _ _)).frame rfl h
  | restoreDefaults => exact (execRestoreDefaults_within (.self _) (.refl _ _)).frame rfl h
  | hostDown => exact (execHostDown_within (.self _) (.refl _ _)).frame rfl h
  | flr => exact (execFlr_within (.self _) (.refl _ _)).frame rfl h
  | ecatCycleStart => exact (execEcatCycleStart_within (.self _) (.refl _ _)).frame rfl h
  | ecatFrameReturn => exact (execEcatFrameReturn_within (.self _) (.refl _ _)).frame rfl h
  | ecatReturnLimit => exact (execEcatReturnLimit_within (.self _) (.refl _ _)).frame rfl h
  | ecatLinkLoss => exact (execEcatLinkLoss_within (.self _) (.refl _ _)).frame rfl h
  | subdeviceAnswer => exact (execSubdeviceAnswer_within (.self _) (.refl _ _)).frame rfl h
  | identityReadComplete => exact (execIdentityReadComplete_within (.self _) (.refl _ _)).frame rfl h
  | retryExpire => exact (execRetryExpire_within (.self _) (.refl _ _)).frame rfl h
  | recheck => exact (execRecheck_within (.self _) (.refl _ _)).frame rfl h
  | mbxRead => exact (execMbxRead_within (.self _) (.refl _ _)).frame rfl h
  | mbxWrite => exact (execMbxWrite_within (.self _) (.refl _ _)).frame rfl h
  | mbxResponse => exact (execMbxResponse_within (.self _) (.refl _ _)).frame rfl h
  | mbxTimeout => exact (execMbxTimeout_within (.self _) (.refl _ _)).frame rfl h
  | feedWriteComplete => exact (execFeedWriteComplete_within (.self _) (.refl _ _)).frame rfl h
  | canBusOff => exact (execCanBusOff_within (.self _) (.refl _ _)).frame rfl h
  | canBusOffRecovery => exact (execCanBusOffRecovery_within (.self _) (.refl _ _)).frame rfl h
  | canHeartbeat => exact (execCanHeartbeat_within (.self _) (.refl _ _)).frame rfl h
  | txDoorbell => exact (execTxDoorbell_within (.self _) (.refl _ _)).frame rfl h
  | ethFrameReceive => exact (execEthFrameReceive_within (.self _) (.refl _ _)).frame rfl h
  | hbWrite => exact (execHbWrite_within (.self _) (.refl _ _)).frame rfl h
  | heartbeatCheck => exact (execHeartbeatCheck_within (.self _) (.refl _ _)).frame rfl h
  | safeLineEdge => exact (execSafeLineEdge_within (.self _) (.refl _ _)).frame rfl h
  | guardedFrameStart => exact (execGuardedFrameStart_within (.self _) (.refl _ _)).frame rfl h
  | guardedBufferWrite => exact (execGuardedBufferWrite_within (.self _) (.refl _ _)).frame rfl h
  | outputDeadline => exact (execOutputDeadline_within (.self _) (.refl _ _)).frame rfl h
  | latchReq => exact (execLatchReq_within (.self _) (.refl _ _)).frame rfl h
  | release => exact (execRelease_within (.self _) (.refl _ _)).frame rfl h
  | getCert => exact (execGetCert_within (.self _) (.refl _ _)).frame rfl h
  | attest => exact (execAttest_within (.self _) (.refl _ _)).frame rfl h
  | sessionOpen => exact (execSessionOpen_within (.self _) (.refl _ _)).frame rfl h
  | sessionFinish => exact (execSessionFinish_within (.self _) (.refl _ _)).frame rfl h
  | sessionClose => exact (execSessionClose_within (.self _) (.refl _ _)).frame rfl h
  | partProtect => exact (execPartProtect_within (.self _) (.refl _ _)).frame rfl h
  | partRelease => exact (execPartRelease_within (.self _) (.refl _ _)).frame rfl h
  | clearStart => exact (execClearStart_within (.self _) (.refl _ _)).frame rfl h
  | clearComplete => exact (execClearComplete_within (.self _) (.refl _ _)).frame rfl h
  | keyImport => exact (execKeyImport_within (.self _) (.refl _ _)).frame rfl h
  | keyDestroy => exact (execKeyDestroy_within (.self _) (.refl _ _)).frame rfl h
  | modelLoad => exact (execModelLoad_within (.self _) (.refl _ _)).frame rfl h
  | collect => exact (execCollect_within (.self _) (.refl _ _)).frame rfl h
  | getNonce => exact (execGetNonce_within (.self _) (.refl _ _)).frame rfl h
  | debugEnable => exact (execDebugEnable_within (.self _) (.refl _ _)).frame rfl h
  | cfgkeyFuse => exact (execCfgkeyFuse_within (.self _) (.refl _ _)).frame rfl h
  | defectClear => exact (execDefectClear_within (.self _) (.refl _ _)).frame rfl h
  | dict => exact (execDict_within (.self _) (.refl _ _)).frame rfl h
  | regread => exact (execRegread_within (.self _) (.refl _ _)).frame rfl h
  | mailboxAnswer => exact (execMailboxAnswer_within (.self _) (.refl _ _)).frame rfl h
  | ticketOpComplete => exact (execTicketOpComplete_within (.self _) (.refl _ _)).frame rfl h
  | ticketExpire => exact (execTicketExpire_within (.self _) (.refl _ _)).frame rfl h
  | sessionTimeout => exact (execSessionTimeout_within (.self _) (.refl _ _)).frame rfl h
  | deniedResponse => exact (execDeniedResponse_within (.self _) (.refl _ _)).frame rfl h
  | lossOfLock => exact (execLossOfLock_within (.self _) (.refl _ _)).frame rfl h
  | pllLock => exact (execPllLock_within (.self _) (.refl _ _)).frame rfl h
  | dividerRestart => exact (execDividerRestart_within (.self _) (.refl _ _)).frame rfl h
  | relockTimeout => exact (execRelockTimeout_within (.self _) (.refl _ _)).frame rfl h
  | powerSample => exact (execPowerSample_within (.self _) (.refl _ _)).frame rfl h
  | pmbAlert => exact (execPmbAlert_within (.self _) (.refl _ _)).frame rfl h
  | avsStepComplete => exact (execAvsStepComplete_within (.self _) (.refl _ _)).frame rfl h
  | matrixIdleTimeout => exact (execMatrixIdleTimeout_within (.self _) (.refl _ _)).frame rfl h
  | hintWrite => exact (execHintWrite_within (.self _) (.refl _ _)).frame rfl h
  | hintExpire => exact (execHintExpire_within (.self _) (.refl _ _)).frame rfl h
  | thermalEval => exact (execThermalEval_within (.self _) (.refl _ _)).frame rfl h
  | throttleStep => exact (execThrottleStep_within (.self _) (.refl _ _)).frame rfl h
  | image => exact (execImage_within (.self _) (.refl _ _)).frame rfl h
  | imageStageComplete => exact (execImageStageComplete_within (.self _) (.refl _ _)).frame rfl h
  | activate => exact (execActivate_within (.self _) (.refl _ _)).frame rfl h
  | activateComplete => exact (execActivateComplete_within (.self _) (.refl _ _)).frame rfl h
  | admitComplete => exact (execAdmitComplete_within (.self _) (.refl _ _)).frame rfl h
  | vddIo18Loss => exact (execVddIo18Loss_within (.self _) (.refl _ _)).frame rfl h
  | vddIo18Apply => exact (execVddIo18Apply_within (.self _) (.refl _ _)).frame rfl h
  | srdoTransmit => exact (execSrdoTransmit_within (.self _) (.refl _ _)).frame rfl h

end Sys2Proof.Machine
end

section
/-! PROOFS. The order of R31 (O13). -/

namespace Sys2Proof

theorem Status.first_eq (a b : Status) : a.first b = b ∨ a.first b = a := ite_eq_or_eq _ _ _

theorem Status.rank_first (a b : Status) : (a.first b).rank = min a.rank b.rank := by
  unfold Status.first
  split <;> omega

theorem Status.ok_first (st : Status) : Status.ok.first st = st := by cases st <;> rfl

end Sys2Proof

namespace Sys2Proof.Machine

theorem foldl_first_mem (l : List Status) (a : Status) : l.foldl Status.first a ∈ a :: l := by
  induction l generalizing a with
  | nil => exact List.mem_singleton_self a
  | cons b l ih =>
    rw [List.foldl_cons]
    rcases a.first_eq b with e | e <;> rw [e]
    · exact List.mem_cons_of_mem a (ih b)
    · exact ((List.sublist_cons_self b l).cons_cons a).subset (ih a)

theorem rank_foldl_first_le {l : List Status} {a st : Status} (h : st ∈ a :: l) : (l.foldl Status.first a).rank ≤ st.rank := by
  induction l generalizing a st with
  | nil => exact (congrArg Status.rank (List.mem_singleton.1 h)).ge
  | cons b l ih =>
    rw [List.foldl_cons]
    have hfirst := ih (st := a.first b) List.mem_cons_self
    rw [a.rank_first b] at hfirst
    rcases List.mem_cons.1 h with rfl | h
    · omega
    · rcases List.mem_cons.1 h with rfl | h
      · omega
      · exact ih (List.mem_cons_of_mem _ h)

/-- The fold may start from the first status of the list: OK comes last in R31. -/
theorem pickStatus_cons (st : Status) (l : List Status) : pickStatus (st :: l) = l.foldl Status.first st := by
  rw [pickStatus, List.foldl_cons, Status.ok_first]

theorem pickStatus_mem {l : List Status} (h : l ≠ []) : pickStatus l ∈ l := by
  obtain ⟨st, l, rfl⟩ := List.exists_cons_of_ne_nil h
  rw [pickStatus_cons]
  exact foldl_first_mem l st

theorem rank_pickStatus_le {l : List Status} {st : Status} (h : st ∈ l) : (pickStatus l).rank ≤ st.rank :=
  rank_foldl_first_le (List.mem_cons_of_mem _ h)

/-- The statuses in the order of R31, the first the one that is reported. -/
def statusOrder : List Status :=
  [.denied, .safeStateLatched, .nodeLost, .queueFull, .badDescriptor, .badLayout, .superseded, .preempted, .tileUncorrectable,
   .lowerTierTimeout, .poisonedInput, .pageDropped, .deadlineMissed, .outputInvalidated, .linkDegraded, .staleEpoch, .okSaturated,
   .okRegularised, .ok]

theorem idxOf_statusOrder (st : Status) : statusOrder.idxOf st = st.rank := by cases st <;> rfl

theorem mem_statusOrder (st : Status) : st ∈ statusOrder := by cases st <;> decide

/-- Settles O13: the place of a status in the order of R31 is its rank, and the fold of `pickStatus` keeps a status of least rank. -/
theorem statusPrecedence : Obligations.StatusPrecedence := by
  unfold Obligations.StatusPrecedence
  refine ⟨mem_statusOrder, by decide, fun l hl => ⟨pickStatus_mem hl, fun st hst => ?_⟩⟩
  have hrank := rank_pickStatus_le hst
  rwa [← idxOf_statusOrder, ← idxOf_statusOrder] at hrank

end Sys2Proof.Machine
end

section
/-! PROOFS. Domain 32 stays on while VDD_AON is present (R24, O42). -/

namespace Sys2Proof.Machine

variable {s t : State}

/-! ## R24 as a property of a state -/

/-- R24: with VDD_AON present domain 32 is on, and no request in progress is about to switch it. -/
def State.aonOn (s : State) : Prop := s.pkg.vddAon = true → s.domPowered 32 = true ∧ 32 ∉ s.pkg.switchPlan

/-- Every part but `pkg`, which alone `State.aonOn` speaks of. -/
def butPkg : Nat := 2 ^ 29 - 1 - 2 ^ 11

theorem State.aonOn.of_pkg (hs : s.aonOn) (h : t.pkg = s.pkg) : t.aonOn := by
  unfold State.aonOn State.domPowered
  rwa [h]

/-- A change of other parts keeps R24. -/
theorem State.aonOn.keep (hs : s.aonOn) (h : Within butPkg s t) : t.aonOn := hs.of_pkg (h.parts .pkg rfl)

/-- A change of `pkg` keeps R24 where the supply and domain 32 stay as they are and no new plan names the domain. -/
theorem State.aonOn.of_plan (hs : s.aonOn) (hv : t.pkg.vddAon = s.pkg.vddAon) (hd : t.domPowered 32 = s.domPowered 32)
    (hp : s.domPowered 32 = true → 32 ∉ s.pkg.switchPlan → 32 ∉ t.pkg.switchPlan) : t.aonOn := by
  intro hvt
  obtain ⟨hon, hplan⟩ := hs (hv ▸ hvt)
  exact ⟨hd.trans hon, hp hon hplan⟩

theorem State.aonOn.next_ne {d : Nat} {rest : List Nat} (hs : s.aonOn) (hplan : s.pkg.switchPlan = d :: rest)
    (hv : s.pkg.vddAon = true) : d ≠ 32 :=
  fun e => (hs hv).2 (hplan ▸ e ▸ List.mem_cons_self)

/-- The state of an outcome that answers one meets R24. -/
def OutAonOn (o : Host.Outcome State Fault Refusal) : Prop := ∀ t, o = .next t → t.aonOn

theorem OutAonOn.ofNext (h : t.aonOn) : OutAonOn (.next t) := fun _ e => by cases e; exact h

theorem OutAonOn.onClock {o : Host.Outcome State Fault Refusal} (hs : s.aonOn) (ho : OutAonOn o) : OutAonOn (s.onClock o) := by
  unfold State.onClock
  split
  · exact ho
  · exact .ofNext hs

theorem settled_aonOn {o : Host.Outcome State Fault Refusal} (hs : s.aonOn) (ho : OutAonOn o) : (settled s o).aonOn := by
  cases o with
  | next t => exact ho t rfl
  | fault _ => exact hs
  | refused _ => exact hs

theorem OutAonOn.keep {o : Host.Outcome State Fault Refusal} (hs : s.aonOn) (h : OutWithin butPkg s o) : OutAonOn o :=
  fun t e => hs.keep (h.next t e)

theorem OutAonOn.ite {c : Prop} [Decidable c] {a b : Host.Outcome State Fault Refusal} (ha : OutAonOn a) (hb : OutAonOn b) :
    OutAonOn (if c then a else b) := by
  split
  · exact ha
  · exact hb

/-! ## Switching domains -/

theorem State.domPowered_setDom_ne {d e : Nat} {v : DomState} (h : e ≠ d) : (s.setDom d v).domPowered e = s.domPowered e := by
  unfold State.domPowered State.setDom
  rw [tget_tput_ne h]

theorem State.setDom_aonOn {d : Nat} {v : DomState} (hs : s.aonOn) (hd : s.pkg.vddAon = true → d ≠ 32) : (s.setDom d v).aonOn := by
  intro hv
  obtain ⟨hon, hplan⟩ := hs hv
  exact ⟨(State.domPowered_setDom_ne (hd hv).symm).trans hon, hplan⟩

theorem State.setDom_on_aonOn {d : Nat} (hs : s.aonOn) : (s.setDom d .on).aonOn := by
  by_cases hd : d = 32
  · subst hd
    intro hv
    exact ⟨by simp [State.domPowered, State.setDom], (hs hv).2⟩
  · exact State.setDom_aonOn hs fun _ => hd

theorem State.loseDomain_pkg (s : State) (d : Nat) : (s.loseDomain d).pkg = s.pkg :=
  (State.loseDomain_within (k := butPkg) rfl (.refl _ s)).parts .pkg rfl

theorem State.loseDomain_aonOn {d : Nat} (hs : s.aonOn) : (s.loseDomain d).aonOn := hs.keep (State.loseDomain_within rfl (.refl _ _))

/-- Of the package, a domain that has come on changes its own state alone. -/
theorem State.domainUp_pkg (s : State) (d : Nat) : (s.domainUp d).pkg = (s.setDom d .on).pkg := by
  unfold State.domainUp
  extract_lets s0 s1
  have h1 : Within butPkg s0 s1 := by
    unfold s1
    split
    · exact State.resetReflex_within rfl (.refl _ _)
    · split
      · exact State.resetBeryl_within rfl (.refl _ _)
      · exact .refl _ _
  suffices h : Within butPkg s0 _ from h.parts .pkg rfl
  split
  · exact State.loadClocks_within rfl h1
  · split
    · exact .plru (k := butPkg) rfl h1 _
    · split
      · exact State.setPwr_within rfl h1
      · exact h1

theorem State.domainUp_aonOn {d : Nat} (hs : s.aonOn) : (s.domainUp d).aonOn := by
  have h := State.setDom_on_aonOn (d := d) hs
  unfold State.aonOn State.domPowered at h ⊢
  rwa [State.domainUp_pkg]

theorem bit_of_mem_parentsFirst {d m : Nat} (h : d ∈ parentsFirst m) : bit m d = true := by
  obtain ⟨k, -, hk⟩ := List.mem_flatMap.1 h
  exact (List.mem_filter.1 (List.mem_filter.1 hk).1).2

/-- No request that is accepted plans to switch domain 32: it is on already, and a request to switch it off is refused (R24). -/
theorem State.not_mem_switchPlanFor {mask : Nat} {up : Bool} {l : List Nat} (hon : s.domPowered 32 = true)
    (h : s.switchPlanFor mask up = some l) : 32 ∉ l := by
  unfold State.switchPlanFor at h
  extract_lets ds off childOn at h
  split at h
  · split at h
    · cases h
      simp [hon]
    · cases h
  · split at h
    · cases h
    · rename_i hmask
      cases h
      rw [Bool.or_eq_true, not_or] at hmask
      exact fun h32 => hmask.1 (bit_of_mem_parentsFirst (List.mem_filter.1 (List.mem_reverse.1 h32)).1)

theorem State.switchNext_aonOn (hs : s.aonOn) : s.switchNext.aonOn := by
  unfold State.switchNext
  split
  · exact hs
  · rename_i d rest hplan
    split
    · exact State.setDom_aonOn hs (hs.next_ne hplan)
    · exact State.setDom_aonOn (State.loseDomain_aonOn hs) ((State.loseDomain_aonOn hs).next_ne (by rwa [State.loseDomain_pkg]))

theorem State.domainsAct_aonOn {mask : Nat} {up : Bool} (hs : s.aonOn) : (s.domainsAct mask up).aonOn := by
  unfold State.domainsAct
  split
  · exact hs.keep (State.buSettle_within rfl (.refl _ _))
  · exact hs.keep (State.buSettle_within rfl (.refl _ _))
  · rename_i hplan
    exact State.switchNext_aonOn (hs.of_plan rfl rfl fun hon _ => State.not_mem_switchPlanFor hon hplan)

theorem execDomainSwitchDone_aonOn (hs : s.aonOn) : OutAonOn (execDomainSwitchDone s) := by
  unfold execDomainSwitchDone
  refine .onClock hs ?_
  split
  · exact .ofNext hs
  · rename_i d rest hplan
    extract_lets s1 p1 s2
    have h1 : s1.aonOn := by
      unfold s1
      split
      · exact State.domainUp_aonOn hs
      · exact State.setDom_aonOn hs (hs.next_ne hplan)
    have hplan1 : s1.pkg.switchPlan = d :: rest := by
      unfold s1
      split
      · rwa [State.domainUp_pkg]
      · exact hplan
    have h2 : s2.aonOn := h1.of_plan rfl rfl fun _ h => mt (List.mem_cons_of_mem d) (hplan1 ▸ h)
    refine .ofNext ?_
    split
    · exact h2.keep (State.buSettle_within rfl (.refl _ _))
    · exact State.switchNext_aonOn h2

/-! ## The command register -/

theorem State.buWrite_aonOn {op arg : Nat} {act : State → State} (hs : s.aonOn) (hact : ∀ u, u.aonOn → (act u).aonOn) :
    (s.buWrite op arg act).aonOn := by
  unfold State.buWrite
  split
  · exact hs
  · split
    · exact hs.keep (State.buErr_within rfl (.refl _ _))
    · exact hact _ hs

theorem State.buStep_aonOn {k arg argBits : Nat} {pre : Bool} {act : State → State} (hs : s.aonOn)
    (hact : ∀ u, u.aonOn → (act u).aonOn) : (s.buStep k arg argBits pre act).aonOn := by
  refine State.buWrite_aonOn hs fun u hu => ?_
  split
  · exact hu.keep (State.buSettle_within rfl (.refl _ _))
  · exact hact _ hu

theorem execDomains_aonOn {arg : Nat} (hs : s.aonOn) : OutAonOn (execDomains arg s) :=
  .ofNext (State.buStep_aonOn hs fun _ hu => State.domainsAct_aonOn hu)

theorem State.cfgLoad_aonOn {sigOk : Nat} (hs : s.aonOn) : (s.cfgLoad sigOk).aonOn := by
  unfold State.cfgLoad
  extract_lets d1 s1 sel d2 s2 s3 p3 s4
  have h3 : s3.aonOn := by
    unfold s3
    split
    · exact List.foldlRecOn _ _ (motive := State.aonOn) hs fun u hu e _ => hu.keep (State.loadRecord_within rfl (.refl _ _))
    · exact hs
  have h4 : s4.aonOn := h3.of_plan rfl rfl fun _ h => h
  exact h4.keep (State.buSettle_within rfl (.refl _ _))

/-! ## Resets -/

theorem State.packageReset_pkg (s : State) : s.packageReset.pkg =
    { vddAon := s.pkg.vddAon, vddIo18 := s.pkg.vddIo18, refclk := s.pkg.refclk, resetNLow := s.pkg.resetNLow,
      testMode := s.pkg.testMode, dom := [(32, .on)] } := by
  unfold State.packageReset
  extract_lets keep r
  exact (State.boundRate_within (k := butPkg) rfl (.refl _ _)).parts .pkg rfl

/-- A package reset leaves domain 32 on and no domain to switch, whatever ran before (R482). -/
theorem State.packageReset_aonOn (s : State) : s.packageReset.aonOn := by
  intro _
  unfold State.domPowered
  rw [State.packageReset_pkg]
  exact ⟨rfl, List.not_mem_nil⟩

theorem State.resetAct_aonOn {a : Nat} {got : List Nat} (hs : s.aonOn) : (s.resetAct a got).aonOn := by
  unfold State.resetAct
  split
  · exact hs.keep (State.coreReset_within rfl (.refl _ _))
  · split
    · exact hs.keep (State.dieReset_within rfl (.refl _ _))
    · split
      · exact hs.keep (State.partReset_within rfl (.refl _ _))
      · split
        · exact s.packageReset_aonOn
        · exact hs.keep (State.buSettle_within rfl (.refl _ _))

/-- A RESET of any level over the command register. -/
theorem OutAonOn.buReset {arg : Nat} {got : List Nat} (hs : s.aonOn) :
    OutAonOn (.next (s.buWrite 0x10 arg (fun st => st.resetAct arg got))) :=
  .ofNext (State.buWrite_aonOn hs fun _ hu => State.resetAct_aonOn hu)

theorem State.powerCycle_aonOn {n : Nat} (hs : s.aonOn) : (s.powerCycle n).aonOn := by
  unfold State.powerCycle
  extract_lets all s1 s2 b
  have h1 : s1.aonOn := List.foldlRecOn _ _ (motive := State.aonOn) hs fun u hu d _ => State.loseDomain_aonOn hu
  have h2 : s2.aonOn := List.foldlRecOn _ _ (motive := State.aonOn) h1 fun u hu d _ => State.domainUp_aonOn hu
  exact h2

theorem State.cycleDie_aonOn {n : Nat} {r : TestResult} (hs : s.aonOn) : (s.cycleDie n r).1.aonOn := by
  unfold State.cycleDie
  extract_lets q f ok
  have hq : q.1.aonOn := (State.powerCycle_aonOn hs).keep (State.testNodes_within rfl (.refl _ _))
  exact hq.keep (State.dieTested_within rfl (State.fmaxDie_within rfl (.refl _ _)))

theorem execResetComplete_aonOn {r : TestResult} (hs : s.aonOn) : OutAonOn (execResetComplete r s) := by
  unfold execResetComplete
  refine .onClock hs ?_
  split
  · exact .ofNext hs
  · rename_i j _
    split
    · split
      · exact .ofNext (hs.keep (State.resetEnds_within rfl (.refl _ _)))
      · split
        · exact .ofNext hs
        · refine .ofNext (hs.keep (State.resetEnds_within rfl (State.loseCore_within rfl ?_)))
          have h1 : Within butPkg s (s.preemptNamed j.node j.core) := State.preemptNamed_within rfl (.refl _ _)
          split
          · exact State.drainStep_within rfl h1
          · exact h1
    · split
      · split
        · exact .ofNext hs
        · extract_lets s1 q
          have h1 : s1.aonOn := by
            unfold s1
            split
            · exact hs.keep (State.fence_within rfl (.refl _ _))
            · exact hs
          exact .ofNext ((State.cycleDie_aonOn h1).keep (State.resetEnds_within rfl (State.coverQueued_within rfl (.refl _ _))))
      · split
        · exact .ofNext hs
        · extract_lets s1
          have h1 : s1.aonOn := by
            unfold s1
            split
            · exact hs.keep (State.setReset_within rfl (State.endPart_within rfl (.refl _ _)))
            · exact hs
          refine .ofNext ?_
          split
          · exact h1.keep (State.resetEnds_within rfl (.refl _ _))
          · exact h1

/-! ## Requests of objects 0x5C00 and 0x5C02 -/

theorem State.startRequest_aonOn {origin v : Nat} {got : List Nat} (hs : s.aonOn) : (s.startRequest origin v got).aonOn := by
  unfold State.startRequest
  split
  · extract_lets s1
    have h1 : s1.aonOn := hs
    split
    · exact h1.keep (State.buSettle_within rfl (.refl _ _))
    · exact State.domainsAct_aonOn h1
  · exact State.resetAct_aonOn (hs.keep (State.buBegin_within rfl (.refl _ _)))

theorem State.queueRequest_aonOn {origin v : Nat} (hs : s.aonOn) : (s.queueRequest origin v).1.aonOn := by
  unfold State.queueRequest
  split
  · exact hs
  · split
    · split
      · exact hs
      · exact hs
    · exact State.startRequest_aonOn hs

/-- A write of one of the two objects as a command of its own. -/
theorem OutAonOn.request {src : Src} {origin v : Nat} (hs : s.aonOn) :
    OutAonOn (s.onClock (.next (if Src.maintOrHost src then (s.queueRequest origin v).1 else s.denyWrite src))) := by
  refine .onClock hs (.ofNext ?_)
  split
  · exact State.queueRequest_aonOn hs
  · exact hs.keep (State.denyWrite_within rfl (.refl _ _))

theorem execBuQueuedRequestStart_aonOn {got : List Nat} (hs : s.aonOn) : OutAonOn (execBuQueuedRequestStart got s) := by
  unfold execBuQueuedRequestStart
  refine .onClock hs ?_
  split
  · exact .ofNext (State.startRequest_aonOn (hs.keep (State.setBu_within rfl (.refl _ _))))
  · exact .ofNext hs

/-! ## Shutdown and supplies -/

/-- SHUTDOWN_OFF leaves out domain 32 by name (R483). -/
theorem execShutdownOff_aonOn (hs : s.aonOn) : OutAonOn (execShutdownOff s) := by
  unfold execShutdownOff
  refine .onClock hs ?_
  split
  · exact .ofNext hs
  · rename_i j _
    split
    · exact .ofNext hs
    · extract_lets off s1 s2
      have h1 : s1.aonOn := List.foldlRecOn _ _ (motive := State.aonOn) hs fun u hu d hd =>
        State.setDom_aonOn (State.loseDomain_aonOn hu) fun _ =>
          bne_iff_ne.1 (Bool.and_eq_true_iff.1 (List.mem_filter.1 hd).2).1
      have h2 : s2.aonOn := h1
      refine .ofNext (State.aonOn.keep ?_ (State.buFinish_within rfl (State.buSettle_within rfl (.refl _ _))))
      split
      · exact h2
      · exact h2

theorem execVddAonApply_aonOn (hs : s.aonOn) : OutAonOn (execVddAonApply s) := by
  refine .ofNext ?_
  split
  · exact hs
  · exact fun _ => ⟨rfl, List.not_mem_nil⟩

theorem execVddAonLoss_aonOn : OutAonOn (execVddAonLoss s) := .ofNext fun hv => nomatch hv

theorem execBuResetNAssert_aonOn (hs : s.aonOn) : OutAonOn (execBuResetNAssert s) := by
  refine .ofNext ?_
  split
  · exact hs
  · split
    · exact hs.of_plan rfl rfl fun _ h => h
    · exact s.packageReset_aonOn.of_plan rfl rfl fun _ h => h

theorem execBuResetNDeassert_aonOn (hs : s.aonOn) : OutAonOn (execBuResetNDeassert s) := by
  refine .ofNext ?_
  split
  · exact hs
  · exact hs.of_plan rfl rfl fun _ h => h

/-! ## Writes of registers -/

theorem State.buCmdWrite_aonOn {val : Nat} (hs : s.aonOn) : (s.buCmdWrite val).aonOn := by
  unfold State.buCmdWrite
  refine settled_aonOn hs ?_
  split
  · exact execDomains_aonOn hs
  · split
    · exact .keep hs (execOutputEnable_within rfl (.refl _ _))
    · split
      · exact .buReset hs
      · split
        · exact .buReset hs
        · split
          · exact .keep hs (execShutdown_within rfl (.refl _ _))
          · split
            · exact .keep hs (execShutdownAbort_within rfl (.refl _ _))
            · split
              · exact .ofNext hs
              · exact .ofNext (State.buWrite_aonOn hs fun _ hu => hu.keep (State.buSettle_within rfl (.refl _ _)))

/-- Of the registers of Agate with rows of their own only AGT_BU_CMD reaches the power domains. -/
theorem State.agateOwnWrite_aonOn {src : Src} {off val : Nat} (hs : s.aonOn) : (s.agateOwnWrite src off val).aonOn := by
  unfold State.agateOwnWrite
  split
  · exact hs
  · refine settled_aonOn hs ?_
    refine .ite (.keep hs (execEvqWrite_within rfl (.refl _ _))) ?_
    refine .ite (.keep hs (execEvqWrite_within rfl (.refl _ _))) ?_
    refine .ite (.keep hs (execPartCfgWrite_within rfl (.refl _ _))) ?_
    refine .ite (.keep hs (execCtxDb_within rfl (.refl _ _))) ?_
    refine .ite (.keep hs (execSwap_within rfl (.refl _ _))) ?_
    refine .ite (.keep hs (execRateWrite_within rfl (.refl _ _))) ?_
    refine .ite (.keep hs (execAdjWrite_within rfl (.refl _ _))) ?_
    refine .ite (.keep hs (execSwsample_within rfl (.refl _ _))) ?_
    refine .ite (.ite (.keep hs (execMbxRead_within rfl (.refl _ _))) (.ite (.ofNext hs) (.ofNext hs))) ?_
    refine .ite (.keep hs (execTxDoorbell_within rfl (.refl _ _))) ?_
    refine .ite (.keep hs (execHbWrite_within rfl (.refl _ _))) ?_
    refine .ite (.keep hs (execReadmit_within rfl (.refl _ _))) ?_
    refine .ite (.keep hs (execExclude_within rfl (.refl _ _))) ?_
    refine .ite (.keep hs (execCamcfgWrite_within rfl (.refl _ _))) ?_
    refine .ite (.keep hs (execCamcfgWrite_within rfl (.refl _ _))) ?_
    refine .ite (.keep hs (execReleaseBuffer_within rfl (.refl _ _))) ?_
    refine .ite (.keep hs (execImucfgWrite_within rfl (.refl _ _))) ?_
    refine .ite (.keep hs (execEgocfgWrite_within rfl (.refl _ _))) ?_
    refine .ite (.ofNext (State.buCmdWrite_aonOn hs)) ?_
    exact .ite (.keep hs (execBrlChTrimWrite_within rfl (.refl _ _))) (.ofNext hs)

theorem State.regWrite_aonOn {src : Src} {mute : Bool} {node off val : Nat} (hs : s.aonOn) :
    (s.regWrite src mute node off val).aonOn := by
  unfold State.regWrite
  split
  · extract_lets p
    split
    · exact hs
    · split
      · split
        · exact settled_aonOn hs (.keep hs (execDictRead_within rfl (.refl _ _)))
        · split
          · exact settled_aonOn hs (.keep hs (execDictWrite_within rfl (.refl _ _)))
          · exact hs.keep (State.set_within rfl (.refl _ _))
      · exact hs.keep (State.storeReg_within rfl (.refl _ _))
  · split
    · exact hs.keep (State.stage_within rfl (.refl _ _))
    · split
      · split
        · exact State.agateOwnWrite_aonOn hs
        · exact hs.keep (State.onyxOwnWrite_within rfl (.refl _ _))
      · exact hs.keep (State.storeReg_within rfl (.refl _ _))

theorem State.nodeWrite_aonOn {src : Src} {mute : Bool} {a val : Nat} (hs : s.aonOn) : (s.nodeWrite src mute a val).aonOn := by
  unfold State.nodeWrite
  extract_lets off
  split
  · exact State.regWrite_aonOn hs
  · exact hs.keep (State.turned_within rfl (.refl _ _))

theorem State.broadcastWrite_aonOn {src : Src} {a val : Nat} (hs : s.aonOn) : (s.broadcastWrite src a val).aonOn := by
  unfold State.broadcastWrite
  extract_lets dies ok s1
  have h1 : s1.aonOn := List.foldlRecOn _ _ (motive := State.aonOn) hs fun u hu n _ => State.nodeWrite_aonOn hu
  exact h1.keep (State.completeWrite_within rfl (.refl _ _))

theorem execRegisterWrite_aonOn {src : Src} {a val : Nat} (hs : s.aonOn) : OutAonOn (execRegisterWrite src a val s) := by
  unfold execRegisterWrite
  refine .onClock hs ?_
  split
  · exact .ofNext (hs.keep (State.refuseRequest_within rfl (.refl _ _)))
  · extract_lets off here
    refine .ite (.ofNext hs) ?_
    refine .ite (.ofNext (hs.keep (State.denyWrite_within rfl (.refl _ _)))) ?_
    refine .ite (.ofNext (State.broadcastWrite_aonOn hs)) ?_
    refine .ite (.ofNext (State.nodeWrite_aonOn hs)) ?_
    exact .ofNext ((State.nodeWrite_aonOn hs).keep (State.completeWrite_within rfl (.refl _ _)))

/-! ## Writes of objects -/

theorem ite_fst_aonOn {β : Type} {c : Prop} [Decidable c] {a b : State × β} (ha : a.1.aonOn) (hb : b.1.aonOn) :
    (if c then a else b).1.aonOn := by
  split
  · exact ha
  · exact hb

theorem concluded_aonOn {r : State × Status} (h : r.1.aonOn) : (concluded r).1.aonOn := h

/-- Of the objects with an effect of their own only 0x5C00 and 0x5C02 reach the power domains. -/
theorem State.writeObject_aonOn {w : SlotWrite} {sigOk : Bool} (hs : s.aonOn) : (s.writeObject w sigOk).1.aonOn := by
  unfold State.writeObject
  extract_lets idx sub v
  refine ite_fst_aonOn hs ?_
  refine ite_fst_aonOn (List.foldlRecOn _ _ (motive := State.aonOn) hs fun _ hu _ _ => hu.of_pkg rfl) ?_
  refine ite_fst_aonOn (ite_fst_aonOn hs (hs.keep (State.storeBegin_within rfl (.refl _ _)))) ?_
  refine ite_fst_aonOn (hs.keep (State.restoreDefaults_within rfl (.refl _ _))) ?_
  refine ite_fst_aonOn (ite_fst_aonOn (concluded_aonOn (hs.keep (State.imageWrite_within rfl (.refl _ _))))
    (concluded_aonOn (hs.keep (State.activateWrite_within rfl (.refl _ _))))) ?_
  refine ite_fst_aonOn hs ?_
  refine ite_fst_aonOn (hs.keep (State.recheck_within rfl (.refl _ _))) ?_
  refine ite_fst_aonOn (hs.keep (State.ecatErr_within rfl (.refl _ _))) ?_
  refine ite_fst_aonOn (hs.keep (State.schedErr_within rfl (.refl _ _))) ?_
  refine ite_fst_aonOn (hs.keep (State.writeSafety_within rfl (.refl _ _))) ?_
  refine ite_fst_aonOn (hs.keep (State.writeReflex_within rfl (.refl _ _))) ?_
  refine ite_fst_aonOn ?_ ?_
  · split
    · change (s.blockErr 0x400020).aonOn
      exact hs.keep (State.blockErr_within rfl (.refl _ _))
    · change ((s.putReg 4 0x400020 v).wrote 0x400020).aonOn
      exact hs.keep (State.wrote_within rfl (State.putReg_within rfl (.refl _ _)))
  refine ite_fst_aonOn ?_ ?_
  · split
    · exact hs.keep (State.stageEgo_within rfl (.refl _ _))
    · exact hs
  refine ite_fst_aonOn (State.queueRequest_aonOn hs) ?_
  refine ite_fst_aonOn (State.queueRequest_aonOn hs) ?_
  exact hs.keep (State.loadObject_within rfl (.refl _ _))

theorem State.decideWrite_aonOn {l : List SlotWrite} {got : List Nat} {sigOk : Bool} {e : SlotWrite × Nat} (hs : s.aonOn) :
    (s.decideWrite l got sigOk e).aonOn := by
  unfold State.decideWrite
  extract_lets w r
  split
  · exact hs.keep (State.decideRegister_within rfl (.refl _ _))
  · have hr : r.1.aonOn := State.writeObject_aonOn hs
    split
    · split
      · exact hr.keep (State.writeAnswer_within rfl (.refl _ _))
      · exact hr
    · exact hs.keep (State.writeAnswer_within rfl (.refl _ _))

theorem execSlotEnd_aonOn {got : List Nat} {sigOk : Bool} (hs : s.aonOn) : OutAonOn (execSlotEnd got sigOk s) := by
  refine .onClock hs (.ofNext (State.aonOn.keep ?_ (State.servoNext_within rfl (.refl _ _))))
  exact List.foldlRecOn _ _ (motive := State.aonOn) hs fun u hu e _ => State.decideWrite_aonOn hu

/-! ## Every step -/

theorem exec_pkg_eq {c : Instr} (h : exec c s = .next t) (hc : (touches c).contains .pkg = false) : t.pkg = s.pkg :=
  (exec_sameBut_touches h).2 .pkg (by simpa using hc)

/-- Every command keeps R24: of those that change `pkg` each by its own lemma, the others by their frame. -/
theorem exec_aonOn {c : Instr} (hs : s.aonOn) : OutAonOn (exec c s) := by
  cases c
  case registerWrite => exact execRegisterWrite_aonOn hs
  case slotEnd => exact execSlotEnd_aonOn hs
  case domains => exact execDomains_aonOn hs
  case domainSwitchDone => exact execDomainSwitchDone_aonOn hs
  case cfgLoad => exact .ofNext (State.buStep_aonOn hs fun _ hu => State.cfgLoad_aonOn hu)
  case domainRequest | resetRequest => exact .request hs
  case buQueuedRequestStart => exact execBuQueuedRequestStart_aonOn hs
  case coreReset | dieReset | partitionReset | packageReset => exact .buReset hs
  case resetComplete => exact execResetComplete_aonOn hs
  case shutdownOff => exact execShutdownOff_aonOn hs
  case vddAonApply => exact execVddAonApply_aonOn hs
  case vddAonLoss => exact execVddAonLoss_aonOn
  case buResetNAssert => exact execBuResetNAssert_aonOn hs
  case buResetNDeassert => exact execBuResetNDeassert_aonOn hs
  case refclkLoss | vddIo18Loss | vddIo18Apply => exact .ofNext (hs.of_plan rfl rfl fun _ h => h)
  all_goals exact fun t h => hs.of_pkg (exec_pkg_eq h rfl)

theorem State.holdReset_aonOn (hs : s.aonOn) : s.holdReset.aonOn := by
  unfold State.holdReset
  split
  · exact s.packageReset_aonOn
  · exact hs

theorem State.idle_aonOn (hs : s.aonOn) : s.idle.aonOn := by
  unfold State.idle
  split
  · exact (State.holdReset_aonOn hs).keep (State.rfxDrain_within rfl (State.timeCycle_within rfl (.refl _ _)))
  · exact State.holdReset_aonOn hs

theorem step_aonOn (hs : s.aonOn) (h : step s = .next t) : t.aonOn := by
  unfold step at h
  split at h
  · rename_i c rest _
    have hrest : State.aonOn { s with pending := rest } := hs.of_pkg rfl
    exact exec_aonOn hrest t h
  · cases h
    exact State.idle_aonOn hs

/-- Settles O42: every step keeps R24 together with the fact that the plan of the running request leaves domain 32 out. -/
theorem alwaysOnDomainStaysOn : Obligations.AlwaysOnDomainStaysOn := by
  unfold Obligations.AlwaysOnDomainStaysOn
  exact fun s t h hs => step_aonOn hs h

end Sys2Proof.Machine
end

section
/-! PROOFS. The special states of an accumulator and their join (R42, O14). -/

namespace Sys2Proof.Machine

/-! ## The join of R42 -/

@[simp] theorem Special.nan_join (x : Special) : nan.join x = nan := rfl

@[simp] theorem Special.join_finite (x : Special) : x.join finite = x := by cases x <;> rfl

theorem Special.inf_join {x : Special} (h : x = overrange ∨ x = finite) : posInf.join x = posInf ∧ negInf.join x = negInf := by
  rcases h with rfl | rfl <;> exact ⟨rfl, rfl⟩

theorem Special.join_comm (x y : Special) : x.join y = y.join x := by cases x <;> cases y <;> rfl

theorem Special.join_assoc (x y z : Special) : (x.join y).join z = x.join (y.join z) := by
  cases x <;> cases y <;> cases z <;> rfl

/-! ## What products and partials add to it -/

/-- Log entry 10: a product of value zero adds nothing, whatever its bound exponent. -/
theorem Acc.addProduct_sp (A : Int) (L : Nat) (acc : Acc) (p : Product) :
    (acc.addProduct A L p).sp = acc.sp.join (specialOf A L p) := by
  unfold Acc.addProduct specialOf
  cases p.num with
  | nan => rfl
  | inf neg => rfl
  | fin neg m e =>
    by_cases hm : m = 0
    · simp [hm]
    by_cases hE : A - L - 2 < p.e
    · simp [hm, hE]
    by_cases hD : A - 95 ≤ e <;> simp [hm, hE, hD]

/-- An imported partial may bring OVERRANGE by the sum of the two T (R40). -/
theorem Acc.addPartial_sp (a b : Acc) :
    (a.addPartial b).sp = a.sp.join b.sp ∨ (a.addPartial b).sp = (a.sp.join b.sp).join .overrange := by
  unfold Acc.addPartial
  dsimp only
  split
  · exact .inr rfl
  · exact .inl rfl

/-- Settles O14: a product and a partial join their special state to the element's, and the join has the laws of R42. -/
theorem specialStatesJoin : Obligations.SpecialStatesJoin := by
  unfold Obligations.SpecialStatesJoin
  exact ⟨Acc.addProduct_sp, Acc.addPartial_sp, Special.nan_join, rfl, fun _ => Special.inf_join, rfl, Special.join_comm,
    Special.join_assoc⟩

end Sys2Proof.Machine
end

section
/-! PROOFS. The 96-bit word of an exact partial (R46, O16). -/

namespace Sys2Proof.Machine

/-! ## Bytes and two's complement -/

theorem leVal_leBytes (n v : Nat) : leVal (leBytes n v) = v % 256 ^ n := by
  induction n generalizing v with
  | zero => simp [leBytes, leVal, Nat.mod_one]
  | succ n ih =>
    rw [leBytes, leVal, ih, BitVec.toNat_ofNat, Nat.pow_succ' (m := 256), Nat.mod_mul]

theorem ux_lt (w : Nat) (i : Int) : ux w i < 2 ^ w := by
  have hpos : (0 : Int) < (2 ^ w : Nat) := by positivity
  have hnonneg := Int.emod_nonneg i hpos.ne'
  have hlt := Int.emod_lt_of_pos i hpos
  unfold ux
  omega

theorem sx_cases (w v : Nat) :
    (v % 2 ^ w < 2 ^ (w - 1) ∧ sx w v = (v % 2 ^ w : Nat)) ∨
    (2 ^ (w - 1) ≤ v % 2 ^ w ∧ sx w v = (v % 2 ^ w : Nat) - (2 ^ w : Nat)) := by
  unfold sx
  split
  case isTrue h => exact .inr ⟨h, rfl⟩
  case isFalse h => exact .inl ⟨not_le.1 h, rfl⟩

/-- The pattern of an integer reads back as that integer where it fits the width. -/
theorem sx_ux_96 {i : Int} (hlo : -(2 ^ 95) ≤ i) (hhi : i < 2 ^ 95) : sx 96 (ux 96 i) = i := by
  have hsx := sx_cases 96 (ux 96 i)
  unfold ux at *
  omega

/-- The bits of a word above its lowest hold half of what the word holds. -/
theorem sx_bits_one (v : Nat) : sx 95 (bits v 1 95) = sx 96 v / 2 := by
  have hlow := sx_cases 95 (bits v 1 95)
  have hword := sx_cases 96 v
  unfold bits at *
  omega

theorem bit_zero_eq_sx (v : Nat) : bit v 0 = decide (sx 96 v % 2 = 1) := by
  have hsx := sx_cases 96 v
  rw [bit, Bool.eq_iff_iff, beq_iff_eq, decide_eq_true_iff]
  omega

/-- The two top bits of a word agree where its value fits 95 bits. -/
theorem bit_95_eq_bit_94 {v : Nat} (hlo : -(2 ^ 94) ≤ sx 96 v) (hhi : sx 96 v < 2 ^ 94) : bit v 95 = bit v 94 := by
  have hsx := sx_cases 96 v
  rw [bit, bit, Bool.eq_iff_iff, beq_iff_eq, beq_iff_eq]
  omega

/-! ## Writing a word -/

theorem Acc.word_lt (a : Acc) : a.word < 2 ^ 96 := by
  unfold Acc.word
  split
  · exact ux_lt 96 _
  all_goals decide

theorem Acc.sx_word {a : Acc} (hsp : a.sp = .finite) (hlo : -(2 ^ 93) ≤ a.t) (hhi : a.t < 2 ^ 93) :
    sx 96 a.word = 2 * a.t + (if a.sticky then 1 else 0) := by
  rw [Acc.word, hsp]
  apply sx_ux_96 <;> split <;> omega

/-! ## Reading a word -/

theorem Acc.ofWord_of_bit_eq {w : Nat} (h : bit w 95 = bit w 94) : Acc.ofWord w = ⟨sx 96 w / 2, bit w 0, .finite⟩ := by
  rw [Acc.ofWord, if_pos (beq_iff_eq.2 h)]

theorem Acc.ofWord_sp_eq_nan {w : Nat} (hw : w < 2 ^ 96) (hbit : bit w 95 ≠ bit w 94)
    (hcode : w ∉ [2 ^ 94, 2 ^ 94 + 2, 2 ^ 94 + 3, 2 ^ 94 + 4]) : (Acc.ofWord w).sp = .nan := by
  simp only [List.mem_cons, List.not_mem_nil, or_false, not_or] at hcode
  obtain ⟨hmax, hpos, hneg, hover⟩ := hcode
  rw [Acc.ofWord, Nat.mod_eq_of_lt hw, if_neg (by simpa using hbit), if_neg hmax, if_neg hpos, if_neg hneg, if_neg hover]

/-! ## A word read back -/

theorem Acc.word_finite {a : Acc} (hsp : a.sp = .finite) (hlo : -(2 ^ 93) ≤ a.t) (hhi : a.t < 2 ^ 93) :
    sx 95 (bits a.word 1 95) = a.t ∧ bit a.word 0 = a.sticky ∧ bit a.word 95 = bit a.word 94 ∧ Acc.ofWord a.word = a := by
  have hword := Acc.sx_word hsp hlo hhi
  have hhalf : sx 96 a.word / 2 = a.t := by rw [hword]; split <;> omega
  have hsticky : bit a.word 0 = a.sticky := by
    rw [bit_zero_eq_sx, hword]
    cases a.sticky <;> simp [Int.add_emod]
  have htop : bit a.word 95 = bit a.word 94 := by apply bit_95_eq_bit_94 <;> rw [hword] <;> split <;> omega
  refine ⟨(sx_bits_one _).trans hhalf, hsticky, htop, ?_⟩
  rw [Acc.ofWord_of_bit_eq htop, hhalf, hsticky, ← hsp]

theorem Acc.word_special (t : Int) (k : Bool) {sp : Special} {n : Nat}
    (h : (sp, n) ∈ [(Special.nan, 1), (.posInf, 2), (.negInf, 3), (.overrange, 4)]) :
    Acc.word ⟨t, k, sp⟩ = 2 ^ 94 + n ∧ (Acc.ofWord (2 ^ 94 + n)).sp = sp := by
  simp only [List.mem_cons, List.not_mem_nil, or_false, Prod.mk.injEq] at h
  rcases h with ⟨rfl, rfl⟩ | ⟨rfl, rfl⟩ | ⟨rfl, rfl⟩ | ⟨rfl, rfl⟩ <;> exact ⟨rfl, by decide⟩

theorem Acc.leVal_leBytes_word (a : Acc) : leVal (leBytes 12 a.word) = a.word := by
  rw [leVal_leBytes]
  exact Nat.mod_eq_of_lt (a.word_lt.trans_eq (by norm_num))

/-- Settles O16: the finite words by their two's complement value, the words of T = 2^93 and of the special states by evaluation. -/
theorem exactPartialWord : Obligations.ExactPartialWord := by
  unfold Obligations.ExactPartialWord
  exact ⟨fun _ => Acc.word_finite, by decide, by decide, fun t k _ _ => Acc.word_special t k, fun _ => Acc.ofWord_sp_eq_nan,
    fun a _ _ => ⟨a.word_lt, a.leVal_leBytes_word⟩⟩

end Sys2Proof.Machine
end

section
/-! PROOFS. The dataflow of FLOW = AUTO and the result field that reports it (R89, R95, O17). -/

namespace Sys2Proof.Machine

variable {s : State} {node : Nat} {x : Cmd} {p : Plan}

/-! ## The dataflow of a body -/

theorem MBody.useOs_auto {b : MBody} (h : b.flow = 2) : b.useOs = true ↔ (b.timing true).total < (b.timing false).total := by
  simp [MBody.useOs, h]

/-! ## The anchor of a command fits the low byte of its result field -/

theorem bits_lt (v lo w : Nat) : bits v lo w < 2 ^ w := Nat.mod_lt _ (Nat.two_pow_pos w)

theorem clampAnchor_le (a : Int) : clampAnchor a ≤ 143 := by
  unfold clampAnchor clampI
  split
  · decide
  · split
    · exact le_rfl
    · omega

theorem anchorOf_le (maxE : Option Int) (l : Nat) : anchorOf maxE l ≤ 143 := by
  cases maxE with
  | none => simp [anchorOf]
  | some e => exact clampAnchor_le _

/-- The ANCHOR field of the control word is the byte A + 112 itself. -/
theorem Acw.anchor_le (w : Acw) : w.anchor ≤ 143 := by
  have hbyte := bits_lt w.raw 24 8
  unfold Acw.anchor
  omega

theorem chooseAnchor_le {kept : Option Nat} {computed : Int} (w : Acw) (hkept : ∀ a, kept = some a → a < 256)
    (hcomputed : computed ≤ 143) : chooseAnchor kept w computed ≤ 143 := by
  unfold chooseAnchor
  split
  · exact w.anchor_le
  · cases kept with
    | none => exact hcomputed
    | some a =>
      have ha := hkept a rfl
      dsimp only
      omega

/-! ## The result field -/

/-- R95: bit [8] of the result field is the dataflow, above the byte of the anchor. -/
theorem matResult_div_256 {A : Int} (hA : A ≤ 143) (os : Bool) : matResult A os / 256 = b2n os := by
  cases os <;> simp only [matResult, b2n, Bool.false_eq_true, ↓reduceIte] <;> omega

/-- A body that passes its checks keeps its plan. -/
theorem State.eq_of_guardPlan {part : Nat} {q : Plan} {met : List Status} (h : s.guardPlan part p met = .plan q) : q = p := by
  unfold State.guardPlan at h
  split at h
  · cases h
  · split at h
    · cases h
    · split at h
      · cases h
        rfl
      · cases h

theorem State.matmulPlan_result (hmode : Acw.anchorMode (MBody.acw ⟨x.body⟩) ≠ 2) (u : State) :
    (s.matmulPlan node x).result u =
      let b : MBody := ⟨x.body⟩
      matResult (chooseAnchor x.anchor b.acw (anchorOver b.m b.n b.acw.kLog2 (s.matPairs node b))) b.useOs := by
  unfold State.matmulPlan
  dsimp only
  rw [if_neg hmode]

theorem State.matmulPlan_result_div_256 (hmode : Acw.anchorMode (MBody.acw ⟨x.body⟩) ≠ 2)
    (hkept : ∀ a, x.anchor = some a → a < 256) (u : State) :
    (s.matmulPlan node x).result u / 256 = b2n (MBody.useOs ⟨x.body⟩) := by
  rw [State.matmulPlan_result hmode]
  exact matResult_div_256 (chooseAnchor_le _ hkept (anchorOf_le _ _)) _

/-- Settles O17: AUTO compares the two cycle counts, and the dataflow stands above the anchor's byte in the result field, since no anchor
exceeds 143. -/
theorem autoDataflow : Obligations.AutoDataflow := by
  unfold Obligations.AutoDataflow
  refine ⟨fun b => MBody.useOs_auto, fun s node x p u hplan _ hmode hkept => ?_⟩
  obtain rfl := State.eq_of_guardPlan hplan
  exact State.matmulPlan_result_div_256 hmode hkept u

end Sys2Proof.Machine
end

section
/-! PROOFS. What every step and every command keep: the canonical form, the queue, fuses and outputs (O5 to O9). -/

namespace Sys2Proof.Machine

open Host

/-! ## Every command answers -/

/-- An outcome that answers a next state. -/
def Answers (o : Outcome State Fault Refusal) : Prop := ∃ t, o = .next t

theorem Answers.next (t : State) : Answers (.next t) := ⟨t, rfl⟩

theorem Answers.onClock {s : State} {o : Outcome State Fault Refusal} (h : Answers o) : Answers (s.onClock o) := by
  unfold State.onClock
  split
  · exact h
  · exact .next s

theorem Answers.ite {c : Prop} [Decidable c] {a b : Outcome State Fault Refusal} (ha : Answers a) (hb : Answers b) :
    Answers (if c then a else b) := by
  split
  · exact ha
  · exact hb

/-- Every branch of every command ends in a next state. -/
theorem exec_answers (c : Instr) (s : State) : Answers (exec c s) := by
  cases c <;> dsimp only [exec] <;>
    repeat' first
    | exact Answers.next _
    | apply Answers.onClock
    | apply Answers.ite
    | split
    | extract_lets

/-- Settles O6: a step is a command's effect or a cycle of the clock. -/
theorem everyStepAnswers : Obligations.EveryStepAnswers := by
  intro s
  unfold step
  split
  · exact exec_answers _ _
  · exact ⟨_, rfl⟩

/-! ## What a step keeps -/

/-- Settles O5: every change that a step makes keeps the canonical forms (`step_within`), and the queue is no part of them. -/
theorem stepKeepsWellFormed : Obligations.StepKeepsWellFormed := fun _ _ hs h => (step_within h).wf hs

/-- Settles O7: a step changes the queue by its front alone and undoes nothing (`step_within`). -/
theorem stepTakesOneAndUndoesNothing : Obligations.StepTakesOneAndUndoesNothing :=
  ⟨fun _ _ h => (step_within h).kept, fun _ _ h => (step_within h).queue⟩

/-- Settles O8: the frame of every command. -/
theorem commandsKeepOtherParts : Obligations.CommandsKeepOtherParts := fun _ _ _ => exec_sameBut_touches

/-! ## No clock, no effect -/

theorem State.onClock_off {s : State} (h : s.clocked = false) (o : Outcome State Fault Refusal) : s.onClock o = .next s := by
  simp [State.onClock, h]

theorem State.clocked_eq_false {s : State} :
    (s.pkg.vddAon = false ∨ s.pkg.refclk = false ∨ s.pkg.resetNLow = true ∨ s.pkg.testMode = true) ↔ s.clocked = false := by
  unfold State.clocked Pkg.held
  cases s.pkg.vddAon <;> cases s.pkg.refclk <;> cases s.pkg.resetNLow <;> cases s.pkg.testMode <;> decide

/-- Settles O9: every command but the unclocked ones runs under `State.onClock`. -/
theorem noClockNoEffect : Obligations.NoClockNoEffect := by
  intro c s hc h
  have hs := State.clocked_eq_false.1 h
  cases c <;> first | exact State.onClock_off hs _ | exact nomatch hc
end Sys2Proof.Machine
end

section
/-! PROOFS. Register fields, bytes of memory, a write hit in T1, and sums in any order (O10 to O12, O15). -/

namespace Sys2Proof.Machine

/-- Settles O10: the register file is a table by bit address. -/
theorem registerFieldReadsBack : Obligations.RegisterFieldReadsBack := by
  intro f g n i m j v s
  exact ⟨State.getO_setO_self f n i v, State.getO_setO_ne, (State.setO_within (k := 2) rfl (.refl _ s) f n i v).sameBut rfl⟩

/-- Settles O11: a write replaces the cells of its run and no other (`cellsWrite`). -/
theorem bytesReadBack : Obligations.BytesReadBack := by
  intro s p b hs
  exact ⟨fun k hk => tget_cellsWrite_in hk, fun a ha => tget_cellsWrite_out ha, memory_wf_write hs⟩

/-! ## A write hit in T1 -/

variable {s t : State}

theorem isT2_iff {a : Nat} : isT2 a = true ↔ a / 2 ^ 48 < 4 ∧ a % 2 ^ 48 < 0x1000000000 := by
  unfold isT2 nodeOf localOf
  rw [Bool.and_eq_true, decide_eq_true_iff, decide_eq_true_iff]

/-- The line found at the way of a hit: below 16, with the tag of the address. -/
theorem State.t1Find_some {a w : Nat} (h : s.t1Find a = some w) :
    w < 16 ∧ ∃ l, tfind s.t1 (t1Key (nodeOf a) w (t1Set (localOf a))) = some l ∧ l.tag = t1Tag (localOf a) := by
  unfold State.t1Find at h
  have hp := List.find?_some h
  refine ⟨List.mem_range.1 (List.mem_of_find?_eq_some h), ?_⟩
  split at hp
  · next l hl => exact ⟨l, hl, by simpa using hp⟩
  · cases hp

/-- Two tables of T1 lines with the same tags and the same valid sectors. -/
def sameLines (a b : Tab T1Line) : Prop :=
  ∀ k, (tfind a k).map (fun l => (l.tag, fun i => bit l.valid i)) = (tfind b k).map (fun l => (l.tag, fun i => bit l.valid i))

/-- Where bytes stand depends on the tags and the valid sectors of the lines alone. -/
theorem State.place_congr (h : sameLines t.t1 s.t1) (a : Nat) : t.place a = s.place a := by
  have hfind : t.t1Find a = s.t1Find a := by
    unfold State.t1Find
    refine congrArg (List.find? · _) (funext fun w => ?_)
    have hk := h (t1Key (nodeOf a) w (t1Set (localOf a)))
    cases h1 : tfind t.t1 (t1Key (nodeOf a) w (t1Set (localOf a))) <;>
      cases h2 : tfind s.t1 (t1Key (nodeOf a) w (t1Set (localOf a))) <;> simp_all
  have hvalid (w : Nat) : t.t1Valid a w = s.t1Valid a w := by
    have hk := h (t1Key (nodeOf a) w (t1Set (localOf a)))
    unfold State.t1Valid State.t1Line
    cases h1 : tfind t.t1 (t1Key (nodeOf a) w (t1Set (localOf a))) <;>
      cases h2 : tfind s.t1 (t1Key (nodeOf a) w (t1Set (localOf a))) <;> simp_all
  unfold State.place
  simp only [hfind, hvalid]

theorem State.markSector_mem (s : State) (node way set i : Nat) (d : Bool) : (s.markSector node way set i d).mem = s.mem := by
  unfold State.markSector
  split <;> rfl

theorem State.markSector_scrambled (s : State) (node way set i : Nat) (d : Bool) :
    (s.markSector node way set i d).scrambled = s.scrambled := by
  unfold State.markSector
  split <;> rfl

/-- Marking a sector that is valid moves no bytes. -/
theorem State.markSector_sameLines {node way set i : Nat} {d : Bool} {l : T1Line} (hl : tfind s.t1 (t1Key node way set) = some l)
    (hv : bit l.valid i = true) : sameLines (s.markSector node way set i d).t1 s.t1 := by
  intro k
  unfold State.markSector State.t1Line
  rw [hl]
  by_cases hk : k = t1Key node way set
  · subst hk
    simp only [tfind_tset_self, hl, Option.map_some, Option.some.injEq, Prod.mk.injEq, true_and]
    funext j
    rw [bit_eq_testBit, testBit_setBit, bit_eq_testBit]
    split
    · next h => rw [h, ← bit_eq_testBit, hv]
    · rfl
  · simp only [tfind_tset_ne hk]

/-- A write hit: where it puts its bytes, and what it leaves. -/
theorem State.writeSector_hit {part a w : Nat} {b : List Byte} {alloc poison : Bool} (ha : isT2 a = true) (hw : s.t1Find a = some w)
    (hv : s.t1Valid a w = true) : let t := s.writeSector part alloc a b poison
    t.mem = (s.poke (t1Home (nodeOf a) w (t1Set (localOf a)) + a % 4096) b).mem ∧ t.scrambled = s.scrambled ∧ sameLines t.t1 s.t1 := by
  obtain ⟨-, l, hl, -⟩ := State.t1Find_some hw
  have hvalid : bit l.valid (a / 256 % 16) = true := by
    unfold State.t1Valid State.t1Line at hv
    rwa [hl] at hv
  have hline (u : State) (hu : u.t1 = s.t1) : sameLines (u.markSector (nodeOf a) w (t1Set (localOf a)) (a / 256 % 16) true).t1 s.t1 :=
    hu ▸ State.markSector_sameLines (hu ▸ hl) hvalid
  unfold State.writeSector
  simp only [ha, hw, hv, Bool.not_true, Bool.false_eq_true, if_false, Bool.true_or, if_true]
  split
  · exact ⟨State.markSector_mem _ _ _ _ _ _, State.markSector_scrambled _ _ _ _ _ _, hline _ rfl⟩
  · split
    · exact ⟨State.markSector_mem _ _ _ _ _ _, State.markSector_scrambled _ _ _ _ _ _, hline _ rfl⟩
    · exact ⟨State.markSector_mem _ _ _ _ _ _, State.markSector_scrambled _ _ _ _ _ _, hline _ rfl⟩

/-- The place of an address of a valid sector lies in the window of its way. -/
theorem State.place_hit {a w : Nat} (ha : isT2 a = true) (hw : s.t1Find a = some w) (hv : s.t1Valid a w = true) :
    s.place a = t1Home (nodeOf a) w (t1Set (localOf a)) + a % 4096 := by
  simp [State.place, ha, hw, hv]

/-- A T2 address stands at itself or, where T1 holds its sector, in the window of the way that has its tag. -/
theorem State.place_cases {c : Nat} (hc : isT2 c = true) : s.place c = c ∨
    ∃ w, s.t1Find c = some w ∧ s.place c = t1Home (nodeOf c) w (t1Set (localOf c)) + c % 4096 := by
  unfold State.place
  rw [if_pos hc]
  split
  · next w hw =>
    split
    · exact .inr ⟨w, hw, rfl⟩
    · exact .inl rfl
  · exact .inl rfl

/-- Places in the T1 window are distinct for distinct nodes, ways, sets and bytes of a line. -/
theorem t1Home_inj {n m v w a c x y : Nat} (hv : v < 16) (hw : w < 16)
    (hx : x < 4096) (hy : y < 4096) (h : t1Home n v (t1Set a) + x = t1Home m w (t1Set c) + y) :
    n = m ∧ v = w ∧ t1Set a = t1Set c ∧ x = y := by
  unfold t1Home glob at h
  have h1 : t1Set a < 1024 := Nat.mod_lt _ (by decide)
  have h2 : t1Set c < 1024 := Nat.mod_lt _ (by decide)
  omega

/-- No T2 address lies in the T1 window. -/
theorem t1Home_ne {n w a x c : Nat} (hc : isT2 c = true) (hw : w < 16) (hx : x < 4096) : t1Home n w (t1Set a) + x ≠ c := by
  have hc2 := (isT2_iff.1 hc).2
  have h1 : t1Set a < 1024 := Nat.mod_lt _ (by decide)
  unfold t1Home glob
  omega

/-- Settles O12: the bytes go to the window of the way that holds the sector, and the lines keep their tags and valid sectors. -/
theorem writeHitGoesIntoT1 : Obligations.WriteHitGoesIntoT1 := by
  intro s part a w b alloc poison _ ha hw hv hb hlen
  obtain ⟨hmem, hscr, hlines⟩ := State.writeSector_hit (part := part) (b := b) (alloc := alloc) (poison := poison) ha hw hv
  obtain ⟨hw16, l, hl, htag⟩ := State.t1Find_some hw
  generalize hp : t1Home (nodeOf a) w (t1Set (localOf a)) = home at hmem
  have hblank : (s.writeSector part alloc a b poison).blank = s.blank := by
    funext c
    unfold State.blank
    rw [hscr]
  have hbyte (c : Nat) : (s.writeSector part alloc a b poison).byte c =
      tget (s.blank (s.place c)) (cellsWrite s.blank s.mem (home + a % 4096) b) (s.place c) := by
    unfold State.byte
    rw [State.place_congr hlines, hblank, hmem]
    rfl
  refine ⟨fun k hk => ?_, fun c hc hout => ?_, fun c hc => ?_⟩
  · have hset : t1Set (localOf (a + k)) = t1Set (localOf a) := by unfold t1Set localOf; omega
    have htag' : t1Tag (localOf (a + k)) = t1Tag (localOf a) := by unfold t1Tag localOf; omega
    have hnode : nodeOf (a + k) = nodeOf a := by unfold nodeOf; omega
    have hsec : (a + k) / 256 = a / 256 := by omega
    have ha' : isT2 (a + k) = true := by rw [isT2_iff] at *; omega
    have hfind : s.t1Find (a + k) = some w := by
      rw [← hw]
      unfold State.t1Find
      simp only [hset, htag', hnode]
    have hvalid : s.t1Valid (a + k) w = true := by
      rw [← hv]
      unfold State.t1Valid
      rw [hset, hnode, hsec]
    have hplace : s.place (a + k) = home + a % 4096 + k := by
      rw [State.place_hit ha' hfind hvalid, hset, hnode, hp]
      omega
    rw [hbyte, hplace]
    exact tget_cellsWrite_in hk
  · rw [hbyte]
    refine tget_cellsWrite_out ?_
    by_contra hin
    subst hp
    rcases State.place_cases (s := s) hc with h | ⟨v, hfind, h⟩
    · exact t1Home_ne (n := nodeOf a) (a := localOf a) hc hw16 (x := s.place c - t1Home (nodeOf a) w (t1Set (localOf a))) (by omega) (by omega)
    · obtain ⟨hv16, l', hl', htag'⟩ := State.t1Find_some hfind
      obtain ⟨hn, rfl, hset, hx⟩ := t1Home_inj (n := nodeOf c) (m := nodeOf a) (a := localOf c) (c := localOf a) (y := s.place c - t1Home (nodeOf a) w (t1Set (localOf a))) hv16 hw16
        (Nat.mod_lt c (by decide : 4096 > 0)) (by omega) (by omega)
      rw [hn, hset, hl] at hl'
      cases hl'
      rw [htag] at htag'
      unfold t1Tag t1Set nodeOf localOf at *
      omega
  · rw [hmem]
    refine tget_cellsWrite_out ?_
    by_contra hin
    subst hp
    exact t1Home_ne (n := nodeOf a) (a := localOf a) hc hw16 (x := c - t1Home (nodeOf a) w (t1Set (localOf a))) (by omega) (by omega)

/-! ## Sums in any order -/

/-- What one product adds to an accumulator does not depend on it: R40 to R42 for a product alone. -/
theorem Acc.addProduct_eq (A : Int) (L : Nat) (acc : Acc) (p : Product) :
    acc.addProduct A L p = ⟨acc.t + (Acc.addProduct A L ⟨0, false, .finite⟩ p).t,
      acc.sticky || (Acc.addProduct A L ⟨0, false, .finite⟩ p).sticky, acc.sp.join (specialOf A L p)⟩ := by
  rw [← Acc.addProduct_sp]
  unfold Acc.addProduct
  cases p.num with
  | nan => simp
  | inf neg => simp
  | fin neg m e =>
    dsimp only
    split
    · simp
    · split
      · simp
      · split <;> simp

/-- Two products may be added in either order. -/
theorem Acc.addProduct_comm (A : Int) (L : Nat) (acc : Acc) (p q : Product) :
    (acc.addProduct A L p).addProduct A L q = (acc.addProduct A L q).addProduct A L p := by
  rw [Acc.addProduct_eq A L (acc.addProduct A L p) q, Acc.addProduct_eq A L acc p, Acc.addProduct_eq A L (acc.addProduct A L q) p,
    Acc.addProduct_eq A L acc q]
  simp only [Acc.mk.injEq]
  refine ⟨by omega, by ac_rfl, ?_⟩
  rw [Special.join_assoc, Special.join_assoc, Special.join_comm (specialOf A L p)]

/-- Settles O15: adding products commutes, so a permutation of them gives the same accumulator. -/
theorem sumsInAnyOrder : Obligations.SumsInAnyOrder := by
  intro A L init l k h
  exact h.foldl_eq' (fun _ _ _ _ _ => Acc.addProduct_comm A L _ _ _) init
end Sys2Proof.Machine
end

section
/-! PROOFS. Engine commands run to their end or are refused (O18 to O22). -/

namespace Sys2Proof.Machine

open Host

variable {s : State} {x : Cmd} {p : Plan} {errs : ReadErrs} {node part : Nat} {met : List Status} {st : Status}

/-! ## Poisoned destinations -/

theorem mem_sinsert_self (l : List Nat) (a : Nat) : a ∈ sinsert l a := by
  induction l with
  | nil => exact List.mem_singleton_self a
  | cons b l ih =>
    rw [sinsert]
    split
    · exact List.mem_cons_self
    · split
      · next h => exact h ▸ List.mem_cons_self
      · exact List.mem_cons_of_mem b ih

theorem mem_sinsert_of_mem {l : List Nat} {a b : Nat} (h : b ∈ l) : b ∈ sinsert l a := by
  induction l with
  | nil => cases h
  | cons c l ih =>
    rw [sinsert]
    split
    · exact List.mem_cons_of_mem a h
    · split
      · exact h
      · rcases List.mem_cons.1 h with rfl | h
        · exact List.mem_cons_self
        · exact List.mem_cons_of_mem c (ih h)

/-- Poisoning sectors changes nothing but the list of poison. -/
theorem State.poisonAll_eq (s : State) (l : List Nat) : s.poisonAll l = { s with poison := (s.poisonAll l).poison } := by
  induction l generalizing s with
  | nil => rfl
  | cons a l ih => exact ih (s.setPoison (s.place a) true)

theorem State.poisoned_setPoison_self (s : State) (a : Nat) : (s.setPoison (s.place a) true).poisoned a = true := by
  unfold State.poisoned
  rw [List.contains_iff_mem]
  exact mem_sinsert_self _ _

theorem State.poisoned_poisonAll_of_poisoned {a : Nat} (l : List Nat) (h : s.poisoned a = true) : (s.poisonAll l).poisoned a = true := by
  induction l generalizing s with
  | nil => exact h
  | cons b l ih =>
    refine ih ?_
    unfold State.poisoned at *
    rw [List.contains_iff_mem] at *
    exact mem_sinsert_of_mem h

/-- R79: every sector poisoned reads as poisoned. -/
theorem State.poisoned_poisonAll {l : List Nat} {a : Nat} (h : a ∈ l) : (s.poisonAll l).poisoned a = true := by
  induction l generalizing s with
  | nil => cases h
  | cons b l ih =>
    rcases List.mem_cons.1 h with rfl | h
    · exact State.poisoned_poisonAll_of_poisoned l (s.poisoned_setPoison_self a)
    · exact ih h

/-! ## What comes of a plan -/

/-- A body that passes its tests keeps its plan. -/
theorem State.guardPlan_of_passes (h : s.bodyPasses part p met) : s.guardPlan part p met = .plan p := by
  obtain ⟨hden, rfl, hseg⟩ := h
  have hany : (p.reads ++ p.dests).any (s.segForeign part) = false :=
    List.any_eq_false.2 fun a ha => by simp [hseg a ha]
  simp [State.guardPlan, hden, hany]

/-- Where a read lost data or was poisoned the destinations are poisoned, and nothing else changes (R79). -/
theorem State.runPlan_ranTo (s : State) (x : Cmd) (p : Plan) (errs : ReadErrs) : s.ranTo x p errs (s.runPlan x p p.units errs) := by
  unfold State.ranTo State.runPlan
  extract_lets r q met s1
  rw [if_pos le_rfl]
  have hs1 : s1 = { q.1 with poison := s1.poison } := by
    unfold s1
    split
    · exact q.1.poisonAll_eq p.dests
    · rfl
  have hmem : s1.mem = q.1.mem := (congrArg State.mem hs1 :)
  have ht1 : s1.t1 = q.1.t1 := (congrArg State.t1 hs1 :)
  have hregs : s1.regs = q.1.regs := (congrArg State.regs hs1 :)
  refine ⟨⟨_, State.cmd_finish _ _ _, rfl, rfl, rfl, rfl⟩, hmem, ht1, hregs, ?_⟩
  have hmet : (met.contains .tileUncorrectable || met.contains .poisonedInput) = true ↔
      Status.tileUncorrectable ∈ met ∨ Status.poisonedInput ∈ met := by simp
  split
  · next h =>
    intro a ha
    show s1.poisoned a = true
    unfold s1
    rw [if_pos (hmet.2 h)]
    exact State.poisoned_poisonAll ha
  · next h =>
    show s1.poison = q.1.poison
    unfold s1
    rw [if_neg (mt hmet.1 h)]

/-- A body that passes its tests runs to its end. -/
theorem State.runToEnd_ranTo (h : s.bodyPasses part p met) : s.ranTo x p errs (s.runToEnd x (s.guardPlan part p met) errs) := by
  rw [State.guardPlan_of_passes h]
  exact s.runPlan_ranTo x p errs

/-- A refused body ends its command at once. -/
theorem State.runToEnd_refusedAs (s : State) (x : Cmd) (st : Status) (errs : ReadErrs) :
    s.refusedAs x st (s.runToEnd x (.refused st) errs) := by
  show s.refusedAs x st ((if st = .denied then s.countRefusal else s).finish x st x.refusedResult)
  by_cases h : st = .denied
  · subst h
    refine ⟨⟨_, State.cmd_finish _ _ _, rfl, rfl, rfl, rfl⟩, ?_, fun _ => min_comm _ _⟩
    exact (State.finish_within (k := 135168) rfl (State.countRefusal_within rfl (.refl _ s))).sameBut (by decide)
  · rw [State.refusedAs, if_neg h, if_neg h]
    refine ⟨⟨_, State.cmd_finish _ _ _, rfl, rfl, rfl, rfl⟩, ?_, fun e => absurd e h⟩
    exact (State.finish_within (k := 4096) rfl (.refl _ s)).sameBut (by decide)

/-! ## The commands of each engine -/

theorem State.matrixCommand_eq {is : MBody → Bool} {plan : State → Nat → Cmd → Planned} (hx : s.executing node 0 = some x)
    (his : is ⟨x.body⟩ = true) : s.matrixCommand is plan node errs = s.runToEnd x (plan s node x) errs := by
  simp [State.matrixCommand, hx, his]

theorem State.vectorCommand_eq {is : Nat → Bool} (hx : s.executing node 1 = some x) (his : is (VBody.vop ⟨x.body⟩) = true) :
    s.vectorCommand is node errs = s.runToEnd x (s.planVector node x) errs := by
  simp [State.vectorCommand, hx, his]

theorem State.gateCommand_eq {is : Nat → Bool} (hx : s.executing node 4 = some x) (his : is (GBody.gop ⟨x.body⟩) = true)
    (hg : s.gateTaken node = false) : s.gateCommand is node errs = (s.runToEnd x (s.planGate node x) errs).releaseGate := by
  simp [State.gateCommand, hx, his, hg]

theorem State.solverCommand_eq {is : Nat → Bool} (hx : s.executing node 5 = some x) (his : is (LBody.op ⟨x.body⟩) = true) :
    s.solverCommand is node errs = s.runToEnd x (s.planSolver node x) errs := by
  simp [State.solverCommand, hx, his]

theorem State.queryCommand_eq {is : Nat → Bool} {pipe : Nat} (hp : pipe < 4) (hx : s.executing node (7 + pipe) = some x)
    (his : is (NBody.op ⟨x.body⟩) = true) (hm : s.mapWaits node (NBody.map ⟨x.body⟩) = false) :
    s.queryCommand is node pipe errs = s.runToEnd x (s.planQuery node x) errs := by
  simp [State.queryCommand, Nat.not_lt.2 (Nat.le_of_lt_succ hp), hx, his, hm]

theorem State.samplerCommand_eq {is : Nat → Bool} (hx : s.executing node 11 = some x) (his : is (NBody.op ⟨x.body⟩) = true)
    (hm : NBody.op ⟨x.body⟩ ≠ 7 → s.mapWaits node (NBody.map ⟨x.body⟩) = false) :
    s.samplerCommand is node errs = s.runToEnd x (s.planSampler node x) errs := by
  by_cases h7 : NBody.op ⟨x.body⟩ = 7
  · simp [State.samplerCommand, hx, h7, h7 ▸ his]
  · simp [State.samplerCommand, hx, his, hm h7]

/-- Settles O18: each command takes the plan of its engine, and a plan runs to its end. -/
theorem matrixAndVectorCommandsFinish : Obligations.MatrixAndVectorCommandsFinish := by
  unfold Obligations.MatrixAndVectorCommandsFinish
  refine ⟨fun s node errs x hs hx => ⟨fun hop hb => ⟨fun hmode => ⟨_, ?_, State.runToEnd_ranTo hb⟩, fun hmode => ⟨_, ?_, State.runToEnd_ranTo hb⟩⟩,
    fun c hop hb hc => ⟨_, ?_, State.runToEnd_ranTo hb⟩⟩, fun s node errs x c hs hx hb hc => ⟨_, ?_, State.runToEnd_ranTo hb⟩⟩
  · refine (State.onClock_of hs).trans (congrArg _ (State.matrixCommand_eq hx ?_))
    simp [hop, hmode]
  · refine (State.onClock_of hs).trans (congrArg _ (State.matrixCommand_eq hx ?_))
    simp [hop, hmode]
  · have hkind (k : Nat → Bool) (hk : k (MBody.kind ⟨x.body⟩) = true) :
        s.windowCommand k node errs = s.runToEnd x (s.planWindow node x) errs := State.matrixCommand_eq hx (by simp [hop, hk])
    simp only [List.mem_cons, Prod.mk.injEq, List.not_mem_nil, or_false] at hc
    rcases hc with ⟨hk, rfl⟩ | ⟨hk, rfl⟩ | ⟨hk, rfl⟩ | ⟨hk, rfl⟩ | ⟨hk, rfl⟩ | ⟨hk, rfl⟩ <;>
      exact (State.onClock_of hs).trans (congrArg _ (hkind _ (by rw [hk]; rfl)))
  · simp only [List.mem_cons, Prod.mk.injEq, List.not_mem_nil, or_false] at hc
    rcases hc with ⟨hk, rfl⟩ | ⟨hk, rfl⟩ | ⟨hk, rfl⟩ | ⟨hk, rfl⟩ | ⟨hk, rfl⟩ | ⟨hk, rfl⟩ | ⟨hk, rfl⟩ | ⟨hk, rfl⟩ | ⟨hk, rfl⟩ | ⟨hk, rfl⟩ |
      ⟨hk, rfl⟩ | ⟨hk, rfl⟩ | ⟨hk, rfl⟩ | ⟨hk, rfl⟩ <;>
      exact (State.onClock_of hs).trans (congrArg _ (State.vectorCommand_eq hx (by rw [hk]; rfl)))

/-- Settles O19: SCAN and the gate commands run their plans; the gate-table writes that waited are applied after that. -/
theorem sequenceCommandsFinish : Obligations.SequenceCommandsFinish := by
  intro s node errs x hs
  refine ⟨fun hx hop hb => ⟨_, State.runToEnd_ranTo hb, ?_⟩, fun c hx hg hb hc => ⟨_, State.runToEnd_ranTo hb, ?_⟩⟩
  · refine (State.onClock_of hs).trans ?_
    have hcmd : s.scanCmd (fun o => o == 0 || decide (2 < o)) node = some x := by simp [State.scanCmd, hx, hop]
    rw [hcmd]
    rfl
  · simp only [List.mem_cons, Prod.mk.injEq, List.not_mem_nil, or_false] at hc
    rcases hc with ⟨hk, rfl⟩ | ⟨hk, rfl⟩ | ⟨hk, rfl⟩ <;>
      exact (State.onClock_of hs).trans (congrArg _ (State.gateCommand_eq hx (by rw [hk]; rfl) hg))

/-- Settles O20: each command takes the plan of its engine, and a plan runs to its end. -/
theorem solverAndQueryCommandsFinish : Obligations.SolverAndQueryCommandsFinish := by
  intro s node errs x c hs
  refine ⟨fun hx hb hc => ⟨_, ?_, State.runToEnd_ranTo hb⟩, fun pipe hp hx hm hb hc => ⟨_, ?_, State.runToEnd_ranTo hb⟩,
    fun hx hm hb hc => ⟨_, ?_, State.runToEnd_ranTo hb⟩⟩ <;> simp only [List.mem_cons, Prod.mk.injEq, List.not_mem_nil, or_false] at hc
  · rcases hc with ⟨hk, rfl⟩ | ⟨hk, rfl⟩ | ⟨hk, rfl⟩ | ⟨hk, rfl⟩ <;>
      exact (State.onClock_of hs).trans (congrArg _ (State.solverCommand_eq hx (by rw [hk]; rfl)))
  · rcases hc with ⟨hk, rfl⟩ | ⟨hk, rfl⟩ | ⟨hk, rfl⟩ <;>
      exact (State.onClock_of hs).trans (congrArg _ (State.queryCommand_eq hp hx (by rw [hk]; rfl) hm))
  · rcases hc with ⟨hk, rfl⟩ | ⟨hk, rfl⟩ | ⟨hk, rfl⟩ <;>
      exact (State.onClock_of hs).trans (congrArg _ (State.samplerCommand_eq hx (by rw [hk]; rfl) hm))

/-- Settles O22: a refused plan ends its command, whatever the engine. -/
theorem refusedBodyWritesNothing : Obligations.RefusedBodyWritesNothing := by
  intro s node errs x st hs
  have hrun {pl : Planned} (h : pl = .refused st) : s.refusedAs x st (s.runToEnd x pl errs) := h ▸ s.runToEnd_refusedAs x st errs
  refine ⟨fun c hx hop hp hc => ⟨_, ?_, hrun hp⟩, fun hx hp hop => ⟨_, ?_, hrun hp⟩, fun hx hp hop => ⟨_, ?_, hrun hp⟩,
    fun pipe hpipe hx hm hp hop => ⟨_, ?_, hrun hp⟩⟩
  · subst hc
    split
    · next hmode => exact (State.onClock_of hs).trans (congrArg _ (State.matrixCommand_eq hx (by simp [hop, hmode])))
    · next hmode => exact (State.onClock_of hs).trans (congrArg _ (State.matrixCommand_eq hx (by simp [hop, hmode])))
  · exact (State.onClock_of hs).trans (congrArg _ (State.vectorCommand_eq hx (by rw [hop]; rfl)))
  · exact (State.onClock_of hs).trans (congrArg _ (State.solverCommand_eq hx (by rw [hop]; rfl)))
  · exact (State.onClock_of hs).trans (congrArg _ (State.queryCommand_eq hpipe hx (by rw [hop]; rfl) hm))

/-! ## The attention unit -/

theorem State.attnCmd_eq {is : Nat → Bool} (hx : s.executing node 2 = some x) (his : is (ABody.op ⟨x.body⟩) = true)
    (hw : s.poolWaits node (s.ctxPart x.ctx) = false) : s.attnCmd is node = some x := by
  simp [State.attnCmd, hx, his, hw]

/-- SCORE and VALUE: the command runs, is counted, and records the use of its pages where its status is usable. -/
theorem State.attnRead_eq {is : Nat → Bool} {y : Cmd} (hcmd : s.attnCmd is node = some x)
    (hy : (s.runToEnd x (s.planAttention node x) errs).cmd x.key = some y) :
    s.attnRead is node errs = let t := s.runToEnd x (s.planAttention node x) errs
      (if y.status.usable then (t.countAttn node).recordUse node ⟨x.body⟩ else t.countAttn node).releaseBias := by
  have hcount : ((s.runToEnd x (s.planAttention node x) errs).countAttn node).cmd x.key = some y := hy
  unfold State.attnRead
  rw [hcmd]
  dsimp only
  rw [hcount]

/-- At most as many pages are given as entries ask for one. -/
theorem State.givePages_count_le (node p c count : Nat) (b : ABody) (l : List Nat) (s : State) :
    (State.givePages node p c count b l s).2.1 ≤ l.length := by
  induction l generalizing s with
  | nil => exact le_rfl
  | cons a l ih =>
    rw [State.givePages]
    split
    · exact Nat.zero_le _
    · exact Nat.succ_le_succ (ih _)

/-- R148: a KV operation ends OK, or QUEUE_FULL where it takes pages. -/
theorem State.kvApply_status (s : State) (node p c : Nat) (b : ABody) :
    (b.op ≠ 3 → b.op ≠ 4 → (s.kvApply node p c b).2 = (.ok, 0)) ∧
    ((s.kvApply node p c b).2.1 = .ok ∨ (s.kvApply node p c b).2.1 = .queueFull ∧ (s.kvApply node p c b).2.2 ≤ b.range.length) := by
  unfold State.kvApply
  extract_lets count
  split
  · next h =>
    refine ⟨fun h3 h4 => absurd h (by simp [h3, h4]), ?_⟩
    extract_lets
    split
    · exact .inl rfl
    · exact .inr ⟨rfl, State.givePages_count_le _ _ _ _ _ _ _⟩
  · split
    · exact ⟨fun _ _ => rfl, .inl rfl⟩
    · exact ⟨fun _ _ => rfl, .inl rfl⟩

/-- R31 puts the error of a read before its poison. -/
theorem pickStatus_readFound {lost poison : Bool} (h : (lost || poison) = true) :
    pickStatus ((if lost then [.tileUncorrectable] else []) ++ (if poison then [.poisonedInput] else [])) =
      if lost then .tileUncorrectable else .poisonedInput := by
  cases lost <;> cases poison <;> first | rfl | cases h

/-- A KV operation that passes its tests: carried out, or ended for an error or poison that its reads find (R79). -/
theorem State.kvCommand_eq {op : Nat} (hcmd : s.attnCmd (fun o => o == op) node = some x)
    (hb : s.bodyPasses (s.ctxPart x.ctx) (s.kvPlan node ⟨x.body⟩) (s.kvFaults node (s.ctxPart x.ctx) ⟨x.body⟩)) :
    s.kvCommand op node errs = let r := s.readSectors (s.ctxPart x.ctx) true errs (s.kvReads node ⟨x.body⟩)
      if r.lost || r.poison then
        ((((r.st.poisonAll (s.kvWrites node ⟨x.body⟩)).finish x (if r.lost then .tileUncorrectable else .poisonedInput) 0).countAttn
          node).releaseBias)
      else let q := r.st.kvApply node (s.ctxPart x.ctx) x.ctx ⟨x.body⟩
        (((q.1.finish x q.2.1 q.2.2).countAttn node).releaseBias) := by
  unfold State.kvCommand
  rw [hcmd]
  dsimp only
  rw [State.guardPlan_of_passes hb]
  dsimp only [State.kvPlan]
  generalize s.readSectors (s.ctxPart x.ctx) true errs (s.kvReads node ⟨x.body⟩) = r
  by_cases h : (r.lost || r.poison) = true
  · rw [if_pos h, if_pos h, pickStatus_readFound h]
  · rw [if_neg h, if_neg h]

/-- Settles O21. -/
theorem attentionUnitCommands : Obligations.AttentionUnitCommands := by
  unfold Obligations.AttentionUnitCommands
  refine ⟨fun s node errs x c hs hx hw hb hc => ?_, ?_⟩
  · have hran : s.ranTo x (s.attnPlan node x) errs (s.runToEnd x (s.planAttention node x) errs) := State.runToEnd_ranTo hb
    obtain ⟨y, hy, -⟩ := hran.1
    refine ⟨_, y, hran, hy, ?_⟩
    simp only [List.mem_cons, Prod.mk.injEq, List.not_mem_nil, or_false] at hc
    rcases hc with ⟨hk, rfl⟩ | ⟨hk, rfl⟩ <;>
      exact (State.onClock_of hs).trans (congrArg _ (State.attnRead_eq (State.attnCmd_eq hx (by rw [hk]; rfl) hw) hy))
  · intro s node errs x c hs hx b part r q hw hb hc
    have hrun : exec c s = .next (s.kvCommand b.op node errs) := by
      simp only [List.mem_cons, Prod.mk.injEq, List.not_mem_nil, or_false] at hc
      rcases hc with ⟨hk, rfl⟩ | ⟨hk, rfl⟩ | ⟨hk, rfl⟩ | ⟨hk, rfl⟩ | ⟨hk, rfl⟩ | ⟨hk, rfl⟩ | ⟨hk, rfl⟩ | ⟨hk, rfl⟩ <;>
        exact hk ▸ State.onClock_of hs
    have heq := State.kvCommand_eq (errs := errs) (State.attnCmd_eq (is := fun o => o == b.op) hx (beq_self_eq_true b.op) hw) hb
    refine ⟨fun hl hp => ⟨?_, ?_⟩, fun hbad => ⟨r.st.poisonAll (s.kvWrites node b), ?_, fun a ha => State.poisoned_poisonAll ha⟩⟩
    · have hgood : ¬(r.lost || r.poison) = true := by rw [hl, hp]; exact Bool.false_ne_true
      exact hrun.trans (congrArg _ (heq.trans (if_neg hgood)))
    · obtain ⟨hok, hor⟩ := State.kvApply_status r.st node part x.ctx b
      exact ⟨fun h3 h4 => ⟨congrArg Prod.fst (hok h3 h4), congrArg Prod.snd (hok h3 h4)⟩, hor⟩
    · have hfound : (r.lost || r.poison) = true := by simpa using hbad
      exact hrun.trans (congrArg _ (heq.trans (if_pos hfound)))
end Sys2Proof.Machine
end

section
/-! SUPPORT. Register fields at different bit addresses: a test on the two fields alone, for every node and every register of an array. -/

namespace Sys2Proof.Machine

/-- The largest power of two, up to that of a register space, of which both arrays' strides are multiples. -/
def Fld.grain (f g : Fld) : Nat := Nat.gcd (2 ^ 37) (Nat.gcd (Nat.gcd f.stride f.stride2) (Nat.gcd g.stride g.stride2))

/-- The bit address of the field in register 0 of its array, within its register space. -/
def Fld.base (f : Fld) : Nat := 8 * (f.blk + f.off) + f.lo

/-- Does `f` lie below `g` in all registers of their arrays, within a register space? -/
def Fld.below (f g : Fld) : Bool :=
  f.stride2 == 0 && g.stride2 == 0 && decide (0 < f.count) && decide (0 < g.count) &&
  decide (f.base + 8 * f.stride * (f.count - 1) < g.base) && decide (g.base + 8 * g.stride * (g.count - 1) < 2 ^ 50)

/-- Do the two fields differ in bit address at every node and in all registers of their arrays? They do where they differ modulo the grain of their arrays,
and where one array lies below the other. -/
def Fld.apart (f g : Fld) : Bool :=
  f.base % (8 * f.grain g) != g.base % (8 * f.grain g) || f.below g || g.below f

theorem Fld.key_eq (f : Fld) (n i : Nat) :
    f.key n i = 2 ^ 51 * f.node n + 2 ^ 40 + f.base + 8 * f.stride * (i % f.count) + 8 * f.stride2 * (i / f.count) := by
  unfold Fld.key Fld.addr Fld.offset regSpace Fld.base
  ring

theorem Fld.grain_dvd {f g : Fld} {d : Nat} (h : d ∣ f.grain g) :
    d ∣ 2 ^ 37 ∧ d ∣ f.stride ∧ d ∣ f.stride2 ∧ d ∣ g.stride ∧ d ∣ g.stride2 := by
  unfold Fld.grain at h
  simp only [Nat.dvd_gcd_iff] at h
  obtain ⟨h37, ⟨hf, hf2⟩, hg, hg2⟩ := h
  exact ⟨h37, hf, hf2, hg, hg2⟩

/-- Bit addresses agree with those in register 0 modulo a common factor of the strides. -/
theorem Fld.key_modEq {f : Fld} {d : Nat} (h37 : d ∣ 2 ^ 37) (h1 : d ∣ f.stride) (h2 : d ∣ f.stride2) (n i : Nat) :
    f.key n i ≡ f.base [MOD 8 * d] := by
  obtain ⟨a, ha⟩ := h37
  obtain ⟨b, hb⟩ := h1
  obtain ⟨c, hc⟩ := h2
  have e : f.key n i = f.base + 8 * d * (2 ^ 11 * a * f.node n + a + b * (i % f.count) + c * (i / f.count)) := by
    rw [Fld.key_eq, hb, hc, show 2 ^ 51 = 8 * (2 ^ 37 * 2 ^ 11) by norm_num, show 2 ^ 40 = 8 * 2 ^ 37 by norm_num, ha]
    ring
  rw [e]
  exact (Nat.modEq_iff_dvd' (Nat.le_add_right _ _)).2 (by simp) |>.symm

theorem Fld.key_ne_of_below {f g : Fld} (h : f.below g = true) (n m i j : Nat) : f.key n i ≠ g.key m j := by
  simp only [Fld.below, Bool.and_eq_true, beq_iff_eq, decide_eq_true_eq] at h
  obtain ⟨⟨⟨⟨⟨hf2, hg2⟩, hfc⟩, hgc⟩, hlt⟩, htop⟩ := h
  have hi : 8 * f.stride * (i % f.count) ≤ 8 * f.stride * (f.count - 1) :=
    Nat.mul_le_mul_left _ (Nat.le_sub_one_of_lt (Nat.mod_lt _ hfc))
  have hj : 8 * g.stride * (j % g.count) ≤ 8 * g.stride * (g.count - 1) :=
    Nat.mul_le_mul_left _ (Nat.le_sub_one_of_lt (Nat.mod_lt _ hgc))
  rw [Fld.key_eq, Fld.key_eq, hf2, hg2, Nat.mul_zero, Nat.zero_mul, Nat.zero_mul]
  generalize 8 * f.stride * (i % f.count) = x at *
  generalize 8 * g.stride * (j % g.count) = y at *
  omega

theorem Fld.key_ne_of_apart {f g : Fld} (h : f.apart g = true) (n m i j : Nat) : f.key n i ≠ g.key m j := by
  simp only [Fld.apart, Bool.or_eq_true, bne_iff_ne] at h
  rcases h with (h | h) | h
  · obtain ⟨h37, hf, hf2, hg, hg2⟩ := Fld.grain_dvd (dvd_refl (f.grain g))
    intro e
    have hkey := Fld.key_modEq h37 hf hf2 n i
    rw [e] at hkey
    exact h (hkey.symm.trans (Fld.key_modEq h37 hg hg2 m j))
  · exact Fld.key_ne_of_below h n m i j
  · exact (Fld.key_ne_of_below h m n j i).symm

variable {s : State}

theorem State.getO_setO_apart {f g : Fld} {n i m j v : Nat} (h : g.apart f = true) : (s.setO f n i v).getO g m j = s.getO g m j :=
  State.getO_setO_ne (Fld.key_ne_of_apart h m n j i)

theorem State.get_set_apart {f g : Fld} {i j v : Nat} (h : g.apart f = true) : (s.set f i v).get g j = s.get g j :=
  State.getO_setO_apart h

theorem State.getO_set_apart {f g : Fld} {i m j v : Nat} (h : g.apart f = true) : (s.set f i v).getO g m j = s.getO g m j :=
  State.getO_setO_apart h

theorem State.isSet_set_apart {f g : Fld} {i j v : Nat} (h : g.apart f = true) : (s.set f i v).isSet g j = s.isSet g j :=
  congrArg (· == 1) (State.get_set_apart h)

theorem State.get_count_apart {f g : Fld} {i j k : Nat} (h : g.apart f = true) : (s.count f i k).get g j = s.get g j :=
  State.getO_setO_apart h

theorem State.isSet_count_apart {f g : Fld} {i j k : Nat} (h : g.apart f = true) : (s.count f i k).isSet g j = s.isSet g j :=
  congrArg (· == 1) (State.get_count_apart h)
end Sys2Proof.Machine
end

section
/-! PROOFS. The voxel unit and streams (O23, O24). -/

namespace Sys2Proof.Machine

open Host Reg

variable {s : State} {x : Cmd} {errs : ReadErrs} {node : Nat}

/-! ## The voxel unit -/

theorem State.voxelCmd_eq {is : NBody → Bool} (hx : s.executing node 6 = some x) (his : is ⟨x.body⟩ = true) :
    s.voxelCmd is node = some x := by
  simp [State.voxelCmd, hx, his]

/-- The status of an INTEGRATE is one of its conditions, or OK. -/
theorem State.runIntegrate_cmd (s : State) (node : Nat) (x : Cmd) (errs : ReadErrs) : ∃ y, (s.runIntegrate node x errs).cmd x.key = some y ∧
    y.phase = .finished ∧ y.status ∈ [Status.ok, .queueFull, .tileUncorrectable, .poisonedInput] := by
  have hstatus : ∀ full lost poison : Bool, pickStatus ((if full then [Status.queueFull] else []) ++
      (if lost then [.tileUncorrectable] else []) ++ (if poison then [.poisonedInput] else [])) ∈
      [Status.ok, .queueFull, .tileUncorrectable, .poisonedInput] := by decide
  unfold State.runIntegrate
  extract_lets b part r q s1 met
  exact ⟨_, State.cmd_finish _ _ _, rfl, hstatus q.full r.lost r.poison⟩

/-- A COMMIT ends QUEUE_FULL with the epoch that stands, or with the next epoch (R210). -/
theorem State.runCommit_cmd (s : State) (node : Nat) (x : Cmd) (errs : ReadErrs) : ∃ y, (s.runCommit node x errs).cmd x.key = some y ∧
    y.phase = .finished ∧ ((y.status = .queueFull ∧ y.result = s.mapEpoch node (NBody.map ⟨x.body⟩)) ∨
      (y.status ∈ [Status.ok, .tileUncorrectable, .poisonedInput] ∧ y.result = (s.mapEpoch node (NBody.map ⟨x.body⟩) + 1) % 2 ^ 32)) := by
  have hstatus : ∀ lost poison : Bool, pickStatus ((if lost then [Status.tileUncorrectable] else []) ++
      (if poison then [.poisonedInput] else [])) ∈ [Status.ok, .tileUncorrectable, .poisonedInput] := by decide
  unfold State.runCommit
  extract_lets
  split
  · exact ⟨_, State.cmd_finish _ _ _, rfl, .inl ⟨rfl, rfl⟩⟩
  · exact ⟨_, State.cmd_finish _ _ _, rfl, .inr ⟨hstatus _ _, rfl⟩⟩

/-- Settles O23. -/
theorem voxelCommandsFinish : Obligations.VoxelCommandsFinish := by
  intro s node errs x hs hx b part hden hbad hfor hwait
  have hpass : s.voxelRefused node x = none := by
    unfold State.voxelRefused
    rw [if_neg (by simpa using hden), if_neg (by simp [b, part] at hbad hfor; simp [hbad, hfor])]
  refine ⟨fun hop => ?_, fun hop hstart => ?_, fun hop hstart hheld => ?_⟩
  · obtain ⟨y, hy, hphase, hstatus⟩ := s.runIntegrate_cmd node x errs
    refine ⟨_, y, (State.onClock_of hs).trans ?_, rfl, hy, hphase, hstatus⟩
    rw [State.voxelCmd_eq hx (by simp [b] at hop; simp [hop])]
    dsimp only
    rw [hpass]
    exact if_neg (by simp [b] at hwait; simp [hwait])
  · refine (State.onClock_of hs).trans ?_
    rw [State.voxelCmd_eq hx (by simp [b] at hop; simp [hop])]
    dsimp only
    rw [hpass, if_neg (not_not.2 hstart)]
    exact if_neg (by simp [b] at hwait; simp [hwait])
  · obtain ⟨y, hy, hphase, hstatus⟩ := s.runCommit_cmd node x errs
    refine ⟨_, y, (State.onClock_of hs).trans ?_, rfl, hy, hphase, hstatus⟩
    rw [State.voxelCmd_eq hx (by simp [b] at hop; simp [hop])]
    exact if_neg (by simp [b] at hheld; simp [hstart, hheld])

/-! ## Streams -/

theorem State.scanCmd_eq {is : Nat → Bool} (hx : s.executing node 3 = some x) (his : is (SBody.op ⟨x.body⟩) = true) :
    s.scanCmd is node = some x := by
  simp [State.scanCmd, hx, his]

theorem bits_zero (v w : Nat) : bits v 0 w = v % 2 ^ w := by simp [bits]

theorem thas_eq_false {α : Type} {t : Tab α} {k : Nat} (h : tfind t k = none) : thas t k = false := by
  induction t with
  | nil => rfl
  | cons e t ih =>
    obtain ⟨j, v⟩ := e
    by_cases hj : j = k
    · simp [tfind, hj] at h
    · simp only [tfind, if_neg hj] at h
      simp [thas, hj, ih h]

/-- R168: the steps of a doorbell stand behind those of earlier cycles and, in their own cycle, in slot order. -/
theorem queueSteps_eq (now slot add : Nat) (q : List (Nat × Nat)) : ∃ early late,
    queueSteps now slot add q = early ++ List.replicate add (now, slot) ++ late ∧ (early ++ late).Perm q ∧
    (∀ e ∈ early, e.1 = now → e.2 ≤ slot) ∧ (∀ e ∈ late, e.1 = now ∧ slot < e.2) := by
  refine ⟨_, _, rfl, List.filter_append_perm _ q, fun e he hnow => ?_, fun e he => ?_⟩
  · simpa [hnow] using (List.mem_filter.1 he).2
  · simpa using (List.mem_filter.1 he).2

/-- R166: what the registers of a stream show once its slot is open. -/
theorem State.getO_openStream (u : State) (slot origin v : Nat) :
    let t := ((((u.setO ONX_Q_STREAM.OPEN node slot 1).setO ONX_Q_STREAM.POISON node slot 0).setO ONX_Q_STREAM.PENDING node slot 0).setO
      ONX_Q_STREAM.NEXT node slot origin).setO ONX_Q_STATUS.OPEN node 0 v
    t.getO ONX_Q_STREAM.OPEN node slot = 1 ∧ t.getO ONX_Q_STREAM.PENDING node slot = 0 ∧ t.getO ONX_Q_STREAM.POISON node slot = 0 ∧
      t.getO ONX_Q_STREAM.NEXT node slot = origin % 2 ^ 32 := by
  refine ⟨?_, ?_, ?_, ?_⟩ <;> simp (disch := decide) only [State.getO_setO_apart, State.getO_setO_self] <;> rfl

theorem State.ringDoorbell_eq {slot add : Nat} (hopen : s.getO ONX_Q_STREAM.OPEN node slot = 1) (hadd : add ≠ 0)
    (hroom : s.getO ONX_Q_STREAM.PENDING node slot + add ≤ 255) : s.ringDoorbell node slot add =
      let s1 := s.setO ONX_Q_STREAM.PENDING node slot (s.getO ONX_Q_STREAM.PENDING node slot + add)
      { s1 with seq := { s1.seq with queue := tset s1.seq.queue node (queueSteps s.time.now slot add (tget [] s1.seq.queue node)) } } := by
  simp [State.ringDoorbell, hopen, hadd, Nat.not_lt.2 hroom]

/-- Settles O24. -/
theorem streamCommandsRun : Obligations.StreamCommandsRun := by
  intro s node errs hs
  refine ⟨?_, ?_, fun src slot val hw hslot hopen hadd hroom => ?_, fun e he hidle => ?_, ?_⟩
  · intro x b hx hop hb
    have hstatus : ∀ lost poison : Bool, pickStatus ((if lost then [Status.tileUncorrectable] else []) ++
      (if poison then [.poisonedInput] else [])) ∈ [Status.ok, .tileUncorrectable, .poisonedInput] := by decide
    have hcmd : s.scanCmd (fun o => o == 1) node = some x := State.scanCmd_eq hx (by simp [b] at hop; simp [hop])
    have hexec : exec (.streamOpen node errs) s = _ := State.onClock_of hs
    rw [hcmd] at hexec
    dsimp -zeta only at hexec
    extract_lets part slot at hexec
    rw [State.guardPlan_of_passes hb] at hexec
    dsimp -zeta only at hexec
    extract_lets r bad s1 s2 seq s3 at hexec
    obtain ⟨hopen, hpending, hpoison, hnext⟩ := State.getO_openStream (node := node) s1 slot b.origin
      (setBit (s1.getO ONX_Q_STATUS.OPEN node 0) slot true)
    have hregs (st : Status) : (s3.finish x st 0).regs = s2.regs := rfl
    have hread (st : Status) (f : Fld) : (s3.finish x st 0).getO f node b.slot = s2.getO f node slot := by
      unfold State.getO
      rw [hregs]
    have hdone (st : Status) := State.cmd_finish (s := s3) x st 0
    refine ⟨_, _, hexec, ?_, ?_, ?_, ?_, ?_, hdone _, rfl, hstatus r.lost r.poison⟩
    · exact tfind_tset_self
    · exact (hread _ _).trans hopen
    · exact (hread _ _).trans hpending
    · exact (hread _ _).trans hpoison
    · exact (hread _ _).trans hnext
  · intro x slot hx hop hbad hstep
    refine (State.onClock_of hs).trans ?_
    rw [State.scanCmd_eq hx (by simp [hop])]
    dsimp only
    rw [if_neg (by simp [hbad]), if_neg hstep]
  · have hclk : exec (.streamDoorbell src node slot val) s = .next (s.ringDoorbell node slot (val % 2 ^ 8)) := by
      refine (State.onClock_of hs).trans ?_
      rw [hw, if_neg (by decide), if_neg (Nat.not_le.2 hslot), bits_zero]
    rw [State.ringDoorbell_eq hopen hadd hroom] at hclk
    obtain ⟨early, late, hq, hperm, hearly, hlate⟩ := queueSteps_eq s.time.now slot (val % 2 ^ 8) (tget [] s.seq.queue node)
    refine ⟨_, early, late, hclk, ?_, ?_, hperm, hearly, hlate, ?_⟩
    · exact (State.getO_setO_self _ _ _ _).trans (Nat.mod_eq_of_lt (by show _ < 256; omega))
    · exact (tget_tset_self).trans hq
    · have hset := State.setO_within (k := 524290) rfl (.refl _ s) ONX_Q_STREAM.PENDING node slot
        (s.getO ONX_Q_STREAM.PENDING node slot + val % 2 ^ 8)
      exact (Within.seq (k := 524290) rfl hset _).sameBut (by decide)
  · have hexec : exec (.streamStep node) s = _ := State.onClock_of hs
    rw [he] at hexec
    dsimp only at hexec
    rw [thas_eq_false hidle, if_neg (by decide)] at hexec
    exact ⟨_, hexec, tget_tset_self, tfind_tset_self, (Within.seq (k := 524288) rfl (.refl _ s) _).sameBut (by decide)⟩
  · intro slot w hstep hw
    refine (State.onClock_of hs).trans ?_
    rw [hstep]
    dsimp only
    rw [hw]
    rfl
end Sys2Proof.Machine
end

section
/-! PROOFS. The tile mover: transfers run over all their tiles, and tiles start and end (O25, O26). -/

namespace Sys2Proof.Machine

open Host

variable {s : State} {x : Cmd} {f : Xfer} {t : Transfer} {node part free : Nat} {errs : ReadErrs} {e : T3End}

/-! ## The course of a transfer (R74, R75) -/

/-- The tiles of a transfer so far: those in flight are different ones of those started, each of the others was delivered or failed, and
where none failed the transfer goes on and every outcome is usable. -/
structure Transfer.InCourse (t : Transfer) : Prop where
  started_le : t.started ≤ t.count
  index_lt : ∀ g ∈ t.flight, g.index < t.started
  nodup : (t.flight.map (·.index)).Nodup
  ended_le : t.delivered + t.flight.length ≤ t.started
  clean : t.firstFail = none → t.closed = false ∧ t.delivered + t.flight.length = t.started ∧ ∀ st ∈ t.outcomes, st.usable = true

/-- Tiles that have not ended. -/
def Transfer.left (t : Transfer) : Nat := t.count - t.started + t.flight.length

theorem Transfer.inCourse_start (n : Nat) : Transfer.InCourse { count := n } :=
  ⟨Nat.zero_le n, fun _ h => (nomatch h), List.nodup_nil, le_rfl, fun _ => ⟨rfl, rfl, fun _ h => (nomatch h)⟩⟩

theorem State.startTile_inCourse (h : t.InCourse) (hlt : t.started < t.count) :
    (s.startTile node f t).InCourse ∧ (s.startTile node f t).left = t.left := by
  obtain ⟨hle, hidx, hnd, hend, hclean⟩ := h
  have hlen : (s.startTile node f t).flight.length = t.flight.length + 1 := by simp [State.startTile]
  refine ⟨⟨hlt, fun g hg => ?_, ?_, ?_, fun hf => ?_⟩, ?_⟩
  · rcases List.mem_append.1 hg with hg | hg
    · exact Nat.lt_succ_of_lt (hidx g hg)
    · rw [List.mem_singleton.1 hg]
      exact Nat.lt_succ_self t.started
  · have hnew : ∀ g ∈ t.flight, g.index ≠ t.started := fun g hg => Nat.ne_of_lt (hidx g hg)
    simpa [State.startTile, State.flightOf, List.nodup_append, hnd] using hnew
  · rw [hlen]
    exact Nat.succ_le_succ hend
  · obtain ⟨hcl, hdel, hout⟩ := hclean hf
    refine ⟨hcl, ?_, hout⟩
    rw [hlen]
    exact congrArg Nat.succ hdel
  · unfold Transfer.left
    rw [hlen]
    show t.count - (t.started + 1) + (t.flight.length + 1) = _
    omega

/-- Starting tiles keeps the course and what is left, and takes no tile out of flight. -/
theorem State.startTiles_inCourse (h : t.InCourse) (k : Nat) :
    (s.startTiles node f k free t).InCourse ∧ (s.startTiles node f k free t).left = t.left ∧
    (s.startTiles node f k free t).count = t.count ∧ (t.flight ≠ [] → (s.startTiles node f k free t).flight ≠ []) := by
  induction k generalizing t with
  | zero => exact ⟨h, rfl, rfl, id⟩
  | succ k ih =>
    rw [State.startTiles]
    split
    · exact ⟨h, rfl, rfl, id⟩
    · next hgo =>
      simp only [Bool.or_eq_true, decide_eq_true_eq, not_or, Nat.not_le] at hgo
      obtain ⟨hstart, hleft⟩ := State.startTile_inCourse (s := s) (node := node) (f := f) h hgo.1.2
      obtain ⟨h1, h2, h3, h4⟩ := ih hstart
      exact ⟨h1, h2.trans hleft, h3, fun _ => h4 (by simp [State.startTile])⟩

/-- With a slot free, nothing stays in flight only where nothing is left to start. -/
theorem State.startTiles_stop (h : t.InCourse) (hfree : 0 < free) {k : Nat} (hk : 0 < k)
    (hnone : (s.startTiles node f k free t).flight = []) :
    (s.startTiles node f k free t).closed = true ∨ (s.startTiles node f k free t).started = (s.startTiles node f k free t).count := by
  obtain ⟨k, rfl⟩ := Nat.exists_eq_succ_of_ne_zero hk.ne'
  rw [State.startTiles] at hnone ⊢
  split at hnone
  · next hstop =>
    rw [if_pos hstop]
    simp only [Bool.or_eq_true, decide_eq_true_eq, hnone, List.length_nil, Nat.le_zero, hfree.ne', or_false] at hstop
    exact hstop.imp_right fun hcount => Nat.le_antisymm h.started_le hcount
  · next hgo =>
    simp only [Bool.or_eq_true, decide_eq_true_eq, not_or, Nat.not_le] at hgo
    obtain ⟨hstart, -⟩ := State.startTile_inCourse (s := s) (node := node) (f := f) h hgo.1.2
    exact absurd hnone ((State.startTiles_inCourse hstart k).2.2.2 (by simp [State.startTile]))

/-- Booking the oldest tile in flight takes that tile alone. -/
theorem Transfer.book_inCourse {g : TileFlight} {rest : List TileFlight} (h : t.InCourse) (hg : t.flight = g :: rest) (st : Status) :
    (t.book f g.index st).InCourse ∧ (t.book f g.index st).left + 1 = t.left ∧ (t.book f g.index st).count = t.count := by
  obtain ⟨hle, hidx, hnd, hend, hclean⟩ := h
  have hrest : (t.book f g.index st).flight = rest := by
    rw [hg, List.map_cons, List.nodup_cons, List.mem_map, not_exists] at hnd
    have hne : ∀ a ∈ rest, (a.index != g.index) = true := fun a ha => by
      simpa using fun e => hnd.1 a ⟨ha, e⟩
    show t.flight.filter (fun a => a.index != g.index) = rest
    rw [hg, List.filter_cons_of_neg (by simp), List.filter_eq_self.2 hne]
  rw [hg] at hidx hnd hend hclean
  simp only [List.length_cons] at hend hclean
  have hlen : (t.book f g.index st).flight.length = rest.length := congrArg List.length hrest
  refine ⟨⟨hle, fun a ha => hidx a (List.mem_cons_of_mem g (hrest ▸ ha)), hrest ▸ hnd.of_cons, ?_, fun hf => ?_⟩, ?_, rfl⟩
  · rw [hlen]
    show (if st.usable then t.delivered + 1 else t.delivered) + rest.length ≤ t.started
    split <;> omega
  · have hok : st.usable = true := by
      by_contra hbad
      simp [Transfer.book, hbad] at hf
    obtain ⟨hcl, hdel, hout⟩ := hclean (by simpa [Transfer.book, hok] using hf)
    refine ⟨by simp [Transfer.book, hcl, hok], ?_, fun v hv => ?_⟩
    · rw [hlen]
      show (if st.usable then t.delivered + 1 else t.delivered) + rest.length = t.started
      rw [if_pos hok]
      omega
    · have hmem : v ∈ t.outcomes ∨ v = st := by
        change v ∈ (if t.outcomes.contains st then t.outcomes else t.outcomes ++ [st]) at hv
        split at hv
        · exact .inl hv
        · simpa using hv
      rcases hmem with hv | rfl
      · exact hout v hv
      · exact hok
  · unfold Transfer.left
    rw [hlen, hg]
    show t.count - t.started + rest.length + 1 = t.count - t.started + (rest.length + 1)
    omega

/-- A transfer of `n` tiles has come to its end: none is in flight, and none is to start. -/
structure Transfer.Ended (n : Nat) (t : Transfer) : Prop where
  course : t.InCourse
  count : t.count = n
  none_left : t.flight = []
  stopped : t.closed = true ∨ t.started = t.count

/-- With fuel for every tile left a transfer runs until none is in flight and none is to start. -/
theorem State.runTransfer_ends {k : Nat} (h : t.InCourse) (hfree : 0 < free) (hcount : 0 < t.count) (hfuel : t.left < k) :
    (State.runTransfer node part f free errs e k s t).2.Ended t.count := by
  induction k generalizing s t with
  | zero => exact absurd hfuel (Nat.not_lt_zero _)
  | succ k ih =>
    obtain ⟨hcourse, hleft, hcnt, -⟩ := State.startTiles_inCourse (s := s) (node := node) (f := f) (free := free) h t.count
    rw [State.runTransfer]
    dsimp only
    split
    · next hnone => exact ⟨hcourse, hcnt, hnone, State.startTiles_stop h hfree hcount hnone⟩
    · next g rest hg =>
      obtain ⟨hbook, hbooked, hcnt'⟩ := Transfer.book_inCourse (f := f) hcourse hg (pickStatus (s.moveTile node part f g errs e).2)
      have hended := ih (s := (s.endTile node part f (s.startTiles node f t.count free t) g errs e).1) hbook
        (by rw [hcnt', hcnt]; exact hcount) (by omega)
      rwa [hcnt', hcnt] at hended

/-- R75: where every tile was delivered the status is usable. -/
theorem Transfer.InCourse.usable (h : t.InCourse) (hclean : t.firstFail = none) : t.status.usable = true := by
  obtain ⟨-, -, hout⟩ := h.clean hclean
  by_cases hnil : t.outcomes = []
  · rw [Transfer.status, hnil]
    rfl
  · exact hout _ (pickStatus_mem hnil)

theorem State.tfind_keepTransfer (s : State) (x : Cmd) (t : Transfer) : tfind (s.keepTransfer x t).sched.transfers x.key = some t := by
  unfold State.keepTransfer
  dsimp only
  split
  · exact tfind_tset_self
  · exact tfind_tset_self

theorem State.keepTransfer_over (h : t.over = true) :
    (s.keepTransfer x t).cmd x.key = some { x with phase := .finished, status := t.status, result := t.result (xfer x.body) } := by
  unfold State.keepTransfer
  dsimp only
  rw [if_pos h]
  exact State.cmd_finish _ _ _

/-- A transfer that nothing refuses and that is next in issue order runs over all its tiles. -/
theorem State.transferCommand_ends {is : Xfer → Bool} {k seq : Nat} {bad : List Nat} (hx : s.mover k seq = some x)
    (his : is (xfer x.body) = true) (hnew : tfind s.sched.transfers x.key = none)
    (hok : s.transferRefused x.node (s.ctxPart x.ctx) (xfer x.body) = none) (hfree : 0 < s.slotsFor x) :
    ∃ y u, (s.transferCommand is k seq errs bad).cmd x.key = some y ∧
      tfind (s.transferCommand is k seq errs bad).sched.transfers x.key = some u ∧ y.phase = .finished ∧
      u.count = (xfer x.body).count ∧ u.flight = [] ∧ (u.closed = true ∨ u.started = u.count) ∧ u.delivered ≤ u.count ∧
      y.status = u.status ∧ y.result = u.result (xfer x.body) ∧ (u.firstFail = none → u.delivered = u.count ∧ y.status.usable = true) := by
  have hopen : s.openTransfer x = (s, some { count := (xfer x.body).count }) := by simp [State.openTransfer, hnew, hok]
  have heq : s.transferCommand is k seq errs bad =
      (let r := s.runTransfer x.node (s.ctxPart k) (xfer x.body) (s.slotsFor x) errs (T3End.done bad) ((xfer x.body).count + 1)
        { count := (xfer x.body).count }
      r.1.keepTransfer x r.2) := by simp [State.transferCommand, hx, his, hopen]
  have hcount : 0 < (xfer x.body).count := Nat.succ_pos _
  have hended := State.runTransfer_ends (s := s) (node := x.node) (part := s.ctxPart k) (f := xfer x.body)
    (errs := errs) (e := T3End.done bad) (k := (xfer x.body).count + 1) (Transfer.inCourse_start (xfer x.body).count) hfree hcount
    (by simp [Transfer.left])
  rw [heq]
  extract_lets r
  obtain ⟨hcourse, hcnt, hnone, hend⟩ : r.2.Ended (xfer x.body).count := hended
  have hdel : r.2.delivered ≤ r.2.started := (Nat.le_add_right _ _).trans hcourse.ended_le
  have hover : r.2.over = true := by
    have hle : r.2.closed = true ∨ r.2.count ≤ r.2.started := hend.imp_right fun h => h.ge
    have hnil : r.2.flight = [] := hnone
    simpa [Transfer.over, hnil] using hle
  refine ⟨_, r.2, State.keepTransfer_over hover, State.tfind_keepTransfer _ _ _, rfl, hcnt, hnone, hend, hdel.trans hcourse.started_le,
    rfl, rfl, fun hclean => ⟨?_, hcourse.usable hclean⟩⟩
  obtain ⟨hopen, hall, -⟩ := hcourse.clean hclean
  rcases hend with hcl | hst
  · exact absurd (hopen.symm.trans hcl) Bool.false_ne_true
  · have hnil : r.2.flight.length = 0 := congrArg List.length hnone
    exact (by omega : r.2.delivered = r.2.started).trans hst

/-- Settles O25. -/
theorem transferCommandsFinish : Obligations.TransferCommandsFinish := by
  intro s k seq errs bad x c f hs hx hkey hnew hok hslots hnext hc
  have hfree : 0 < s.slotsFor x := by
    unfold State.slotsFor
    split
    · next y hy =>
      rw [if_pos (hnext y hy)]
      omega
    · omega
  suffices h : ∃ is errs' bad', is (xfer x.body) = true ∧ exec c s = .next (s.transferCommand is k seq errs' bad') by
    obtain ⟨is, errs', bad', his, hexec⟩ := h
    obtain ⟨y, u, hend⟩ := State.transferCommand_ends (errs := errs') (bad := bad') hx his hnew hok hfree
    exact ⟨_, y, u, hexec, hend⟩
  simp only [List.mem_cons, Prod.mk.injEq, List.not_mem_nil, or_false] at hc
  rcases hc with ⟨hop, rfl⟩ | ⟨hop, rfl⟩ | ⟨hop, rfl⟩ | ⟨hop, rfl⟩ | ⟨hop, rfl⟩ | ⟨hop, rfl⟩ | ⟨hop, rfl⟩
  · by_cases hb : f.broadcast = true
    · rw [if_pos hb]
      exact ⟨_, _, _, hb, State.onClock_of hs⟩
    · rw [if_neg hb]
      exact ⟨_, _, _, by simp [f] at hop hb; simp [hop, hb], State.onClock_of hs⟩
  all_goals exact ⟨_, _, _, by simp [f] at hop; simp [hop], State.onClock_of hs⟩

/-! ## Tiles start and end (O26) -/

section
variable {w : Transfer} {g : TileFlight} {k seq index : Nat}

/-- A tile in flight ends: its transfer books the status that is picked, and memory is as its work left it. -/
theorem State.tileEnds_booked (hx : s.mover k seq = some x) (hw : tfind s.sched.transfers x.key = some w)
    (hg : w.flight.find? (fun f => f.index == index) = some g) :
    let r := s.moveTile x.node (s.ctxPart k) (xfer x.body) g errs e
    let t := s.tileEnds k seq index errs e
    tfind t.sched.transfers x.key = some (w.book (xfer x.body) index (pickStatus r.2)) ∧ t.mem = r.1.mem ∧ t.t1 = r.1.t1 ∧
      t.hostMem = r.1.hostMem ∧ t.poison = r.1.poison := by
  intro r t
  have hidx : g.index = index := by simpa using List.find?_some hg
  let u := r.1.sentPackets x.node (s.ctxPart k) (xfer x.body) g
  have ht : t = u.keepTransfer x (w.book (xfer x.body) index (pickStatus r.2)) := by
    rw [← hidx]
    simp [t, State.tileEnds, hx, hw, hg, State.endTile, u, r]
  have hk := State.keepTransfer_within (x := x) (t := w.book (xfer x.body) index (pickStatus r.2)) (k := 36864) rfl
    (State.sentPackets_within (n := x.node) (part := s.ctxPart k) (x := xfer x.body) (f := g) (k := 36864) rfl (.refl _ r.1))
  rw [ht]
  exact ⟨State.tfind_keepTransfer .., hk.parts .mem rfl, hk.parts .t1 rfl, hk.parts .hostMem rfl, hk.parts .poison rfl⟩

/-- A tile of a copy from T3 or of a fill of T3 that T3 leaves without an answer: LOWER_TIER_TIMEOUT comes before LINK_DEGRADED. -/
theorem State.moveTile_timeout {f : Xfer} {received : List Nat} (ht3 : f.op = 0 ∧ f.srcT3 = true ∨ f.op = 1 ∧ f.dstT3 = true)
    (hlost : g.lost = false) : pickStatus (s.moveTile node part f g {} (.timeout received)).2 = .lowerTierTimeout := by
  unfold State.moveTile
  extract_lets src dst dsts e' q r
  obtain ⟨got, he'⟩ : ∃ got, e' = .timeout got := by
    by_cases hup : ((decide (f.op = 0) && f.srcT3 || decide (f.op ≤ 1) && f.dstT3) && !s.hostUp) = true
    · exact ⟨[], if_pos hup⟩
    · exact ⟨received, if_neg hup⟩
  have hr : r.2 = [.lowerTierTimeout] := by
    rcases ht3 with ⟨hop, hsrc⟩ | ⟨hop, hdst⟩
    · have hcopy : r = s.copyTile part f.alloc src dsts {} e' := by
        unfold r
        rw [hop]
        rfl
      rw [hcopy, he']
      simp [State.copyTile, show src.t3 = true from hsrc]
    · have hfill : r = s.fillTile part f.alloc f.pattern dst e' := by
        unfold r
        rw [hop]
        rfl
      rw [hfill, he']
      simp [State.fillTile, State.closeT3, show dst.t3 = true from hdst]
  rw [hr, hlost]
  cases g.links.any fun l => s.linkState l == 2 <;> rfl

/-- A packet that fails authentication: the failure is counted, and the tile is booked. -/
theorem execPacketAuthFail_booked {j : Nat} (hs : s.clocked = true) (hx : s.mover k seq = some x)
    (hw : tfind s.sched.transfers x.key = some w) (hg : w.flight.find? (fun f => f.index == index) = some g) (hlinks : g.links ≠ [])
    (hprot : (s.prot (s.ctxPart k)).isProt = true) (hj : 256 * j < (xfer x.body).size) :
    ∃ t, exec (.packetAuthFail k seq index j errs) s = .next t ∧
      tfind t.sched.transfers x.key = some (w.book (xfer x.body) index (if g.lost then .nodeLost else .tileUncorrectable)) ∧
      t.sec.authFails = s.sec.authFails + 1 := by
  have hgo : (g.links.isEmpty || !(s.prot (s.ctxPart k)).isProt || decide ((xfer x.body).size ≤ 256 * j)) = false := by
    simpa [hlinks, hprot] using hj
  have hexec : exec (.packetAuthFail k seq index j errs) s = _ := State.onClock_of hs
  rw [hx] at hexec
  dsimp -zeta only at hexec
  rw [hw] at hexec
  dsimp -zeta only at hexec
  rw [hg] at hexec
  dsimp -zeta only at hexec
  extract_lets xf src r got s1 sec s2 at hexec
  have hif : (g.links.isEmpty || !(s.prot (s.ctxPart k)).isProt || decide (xf.size ≤ 256 * j)) = false := hgo
  rw [hif] at hexec
  have hsec : s1.sec = s.sec := (State.sentPackets_within (k := 33750) rfl
    (State.cutTile_within (k := 33750) rfl (State.readSectors_within (k := 33750) rfl (.refl _ s)))).parts .sec rfl
  have hst : pickStatus (.tileUncorrectable :: (if g.lost then [.nodeLost] else [])) = if g.lost then Status.nodeLost else .tileUncorrectable := by
    cases g.lost <;> rfl
  refine ⟨_, hexec, ?_, ?_⟩
  · rw [hst]
    exact State.tfind_keepTransfer ..
  · have hkeep : (s2.keepTransfer x (w.book xf index (pickStatus (.tileUncorrectable :: (if g.lost then [.nodeLost] else []))))).sec = s2.sec :=
      (State.keepTransfer_within (k := 4096) rfl (.refl _ s2)).parts .sec rfl
    rw [hkeep]
    show s1.sec.authFails + 1 = _
    rw [hsec]
end

/-- Settles O26. -/
theorem tilesStartAndEnd : Obligations.TilesStartAndEnd := by
  refine ⟨fun s x w hs => ⟨fun node hnext hslots hw => ?_, fun k seq index g hx hw hg => ⟨fun errs bad => ?_, fun received ht3 hdue => ?_⟩⟩,
    fun s k seq index j errs x w g hs hx hw hg hlinks hprot hj => execPacketAuthFail_booked hs hx hw hg hlinks hprot hj⟩
  · have hopen : s.openTransfer x = (s, some w) := by
      rcases hw with hw | ⟨hw, hok, rfl⟩
      · simp [State.openTransfer, hw]
      · simp [State.openTransfer, hw, hok]
    have hexec : exec (.tileStart node) s = .next (s.keepTransfer x (s.startTile node (xfer x.body) w)) := by
      refine (State.onClock_of hs).trans ?_
      rw [hnext]
      dsimp only
      rw [if_neg (Nat.not_le.2 hslots), hopen]
    refine ⟨_, _, hexec, State.tfind_keepTransfer .., rfl, rfl, rfl, ?_⟩
    exact (State.keepTransfer_within (k := 4096) rfl (.refl _ s)).sameBut (by decide)
  · intro r
    exact ⟨_, State.onClock_of hs, State.tileEnds_booked hx hw hg⟩
  · intro r
    have hexp : s.t3Expired x index = true := by
      have hmem : g ∈ w.flight := List.mem_of_find?_eq_some hg
      have hidx : g.index = index := by simpa using List.find?_some hg
      simp only [State.t3Expired, hw, List.any_eq_true]
      exact ⟨g, hmem, by simp [hidx, hdue]⟩
    have hexec : exec (.t3Timeout k seq index received) s = .next (s.tileEnds k seq index {} (.timeout received)) := by
      refine (State.onClock_of hs).trans ?_
      rw [hx]
      refine congrArg Outcome.next (if_pos ?_)
      simpa [hexp] using ht3
    obtain ⟨hbook, -⟩ := State.tileEnds_booked (errs := {}) (e := .timeout received) hx hw hg
    refine ⟨_, hexec, hbook, fun hlost hop => State.moveTile_timeout ?_ hlost⟩
    rcases ht3 with ht3 | ⟨hle, hdst⟩
    · exact .inl ht3
    · rcases hop with hop | hsrc
      · exact .inr ⟨hop, hdst⟩
      · rcases Nat.le_one_iff_eq_zero_or_eq_one.1 hle with h0 | h1
        · exact .inl ⟨h0, hsrc⟩
        · exact .inr ⟨h1, hdst⟩
end Sys2Proof.Machine
end

section
/-! PROOFS. The patrol scrub, scratch ways, and the configuration of KV pools, tables and map slots (O27). -/

namespace Sys2Proof.Machine

open Host Reg

variable {s : State}

theorem bit_setBit_false (v w i : Nat) : bit (setBit v w false) i = (bit v i && i != w) := by
  rw [bit_eq_testBit, bit_eq_testBit, testBit_setBit]
  by_cases h : i = w
  · simp [h]
  · simp [h]

/-- Clearing the bits of a list. -/
theorem bit_foldl_setBit_false (l : List Nat) (v i : Nat) :
    bit (l.foldl (fun m w => setBit m w false) v) i = (bit v i && !l.contains i) := by
  induction l generalizing v with
  | nil => simp
  | cons w l ih =>
    rw [List.foldl_cons, ih, bit_setBit_false]
    simp [bne, Bool.and_assoc, Bool.beq_eq_decide_eq]

theorem bit_mod_two_pow {i w : Nat} (h : i < w) (v : Nat) : bit (v % 2 ^ w) i = bit v i := by
  simp [bit_eq_testBit, h]

theorem State.getO_congr {t : State} (h : t.regs = s.regs) (f : Fld) (n i : Nat) : t.getO f n i = s.getO f n i := by
  unfold State.getO
  rw [h]

theorem State.geoMap_setGeo_self (s : State) (node m : Nat) (g : GeoMap) : (s.setGeo node m g).geoMap node m = g := tget_tput_self

theorem State.mapWaits_congr {t : State} (h : t.geo = s.geo) (node m : Nat) : t.mapWaits node m = s.mapWaits node m := by
  unfold State.mapWaits State.geoMap
  rw [h]

theorem State.mapWaits_setGeo_self (s : State) (node m : Nat) (g : GeoMap) : (s.setGeo node m g).mapWaits node m = g.zeroing :=
  congrArg GeoMap.zeroing (State.geoMap_setGeo_self s node m g)

/-! ## Scratch ways (R69) -/

section
variable {src : Src} {node val : Nat}

theorem exec_waymodeWrite (hs : s.clocked = true) (hn : node < 4) (hreach : s.reaches src node 5 0 = true) :
    ∃ t, exec (.waymodeWrite src node val) s = .next t ∧
      (∀ w, w < 16 → (bit (t.getO ONX_T1_WAYMODE.SCRATCH node 0) w = true ↔
        bit val w = true ∧ (bit (s.getO ONX_T1_WAYMODE.SCRATCH node 0) w = true ∨ s.wayHolds node w = false))) ∧
      s.sameBut [.regs] t := by
  have hexec : exec (.waymodeWrite src node val) s = _ := State.onClock_of hs
  rw [if_neg (Nat.not_le.2 hn), if_neg (by simp [hreach])] at hexec
  extract_lets old want refused new s1 at hexec
  have hget (t : State) (ht : t = if refused.isEmpty then s1 else s1.setO ONX_T1_STATUS.CFG_ERR node 0 1) :
      t.getO ONX_T1_WAYMODE.SCRATCH node 0 = new % 2 ^ 16 := by
    rw [ht]
    split
    · exact State.getO_setO_self ..
    · exact (State.getO_setO_apart (by decide)).trans (State.getO_setO_self ..)
  refine ⟨_, hexec, fun w hw => ?_, ?_⟩
  · have hwant : bit want w = bit val w := by
      unfold want
      rw [bits_zero, bit_mod_two_pow hw]
    have href : refused.contains w = (bit val w && !bit old w && s.wayHolds node w) := by
      rw [← hwant, Bool.eq_iff_iff]
      simp [refused, hw, and_assoc]
    rw [hget _ rfl, bit_mod_two_pow hw]
    unfold new
    rw [bit_foldl_setBit_false, hwant, href]
    cases bit val w <;> cases bit old w <;> cases s.wayHolds node w <;> decide
  · have hs1 : Within 2 s s1 := State.setO_within (k := 2) rfl (.refl _ s) _ _ _ _
    have ht : Within 2 s (if refused.isEmpty then s1 else s1.setO ONX_T1_STATUS.CFG_ERR node 0 1) := by
      split
      · exact hs1
      · exact State.setO_within (k := 2) rfl hs1 _ _ _ _
    exact ht.sameBut (by decide)

/-- A KV pool that is enabled is zeroed first (R146). -/
theorem exec_kvpoolWrite {p : Nat} (hs : s.clocked = true) (hp : p < 16) (hw : s.onyxWrites src node 1 = true)
    (hoff : s.getO ONX_M_KVPOOL.ENABLE node p ≠ 1) :
    ∃ t, exec (.kvpoolWrite src node p val) s = .next t ∧ t.getO ONX_M_KVPOOL.BASE node p = bits val 0 28 ∧
      t.getO ONX_M_KVPOOL.PSIZE node p = bits val 28 2 ∧ t.getO ONX_M_KVPOOL.ENABLE node p = bits val 30 1 ∧
      t.getO ONX_M_KVPOOL.PAGES node p = bits val 32 18 ∧ (bit val 30 = true → 16 * node + p ∈ t.kv.zeroing) := by
  have hexec : exec (.kvpoolWrite src node p val) s = _ := State.onClock_of hs
  rw [if_neg (Nat.not_le.2 hp), if_neg (by simp [hw])] at hexec
  extract_lets en was s1 zeroed kv at hexec
  have hwas : was = false := by simpa [was] using hoff
  rw [hwas] at hexec
  have hen : b2n en = bits val 30 1 := by
    show (if val / 2 ^ 30 % 2 == 1 then 1 else 0) = val / 2 ^ 30 % 2
    rcases Nat.mod_two_eq_zero_or_one (val / 2 ^ 30) with h | h
    · rw [h]
      rfl
    · rw [h]
      rfl
  have hfields (t : State) (ht : t.regs = s1.regs) : t.getO ONX_M_KVPOOL.BASE node p = bits val 0 28 ∧
      t.getO ONX_M_KVPOOL.PSIZE node p = bits val 28 2 ∧ t.getO ONX_M_KVPOOL.ENABLE node p = bits val 30 1 ∧
      t.getO ONX_M_KVPOOL.PAGES node p = bits val 32 18 := by
    have hget (f : Fld) : t.getO f node p = s1.getO f node p := State.getO_congr ht f node p
    rw [hget, hget, hget, hget, ← hen]
    unfold s1
    simp (disch := decide) only [State.getO_setO_apart, State.getO_setO_self]
    refine ⟨Nat.mod_eq_of_lt (bits_lt _ _ _), Nat.mod_eq_of_lt (bits_lt _ _ _), ?_, Nat.mod_eq_of_lt (bits_lt _ _ _)⟩
    cases en <;> rfl
  by_cases h : en = true
  · rw [h] at hexec
    have hregs : zeroed.regs = s1.regs := (State.writeRun_within (k := 912) rfl (.refl _ s1)).parts .regs rfl
    obtain ⟨hbase, hsize, henable, hpages⟩ := hfields _ hregs
    exact ⟨_, hexec, hbase, hsize, henable, hpages, fun _ => mem_sinsert_self _ _⟩
  · have hfalse : en = false := by simpa using h
    rw [hfalse] at hexec
    obtain ⟨hbase, hsize, henable, hpages⟩ := hfields s1 rfl
    exact ⟨_, hexec, hbase, hsize, henable, hpages, fun hbit => absurd hbit h⟩

/-- A map slot that is enabled starts at epoch 0 with its area being zeroed (R208). -/
theorem exec_mapcfgWrite {m : Nat} (hs : s.clocked = true) (hm : m < 4) (hw : s.onyxWrites src node 4 = true)
    (hoff : s.mapOn node m = false) (hok : mapValueOk 0 val = true) (hen : bit val 28 = true) :
    ∃ t, exec (.mapcfgWrite src node m 0 val) s = .next t ∧ t.getO ONX_G_MAPCFG.ENABLE node m = 1 ∧
      t.getO ONX_G_MAPCFG.DIR_BASE node m = bits val 0 28 ∧ t.getO ONX_G_MAPCFG.DCLIP node m = bits val 32 9 ∧
      t.getO ONX_G_MAPSTAT.EPOCH node m = 0 ∧ t.mapWaits node m = true ∧ s.sameBut [.regs, .geo] t := by
  have hexec : exec (.mapcfgWrite src node m 0 val) s = _ := State.onClock_of hs
  rw [if_neg (by simp; omega), if_neg (by simp [hw])] at hexec
  extract_lets on clears s1 s2 at hexec
  have hon : on = false := hoff
  rw [hok, hon, hen] at hexec
  have h28 : bits val 28 1 = 1 := by simpa [bit, bits] using hen
  have hgeo : s2.getO = ((s1.setO ONX_G_MAPSTAT.EPOCH node m 0).setO ONX_G_MAPSTAT.BUF node m 0).getO := rfl
  refine ⟨_, hexec, ?_, ?_, ?_, ?_, ?_, ?_⟩
  · simp (disch := decide) only [State.getO_setO_apart, hgeo]
    unfold s1 State.storeMap
    simp (disch := decide) only [State.getO_setO_apart, State.getO_setO_self, h28]
    rfl
  · simp (disch := decide) only [State.getO_setO_apart, hgeo]
    unfold s1 State.storeMap
    simp (disch := decide) only [State.getO_setO_apart, State.getO_setO_self]
    exact Nat.mod_eq_of_lt (bits_lt _ _ _)
  · simp (disch := decide) only [State.getO_setO_apart, hgeo]
    unfold s1 State.storeMap
    simp (disch := decide) only [State.getO_setO_apart, State.getO_setO_self]
    exact Nat.mod_eq_of_lt (bits_lt _ _ _)
  · simp (disch := decide) only [State.getO_setO_apart, State.getO_setO_self, hgeo]
    exact Nat.zero_mod _
  · exact (State.mapWaits_congr (State.setO_geo ..) node m).trans (State.mapWaits_setGeo_self _ node m _)
  · have hs1 : Within 1048578 s s1 := State.storeMap_within (k := 1048578) rfl (.refl _ s)
    have hs2 : Within 1048578 s s2 := State.setGeo_within (k := 1048578) rfl
      (State.setO_within (k := 1048578) rfl (State.setO_within (k := 1048578) rfl hs1 _ _ _ _) _ _ _ _)
    exact (State.setO_within (k := 1048578) rfl hs2 _ _ _ _).sameBut (by decide)

theorem exec_mapInitDone {m : Nat} (hs : s.clocked = true) (hwait : s.mapWaits node m = true) :
    ∃ t, exec (.mapInitDone node m) s = .next t ∧ t.mapWaits node m = false := by
  have hexec : exec (.mapInitDone node m) s = _ := State.onClock_of hs
  have hz : (s.geoMap node m).zeroing = true := hwait
  rw [if_neg (by simp [hz])] at hexec
  extract_lets g s1 s2 at hexec
  have hs2 : s2.geo = s1.geo := by
    unfold s2
    split
    · exact (State.writeRun_within (k := 912) rfl (.refl _ s1)).parts .geo rfl
    · rfl
  have hgeo : (s2.showPool node m).geo = s1.geo := by
    unfold State.showPool
    rw [State.setO_geo, State.setO_geo, hs2]
  have hdone : s1.mapWaits node m = false := State.mapWaits_setGeo_self s node m _
  exact ⟨_, hexec, (State.mapWaits_congr hgeo node m).trans hdone⟩

end

/-- Settles O27. -/
theorem unitConfiguration : Obligations.UnitConfiguration := by
  refine ⟨fun s node hs hn => ⟨fun sector hsec hup => ?_, fun src val _ _ hreach => exec_waymodeWrite hs hn hreach⟩,
    fun s src node val hs => ⟨fun p hp hw => ⟨fun hoff => exec_kvpoolWrite hs hp hw hoff, fun hon hbad => ?_⟩, fun p => ?_,
      fun off b hw hb => ⟨fun huse => ?_, fun huse => ?_⟩, fun off g hw hg hok => ⟨fun huse => ?_, fun huse => ?_⟩,
      fun m hm hw hoff hok hen => exec_mapcfgWrite hs hm hw hoff hok hen, fun m hwait => exec_mapInitDone hs hwait⟩⟩
  · intro a
    have hgo : (decide (4 ≤ node) || decide (0x10000000 ≤ sector) || !s.t2Up node) = false := by simp [hup]; omega
    refine ⟨(State.onClock_of hs).trans ?_, (State.onClock_of hs).trans ?_⟩
    · rw [hgo]
      rfl
    · rw [hgo]
      rfl
  · refine (State.onClock_of hs).trans ?_
    have hif : ((s.getO ONX_M_KVPOOL.ENABLE node p == 1) && (bit val 30 || s.poolHeld node p)) = true := by simpa [hon] using hbad
    rw [if_neg (Nat.not_le.2 hp), if_neg (by simp [hw])]
    exact if_pos hif
  · refine ⟨_, State.onClock_of hs, ?_, ?_⟩
    · simp [sdel]
    · exact (Within.kv (k := 262144) rfl (.refl _ s) _).sameBut (by decide)
  · refine (State.onClock_of hs).trans ?_
    simp [hw, hb, huse]
  · refine (State.onClock_of hs).trans ?_
    simp [hw, hb, huse]
  · refine (State.onClock_of hs).trans ?_
    have hcfg : (decide (off < 0x10000) && !gcfgOk val) = false := by simpa using hok
    rw [if_neg (by simp [hw]), hg]
    dsimp only
    rw [hcfg, huse]
    rfl
  · refine (State.onClock_of hs).trans ?_
    have hcfg : (decide (off < 0x10000) && !gcfgOk val) = false := by simpa using hok
    rw [if_neg (by simp [hw]), hg]
    dsimp only
    rw [hcfg, huse]
    rfl
end Sys2Proof.Machine
end

section
/-! PROOFS. Commands are fetched, dispatched and completed (O28). -/

namespace Sys2Proof.Machine

open Host Reg

variable {s : State}

/-! ## Fetch -/

theorem State.takeSeq_eq (s : State) (k : Nat) (e : Bool) :
    (s.takeSeq k e).1 = (s.ctx k).nextSeq ∧ (s.takeSeq k e).2.sqHead k = (s.sqHead k + 1) % s.ringSize k % 2 ^ 15 ∧
      ((s.takeSeq k e).2.ctx k).nextSeq = ((s.ctx k).nextSeq + 1) % 2 ^ 32 ∧
      ((s.takeSeq k e).2.ctx k).reserved = (s.ctx k).reserved + 1 := by
  unfold State.takeSeq State.sqHead
  dsimp only
  rw [State.ctx_set, State.ctx_setCtx_self]
  exact ⟨rfl, State.get_set_self .., rfl, rfl⟩

/-! ## Dispatch -/

/-- The tables of the scheduler after a grant: only contexts change after the ones named. -/
theorem State.grant_tables (s : State) (node inst : Nat) (x : Cmd) :
    ∃ y : Cmd, y.key = x.key ∧ y.phase = .running ∧ y.node = node ∧ y.inst = inst ∧
      (s.grant node inst x).sched.cmds = tset s.sched.cmds x.key y ∧
      (s.grant node inst x).sched.lastGrant = tset s.sched.lastGrant (16 * node + inst) x.ctx ∧
      (inst ≠ 12 → (s.grant node inst x).sched.busy = tset s.sched.busy (16 * node + inst) x.key) := by
  refine ⟨{ x with
    phase := .running, node := node, inst := inst,
    anchor := if x.phase == .waiting && (x.engine == 7 || x.engine == 8) then s.startEpoch node x else x.anchor },
    rfl, rfl, rfl, rfl, ?_, ?_, fun hinst => ?_⟩
  · unfold State.grant
    dsimp only
    split <;> rfl
  · unfold State.grant
    dsimp only
    split <;> rfl
  · unfold State.grant
    simp only [if_neg hinst]
    split <;> rfl

/-- What a grant makes of the command: it runs on its engine, and the round robin remembers its context. -/
theorem State.grant_spec (s : State) (node inst : Nat) (x : Cmd) :
    ∃ y, (s.grant node inst x).cmd x.key = some y ∧ y.phase = .running ∧ y.node = node ∧ y.inst = inst ∧
      (inst ≠ 12 → (s.grant node inst x).executing node inst = some y) ∧
      tfind (s.grant node inst x).sched.lastGrant (16 * node + inst) = some x.ctx := by
  obtain ⟨y, hkey, hphase, hnode, hinst, hcmds, hgrant, hbusy⟩ := s.grant_tables node inst x
  have hcmd : (s.grant node inst x).cmd x.key = some y := by
    unfold State.cmd
    rw [hcmds]
    exact tfind_tset_self
  refine ⟨y, hcmd, hphase, hnode, hinst, fun h12 => ?_, ?_⟩
  · simp [State.executing, State.running, hbusy h12, tfind_tset_self, hcmd, hphase]
  · rw [hgrant]
    exact tfind_tset_self

/-! ## Completion -/

theorem State.doneStatus_eq (s : State) (x : Cmd) : s.doneStatus x =
    (open Classical in if (x.engine = 7 ∨ x.engine = 8) ∧
        (∃ e, x.anchor = some e ∧ s.getO ONX_G_MAPSTAT.EPOCH x.node (bits x.body 4 2) ≠ e)
      then x.status.first .staleEpoch else x.status) := by
  unfold State.doneStatus
  cases x.anchor with
  | none => simp
  | some e => simp [Bool.and_eq_true, Bool.or_eq_true]

theorem Status.notExecuted_iff {st : Status} (h : st ≠ .denied) : Status.notExecuted st = true ↔ st = .badDescriptor ∨ st = .badLayout := by
  cases st <;> simp [Status.notExecuted] at h ⊢

/-- Settles O28. -/
theorem commandLifecycle : Obligations.CommandLifecycle := by
  refine ⟨fun s k errs timeout hs hfetch => ⟨fun hloc => ?_, fun hloc => ?_, ?_, s.takeSeq_eq k⟩,
    fun s x hs => ⟨fun node inst hinst hbusy hheld hpick => ?_, fun k seq hcmd hphase hst => ?_⟩⟩
  · refine (State.onClock_of hs).trans ?_
    simp [hfetch, hloc]
  · intro r
    have hexec : exec (.commandFetch k errs) s =
        .next (if r.lost || r.poison then r.st.fetchFail k .tileUncorrectable else r.st.accept k (r.st.word (s.sqEntry k) 64)) := by
      refine (State.onClock_of hs).trans ?_
      rw [if_neg (by simp [hfetch]), if_neg hloc]
    refine ⟨fun hl hp => ?_, fun hbad => ?_⟩
    · rw [hexec, hl, hp]
      rfl
    · rw [hexec, if_pos (by simpa using hbad)]
  · refine (State.onClock_of hs).trans ?_
    rw [if_pos hfetch]
  · have hexec : exec (.commandDispatch node inst) s =
        (if !s.admitted node then .next (s.finish { x with node := 0xF } .nodeLost 0)
        else if !s.instOn node inst then .next (s.finish { x with node := 0xF } .badDescriptor 0)
        else .next (s.grant node inst x)) := by
      refine (State.onClock_of hs).trans ?_
      rw [if_neg (by simp [thas_eq_false hbusy, hheld]), hpick]
    refine ⟨fun hadm hon => ?_, fun hadm => ?_, fun hadm hoff => ?_⟩
    · rw [hadm, hon] at hexec
      obtain ⟨y, hcmd, hphase, hnode, hin, hrun, hgrant⟩ := s.grant_spec node inst x
      exact ⟨_, y, hexec, hcmd, hphase, hnode, hin, hrun, hgrant,
        (State.grant_within (k := 134221824) rfl (.refl _ s)).sameBut (by decide)⟩
    · rw [hexec, hadm]
      rfl
    · rw [hexec, hadm, hoff]
      rfl
  · intro status
    have hgo : (x.phase != .finished || x.status == .denied) = false := by simp [hphase, hst]
    have hexec : exec (.commandComplete k seq) s =
        .next ((s.complete x (s.doneStatus x) x.result (if Status.notExecuted x.status then 0xF else x.node)).abortSweep k) := by
      refine (State.onClock_of hs).trans ?_
      rw [hcmd]
      dsimp only
      rw [hgo, if_neg Bool.false_ne_true]
    have hstatus : s.doneStatus x = status := by rw [State.doneStatus_eq]
    rw [hexec, hstatus]
    simp only [Status.notExecuted_iff hst]
end Sys2Proof.Machine
end

section
/-! PROOFS. Context control, doorbells, preemption and T0 switches (O29), with the register fields that reads of memory leave alone. -/

namespace Sys2Proof.Machine

open Host Reg

variable {s t u : State}

/-! ## Fields that reads of memory leave alone -/

/-- Does a field read the same in two states, at every node and in every register of its array? -/
def State.agreesOn (g : Fld) (s t : State) : Prop := ∀ n i, t.getO g n i = s.getO g n i

section
variable {g : Fld}

theorem State.agreesOn_refl (g : Fld) (s : State) : State.agreesOn g s s := fun _ _ => rfl

theorem State.agreesOn.trans (h : State.agreesOn g s t) (h' : State.agreesOn g t u) : State.agreesOn g s u :=
  fun n i => (h' n i).trans (h n i)

theorem State.agreesOn_of_regs (h : t.regs = s.regs) : State.agreesOn g s t := fun n i => State.getO_congr h g n i

theorem State.agreesOn_setO {f : Fld} (h : g.apart f = true) (n i v : Nat) : State.agreesOn g s (s.setO f n i v) :=
  fun _ _ => State.getO_setO_apart h

theorem State.agreesOn.get (h : State.agreesOn g s t) (i : Nat) : t.get g i = s.get g i := h 4 i

theorem State.agreesOn_foldl {α : Type} {f : State → α → State} (hf : ∀ st a, State.agreesOn g st (f st a)) (l : List α) (s : State) :
    State.agreesOn g s (l.foldl f s) := by
  induction l generalizing s with
  | nil => exact State.agreesOn_refl g s
  | cons a l ih => exact (hf s a).trans (ih _)

/-- The error counts of T1 are all that a read of memory changes among the registers. -/
def Fld.uncounted (g : Fld) : Bool := g.apart ONX_T1_ECCCNT.CORRECTED && g.apart ONX_T1_ECCCNT.REFETCHED

variable (hg : g.uncounted = true)
include hg

theorem State.agreesOn_countCorrected (s : State) (a : Nat) : State.agreesOn g s (s.countCorrected a) := by
  have happ : g.apart ONX_T1_ECCCNT.CORRECTED = true := (Bool.and_eq_true_iff.1 hg).1
  unfold State.countCorrected
  dsimp only
  split
  · split
    · exact State.agreesOn_of_regs rfl
    · exact State.agreesOn_setO happ _ _ _
  · split
    · exact State.agreesOn_setO happ _ _ _
    · exact State.agreesOn_refl g s

theorem State.agreesOn_foundError (s : State) (a : Nat) : State.agreesOn g s (s.foundError a).1 := by
  have happ : g.apart ONX_T1_ECCCNT.REFETCHED = true := (Bool.and_eq_true_iff.1 hg).2
  unfold State.foundError
  dsimp only
  split
  · split
    · refine State.agreesOn.trans (State.agreesOn_of_regs ?_) (State.agreesOn_setO happ _ _ _)
      exact (State.moveSector_within (k := 144) rfl (.refl _ s)).parts .regs rfl
    · exact State.agreesOn_refl g s
  · split
    · exact State.agreesOn_of_regs rfl
    · exact State.agreesOn_of_regs rfl

theorem State.agreesOn_meetErrors (s : State) (errs : ReadErrs) (a : Nat) : State.agreesOn g s (s.meetErrors errs a).1 := by
  have hcorr : State.agreesOn g s (if errs.corrected.contains a then s.countCorrected a else s) := by
    split
    · exact State.agreesOn_countCorrected hg s a
    · exact State.agreesOn_refl g s
  unfold State.meetErrors
  dsimp only
  split
  · exact hcorr.trans (State.agreesOn_foundError hg _ a)
  · exact hcorr

theorem State.agreesOn_readSectors (s : State) (part : Nat) (alloc : Bool) (errs : ReadErrs) (secs : List Nat) :
    State.agreesOn g s (s.readSectors part alloc errs secs).st := by
  have hfold : ∀ (l : List Nat) (p : State × Bool), State.agreesOn g p.1 (l.foldl (fun (p : State × Bool) a =>
      let q := p.1.meetErrors errs a
      (q.1.touchRead part alloc a, p.2 || q.2)) p).1 := by
    intro l
    induction l with
    | nil => exact fun p => State.agreesOn_refl g p.1
    | cons a l ih =>
      intro p
      have htouch : State.agreesOn g (p.1.meetErrors errs a).1 ((p.1.meetErrors errs a).1.touchRead part alloc a) :=
        State.agreesOn_of_regs ((State.touchRead_within (k := 912) rfl (.refl _ _)).parts .regs rfl)
      exact ((State.agreesOn_meetErrors hg p.1 errs a).trans htouch).trans (ih _)
  exact hfold _ (s, false)

theorem State.agreesOn_moveRun (s : State) (part src dst sectors : Nat) (errs : ReadErrs) :
    State.agreesOn g s (s.moveRun part src dst sectors errs) := by
  refine State.agreesOn_foldl (fun st j => ?_) _ s
  split
  · exact State.agreesOn_refl g st
  · refine (State.agreesOn_readSectors hg st part false errs [src + 256 * j]).trans (State.agreesOn_of_regs ?_)
    exact (State.writeSector_within (k := 912) rfl (.refl _ _)).parts .regs rfl

end

/-! ## Context control (R287) -/

section
variable {src : Src} {k : Nat}

theorem exec_ctxEnable (hs : s.clocked = true) (hreach : s.ctrlReaches src k 1 = true) (hoff : s.ctxState k = 0)
    (hok : s.configValid k = true) :
    ∃ u : State, exec (.ctxEnable src k) s = .next (u.settleWaits (s.sched.order.length + 1)) ∧ u.ctxState k = 1 ∧ u.sqHead k = 0 ∧
      u.cdone k = 0xFFFFFFFF ∧ u.ctx k = { gen := (s.ctx k).gen + 1 } := by
  have hexec : exec (.ctxEnable src k) s = _ := State.onClock_of hs
  rw [if_neg (by simp [hreach]), if_neg (by simp [hoff, hok])] at hexec
  extract_lets s1 s2 at hexec
  refine ⟨s2, hexec, ?_, ?_, ?_, ?_⟩
  · unfold s2 State.ctxState
    simp (disch := decide) only [State.get_set_apart, State.get_set_self]
    rfl
  · unfold s2 State.sqHead
    simp (disch := decide) only [State.get_set_apart, State.get_set_self]
    rfl
  · unfold s2 State.cdone
    simp only [State.get_set_self]
    rfl
  · unfold s2 s1
    simp only [State.ctx_set, State.ctx_setCtx_self]

theorem exec_ctxResume (hs : s.clocked = true) (hreach : s.ctrlReaches src k 3 = true) (hhalt : s.ctxState k = 2)
    (hmap : s.mapFenced k = false) :
    ∃ t, exec (.ctxResume src k) s = .next t ∧ t.ctxState k = 1 ∧ ((s.ctx k).lostNodes = [] → (t.ctx k).held = false) ∧
      s.sameBut [.regs, .sched] t := by
  have hexec : exec (.ctxResume src k) s = _ := State.onClock_of hs
  rw [if_neg (by simp [hreach]), if_neg (by simp [hhalt, hmap])] at hexec
  extract_lets x at hexec
  refine ⟨_, hexec, ?_, fun hnone => ?_, ?_⟩
  · unfold State.ctxState
    rw [State.get_setCtx, State.get_set_self]
    rfl
  · have hx : x.lostNodes = [] := hnone
    rw [State.ctx_setCtx_self, hx]
    rfl
  · exact (State.setCtx_within (k := 4098) rfl (State.set_within (k := 4098) rfl (.refl _ s))).sameBut (by decide)

end

/-! ## Preemption (R301, R304) -/

theorem State.cmd_congr (h : t.sched.cmds = s.sched.cmds) (k : Nat) : t.cmd k = s.cmd k := by
  unfold State.cmd
  rw [h]

/-- Set a command's entry and take it off every engine. -/
def State.takeOff (s : State) (x : Cmd) : State :=
  { s.setCmd x with sched := { (s.setCmd x).sched with busy := (s.setCmd x).sched.busy.filter (fun e => e.2 != x.key) } }

theorem State.takeOff_cmd (s : State) (x : Cmd) : (s.takeOff x).cmd x.key = some x :=
  (State.cmd_congr (s := s.setCmd x) rfl _).trans (State.cmd_setCmd_self x)

theorem State.takeOff_busy (s : State) (x : Cmd) : ∀ e ∈ (s.takeOff x).sched.busy, e.2 ≠ x.key := by
  intro e he
  have hmem : e ∈ s.sched.busy.filter (fun e => e.2 != x.key) := he
  simpa using (List.mem_filter.1 hmem).2

/-- A command that stops at a preemption point is in the tables as a stopped one, and on no engine. -/
theorem State.stopCmd_eq (s : State) (x : Cmd) : ∃ u : State, s.stopCmd x = u.takeOff { x with phase := .stopped } := ⟨_, rfl⟩

/-! ## T0 switches (R303 to R306) -/

theorem tfind_tdel_self {α : Type} (t : Tab α) (k : Nat) : tfind (tdel t k) k = none := by
  induction t with
  | nil => rfl
  | cons e t ih =>
    obtain ⟨j, v⟩ := e
    by_cases h : j = k
    · rw [tdel, if_pos h]
      exact ih
    · rw [tdel, if_neg h, tfind, if_neg h]
      exact ih

theorem mem_foldl_sinsert {α : Type} {f : α → Nat} {l : List α} {a : α} (h : a ∈ l) (m : List Nat) :
    f a ∈ l.foldl (fun l b => sinsert l (f b)) m := by
  have hkeep : ∀ (l : List α) (m : List Nat), ∀ b ∈ m, b ∈ l.foldl (fun l b => sinsert l (f b)) m := by
    intro l
    induction l with
    | nil => exact fun _ _ h => h
    | cons c l ih => exact fun m b hb => ih _ b (mem_sinsert_of_mem hb)
  induction l generalizing m with
  | nil => exact absurd h List.not_mem_nil
  | cons c l ih =>
    rcases List.mem_cons.1 h with rfl | h
    · exact hkeep l _ _ (mem_sinsert_self m (f a))
    · exact ih h _

/-- The regions that stand in the way are saved one after another: the scheduler stays as it was, and registers but for error counts. -/
theorem State.saveRegions_spec (s : State) (l : List Nat) (node core : Nat) (errs : ReadErrs) :
    let out := l.foldl (fun st k => st.saveRegion k node core errs) s
    out.sched = s.sched ∧ State.agreesOn AGT_SCHED_CTX_RESTAGE.COUNT s out := by
  intro out
  refine ⟨?_, State.agreesOn_foldl (fun st k => State.agreesOn_moveRun (by decide) st _ _ _ _ _) l s⟩
  have hfold : ∀ (l : List Nat) (u : State), (l.foldl (fun st k => st.saveRegion k node core errs) u).sched = u.sched := by
    intro l
    induction l with
    | nil => exact fun _ => rfl
    | cons k l ih =>
      intro u
      exact (ih _).trans ((State.saveRegion_within (k := 918) rfl (.refl _ u)).parts .sched rfl)
  exact hfold l s

theorem exec_t0Switch {node core : Nat} {errs : ReadErrs} {t3 : List (Nat × Bool × List Nat)} {x : Cmd} (hs : s.clocked = true)
    (hn : node < 4) (hc : core < 4) (hfree : tfind s.sched.switches (4 * node + core) = none) (hx : s.switchFor node core = some x)
    (hcount : s.sched.saved.contains (heldKey x.ctx node core) = true → s.get AGT_SCHED_CTX_RESTAGE.COUNT x.ctx = 0) :
    let out := (s.blockers x.ctx node core).foldl (fun st k => st.saveRegion k node core errs) s
    ∃ t, exec (.t0Switch node core { errs := errs, t3 := t3 }) s = .next t ∧
      tfind t.sched.switches (4 * node + core) = some { ctx := x.ctx, out := s.blockers x.ctx node core } ∧
      (∀ k ∈ s.blockers x.ctx node core, heldKey k node core ∈ t.sched.saved) ∧
      t.mem = (if s.sched.saved.contains (heldKey x.ctx node core) then out.restoreRegion x.ctx node core errs else out).mem := by
  intro out
  have hexec : exec (.t0Switch node core { errs := errs, t3 := t3 }) s = _ := State.onClock_of hs
  rw [if_neg (by simp [thas_eq_false hfree]; omega), hx] at hexec
  dsimp -zeta only at hexec
  obtain ⟨hsched, hagree⟩ := s.saveRegions_spec (s.blockers x.ctx node core) node core errs
  extract_lets outs s1 hk back s2 sched s3 at hexec
  have hback : back = s.sched.saved.contains (heldKey x.ctx node core) := by
    unfold back
    rw [show s1.sched = s.sched from hsched]
  have hout : s1 = out := rfl
  have hfin : exec (.t0Switch node core { errs := errs, t3 := t3 }) s = .next s3 := by
    rw [hexec]
    cases hb : back with
    | false => rfl
    | true =>
      have hs2 : State.agreesOn AGT_SCHED_CTX_RESTAGE.COUNT s1 s2 := by
        rw [show s2 = s1.restoreRegion x.ctx node core errs from if_pos hb]
        exact State.agreesOn_moveRun (by decide) s1 _ _ _ _ _
      have hzero : s3.get AGT_SCHED_CTX_RESTAGE.COUNT x.ctx = 0 :=
        ((hagree.trans hs2).get x.ctx).trans (hcount (hback.symm.trans hb))
      rw [hzero]
      rfl
  refine ⟨s3, hfin, tfind_tset_self, fun k hk => mem_foldl_sinsert hk _, ?_⟩
  rw [← hback, ← hout]

theorem exec_t0SwitchComplete {node core : Nat} {w : T0Switch} (hs : s.clocked = true) (hw : tfind s.sched.switches (4 * node + core) = some w) :
    ∃ t, exec (.t0SwitchComplete node core) s = .next t ∧ heldKey w.ctx node core ∈ t.sched.held ∧
      tfind t.sched.switches (4 * node + core) = none ∧ s.sameBut [.sched] t := by
  have hexec : exec (.t0SwitchComplete node core) s = _ := State.onClock_of hs
  rw [hw] at hexec
  exact ⟨_, hexec, mem_sinsert_self _ _, tfind_tdel_self _ _, (Within.sched (k := 4096) rfl (.refl _ s) _).sameBut (by decide)⟩

/-- Settles O29. -/
theorem contextsAndPreemption : Obligations.ContextsAndPreemption := by
  refine ⟨fun s src k hs => ⟨fun val hk hreach hsq hcq => ?_, fun hreach hoff hok => exec_ctxEnable hs hreach hoff hok,
    fun hreach hst => ?_, fun hreach hst hmap => exec_ctxResume hs hreach hst hmap, fun hreach hst => ?_, fun hreach hst hout => ?_,
    fun hreach hst => ?_⟩,
    fun s node errs x hs => ⟨fun inst units p hx hstop hplan hpos hlt => ?_, fun core t3 hn hc hfree hx => ?_,
      fun core w hw => exec_t0SwitchComplete hs hw⟩⟩
  · have hexec : exec (.ctxDb src k val) s = _ := State.onClock_of hs
    have hok : ((bit val 32 && decide (s.ringSize k ≤ bits val 0 15)) || (bit val 33 && decide (s.ringSize k ≤ bits val 16 15))) = false := by
      simpa [bits_zero] using ⟨hsq, hcq⟩
    rw [if_neg (Nat.not_le.2 hk), if_neg (by simp [hreach]), hok, if_neg Bool.false_ne_true] at hexec
    refine ⟨_, hexec, (State.setCtx_within (k := 4096) rfl (.refl _ s)).sameBut (by decide), ?_, ?_⟩
    · rw [State.ctx_setCtx_self, bits_zero]
    · rw [State.ctx_setCtx_self]
  · refine (State.onClock_of hs).trans ?_
    rw [if_neg (by simp [hreach]), if_pos hst]
    exact congrArg Outcome.next (if_pos hst)
  · refine (State.onClock_of hs).trans ?_
    rw [if_neg (by simp [hreach]), if_pos hst]
    exact congrArg Outcome.next (if_pos hst)
  · have hexec : exec (.ctxDisable src k) s = _ := State.onClock_of hs
    rw [if_neg (by simp [hreach]), if_pos ⟨hst, hout⟩] at hexec
    exact ⟨_, hexec, (State.get_set_self AGT_SCHED_CTX_STAT.STATE k 0).trans (Nat.zero_mod _)⟩
  · refine (State.onClock_of hs).trans ?_
    rw [if_neg (by simp [hreach]), if_neg hst]
    rfl
  · intro r
    have hgo : (decide (0 < units) && decide (x.unitsDone + units < p.units)) = true := by simp [hpos, hlt]
    have hexec : exec (.preemptionPoint node inst units errs) s = .next ((s.runPlan x p (x.unitsDone + units) errs).abortSweep x.ctx) := by
      refine (State.onClock_of hs).trans ?_
      rw [hx]
      dsimp only
      rw [if_neg (by simp [hstop]), hplan]
      exact if_pos hgo
    have hrun : ∃ v met, s.runPlan x p (x.unitsDone + units) errs = State.stopCmd v { x with
        met := met, unitsDone := x.unitsDone + units, anchor := p.anchor, saved := p.keep (x.unitsDone + units) r.st,
        result := p.result (p.run x.unitsDone (x.unitsDone + units) r.st).1 } := ⟨_, _, if_neg (Nat.not_le.2 hlt)⟩
    obtain ⟨v, met, hrun⟩ := hrun
    obtain ⟨u, hstopped⟩ := State.stopCmd_eq v { x with
        met := met, unitsDone := x.unitsDone + units, anchor := p.anchor, saved := p.keep (x.unitsDone + units) r.st,
        result := p.result (p.run x.unitsDone (x.unitsDone + units) r.st).1 }
    rw [hrun, hstopped] at hexec
    exact ⟨_, _, hexec, u.takeOff_cmd _, rfl, rfl, rfl, rfl, rfl, u.takeOff_busy _⟩
  · intro back out hcount
    exact exec_t0Switch hs hn hc hfree hx hcount
end Sys2Proof.Machine
end

section
/-! PROOFS. Writes of scheduler registers with a row of their own (O30). -/

namespace Sys2Proof.Machine

open Host Reg

variable {s : State} {src : Src} {val : Nat}

/-! ## Event rings (R296) -/

/-- What a write of an event ring's register with a legal size leaves, for the ring's fields TAIL, HEAD, LOC, SIZE_LOG2 and BASE. -/
def State.storeRing (s : State) (tail head loc size base : Fld) (ring i val : Nat) : State :=
  let s1 := (s.set tail i 0).set head i 0
  let s2 : State := { s1 with sched := { s1.sched with evPhase := tset s1.sched.evPhase ring true } }
  ((s2.set loc i (bits val 0 1)).set size i (bits val 1 4)).set base i (bits val 12 52)

theorem State.storeRing_reads {tail head loc size base : Fld} (ring i : Nat)
    (happ : [tail, head, loc, size, base].Pairwise (fun f g => f.apart g = true))
    (hloc : loc.width = 1) (hsize : size.width = 4) (hbase : base.width = 52) :
    let t := s.storeRing tail head loc size base ring i val
    t.get tail i = 0 ∧ t.get head i = 0 ∧ tget false t.sched.evPhase ring = true ∧ t.get loc i = bits val 0 1 ∧
      t.get size i = bits val 1 4 ∧ t.get base i = bits val 12 52 ∧ s.sameBut [.regs, .sched] t := by
  intro t
  simp only [List.pairwise_cons, List.mem_cons, List.not_mem_nil, or_false, forall_eq_or_imp, forall_eq] at happ
  obtain ⟨⟨hth, htl, hts, htb⟩, ⟨hhl, hhs, hhb⟩, ⟨hls, hlb⟩, hsb, -⟩ := happ
  unfold t State.storeRing
  extract_lets s1 sched s2
  have hget (f : Fld) : s2.get f i = s1.get f i := rfl
  refine ⟨?_, ?_, tget_tset_self, ?_, ?_, ?_, ?_⟩
  · rw [State.get_set_apart htb, State.get_set_apart hts, State.get_set_apart htl, hget, State.get_set_apart hth, State.get_set_self,
      Nat.zero_mod]
  · rw [State.get_set_apart hhb, State.get_set_apart hhs, State.get_set_apart hhl, hget, State.get_set_self, Nat.zero_mod]
  · rw [State.get_set_apart hlb, State.get_set_apart hls, State.get_set_self, hloc, Nat.mod_eq_of_lt (bits_lt ..)]
  · rw [State.get_set_apart hsb, State.get_set_self, hsize, Nat.mod_eq_of_lt (bits_lt ..)]
  · rw [State.get_set_self, hbase, Nat.mod_eq_of_lt (bits_lt ..)]
  · have hs1 : Within 4098 s s1 := State.set_within (k := 4098) rfl (State.set_within (k := 4098) rfl (.refl _ s))
    have hs2 : Within 4098 s s2 := Within.sched (k := 4098) rfl hs1 _
    exact (State.set_within (k := 4098) rfl (State.set_within (k := 4098) rfl (State.set_within (k := 4098) rfl hs2))).sameBut (by decide)

theorem exec_evqWrite {ring : Nat} (hs : s.clocked = true) (hring : ring ≤ 16)
    (hreach : s.reaches src 4 2 (if ring = 16 then 0x10 else 0x108 + 32 * ring) = true) (hsize : 4 ≤ bits val 1 4) :
    exec (.evqWrite src ring val) s = .next (s.storeRing (evq ring AGT_SCHED_HOSTEVQSTAT.TAIL AGT_SCHED_PART_EVQSTAT.TAIL)
      (evq ring AGT_SCHED_HOSTEVQSTAT.HEAD AGT_SCHED_PART_EVQSTAT.HEAD) (evq ring AGT_SCHED_HOSTEVQ.LOC AGT_SCHED_PART_EVQ.LOC)
      (evq ring AGT_SCHED_HOSTEVQ.SIZE_LOG2 AGT_SCHED_PART_EVQ.SIZE_LOG2) (evq ring AGT_SCHED_HOSTEVQ.BASE AGT_SCHED_PART_EVQ.BASE)
      ring (evi ring) val) := by
  refine (State.onClock_of hs).trans ?_
  rw [if_neg (Nat.not_lt.2 hring), if_neg (by simp [hreach])]
  exact if_neg (Nat.not_lt.2 hsize)

/-! ## Partitions (R307 to R310) -/

/-- What R310 allows of a partition's MODE, RATE, BURST and CHMASK. -/
def State.partCfgLegal (s : State) (p val : Nat) : Prop :=
  bits val 16 16 ≠ 0 ∧ s.rateSum p (bits val 0 1) (bits val 1 7) (s.get AGT_SCHED_RSV.RSV 0) ≤ 64 ∧
    (bits val 0 1 = 1 → (∀ m ∈ s.chMasks p 0 0, m &&& bits val 32 16 = 0) ∧ popcount16 (bits val 32 16) ∈ [1, 2, 4, 8] ∧
      s.waysOverlap p = false) ∧
    (bits val 0 1 ≠ s.get AGT_SCHED_PART_CFG.MODE p ∨ bits val 32 16 ≠ s.get AGT_SCHED_PART_CFG.CHMASK p →
      (∀ k, k < 512 → s.ctxState k ≠ 0 → s.ctxPart k ≠ p ∧ s.segregated (s.ctxPart k) = true) ∧ s.anyDirty = false)

/-- The test that the write makes, as one Boolean. -/
def State.partCfgBad (s : State) (p val : Nat) : Bool :=
  bits val 16 16 = 0 || 64 < s.rateSum p (bits val 0 1) (bits val 1 7) (s.get AGT_SCHED_RSV.RSV 0) ||
    (bits val 0 1 == 1 && ((s.chMasks p 0 0).any (fun m => m &&& bits val 32 16 != 0) ||
      !([1, 2, 4, 8].contains (popcount16 (bits val 32 16))) || s.waysOverlap p)) ||
    ((bits val 0 1 != s.get AGT_SCHED_PART_CFG.MODE p || bits val 32 16 != s.get AGT_SCHED_PART_CFG.CHMASK p) &&
      ((List.range 512).any (fun c => s.ctxState c != 0 && (s.ctxPart c == p || !s.segregated (s.ctxPart c))) || s.anyDirty))

theorem State.partCfgBad_eq_false (p : Nat) : s.partCfgBad p val = false ↔ s.partCfgLegal p val := by
  unfold State.partCfgBad State.partCfgLegal
  have hmode : ((bits val 0 1 == 1 && ((s.chMasks p 0 0).any (fun m => m &&& bits val 32 16 != 0) ||
      !([1, 2, 4, 8].contains (popcount16 (bits val 32 16))) || s.waysOverlap p)) = false) ↔
      (bits val 0 1 = 1 → (∀ m ∈ s.chMasks p 0 0, m &&& bits val 32 16 = 0) ∧ popcount16 (bits val 32 16) ∈ [1, 2, 4, 8] ∧
        s.waysOverlap p = false) := by
    have hcount : (!([1, 2, 4, 8].contains (popcount16 (bits val 32 16)))) = false ↔ popcount16 (bits val 32 16) ∈ [1, 2, 4, 8] := by
      rw [Bool.not_eq_false', List.contains_iff_mem]
    rw [Bool.and_eq_false_iff, Bool.or_eq_false_iff, Bool.or_eq_false_iff, hcount, beq_eq_false_iff_ne, and_assoc,
      ← imp_iff_not_or, List.any_eq_false]
    simp only [bne_iff_ne, ne_eq, not_not]
  have hidle : ((List.range 512).any (fun c => s.ctxState c != 0 && (s.ctxPart c == p || !s.segregated (s.ctxPart c))) = false) ↔
      ∀ k, k < 512 → s.ctxState k ≠ 0 → s.ctxPart k ≠ p ∧ s.segregated (s.ctxPart k) = true := by
    simp
  rw [Bool.or_eq_false_iff, Bool.or_eq_false_iff, Bool.or_eq_false_iff, hmode, and_assoc, and_assoc]
  refine and_congr (by simp) (and_congr (by simp) (and_congr_right fun _ => ?_))
  rw [← hidle]
  simp

theorem exec_partCfgWrite_bad {p : Nat} (hs : s.clocked = true) (hp : p < 16) (hreach : s.reaches src 4 2 (0x100 + 32 * p) = true)
    (hbad : ¬ s.partCfgLegal p val) : exec (.partCfgWrite src p val) s = .next (s.set AGT_SCHED_STATUS.CFG_ERR 0 1) := by
  refine (State.onClock_of hs).trans ?_
  rw [← State.partCfgBad_eq_false, Bool.not_eq_false] at hbad
  rw [if_neg (Nat.not_le.2 hp), if_neg (by simp [hreach])]
  exact if_pos hbad

theorem exec_partCfgWrite {p : Nat} (hs : s.clocked = true) (hp : p < 16) (hreach : s.reaches src 4 2 (0x100 + 32 * p) = true)
    (hok : s.partCfgLegal p val) :
    ∃ t, exec (.partCfgWrite src p val) s = .next t ∧ t.get AGT_SCHED_PART_CFG.MODE p = bits val 0 1 ∧
      t.get AGT_SCHED_PART_CFG.RATE p = bits val 1 7 ∧ t.get AGT_SCHED_PART_CFG.BURST p = bits val 16 16 ∧
      t.get AGT_SCHED_PART_CFG.CHMASK p = bits val 32 16 := by
  have hexec : exec (.partCfgWrite src p val) s = _ := State.onClock_of hs
  rw [if_neg (Nat.not_le.2 hp), if_neg (by simp [hreach]), if_neg (by
    rw [← State.partCfgBad_eq_false] at hok
    exact ne_true_of_eq_false hok)] at hexec
  extract_lets old s1 moved at hexec
  refine ⟨_, hexec, ?_⟩
  have hagree (g : Fld) : State.agreesOn g s1 ((List.range 4).foldl (fun st n => moved.foldl (fun st' r => st'.scrambleRegion n r) st) s1) :=
    State.agreesOn_foldl (fun st n => State.agreesOn_foldl (fun u r => State.agreesOn_of_regs (t := u.scrambleRegion n r) rfl) _ st) _ s1
  rw [(hagree _).get, (hagree _).get, (hagree _).get, (hagree _).get]
  unfold s1
  simp (disch := decide) only [State.get_set_apart, State.get_set_self]
  exact ⟨Nat.mod_eq_of_lt (bits_lt ..), Nat.mod_eq_of_lt (bits_lt ..), Nat.mod_eq_of_lt (bits_lt ..), Nat.mod_eq_of_lt (bits_lt ..)⟩

/-- Settles O30. -/
theorem schedulerRegisterWrites : Obligations.SchedulerRegisterWrites := by
  intro s src val hs
  refine ⟨fun ring hring hreach hsize => ?_, fun p hp hreach => ?_, fun hrole hreach hv hsum => ?_, fun node hn hrole hreach hlo hhi => ?_⟩
  · intro g i
    refine ⟨_, exec_evqWrite hs hring hreach hsize, ?_⟩
    by_cases h : ring = 16
    · subst h
      exact State.storeRing_reads 16 0 (by decide) rfl rfl rfl
    · unfold g i evq evi
      rw [if_neg h]
      simp only [if_neg h]
      exact State.storeRing_reads ring ring (by decide) rfl rfl rfl
  · intro legal
    exact ⟨fun hok => exec_partCfgWrite hs hp hreach hok, fun hbad => exec_partCfgWrite_bad hs hp hreach hbad⟩
  · refine (State.onClock_of hs).trans ?_
    have hbits : bits val 0 7 = val % 2 ^ 7 := bits_zero val 7
    have hgo : (decide (32 < val % 2 ^ 7) || decide (64 < s.rateSum 16 0 0 (val % 2 ^ 7))) = false := by
      rw [decide_eq_false (Nat.not_lt.2 hv), decide_eq_false (Nat.not_lt.2 hsum)]
      rfl
    rw [hbits, if_neg (by simp [State.objWrites, hreach, hrole])]
    rw [hgo]
    rfl
  · refine (State.onClock_of hs).trans ?_
    have hgo : (decide (bits val 8 7 = 0) || decide (64 < bits val 8 7)) = false := by simp; omega
    rw [if_neg (Nat.not_le.2 hn), if_neg (by simp [State.objWrites, hreach, hrole])]
    rw [hgo]
    rfl
end Sys2Proof.Machine
end

section
/-! PROOFS. The fabric: link errors, fencing and re-admission (O31, O32, O33). -/

namespace Sys2Proof.Machine

open Host Reg

variable {s t : State} {n l : Nat}

/-! ## Links -/

/-- No register that shows a link's state or counts. -/
def Fld.offLinks (g : Fld) : Bool :=
  [AGT_FAB_LINK.STATE, AGT_FAB_LINK.HALF, AGT_FAB_LINK.CRCERR, AGT_FAB_LINK.REPLAY, ONX_FAB_PORT.STATE, ONX_FAB_PORT.HALF,
    ONX_FAB_PORT.CRCERR, ONX_FAB_PORT.REPLAY].all g.apart

section
variable {g : Fld}

/-- A field that the link's ports do not show reads after `setLink` as after the two writes of AGT_FAB_LINK. -/
theorem State.agreesOn_setLink_agate (h : [ONX_FAB_PORT.STATE, ONX_FAB_PORT.HALF].all g.apart = true) (s : State) (l v : Nat) (half : Bool) :
    State.agreesOn g ((s.set AGT_FAB_LINK.STATE l v).set AGT_FAB_LINK.HALF l (b2n half)) (s.setLink l v half) := by
  obtain ⟨hstate, hhalf⟩ : g.apart ONX_FAB_PORT.STATE = true ∧ g.apart ONX_FAB_PORT.HALF = true := by simpa using h
  have hport (st : State) (m : Nat) : State.agreesOn g st (if m < 4 then
      (st.setO ONX_FAB_PORT.STATE m (portOf l m) v).setO ONX_FAB_PORT.HALF m (portOf l m) (b2n half) else st) := by
    split
    · exact (State.agreesOn_setO hstate _ _ _).trans (State.agreesOn_setO hhalf _ _ _)
    · exact State.agreesOn_refl g st
  exact (hport _ _).trans (hport _ _)

theorem State.agreesOn_setLink (h : g.offLinks = true) (s : State) (l v : Nat) (half : Bool) : State.agreesOn g s (s.setLink l v half) := by
  simp only [Fld.offLinks, List.all_cons, List.all_nil, Bool.and_true, Bool.and_eq_true] at h
  obtain ⟨hstate, hhalf, -, -, hps, hph, -, -⟩ := h
  exact ((State.agreesOn_setO hstate _ _ _).trans (State.agreesOn_setO hhalf _ _ _)).trans
    (State.agreesOn_setLink_agate (by simp [hps, hph]) s l v half)

theorem State.agreesOn_countEnd (h : [AGT_FAB_LINK.CRCERR, AGT_FAB_LINK.REPLAY, ONX_FAB_PORT.CRCERR, ONX_FAB_PORT.REPLAY].all g.apart = true)
    (s : State) (l : Nat) (upper rx : Bool) : State.agreesOn g s (s.countEnd l upper rx) := by
  simp only [List.all_cons, List.all_nil, Bool.and_true, Bool.and_eq_true] at h
  obtain ⟨hcrc, hrep, hpcrc, hprep⟩ := h
  unfold State.countEnd
  extract_lets m s1
  have hs1 : State.agreesOn g s s1 := by
    unfold s1
    split
    · split
      · exact State.agreesOn_setO hcrc _ _ _
      · exact State.agreesOn_setO hrep _ _ _
    · exact State.agreesOn_refl g s
  refine hs1.trans ?_
  split
  · split
    · exact State.agreesOn_setO hpcrc _ _ _
    · exact State.agreesOn_setO hprep _ _ _
  · exact State.agreesOn_refl g s1

theorem State.agreesOn_countPacket
    (h : [AGT_FAB_LINK.CRCERR, AGT_FAB_LINK.REPLAY, ONX_FAB_PORT.CRCERR, ONX_FAB_PORT.REPLAY].all g.apart = true)
    (s : State) (l : Nat) (upper : Bool) : State.agreesOn g s (s.countPacket l upper) :=
  (State.agreesOn_countEnd h s l upper true).trans (State.agreesOn_countEnd h _ l (!upper) false)

theorem Fld.offLinks.counts (h : g.offLinks = true) :
    [AGT_FAB_LINK.CRCERR, AGT_FAB_LINK.REPLAY, ONX_FAB_PORT.CRCERR, ONX_FAB_PORT.REPLAY].all g.apart = true := by
  simp only [Fld.offLinks, List.all_cons, List.all_nil, Bool.and_true, Bool.and_eq_true] at h ⊢
  obtain ⟨-, -, hcrc, hrep, -, -, hpcrc, hprep⟩ := h
  exact ⟨hcrc, hrep, hpcrc, hprep⟩

end

theorem State.linkState_countPacket (s : State) (l : Nat) (upper : Bool) (j : Nat) : (s.countPacket l upper).linkState j = s.linkState j :=
  (State.agreesOn_countPacket (by decide) s l upper).get j

theorem State.linkState_setLink_self (s : State) (l v : Nat) (half : Bool) : (s.setLink l v half).linkState l = v % 2 ^ 2 := by
  refine ((State.agreesOn_setLink_agate (by decide) s l v half).get l).trans ?_
  rw [State.get_set_apart (by decide), State.get_set_self]
  rfl

theorem State.linkState_setLink_ne {j v : Nat} {half : Bool} (hl : l < 9) (hj : j < 9) (h : j ≠ l) :
    (s.setLink l v half).linkState j = s.linkState j := by
  refine ((State.agreesOn_setLink_agate (by decide) s l v half).get j).trans ?_
  rw [State.get_set_apart (by decide), State.get_set_ne]
  · rfl
  · rw [Fld.key_eq, Fld.key_eq]
    simp only [AGT_FAB_LINK.STATE, Nat.mod_eq_of_lt hl, Nat.mod_eq_of_lt hj]
    omega

/-- Links set DOWN one after another are DOWN, and a link that is DOWN stays so. -/
theorem State.linkState_foldl_down {ls : List Nat} (hls : ∀ j ∈ ls, j < 9) (s : State) {j : Nat} (hlt : j < 9)
    (hj : j ∈ ls ∨ s.linkState j = 0) : (ls.foldl (fun st l => st.setLink l 0 false) s).linkState j = 0 := by
  induction ls generalizing s with
  | nil => exact hj.resolve_left List.not_mem_nil
  | cons l ls ih =>
    refine ih (fun i hi => hls i (List.mem_cons_of_mem _ hi)) _ ?_
    by_cases h : j = l
    · rw [h]
      exact .inr (State.linkState_setLink_self s l 0 false)
    · refine (hj.imp_left fun hmem => (List.mem_cons.1 hmem).resolve_left h).imp_right fun h0 => ?_
      rw [State.linkState_setLink_ne (hls l List.mem_cons_self) hlt h]
      exact h0

theorem dieLinks_lt (hn : n < 4) : ∀ l ∈ dieLinks n, l < 9 := by
  intro l hl
  simp only [dieLinks, List.mem_cons, List.not_mem_nil, or_false] at hl
  omega

/-- Settles O31. -/
theorem linkErrors : Obligations.LinkErrors := by
  intro s l pkt atUpper got hs hl hup k m near
  have hgo : (decide (9 ≤ l) || s.linkState l == 0) = false := by simp [hup]; omega
  refine ⟨fun hlt => ?_, fun hge => ?_, State.onClock_of hs⟩
  · have hexec : exec (.packetCrcError l atUpper pkt got) s = _ := State.onClock_of hs
    rw [hgo, if_neg Bool.false_ne_true] at hexec
    extract_lets k' m' near' s1 fabric s2 at hexec
    have hm : m' = m := rfl
    rw [if_neg (by rw [hm]; omega)] at hexec
    have hlink (j : Nat) : s2.linkState j = s.linkState j := s.linkState_countPacket l atUpper j
    have hobj : s2.obj 16 0x3800 2 = s.obj 16 0x3800 2 := by
      have hdict : s2.dict = s.dict := (State.countPacket_within (k := 2) rfl (.refl _ s)).parts .dict rfl
      unfold State.obj
      rw [hdict]
    have hs2 : Within 32770 s s2 := Within.fabric (k := 32770) rfl (State.countPacket_within (k := 32770) rfl (.refl _ s)) _
    by_cases hdeg : s2.obj 16 0x3800 2 < near'.length ∧ s2.linkState l = 1
    · rw [if_pos hdeg] at hexec
      obtain ⟨hlen, hst⟩ := hdeg
      rw [hobj] at hlen
      rw [hlink] at hst
      have hf : (s2.setLink l 2 (s2.isSet AGT_FAB_LINK.HALF l)).fabric = s2.fabric :=
        (State.setLink_within (k := 2) rfl (.refl _ s2)).parts .fabric rfl
      refine ⟨_, hexec, ?_, ?_, ?_, (State.setLink_within (k := 32770) rfl hs2).sameBut (by decide)⟩
      · rw [hf]
        exact tget_tset_self
      · rw [hf]
        exact tget_tset_self
      · rw [if_pos ⟨hst, hlen⟩]
        exact State.linkState_setLink_self ..
    · rw [if_neg hdeg] at hexec
      rw [hobj, hlink, and_comm] at hdeg
      refine ⟨_, hexec, tget_tset_self, tget_tset_self, ?_, hs2.sameBut (by decide)⟩
      rw [hlink, if_neg hdeg]
  · refine (State.onClock_of hs).trans ?_
    rw [hgo, if_neg Bool.false_ne_true]
    exact if_pos hge

/-! ## Fences (R276, R277) -/

theorem State.lossAlone {cause : Nat} {got : List Nat} (hn : n < 4) (h : ∀ c ∈ s.pending, s.lossOf c = none) :
    s.loseAll [(n, cause)] got = s.fence n cause got := by
  have hnone : s.pending.filterMap s.lossOf = [] := List.filterMap_eq_nil_iff.2 h
  have hdies : (List.range 4).filterMap (fun m => [(n, cause)].find? (fun l => l.1 == m)) = [(n, cause)] := by
    interval_cases n <;> rfl
  unfold State.loseAll State.fence
  simp only [hnone, List.map_nil, List.append_nil, List.flatMap_nil, hdies]

theorem bit_setBit_self (v i : Nat) (b : Bool) : bit (setBit v i b) i = b := by
  rw [bit_eq_testBit, testBit_setBit, if_pos rfl]

theorem State.admitted_setAdmitted (hn : n < 4) (s : State) (a f : Bool) :
    (s.setAdmitted n a f).admitted n = a ∧ (s.setAdmitted n a f).fenced n = f := by
  unfold State.setAdmitted State.admitted State.fenced
  rw [State.get_set_apart (by decide), State.get_set_self, State.get_set_self]
  have hwa : Fld.width AGT_FAB_STATUS.ADMITTED = 4 := rfl
  have hwf : Fld.width AGT_FAB_STATUS.FENCED = 4 := rfl
  rw [hwa, hwf, bit_mod_two_pow hn, bit_mod_two_pow hn, bit_setBit_self, bit_setBit_self]
  simp [hn]

theorem State.admitted_congr (h : t.get AGT_FAB_STATUS.ADMITTED 0 = s.get AGT_FAB_STATUS.ADMITTED 0) : t.admitted n = s.admitted n := by
  unfold State.admitted
  rw [h]

theorem State.fenced_congr (h : t.get AGT_FAB_STATUS.FENCED 0 = s.get AGT_FAB_STATUS.FENCED 0) : t.fenced n = s.fenced n := by
  unfold State.fenced
  rw [h]

theorem State.closeDie_spec {cause : Nat} (hn : n < 4) (s : State) :
    let u := s.closeDie n cause
    u.admitted n = false ∧ u.fenced n = true ∧ (∀ l ∈ dieLinks n, u.linkState l = 0) ∧ (cause ≠ 0 → bit (u.get AGT_FAB_STATUS.LOST 0) n = true) := by
  intro u
  let v := (dieLinks n).foldl (fun st l => st.setLink l 0 false) s
  let w := v.setAdmitted n false true
  have hu : u.regs = (if cause = 0 then w else w.set AGT_FAB_STATUS.LOST 0 (setBit (w.get AGT_FAB_STATUS.LOST 0) n true)).regs := rfl
  have hread (g : Fld) (hg : g.apart AGT_FAB_STATUS.LOST = true) : State.agreesOn g w u := by
    intro m i
    rw [State.getO_congr hu]
    split
    · rfl
    · exact State.getO_set_apart hg
  obtain ⟨hadm, hfen⟩ := State.admitted_setAdmitted hn v false true
  refine ⟨(State.admitted_congr ((hread _ (by decide)).get 0)).trans hadm, (State.fenced_congr ((hread _ (by decide)).get 0)).trans hfen,
    fun l hl => ?_, fun hc => ?_⟩
  · have hlt : l < 9 := dieLinks_lt hn l hl
    refine ((hread _ (by decide)).get l).trans ?_
    unfold w State.setAdmitted
    rw [State.get_set_apart (by decide), State.get_set_apart (by decide)]
    exact State.linkState_foldl_down (dieLinks_lt hn) s hlt (.inl hl)
  · have hlost : u.get AGT_FAB_STATUS.LOST 0 = setBit (w.get AGT_FAB_STATUS.LOST 0) n true % 2 ^ 4 := by
      refine (State.getO_congr hu _ _ _).trans ?_
      rw [if_neg hc]
      exact State.get_set_self ..
    rw [hlost, bit_mod_two_pow hn, bit_setBit_self]

/-- A write of AGT_FAB_CMD that arrives while no command runs. -/
theorem State.fabTurnedAway_none {src : Src} (hreach : s.reaches src 4 13 0x8 = true) (hidle : s.isSet AGT_FAB_CMDSTAT.BUSY 0 = false) :
    s.fabTurnedAway src = none := by simp [State.fabTurnedAway, hreach, hidle]

/-- Settles O32. -/
theorem diesAreFenced : Obligations.DiesAreFenced := by
  intro s n got src val hs
  refine ⟨fun hstep => (State.onClock_of hs).trans (if_pos hstep), fun hadm hbeat => ?_, fun t hadm hsus ht hdue => ?_,
    fun hadm => ?_, fun hadm => ?_, fun cause hn hnone => State.lossAlone hn hnone, fun hreach hidle hop hadm => ⟨fun hgo => ?_, fun hdrain hbusy => ?_⟩,
    fun d t hd hadm hend => ?_, fun cause hn => s.closeDie_spec hn⟩
  · refine (State.onClock_of hs).trans (if_pos ?_)
    simp [hadm, hbeat]
  · refine (State.onClock_of hs).trans (congrArg Outcome.next (if_pos ?_))
    simp [State.beatOver, ht, hadm, hsus, hdue]
  · exact (State.onClock_of hs).trans (congrArg Outcome.next (if_pos hadm))
  · exact (State.onClock_of hs).trans (congrArg Outcome.next (if_neg (ne_true_of_eq_false hadm)))
  · refine (State.onClock_of hs).trans ?_
    rw [State.fabTurnedAway_none hreach hidle]
    dsimp only
    rw [if_neg (by omega), if_neg (by simp [hop, hadm]), if_neg (by rcases hgo with h | h <;> simp [h])]
  · have hexec : exec (.fence src val got) s = _ := State.onClock_of hs
    rw [State.fabTurnedAway_none hreach hidle] at hexec
    dsimp -zeta only at hexec
    rw [if_neg (by omega), if_neg (by simp [hop, hadm]), if_pos (by simp [hdrain, hbusy])] at hexec
    refine ⟨_, hexec, ?_, rfl, ?_⟩
    · exact congrArg (· == 1) (State.get_set_self (s := s) AGT_FAB_CMDSTAT.BUSY 0 1)
    · exact (Within.fabric (k := 32770) rfl (State.set_within (k := 32770) rfl (.refl _ s)) _).sameBut (by decide)
  · refine (State.onClock_of hs).trans ?_
    rw [hd]
    dsimp only
    rw [if_neg (by simp [hadm]), if_neg]
    rcases hend with h | h
    · simp [h]
    · simp [h]

/-! ## Re-admission and epochs (R271, R272, R280) -/

/-- An epoch changes no register but EPOCH. -/
theorem State.newEpoch_regs (s : State) : s.newEpoch.regs =
    (s.set AGT_FAB_STATUS.EPOCH 0 ((s.get AGT_FAB_STATUS.EPOCH 0 + 1) % 2 ^ 32)).regs := by
  unfold State.newEpoch
  extract_lets e s1 cur
  split <;> rfl

theorem State.newEpoch_epoch (s : State) :
    s.newEpoch.get AGT_FAB_STATUS.EPOCH 0 = (s.get AGT_FAB_STATUS.EPOCH 0 + 1) % 2 ^ 32 := by
  refine (State.getO_congr s.newEpoch_regs _ _ _).trans ((State.get_set_self ..).trans ?_)
  exact Nat.mod_mod _ _

theorem State.admitNow_spec (hn : n < 4) (s : State) : (s.admitNow n).admitted n = true ∧ (s.admitNow n).fenced n = false ∧
    (s.admitNow n).fabric.admitting = none ∧ (s.admitNow n).get AGT_FAB_STATUS.EPOCH 0 = (s.get AGT_FAB_STATUS.EPOCH 0 + 1) % 2 ^ 32 := by
  let s1 := s.setAdmitted n true false
  let s2 := s1.set AGT_FAB_STATUS.LOST 0 (setBit (s1.get AGT_FAB_STATUS.LOST 0) n false)
  let s3 := s2.newEpoch
  have hregs : (s.admitNow n).regs = (s3.fabEnd .ok).regs := rfl
  have hend (g : Fld) (hb : g.apart AGT_FAB_CMDSTAT.BUSY = true) (hst : g.apart AGT_FAB_CMDSTAT.STATUS = true) :
      (s.admitNow n).get g 0 = s3.get g 0 := by
    refine (State.getO_congr hregs g 4 0).trans ?_
    unfold State.fabEnd
    exact (State.get_set_apart hst).trans (State.get_set_apart hb)
  have hmark (g : Fld) (hb : g.apart AGT_FAB_CMDSTAT.BUSY = true) (hst : g.apart AGT_FAB_CMDSTAT.STATUS = true)
      (he : g.apart AGT_FAB_STATUS.EPOCH = true) (hl : g.apart AGT_FAB_STATUS.LOST = true) : (s.admitNow n).get g 0 = s1.get g 0 := by
    rw [hend g hb hst]
    refine (State.getO_congr s2.newEpoch_regs g 4 0).trans ?_
    exact (State.get_set_apart he).trans (State.get_set_apart hl)
  obtain ⟨hadm, hfen⟩ := State.admitted_setAdmitted hn s true false
  refine ⟨(State.admitted_congr (hmark _ (by decide) (by decide) (by decide) (by decide))).trans hadm,
    (State.fenced_congr (hmark _ (by decide) (by decide) (by decide) (by decide))).trans hfen, rfl, ?_⟩
  have hepoch : s2.get AGT_FAB_STATUS.EPOCH 0 = s.get AGT_FAB_STATUS.EPOCH 0 := by
    unfold s2 s1 State.setAdmitted
    rw [State.get_set_apart (by decide), State.get_set_apart (by decide), State.get_set_apart (by decide)]
  rw [hend _ (by decide) (by decide), s2.newEpoch_epoch, hepoch]

/-- ADMIT fails: its die's links are DOWN, and the command ends with NODE_LOST. -/
theorem State.abandonAdmit_spec (hn : n < 4) (ha : s.fabric.admitting = some n) : (s.abandonAdmit n).fabric.admitting = none ∧
    (s.abandonAdmit n).get AGT_FAB_CMDSTAT.STATUS 0 = Status.code .nodeLost ∧ (∀ l ∈ dieLinks n, (s.abandonAdmit n).linkState l = 0) := by
  have heq : ∃ s1 : State, s1.fabric.admitting = none ∧ s.abandonAdmit n =
      ((((dieLinks n).foldl (fun st l => st.setLink l 0 false) s1).set AGT_FAB_STATUS.EPOCH_PENDING 0 0).fabEnd .nodeLost) :=
    ⟨{ s with fabric := { s.fabric with admitting := none, pendingAdmit := sdel s.fabric.pendingAdmit n } }, rfl,
      if_neg (by simp [ha])⟩
  obtain ⟨s1, hnone, heq⟩ := heq
  rw [heq]
  let s2 := (dieLinks n).foldl (fun st l => st.setLink l 0 false) s1
  have hfab : s2.fabric = s1.fabric := by
    have hfold : ∀ (ls : List Nat) (u : State), (ls.foldl (fun st l => st.setLink l 0 false) u).fabric = u.fabric := by
      intro ls
      induction ls with
      | nil => exact fun _ => rfl
      | cons l ls ih => exact fun u => (ih _).trans ((State.setLink_within (k := 2) rfl (.refl _ u)).parts .fabric rfl)
    exact hfold _ s1
  refine ⟨?_, ?_, fun l hl => ?_⟩
  · exact (congrArg Fabric.admitting hfab).trans hnone
  · unfold State.fabEnd
    exact (State.get_set_self ..).trans (Nat.mod_eq_of_lt (by decide))
  · have hread : ((s2.set AGT_FAB_STATUS.EPOCH_PENDING 0 0).fabEnd .nodeLost).linkState l = s2.linkState l := by
      unfold State.fabEnd State.linkState
      simp (disch := decide) only [State.get_set_apart]
    rw [hread]
    exact State.linkState_foldl_down (dieLinks_lt hn) s1 (dieLinks_lt hn l hl) (.inl hl)

theorem State.agreesOn_retrain {g : Fld} (h : g.offLinks = true) (s : State) (l : Nat) (half : Bool) : State.agreesOn g s (s.retrain l half) :=
  (State.agreesOn_setLink h s l (if half then 2 else 1) half).trans (State.agreesOn_of_regs rfl)

/-- A link that is trained is UP or DEGRADED, and training others leaves it so. -/
theorem State.linkState_train {ls : List Nat} (hls : ∀ j ∈ ls, j < 9) (half : List Nat) (s : State) {j : Nat} (hlt : j < 9)
    (hj : j ∈ ls ∨ s.linkState j = 1 ∨ s.linkState j = 2) :
    let u := ls.foldl (fun st l => (st.retrain l (half.contains l)).countPacket l true) s
    u.linkState j = 1 ∨ u.linkState j = 2 := by
  induction ls generalizing s with
  | nil => exact hj.resolve_left List.not_mem_nil
  | cons l ls ih =>
    refine ih (fun i hi => hls i (List.mem_cons_of_mem _ hi)) _ ?_
    have hlink : ((s.retrain l (half.contains l)).countPacket l true).linkState j =
        (s.setLink l (if half.contains l then 2 else 1) (half.contains l)).linkState j := State.linkState_countPacket _ l true j
    rw [hlink]
    by_cases h : j = l
    · rw [h, State.linkState_setLink_self]
      cases half.contains l
      · exact .inr (.inl rfl)
      · exact .inr (.inr rfl)
    · rw [State.linkState_setLink_ne (hls l List.mem_cons_self) hlt h]
      exact hj.imp_left fun hmem => (List.mem_cons.1 hmem).resolve_left h

theorem State.trainable_lt (hn : n < 4) : ∀ l ∈ s.trainable n, l < 9 := by
  intro l hl
  simp only [State.trainable, List.mem_append, List.mem_singleton] at hl
  rcases hl with (rfl | hl) | hl
  · omega
  · split at hl
    · rw [List.mem_singleton.1 hl]
      omega
    · exact absurd hl List.not_mem_nil
  · split at hl
    · rw [List.mem_singleton.1 hl]
      omega
    · exact absurd hl List.not_mem_nil

theorem exec_admitDie {src : Src} {val : Nat} (hs : s.clocked = true) (hreach : s.reaches src 4 13 0x8 = true)
    (hidle : s.isSet AGT_FAB_CMDSTAT.BUSY 0 = false) (hop : bits val 0 4 = 2) (h8 : bit val 8 = false) (hf : s.fenced (bits val 4 4) = true)
    (hr : s.fabric.restored.contains (bits val 4 4) = true) :
    ∃ t, exec (.admitDie src val) s = .next t ∧ t.fabric.admitting = some (bits val 4 4) ∧ t.isSet AGT_FAB_CMDSTAT.BUSY 0 = true ∧
      s.sameBut [.regs, .fabric] t := by
  have hexec : exec (.admitDie src val) s = _ := State.onClock_of hs
  rw [State.fabTurnedAway_none hreach hidle] at hexec
  dsimp -zeta only at hexec
  rw [if_neg (not_not.2 hop), if_neg (by rw [h8, hf, hr]; decide)] at hexec
  refine ⟨_, hexec, rfl, ?_, ?_⟩
  · exact congrArg (· == 1) (State.get_set_self (s := s) AGT_FAB_CMDSTAT.BUSY 0 1)
  · exact (Within.fabric (k := 32770) rfl (State.set_within (k := 32770) rfl (.refl _ s)) _).sameBut (by decide)

/-- Settles O33. -/
theorem diesAreAdmitted : Obligations.DiesAreAdmitted := by
  intro s src val half hs
  refine ⟨?_, fun n ha hn hp hon => ?_, fun r hr hused => ?_, s.newEpoch_epoch, fun n hn => s.admitNow_spec hn⟩
  · intro n hreach hidle hop h8 hf hr
    exact exec_admitDie hs hreach hidle hop h8 hf hr
  · let s1 := (s.trainable n).foldl (fun st l => (st.retrain l (half.contains l)).countPacket l true) s
    have hexec : exec (.admitComplete true half) s = (if s.fabric.retained.isSome then
        .next ({ s1 with fabric := { s1.fabric with pendingAdmit := [n] } } : State).showPending else .next (s1.admitNow n)) := by
      refine (State.onClock_of hs).trans ?_
      rw [ha]
      dsimp only
      rw [if_neg (by rw [hp]; decide), if_neg (by rw [hon]; decide)]
    have htrain : State.agreesOn AGT_FAB_STATUS.EPOCH s s1 := State.agreesOn_foldl (fun st l =>
      (State.agreesOn_retrain (by decide) st l (half.contains l)).trans (State.agreesOn_countPacket (by decide) _ l true)) _ s
    refine ⟨fun hnone => ⟨s1, ?_, htrain.get 0, ?_⟩, fun hsome => ⟨_, hexec.trans (if_pos hsome), rfl, ?_⟩, ?_, State.abandonAdmit_spec hn ha⟩
    · rw [hexec, hnone]
      rfl
    · exact State.linkState_train (State.trainable_lt hn) half s (by omega) (.inl (by simp [State.trainable]))
    · exact State.get_set_self ..
    · refine (State.onClock_of hs).trans ?_
      rw [ha]
      dsimp only
      rw [if_neg (by rw [hp]; decide)]
      exact if_pos rfl
  · refine (State.onClock_of hs).trans ?_
    rw [hr]
    dsimp only
    rw [hused]
    exact if_neg Bool.false_ne_true
end Sys2Proof.Machine
end

section
/-! SUPPORT. Camera ports: what a write of one buffer's state, of a port and of a detector state leaves of the others, and events. -/

namespace Sys2Proof.Machine

open Host Reg

variable {s t : State} {p : Nat}

/-! ## Two-bit digits of a word -/

/-- Digit `k` to base 4 put in place of the one that stands: the others stay. -/
theorem bits_setDigit {j k v : Nat} (b : Nat) (hv : v < 4) :
    bits (b - bits b (2 * k) 2 * 4 ^ k + v * 4 ^ k) (2 * j) 2 = if j = k then v else bits b (2 * j) 2 := by
  have hdig (x i : Nat) : bits x (2 * i) 2 = x / 4 ^ i % 4 := by
    unfold bits
    rw [pow_mul]
    rfl
  rw [hdig, hdig, hdig]
  obtain ⟨hi, lo, hb, hlo⟩ : ∃ q r, b = 4 ^ k * q + r ∧ r < 4 ^ k :=
    ⟨b / 4 ^ k, b % 4 ^ k, (Nat.div_add_mod b _).symm, Nat.mod_lt _ (Nat.pow_pos (by decide))⟩
  have hpos : 0 < 4 ^ k := Nat.pow_pos (by decide)
  have hdiv (q : Nat) : (4 ^ k * q + lo) / 4 ^ k = q := by
    rw [Nat.mul_add_div hpos, Nat.div_eq_of_lt hlo, Nat.add_zero]
  have hnew : b - b / 4 ^ k % 4 * 4 ^ k + v * 4 ^ k = 4 ^ k * (4 * (hi / 4) + v) + lo := by
    rw [hb, hdiv]
    have hq : hi = 4 * (hi / 4) + hi % 4 := (Nat.div_add_mod hi 4).symm
    have hle : hi % 4 * 4 ^ k ≤ 4 ^ k * hi := by
      rw [Nat.mul_comm]
      exact Nat.mul_le_mul_left _ (Nat.mod_le _ _)
    have hsplit : 4 ^ k * hi = 4 ^ k * (4 * (hi / 4)) + hi % 4 * 4 ^ k := by
      conv_lhs => rw [hq]
      ring
    rw [Nat.mul_add, Nat.mul_comm v]
    omega
  rw [hnew]
  rcases Nat.lt_trichotomy j k with h | rfl | h
  · obtain ⟨m, rfl⟩ : ∃ m, k = j + (m + 1) := ⟨k - j - 1, by omega⟩
    have hlow (q : Nat) : (4 ^ (j + (m + 1)) * q + lo) / 4 ^ j % 4 = lo / 4 ^ j % 4 := by
      rw [show 4 ^ (j + (m + 1)) * q = 4 ^ j * (4 * (4 ^ m * q)) by ring, Nat.mul_add_div (Nat.pow_pos (by decide)), Nat.mul_add_mod]
    rw [if_neg (by omega), hb, hlow, hlow]
  · rw [if_pos rfl, hdiv]
    omega
  · obtain ⟨m, rfl⟩ : ∃ m, j = k + (1 + m) := ⟨j - k - 1, by omega⟩
    have hhigh (q : Nat) : (4 ^ k * q + lo) / 4 ^ (k + (1 + m)) = q / 4 / 4 ^ m := by
      rw [pow_add, ← Nat.div_div_eq_div_mul, hdiv, pow_add, pow_one, Nat.div_div_eq_div_mul]
    rw [if_neg (by omega), hb, hhigh, hhigh]
    congr 2
    omega

/-- Digits below a cut stay under it. -/
theorem bits_mod {lo w n : Nat} (h : lo + w ≤ n) (x : Nat) : bits (x % 2 ^ n) lo w = bits x lo w := by
  refine Nat.eq_of_testBit_eq fun i => ?_
  unfold bits
  rw [Nat.testBit_mod_two_pow, Nat.testBit_mod_two_pow, Nat.testBit_div_two_pow, Nat.testBit_div_two_pow, Nat.testBit_mod_two_pow]
  by_cases hi : i < w
  · simp [hi, show i + lo < n by omega]
  · simp [hi]

/-! ## Buffers (R240) -/

theorem State.bufState_setBuf {j k v : Nat} (hj : j < 8) (hv : v < 4) (s : State) (p : Nat) :
    (s.setBuf p k v).bufState p j = if j = k then v else s.bufState p j := by
  unfold State.bufState State.setBuf
  rw [State.get_set_self]
  exact (bits_mod (show 2 * j + 2 ≤ 16 by omega) _).trans (bits_setDigit _ hv)

theorem State.agreesOn_setBuf {g : Fld} (h : g.apart AGT_ING_CAMSTAT.BUFSTATE = true) (s : State) (p k v : Nat) :
    State.agreesOn g s (s.setBuf p k v) := State.agreesOn_setO h _ _ _

theorem State.bufState_congr (h : State.agreesOn AGT_ING_CAMSTAT.BUFSTATE s t) (p j : Nat) : t.bufState p j = s.bufState p j :=
  congrArg (fun b => bits b (2 * j) 2) (h.get p)

/-- Buffers freed one after another. -/
theorem State.bufState_foldl_free (l : List Nat) (s : State) (p : Nat) {j : Nat} (hj : j < 8) :
    (l.foldl (fun st k => st.setBuf p k 0) s).bufState p j = if j ∈ l then 0 else s.bufState p j := by
  induction l generalizing s with
  | nil => simp
  | cons k l ih =>
    rw [List.foldl_cons, ih, State.bufState_setBuf hj (by decide)]
    by_cases h : j ∈ l
    · simp [h]
    · by_cases hk : j = k
      · simp [hk]
      · simp [h, hk]

/-! ## Ports -/

theorem State.cam_setCam_self (s : State) (p : Nat) (c : CamPort) : (s.setCam p c).cam p = c := tget_tput_self

theorem State.cam_congr (h : t.ing = s.ing) (p : Nat) : t.cam p = s.cam p := by
  unfold State.cam
  rw [h]

theorem State.camState_congr (h : State.agreesOn AGT_ING_CAMSTAT.STATE s t) (p : Nat) : t.camState p = s.camState p := h.get p

theorem State.camState_setCamState {v : Nat} (hv : v < 8) (s : State) (p : Nat) : (s.setCamState p v).camState p = v := by
  unfold State.setCamState State.camState
  rw [State.get_set_apart (by decide), State.get_set_self]
  exact Nat.mod_eq_of_lt hv

theorem State.agreesOn_setCamState {g : Fld} (h : g.apart AGT_ING_CAMSTAT.STATE = true) (h' : g.apart AGT_ING_STATUS.CAM_ACTIVE = true)
    (s : State) (p v : Nat) : State.agreesOn g s (s.setCamState p v) :=
  (State.agreesOn_setO h _ _ _).trans (State.agreesOn_setO h' _ _ _)

/-! ## Masks -/

theorem mem_maskList {n m i : Nat} : i ∈ maskList n m ↔ i < n ∧ bit m i = true := by simp [maskList]

/-- The mask of one bit. -/
theorem maskList_two_pow {n p : Nat} (h : p < n) : maskList n (2 ^ p) = [p] := by
  have hbit (i : Nat) : bit (2 ^ p) i = decide (p = i) := by
    rw [bit_eq_testBit, Nat.testBit_two_pow]
  unfold maskList
  simp only [hbit]
  induction n with
  | zero => omega
  | succ n ih =>
    rw [List.range_succ, List.filter_append]
    by_cases hn : p = n
    · subst hn
      have hnone : (List.range p).filter (fun i => decide (p = i)) = [] := by
        rw [List.filter_eq_nil_iff]
        intro i hi
        simp at hi ⊢
        omega
      simp [hnone]
    · rw [ih (by omega)]
      simp [hn]

/-! ## Events (R296) -/

/-- No register of an event ring's state. -/
def Fld.offEvents (g : Fld) : Bool :=
  [AGT_SCHED_HOSTEVQSTAT.TAIL, AGT_SCHED_HOSTEVQSTAT.LOST, AGT_SCHED_PART_EVQSTAT.TAIL, AGT_SCHED_PART_EVQSTAT.LOST].all g.apart

theorem State.agreesOn_event {g : Fld} (h : g.offEvents = true) (s : State) (ring : Nat) (st : Status) (kind node part a0 addr a1 : Nat) :
    State.agreesOn g s (s.event ring st kind node part a0 addr a1) := by
  simp only [Fld.offEvents, List.all_cons, List.all_nil, Bool.and_true, Bool.and_eq_true] at h
  obtain ⟨hht, hhl, hpt, hpl⟩ := h
  have htail : g.apart (evq ring AGT_SCHED_HOSTEVQSTAT.TAIL AGT_SCHED_PART_EVQSTAT.TAIL) = true := by
    unfold evq
    split
    · exact hht
    · exact hpt
  have hlost : g.apart (evq ring AGT_SCHED_HOSTEVQSTAT.LOST AGT_SCHED_PART_EVQSTAT.LOST) = true := by
    unfold evq
    split
    · exact hhl
    · exact hpl
  unfold State.event
  extract_lets i loc base size fTail tail head ph rec32 s1 next s2
  have hs1 : State.agreesOn g s s1 :=
    State.agreesOn_of_regs ((State.dma_within (k := 976) rfl (.refl _ s)).parts .regs rfl)
  have hs2 : State.agreesOn g s s2 := hs1.trans (State.agreesOn_setO htail _ _ _)
  split
  · exact State.agreesOn_setO hlost _ _ _
  · split
    · exact hs2.trans (State.agreesOn_of_regs rfl)
    · exact hs2
end Sys2Proof.Machine
end

section
/-! PROOFS. Cameras: frames, buffers, exclusion and the order of one cycle (O34). -/

namespace Sys2Proof.Machine

open Host Reg

variable {s t u : State} {p : Nat} {src : Src}

/-! ## Configuration (R235, R236) -/

theorem exec_camcfgWrite {val : Nat} (hs : s.clocked = true) (hp : p < 12) (hw : s.ingWrites src (0x100 + 64 * p) = true)
    (hoff : s.get AGT_ING_CAMCFG.ENABLE p ≠ 1) (hen : bit val 0 = true) (hheld : ∀ k, k < 8 → s.bufState p k ≠ 3)
    (hok : (s.storeCam p val).camCfgOk p = true) :
    ∃ t, exec (.camcfgWrite src p 0 val) s = .next t ∧ t.get AGT_ING_CAMCFG.ENABLE p = 1 ∧ t.camState p = 1 ∧
      t.get AGT_ING_CAMSTAT.FRZ_RUN p = 0 ∧ t.get AGT_ING_CAMSTAT.FLAT_RUN p = 0 ∧ t.get AGT_ING_CAMSTAT.BUFSTATE p = 0 ∧
      t.get AGT_ING_CAMCFG.WIDTH_M1 p = bits val 32 12 ∧ t.get AGT_ING_CAMCFG.HEIGHT_M1 p = bits val 44 12 := by
  have hnone : ((List.range 8).any fun k => s.bufState p k == 3) = false := by
    rw [List.any_eq_false]
    intro k hk
    simpa using hheld k (List.mem_range.1 hk)
  have hexec : exec (.camcfgWrite src p 0 val) s = _ := State.onClock_of hs
  rw [if_neg (by simp; omega), if_neg (by simp [hw])] at hexec
  extract_lets on s1' c s1 s2 at hexec
  have hon : on = false := by simpa [on] using hoff
  rw [hon, hen, hnone, hok] at hexec
  refine ⟨_, hexec, ?_⟩
  have hstore : s1 = s.storeCam p val := rfl
  unfold State.camState
  rw [State.get_setCam, State.get_setCam, State.get_setCam, State.get_setCam, State.get_setCam, State.get_setCam, State.get_setCam]
  unfold s2 State.setCamState
  simp (disch := decide) only [State.get_set_apart, State.get_set_self]
  rw [hstore]
  unfold State.storeCam
  simp (disch := decide) only [State.get_set_apart, State.get_set_self]
  exact ⟨rfl, rfl, rfl, rfl, rfl, Nat.mod_eq_of_lt (bits_lt ..), Nat.mod_eq_of_lt (bits_lt ..)⟩

/-! ## The order of one cycle (R241) -/

/-- An event that nothing stands before, where nothing waits, takes effect at once. -/
theorem State.camTurn_now {c : Instr} {ps : List Nat} {k : Nat} (hc : s.camEvent c = some (ps, k)) (hb : s.camBehind ps k = false)
    (hw : s.ing.waiting = []) : s.camTurn c = s.camAct c := by
  unfold State.camTurn
  rw [hc]
  dsimp only
  rw [hb, hw]
  rfl

theorem State.camBehind_zero (s : State) (ps : List Nat) : s.camBehind ps 0 = false := by
  unfold State.camBehind
  rw [List.any_eq_false]
  intro c _
  split
  · simp
  · simp

/-! ## Frame Starts (R237, R240) -/

theorem State.takeBuf_ing (s : State) (p : Nat) : (s.takeBuf p).1.ing = s.ing :=
  (State.takeBuf_within (k := 2) rfl (.refl _ s)).parts .ing rfl

theorem exec_csiFrameStart {vc no : Nat} (hs : s.clocked = true) (htake : s.camTakes p vc = true) (hst : s.camState p ∈ [1, 2, 3])
    (hcur : (s.cam p).cur = none) (hb : s.camBehind [p] 3 = false) (hw : s.ing.waiting = [])
    (hno : (s.camLimits p).fnumChk = false ∨ s.camState p = 1 ∨ (s.cam p).lastNo ≠ some (no % 2 ^ 16)) :
    ∃ (t : State) (f : CamFrame) (b : Option Nat), exec (.csiFrameStart p { vc := vc, no := no }) s = .next t ∧
      (t.cam p).seq = ((s.cam p).seq + 1) % 2 ^ 32 ∧ (t.cam p).lastSof = some s.time.now ∧ (t.cam p).lastNo = some (no % 2 ^ 16) ∧
      (t.cam p).cur = some (f, b) ∧ f.seq = ((s.cam p).seq + 1) % 2 ^ 32 ∧ f.sof = s.time.now ∧ f.no = no % 2 ^ 16 := by
  have hexec : exec (.csiFrameStart p { vc := vc, no := no }) s = .next (s.frameStart p vc no) :=
    (State.onClock_of hs).trans (congrArg Outcome.next (State.camTurn_now rfl hb hw))
  simp only [List.mem_cons, List.not_mem_nil, or_false] at hst
  have hskip : (s.camJudged p && (s.camLimits p).fnumChk && (s.cam p).lastNo == some (no % 2 ^ 16)) = false := by
    rcases hno with h | h | h
    · simp [h]
    · simp [State.camJudged, h]
    · simp [show (s.cam p).lastNo ≠ some (no % 65536) from h]
  unfold State.frameStart at hexec
  rw [if_neg (by simp [htake]; omega)] at hexec
  extract_lets s0 c now lim seq s1 q cq at hexec
  have hs0 : s0 = s := if_neg (by simp [hcur])
  have hc : c = s.cam p := congrArg (fun v => State.cam v p) hs0
  have hskip' : (s.camJudged p && lim.fnumChk && c.lastNo == some (no % 2 ^ 16)) = false := by
    rw [hc]
    exact hskip
  rw [if_neg (by omega), hskip', if_neg Bool.false_ne_true] at hexec
  have hcam : cq = s1.cam p := State.cam_congr (State.takeBuf_ing s1 p) p
  have hs1 : s1.cam p = { c with seq := seq, lastSof := some now, lastNo := some (no % 2 ^ 16), lim := lim } := State.cam_setCam_self ..
  have hseq : seq = ((s.cam p).seq + 1) % 2 ^ 32 := by rw [← hc]
  refine ⟨_, ⟨seq, now, 0, no % 2 ^ 16, frameTiming c lim now (no % 2 ^ 16)⟩, q.2, hexec, ?_⟩
  rw [State.cam_setCam_self, hcam, hs1]
  exact ⟨hseq, rfl, rfl, rfl, hseq, rfl, rfl⟩

/-! ## Frame Ends (R239, R242 to R245) -/

theorem State.freeBuf_ing (s : State) (p : Nat) (b : Option Nat) : (s.freeBuf p b).ing = s.ing :=
  (State.freeBuf_within (k := 2) rfl (.refl _ s)).parts .ing rfl

theorem State.setCamState_ing (s : State) (p v : Nat) : (s.setCamState p v).ing = s.ing := rfl

/-- The first good frame leads to BASELINE. -/
theorem State.judgeFrame_baseline {w : CamWait} (h : s.camState p = 1) :
    ∃ t, s.judgeFrame p w = (t, none) ∧ t.camState p = 2 ∧ (t.cam p).ref = some w.sig := by
  let s1 := s.setCam p { s.cam p with ref := some w.sig }
  refine ⟨(s1.freeBuf p w.buf).setCamState p 2, ?_, State.camState_setCamState (by decide) _ p, ?_⟩
  · unfold State.judgeFrame
    exact if_pos h
  · have hcam : ((s1.freeBuf p w.buf).setCamState p 2).cam p = s1.cam p :=
      State.cam_congr ((State.setCamState_ing _ p 2).trans (s1.freeBuf_ing p w.buf)) p
    rw [hcam]
    exact congrArg CamPort.ref (State.cam_setCam_self ..)

/-- A frame that is neither frozen nor flat makes its port ACTIVE. -/
theorem State.judgeFrame_passes {w : CamWait} {k : Nat} (h : s.camState p ≠ 1) (hbuf : w.buf = some k)
    (hdiff : ((w.sig.zip ((s.cam p).ref.getD [])).filter (fun q => q.1 == q.2)).length < (s.cam p).lim.bands)
    (hspan : (s.cam p).lim.flatSpan < w.span) :
    ∃ t w', s.judgeFrame p w = (t, some w') ∧ t.camState p = 3 ∧ t.cam p = { s.cam p with ref := some w.sig } ∧ w'.buf = some k ∧
      w'.judged = true ∧ w'.frame = w.frame ∧ t.get AGT_ING_CAMSTAT.FRZ_RUN p = 0 ∧ t.get AGT_ING_CAMSTAT.FLAT_RUN p = 0 := by
  unfold State.judgeFrame
  extract_lets c s1 frz0 flat0 same flat frz flt cause s2 s3
  have hsame : same = false := decide_eq_false (Nat.not_le.2 hdiff)
  have hflat : flat = false := decide_eq_false (Nat.not_le.2 hspan)
  have hfrz : frz = 0 := by
    unfold frz
    rw [hsame]
    rfl
  have hflt : flt = 0 := by
    unfold flt
    rw [hflat]
    rfl
  have hbuf' : w.buf.isSome = true := by simp [hbuf]
  rw [if_neg h, hsame, hflat, if_neg (by decide), if_pos hbuf']
  refine ⟨_, _, rfl, State.camState_setCamState (by decide) _ p, ?_, hbuf, rfl, rfl, ?_, ?_⟩
  · exact (State.cam_congr (s := s1) rfl p).trans (State.cam_setCam_self ..)
  · rw [(State.agreesOn_setCamState (by decide) (by decide) s2 p 3).get]
    unfold s2
    rw [State.get_set_apart (by decide), State.get_set_self, hfrz]
    rfl
  · rw [(State.agreesOn_setCamState (by decide) (by decide) s2 p 3).get]
    unfold s2
    rw [State.get_set_self, hflt]
    rfl

/-- The judgement of the frame that waits alone. -/
theorem State.judgeWaits_one {w : CamWait} (h : (s.cam p).waits = [w]) (hj : w.judged = false) :
    State.judgeWaits p 1 s = (match ((s.setCam p { s.cam p with waits := [] }).judgeFrame p w).2 with
      | some w' => let t := ((s.setCam p { s.cam p with waits := [] }).judgeFrame p w).1
        t.setCam p { t.cam p with waits := w' :: (t.cam p).waits }
      | none => ((s.setCam p { s.cam p with waits := [] }).judgeFrame p w).1) := by
  rw [State.judgeWaits, h]
  dsimp only
  rw [hj, if_neg Bool.false_ne_true]
  rfl

/-- Frames that wait behind one that is judged are left as they are. -/
theorem State.judgeWaits_judged {w : CamWait} {rest : List CamWait} (h : (s.cam p).waits = w :: rest) (hj : w.judged = true) (k : Nat) :
    State.judgeWaits p k s = s := by
  cases k with
  | zero => rfl
  | succ k =>
    rw [State.judgeWaits, h]
    exact if_pos hj

theorem exec_csiFrameEnd {err : Bool} {f : FrameData} (hs : s.clocked = true) (hw : s.ing.waiting = []) :
    exec (.csiFrameEnd p err f) s = .next (s.frameEnd p f.vc err f.packets) :=
  (State.onClock_of hs).trans (congrArg Outcome.next (State.camTurn_now rfl (s.camBehind_zero _) hw))

section
variable {vc : Nat} {err : Bool} {packets : List (Nat × List Byte)} {f : CamFrame} {b : Option Nat}

/-- The lines of the data type that a port captures. -/
def State.camLines (s : State) (p : Nat) (packets : List (Nat × List Byte)) : List (List Byte) :=
  (packets.filter (fun l => l.1 == s.get AGT_ING_CAMCFG.DT p)).map (·.2)

/-- The pixels of a frame's lines. -/
def State.camPixels (s : State) (p : Nat) (packets : List (Nat × List Byte)) : List (List (List Nat)) :=
  (s.camLines p packets).zipIdx.map (fun l =>
    (linePixels (s.get AGT_ING_CAMCFG.DT p) ((Config.free (s.freeCount + l.2)).toNat % 256) l.1).take (s.camW p))

/-- The state in which a frame that has ended is judged. -/
def State.camEnded (s : State) (p : Nat) (packets : List (Nat × List Byte)) : State :=
  { s.dropCur p with freeCount := s.freeCount + (s.camLines p packets).length }

/-- The bytes of a frame are written into its buffer. -/
def State.camWritten (s : State) (p : Nat) (b : Option Nat) (packets : List (Nat × List Byte)) : Option State :=
  (s.camEnded p packets).writeFrame p b ((s.camPixels p packets).flatMap (fun l =>
    l.flatMap (pixelBytes (camFmt (s.get AGT_ING_CAMCFG.OUTFMT p)) (codeBits (s.get AGT_ING_CAMCFG.DT p)))))

/-- Is a frame dropped for a packet error, or for lines that are not those of its configuration? -/
def State.camErrored (s : State) (p : Nat) (err : Bool) (packets : List (Nat × List Byte)) : Bool :=
  err || (s.camLines p packets).length != s.camH p ||
    (s.camLines p packets).any (fun l => l.length != lineBytes (s.get AGT_ING_CAMCFG.DT p) (s.camW p))

theorem State.dropCur_freeCount (s : State) (p : Nat) : (s.dropCur p).freeCount = s.freeCount :=
  (State.dropCur_within (k := 4194306) rfl (.refl _ s)).parts .free rfl

theorem State.agreesOn_dropCur {g : Fld} (h : g.apart AGT_ING_CAMSTAT.BUFSTATE = true) (s : State) (p : Nat) :
    State.agreesOn g s (s.dropCur p) := by
  unfold State.dropCur
  split
  · exact State.agreesOn_refl g s
  · refine State.agreesOn.trans ?_ (State.agreesOn_of_regs rfl)
    split
    · split
      · exact State.agreesOn_setBuf h s p _ 0
      · exact State.agreesOn_refl g s
    · exact State.agreesOn_refl g s

variable (hcur : (s.cam p).cur = some (f, b)) (htake : s.camTakes p vc = true) (hruns : s.camRuns p = true)
include hcur htake hruns

theorem State.frameEnd_errored (h : s.camErrored p err packets = true) :
    s.frameEnd p vc err packets = (s.camEnded p packets).count AGT_ING_CAMLOSS.ERRORED p 1 := by
  unfold State.frameEnd
  rw [hcur]
  dsimp -zeta only
  rw [if_neg (by simp [htake, hruns])]
  extract_lets dt fmt lines errored px d s0
  have herr : errored = true := h
  have hs0 : s0 = s.camEnded p packets := by
    unfold s0 State.camEnded
    rw [State.dropCur_freeCount]
    rfl
  rw [herr, hs0]

/-- A good frame, written: it is judged after those that wait. -/
theorem State.frameEnd_passed (h : s.camErrored p err packets = false) (hu : s.camWritten p b packets = some u) :
    ∃ (w : CamWait) (v : State), w.buf = b ∧ w.sig = bandCrcs (s.camLines p packets) ∧ w.span = codeSpan (thinned 8 (s.camPixels p packets)) ∧
      w.judged = false ∧ w.frame.sof = f.sof ∧ w.frame.eof = s.time.now ∧ v.cam p = u.cam p ∧ v.camState p = u.camState p ∧
      u.camState p = s.camState p ∧ s.frameEnd p vc err packets =
        State.judgeWaits p ((u.cam p).waits.length + 1) (v.setCam p { v.cam p with waits := (u.cam p).waits ++ [w] }) := by
  unfold State.frameEnd
  rw [hcur]
  dsimp -zeta only
  rw [if_neg (by simp [htake, hruns])]
  extract_lets dt fmt lines errored px d s0 thumb w
  have herr : errored = false := h
  have hs0 : s0 = s.camEnded p packets := by
    unfold s0 State.camEnded
    rw [State.dropCur_freeCount]
    rfl
  have hwrite : s0.writeFrame p b (px.flatMap (fun l => l.flatMap (pixelBytes fmt (codeBits dt)))) = some u := by
    rw [hs0]
    exact hu
  rw [herr, hwrite]
  dsimp -zeta only
  extract_lets v l cp
  have hv : v.ing = u.ing ∧ State.agreesOn AGT_ING_CAMSTAT.STATE u v := by
    unfold v
    cases b with
    | none => exact ⟨rfl, State.agreesOn_refl _ u⟩
    | some k => exact ⟨rfl, State.agreesOn_setBuf (by decide) u p k 1⟩
  have hd : State.agreesOn AGT_ING_CAMSTAT.STATE s (s.camEnded p packets) := by
    have hdrop : State.agreesOn AGT_ING_CAMSTAT.STATE s (s.dropCur p) := State.agreesOn_dropCur (by decide) s p
    exact hdrop.trans (State.agreesOn_of_regs rfl)
  have hu' : State.agreesOn AGT_ING_CAMSTAT.STATE (s.camEnded p packets) u :=
    State.agreesOn_of_regs (((State.writeFrame_within (k := 912) rfl (.refl _ _)).some _ hu).parts .regs rfl)
  have hcam : v.cam p = u.cam p := State.cam_congr hv.1 p
  refine ⟨w, v, rfl, rfl, rfl, rfl, rfl, rfl, hcam, State.camState_congr hv.2 p, State.camState_congr (hd.trans hu') p, ?_⟩
  have hl : l = (u.cam p).waits ++ [w] := by
    unfold l
    rw [hcam]
  rw [hl, List.length_append]
  rfl

theorem State.frameEnd_baseline (h : s.camErrored p err packets = false) (hu : s.camWritten p b packets = some u)
    (hnone : (u.cam p).waits = []) (hst : s.camState p = 1) :
    (s.frameEnd p vc err packets).camState p = 2 ∧
      ((s.frameEnd p vc err packets).cam p).ref = some (bandCrcs (s.camLines p packets)) := by
  obtain ⟨w, v, -, hsig, -, hj, -, -, hcam, hv, hus, hend⟩ := State.frameEnd_passed hcur htake hruns h hu
  rw [hnone] at hend
  have hwaits : ((v.setCam p { v.cam p with waits := [w] }).cam p).waits = [w] := congrArg CamPort.waits (State.cam_setCam_self ..)
  have hstate : ((v.setCam p { v.cam p with waits := [w] }).setCam p
      { (v.setCam p { v.cam p with waits := [w] }).cam p with waits := [] }).camState p = 1 := hv.trans (hus.trans hst)
  obtain ⟨t, hjudge, ht, href⟩ := State.judgeFrame_baseline (w := w) hstate
  have hone := State.judgeWaits_one hwaits hj
  rw [hjudge] at hone
  have heq : s.frameEnd p vc err packets = t := hend.trans hone
  rw [heq, ← hsig]
  exact ⟨ht, href⟩

theorem State.frameEnd_active {k : Nat} (h : s.camErrored p err packets = false) (hu : s.camWritten p b packets = some u)
    (hnone : (u.cam p).waits = []) (hst : s.camState p ∈ [2, 3]) (hb : b = some k)
    (hdiff : (((bandCrcs (s.camLines p packets)).zip ((u.cam p).ref.getD [])).filter (fun q => q.1 == q.2)).length < (u.cam p).lim.bands)
    (hspan : (u.cam p).lim.flatSpan < codeSpan (thinned 8 (s.camPixels p packets))) :
    let t := s.frameEnd p vc err packets
    ∃ w : CamWait, t.camState p = 3 ∧ (t.cam p).ref = some (bandCrcs (s.camLines p packets)) ∧ (t.cam p).waits = [w] ∧ w.buf = some k ∧
      w.judged = true ∧ w.frame.sof = f.sof ∧ w.frame.eof = s.time.now ∧ t.get AGT_ING_CAMSTAT.FRZ_RUN p = 0 ∧
      t.get AGT_ING_CAMSTAT.FLAT_RUN p = 0 := by
  obtain ⟨w, v, hbuf, hsig, hsp, hj, hsof, heof, hcam, hv, hus, hend⟩ := State.frameEnd_passed hcur htake hruns h hu
  rw [hnone] at hend
  have hv1 : (v.setCam p { v.cam p with waits := [w] }).cam p = { u.cam p with waits := [w] } :=
    (State.cam_setCam_self ..).trans (by rw [hcam])
  have hwaits : ((v.setCam p { v.cam p with waits := [w] }).cam p).waits = [w] := congrArg CamPort.waits (State.cam_setCam_self ..)
  let v2 := (v.setCam p { v.cam p with waits := [w] }).setCam p { (v.setCam p { v.cam p with waits := [w] }).cam p with waits := [] }
  have hv2 : v2.cam p = { u.cam p with waits := [] } := (State.cam_setCam_self ..).trans (by rw [hv1])
  have hstate : v2.camState p ≠ 1 := by
    have hsame : v2.camState p = s.camState p := hv.trans hus
    rw [hsame]
    simp only [List.mem_cons, List.not_mem_nil, or_false] at hst
    omega
  obtain ⟨t, w', hjudge, ht, htcam, hwbuf, hwj, hwf, hfrz, hflat⟩ := State.judgeFrame_passes (s := v2) (p := p) (w := w) (k := k) hstate
    (hbuf.trans hb) (by rw [hv2, hsig]; exact hdiff) (by rw [hv2, hsp]; exact hspan)
  have hone := State.judgeWaits_one hwaits hj
  rw [show ((v.setCam p { v.cam p with waits := [w] }).setCam p { (v.setCam p { v.cam p with waits := [w] }).cam p with waits := [] }).judgeFrame p w
    = (t, some w') from hjudge] at hone
  have heq : s.frameEnd p vc err packets = t.setCam p { t.cam p with waits := w' :: (t.cam p).waits } := hend.trans hone
  rw [heq]
  refine ⟨w', ht, ?_, ?_, hwbuf, hwj, ?_, ?_, hfrz, hflat⟩
  · rw [State.cam_setCam_self, htcam, hsig]
  · rw [State.cam_setCam_self, htcam, hv2]
  · rw [hwf, hsof]
  · rw [hwf, heof]

/-- A good frame behind one that still waits for its writes is judged after that. -/
theorem State.frameEnd_behind {w : CamWait} {rest : List CamWait} (h : s.camErrored p err packets = false)
    (hu : s.camWritten p b packets = some u) (hwaits : (u.cam p).waits = w :: rest) (hj : w.judged = true) :
    let t := s.frameEnd p vc err packets
    ∃ v : CamWait, (t.cam p).waits = w :: rest ++ [v] ∧ v.buf = b ∧ v.judged = false ∧ v.sig = bandCrcs (s.camLines p packets) ∧
      v.frame.sof = f.sof ∧ v.frame.eof = s.time.now ∧ t.camState p = u.camState p := by
  obtain ⟨x, v, hbuf, hsig, -, hxj, hsof, heof, -, hv, -, hend⟩ := State.frameEnd_passed hcur htake hruns h hu
  rw [hwaits] at hend
  have hmine : ((v.setCam p { v.cam p with waits := w :: rest ++ [x] }).cam p).waits = w :: (rest ++ [x]) :=
    congrArg CamPort.waits (State.cam_setCam_self ..)
  rw [State.judgeWaits_judged hmine hj] at hend
  rw [hend]
  exact ⟨x, hmine, hbuf, hxj, hsig, hsof, heof, hv⟩

end

/-! ## Claims and releases (R240) -/

theorem State.mem_bufsIn {v k : Nat} (h : k ∈ s.bufsIn p v) : k < 8 ∧ s.bufState p k = v := by
  simp only [State.bufsIn, List.mem_filter, List.mem_range, Bool.and_eq_true, beq_iff_eq] at h
  exact ⟨h.1, h.2.2⟩

/-- The buffer that is claimed is READY. -/
theorem State.mem_of_readyBuf {k : Nat} {highest : Bool} (h : s.readyBuf p highest = some k) : k ∈ s.bufsIn p 2 := by
  have hfold : ∀ (l : List Nat) (best : Option Nat) (pick : Nat → Nat → Bool), (∀ j, best = some j → j ∈ s.bufsIn p 2) →
      (∀ j ∈ l, j ∈ s.bufsIn p 2) → ∀ k, l.foldl (fun best k => match best with
        | none => some k
        | some j => if pick k j == highest then some k else some j) best = some k → k ∈ s.bufsIn p 2 := by
    intro l
    induction l with
    | nil => exact fun best _ hbest _ k hk => hbest k hk
    | cons i l ih =>
      intro best pick hbest hl k hk
      refine ih _ pick (fun j hj => ?_) (fun j hj => hl j (List.mem_cons_of_mem _ hj)) k hk
      cases best with
      | none => exact Option.some.inj hj ▸ hl i List.mem_cons_self
      | some m =>
        dsimp only at hj
        split at hj
        · exact Option.some.inj hj ▸ hl i List.mem_cons_self
        · exact hbest j hj
  exact hfold _ none (fun k j => serialGe (camFrame (s.cam p) k).seq (camFrame (s.cam p) j).seq) (fun j hj => nomatch hj)
    (fun j hj => hj) k h

theorem State.camAct_claim (s : State) (src : Src) (p : Nat) :
    s.camAct (.claim src p) = (s.claimRead p).1.emit (.value (s.claimRead p).2) := rfl

theorem State.claimRead_none (h : s.readyBuf p true = none) : s.claimRead p = (s, 0) := by
  unfold State.claimRead State.claim
  rw [h]

theorem State.claim_spec {k : Nat} (hk : s.readyBuf p true = some k) :
    ∃ u : State, s.claimRead p = (u, k + 2 ^ 3 + ((s.bufsIn p 2).filter (fun j => j != k)).length * 2 ^ 8 + (camFrame (s.cam p) k).seq * 2 ^ 32) ∧
      u.bufState p k = 3 ∧ ∀ j, j < 8 → j ≠ k → u.bufState p j = if j ∈ s.bufsIn p 2 then 0 else s.bufState p j := by
  obtain ⟨hk8, -⟩ := State.mem_bufsIn (State.mem_of_readyBuf hk)
  let others := (s.bufsIn p 2).filter (fun j => j != k)
  let s1 := (others.foldl (fun st j => st.setBuf p j 0) s).setBuf p k 3
  have hcount : State.agreesOn AGT_ING_CAMSTAT.BUFSTATE s1 (s1.count AGT_ING_CAMLOSS.SHED p others.length) :=
    State.agreesOn_setO (by decide) _ _ _
  refine ⟨s1.count AGT_ING_CAMLOSS.SHED p others.length, ?_, ?_, fun j hj hne => ?_⟩
  · unfold State.claimRead State.claim
    rw [hk]
  · rw [State.bufState_congr hcount, State.bufState_setBuf hk8 (by decide), if_pos rfl]
  · rw [State.bufState_congr hcount, State.bufState_setBuf hj (by decide), if_neg hne, State.bufState_foldl_free _ _ _ hj]
    simp [others, hne]

theorem State.bufState_releaseBufs (s : State) (p val : Nat) {k : Nat} (hk : k < 8) :
    (s.releaseBufs p val).bufState p k = if bit val k = true ∧ s.bufState p k = 3 then 0 else s.bufState p k := by
  have hfold : ∀ (l : List Nat) (u : State), (l.foldl (fun st j => if st.bufState p j = 3 then st.setBuf p j 0 else st) u).bufState p k =
      if k ∈ l ∧ u.bufState p k = 3 then 0 else u.bufState p k := by
    intro l
    induction l with
    | nil => exact fun u => by simp
    | cons j l ih =>
      intro u
      rw [List.foldl_cons, ih]
      by_cases hj : u.bufState p j = 3
      · rw [if_pos hj, State.bufState_setBuf hk (by decide)]
        by_cases hkj : k = j
        · subst hkj
          simp [hj]
        · simp [hkj]
      · rw [if_neg hj]
        by_cases hkj : k = j
        · subst hkj
          simp [hj]
        · simp [hkj]
  unfold State.releaseBufs
  rw [hfold]
  simp only [mem_maskList, hk, true_and]

/-! ## Exclusion and re-admission (R245, R246) -/

/-- A port as `excludeCam` leaves it, before the event goes out. -/
def State.excluded (s : State) (p cause : Nat) : State :=
  (((s.dropBufs p).set AGT_ING_CAMSTAT.CAUSE p (s.get AGT_ING_CAMSTAT.CAUSE p ||| cause)).setCamState p 4).setCam p
    { s.cam p with cur := none, waits := [] }

theorem State.excludeCam_eq (s : State) (p cause : Nat) : s.excludeCam p cause =
    (s.excluded p cause).event 16 .ok 0x02 0 0 (p + (s.get AGT_ING_CAMSTAT.CAUSE p ||| cause) * 2 ^ 8) 0 4 := rfl

theorem State.agreesOn_excludeCam {g : Fld} (s : State) (p cause : Nat) (h : g.offEvents = true) :
    State.agreesOn g (s.excluded p cause) (s.excludeCam p cause) := State.agreesOn_event h _ _ _ _ _ _ _ _ _

theorem State.excludeCam_ing (s : State) (p cause : Nat) : (s.excludeCam p cause).ing = (s.excluded p cause).ing := by
  rw [State.excludeCam_eq]
  exact (State.event_within (k := 5074) rfl (.refl _ _)).parts .ing rfl

theorem State.excludeCam_spec (s : State) (p cause : Nat) : (s.excludeCam p cause).camState p = 4 ∧
    (s.excludeCam p cause).get AGT_ING_CAMSTAT.CAUSE p = (s.get AGT_ING_CAMSTAT.CAUSE p ||| cause) % 2 ^ 5 ∧
    ((s.excludeCam p cause).cam p).cur = none := by
  have hcam : (s.excludeCam p cause).cam p = { s.cam p with cur := none, waits := [] } :=
    (State.cam_congr (s.excludeCam_ing p cause) p).trans (State.cam_setCam_self ..)
  refine ⟨?_, ?_, congrArg CamPort.cur hcam⟩
  · exact (State.camState_congr (s.agreesOn_excludeCam p cause (by decide)) p).trans (State.camState_setCamState (by decide) _ p)
  · refine ((s.agreesOn_excludeCam p cause (by decide)).get p).trans ?_
    refine ((State.agreesOn_setCamState (by decide) (by decide) _ p 4).get p).trans ?_
    exact State.get_set_self ..

theorem exec_exclude (hs : s.clocked = true) (hp : p < 12) (hw : s.ingWrites src 0x10 = true) (hruns : s.camRuns p = true) :
    exec (.exclude src (2 ^ p)) s = .next ((s.excludeCam p 0x10).setCam p { (s.excludeCam p 0x10).cam p with excludedAt := some s.time.now }) := by
  refine (State.onClock_of hs).trans ?_
  rw [if_neg (by simp [hw]), maskList_two_pow hp, List.foldl_cons, List.foldl_nil]
  dsimp only
  rw [if_pos hruns]

theorem exec_readmit (hs : s.clocked = true) (hp : p < 12) (hw : s.ingWrites src 8 = true) :
    exec (.readmit src (2 ^ p)) s = .next (if s.camState p = 4 ∧ (s.cam p).excludedAt ≠ some s.time.now ∧ bit s.excludesAhead p = false then
      (((s.setCamState p 1).set AGT_ING_CAMSTAT.CAUSE p 0).set AGT_ING_CAMSTAT.FRZ_RUN p 0).set AGT_ING_CAMSTAT.FLAT_RUN p 0 else s) := by
  have himus : maskList 4 (bits (2 ^ p) 12 4) = [] := by
    have hzero : bits (2 ^ p) 12 4 = 0 := by
      unfold bits
      rw [Nat.div_eq_of_lt (Nat.pow_lt_pow_right (by decide) hp), Nat.zero_mod]
    rw [hzero]
    rfl
  refine (State.onClock_of hs).trans ?_
  rw [if_neg (by simp [hw]), maskList_two_pow hp, himus]
  rfl

/-! ## A claim put off until the frame of its cycle has ended -/

theorem State.excludeCam_waiting (s : State) (p cause : Nat) : (s.excludeCam p cause).ing.waiting = s.ing.waiting := by
  have hdrop : (s.dropBufs p).ing = s.ing := (State.dropBufs_within (k := 2) rfl (.refl _ s)).parts .ing rfl
  have hwait : (s.dropBufs p).ing.waiting = s.ing.waiting := congrArg Ingest.waiting hdrop
  exact (congrArg Ingest.waiting (s.excludeCam_ing p cause)).trans hwait

theorem State.judgeFrame_waiting (s : State) (p : Nat) (w : CamWait) : (s.judgeFrame p w).1.ing.waiting = s.ing.waiting := by
  unfold State.judgeFrame
  extract_lets c s1 frz0 flat0 same flat frz flt cause s2 s3
  have hfree (u : State) : (u.freeBuf p w.buf).ing.waiting = u.ing.waiting := congrArg _ (u.freeBuf_ing p w.buf)
  split
  · exact hfree s1
  · split
    · have hs3 : s3.ing.waiting = s.ing.waiting := hfree s2
      dsimp only
      split
      · exact hs3
      · exact (s3.excludeCam_waiting p cause).trans hs3
    · rfl

theorem State.judgeWaits_waiting (k : Nat) (s : State) (p : Nat) : (State.judgeWaits p k s).ing.waiting = s.ing.waiting := by
  induction k generalizing s with
  | zero => rfl
  | succ k ih =>
    rw [State.judgeWaits]
    split
    · rfl
    · next w rest _ =>
      split
      · rfl
      · have hjudge : ((s.setCam p { s.cam p with waits := rest }).judgeFrame p w).1.ing.waiting = s.ing.waiting :=
          State.judgeFrame_waiting _ p w
        dsimp only
        split
        · exact hjudge
        · exact (ih _).trans hjudge

theorem State.dropCur_waiting (s : State) (p : Nat) : (s.dropCur p).ing.waiting = s.ing.waiting := by
  unfold State.dropCur
  split
  · rfl
  · dsimp only
    split
    · split <;> rfl
    · rfl

theorem State.frameEnd_waiting (s : State) (p vc : Nat) (err : Bool) (packets : List (Nat × List Byte)) :
    (s.frameEnd p vc err packets).ing.waiting = s.ing.waiting := by
  unfold State.frameEnd
  split
  · rfl
  · next f b _ =>
    split
    · rfl
    · extract_lets dt fmt lines errored px d s0 thumb w
      have hs0 : s0.ing.waiting = s.ing.waiting := s.dropCur_waiting p
      split
      · next s1 _ hs1 =>
        extract_lets s2 l c
        have hs1' : s1.ing = s0.ing := ((State.writeFrame_within (k := 912) rfl (.refl _ s0)).some _ hs1).parts .ing rfl
        have hs2 : s2.ing = s1.ing := by
          unfold s2
          split <;> rfl
        refine (State.judgeWaits_waiting _ _ p).trans ?_
        exact (congrArg Ingest.waiting (hs2.trans hs1')).trans hs0
      · exact hs0

theorem State.frameEnd_pending (s : State) (p vc : Nat) (err : Bool) (packets : List (Nat × List Byte)) :
    (s.frameEnd p vc err packets).pending = s.pending := (State.frameEnd_within (k := 4199379) rfl (.refl _ s)).queue

/-- A claim is put off while the frame of its port ends in its cycle, and then follows it. -/
theorem exec_claim_putOff {vc : Nat} {err : Bool} {packets : List (Nat × List Byte)} (hs : s.clocked = true) (hp : p < 12)
    (hin : s.ingWrites src (0x120 + 64 * p) = true) (hpend : s.pending = [.csiFrameEnd p err { vc := vc, packets := packets }])
    (hw : s.ing.waiting = []) :
    ∃ (t u : State), exec (.claim src p) s = .next t ∧ t.ing.waiting = [.claim src p] ∧ s.sameBut [.ing] t ∧
      u = ({ t with pending := [] } : State).frameEnd p vc err packets ∧
      exec (.csiFrameEnd p err { vc := vc, packets := packets }) { t with pending := [] } =
        .next (({ u with ing := { u.ing with waiting := [] } } : State).camAct (.claim src p)) := by
  have hbehind : s.camBehind [p] 1 = true := by simp [State.camBehind, hpend, hw, State.camEvent]
  have hexec : exec (.claim src p) s = .next { s with ing := { s.ing with waiting := s.ing.waiting ++ [.claim src p] } } := by
    refine (State.onClock_of hs).trans ?_
    rw [if_neg (by omega), if_neg (by simp [hin])]
    exact congrArg Outcome.next (if_pos hbehind)
  rw [hw, List.nil_append] at hexec
  let t : State := { s with ing := { s.ing with waiting := [.claim src p] } }
  let v : State := { t with pending := [] }
  let u := v.frameEnd p vc err packets
  refine ⟨t, u, hexec, rfl, (Within.ing (k := 4194304) rfl (.refl _ s) _).sameBut (by decide), rfl, ?_⟩
  have huw : u.ing.waiting = [.claim src p] := v.frameEnd_waiting p vc err packets
  have hup : u.pending = [] := v.frameEnd_pending p vc err packets
  have hub : u.camBehind [p] 1 = false := by simp [State.camBehind, hup, huw, State.camEvent]
  have htry : u.camTry (.claim src p) = ({ u with ing := { u.ing with waiting := [] } } : State).camAct (.claim src p) := by
    unfold State.camTry
    dsimp only [State.camEvent]
    rw [hub, if_neg Bool.false_ne_true, huw, List.erase_cons_head]
  have hvc : v.clocked = true := hs
  refine (State.onClock_of hvc).trans (congrArg Outcome.next ?_)
  have hturn : v.camTurn (.csiFrameEnd p err { vc := vc, packets := packets }) = u.camTry (.claim src p) := by
    unfold State.camTurn
    dsimp only [State.camEvent]
    rw [v.camBehind_zero, if_neg Bool.false_ne_true]
    rfl
  rw [hturn, htry]

/-- Settles O34. -/
theorem cameras : Obligations.Cameras := by
  refine ⟨fun s p hs hp => ⟨fun src val hw hoff hen hheld hok => exec_camcfgWrite hs hp hw hoff hen hheld hok,
      fun vc no htake hst hcur hb hw hno => exec_csiFrameStart hs htake hst hcur hb hw hno, fun vc err packets f b hcur htake hruns hw => ?_,
      fun w rest k hwaits hbuf hruns hst => ?_, fun t0 hsof hj hdue => ?_⟩,
    fun s src p hs hp => ⟨fun hw hb hwait => ⟨fun k hk => ?_, fun hnone => ?_⟩, fun val hw hb hwait => ?_, fun hw hruns => ?_,
      fun hw hst => ⟨fun hne hahead => ?_, fun hbad => ?_⟩⟩,
    fun s src p vc err packets hs hp hin hpend hw => exec_claim_putOff hs hp hin hpend hw⟩
  · intro dt lines px d written
    have hexec : exec (.csiFrameEnd p err { vc := vc, packets := packets }) s = .next (s.frameEnd p vc err packets) := exec_csiFrameEnd hs hw
    refine ⟨fun hbad => ?_, fun u herr hlen hlines hu => ?_⟩
    · rw [hexec, State.frameEnd_errored hcur htake hruns]
      · rfl
      · have hbad' : err = true ∨ (s.camLines p packets).length ≠ s.camH p ∨
          ∃ l ∈ s.camLines p packets, l.length ≠ lineBytes (s.get AGT_ING_CAMCFG.DT p) (s.camW p) := hbad
        simpa [State.camErrored, or_assoc] using hbad'
    · have hgood : s.camErrored p err packets = false := by
        have hlen' : (s.camLines p packets).length = s.camH p := hlen
        have hlines' : ∀ l ∈ s.camLines p packets, l.length = lineBytes (s.get AGT_ING_CAMCFG.DT p) (s.camW p) := hlines
        simpa [State.camErrored, herr, hlen'] using hlines'
      refine ⟨fun hnone hst => ⟨_, hexec, State.frameEnd_baseline hcur htake hruns hgood hu hnone hst⟩, fun k hnone hst hb hdiff hspan => ?_,
        fun w rest hwaits hj => ?_⟩
      · obtain ⟨w, hact⟩ := State.frameEnd_active hcur htake hruns hgood hu hnone hst hb hdiff hspan
        exact ⟨_, w, hexec, hact⟩
      · obtain ⟨v, hbehind⟩ := State.frameEnd_behind hcur htake hruns hgood hu hwaits hj
        exact ⟨_, v, hexec, hbehind⟩
  · refine (State.onClock_of hs).trans ?_
    rw [hwaits]
    dsimp only
    rw [hbuf]
    dsimp only
    rw [if_neg (by simp [hruns, hst])]
  · refine (State.onClock_of hs).trans ?_
    rw [hsof]
    dsimp only
    rw [if_pos (by rw [hj, decide_eq_true hdue]; rfl)]
  · obtain ⟨u, hread, hbuf, hothers⟩ := State.claim_spec hk
    refine ⟨u, hbuf, ?_, hothers⟩
    refine (State.onClock_of hs).trans ?_
    rw [if_neg (by omega), if_neg (by simp [hw]), State.camTurn_now rfl hb hwait]
    rw [State.camAct_claim, hread]
  · refine (State.onClock_of hs).trans ?_
    rw [if_neg (by omega), if_neg (by simp [hw]), State.camTurn_now rfl hb hwait]
    rw [State.camAct_claim, State.claimRead_none hnone]
  · have hexec : exec (.releaseBuffer src p val) s = .next (s.releaseBufs p val) := by
      refine (State.onClock_of hs).trans ?_
      rw [if_neg (by omega), if_neg (by simp [hw]), State.camTurn_now rfl hb hwait]
      rfl
    exact ⟨_, hexec, (State.releaseBufs_within (k := 2) rfl (.refl _ s)).sameBut (by decide), fun k hk => s.bufState_releaseBufs p val hk⟩
  · obtain ⟨hst, hcause, hcur⟩ := s.excludeCam_spec p 0x10
    exact ⟨_, exec_exclude hs hp hw hruns, rfl, hst, hcause, hcur⟩
  · have hexec := exec_readmit hs hp hw
    rw [if_pos ⟨hst, hne, hahead⟩] at hexec
    refine ⟨_, hexec, ?_, ?_, ?_⟩
    · unfold State.camState
      rw [State.get_set_apart (by decide), State.get_set_apart (by decide), State.get_set_apart (by decide)]
      exact State.camState_setCamState (by decide) s p
    · rw [State.get_set_apart (by decide), State.get_set_apart (by decide), State.get_set_self, Nat.zero_mod]
    · exact (State.set_within (k := 2) rfl (State.set_within (k := 2) rfl (State.set_within (k := 2) rfl
        (State.setCamState_within (k := 2) rfl (.refl _ s))))).sameBut (by decide)
  · rw [exec_readmit hs hp hw, if_neg]
    rintro ⟨-, hne, hahead⟩
    rcases hbad with h | h
    · exact hne h
    · exact absurd (h.symm.trans hahead) (by decide)
end Sys2Proof.Machine
end

section
/-! PROOFS. Snapshots, IMUs, encoders and the ego-motion tick (O35). -/

namespace Sys2Proof.Machine

open Host Reg

variable {s : State} {src : Src} {i : Nat}

/-! ## Snapshots (R247) -/

theorem exec_snap {mask : Nat} {busy : Bool} (hs : s.clocked = true) (hw : s.ingWrites src 0x18 = true) (hnone : s.ing.snapHeld = none)
    (hb : s.camBehind (maskList 12 mask) 1 = false) (hwait : s.ing.waiting = []) :
    exec (.snap src mask busy) s = .next (if busy then
      ({ s with ing := { s.ing with snapHeld := some (mask % 2 ^ 12) } } : State).set AGT_ING_STATUS.SNAP_HELD 0 1
      else s.snapshot (mask % 2 ^ 12)) := by
  have hact : s.camAct (.snap src mask busy) = s.snapWrite mask busy := rfl
  refine (State.onClock_of hs).trans ?_
  rw [if_neg (by simp [hw]), State.camTurn_now rfl hb hwait, hact]
  unfold State.snapWrite
  rw [hnone, bits_zero]
  rfl

/-! ## IMUs (R250) -/

theorem exec_imucfgWrite {val : Nat} (hs : s.clocked = true) (hi : i < 4) (hw : s.ingWrites src (0x400 + 32 * i) = true) :
    ∃ t, exec (.imucfgWrite src i val) s = .next t ∧ t.get AGT_ING_IMUCFG.ENABLE i = bits val 0 1 ∧
      t.get AGT_ING_IMUCFG.RATE i = bits val 1 2 ∧ t.get AGT_ING_IMUCFG.OFS i = bits val 4 5 ∧
      t.get AGT_ING_IMUCFG.LEN_M1 i = bits val 9 5 ∧ t.get AGT_ING_IMUCFG.RDCMD i = bits val 16 8 ∧
      (bit val 0 = false → t.imuState i = 0) ∧ (bit val 0 = true → s.get AGT_ING_IMUCFG.ENABLE i ≠ 1 → t.imuState i = 1) := by
  have hexec : exec (.imucfgWrite src i val) s = _ := State.onClock_of hs
  rw [if_neg (by omega), if_neg (by simp [hw])] at hexec
  extract_lets was s1 at hexec
  have hstored : s1.get AGT_ING_IMUCFG.ENABLE i = bits val 0 1 ∧ s1.get AGT_ING_IMUCFG.RATE i = bits val 1 2 ∧
      s1.get AGT_ING_IMUCFG.OFS i = bits val 4 5 ∧ s1.get AGT_ING_IMUCFG.LEN_M1 i = bits val 9 5 ∧
      s1.get AGT_ING_IMUCFG.RDCMD i = bits val 16 8 := by
    unfold s1
    simp (disch := decide) only [State.get_set_apart, State.get_set_self]
    exact ⟨Nat.mod_eq_of_lt (bits_lt ..), Nat.mod_eq_of_lt (bits_lt ..), Nat.mod_eq_of_lt (bits_lt ..), Nat.mod_eq_of_lt (bits_lt ..),
      Nat.mod_eq_of_lt (bits_lt ..)⟩
  have hentered (v : Nat) : let t := (s1.setImuState i v).setImu i {}
      t.get AGT_ING_IMUCFG.ENABLE i = bits val 0 1 ∧ t.get AGT_ING_IMUCFG.RATE i = bits val 1 2 ∧ t.get AGT_ING_IMUCFG.OFS i = bits val 4 5 ∧
        t.get AGT_ING_IMUCFG.LEN_M1 i = bits val 9 5 ∧ t.get AGT_ING_IMUCFG.RDCMD i = bits val 16 8 ∧ t.imuState i = v % 2 ^ 2 := by
    intro t
    obtain ⟨hen, hrate, hofs, hlen, hrd⟩ := hstored
    unfold t State.imuState State.setImuState
    simp (disch := decide) only [State.get_setImu, State.get_set_apart, State.get_set_self]
    exact ⟨hen, hrate, hofs, hlen, hrd, rfl⟩
  by_cases hen : bit val 0 = true
  · rw [hen] at hexec
    by_cases hwas : was = true
    · rw [hwas] at hexec
      obtain ⟨h1, h2, h3, h4, h5⟩ := hstored
      exact ⟨s1, hexec, h1, h2, h3, h4, h5, fun h => absurd (h.symm.trans hen) (by decide),
        fun _ hoff => absurd (by simpa [was] using hwas) hoff⟩
    · rw [Bool.not_eq_true] at hwas
      rw [hwas] at hexec
      obtain ⟨h1, h2, h3, h4, h5, h6⟩ := hentered 1
      exact ⟨_, hexec, h1, h2, h3, h4, h5, fun h => absurd (h.symm.trans hen) (by decide), fun _ _ => h6⟩
  · rw [Bool.not_eq_true] at hen
    rw [hen] at hexec
    obtain ⟨h1, h2, h3, h4, h5, h6⟩ := hentered 0
    exact ⟨_, hexec, h1, h2, h3, h4, h5, fun _ => h6, fun h => absurd (hen.symm.trans h) (by decide)⟩

theorem State.imu_setImu_self (s : State) (i : Nat) (x : ImuPort) : (s.setImu i x).imu i = x := tget_tput_self

/-- An edge of a data-ready line is stamped to 0.5 ns, within 1 ns, and starts a burst. -/
theorem exec_imuDrdy (hs : s.clocked = true) (hi : i < 4) (hon : s.ingOn = true) (hst : s.imuState i ≠ 0) (hedge : (s.imu i).edge = none) :
    ∃ t e, exec (.imuDrdy i) s = .next t ∧ (t.imu i).edge = some e ∧ e % 2 = 0 ∧ e ≤ s.time.now + 2 ∧ s.time.now ≤ e + 3 ∧
      t.freeCount = s.freeCount + 1 ∧
      t.out = s.out ++ [.imuRead i (s.get AGT_ING_IMUCFG.RDCMD i) (s.get AGT_ING_IMUCFG.LEN_M1 i + 1)] ∧ s.sameBut [.free, .ing, .out] t := by
  have hexec : exec (.imuDrdy i) s = _ := State.onClock_of hs
  rw [if_neg (by simp [hon, hst]; omega), if_neg (by simp [hedge])] at hexec
  extract_lets d x at hexec
  have hmod : d.1 % 3 < 3 := Nat.mod_lt _ (by decide)
  refine ⟨_, (s.time.now / 2 + d.1 % 3 - 1) * 2, hexec, ?_, Nat.mul_mod_left _ 2, by omega, by omega, rfl, rfl, ?_⟩
  · exact congrArg ImuPort.edge (State.imu_setImu_self d.2 i { x with edge := some ((s.time.now / 2 + d.1 % 3 - 1) * 2) })
  · have hdraw : Within 4195329 s d.2 := Within.free (k := 4195329) rfl (.refl _ s) _
    exact (State.emit_within (k := 4195329) rfl (State.setImu_within (k := 4195329) rfl hdraw) _).sameBut (by decide)

/-! ## Encoders (R251) -/

/-- The counts of STEP and DIR. -/
theorem encoderCounts_step (was now : Bool × Bool) (up : Bool) :
    encoderCounts 1 was now up = if was.1 = false ∧ now.1 = true then (if now.2 then 1 else -1) else 0 := by
  unfold encoderCounts
  cases was.1 <;> cases now.1 <;> rfl

/-- The counts of quadrature: up in the cycle of `quadPhase`, down against it, two where both lines change at once. -/
theorem encoderCounts_quadrature (was now : Bool × Bool) (up : Bool) :
    (now.1 = was.1 → now.2 = was.2 → encoderCounts 0 was now up = 0) ∧
    (now.1 ≠ was.1 → now.2 = was.2 → encoderCounts 0 was now up = if now.1 = now.2 then -1 else 1) ∧
    (now.1 = was.1 → now.2 ≠ was.2 → encoderCounts 0 was now up = if now.1 = now.2 then 1 else -1) ∧
    (now.1 ≠ was.1 → now.2 ≠ was.2 → encoderCounts 0 was now up = 2 ∨ encoderCounts 0 was now up = -2) := by
  revert was now up
  decide

theorem exec_encoderEdge {a b : Bool} {held : Nat} (hs : s.clocked = true) (hi : i < 8) (hon : s.ingOn = true)
    (hen : s.get AGT_ING_ENCCFG.ENABLE i = 1) (hmode : s.get AGT_ING_ENCCFG.MODE i < 2) (hheld : 40 * s.get AGT_ING_ENCCFG.FILTER i ≤ held) :
    ∃ (t : State) (up : Bool), let n := encoderCounts (s.get AGT_ING_ENCCFG.MODE i) (tget (false, false) s.ing.enc i) (a, b) up
      exec (.encoderEdge i { a := a, b := b, held := held }) s = .next t ∧ s.sameBut [.free, .regs, .ing] t ∧
      tget (false, false) t.ing.enc i = (a, b) ∧ t.get AGT_ING_ENCCNT.COUNT i =
        ux 32 ((s.get AGT_ING_ENCCNT.COUNT i : Int) + (if s.get AGT_ING_ENCCFG.INVERT i = 1 then -n else n)) := by
  have hexec : exec (.encoderEdge i { a := a, b := b, held := held }) s = _ := State.onClock_of hs
  rw [if_neg (by simp [hon]; omega)] at hexec
  extract_lets d n src s1 at hexec
  rw [if_neg (by rw [hen]; omega)] at hexec
  refine ⟨_, d.1 % 2 == 1, hexec, ?_, tget_tput_self, ?_⟩
  · have hdraw : Within 4194307 s d.2 := Within.free (k := 4194307) rfl (.refl _ s) _
    exact (State.set_within (k := 4194307) rfl (Within.ing (k := 4194307) rfl hdraw _)).sameBut (by decide)
  · exact (State.get_set_self ..).trans (Nat.mod_eq_of_lt (ux_lt ..))

/-! ## Ego motion (R251 to R255) -/

theorem at'_map_range {n e : Nat} (f : Nat → Nat) (h : e < n) : at' ((List.range n).map f) e = f e := by
  have hget (l : List Nat) (k : Nat) (hk : k < l.length) : at' l k = l[k] := by
    induction l generalizing k with
    | nil => exact absurd hk (Nat.not_lt_zero k)
    | cons x l ih =>
      cases k with
      | zero => rfl
      | succ k => exact ih k (Nat.lt_of_succ_lt_succ hk)
  rw [hget _ e (by simpa using h)]
  simp

theorem exec_egocfgWrite {val : Nat} (hs : s.clocked = true) (hw : s.ingWrites src 0x600 = true) :
    ∃ t, exec (.egocfgWrite src val) s = .next t ∧ t.get AGT_ING_EGOCFG.ENABLE 0 = bits val 0 1 ∧
      t.get AGT_ING_EGOCFG.RATE 0 = bits val 1 2 ∧ t.get AGT_ING_EGOCFG.ODO_EN 0 = bits val 3 1 ∧
      t.get AGT_ING_EGOCFG.ENC_L 0 = bits val 4 3 ∧ t.get AGT_ING_EGOCFG.ENC_R 0 = bits val 7 3 ∧
      (s.get AGT_ING_EGOCFG.ENABLE 0 ≠ 1 → bit val 0 = true → t.ego.fresh = true) ∧ s.sameBut [.regs, .ing] t := by
  have hexec : exec (.egocfgWrite src val) s = _ := State.onClock_of hs
  rw [if_neg (by simp [hw])] at hexec
  extract_lets was s1 at hexec
  have hs1 : Within 4194306 s s1 := State.set_within (k := 4194306) rfl (State.set_within (k := 4194306) rfl
    (State.set_within (k := 4194306) rfl (State.set_within (k := 4194306) rfl (State.set_within (k := 4194306) rfl (.refl _ s)))))
  have hreads (t : State) (ht : t.regs = s1.regs) : t.get AGT_ING_EGOCFG.ENABLE 0 = bits val 0 1 ∧
      t.get AGT_ING_EGOCFG.RATE 0 = bits val 1 2 ∧ t.get AGT_ING_EGOCFG.ODO_EN 0 = bits val 3 1 ∧
      t.get AGT_ING_EGOCFG.ENC_L 0 = bits val 4 3 ∧ t.get AGT_ING_EGOCFG.ENC_R 0 = bits val 7 3 := by
    have hget (f : Fld) : t.get f 0 = s1.get f 0 := State.getO_congr ht f 4 0
    rw [hget, hget, hget, hget, hget]
    unfold s1
    simp (disch := decide) only [State.get_set_apart, State.get_set_self]
    exact ⟨Nat.mod_eq_of_lt (bits_lt ..), Nat.mod_eq_of_lt (bits_lt ..), Nat.mod_eq_of_lt (bits_lt ..), Nat.mod_eq_of_lt (bits_lt ..),
      Nat.mod_eq_of_lt (bits_lt ..)⟩
  by_cases h : (!was && bit val 0) = true
  · rw [if_pos h] at hexec
    obtain ⟨h1, h2, h3, h4, h5⟩ := hreads (s1.setEgo { s.ego with fresh := true }) rfl
    exact ⟨_, hexec, h1, h2, h3, h4, h5, fun _ _ => rfl, (State.setEgo_within (k := 4194306) rfl hs1).sameBut (by decide)⟩
  · rw [if_neg h] at hexec
    obtain ⟨h1, h2, h3, h4, h5⟩ := hreads s1 rfl
    exact ⟨_, hexec, h1, h2, h3, h4, h5, fun hoff hen => absurd (by simp [was, hoff, hen]) h, hs1.sameBut (by decide)⟩

theorem exec_egoTick (hs : s.clocked = true) (hon : s.ingOn = true) (hen : s.get AGT_ING_EGOCFG.ENABLE 0 = 1) :
    ∃ t p, exec .egoTick s = .next t ∧ p = ratePeriod (s.get AGT_ING_EGOCFG.RATE 0) ∧ t.ego.tick = some (s.time.now / p * p) ∧
      (∀ e, e < 8 → s.get AGT_ING_ENCCFG.ENABLE e = 1 → at' t.ego.counts e = s.get AGT_ING_ENCCNT.COUNT e) ∧
      (∀ e, e < 8 → s.get AGT_ING_ENCCFG.ENABLE e ≠ 1 → at' t.ego.counts e = at' s.ego.counts e) ∧ s.sameBut [.ing] t := by
  have hexec : exec .egoTick s = _ := State.onClock_of hs
  rw [if_neg (by simp [hon, hen])] at hexec
  refine ⟨_, _, hexec, rfl, rfl, fun e he hone => ?_, fun e he hoff => ?_, (State.setEgo_within (k := 4194304) rfl (.refl _ s)).sameBut (by decide)⟩
  · exact (at'_map_range (fun e => if s.get AGT_ING_ENCCFG.ENABLE e = 1 then s.get AGT_ING_ENCCNT.COUNT e else at' s.ego.counts e) he).trans (if_pos hone)
  · exact (at'_map_range (fun e => if s.get AGT_ING_ENCCFG.ENABLE e = 1 then s.get AGT_ING_ENCCNT.COUNT e else at' s.ego.counts e) he).trans (if_neg hoff)

/-- Settles O35. -/
theorem snapshotsAndEgoMotion : Obligations.SnapshotsAndEgoMotion := by
  refine ⟨fun s src i hs => ⟨fun mask hw hnone hb hwait => ⟨exec_snap hs hw hnone hb hwait, ?_⟩, fun m hm hb hwait => ?_,
      fun val hi hw => exec_imucfgWrite hs hi hw, fun hi hon hst => ⟨fun hedge => exec_imuDrdy hs hi hon hst hedge, fun hedge => ?_⟩,
      fun e burst he => ?_, fun a b held hi hon hen hmode => ?_⟩,
    fun s src val hs => ⟨fun hw => exec_egocfgWrite hs hw, fun hon hen => exec_egoTick hs hon hen, fun tick hon htick => ?_, fun hon => ?_⟩⟩
  · refine ⟨_, exec_snap hs hw hnone hb hwait, rfl, State.get_set_self .., ?_⟩
    exact (State.set_within (k := 4194306) rfl (Within.ing (k := 4194306) rfl (.refl _ s) _)).sameBut (by decide)
  · have hevent : s.camEvent .snapHeldRun = some (maskList 12 m, 1) := by
      unfold State.camEvent
      rw [hm]
      rfl
    have hact : s.camAct .snapHeldRun = s.snapRun := rfl
    refine (State.onClock_of hs).trans (congrArg Outcome.next ?_)
    rw [State.camTurn_now hevent hb hwait, hact]
    unfold State.snapRun
    rw [hm]
  · refine (State.onClock_of hs).trans ?_
    rw [if_neg (by simp [hon, hst]; omega), if_pos (Option.isSome_iff_ne_none.2 hedge)]
  · intro v r n w
    refine (State.onClock_of hs).trans ?_
    rw [he]
  · intro was
    refine ⟨fun hheld => ?_, fun hheld => (State.onClock_of hs).trans (if_pos (by simp [hheld]))⟩
    obtain ⟨t, up, hexec, hsame, hlines, hcount⟩ := exec_encoderEdge (a := a) (b := b) hs hi hon hen hmode hheld
    refine ⟨t, _, hexec, hsame, hlines, hcount, fun h1 => ?_, fun h0 => ?_⟩
    · rw [h1]
      exact encoderCounts_step was (a, b) up
    · rw [h0]
      exact encoderCounts_quadrature was (a, b) up
  · intro ms u
    refine (State.onClock_of hs).trans ?_
    rw [htick]
    dsimp only
    rw [if_neg (by simp [hon])]
    cases h : s.estimate ((List.range 4).filter (s.member tick)) with
    | none => simp [u, ms, h]
    | some x => simp [u, ms, h]
  · have hexec : exec .apply s = .next s.stageEgo := (State.onClock_of hs).trans (congrArg Outcome.next (if_pos hon))
    exact ⟨_, hexec, (State.setEgo_within (k := 4194304) rfl (.refl _ s)).sameBut (by decide), rfl⟩
end Sys2Proof.Machine
end

section
/-! PROOFS. The front of the queue, the empty queue, and the state after reset (O1 to O4). -/

namespace Sys2Proof.Machine

open Host Reg

variable {s : State}

/-- Settles O1. -/
theorem stepRunsTheFront : Obligations.StepRunsTheFront := fun _ _ _ => rfl

/-! ## A cycle of the clock (R336, R338) -/

theorem State.rateCycle_of_none (h : s.time.nextRate = []) : s.rateCycle = s := by
  have hleft : s.rateCycle = s.setTime { s.time with nextRate := [] } := by
    unfold State.rateCycle
    rw [h]
    rfl
  rw [hleft, ← h]
  rfl

theorem State.holdReset_of_testMode_low (h : s.pkg.testMode = false) : s.holdReset = s := by
  unfold State.holdReset
  rw [h, Bool.and_false]
  rfl

theorem State.rfxDrain_of_empty (h : s.rfx.buffer = []) : s.rfxDrain = s := by
  unfold State.rfxDrain
  rw [h]
  rfl

/-- Package time counts modulo 2^64, its fraction in units of 2^-32. -/
theorem State.advance_counts (s : State) (k : Nat) :
    (2 ^ 32 * (s.advance k).time.now + (s.advance k).time.frac) % 2 ^ 96 =
      (2 ^ 32 * s.time.now + s.time.frac + k * s.incr) % 2 ^ 96 := by
  have hnow : (s.advance k).time.now = (s.time.now + (s.time.frac + k * s.incr) / 2 ^ 32) % 2 ^ 64 := rfl
  have hfrac : (s.advance k).time.frac = (s.time.frac + k * s.incr) % 2 ^ 32 := rfl
  rw [hnow, hfrac]
  generalize k * s.incr = d
  omega

theorem State.advance_sameBut (s : State) (k : Nat) : s.sameBut [.time, .pwr] (s.advance k) :=
  (State.advance_within (k := 134234112) rfl (.refl _ s)).sameBut (by decide)

/-- Settles O2. -/
theorem emptyQueueCountsTime : Obligations.EmptyQueueCountsTime := by
  refine ⟨fun s hq haon href htest hrate hbuf => ?_, fun s hq htest hoff => ?_⟩
  · have hstep : step s = .next (s.advance (if s.timeClock then 1 else 4)) := by
      have hkeep (k : Nat) : (s.advance k).rfx = s.rfx := by
        unfold State.advance
        dsimp only
        split <;> rfl
      unfold step
      rw [hq]
      unfold State.idle State.timeCycle
      rw [haon, href, State.holdReset_of_testMode_low htest, State.rateCycle_of_none hrate,
        State.rfxDrain_of_empty ((congrArg _ (hkeep _)).trans hbuf)]
      rfl
    exact ⟨_, hstep, s.advance_counts _, s.advance_sameBut _⟩
  · have hidle : s.idle = s.holdReset := if_neg (by rcases hoff with h | h <;> simp [h])
    unfold step
    rw [hq]
    exact congrArg Outcome.next (hidle.trans (State.holdReset_of_testMode_low htest))

/-! ## The state after reset -/

/-- Settles O3. -/
theorem resetValues : Obligations.ResetValues := by
  refine ⟨fun f n i => rfl, fun d idx sub => rfl, fun a => ?_, fun d => ?_, rfl, rfl, rfl⟩
  · rfl
  · show (tget DomState.off [(32, .on)] d == .on) = (d == 32)
    simp [tget, eq_comm]

/-- Settles O4. -/
theorem resetIsWellFormed : Obligations.ResetIsWellFormed := by
  unfold Obligations.ResetIsWellFormed
  decide

end Sys2Proof.Machine
end

section
/-! SUPPORT. Channels of the reflex engine: what a record, a gate write, a state change and a fault leave as it was. -/

namespace Sys2Proof.Machine

open Host Reg

variable {s t : State} {c d : Nat} {g : Fld}

/-! ## Channels -/

theorem State.rfxChan_setRfx_self (s : State) (c : Nat) (x : RfxChan) : (s.setRfx c x).rfxChan c = x := tget_tput_self

theorem State.rfxChan_congr (h : t.rfx.chans = s.rfx.chans) (c : Nat) : t.rfxChan c = s.rfxChan c := by
  unfold State.rfxChan
  rw [h]

@[simp] theorem State.rfxChan_set (s : State) (f : Fld) (i v c : Nat) : (s.set f i v).rfxChan c = s.rfxChan c := rfl

@[simp] theorem State.rfxState_setRfx (s : State) (c : Nat) (x : RfxChan) (d : Nat) : (s.setRfx c x).rfxState d = s.rfxState d := rfl

theorem State.rfxState_congr (h : State.agreesOn AGT_RFX_CH_STAT.STATE s t) (d : Nat) : t.rfxState d = s.rfxState d := h.get d

theorem State.spDue_setRfx {x : RfxChan} (h : x.lastEdge = (s.rfxChan c).lastEdge) : (s.setRfx c x).spDue c = s.spDue c := by
  have htest (e : Nat) : (s.rfxOn && s.get AGT_RFX_CH_CFG.SRC c == 2 && s.rfxState c == 1 &&
      decide (((s.setRfx c x).rfxChan c).lastEdge + 40000000 ≤ e)) =
        (s.rfxOn && s.get AGT_RFX_CH_CFG.SRC c == 2 && s.rfxState c == 1 && decide ((s.rfxChan c).lastEdge + 40000000 ≤ e)) := by
    rw [State.rfxChan_setRfx_self, h]
  exact htest s.time.now

/-! ## Records and interrupts (R330, R331) -/

theorem State.rfxRecord_chans (s : State) (c kind thr : Nat) : (s.rfxRecord c kind thr).rfx.chans = s.rfx.chans := by
  unfold State.rfxRecord
  split
  · rfl
  · split <;> rfl

@[simp] theorem State.rfxChan_rfxRecord (s : State) (c kind thr d : Nat) : (s.rfxRecord c kind thr).rfxChan d = s.rfxChan d :=
  State.rfxChan_congr (s.rfxRecord_chans c kind thr) d

theorem State.agreesOn_rfxRecord (h : g.apart AGT_RFX_TELCNT.LOST = true) (s : State) (c kind thr : Nat) :
    State.agreesOn g s (s.rfxRecord c kind thr) := by
  unfold State.rfxRecord
  split
  · exact State.agreesOn_refl g s
  · split
    · exact State.agreesOn_setO h _ _ _
    · exact State.agreesOn_of_regs rfl

theorem State.reportFault_parts (s : State) (c : Nat) : (s.reportFault c).rfx.chans = s.rfx.chans ∧
    (g.apart AGT_RFX_TELCNT.LOST = true → State.agreesOn g s (s.reportFault c)) := by
  have hvec (u : State) (v : Nat) : (u.msix v).rfx = u.rfx ∧ (u.msix v).regs = u.regs := by
    unfold State.msix
    split <;> exact ⟨rfl, rfl⟩
  unfold State.reportFault
  dsimp only
  split
  · obtain ⟨hr, hg⟩ := hvec (s.rfxRecord c 2 0) (s.get AGT_RFX_CFG.VECTOR 0)
    exact ⟨(congrArg Reflex.chans hr).trans (s.rfxRecord_chans c 2 0),
      fun h => (State.agreesOn_rfxRecord h s c 2 0).trans (State.agreesOn_of_regs hg)⟩
  · exact ⟨s.rfxRecord_chans c 2 0, fun h => State.agreesOn_rfxRecord h s c 2 0⟩

theorem State.rfxChan_reportFault (s : State) (c d : Nat) : (s.reportFault c).rfxChan d = s.rfxChan d :=
  State.rfxChan_congr (State.reportFault_parts (g := AGT_RFX_CH_STAT.STATE) s c).1 d

theorem State.agreesOn_reportFault (h : g.apart AGT_RFX_TELCNT.LOST = true) (s : State) (c : Nat) : State.agreesOn g s (s.reportFault c) :=
  (State.reportFault_parts s c).2 h

/-! ## States of channels (R324, R332) -/

/-- The channel's state, its bits of STATUS and the count of lost records: what a change of state writes. -/
def Fld.offRfxState (g : Fld) : Bool :=
  [AGT_RFX_CH_STAT.STATE, AGT_RFX_STATUS.ARMED, AGT_RFX_STATUS.FAULT].all g.apart

theorem State.agreesOn_setRfxState (h : g.offRfxState = true) (s : State) (c v : Nat) : State.agreesOn g s (s.setRfxState c v) := by
  simp only [Fld.offRfxState, List.all_cons, List.all_nil, Bool.and_true, Bool.and_eq_true] at h
  obtain ⟨hst, harm, hflt⟩ := h
  exact ((State.agreesOn_setO hst _ _ _).trans (State.agreesOn_setO harm _ _ _)).trans (State.agreesOn_setO hflt _ _ _)

/-- Fields of the register CH_STAT of different channels differ in bit address. -/
theorem rfxStat_key_ne (hc : c < 32) (hd : d < 32) (hne : d ≠ c) : AGT_RFX_CH_STAT.STATE.key 4 d ≠ AGT_RFX_CH_STAT.STATE.key 4 c := by
  rw [Fld.key_eq, Fld.key_eq]
  simp only [AGT_RFX_CH_STAT.STATE, Nat.mod_eq_of_lt hc, Nat.mod_eq_of_lt hd, Nat.div_eq_of_lt hc, Nat.div_eq_of_lt hd]
  omega

theorem State.rfxState_setRfxState {v : Nat} (hc : c < 32) (hd : d < 32) (hv : v < 4) (s : State) :
    (s.setRfxState c v).rfxState d = if d = c then v else s.rfxState d := by
  unfold State.setRfxState State.rfxState
  rw [State.get_set_apart (by decide), State.get_set_apart (by decide)]
  split
  · subst d
    exact (State.get_set_self ..).trans (Nat.mod_eq_of_lt hv)
  · exact State.get_set_ne (rfxStat_key_ne hc hd ‹_›)

@[simp] theorem State.rfxChan_setRfxState (s : State) (c v d : Nat) : (s.setRfxState c v).rfxChan d = s.rfxChan d := rfl

/-! ## Gate outputs and faults (R324) -/

theorem State.rfxChan_rfxLow (s : State) (c : Nat) : ((s.rfxLow c).rfxChan c).gh = false ∧ ((s.rfxLow c).rfxChan c).gl = false := by
  unfold State.rfxLow
  rw [State.rfxChan_setRfx_self]
  exact ⟨rfl, rfl⟩

/-- An ARMED channel enters FAULT with the cause added. -/
theorem State.rfxFault_of_armed (h : s.rfxState c = 1) (k : Nat) : s.rfxFault c k =
    (((s.rfxLow c).set AGT_RFX_CH_STAT.CAUSE c (setBit (s.get AGT_RFX_CH_STAT.CAUSE c) k true)).setRfxState c 2).reportFault c := if_pos h

theorem State.rfxState_rfxFault_armed (hc : c < 32) (hd : d < 32) (h : s.rfxState c = 1) (k : Nat) :
    (s.rfxFault c k).rfxState d = if d = c then 2 else s.rfxState d := by
  rw [State.rfxFault_of_armed h, State.rfxState_congr (State.agreesOn_reportFault (by decide) _ c),
    State.rfxState_setRfxState hc hd (by decide)]
  unfold State.rfxState
  rw [State.get_set_apart (by decide)]
  rfl

theorem State.cause_rfxFault_armed {k : Nat} (hk : k < 4) (h : s.rfxState c = 1) :
    bit ((s.rfxFault c k).get AGT_RFX_CH_STAT.CAUSE c) k = true := by
  rw [State.rfxFault_of_armed h, (State.agreesOn_reportFault (by decide) _ c).get,
    (State.agreesOn_setRfxState (by decide) _ c 2).get, State.get_set_self]
  exact (bit_mod_two_pow (w := 4) hk _).trans (bit_setBit_self ..)

/-- A fault lets both gate outputs fall, in every state. -/
theorem State.rfxChan_rfxFault (s : State) (c k : Nat) :
    ((s.rfxFault c k).rfxChan c).gh = false ∧ ((s.rfxFault c k).rfxChan c).gl = false := by
  unfold State.rfxFault
  extract_lets s1 s2
  have hs1 : s1.rfxChan c = (s.rfxLow c).rfxChan c := rfl
  split
  · rw [State.rfxChan_reportFault, State.rfxChan_setRfxState, hs1]
    exact s.rfxChan_rfxLow c
  · split
    · rw [hs1]
      exact s.rfxChan_rfxLow c
    · split
      · have hs2 : s2.rfxChan c = (s.rfxLow c).rfxChan c := State.rfxChan_reportFault s1 c c
        rw [State.rfxChan_setRfx_self]
        exact (congrArg (fun x : RfxChan => x.gh = false ∧ x.gl = false) hs2).mpr (s.rfxChan_rfxLow c)
      · exact s.rfxChan_rfxLow c

/-- A fault leaves the other channels in their states. -/
theorem State.rfxState_rfxFault_ne (hc : c < 32) (hd : d < 32) (hne : d ≠ c) (s : State) (k : Nat) : (s.rfxFault c k).rfxState d = s.rfxState d := by
  unfold State.rfxFault
  extract_lets s1 s2
  have hs1 : s1.rfxState d = s.rfxState d := State.get_set_apart (by decide)
  have hreport (u : State) : (u.reportFault c).rfxState d = u.rfxState d := State.rfxState_congr (State.agreesOn_reportFault (by decide) u c) d
  split
  · rw [hreport, State.rfxState_setRfxState hc hd (by decide), if_neg hne, hs1]
  · split
    · exact hs1
    · split
      · have hs2 : s2.rfxState d = (s1.reportFault c).rfxState d := State.get_set_apart (by decide)
        exact (hs2.trans (hreport s1)).trans hs1
      · rfl

/-! ## DISARM (R324, R325) -/

theorem State.rfxState_rfxDisarm (hc : c < 32) (hd : d < 32) (s : State) : (s.rfxDisarm c).rfxState d = if d = c then 0 else s.rfxState d := by
  unfold State.rfxDisarm
  split
  · split
    · subst d
      assumption
    · rfl
  · dsimp only
    rw [State.rfxState_setRfx, State.rfxState_congr (State.agreesOn_rfxRecord (by decide) _ c 4 0)]
    unfold State.rfxState
    rw [State.get_set_apart (by decide)]
    exact State.rfxState_setRfxState hc hd (by decide) (s.rfxLow c)

theorem State.rfxState_foldl_rfxDisarm {l : List Nat} (hl : ∀ c ∈ l, c < 32) (hd : d < 32) (s : State) :
    (l.foldl (fun st c => st.rfxDisarm c) s).rfxState d = if d ∈ l then 0 else s.rfxState d := by
  induction l generalizing s with
  | nil => simp
  | cons c l ih =>
    rw [List.foldl_cons, ih (fun e he => hl e (List.mem_cons_of_mem _ he)), State.rfxState_rfxDisarm (hl c List.mem_cons_self) hd]
    by_cases hdl : d ∈ l
    · simp [hdl]
    · simp [hdl]

/-! ## What R324 puts before a command -/

theorem State.rfxState_crowbar_ne (hc : c < 32) (hd : d < 32) (hne : d ≠ c) (s : State) (v : Int) : (s.crowbar c v).rfxState d = s.rfxState d := by
  unfold State.crowbar
  have hset (x : Nat) : (s.set AGT_RFX_CH_STAT.CB_NOW c x).rfxState d = s.rfxState d := State.get_set_apart (by decide)
  split
  · rfl
  · split
    · split <;> rfl
    · dsimp only
      split
      · exact (State.rfxState_rfxFault_ne hc hd hne _ 0).trans (hset _)
      · exact hset _

theorem State.rfxState_desat_ne (hc : c < 32) (hd : d < 32) (hne : d ≠ c) (s : State) (level : Bool) (held : Nat) :
    (s.desat c level held).rfxState d = s.rfxState d := by
  unfold State.desat
  have hset (x : Nat) : (s.set AGT_RFX_CH_STAT.DESAT_NOW c x).rfxState d = s.rfxState d := State.get_set_apart (by decide)
  extract_lets trip s1
  split
  · rfl
  · split
    · split <;> rfl
    · split
      · exact (State.rfxState_rfxFault_ne hc hd hne _ 1).trans (hset _)
      · exact hset _

theorem State.rfxAhead_of_quiet (hq : s.pending = []) (hsp : s.spDue c = false) : s.rfxAhead c = s := by
  unfold State.rfxAhead
  simp only [hq, List.foldl_nil, hsp]
  rfl

theorem State.rfxAhead_of_spDue (hq : s.pending = []) (hsp : s.spDue c = true) : s.rfxAhead c = s.rfxFault c 3 := by
  unfold State.rfxAhead
  simp only [hq, List.foldl_nil, hsp, if_true]

/-- What comes before a command to one channel leaves the others in their states. -/
theorem State.rfxState_rfxAhead_ne (hc : c < 32) (hd : d < 32) (hne : d ≠ c) (s : State) : (s.rfxAhead c).rfxState d = s.rfxState d := by
  unfold State.rfxAhead
  extract_lets s1
  have hs1 : s1.rfxState d = s.rfxState d := by
    have htrips (l : List Instr) (u : State) : (l.foldl (fun st i => match i with
        | .crowbarTrip m => if m.chan = c then st.crowbar c (m.p - m.n) else st
        | .desatTrip e => if e.chan = c then st.desat c e.level e.held else st
        | _ => st) u).rfxState d = u.rfxState d := by
      induction l generalizing u with
      | nil => rfl
      | cons i l ih =>
        rw [List.foldl_cons, ih]
        split
        · split
          · exact State.rfxState_crowbar_ne hc hd hne u _
          · rfl
        · split
          · exact State.rfxState_desat_ne hc hd hne u _ _
          · rfl
        · rfl
    exact htrips s.pending s
  split
  · exact (State.rfxState_rfxFault_ne hc hd hne s1 3).trans hs1
  · exact hs1

theorem State.rfxState_foldl_rfxAhead {l : List Nat} (hl : ∀ c ∈ l, c < 32) (hd : d < 32) (hne : d ∉ l) (s : State) :
    (l.foldl State.rfxAhead s).rfxState d = s.rfxState d := by
  induction l generalizing s with
  | nil => rfl
  | cons c l ih =>
    rw [List.foldl_cons, ih (fun e he => hl e (List.mem_cons_of_mem _ he)) (fun h => hne (List.mem_cons_of_mem _ h)),
      State.rfxState_rfxAhead_ne (hl c List.mem_cons_self) hd (fun h => hne (h ▸ List.mem_cons_self))]

theorem State.foldl_rfxAhead_of_quiet {l : List Nat} (hq : s.pending = []) (hsp : ∀ c ∈ l, s.spDue c = false) : l.foldl State.rfxAhead s = s := by
  induction l with
  | nil => rfl
  | cons c l ih =>
    rw [List.foldl_cons, State.rfxAhead_of_quiet hq (hsp c List.mem_cons_self)]
    exact ih (fun e he => hsp e (List.mem_cons_of_mem _ he))
end Sys2Proof.Machine
end

section
/-! PROOFS. The reflex engine: switching, trips, set-points, commands and banks (O36, O37). -/

namespace Sys2Proof.Machine

open Host Reg

variable {s : State} {c : Nat} {v : Int}

/-! ## Switching (R321) -/

theorem State.disarmAhead_of_quiet (hq : s.pending = []) : s.disarmAhead c = false := by
  unfold State.disarmAhead
  rw [hq]
  rfl

theorem State.rfxSwitch_of_quiet (hq : s.pending = []) (hsp : s.spDue c = false) : s.rfxSwitch c = s.rfxDecide c := by
  unfold State.rfxSwitch
  rw [State.rfxAhead_of_quiet hq hsp]
  simp only [State.disarmAhead_of_quiet hq]
  rfl

/-- Switching is permitted: the channel is ARMED and no interval runs. -/
def State.rfxFree (s : State) (c : Nat) : Prop :=
  s.rfxState c = 1 ∧ (s.rfxChan c).arming = false ∧ (s.rfxChan c).dead = none ∧ (s.rfxChan c).blank = none ∧ (s.rfxChan c).minRun = none

/-- The dead time of the active bank. -/
def State.rfxDead (s : State) (c : Nat) : Nat := s.bankGet AGT_RFX_CH_BANKA1.DEADTIME AGT_RFX_CH_BANKB1.DEADTIME c

theorem State.rfxDecide_of_free (h : s.rfxFree c) : s.rfxDecide c =
    if s.isSet AGT_RFX_CH_STAT.PHASE c then
      if !s.cmpHigh c then s else
        let thr := s.get AGT_RFX_CH_STAT.THR_HI c
        let s1 := ((s.setRfx c { s.rfxChan c with gh := false }).set AGT_RFX_CH_STAT.PHASE c 0).rfxRecord c 1 thr
        if !s.isSet AGT_RFX_CH_CFG.COMPL c || s.rfxDead c == 0 then s1.rfxOffEdge c
        else s1.setRfx c { s1.rfxChan c with dead := some (false, thr, s.time.ticks + s.rfxDead c) }
    else
      if !s.cmpLow c then s else
        let thr := s.get AGT_RFX_CH_STAT.THR_LO c
        let s1 := s.setRfx c { s.rfxChan c with gl := false, dead := some (true, thr, s.time.ticks + s.rfxDead c) }
        if s.rfxDead c = 0 then s1.rfxOnEdge c thr else s1 := by
  obtain ⟨hst, harm, hdead, hblank, hmin⟩ := h
  unfold State.rfxDecide
  dsimp only
  rw [if_neg (by simp [hst, harm, hdead, hblank, hmin])]
  rfl

/-- A channel decides nothing where the comparator that its phase waits for is not on. -/
theorem State.rfxDecide_stays (h : s.rfxFree c) (hoff : s.isSet AGT_RFX_CH_STAT.PHASE c = false → s.cmpLow c = false)
    (hon : s.isSet AGT_RFX_CH_STAT.PHASE c = true → s.cmpHigh c = false) : s.rfxDecide c = s := by
  rw [State.rfxDecide_of_free h]
  by_cases hp : s.isSet AGT_RFX_CH_STAT.PHASE c = true
  · rw [if_pos hp, if_pos (by simp [hon hp])]
  · rw [if_neg hp, if_pos (by simp [hoff (by simpa using hp)])]

theorem State.get_rfxOnEdge_phase (s : State) (c thr : Nat) : (s.rfxOnEdge c thr).get AGT_RFX_CH_STAT.PHASE c = 1 := by
  unfold State.rfxOnEdge
  extract_lets x s1 s2
  have hs2 : s2.get AGT_RFX_CH_STAT.PHASE c = 1 := (State.get_set_apart (by decide)).trans (State.get_set_self ..)
  rw [(State.agreesOn_rfxRecord (by decide) _ c 0 thr).get]
  split
  · exact (State.get_set_apart (by decide)).trans hs2
  · exact hs2

theorem State.get_rfxOnEdge_edges (s : State) (c thr : Nat) :
    (s.rfxOnEdge c thr).get AGT_RFX_CH_CNT.ON_EDGES c = (s.get AGT_RFX_CH_CNT.ON_EDGES c + 1) % 2 ^ 32 := by
  unfold State.rfxOnEdge
  extract_lets x s1 s2
  have hs2 : s2.get AGT_RFX_CH_CNT.ON_EDGES c = (s.get AGT_RFX_CH_CNT.ON_EDGES c + 1) % 2 ^ 32 := State.get_set_self ..
  rw [(State.agreesOn_rfxRecord (by decide) _ c 0 thr).get]
  split
  · exact (State.get_set_apart (by decide)).trans hs2
  · exact hs2

/-- Two ON edges set LAST_PERIOD to the ticks between them (R332). -/
theorem State.get_rfxOnEdge_period {thr t0 : Nat} (h : (s.rfxChan c).lastOn = some t0) :
    (s.rfxOnEdge c thr).get AGT_RFX_CH_CNT.LAST_PERIOD c = (s.time.ticks - t0) % 2 ^ 32 := by
  unfold State.rfxOnEdge
  extract_lets x s1 s2
  rw [(State.agreesOn_rfxRecord (by decide) _ c 0 thr).get, show x.lastOn = some t0 from h]
  exact State.get_set_self ..

theorem State.rfxChan_rfxOnEdge (s : State) (c thr : Nat) :
    ((s.rfxOnEdge c thr).rfxChan c).gl = (s.rfxChan c).gl ∧ ((s.rfxOnEdge c thr).rfxChan c).gh = true ∧
    ((s.rfxOnEdge c thr).rfxChan c).dead = none := by
  unfold State.rfxOnEdge
  extract_lets x s1 s2
  have hs1 : s1.rfxChan c = _ := State.rfxChan_setRfx_self s c _
  have hs2 : s2.rfxChan c = s1.rfxChan c := rfl
  rw [State.rfxChan_rfxRecord]
  split
  · rw [State.rfxChan_set, hs2, hs1]
    exact ⟨rfl, rfl, rfl⟩
  · rw [hs2, hs1]
    exact ⟨rfl, rfl, rfl⟩

theorem State.rfxChan_rfxOffEdge_gh (s : State) (c : Nat) : ((s.rfxOffEdge c).rfxChan c).gh = (s.rfxChan c).gh :=
  by
  unfold State.rfxOffEdge
  rw [State.rfxChan_setRfx_self]

/-! ## The comparators (R318) -/

/-- The state in which the comparators of a channel see V_M = `v`. -/
def State.seeVoltage (s : State) (c : Nat) (v : Int) : State := s.setRfx c { s.rfxChan c with vm := some v }

theorem State.rfxChan_seeVoltage (s : State) (c : Nat) (v : Int) : (s.seeVoltage c v).rfxChan c = { s.rfxChan c with vm := some v } :=
  State.rfxChan_setRfx_self ..

theorem State.cmpLow_seeVoltage (h : s.domOn 42 = true) : (s.seeVoltage c v).cmpLow c = atMost v (s.lowerAt c) := by
  have hdom : (s.seeVoltage c v).domOn 42 = true := h
  unfold State.cmpLow
  rw [hdom, State.rfxChan_seeVoltage]
  rfl

theorem State.cmpHigh_seeVoltage (h : s.domOn 42 = true) : (s.seeVoltage c v).cmpHigh c = atLeast v (s.upperAt c) := by
  have hdom : (s.seeVoltage c v).domOn 42 = true := h
  unfold State.cmpHigh
  rw [hdom, State.rfxChan_seeVoltage]
  rfl

theorem State.rfxFree_seeVoltage (h : s.rfxFree c) : (s.seeVoltage c v).rfxFree c := by
  obtain ⟨hst, harm, hdead, hblank, hmin⟩ := h
  unfold State.rfxFree
  rw [State.rfxChan_seeVoltage]
  exact ⟨hst, harm, hdead, hblank, hmin⟩

theorem exec_comparatorCrossing {upper : Bool} {p n : Int} (hs : s.clocked = true) (hon : s.rfxOn = true) (hc : c < 32) (hq : s.pending = [])
    (hsp : s.spDue c = false) (hdom : s.domOn 42 = true) (hx : s.crosses c upper (p - n) = true) :
    exec (.comparatorCrossing c upper p n) s = .next ((s.seeVoltage c (p - n)).rfxDecide c) := by
  refine (State.onClock_of hs).trans ?_
  rw [if_neg (by simp [hon, hdom, hx]; omega)]
  exact congrArg Outcome.next (State.rfxSwitch_of_quiet (s := s.seeVoltage c (p - n)) hq
    ((State.spDue_setRfx (x := { s.rfxChan c with vm := some (p - n) }) rfl).trans hsp))

theorem exec_comparatorCrossing_none {upper : Bool} {p n : Int} (hs : s.clocked = true) (hx : s.crosses c upper (p - n) = false) :
    exec (.comparatorCrossing c upper p n) s = .next s :=
  (State.onClock_of hs).trans (if_pos (by simp [hx]))

/-- The cases of R321 for a channel where switching is permitted. -/
theorem crossing_decides (hs : s.clocked = true) (hon : s.rfxOn = true) (hc : c < 32) (hq : s.pending = []) (hsp : s.spDue c = false)
    (hdom : s.domOn 42 = true) (hfree : s.rfxFree c) (p n : Int) :
    let x := s.rfxChan c
    let dead := s.rfxDead c
    let phase := s.isSet AGT_RFX_CH_STAT.PHASE c
    let low : Prop := 4096 * (p - n + 900000000) ≤ 1800000000 * s.lowerAt c
    let high : Prop := 1800000000 * s.upperAt c ≤ 4096 * (p - n + 900000000)
    (phase = false → s.cmpLow c = false → low → dead = 0 → ∃ t, exec (.comparatorCrossing c false p n) s = .next t ∧
      (t.rfxChan c).gl = false ∧ (t.rfxChan c).gh = true ∧ (t.rfxChan c).dead = none ∧ t.get AGT_RFX_CH_STAT.PHASE c = 1 ∧
      t.get AGT_RFX_CH_CNT.ON_EDGES c = (s.get AGT_RFX_CH_CNT.ON_EDGES c + 1) % 2 ^ 32 ∧
      (∀ t0, x.lastOn = some t0 → t.get AGT_RFX_CH_CNT.LAST_PERIOD c = (s.time.ticks - t0) % 2 ^ 32)) ∧
    (phase = false → s.cmpLow c = false → low → dead ≠ 0 → ∃ t, exec (.comparatorCrossing c false p n) s = .next t ∧
      (t.rfxChan c).gl = false ∧ (t.rfxChan c).gh = x.gh ∧
      (t.rfxChan c).dead = some (true, s.get AGT_RFX_CH_STAT.THR_LO c, s.time.ticks + dead) ∧ s.sameBut [.rfx] t) ∧
    (phase = true → s.cmpHigh c = false → high → ∃ t, exec (.comparatorCrossing c true p n) s = .next t ∧
      (t.rfxChan c).gh = false ∧ t.get AGT_RFX_CH_STAT.PHASE c = 0) ∧
    (∀ upper, s.crosses c upper (p - n) = true → (phase = false → ¬low) → (phase = true → ¬high) →
      exec (.comparatorCrossing c upper p n) s = .next (s.setRfx c { x with vm := some (p - n) })) ∧
    ((high ↔ s.cmpHigh c = true) → exec (.comparatorCrossing c true p n) s = .next s) ∧
    ((low ↔ s.cmpLow c = true) → exec (.comparatorCrossing c false p n) s = .next s) := by
  intro x dead phase low high
  have hseen := State.rfxFree_seeVoltage (v := p - n) hfree
  have hatMost : atMost (p - n) (s.lowerAt c) = decide low := rfl
  have hatLeast : atLeast (p - n) (s.upperAt c) = decide high := rfl
  have hlow : (s.seeVoltage c (p - n)).cmpLow c = decide low := State.cmpLow_seeVoltage hdom
  have hhigh : (s.seeVoltage c (p - n)).cmpHigh c = decide high := State.cmpHigh_seeVoltage hdom
  have hcross {upper : Bool} (hx : s.crosses c upper (p - n) = true) := exec_comparatorCrossing hs hon hc hq hsp hdom hx
  have hlowX (hcl : s.cmpLow c = false) (hl : low) : s.crosses c false (p - n) = true := by
    simp [State.crosses, hatMost, hcl, hl]
  have hchan := s.rfxChan_seeVoltage c (p - n)
  have hsight : (s.seeVoltage c (p - n)).isSet AGT_RFX_CH_STAT.PHASE c = phase := rfl
  refine ⟨fun hp hcl hl hd => ⟨_, hcross (hlowX hcl hl), ?_⟩, fun hp hcl hl hd => ⟨_, hcross (hlowX hcl hl), ?_⟩,
    fun hp hch hh => ⟨_, hcross (by simp [State.crosses, hatLeast, hch, hh]), ?_⟩, fun upper hx hnl hnh => ?_, fun heq => ?_, fun heq => ?_⟩
  · rw [State.rfxDecide_of_free hseen, if_neg (by rw [hsight, hp]; decide), if_neg (by simp [hlow, hl])]
    dsimp only
    rw [if_pos (show (s.seeVoltage c (p - n)).rfxDead c = 0 from hd)]
    obtain ⟨hgl, hgh, hdead⟩ := State.rfxChan_rfxOnEdge ((s.seeVoltage c (p - n)).setRfx c { (s.seeVoltage c (p - n)).rfxChan c with
      gl := false, dead := some (true, s.get AGT_RFX_CH_STAT.THR_LO c, s.time.ticks + dead) }) c (s.get AGT_RFX_CH_STAT.THR_LO c)
    refine ⟨hgl.trans ?_, hgh, hdead, State.get_rfxOnEdge_phase .., State.get_rfxOnEdge_edges .., fun t0 h0 => ?_⟩
    · rw [State.rfxChan_setRfx_self]
    · refine State.get_rfxOnEdge_period ?_
      rw [State.rfxChan_setRfx_self, hchan]
      exact h0
  · rw [State.rfxDecide_of_free hseen, if_neg (by rw [hsight, hp]; decide), if_neg (by simp [hlow, hl])]
    dsimp only
    rw [if_neg (show ¬(s.seeVoltage c (p - n)).rfxDead c = 0 from hd), State.rfxChan_setRfx_self, hchan]
    exact ⟨rfl, rfl, rfl, (State.setRfx_within (k := 8388608) rfl (State.setRfx_within (k := 8388608) rfl (.refl _ s))).sameBut (by decide)⟩
  · rw [State.rfxDecide_of_free hseen, if_pos (hsight.trans hp),
      if_neg (by simp [hhigh, hh])]
    extract_lets thr src s1
    have hgh : (s1.rfxChan c).gh = false := by
      unfold s1
      rw [State.rfxChan_rfxRecord, State.rfxChan_set, State.rfxChan_setRfx_self]
    have hphase : s1.get AGT_RFX_CH_STAT.PHASE c = 0 := by
      unfold s1
      rw [(State.agreesOn_rfxRecord (by decide) _ c 1 thr).get, State.get_set_self]
      rfl
    split
    · exact ⟨(State.rfxChan_rfxOffEdge_gh s1 c).trans hgh, hphase⟩
    · refine ⟨?_, hphase⟩
      rw [State.rfxChan_setRfx_self]
      exact hgh
  · refine (hcross hx).trans (congrArg Outcome.next (State.rfxDecide_stays hseen (fun hp => ?_) (fun hp => ?_)))
    · rw [hlow, decide_eq_false (hnl hp)]
    · rw [hhigh, decide_eq_false (hnh hp)]
  · exact exec_comparatorCrossing_none hs (by simp [State.crosses, hatLeast, heq])
  · exact exec_comparatorCrossing_none hs (by simp [State.crosses, hatMost, heq])

/-! ## Ends of intervals (R321) -/

theorem State.over_some {e : Nat} (h : e ≤ s.time.ticks) : s.over (some e) = true := by simp [State.over, h]

/-- The intervals named have ended: the decision follows on the level that stands. -/
theorem exec_switchBlockEnd {b m : Bool} (hs : s.clocked = true) (hon : s.rfxOn = true) (hc : c < 32) (hq : s.pending = [])
    (hsp : s.spDue c = false) (hany : b = true ∨ m = true)
    (hb : b = true → s.over (s.rfxChan c).blank = true) (hm : m = true → s.over (s.rfxChan c).minRun = true) :
    exec (.switchBlockEnd c b m) s = .next ((s.setRfx c { s.rfxChan c with
      blank := if b then none else (s.rfxChan c).blank, minRun := if m then none else (s.rfxChan c).minRun }).rfxDecide c) := by
  have hb' : (b && s.over (s.rfxChan c).blank) = b := by
    cases b
    · rfl
    · exact hb rfl
  have hm' : (m && s.over (s.rfxChan c).minRun) = m := by
    cases m
    · rfl
    · exact hm rfl
  refine (State.onClock_of hs).trans ?_
  rw [if_neg (by simp [hon]; omega)]
  dsimp only
  rw [hb', hm', if_neg (by rcases hany with h | h <;> simp [h])]
  exact congrArg Outcome.next (State.rfxSwitch_of_quiet (s := s.setRfx c _) hq ((State.spDue_setRfx (x := { s.rfxChan c with
      blank := if b then none else (s.rfxChan c).blank, minRun := if m then none else (s.rfxChan c).minRun }) rfl).trans hsp))

/-- The end of the dead time makes the edge that it held back. -/
theorem exec_deadtimeEnd {on : Bool} {thr e : Nat} (hs : s.clocked = true) (hon : s.rfxOn = true) (hc : c < 32) (hq : s.pending = [])
    (hsp : s.spDue c = false) (hd : (s.rfxChan c).dead = some (on, thr, e)) (he : e ≤ s.time.ticks) :
    exec (.deadtimeEnd c on) s = .next ((if on then s.rfxOnEdge c thr else s.rfxOffEdge c).rfxDecide c) := by
  refine (State.onClock_of hs).trans ?_
  rw [if_neg (by simp [hon]; omega)]
  simp only [State.rfxAhead_of_quiet hq hsp, State.disarmAhead_of_quiet hq, Bool.false_eq_true, if_false, hd]
  rw [if_neg (by simp; omega)]

/-! ## Trips (R323) -/

theorem State.crowbar_of_hit (hon : s.rfxOn = true) (hc : c < 32) (hhit : s.crowbarHit c v = true) :
    s.crowbar c v = if s.clocked then (s.set AGT_RFX_CH_STAT.CB_NOW c 1).rfxFault c 0 else s.rfxLow c := by
  have hdom : s.domOn 42 = true := by
    unfold State.crowbarHit at hhit
    exact (Bool.and_eq_true_iff.1 hhit).1
  unfold State.crowbar
  rw [if_neg (by simp [hon, hdom]; omega), hhit]
  cases s.clocked <;> rfl

/-- A trip that the filter passes lets the gate outputs fall. -/
theorem State.desat_of_trip {level : Bool} {held : Nat} (hon : s.rfxOn = true) (hc : c < 32)
    (hlevel : level = s.isSet AGT_RFX_CH_CFG.DESAT_POL c) (hen : s.isSet AGT_RFX_CH_CFG.DESAT_EN c = true)
    (hheld : 80 * s.get AGT_RFX_CH_CFG.DESAT_FILT c < held) :
    s.desat c level held = if s.clocked then (s.set AGT_RFX_CH_STAT.DESAT_NOW c 1).rfxFault c 1 else s.rfxLow c := by
  have hactive : s.desatLevel c level = true := by simp [State.desatLevel, hlevel]
  unfold State.desat
  simp only [hactive, hen, decide_eq_true hheld, hon]
  rw [if_neg (by simp; omega)]
  cases s.clocked <;> rfl

/-- What a trip of an ARMED channel does, with the sight of it shown on CH_STAT. -/
theorem State.rfxFault_trips {f : Fld} {k n : Nat} (hf : AGT_RFX_CH_STAT.STATE.apart f = true) (hc : c < 32) (hk : k < 4) (s : State) :
    let t := if s.clocked then (s.set f c n).rfxFault c k else s.rfxLow c
    (t.rfxChan c).gh = false ∧ (t.rfxChan c).gl = false ∧
      (s.clocked = true → s.rfxState c = 1 → t.rfxState c = 2 ∧ bit (t.get AGT_RFX_CH_STAT.CAUSE c) k = true) := by
  intro t
  cases h : s.clocked with
  | false =>
    have ht : t = s.rfxLow c := if_neg (by simp [h])
    rw [ht]
    obtain ⟨hh, hl⟩ := s.rfxChan_rfxLow c
    exact ⟨hh, hl, fun hclk => absurd hclk (by decide)⟩
  | true =>
    have ht : t = (s.set f c n).rfxFault c k := if_pos h
    rw [ht]
    obtain ⟨hh, hl⟩ := (s.set f c n).rfxChan_rfxFault c k
    refine ⟨hh, hl, fun _ hst => ?_⟩
    have harmed : (s.set f c n).rfxState c = 1 := (State.get_set_apart hf).trans hst
    exact ⟨(State.rfxState_rfxFault_armed hc hc harmed k).trans (if_pos rfl), State.cause_rfxFault_armed hk harmed⟩

/-- Settles O36. -/
theorem reflexOutputs : Obligations.ReflexOutputs := by
  refine ⟨fun s c hs hon hc hq hsp => ?_,
    fun s c hon hc => ⟨fun p n hhit => ?_, fun p n hdom hhit hs => ?_, fun level held hlevel hen hheld => ?_,
      fun src p n hs hr hst hhit hq => ?_, fun hs hq hsrc hst hlate => ?_, fun high period dir hs => ⟨fun hsrc hlo hhi => ?_, fun hsrc hst => ?_⟩⟩⟩
  · intro x dead phase
    refine ⟨fun p n hdom hst harm hdead hblank hmin => ?_, fun e hb he => ?_, fun e hm he => ?_,
      fun e e' hb hm he he' => ?_, fun thr e he => ⟨fun hd => ?_, fun hd => ?_⟩⟩
    · intro v low high
      exact crossing_decides hs hon hc hq hsp hdom ⟨hst, harm, hdead, hblank, hmin⟩ p n
    · exact exec_switchBlockEnd hs hon hc hq hsp (b := true) (m := false) (.inl rfl) (fun _ => hb ▸ State.over_some he) nofun
    · exact exec_switchBlockEnd hs hon hc hq hsp (b := false) (m := true) (.inr rfl) nofun (fun _ => hm ▸ State.over_some he)
    · exact exec_switchBlockEnd hs hon hc hq hsp (b := true) (m := true) (.inl rfl)
        (fun _ => hb ▸ State.over_some he) (fun _ => hm ▸ State.over_some he')
    · exact exec_deadtimeEnd hs hon hc hq hsp hd he
    · exact exec_deadtimeEnd hs hon hc hq hsp hd he
  · have htrip := State.rfxFault_trips (f := AGT_RFX_CH_STAT.CB_NOW) (k := 0) (n := 1) (by decide) hc (by decide) s
    rw [← State.crowbar_of_hit hon hc hhit] at htrip
    exact ⟨_, rfl, htrip⟩
  · refine congrArg Outcome.next ?_
    unfold State.crowbar
    rw [if_neg (by simp [hon, hdom]; omega), if_neg (by simp [hs]), hhit]
    rfl
  · have htrip := State.rfxFault_trips (f := AGT_RFX_CH_STAT.DESAT_NOW) (k := 1) (n := 1) (by decide) hc (by decide) s
    rw [← State.desat_of_trip hon hc hlevel hen hheld] at htrip
    exact ⟨_, rfl, htrip⟩
  · refine (State.onClock_of hs).trans (congrArg Outcome.next ?_)
    unfold State.rfxCmdWrite
    rw [if_pos hr]
    unfold State.rfxCommand
    have hahead : s.rfxAhead c = s.crowbar c (p - n) := by
      have hcb : s.crowbar c (p - n) = _ := State.crowbar_of_hit hon hc hhit
      have hnot : (s.crowbar c (p - n)).spDue c = false := by
        obtain ⟨-, -, hflt⟩ := State.rfxFault_trips (f := AGT_RFX_CH_STAT.CB_NOW) (k := 0) (n := 1) (by decide) hc (by decide) s
        rw [← State.crowbar_of_hit hon hc hhit] at hflt
        unfold State.spDue
        rw [(hflt hs hst).1]
        simp
      unfold State.rfxAhead
      simp only [hq, List.foldl_cons, List.foldl_nil, if_true, hnot]
      rfl
    simp only [maskList_two_pow hc, List.foldl_cons, List.foldl_nil, hahead]
  · have hdue : s.spDue c = true := by simp [State.spDue, hon, hsrc, hst, hlate]
    have hexec : exec (.spLost c) s = .next (s.rfxFault c 3) := by
      refine (State.onClock_of hs).trans (congrArg Outcome.next ?_)
      rw [if_neg (by omega), State.rfxAhead_of_spDue hq hdue]
    obtain ⟨hh, hl⟩ := s.rfxChan_rfxFault c 3
    exact ⟨_, hexec, hh, hl, (State.rfxState_rfxFault_armed hc hc hst 3).trans (if_pos rfl), State.cause_rfxFault_armed (by decide) hst⟩
  · have hexec : exec (.spEdge c high period dir) s = _ := State.onClock_of hs
    rw [if_neg (by simp [hon]; omega)] at hexec
    extract_lets x src ok at hexec
    rw [if_pos (show src = 2 from hsrc), show ok = true by simp [ok, hlo, hhi], if_pos rfl] at hexec
    refine ⟨_, hexec, ?_, ?_, (State.setRfx_within (k := 8388608) rfl (.refl _ s)).sameBut (by decide)⟩
    · rw [State.rfxChan_setRfx_self]
    · rw [State.rfxChan_setRfx_self]
  · have hexec : exec (.spEdge c high period dir) s = _ := State.onClock_of hs
    rw [if_neg (by simp [hon]; omega)] at hexec
    extract_lets x src ok inc at hexec
    rw [if_neg (show ¬src = 2 by rw [show src = 3 from hsrc]; decide), if_pos (show src = 3 ∧ _ from ⟨hsrc, hst⟩)] at hexec
    refine ⟨_, hexec, ?_, (State.setRfx_within (k := 8388608) rfl (.refl _ s)).sameBut (by decide)⟩
    rw [State.rfxChan_setRfx_self]

/-! ## Commands (R325) -/

theorem State.rfxState_rfxArm {d : Nat} (hc : c < 32) (hd : d < 32) (s : State) : (s.rfxArm c).rfxState d = if d = c then 1 else s.rfxState d := by
  unfold State.rfxArm
  dsimp only
  rw [State.rfxState_congr (State.agreesOn_rfxRecord (by decide) _ c 3 0)]
  unfold State.rfxState
  rw [State.get_set_apart (by decide), State.get_set_apart (by decide)]
  exact State.rfxState_setRfxState hc hd (by decide) _

theorem State.rfxState_foldl_rfxArm {l : List Nat} {d : Nat} (hl : ∀ c ∈ l, c < 32) (hd : d < 32) (s : State) :
    (l.foldl (fun st c => st.rfxArm c) s).rfxState d = if d ∈ l then 1 else s.rfxState d := by
  induction l generalizing s with
  | nil => simp
  | cons c l ih =>
    rw [List.foldl_cons, ih (fun e he => hl e (List.mem_cons_of_mem _ he)), State.rfxState_rfxArm (hl c List.mem_cons_self) hd]
    by_cases hdl : d ∈ l
    · simp [hdl]
    · simp [hdl]

theorem State.rfxAnswer_parts (s : State) (st : Status) (mask : Nat) :
    (s.rfxAnswer st mask).get AGT_RFX_CMDSTAT.STATUS 0 = st.code % 2 ^ 8 ∧
    (s.rfxAnswer st mask).get AGT_RFX_CMDSTAT.FAILMASK 0 = mask % 2 ^ 32 ∧ ∀ d, (s.rfxAnswer st mask).rfxState d = s.rfxState d := by
  unfold State.rfxAnswer State.rfxState
  refine ⟨?_, State.get_set_self .., fun d => ?_⟩
  · rw [State.get_set_apart (by decide)]
    exact State.get_set_self ..
  · rw [State.get_set_apart (by decide), State.get_set_apart (by decide)]

theorem State.relockDisarm_of_locked (h : s.isSet AGT_PWR_CLKSTAT.RELOCK 0 = false) : s.relockDisarm = s := by
  unfold State.relockDisarm
  rw [if_neg (by simp [h])]

/-- Every channel named passes the conditions of R325: all are armed. -/
theorem State.rfxArmAll_of_all {rearm : Bool} {mask : Nat}
    (h : ∀ c, c < 32 → bit mask c = true → s.armable rearm c = true ∧ s.safeAllows c = true) :
    s.rfxArmAll rearm mask = ((maskList 32 mask).foldl (fun st c => st.rfxArm c) s).rfxAnswer .ok 0 := by
  have hbad : (maskList 32 mask).filter (fun c => !s.armable rearm c) = [] :=
    List.filter_eq_nil_iff.2 fun c hc => by simp [(h c (mem_maskList.1 hc).1 (mem_maskList.1 hc).2).1]
  have hshut : (maskList 32 mask).filter (fun c => !s.safeAllows c) = [] :=
    List.filter_eq_nil_iff.2 fun c hc => by simp [(h c (mem_maskList.1 hc).1 (mem_maskList.1 hc).2).2]
  unfold State.rfxArmAll
  simp only [hbad, hshut]
  rfl

/-- An armable channel is not ARMED: no set-point of it can be lost. -/
theorem State.spDue_of_armable {rearm : Bool} (h : s.armable rearm c = true) : s.spDue c = false := by
  have hst : s.rfxState c = if rearm then 2 else 0 := by
    simp only [State.armable, Bool.and_eq_true, beq_iff_eq] at h
    obtain ⟨⟨⟨⟨⟨⟨⟨hst, -⟩, -⟩, -⟩, -⟩, -⟩, -⟩, -⟩ := h
    exact hst
  unfold State.spDue
  rw [hst]
  cases rearm <;> simp

/-- ARM and REARM where every channel passes and no trip comes before them. -/
theorem armAll_effect {rearm : Bool} {mask : Nat} (hq : s.pending = []) (hlock : s.isSet AGT_PWR_CLKSTAT.RELOCK 0 = false)
    (h : ∀ c, c < 32 → bit mask c = true → s.armable rearm c = true ∧ s.safeAllows c = true) :
    let t := s.rfxCommand (if rearm then 3 else 1) mask
    (∀ c, c < 32 → t.rfxState c = if bit mask c then 1 else s.rfxState c) ∧ t.get AGT_RFX_CMDSTAT.STATUS 0 = 0 ∧
      t.get AGT_RFX_CMDSTAT.FAILMASK 0 = 0 := by
  intro t
  have hrelock : ((s.rfxArmAll rearm mask).isSet AGT_PWR_CLKSTAT.RELOCK 0) = false := by
    have harm (u : State) (c : Nat) : State.agreesOn AGT_PWR_CLKSTAT.RELOCK u (u.rfxArm c) :=
      (((State.agreesOn_of_regs (t := u.setRfx c _) rfl).trans (State.agreesOn_setRfxState (by decide) _ c 1)).trans
        ((State.agreesOn_setO (by decide) _ _ _).trans (State.agreesOn_setO (by decide) _ _ _))).trans (State.agreesOn_rfxRecord (by decide) _ c 3 0)
    rw [State.rfxArmAll_of_all h]
    unfold State.rfxAnswer
    rw [State.isSet_set_apart (by decide), State.isSet_set_apart (by decide)]
    exact (congrArg (· == 1) ((State.agreesOn_foldl harm (maskList 32 mask) s).get 0)).trans hlock
  have ht : t = ((maskList 32 mask).foldl (fun st c => st.rfxArm c) s).rfxAnswer .ok 0 := by
    have hquiet : (maskList 32 mask).foldl State.rfxAhead s = s := State.foldl_rfxAhead_of_quiet hq fun c hc =>
      State.spDue_of_armable (h c (mem_maskList.1 hc).1 (mem_maskList.1 hc).2).1
    refine Eq.trans ?_ ((State.relockDisarm_of_locked hrelock).trans (State.rfxArmAll_of_all h))
    unfold t State.rfxCommand
    dsimp only
    rw [hquiet]
    cases rearm <;> rfl
  obtain ⟨hstatus, hmask, hstate⟩ := ((maskList 32 mask).foldl (fun st c => st.rfxArm c) s).rfxAnswer_parts .ok 0
  rw [ht]
  refine ⟨fun c hc => ?_, hstatus, hmask⟩
  rw [hstate, State.rfxState_foldl_rfxArm (fun c hc => (mem_maskList.1 hc).1) hc]
  simp only [mem_maskList, hc, true_and]

/-- A bit that joins a mask is set in it. -/
theorem maskOf_step (m i : Nat) : (if bit m i then m else m + 2 ^ i) = setBit m i true := by
  have hdig : bit m i = decide (m / 2 ^ i % 2 = 1) := rfl
  unfold setBit
  by_cases h : m / 2 ^ i % 2 = 1
  · have hle : 2 ^ i ≤ m := by
      by_contra hlt
      rw [Nat.div_eq_of_lt (by omega)] at h
      exact absurd h (by decide)
    rw [if_pos (by rw [hdig]; exact decide_eq_true h), h, if_pos rfl]
    omega
  · rw [if_neg (by rw [hdig]; exact fun e => h (of_decide_eq_true e)), show m / 2 ^ i % 2 = 0 by omega, if_pos rfl]
    omega

theorem bit_maskOf {l : List Nat} (h : c ∈ l) : bit (maskOf l) c = true := by
  have hfold (l : List Nat) (m : Nat) (h : c ∈ l ∨ bit m c = true) :
      bit (l.foldl (fun m i => if bit m i then m else m + 2 ^ i) m) c = true := by
    induction l generalizing m with
    | nil => simpa using h
    | cons i l ih =>
      rw [List.foldl_cons, maskOf_step]
      refine ih _ ?_
      rcases h with h | h
      · rcases List.mem_cons.1 h with rfl | h
        · exact .inr (bit_setBit_self ..)
        · exact .inl h
      · exact .inr (bit_setBit_of h)
  exact hfold l 0 (.inl h)

/-- ARM where a channel fails a condition: none is armed, and FAILMASK names it. -/
theorem State.rfxArmAll_of_fails {rearm : Bool} {mask : Nat} (hc : c < 32) (hbit : bit mask c = true) (hfail : s.armable rearm c = false) :
    ∃ m, s.rfxArmAll rearm mask = s.rfxAnswer .badDescriptor m ∧ bit (m % 2 ^ 32) c = true := by
  have hmem : c ∈ (maskList 32 mask).filter (fun c => !s.armable rearm c) := List.mem_filter.2 ⟨mem_maskList.2 ⟨hc, hbit⟩, by simp [hfail]⟩
  have hne : ((maskList 32 mask).filter (fun c => !s.armable rearm c)).isEmpty = false := by
    simpa using List.ne_nil_of_mem hmem
  refine ⟨_, ?_, (bit_mod_two_pow hc _).trans (bit_maskOf (List.mem_append_left
    ((maskList 32 mask).filter (fun c => !s.safeAllows c)) hmem))⟩
  unfold State.rfxArmAll
  simp only [hne]
  rfl

/-! ## Bank swaps (R327) -/

theorem State.swapPend_foldl {l : List Nat} (hl : ∀ c ∈ l, c < 32) (hc : c < 32) (s : State) :
    (l.foldl (fun st c => st.set AGT_RFX_CH_STAT.SWAP_PEND c 1) s).isSet AGT_RFX_CH_STAT.SWAP_PEND c = true ↔
      c ∈ l ∨ s.isSet AGT_RFX_CH_STAT.SWAP_PEND c = true := by
  induction l generalizing s with
  | nil => simp
  | cons d l ih =>
    rw [List.foldl_cons, ih (fun e he => hl e (List.mem_cons_of_mem _ he)), List.mem_cons]
    by_cases hcd : c = d
    · subst d
      have hset : (s.set AGT_RFX_CH_STAT.SWAP_PEND c 1).isSet AGT_RFX_CH_STAT.SWAP_PEND c = true :=
        congrArg (· == 1) (State.get_set_self ..)
      simp [hset]
    · have hkey : AGT_RFX_CH_STAT.SWAP_PEND.key 4 c ≠ AGT_RFX_CH_STAT.SWAP_PEND.key 4 d := by
        have hd := hl d List.mem_cons_self
        rw [Fld.key_eq, Fld.key_eq]
        simp only [AGT_RFX_CH_STAT.SWAP_PEND, Nat.mod_eq_of_lt hc, Nat.mod_eq_of_lt hd, Nat.div_eq_of_lt hc, Nat.div_eq_of_lt hd]
        omega
      have hset : (s.set AGT_RFX_CH_STAT.SWAP_PEND d 1).isSet AGT_RFX_CH_STAT.SWAP_PEND c = s.isSet AGT_RFX_CH_STAT.SWAP_PEND c :=
        congrArg (· == 1) (State.get_set_ne hkey)
      rw [hset]
      simp [hcd]

/-- What a sample boundary writes of a channel beside its bank. -/
def Fld.offBoundary (g : Fld) : Bool :=
  [AGT_RFX_CH_STAT.U, AGT_RFX_CH_STAT.THR_HI, AGT_RFX_CH_STAT.THR_LO, AGT_RFX_CH_STAT.CB_NOW, AGT_RFX_CH_STAT.DESAT_NOW,
   BRL_CH_THRESH.HI, BRL_CH_THRESH.LO, BRL_CH_CB.CODE, BRL_CH_TRIM.HI_OFS, BRL_CH_TRIM.LO_OFS, BRL_CH_TRIM.CB_OFS,
   AGT_RFX_TELCNT.LOST].all g.apart

theorem State.agreesOn_rfxSetPoint {g : Fld} (h : g.apart AGT_RFX_CH_STAT.U = true) (s : State) (c : Nat) (v : Int) :
    State.agreesOn g s (s.rfxSetPoint c v) := by
  unfold State.rfxSetPoint
  extract_lets x src s1
  have hs1 : State.agreesOn g s s1 := State.agreesOn_of_regs rfl
  split
  · split
    · exact (State.agreesOn_of_regs (t := s.setRfx c _) rfl).trans (State.agreesOn_setO h _ _ _)
    · exact State.agreesOn_of_regs rfl
  · split
    · exact hs1
    · exact hs1.trans (State.agreesOn_setO h _ _ _)

theorem State.agreesOn_rfxToBeryl {g : Fld} (h : g.offBoundary = true) (s : State) (c : Nat) : State.agreesOn g s (s.rfxToBeryl c) := by
  simp only [Fld.offBoundary, List.all_cons, List.all_nil, Bool.and_true, Bool.and_eq_true] at h
  obtain ⟨-, -, -, -, -, hhi, hlo, hcb, hth, htl, htc, -⟩ := h
  have hdacs : State.agreesOn g s (s.rfxDacs c) := by
    unfold State.rfxDacs
    split
    · exact State.agreesOn_refl g s
    · exact ((State.agreesOn_setO hhi _ _ _).trans (State.agreesOn_setO hlo _ _ _)).trans (State.agreesOn_setO hcb _ _ _)
  have htrim (u : State) (v : Nat) : State.agreesOn g u (u.setTrim c v) :=
    ((State.agreesOn_setO hth _ _ _).trans (State.agreesOn_setO htl _ _ _)).trans (State.agreesOn_setO htc _ _ _)
  unfold State.rfxToBeryl
  split
  · exact State.agreesOn_refl g s
  · dsimp only
    split
    · exact hdacs
    · exact (hdacs.trans (htrim _ _)).trans (State.agreesOn_of_regs rfl)

/-- The change of a bank that was requested. -/
def State.rfxSwapBank (s : State) (c : Nat) : State :=
  if s.isSet AGT_RFX_CH_STAT.SWAP_PEND c then
    (s.set AGT_RFX_CH_STAT.BANK c (1 - s.get AGT_RFX_CH_STAT.BANK c)).set AGT_RFX_CH_STAT.SWAP_PEND c 0 else s

/-- A boundary changes banks first, and neither the bank nor the request after that. -/
theorem State.agreesOn_rfxBoundary {g : Fld} (h : g.offBoundary = true) (s : State) (c : Nat) (sp v : Int) (desat : Bool) :
    State.agreesOn g (s.rfxSwapBank c) (s.rfxBoundary c sp v desat) := by
  have hall := h
  simp only [Fld.offBoundary, List.all_cons, List.all_nil, Bool.and_true, Bool.and_eq_true] at h
  obtain ⟨hu, hthi, htlo, hcb, hde, -, -, -, -, -, -, hlost⟩ := h
  unfold State.rfxBoundary
  extract_lets swap s1 s2 band s3 src s4 s5 s6 s7 s8 x
  have h2 : State.agreesOn g (s.rfxSwapBank c) s2 := State.agreesOn_rfxSetPoint hu s1 c sp
  have h3 : State.agreesOn g s2 s3 := ((State.agreesOn_setO hthi _ _ _).trans (State.agreesOn_setO htlo _ _ _)).trans (State.agreesOn_rfxToBeryl hall _ c)
  have h5 : State.agreesOn g s4 s5 := by
    unfold s5
    split
    · exact State.agreesOn_refl g s4
    · exact State.agreesOn_setO hcb _ _ _
  have h7 : State.agreesOn g s6 s7 := by
    unfold s7
    split
    · exact State.agreesOn_rfxRecord hlost s6 c 5 0
    · exact State.agreesOn_refl g s6
  have h8 : State.agreesOn g (s.rfxSwapBank c) s7 :=
    (((h2.trans h3).trans (State.agreesOn_of_regs rfl : State.agreesOn g s3 s4)).trans h5).trans ((State.agreesOn_setO hde _ _ _ : State.agreesOn g s5 s6).trans h7)
  split
  · exact h8.trans (State.agreesOn_of_regs rfl)
  · exact h8

/-- Settles O37. -/
theorem reflexCommands : Obligations.ReflexCommands := by
  intro s src mask hs hon hr
  have hcmd (op : Nat) : s.rfxCmdWrite src op mask = s.rfxCommand op mask := if_pos hr
  refine ⟨fun hq hlock => ⟨fun h => ?_, fun h => ?_, fun hsp c hc hbit hfail => ?_⟩, ?_, fun hr' => ?_, fun sps vms desat => ?_,
    fun c sp v desat hc hswap => ?_⟩
  · obtain ⟨hstate, hstatus, hmask⟩ := armAll_effect (rearm := false) hq hlock h
    exact ⟨_, (State.onClock_of hs).trans (congrArg Outcome.next (hcmd 1)), hstate, hstatus, hmask⟩
  · obtain ⟨hstate, hstatus, -⟩ := armAll_effect (rearm := true) hq hlock h
    exact ⟨_, (State.onClock_of hs).trans (congrArg Outcome.next (hcmd 3)), hstate, hstatus⟩
  · obtain ⟨m, hall, hm⟩ := State.rfxArmAll_of_fails (rearm := false) hc hbit hfail
    obtain ⟨hstatus, hmask, hstate⟩ := s.rfxAnswer_parts .badDescriptor m
    have hcommand : s.rfxCommand 1 mask = s.rfxAnswer .badDescriptor m := by
      have hquiet : (maskList 32 mask).foldl State.rfxAhead s = s :=
        State.foldl_rfxAhead_of_quiet hq fun d hd => hsp d (mem_maskList.1 hd).1 (mem_maskList.1 hd).2
      have hlocked : (s.rfxAnswer .badDescriptor m).isSet AGT_PWR_CLKSTAT.RELOCK 0 = false := by
        unfold State.rfxAnswer
        rw [State.isSet_set_apart (by decide), State.isSet_set_apart (by decide)]
        exact hlock
      unfold State.rfxCommand
      dsimp only
      rw [hquiet, hall]
      exact State.relockDisarm_of_locked hlocked
    refine ⟨_, (State.onClock_of hs).trans (congrArg Outcome.next ((hcmd 1).trans hcommand)), hstatus, ?_,
      (State.rfxAnswer_within (k := 2) rfl (.refl _ s)).sameBut (by decide), fun d _ => hstate d⟩
    rw [hmask]
    exact hm
  · have hl : ∀ c ∈ maskList 32 mask, c < 32 := fun c hc => (mem_maskList.1 hc).1
    obtain ⟨hstatus, -, hstate⟩ := ((maskList 32 mask).foldl (fun st c => st.rfxDisarm c) ((maskList 32 mask).foldl State.rfxAhead s)).rfxAnswer_parts .ok 0
    refine ⟨_, (State.onClock_of hs).trans (congrArg Outcome.next (hcmd 2)), fun c hc => ?_, hstatus⟩
    refine (hstate c).trans ((State.rfxState_foldl_rfxDisarm hl hc _).trans ?_)
    by_cases hbit : bit mask c = true
    · rw [if_pos (mem_maskList.2 ⟨hc, hbit⟩), if_pos hbit]
    · have hnot : c ∉ maskList 32 mask := fun h => hbit (mem_maskList.1 h).2
      rw [if_neg hnot, if_neg hbit]
      exact State.rfxState_foldl_rfxAhead hl hc hnot s
  · refine ⟨_, (State.onClock_of hs).trans (if_pos hr'), ?_, fun c hc => ?_⟩
    · exact (Within.foldl (k := 2) (.refl _ s) (fun _ _ hst => State.set_within (k := 2) rfl hst)).sameBut (by decide)
    · rw [State.swapPend_foldl (fun c hc => (mem_maskList.1 hc).1) hc, mem_maskList]
      simp [hc]
  · exact (State.onClock_of hs).trans (if_neg (by simp [hon]))
  · have hbank : s.rfxSwapBank c = _ := if_pos hswap
    constructor
    · rw [(State.agreesOn_rfxBoundary (by decide) s c sp v desat).get, hbank, State.get_set_apart (by decide), State.get_set_self]
      exact Nat.mod_eq_of_lt (show 1 - _ < 2 by omega)
    · rw [(State.agreesOn_rfxBoundary (by decide) s c sp v desat).get, hbank, State.get_set_self]
      rfl

end Sys2Proof.Machine
end

section
/-! PROOFS. The servo, the time registers and transmit timestamps (O38, O39). -/

namespace Sys2Proof.Machine

open Host Reg

variable {s : State} {src : Src} {theta : Int}

/-! ## What the interrupt and the record of a sample leave -/

theorem State.timeIrq_regs (s : State) : s.timeIrq.regs = s.regs := (State.timeIrq_within (k := 1024) rfl (.refl _ s)).parts .regs rfl

theorem State.timeIrq_time (s : State) : s.timeIrq.time = s.time := (State.timeIrq_within (k := 1024) rfl (.refl _ s)).parts .time rfl

theorem State.get_timeIrq (s : State) (g : Fld) (i : Nat) : s.timeIrq.get g i = s.get g i := State.getO_congr s.timeIrq_regs g 4 i

theorem State.noteSample_time (s : State) (theta : Int) : (s.noteSample theta).time = { s.time with lastSample := s.time.now } := by
  unfold State.noteSample
  dsimp only
  split <;> rfl

theorem State.get_noteSample {g : Fld} (h : g.apart AGT_TIME_SAMPLE.THETA = true) (h' : g.apart AGT_TIME_SAMPLE.COUNT = true)
    (s : State) (theta : Int) (i : Nat) : (s.noteSample theta).get g i = s.get g i := by
  unfold State.noteSample
  extract_lets fits d s1
  have hdraw : d.2.regs = s.regs := by
    unfold d
    split <;> rfl
  exact ((State.get_set_apart h').trans (State.get_set_apart h)).trans (State.getO_congr hdraw g 4 i)

theorem State.obj_noteSample (s : State) (theta : Int) (d idx sub : Nat) : (s.noteSample theta).obj d idx sub = s.obj d idx sub := by
  unfold State.obj
  rw [(State.noteSample_within (k := 16387) rfl (.refl _ s)).parts .dict rfl]

/-! ## Effects of a sample (R345) -/

theorem State.get_stepOffset_offset (s : State) (theta : Int) :
    (s.stepOffset theta).get AGT_TIME_OFFSET.OFFSET 0 = ux 64 ((s.get AGT_TIME_OFFSET.OFFSET 0 : Int) - theta) := by
  unfold State.stepOffset
  rw [State.get_timeIrq, State.get_setTime, State.get_set_apart (by decide), State.get_set_self]
  exact Nat.mod_eq_of_lt (ux_lt ..)

theorem State.get_stepOffset {g : Fld} (h : g.apart AGT_TIME_OFFSET.OFFSET = true) (h' : g.apart AGT_TIME_STATUS.STEPPED = true) (s : State)
    (theta : Int) (i : Nat) : (s.stepOffset theta).get g i = s.get g i := by
  unfold State.stepOffset
  rw [State.get_timeIrq, State.get_setTime, State.get_set_apart h', State.get_set_apart h]

theorem State.stepOffset_time (s : State) (theta : Int) : (s.stepOffset theta).time = { s.time with lockRun := 0 } := State.timeIrq_time _

theorem State.refuseSample_effect (s : State) (theta : Int) : (s.refuseSample theta).time = { s.time with heldJump := some theta } ∧
    (s.refuseSample theta).get AGT_TIME_STATUS.HELD 0 = 1 ∧
    (s.refuseSample theta).get AGT_TIME_STATUS.STATE 0 = s.get AGT_TIME_STATUS.STATE 0 ∧
    (s.refuseSample theta).get AGT_TIME_OFFSET.OFFSET 0 = s.get AGT_TIME_OFFSET.OFFSET 0 := by
  unfold State.refuseSample
  refine ⟨State.timeIrq_time _, ?_, ?_, ?_⟩
  · rw [State.get_timeIrq, State.get_setTime, State.get_set_self]
    rfl
  · rw [State.get_timeIrq, State.get_setTime, State.get_set_apart (by decide), State.get_count_apart (by decide), State.get_set_apart (by decide)]
  · rw [State.get_timeIrq, State.get_setTime, State.get_set_apart (by decide), State.get_count_apart (by decide), State.get_set_apart (by decide)]

/-- The table of R345 for a sample above the jump threshold. -/
theorem State.sample_of_jump (h : s.jumpThr < theta.natAbs) : s.sample theta =
    (match s.get AGT_TIME_STATUS.STATE 0 with
    | 1 => (s.noteSample theta).stepOffset theta
    | 2 => (s.noteSample theta).refuseSample theta
    | 3 => (s.noteSample theta).refuseSample theta
    | _ => s.noteSample theta) := by
  have hst := s.get_noteSample (g := AGT_TIME_STATUS.STATE) (by decide) (by decide) theta 0
  have hthr : (s.noteSample theta).jumpThr = s.jumpThr := congrArg (4 * ·) (s.obj_noteSample theta ..)
  have hbig : decide (((s.noteSample theta).jumpThr : Int) < (theta.natAbs : Nat)) = true := by
    rw [hthr]
    exact decide_eq_true (by exact_mod_cast h)
  unfold State.sample
  dsimp only
  rw [hst, hbig]
  generalize s.get AGT_TIME_STATUS.STATE 0 = st
  match st with
  | 0 => rfl
  | 1 => rfl
  | 2 => rfl
  | 3 => rfl
  | _ + 4 => rfl

/-- The run of samples within the lock threshold, this one included. -/
def State.lockRunWith (s : State) (theta : Int) : Nat := if theta.natAbs ≤ s.lockThr then s.time.lockRun + 1 else 0

/-- The table of R345 for a sample that is no jump. -/
theorem State.sample_of_small (h : theta.natAbs ≤ s.jumpThr) : s.sample theta =
    (match s.get AGT_TIME_STATUS.STATE 0 with
    | 1 =>
      let s1 := (s.noteSample theta).feed theta
      let s2 := s1.setTime { s1.time with lockRun := s.lockRunWith theta }
      if s.lockN ≤ s.lockRunWith theta then s2.set AGT_TIME_STATUS.STATE 0 2 else s2
    | 2 => (s.noteSample theta).feed theta
    | 3 => ((s.noteSample theta).feed theta).set AGT_TIME_STATUS.STATE 0 2
    | _ => s.noteSample theta) := by
  have hst := s.get_noteSample (g := AGT_TIME_STATUS.STATE) (by decide) (by decide) theta 0
  have hthr : (s.noteSample theta).jumpThr = s.jumpThr := congrArg (4 * ·) (s.obj_noteSample theta ..)
  have hlock : (s.noteSample theta).lockThr = s.lockThr := congrArg (4 * ·) (s.obj_noteSample theta ..)
  have hn : (s.noteSample theta).lockN = s.lockN := s.obj_noteSample theta ..
  have hrun : (s.noteSample theta).time.lockRun = s.time.lockRun := by rw [State.noteSample_time]
  have hbig : decide (((s.noteSample theta).jumpThr : Int) < (theta.natAbs : Nat)) = false := by
    rw [hthr]
    exact decide_eq_false (by push Not; exact_mod_cast h)
  unfold State.sample
  dsimp only
  rw [hst, hbig, hlock, hn, hrun]
  generalize s.get AGT_TIME_STATUS.STATE 0 = st
  match st with
  | 0 => rfl
  | 1 => rfl
  | 2 => rfl
  | 3 => rfl
  | _ + 4 => rfl

/-- No sample takes an event from those that wait. -/
theorem State.sample_waiting (s : State) (theta : Int) : (s.sample theta).time.waiting = s.time.waiting := by
  have hnote : (s.noteSample theta).time.waiting = s.time.waiting := by rw [State.noteSample_time]
  by_cases h : s.jumpThr < theta.natAbs
  · rw [State.sample_of_jump h]
    split
    · rw [State.stepOffset_time]
      exact hnote
    · rw [(State.refuseSample_effect _ theta).1]
      exact hnote
    · rw [(State.refuseSample_effect _ theta).1]
      exact hnote
    · exact hnote
  · rw [State.sample_of_small (Nat.not_lt.1 h)]
    split
    · dsimp only
      split <;> exact hnote
    · exact hnote
    · exact hnote
    · exact hnote

/-! ## The order of R346 -/

theorem State.servoNext_of_none (h : s.time.waiting = []) : s.servoNext = s := by
  unfold State.servoNext
  simp only [h, List.filter_nil, List.foldl_nil, List.foldl_cons]

/-- An event with none before it takes its turn; nothing waits for it. -/
theorem State.servoTurn_now {c : Instr} {k : Nat} (hc : servoPlace c = some k) (hb : s.servoBehind k = false)
    (hw : (s.servoAct c).time.waiting = []) : s.servoTurn c = s.servoAct c := by
  unfold State.servoTurn
  rw [hc]
  dsimp only
  rw [if_neg (by simp [hb]), State.servoNext_of_none hw]

theorem State.servoTurn_behind {c : Instr} {k : Nat} (hc : servoPlace c = some k) (hb : s.servoBehind k = true) :
    s.servoTurn c = s.setTime { s.time with waiting := s.time.waiting ++ [c] } := by
  unfold State.servoTurn
  rw [hc]
  dsimp only
  rw [if_pos hb]

theorem State.takeSample_of_rebased (h : s.time.rebased = some s.time.now) : s.takeSample theta = s := if_pos h

theorem State.takeSample_of (h : s.time.rebased ≠ some s.time.now) : s.takeSample theta = s.sample theta := if_neg h

/-! ## Writes of MASTER and ACCEPT (R345) -/

theorem State.get_holdRate {g : Fld} (h : g.apart AGT_TIME_RATE.RATE = true) (s : State) (i : Nat) : s.holdRate.get g i = s.get g i := by
  unfold State.holdRate
  rw [State.get_setTime, State.get_set_apart h]

theorem State.masterStore_effect (s : State) (val : Nat) :
    (s.masterStore val).get AGT_TIME_MASTER.CLOCK_ID 0 = val % 2 ^ 64 ∧ (s.masterStore val).time.lastAccepted = none ∧
    (s.masterStore val).time.waiting = s.time.waiting ∧
    (val % 2 ^ 64 ≠ s.get AGT_TIME_MASTER.CLOCK_ID 0 → s.get AGT_TIME_STATUS.STATE 0 = 1 ∨ s.get AGT_TIME_STATUS.STATE 0 = 2 →
      (s.masterStore val).get AGT_TIME_STATUS.STATE 0 = 3 ∧ (s.masterStore val).get AGT_TIME_STATUS.MASTER_CHG 0 = 1) := by
  unfold State.masterStore
  extract_lets changed s1 time s2 st
  have hid : s2.get AGT_TIME_MASTER.CLOCK_ID 0 = val % 2 ^ 64 := State.get_set_self ..
  split
  · have htime : ((s2.set AGT_TIME_STATUS.STATE 0 3).set AGT_TIME_STATUS.MASTER_CHG 0 1).holdRate.timeIrq.time = _ := State.timeIrq_time _
    refine ⟨?_, congrArg TimeUnit.lastAccepted htime, (by rw [htime]; rfl), fun _ _ => ⟨?_, ?_⟩⟩
    · rw [State.get_timeIrq, State.get_holdRate (by decide), State.get_set_apart (by decide), State.get_set_apart (by decide)]
      exact hid
    · rw [State.get_timeIrq, State.get_holdRate (by decide), State.get_set_apart (by decide), State.get_set_self]
      rfl
    · rw [State.get_timeIrq, State.get_holdRate (by decide), State.get_set_self]
      rfl
  · rename_i hnot
    refine ⟨hid, rfl, rfl, fun hne hst => absurd ?_ hnot⟩
    have hchanged : changed = true := by simpa [changed] using hne
    have hold : (st == 1 || st == 2) = true := by
      rcases hst with h | h <;> simp [st, h]
    rw [hchanged, hold]
    rfl

theorem State.acceptJump_effect {j : Int} (hj : s.time.heldJump = some j) (hm : s.get AGT_TIME_CTRL.MODE 0 % 2 = 1)
    (hst : s.get AGT_TIME_STATUS.STATE 0 = 2 ∨ s.get AGT_TIME_STATUS.STATE 0 = 3) :
    s.acceptJump.get AGT_TIME_OFFSET.OFFSET 0 = ux 64 ((s.get AGT_TIME_OFFSET.OFFSET 0 : Int) - j) ∧
    s.acceptJump.get AGT_TIME_STATUS.STATE 0 = 1 ∧ s.acceptJump.get AGT_TIME_STATUS.HELD 0 = 0 ∧ s.acceptJump.time.heldJump = none ∧
    s.acceptJump.time.waiting = s.time.waiting := by
  have hwait : (s.stepOffset j).time.waiting = s.time.waiting := by rw [State.stepOffset_time]
  unfold State.acceptJump
  rw [hj]
  dsimp only
  rw [if_neg (by omega), if_pos hst]
  refine ⟨?_, ?_, State.get_set_self .., rfl, hwait⟩
  · rw [State.get_set_apart (by decide), State.get_setTime, State.get_set_apart (by decide)]
    exact s.get_stepOffset_offset j
  · rw [State.get_set_apart (by decide), State.get_setTime, State.get_set_self]
    rfl

/-- A sample in state 1 beyond the jump threshold steps OFFSET; in states 2 and 3 it is held. -/
theorem State.sample_jump (h : s.jumpThr < theta.natAbs) : let st := s.get AGT_TIME_STATUS.STATE 0
    (st = 1 → (s.sample theta).get AGT_TIME_STATUS.STATE 0 = 1 ∧ (s.sample theta).time.lockRun = 0 ∧
      (s.sample theta).get AGT_TIME_OFFSET.OFFSET 0 = ux 64 ((s.get AGT_TIME_OFFSET.OFFSET 0 : Int) - theta)) ∧
    (st = 2 ∨ st = 3 → (s.sample theta).get AGT_TIME_STATUS.STATE 0 = st ∧ (s.sample theta).time.heldJump = some theta ∧
      (s.sample theta).get AGT_TIME_STATUS.HELD 0 = 1 ∧
      (s.sample theta).get AGT_TIME_OFFSET.OFFSET 0 = s.get AGT_TIME_OFFSET.OFFSET 0) := by
  intro st
  have hnst := s.get_noteSample (g := AGT_TIME_STATUS.STATE) (by decide) (by decide) theta 0
  have hnof := s.get_noteSample (g := AGT_TIME_OFFSET.OFFSET) (by decide) (by decide) theta 0
  rw [State.sample_of_jump h]
  refine ⟨fun h1 => ?_, fun h23 => ?_⟩
  · rw [show s.get AGT_TIME_STATUS.STATE 0 = 1 from h1]
    exact ⟨((State.get_stepOffset (by decide) (by decide) _ theta 0).trans hnst).trans h1,
      congrArg TimeUnit.lockRun (State.stepOffset_time _ theta), hnof ▸ State.get_stepOffset_offset _ theta⟩
  · obtain ⟨htime, hheld, hstate, hoff⟩ := (s.noteSample theta).refuseSample_effect theta
    have hall : ((s.noteSample theta).refuseSample theta).get AGT_TIME_STATUS.STATE 0 = st ∧
        ((s.noteSample theta).refuseSample theta).time.heldJump = some theta ∧
        ((s.noteSample theta).refuseSample theta).get AGT_TIME_STATUS.HELD 0 = 1 ∧
        ((s.noteSample theta).refuseSample theta).get AGT_TIME_OFFSET.OFFSET 0 = s.get AGT_TIME_OFFSET.OFFSET 0 :=
      ⟨hstate.trans hnst, congrArg TimeUnit.heldJump htime, hheld, hoff.trans hnof⟩
    rcases h23 with h2 | h3
    · rw [show s.get AGT_TIME_STATUS.STATE 0 = 2 from h2]
      exact hall
    · rw [show s.get AGT_TIME_STATUS.STATE 0 = 3 from h3]
      exact hall

/-- A sample that is no jump: acquisition counts its run to LOCK_N, HOLDOVER ends. -/
theorem State.sample_small (h : theta.natAbs ≤ s.jumpThr) : let st := s.get AGT_TIME_STATUS.STATE 0
    (st = 1 → (s.sample theta).time.lockRun = s.lockRunWith theta ∧
      (s.sample theta).get AGT_TIME_STATUS.STATE 0 = (if s.lockN ≤ s.lockRunWith theta then 2 else 1)) ∧
    (st = 2 ∨ st = 3 → (s.sample theta).get AGT_TIME_STATUS.STATE 0 = 2) := by
  intro st
  have hnst : (s.noteSample theta).get AGT_TIME_STATUS.STATE 0 = st := s.get_noteSample (by decide) (by decide) theta 0
  have hsample := State.sample_of_small h
  refine ⟨fun h1 => ?_, fun h23 => ?_⟩
  · rw [show s.get AGT_TIME_STATUS.STATE 0 = 1 from h1] at hsample
    by_cases hn : s.lockN ≤ s.lockRunWith theta
    · rw [hsample.trans (if_pos hn), if_pos hn]
      exact ⟨rfl, State.get_set_self ..⟩
    · rw [hsample.trans (if_neg hn), if_neg hn]
      exact ⟨rfl, hnst.trans h1⟩
  · rw [hsample]
    rcases h23 with h2 | h3
    · rw [show s.get AGT_TIME_STATUS.STATE 0 = 2 from h2]
      exact hnst.trans h2
    · rw [show s.get AGT_TIME_STATUS.STATE 0 = 3 from h3]
      exact State.get_set_self ..

/-- Settles O38. -/
theorem servoStates : Obligations.ServoStates := by
  intro s src hs hw
  refine ⟨fun val hwr hmode hb hr => ?_, fun t2 t1 corr hmode hrel hb hr => ?_, fun theta => ⟨State.sample_jump, State.sample_small⟩,
    fun hst hlate => ?_, fun val hwr hb => ?_, fun j hwr hb hj hm hst => ?_, fun val hwr => ⟨fun hb hr => ?_, fun hb => ?_⟩⟩
  · have hact : s.servoAct (.swsample src val) = s.sample (sx 32 val) := (if_pos hmode).trans (State.takeSample_of hr)
    refine (State.onClock_of hs).trans (congrArg Outcome.next ?_)
    rw [if_pos hwr, State.servoTurn_now rfl hb (by rw [hact, State.sample_waiting, hw]), hact]
  · have hact : s.servoAct (.ptpSample (s.get AGT_TIME_CTRL.SRC_PORT 0) (s.get AGT_TIME_MASTER.CLOCK_ID 0) (s.get AGT_TIME_CTRL.DOMAIN 0)
        t2 t1 corr) = s.sample (sx 64 (ux 64 ((t2 : Int) - ((t1 : Int) + corr) - (s.get AGT_TIME_PATHDLY.DELAY 0 : Int)))) :=
      (if_neg (by simp [hmode, hrel])).trans (State.takeSample_of hr)
    refine (State.onClock_of hs).trans (congrArg Outcome.next ?_)
    rw [State.servoTurn_now rfl hb (by rw [hact, State.sample_waiting, hw]), hact]
  · exact (State.onClock_of hs).trans (if_pos (by simp [hst, hlate]))
  · obtain ⟨hid, hlast, hwait, hchg⟩ := s.masterStore_effect val
    have hexec : exec (.masterWrite src val) s = .next (s.masterStore val) := by
      refine (State.onClock_of hs).trans (congrArg Outcome.next ?_)
      rw [if_pos hwr]
      exact State.servoTurn_now rfl hb (hwait.trans hw)
    exact ⟨_, hexec, hid, hlast, hchg⟩
  · obtain ⟨hoff, hstate, hheld, hjump, hwait⟩ := State.acceptJump_effect hj hm hst
    have hexec : exec (.accept src) s = .next s.acceptJump := by
      refine (State.onClock_of hs).trans (congrArg Outcome.next ?_)
      rw [if_pos hwr]
      exact State.servoTurn_now rfl hb (hwait.trans hw)
    exact ⟨_, hexec, hoff, hstate, hheld, hjump⟩
  · have hact : s.servoAct (.swsample src val) = s := by
      have hsw : s.servoAct (.swsample src val) = s.swTake val := rfl
      rw [hsw]
      unfold State.swTake
      rw [State.takeSample_of_rebased hr, ite_self]
    refine (State.onClock_of hs).trans (congrArg Outcome.next ?_)
    rw [if_pos hwr, State.servoTurn_now rfl hb (by rw [hact, hw]), hact]
  · refine (State.onClock_of hs).trans (congrArg Outcome.next ?_)
    rw [if_pos hwr, State.servoTurn_behind rfl hb, hw]
    rfl

/-! ## Time registers (R340, R343, R348) -/

/-- MODE stands first in the order of R346. -/
theorem State.servoBehind_one (s : State) : s.servoBehind 1 = false := by
  have hslot (o : Nat) : (slotPlace o).any (fun j => decide (j < 1)) = false := by
    unfold slotPlace
    split
    · rfl
    · split
      · rfl
      · split <;> rfl
  unfold State.servoBehind
  rw [List.any_eq_false]
  intro c _
  split
  · rw [Bool.not_eq_true, List.any_eq_false]
    exact fun w _ => by rw [hslot]; decide
  · cases c <;> simp [servoPlace]

theorem State.modeStore_effect (s : State) (val : Nat) : let t := s.modeStore val
    t.get AGT_TIME_CTRL.MODE 0 = bits val 0 2 ∧ t.get AGT_TIME_STATUS.STATE 0 = bits val 0 1 ∧ t.time.integral = 0 ∧
      t.time.lastAccepted = none ∧ t.time.rebased = some s.time.now ∧ t.time.nextRate = s.time.nextRate ∧ t.time.waiting = s.time.waiting ∧
      (bits val 27 8 ≤ 127 → t.get AGT_TIME_CTRL.DOMAIN 0 = bits val 27 8) := by
  unfold State.modeStore
  extract_lets mode s1 s2 servo time s3 s4 t
  have hcut (lo w : Nat) : bits val lo w % 2 ^ w = bits val lo w := Nat.mod_eq_of_lt (bits_lt ..)
  have hs1 : s1.get AGT_TIME_CTRL.MODE 0 = bits val 0 2 := by
    unfold s1
    simp (disch := decide) only [State.get_set_apart, State.get_set_self]
    exact hcut 0 2
  have hs2 : s2.get AGT_TIME_CTRL.MODE 0 = bits val 0 2 ∧ s2.time = s.time := by
    unfold s2
    split
    · exact ⟨(State.get_set_apart (by decide)).trans hs1, rfl⟩
    · exact ⟨(State.get_set_apart (by decide)).trans hs1, rfl⟩
  obtain ⟨hmode, htime⟩ := hs2
  have hs4 : s4.time = s3.time ∧ ∀ g : Fld, g.apart AGT_TIME_STATUS.HELD = true → s4.get g 0 = s2.get g 0 := by
    unfold s4
    split
    · exact ⟨rfl, fun g h => State.get_set_apart h⟩
    · exact ⟨rfl, fun g h => rfl⟩
  obtain ⟨htime4, hget4⟩ := hs4
  have ht : t.time = s3.time := htime4
  rw [ht]
  refine ⟨?_, ?_, rfl, rfl, rfl, (congrArg TimeUnit.nextRate htime : s2.time.nextRate = _),
    (congrArg TimeUnit.waiting htime : s2.time.waiting = _), fun hdom => ?_⟩
  · exact ((State.get_set_apart (by decide)).trans (hget4 _ (by decide))).trans hmode
  · have hservo : b2n servo % 2 ^ 2 = bits val 0 1 := by
      have hlow : bits val 0 2 % 2 = bits val 0 1 := by
        unfold bits
        omega
      unfold servo mode
      rw [hlow]
      rcases Nat.lt_succ_iff_lt_or_eq.1 (bits_lt val 0 1) with h | h
      · rw [show bits val 0 1 = 0 by omega]
        rfl
      · rw [h]
        rfl
    exact (State.get_set_self ..).trans hservo
  · refine ((State.get_set_apart (by decide)).trans (hget4 _ (by decide))).trans ?_
    unfold s2
    rw [if_neg (by omega), State.get_set_self]
    exact hcut 27 8

/-- The value of a rate within the bound of R337. -/
theorem clampI_eq {lo hi : Int} (h : lo ≤ hi) (v : Int) : clampI lo hi v = max lo (min hi v) := by
  unfold clampI
  split
  · omega
  · split <;> omega

/-! ## Transmit timestamps (R350, R351) -/

theorem State.txQueue_setTxQueue (s : State) (p : Nat) (q : List TxStamp) (gap : Bool) :
    (s.setTxQueue p q gap).txQueue p = q ∧ (s.setTxQueue p q gap).txGap p = gap := by
  unfold State.setTxQueue State.txQueue State.txGap
  by_cases h : p = 0
  · simp only [if_pos h]
    exact ⟨rfl, rfl⟩
  · simp only [if_neg h]
    exact ⟨rfl, rfl⟩

theorem State.get_setTxQueue (s : State) (p : Nat) (q : List TxStamp) (gap : Bool) (g : Fld) (i : Nat) :
    (s.setTxQueue p q gap).get g i = s.get g i := by
  unfold State.setTxQueue
  split <;> rfl

theorem exec_txtsqRead {p : Nat} {e : TxStamp} {l : List TxStamp} (hs : s.clocked = true) (hp : p < 2)
    (hr : s.reaches src 4 3 (0x100 + 32 * p) = true) (hq : s.txQueue p = e :: l) :
    ∃ t, exec (.txtsqRead src p) s = .next t ∧ t.txQueue p = l ∧ t.get AGT_TIME_TXTSV.TIME p = e.time % 2 ^ 64 ∧
      t.out = s.out ++ [.value (e.tsid + 2 ^ 16 + b2n e.gap * 2 ^ 17 + (l.length + 1) * 2 ^ 18)] ∧ s.sameBut [.regs, .time, .out] t := by
  have hexec : exec (.txtsqRead src p) s = _ := State.onClock_of hs
  rw [if_neg (by omega), if_neg (by simp [hr]), hq] at hexec
  have hout : (s.setTxQueue p l (s.txGap p)).out = s.out := (State.setTxQueue_within (k := 16384) rfl (.refl _ s)).parts .out rfl
  refine ⟨_, hexec, (s.txQueue_setTxQueue p l (s.txGap p)).1, State.get_set_self .., congrArg (· ++ [_]) hout, ?_⟩
  exact (State.emit_within (k := 17410) rfl (State.set_within (k := 17410) rfl (State.setTxQueue_within (k := 17410) rfl (.refl _ s))) _).sameBut
    (by decide)

theorem State.stampTx_effect (s : State) (p id : Nat) :
    ((s.txQueue p).length < 16 → ∃ e, (s.stampTx p id).txQueue p = s.txQueue p ++ [e] ∧ e.tsid = id % 2 ^ 16 ∧ e.gap = s.txGap p ∧
      e.time = ux 64 ((s.ptp : Int) + sx 32 (s.obj 0 (0x2810 + p) 1))) ∧
    (16 ≤ (s.txQueue p).length → (s.stampTx p id).txQueue p = s.txQueue p ∧ (s.stampTx p id).txGap p = true ∧
      (s.stampTx p id).get AGT_TIME_TXTSCNT.LOST p = min (s.get AGT_TIME_TXTSCNT.LOST p + 1) (2 ^ AGT_TIME_TXTSCNT.LOST.width - 1)) := by
  unfold State.stampTx
  refine ⟨fun h => ?_, fun h => ?_⟩
  · dsimp only
    rw [if_neg (by omega)]
    exact ⟨_, (s.txQueue_setTxQueue p _ false).1, rfl, rfl, rfl⟩
  · dsimp only
    rw [if_pos h]
    obtain ⟨hqueue, hgap⟩ := (s.count AGT_TIME_TXTSCNT.LOST p 1).txQueue_setTxQueue p (s.txQueue p) true
    refine ⟨hqueue, hgap, ?_⟩
    rw [State.get_setTxQueue]
    exact (State.get_set_self ..).trans (Nat.mod_eq_of_lt (by unfold satAdd; have := Nat.two_pow_pos AGT_TIME_TXTSCNT.LOST.width; omega))

/-- What leaves the port by a descriptor, written out. -/
theorem State.txSent_txFetch (s : State) (p d next : Nat) :
    let w := if bit d 78 then (s, s.hostRead (bits d 0 64) (bits d 64 14)) else s.agateRead (bits d 0 52) (bits d 64 14)
    (s.txFetch d).1.txSent p d next (s.txFetch d).2 =
      (((if bit d 79 then w.1.stampTx p (bits d 80 16) else w.1).emit (.eth p w.2)).set AGT_NET_TXHEAD.HEAD p next).netIrq p := rfl

/-- The descriptor at the head of the transmit ring of a port, read. -/
def State.txDescriptor (s : State) (p : Nat) : State × List Byte :=
  s.agateRead (glob (s.get AGT_NET_TXRING.NODE p) (4096 * s.get AGT_NET_TXRING.BASE p + 32 * s.get AGT_NET_TXHEAD.HEAD p)) 32

theorem exec_txTimestampPoint {p : Nat} (hs : s.clocked = true) (hon : s.netOn p = true) (hne : s.get AGT_NET_TXHEAD.HEAD p ≠ s.get AGT_NET_TXDB.TAIL p) :
    let head := s.get AGT_NET_TXHEAD.HEAD p
    let q := s.agateRead (glob (s.get AGT_NET_TXRING.NODE p) (4096 * s.get AGT_NET_TXRING.BASE p + 32 * head)) 32
    let d := leVal q.2
    let w := if bit d 78 then (q.1, q.1.hostRead (bits d 0 64) (bits d 64 14)) else q.1.agateRead (bits d 0 52) (bits d 64 14)
    exec (.txTimestampPoint p) s =
      .next (((((if bit d 79 then w.1.stampTx p (bits d 80 16) else w.1).emit (.eth p w.2)).set AGT_NET_TXHEAD.HEAD p
        ((head + 1) % (s.get AGT_NET_TXRING.DEPTH_M1 p + 1))).netIrq p)) := by
  have hexec : exec (.txTimestampPoint p) s = .next (let q := s.txDescriptor p
      (q.1.txFetch (leVal q.2)).1.txSent p (leVal q.2) ((s.get AGT_NET_TXHEAD.HEAD p + 1) % (s.get AGT_NET_TXRING.DEPTH_M1 p + 1))
        (q.1.txFetch (leVal q.2)).2) :=
    (State.onClock_of hs).trans (if_neg (by simp [hon, hne]))
  exact hexec.trans (congrArg Outcome.next (State.txSent_txFetch _ p _ _))

/-- Settles O39. -/
theorem timeRegistersAndTimestamps : Obligations.TimeRegistersAndTimestamps := by
  refine ⟨fun s src val hs => ⟨fun hr => ?_, fun hw hwait => ?_, fun hw hm => ?_, fun hw hm => ?_, fun hw hw' hm => ⟨?_, ?_⟩, fun hpps => ?_⟩,
    fun s src p hs hp => ⟨fun hr => ⟨fun hq => ?_, fun e l hq => exec_txtsqRead hs hp hr hq⟩, fun id => s.stampTx_effect p id,
      fun hon hne => ?_⟩⟩
  · exact (State.onClock_of hs).trans (congrArg Outcome.next (if_pos hr))
  · obtain ⟨hmode, hstate, hint, hlast, hreb, hnext, hwt, hdom⟩ := s.modeStore_effect val
    have hexec : exec (.modeWrite src val) s = .next (s.modeStore val) := by
      refine (State.onClock_of hs).trans (congrArg Outcome.next ?_)
      rw [if_pos hw]
      exact State.servoTurn_now rfl s.servoBehind_one (hwt.trans hwait)
    exact ⟨_, hexec, hmode, hstate, hint, hlast, hreb, hnext, hdom, (State.modeStore_within (k := 16386) rfl (.refl _ s)).sameBut (by decide)⟩
  · have hexec : exec (.rateWrite src val) s = _ := State.onClock_of hs
    rw [if_neg (by simp [hw]), if_neg (by omega)] at hexec
    refine ⟨_, hexec, ?_, (State.set_within (k := 2) rfl (.refl _ s)).sameBut (by decide)⟩
    have hbound : 0 ≤ s.rateBound := Int.natCast_nonneg _
    refine (State.get_set_self ..).trans ((Nat.mod_eq_of_lt (ux_lt ..)).trans (congrArg (ux 32) (clampI_eq (by omega) _)))
  · have hexec : exec (.adjWrite src val) s = _ := State.onClock_of hs
    rw [if_neg (by simp [hw]), if_neg (by omega)] at hexec
    exact ⟨_, hexec, State.get_set_self .., (State.set_within (k := 2) rfl (.refl _ s)).sameBut (by decide)⟩
  · refine (State.onClock_of hs).trans ?_
    rw [if_neg (by simp [hw]), if_pos hm]
    rfl
  · refine (State.onClock_of hs).trans ?_
    rw [if_neg (by simp [hw']), if_pos hm]
    rfl
  · intro second
    refine ⟨fun hsec hlast => ?_, fun hlast => ?_⟩
    · refine (State.onClock_of hs).trans (congrArg Outcome.next (if_pos ?_))
      have hon : s.onSecond = true := by
        unfold State.onSecond
        rw [decide_eq_true hsec, Bool.true_and, bne_iff_ne]
        exact hlast
      rw [hpps, hon]
      rfl
    · refine (State.onClock_of hs).trans (congrArg Outcome.next (if_neg ?_))
      have hoff : s.onSecond = false := by
        unfold State.onSecond
        rw [hlast]
        simp [second, State.second]
      simp [hoff]
  · refine (State.onClock_of hs).trans ?_
    rw [if_neg (by omega), if_neg (by simp [hr]), hq]
  · exact exec_txTimestampPoint hs hon hne

end Sys2Proof.Machine
end

section
/-! PROOFS. The root PLL, issue caps, the power loop and the thermal control (O40, O41). -/

namespace Sys2Proof.Machine

open Host Reg

variable {s : State} {n : Nat}

/-! ## Instances of one field -/

theorem Fld.key_ne_of_index {f : Fld} {m i j : Nat} (hs : 0 < f.stride) (hi : i < f.count) (hj : j < f.count) (hne : i ≠ j) :
    f.key m i ≠ f.key m j := by
  rw [Fld.key_eq, Fld.key_eq, Nat.mod_eq_of_lt hi, Nat.mod_eq_of_lt hj, Nat.div_eq_of_lt hi, Nat.div_eq_of_lt hj]
  intro h
  exact hne (Nat.eq_of_mul_eq_mul_left (show 0 < 8 * f.stride by omega) (by omega))

theorem Fld.key_ne_of_die {f : Fld} {m : Nat} (hf : f.die = .onyx) (hne : m ≠ n) : f.key m 0 ≠ f.key n 0 := by
  have hnode (k : Nat) : f.node k = k := by
    unfold Fld.node
    rw [hf]
  rw [Fld.key_eq, Fld.key_eq, hnode, hnode]
  omega

/-- What a run over indexed entries leaves of a reading that only the entry of index `i` writes. -/
theorem foldl_zipIdx_at {α β : Type} {f : State → α × Nat → State} {φ : State → β} {i : Nat} {e : α} {b : β} {l : List α}
    (hset : ∀ st, φ (f st (e, i)) = b) (hkeep : ∀ st x j, j < l.length → j ≠ i → φ (f st (x, j)) = φ st)
    (hl : l[i]? = some e) (s : State) : φ (l.zipIdx.foldl f s) = b := by
  have hafter (l' : List α) (k : Nat) (hk : i < k) (hlen : k + l'.length ≤ l.length) (st : State) :
      φ ((l'.zipIdx k).foldl f st) = φ st := by
    induction l' generalizing k st with
    | nil => rfl
    | cons x l' ih =>
      rw [List.length_cons] at hlen
      rw [List.zipIdx_cons, List.foldl_cons, ih (k + 1) (by omega) (by omega), hkeep st x k (by omega) (by omega)]
  have hfold (l' : List α) (k d : Nat) (hi : i = k + d) (hd : l'[d]? = some e) (hlen : k + l'.length ≤ l.length) (st : State) :
      φ ((l'.zipIdx k).foldl f st) = b := by
    induction l' generalizing k d st with
    | nil => simp at hd
    | cons x l' ih =>
      rw [List.length_cons] at hlen
      rw [List.zipIdx_cons, List.foldl_cons]
      cases d with
      | zero =>
        obtain rfl : x = e := by simpa using hd
        obtain rfl : i = k := by omega
        rw [hafter l' (i + 1) (by omega) (by omega)]
        exact hset st
      | succ d => exact ih (k + 1) d (by omega) (by simpa using hd) (by omega) _
  exact hfold l 0 i (by omega) hl (by omega) s

/-! ## Dies -/

theorem State.diePwr_setDiePwr_self (s : State) (n : Nat) (d : DiePower) : (s.setDiePwr n d).diePwr n = d := tget_tput_self

theorem State.diePwr_setDiePwr_ne {m : Nat} (h : m ≠ n) (s : State) (d : DiePower) : (s.setDiePwr n d).diePwr m = s.diePwr m := tget_tput_ne h

theorem State.diePwr_setO (s : State) (f : Fld) (m i v n : Nat) : (s.setO f m i v).diePwr n = s.diePwr n := rfl

theorem State.diePwr_foldl_setO {α : Type} (l : List α) (f : Fld) (m : Nat) (i v : α → Nat) (s : State) (n : Nat) :
    (l.foldl (fun st e => st.setO f m (i e) (v e)) s).diePwr n = s.diePwr n := by
  induction l generalizing s with
  | nil => rfl
  | cons e l ih => rw [List.foldl_cons, ih, State.diePwr_setO]

theorem State.pwr_set (s : State) (f : Fld) (i v : Nat) : (s.set f i v).pwr = s.pwr := rfl

theorem State.loopCap_setO_self (s : State) (n v : Nat) : (s.setO ONX_M_ISSUECAP.LOOP_CAP n 0 v).loopCap n = v % 2 ^ 7 := State.getO_setO_self ..

theorem State.loopCap_setO_ne {m : Nat} (h : m ≠ n) (s : State) (v : Nat) :
    (s.setO ONX_M_ISSUECAP.LOOP_CAP n 0 v).loopCap m = s.loopCap m := State.getO_setO_ne (Fld.key_ne_of_die rfl h)

/-! ## The root PLL (R448 to R451) -/

theorem State.relock_setRelock (s : State) (b : Bool) : (s.setRelock b).relock = b ∧ (s.setRelock b).isSet AGT_TIME_STATUS.RELOCK 0 = b := by
  have hb : (b2n b % 2 ^ 1 == 1) = b := by cases b <;> rfl
  unfold State.setRelock State.relock
  refine ⟨?_, (congrArg (· == 1) (State.get_set_self ..)).trans hb⟩
  rw [State.isSet_set_apart (by decide)]
  exact (congrArg (· == 1) (State.get_set_self ..)).trans hb

theorem exec_lossOfLock (hs : s.clocked = true) (hno : s.relock = false) (hlock : s.isSet AGT_PWR_CLKSTAT.ROOT_LOCK 0 = true) :
    ∃ u : State, exec .lossOfLock s = .next u.rfxDisarmAll ∧ u.isSet AGT_PWR_CLKSTAT.ROOT_LOCK 0 = false ∧ u.relock = true ∧
      u.isSet AGT_TIME_STATUS.RELOCK 0 = true ∧ u.pwr.tries = 1 ∧ u.pwr.locked = false ∧
      u.get AGT_PWR_CLKSTAT.RELOCK_CNT 0 = min (s.get AGT_PWR_CLKSTAT.RELOCK_CNT 0 + 1) 0xFFFF := by
  have hexec : exec .lossOfLock s = _ := State.onClock_of hs
  rw [if_neg (by simp [hno, hlock])] at hexec
  obtain ⟨hrel, htime⟩ := (s.set AGT_PWR_CLKSTAT.ROOT_LOCK 0 0).relock_setRelock true
  refine ⟨_, hexec, ?_, ?_, ?_, rfl, rfl, ?_⟩
  · rw [State.isSet_setPwr, State.isSet_count_apart (by decide)]
    unfold State.setRelock
    rw [State.isSet_set_apart (by decide), State.isSet_set_apart (by decide)]
    exact congrArg (· == 1) (State.get_set_self ..)
  · unfold State.relock
    rw [State.isSet_setPwr, State.isSet_count_apart (by decide)]
    exact hrel
  · rw [State.isSet_setPwr, State.isSet_count_apart (by decide)]
    exact htime
  · have hcount : ((s.set AGT_PWR_CLKSTAT.ROOT_LOCK 0 0).setRelock true).get AGT_PWR_CLKSTAT.RELOCK_CNT 0 = s.get AGT_PWR_CLKSTAT.RELOCK_CNT 0 := by
      unfold State.setRelock
      rw [State.get_set_apart (by decide), State.get_set_apart (by decide), State.get_set_apart (by decide)]
    rw [State.get_setPwr]
    refine (State.get_set_self ..).trans ?_
    have hval : satAdd AGT_PWR_CLKSTAT.RELOCK_CNT.width
        (((s.set AGT_PWR_CLKSTAT.ROOT_LOCK 0 0).setRelock true).get AGT_PWR_CLKSTAT.RELOCK_CNT 0) 1 =
          min (s.get AGT_PWR_CLKSTAT.RELOCK_CNT 0 + 1) 0xFFFF := by
      rw [hcount]
      rfl
    exact (congrArg (· % 2 ^ 16) hval).trans (Nat.mod_eq_of_lt (by omega))

/-- The dividers of one die restart. -/
def State.restartDie (s : State) (n : Nat) : State :=
  ((s.diePwr n).kGoal.foldl (fun u e => u.setO ONX_UNC_CLK.K n e.1 e.2) (s.setDiePwr n { s.diePwr n with kGoal := [] })).setO
    ONX_M_ISSUECAP.LOOP_CAP n 0 s.idleCap

theorem State.idleCap_restartDie (s : State) (n : Nat) : (s.restartDie n).idleCap = s.idleCap := by
  have hdict : (s.restartDie n).dict = s.dict :=
    (State.setO_within (k := 134217730) rfl (Within.foldl (State.setDiePwr_within (k := 134217730) rfl (.refl _ s))
      (fun _ _ h => State.setO_within (k := 134217730) rfl h _ _ _ _)) _ _ _ _).parts .dict rfl
  unfold State.idleCap State.obj
  rw [hdict]

theorem State.restartDie_self (s : State) (n : Nat) :
    (s.restartDie n).loopCap n = s.idleCap % 2 ^ 7 ∧ ((s.restartDie n).diePwr n).kGoal = [] := by
  refine ⟨State.loopCap_setO_self .., ?_⟩
  unfold State.restartDie
  rw [State.diePwr_setO, State.diePwr_foldl_setO, State.diePwr_setDiePwr_self]

theorem State.agreesOn_restartDie {g : Fld} (h : g.apart ONX_UNC_CLK.K = true) (h' : g.apart ONX_M_ISSUECAP.LOOP_CAP = true) (s : State) (n : Nat) :
    State.agreesOn g s (s.restartDie n) :=
  ((State.agreesOn_of_regs (t := s.setDiePwr n _) rfl).trans (State.agreesOn_foldl (fun _ _ => State.agreesOn_setO h _ _ _) _ _)).trans
    (State.agreesOn_setO h' _ _ _)

theorem State.restartDie_ne {m : Nat} (h : m ≠ n) (s : State) :
    (s.restartDie n).loopCap m = s.loopCap m ∧ (s.restartDie n).diePwr m = s.diePwr m := by
  unfold State.restartDie
  refine ⟨(State.loopCap_setO_ne h _ _).trans ?_, ?_⟩
  · exact State.agreesOn_foldl (g := ONX_M_ISSUECAP.LOOP_CAP) (fun _ _ => State.agreesOn_setO (by decide) _ _ _) _ _ m 0
  · rw [State.diePwr_setO, State.diePwr_foldl_setO, State.diePwr_setDiePwr_ne h]

theorem State.foldl_restartDie {l : List Nat} (s : State) {m : Nat} (h : m ∈ l ∨ (s.loopCap m = s.idleCap % 2 ^ 7 ∧ (s.diePwr m).kGoal = [])) :
    let t := l.foldl State.restartDie s
    t.loopCap m = s.idleCap % 2 ^ 7 ∧ (t.diePwr m).kGoal = [] := by
  induction l generalizing s with
  | nil => exact h.resolve_left (List.not_mem_nil)
  | cons n l ih =>
    have hstep : m ∈ l ∨ ((s.restartDie n).loopCap m = (s.restartDie n).idleCap % 2 ^ 7 ∧ ((s.restartDie n).diePwr m).kGoal = []) := by
      rw [State.idleCap_restartDie]
      by_cases hmn : m = n
      · subst m
        exact .inr (s.restartDie_self n)
      · obtain ⟨hcap, hdie⟩ := State.restartDie_ne hmn s
        rw [hcap, hdie]
        rcases h with h | h
        · exact .inl ((List.mem_cons.1 h).resolve_left hmn)
        · exact .inr h
    rw [← s.idleCap_restartDie n]
    exact ih (s.restartDie n) hstep

theorem exec_dividerRestart (hs : s.clocked = true) (hrel : s.relock = true) (hlock : s.pwr.locked = true) :
    ∃ t, exec .dividerRestart s = .next t ∧ t.relock = false ∧ t.isSet AGT_TIME_STATUS.RELOCK 0 = false ∧
      (∀ n, n < 4 → t.loopCap n = s.idleCap % 2 ^ 7 ∧ (t.diePwr n).kGoal = []) ∧ s.sameBut [.regs, .pwr] t := by
  let u : State := (s.setRelock false).setPwr { s.pwr with tries := 0, locked := false }
  have hexec : exec .dividerRestart s = .next ((List.range 4).foldl State.restartDie u) :=
    (State.onClock_of hs).trans (if_neg (by simp [hrel, hlock]))
  obtain ⟨hoff, htime⟩ := s.relock_setRelock false
  have hkeep {g : Fld} (h : g.apart ONX_UNC_CLK.K = true) (h' : g.apart ONX_M_ISSUECAP.LOOP_CAP = true) :
      ((List.range 4).foldl State.restartDie u).isSet g 0 = (s.setRelock false).isSet g 0 :=
    congrArg (· == 1) ((State.agreesOn_foldl (g := g) (fun st n => State.agreesOn_restartDie h h' st n) _ u).get 0)
  have hwithin : Within 134217730 s ((List.range 4).foldl State.restartDie u) := by
    refine Within.foldl ?_ (fun st n hst => ?_)
    · exact State.setPwr_within (k := 134217730) rfl (State.set_within (k := 134217730) rfl (State.set_within (k := 134217730) rfl (.refl _ s)))
    · exact State.setO_within (k := 134217730) rfl (Within.foldl (State.setDiePwr_within (k := 134217730) rfl hst) (fun _ _ h => State.setO_within (k := 134217730) rfl h _ _ _ _)) _ _ _ _
  exact ⟨_, hexec, (hkeep (by decide) (by decide)).trans hoff, (hkeep (by decide) (by decide)).trans htime,
    fun n hn => State.foldl_restartDie u (.inl (List.mem_range.2 hn)), hwithin.sameBut (by decide)⟩

/-! ## Issue caps (R452 to R454) -/

theorem exec_avsStepComplete (hs : s.clocked = true) (hn : n < 4) (hrel : s.relock = false) :
    ∃ t, exec (.avsStepComplete n) s = .next t ∧ (t.diePwr n).kGoal = [] ∧
      t.loopCap n = (if s.loopCap n < s.capGoal n then min (s.capGoal n) (s.loopCap n + 8) % 2 ^ 7 else s.loopCap n) ∧
      s.sameBut [.regs, .pwr] t := by
  have hexec : exec (.avsStepComplete n) s = _ := State.onClock_of hs
  rw [if_neg (by simp [hrel]; omega)] at hexec
  extract_lets d s1 at hexec
  have hgoal : (s1.diePwr n).kGoal = [] := by
    unfold s1
    rw [State.diePwr_foldl_setO, State.diePwr_setDiePwr_self]
  have hs1 : Within 134217730 s s1 :=
    Within.foldl (State.setDiePwr_within (k := 134217730) rfl (.refl _ s)) (fun _ _ h => State.setO_within (k := 134217730) rfl h _ _ _ _)
  by_cases h : s.loopCap n < s.capGoal n
  · rw [if_pos h] at hexec
    refine ⟨_, hexec, hgoal, ?_, (State.setO_within (k := 134217730) rfl hs1 _ _ _ _).sameBut (by decide)⟩
    rw [if_pos h, State.loopCap_setO_self]
    congr 1
    unfold State.capNext
    omega
  · rw [if_neg h] at hexec
    refine ⟨_, hexec, hgoal, ?_, hs1.sameBut (by decide)⟩
    rw [if_neg h]
    exact State.agreesOn_foldl (g := ONX_M_ISSUECAP.LOOP_CAP) (fun _ _ => State.agreesOn_setO (by decide) _ _ _) _ (s.setDiePwr n _) n 0

theorem exec_hintWrite {src : Src} {val : Nat} (hs : s.clocked = true) (hn : n < 4) (hr : s.reaches src n 0 0x180 = true)
    (hhold : bit val 0 = true → bits val 8 8 ≠ 0) :
    ∃ t, exec (.hintWrite src n val) s = .next t ∧ t.getO ONX_UNC_HINT.HEAVY n 0 = bits val 0 1 ∧
      t.getO ONX_UNC_HINT.HOLD n 0 = bits val 8 8 ∧ (bit val 0 = true → (t.diePwr n).idle = false) ∧ s.sameBut [.regs, .pwr] t := by
  have hexec : exec (.hintWrite src n val) s = _ := State.onClock_of hs
  rw [if_neg (by omega), if_neg (by simp [hr]), if_neg (by
    simp only [Bool.and_eq_true, beq_iff_eq, not_and]
    exact hhold)] at hexec
  extract_lets s1 at hexec
  have hheavy : s1.getO ONX_UNC_HINT.HEAVY n 0 = bits val 0 1 :=
    (State.getO_setO_apart (by decide)).trans ((State.getO_setO_self ..).trans (Nat.mod_eq_of_lt (bits_lt ..)))
  have hholds : s1.getO ONX_UNC_HINT.HOLD n 0 = bits val 8 8 := (State.getO_setO_self ..).trans (Nat.mod_eq_of_lt (bits_lt ..))
  have hs1 : Within 134217730 s s1 := State.setO_within (k := 134217730) rfl (State.setO_within (k := 134217730) rfl (.refl _ s) _ _ _ _) _ _ _ _
  by_cases h : bit val 0 = true
  · rw [if_pos h] at hexec
    exact ⟨_, hexec, hheavy, hholds, fun _ => congrArg DiePower.idle (State.diePwr_setDiePwr_self ..), (State.setDiePwr_within (k := 134217730) rfl hs1).sameBut (by decide)⟩
  · rw [if_neg h] at hexec
    exact ⟨_, hexec, hheavy, hholds, fun h' => absurd h' h, hs1.sameBut (by decide)⟩

/-- Settles O40. -/
theorem rootPllAndIssueCaps : Obligations.RootPllAndIssueCaps := by
  refine ⟨fun s hs => ⟨exec_lossOfLock hs, fun hrel hlock hfail => ⟨?_, fun htry => ?_, fun htry => ?_⟩, exec_dividerRestart hs⟩,
    fun s n hs hn => ⟨exec_avsStepComplete hs hn, fun hbusy hheavy => ?_, fun src val hdom hr hhold => exec_hintWrite hs hn hr hhold, ?_⟩⟩
  · refine ⟨_, (State.onClock_of hs).trans (if_pos (by simp [hrel, hlock, hfail])), ?_, rfl,
      (State.setPwr_within (k := 134217730) rfl (State.set_within (k := 134217730) rfl (.refl _ s))).sameBut (by decide)⟩
    rw [State.isSet_setPwr]
    exact congrArg (· == 1) (State.get_set_self ..)
  · refine ⟨_, (State.onClock_of hs).trans ((if_neg (by simp [hrel, hlock, hfail])).trans (if_pos htry)), rfl,
      (State.setPwr_within (k := 134217728) rfl (.refl _ s)).sameBut (by decide)⟩
  · refine ⟨_, (State.onClock_of hs).trans ((if_neg (by simp [hrel, hlock, hfail])).trans (if_neg (by omega))),
      congrArg (· == 1) (State.get_set_self ..), ?_, (State.set_within (k := 2) rfl (.refl _ s)).sameBut (by decide)⟩
    exact (State.isSet_set_apart (by decide)).trans hrel
  · have hexec : exec (.matrixIdleTimeout n) s = _ := State.onClock_of hs
    rw [if_neg (by simp [hbusy, hheavy]; omega)] at hexec
    refine ⟨_, hexec, ?_, State.loopCap_setO_self .., (State.setO_within (k := 134217730) rfl
      (State.setDiePwr_within (k := 134217730) rfl (.refl _ s)) _ _ _ _).sameBut (by decide)⟩
    rw [State.diePwr_setO, State.diePwr_setDiePwr_self]
  · exact ⟨_, (State.onClock_of hs).trans (if_neg (by omega)), State.getO_setO_self .., (State.setO_within (k := 2) rfl (.refl _ s) _ _ _ _).sameBut (by decide)⟩

/-! ## The power loop (R455, R457) -/

/-- A rail's registers take one reading. -/
def State.showRail (s : State) (e : Reading × Nat) : State :=
  (((s.set AGT_PWR_RAIL.VOUT e.2 e.1.1).set AGT_PWR_RAIL.IOUT e.2 e.1.2.1).set AGT_PWR_RAIL.POUT e.2 (readPower e.1)).set
    AGT_PWR_RAIL.STATUS e.2 e.1.2.2.2.1

theorem State.get_showRail_self (s : State) (e : Reading) (r : Nat) :
    (s.showRail (e, r)).get AGT_PWR_RAIL.VOUT r = e.1 % 2 ^ 16 ∧ (s.showRail (e, r)).get AGT_PWR_RAIL.IOUT r = e.2.1 % 2 ^ 16 ∧
    (s.showRail (e, r)).get AGT_PWR_RAIL.POUT r = readPower e % 2 ^ 16 := by
  unfold State.showRail
  refine ⟨?_, ?_, ?_⟩
  · rw [State.get_set_apart (by decide), State.get_set_apart (by decide), State.get_set_apart (by decide)]
    exact State.get_set_self ..
  · rw [State.get_set_apart (by decide), State.get_set_apart (by decide)]
    exact State.get_set_self ..
  · rw [State.get_set_apart (by decide)]
    exact State.get_set_self ..

theorem State.get_showRail_ne {r j : Nat} (hr : r < 12) (hj : j < 12) (hne : j ≠ r) (s : State) (e : Reading) :
    (s.showRail (e, j)).get AGT_PWR_RAIL.VOUT r = s.get AGT_PWR_RAIL.VOUT r ∧
    (s.showRail (e, j)).get AGT_PWR_RAIL.IOUT r = s.get AGT_PWR_RAIL.IOUT r ∧
    (s.showRail (e, j)).get AGT_PWR_RAIL.POUT r = s.get AGT_PWR_RAIL.POUT r := by
  have hkey (f : Fld) (hs : 0 < f.stride) (hc : f.count = 12) (u : State) (v : Nat) : (u.set f j v).get f r = u.get f r :=
    State.get_set_ne (Fld.key_ne_of_index hs (hc ▸ hr) (hc ▸ hj) (Ne.symm hne))
  unfold State.showRail
  refine ⟨?_, ?_, ?_⟩
  · rw [State.get_set_apart (by decide), State.get_set_apart (by decide), State.get_set_apart (by decide), hkey _ (by decide) rfl]
  · rw [State.get_set_apart (by decide), State.get_set_apart (by decide), hkey _ (by decide) rfl, State.get_set_apart (by decide)]
  · rw [State.get_set_apart (by decide), hkey _ (by decide) rfl, State.get_set_apart (by decide), State.get_set_apart (by decide)]

theorem State.sampleWindow_regs (s : State) (rails : List Reading) (total : Nat) : (s.sampleWindow rails total).regs = s.regs :=
  (State.sampleWindow_within (k := 134217728) rfl (.refl _ s)).parts .regs rfl

theorem exec_powerSample {rails : List Reading} (hs : s.clocked = true) (hlen : rails.length = 12) : ∃ u : State,
    exec (.powerSample rails) s = .next ((u.noteUnderVolt (maskOf ((rails.zipIdx.filter (fun e => e.1.2.2.2.2)).map (·.2)))).powerLoop
      (rails.map readPower).sum (rails.map readPower)) ∧
    u.get AGT_PWR_CAPSTAT.PKG 0 = (rails.map readPower).sum % 2 ^ 16 ∧
    (∀ r e, rails[r]? = some e → u.get AGT_PWR_RAIL.VOUT r = e.1 % 2 ^ 16 ∧ u.get AGT_PWR_RAIL.IOUT r = e.2.1 % 2 ^ 16 ∧
      u.get AGT_PWR_RAIL.POUT r = readPower e % 2 ^ 16) := by
  have hexec : exec (.powerSample rails) s = _ := State.onClock_of hs
  rw [if_neg (by simp [hlen])] at hexec
  have hread (g : Fld) (i : Nat) (u : State) (total : Nat) : (u.sampleWindow rails total).get g i = u.get g i :=
    State.getO_congr (u.sampleWindow_regs rails total) g 4 i
  refine ⟨_, hexec, ?_, fun r e hr => ?_⟩
  · rw [hread]
    exact State.get_set_self ..
  · have hlt : r < 12 := hlen ▸ (List.getElem?_eq_some_iff.1 hr).1
    rw [hread, hread, hread, State.get_set_apart (by decide), State.get_set_apart (by decide), State.get_set_apart (by decide)]
    refine ⟨?_, ?_, ?_⟩
    · exact foldl_zipIdx_at (f := State.showRail) (φ := fun st => st.get AGT_PWR_RAIL.VOUT r) (fun st => (st.get_showRail_self e r).1)
        (fun st x j hj hne => (State.get_showRail_ne hlt (hlen ▸ hj) hne st x).1) hr s
    · exact foldl_zipIdx_at (f := State.showRail) (φ := fun st => st.get AGT_PWR_RAIL.IOUT r) (fun st => (st.get_showRail_self e r).2.1)
        (fun st x j hj hne => (State.get_showRail_ne hlt (hlen ▸ hj) hne st x).2.1) hr s
    · exact foldl_zipIdx_at (f := State.showRail) (φ := fun st => st.get AGT_PWR_RAIL.POUT r) (fun st => (st.get_showRail_self e r).2.2)
        (fun st x j hj hne => (State.get_showRail_ne hlt (hlen ▸ hj) hne st x).2.2) hr s

theorem State.setCap_self (s : State) (n v : Nat) (hv : v < 128) :
    ((s.setCap n v).diePwr n).cap = v ∧ (s.setCap n v).loopCap n = min (s.loopCap n) v := by
  unfold State.setCap
  refine ⟨?_, ?_⟩
  · rw [State.diePwr_setO, State.diePwr_setDiePwr_self]
  · rw [State.loopCap_setO_self]
    exact Nat.mod_eq_of_lt (by omega)

theorem State.setCap_ne {m : Nat} (h : m ≠ n) (s : State) (v : Nat) :
    (s.setCap n v).diePwr m = s.diePwr m ∧ (s.setCap n v).loopCap m = s.loopCap m := by
  unfold State.setCap
  refine ⟨?_, (State.loopCap_setO_ne h _ _).trans rfl⟩
  rw [State.diePwr_setO, State.diePwr_setDiePwr_ne h]

/-- Caps taken to 1 one after another: LOOP_CAP falls with them. -/
theorem State.foldl_setCap_one {l : List Nat} {m c : Nat} (s : State)
    (h : (m ∈ l ∧ s.loopCap m = c) ∨ ((s.diePwr m).cap = 1 ∧ s.loopCap m = min c 1) ) :
    ((l.foldl (fun st n => st.setCap n 1) s).diePwr m).cap = 1 ∧ (l.foldl (fun st n => st.setCap n 1) s).loopCap m = min c 1 := by
  induction l generalizing s with
  | nil => exact h.resolve_left (fun h => List.not_mem_nil h.1)
  | cons n l ih =>
    refine ih (s.setCap n 1) ?_
    by_cases hmn : m = n
    · subst m
      obtain ⟨hcap, hloop⟩ := s.setCap_self n 1 (by decide)
      refine .inr ⟨hcap, hloop.trans ?_⟩
      rcases h with ⟨-, h⟩ | ⟨-, h⟩ <;> omega
    · obtain ⟨hdie, hloop⟩ := State.setCap_ne hmn s 1
      rw [hdie, hloop]
      rcases h with ⟨hmem, h⟩ | h
      · exact .inl ⟨(List.mem_cons.1 hmem).resolve_left hmn, h⟩
      · exact .inr h

theorem State.noteUnderVolt_regs (s : State) (m : Nat) : (s.noteUnderVolt m).regs = s.regs :=
  (State.noteUnderVolt_within (k := 134218756) rfl (.refl _ s)).parts .regs rfl

theorem exec_pmbAlert {status : List Nat} {warn uv : Nat} (hs : s.clocked = true) (hw : bits warn 0 4 ≠ 0) :
    ∃ t, exec (.pmbAlert status warn uv) s = .next t ∧
      t.get AGT_PWR_CAPSTAT.ALERT 0 = 1 ∧ (∀ n, n < 4 → bit warn n = true → (t.diePwr n).cap = 1 ∧ t.loopCap n = min (s.loopCap n) 1) := by
  have hexec : exec (.pmbAlert status warn uv) s = execPmbAlert status warn uv s := rfl
  unfold execPmbAlert at hexec
  rw [State.onClock_of hs] at hexec
  extract_lets s1 s2 hit s3 at hexec
  have hhit : hit.isEmpty = false := by
    by_contra hnone
    have hempty : hit = [] := by simpa using hnone
    have hbit (i : Nat) (hi : i < 4) : warn / 2 ^ i % 2 = 0 := by
      have hnot : ¬bit warn i = true := fun h => by
        have hmem : i ∈ hit := mem_maskList.2 ⟨hi, h⟩
        rw [hempty] at hmem
        exact List.not_mem_nil hmem
      have hdig : bit warn i = (warn / 2 ^ i % 2 == 1) := rfl
      rw [hdig, beq_iff_eq] at hnot
      omega
    refine hw ?_
    have h0 := hbit 0 (by decide)
    have h1 := hbit 1 (by decide)
    have h2 := hbit 2 (by decide)
    have h3 := hbit 3 (by decide)
    unfold bits
    omega
  rw [if_neg (by simp [hhit])] at hexec
  refine ⟨_, hexec, State.get_set_self .., fun n hn hbit => ?_⟩
  have hcap2 : s2.loopCap n = s.loopCap n := by
    have hs1 : State.agreesOn ONX_M_ISSUECAP.LOOP_CAP s s1 := State.agreesOn_foldl (fun st e => by
      split
      · exact State.agreesOn_setO (by decide) _ _ _
      · exact State.agreesOn_refl _ st) _ s
    exact (hs1.trans (State.agreesOn_of_regs (s1.noteUnderVolt_regs _))) n 0
  obtain ⟨hcap, hloop⟩ := State.foldl_setCap_one (l := hit) s2 (.inl ⟨mem_maskList.2 ⟨hn, hbit⟩, hcap2⟩)
  exact ⟨hcap, (State.getO_set_apart (by decide)).trans hloop⟩

/-! ## Diodes (R459) -/

/-- One diode's reading is taken: a valid one shows on TEMP. -/
def State.showDiode (now : Nat) (s : State) (e : Option Int × Nat) : State :=
  match e.1 with
  | some v => ((s.set BRL_TEMP.TEMP e.2 (ux 12 v)).set BRL_TEMP.VALID e.2 1).setPwr { s.pwr with diodeSeen := tset s.pwr.diodeSeen e.2 now }
  | none => s.set BRL_TEMP.VALID e.2 0

/-- What TEMP, VALID and the time of the last valid reading show of a diode. -/
def State.diodeShown (i : Nat) (s : State) : Nat × Nat × Nat := (s.get BRL_TEMP.TEMP i, s.get BRL_TEMP.VALID i, tget 0 s.pwr.diodeSeen i)

theorem State.diodeShown_some (s : State) (now i : Nat) (v : Int) :
    State.diodeShown i (s.showDiode now (some v, i)) = (ux 12 v % 2 ^ 12, 1, now) := by
  have htemp : (s.showDiode now (some v, i)).get BRL_TEMP.TEMP i = ux 12 v % 2 ^ 12 := by
    unfold State.showDiode
    rw [State.get_setPwr, State.get_set_apart (by decide)]
    exact State.get_set_self ..
  have hvalid : (s.showDiode now (some v, i)).get BRL_TEMP.VALID i = 1 := by
    unfold State.showDiode
    rw [State.get_setPwr]
    exact State.get_set_self ..
  have hseen : tget 0 (s.showDiode now (some v, i)).pwr.diodeSeen i = now := tget_tset_self
  unfold State.diodeShown
  rw [htemp, hvalid, hseen]

theorem State.valid_showDiode_none (s : State) (now i : Nat) : (s.showDiode now (none, i)).get BRL_TEMP.VALID i = 0 := State.get_set_self ..

theorem State.diodeShown_ne {i j : Nat} (hi : i < 40) (hj : j < 40) (hne : j ≠ i) (s : State) (now : Nat) (e : Option Int) :
    State.diodeShown i (s.showDiode now (e, j)) = State.diodeShown i s := by
  have hkey (f : Fld) (hs : 0 < f.stride) (hc : f.count = 40) (u : State) (v : Nat) : (u.set f j v).get f i = u.get f i :=
    State.get_set_ne (Fld.key_ne_of_index hs (hc ▸ hi) (hc ▸ hj) (Ne.symm hne))
  unfold State.showDiode State.diodeShown
  cases e with
  | none =>
    dsimp only
    rw [State.get_set_apart (by decide), hkey _ (by decide) rfl]
    rfl
  | some v =>
    have hseen : tget 0 (tset s.pwr.diodeSeen j now) i = tget 0 s.pwr.diodeSeen i := tget_tset_ne (Ne.symm hne)
    dsimp only
    rw [State.get_setPwr, State.get_setPwr, State.get_set_apart (by decide), hkey _ (by decide) rfl, hkey _ (by decide) rfl,
      State.get_set_apart (by decide)]
    exact congrArg (fun x => (s.get BRL_TEMP.TEMP i, s.get BRL_TEMP.VALID i, x)) hseen

theorem exec_thermalEval {readings : List (Option Int)} {got : List Nat} (hs : s.clocked = true) (hdom : s.domOn 42 = true)
    (hlen : readings.length = 40) : ∃ u : State,
    exec (.thermalEval readings got) s = .next (((List.range 7).foldl State.showThermal u).tripAll
      ((List.range 7).filter (fun d => u.nextThermal d == 3 && u.thermal d != 3)) got) ∧
    (∀ (i : Nat) (v : Int), readings[i]? = some (some v) → u.get BRL_TEMP.TEMP i = ux 12 v % 2 ^ 12 ∧ u.get BRL_TEMP.VALID i = 1 ∧
      tget 0 u.pwr.diodeSeen i = s.time.now) ∧
    (∀ i : Nat, readings[i]? = some none → u.get BRL_TEMP.VALID i = 0) := by
  have hexec : exec (.thermalEval readings got) s = execThermalEval readings got s := rfl
  unfold execThermalEval at hexec
  rw [State.onClock_of hs, if_neg (by simp [hdom, hlen])] at hexec
  extract_lets s1 s2 at hexec
  have hs1 : s1 = readings.zipIdx.foldl (State.showDiode s.time.now) s := rfl
  have hlt {i : Nat} {e : Option Int} (h : readings[i]? = some e) : i < 40 := hlen ▸ (List.getElem?_eq_some_iff.1 h).1
  refine ⟨s2, hexec, fun i v h => ?_, fun i h => ?_⟩
  · have hshown : State.diodeShown i s1 = (ux 12 v % 2 ^ 12, 1, s.time.now) := hs1 ▸
      foldl_zipIdx_at (f := State.showDiode s.time.now) (φ := State.diodeShown i) (fun st => st.diodeShown_some s.time.now i v)
        (fun st x j hj hne => State.diodeShown_ne (hlt h) (hlen ▸ hj) hne st s.time.now x) h s
    obtain ⟨htemp, hvalid, hseen⟩ : s1.get BRL_TEMP.TEMP i = ux 12 v % 2 ^ 12 ∧ s1.get BRL_TEMP.VALID i = 1 ∧
        tget 0 s1.pwr.diodeSeen i = s.time.now := by simpa [State.diodeShown] using hshown
    exact ⟨(State.get_set_apart (by decide)).trans htemp, (State.get_set_apart (by decide)).trans hvalid,
      (congrArg (fun w : Power => tget 0 w.diodeSeen i) (s1.pwr_set _ _ _)).trans hseen⟩
  · refine (State.get_set_apart (by decide)).trans ?_
    rw [hs1]
    exact foldl_zipIdx_at (f := State.showDiode s.time.now) (φ := fun st => st.get BRL_TEMP.VALID i)
      (fun st => st.valid_showDiode_none s.time.now i)
      (fun st x j hj hne => congrArg (fun x : Nat × Nat × Nat => x.2.1) (State.diodeShown_ne (hlt h) (hlen ▸ hj) hne st s.time.now x)) h s

/-- Settles O41. -/
theorem powerAndThermal : Obligations.PowerAndThermal := fun _ hs =>
  ⟨fun _ hlen => exec_powerSample hs hlen, fun _ _ _ hw => exec_pmbAlert hs hw, fun _ _ hdom hlen => exec_thermalEval hs hdom hlen,
    State.onClock_of hs, fun _ h => if_pos h⟩

end Sys2Proof.Machine
end

section
/-! PROOFS. The package reset, supplies, clocks and the reset pin (O43). -/

namespace Sys2Proof.Machine

open Host Reg

variable {s t : State}

/-- A value read back from a written word has the same sign extension. -/
theorem sx_mod (w v : Nat) : sx w (v % 2 ^ w) = sx w v := by
  unfold sx
  rw [Nat.mod_mod]

/-! ## The package reset (R482) -/

/-- What a package reset leaves before the registers that retention keeps. -/
def State.resetBase (s : State) : State :=
  { State.reset with
    pending := s.pending, freeCount := s.freeCount, hostMem := s.hostMem, out := s.out, fuses := s.fuses
    pkg := { vddAon := s.pkg.vddAon, vddIo18 := s.pkg.vddIo18, refclk := s.pkg.refclk, resetNLow := s.pkg.resetNLow,
             testMode := s.pkg.testMode, dom := [(32, .on)] }
    time := { now := s.time.now, frac := s.time.frac, ticks := s.time.ticks }
    sec := {
      prots := s.sec.prots.map (fun e => (e.1, { e.2 with
        keys := none, clearing := true, filling := false, start := if e.2.clearing then e.2.start else s.time.now }))
      deferrals := s.sec.deferrals, clearsTotal := s.sec.clearsTotal, clears := s.sec.clears, nextKey := s.sec.nextKey }
    dic := { copy0 := s.dic.copy0, copy1 := s.dic.copy1 }
    bu := { resets := s.bu.resets + 1, defects0 := s.bu.defects0, defects1 := s.bu.defects1, fullNext := s.bu.fullNext
            comps := s.bu.comps.map (fun e => (e.1, { s.component e.1 with loaded := false, state := 0, writing := none })) } }

/-- The registers that retention keeps, put back. -/
def State.putRetained (s t : State) : State :=
  [AGT_TIME_RATE.RATE, AGT_BU_STAT.RESET_N_LOW, AGT_BU_RETPASS.PASS, AGT_BU_RETPASS.SEALED, AGT_BU_RETRUN.RUN].foldl
    (fun t f => t.set f 0 (s.get f 0)) t

theorem State.packageReset_eq (s : State) : s.packageReset = (s.putRetained s.resetBase).boundRate := rfl

/-- Only registers are put back. -/
theorem State.packageReset_of_base (s : State) : Within 2 s.resetBase s.packageReset :=
  s.packageReset_eq ▸ State.set_within (k := 2) rfl (Within.foldl (k := 2) (.refl _ s.resetBase) (fun _ _ h => State.set_within (k := 2) rfl h))

theorem State.packageReset_domPowered (s : State) (d : Nat) : s.packageReset.domPowered d = (d == 32) := by
  unfold State.domPowered
  rw [s.packageReset_of_base.parts .pkg rfl]
  show (tget DomState.off [(32, .on)] d == .on) = (d == 32)
  simp [tget, eq_comm]

theorem State.rateBound_of_default (h : t.dict = []) : t.rateBound = 109951162 := by
  unfold State.rateBound State.rateMaxPpb State.obj
  rw [h]
  rfl

theorem State.get_packageReset_rate (s : State) : s.packageReset.get AGT_TIME_RATE.RATE 0 =
    ux 32 (max (-109951162) (min 109951162 (sx 32 (s.get AGT_TIME_RATE.RATE 0)))) := by
  have hdict : (s.putRetained s.resetBase).dict = [] :=
    (Within.foldl (k := 2) (.refl _ s.resetBase) (fun _ _ h => State.set_within (k := 2) rfl h)).parts .dict rfl
  have hrate : (s.putRetained s.resetBase).get AGT_TIME_RATE.RATE 0 = s.get AGT_TIME_RATE.RATE 0 % 2 ^ 32 := by
    unfold State.putRetained
    simp only [List.foldl_cons, List.foldl_nil]
    rw [State.get_set_apart (by decide), State.get_set_apart (by decide), State.get_set_apart (by decide), State.get_set_apart (by decide)]
    exact State.get_set_self ..
  rw [State.packageReset_eq]
  unfold State.boundRate
  rw [State.get_set_self, hrate, sx_mod]
  unfold State.boundedRate
  rw [State.rateBound_of_default hdict, clampI_eq (by decide)]
  exact Nat.mod_eq_of_lt (ux_lt ..)

/-! ## VDD_AON (R24, R467) -/

/-- Domain 32 starts, with every register at its reset value. -/
def State.aonStarts (s : State) : State :=
  { s.unpowered with pkg := { s.unpowered.pkg with vddAon := true, refclk := true, dom := [(32, .on)] } }

theorem exec_vddAonApply (h : s.pkg.vddAon = false) :
    exec .vddAonApply s = .next (s.aonStarts.set AGT_BU_STAT.RESET_N_LOW 0 (b2n s.pkg.resetNLow)) :=
  congrArg Outcome.next (if_neg (by simp [h]))

theorem State.getO_aonStarts (s : State) (f : Fld) (n i : Nat) : s.aonStarts.getO f n i = f.reset i := rfl

/-- RESET_N_LOW written with the value it resets to leaves the register file as at reset. -/
theorem State.getO_aonStarts_high (s : State) (f : Fld) (n i : Nat) : (s.aonStarts.set AGT_BU_STAT.RESET_N_LOW 0 0).getO f n i = f.reset i := by
  have hregs : (s.aonStarts.set AGT_BU_STAT.RESET_N_LOW 0 0).regs = s.aonStarts.regs := rfl
  exact (State.getO_congr hregs f n i).trans (s.getO_aonStarts f n i)

theorem State.domPowered_aonStarts (s : State) (d : Nat) : s.aonStarts.domPowered d = (d == 32) := by
  show (tget DomState.off [(32, .on)] d == .on) = (d == 32)
  simp [tget, eq_comm]

/-! ## BU_RESET_N and TEST_MODE (R482, R498) -/

/-- The package held in reset by the ball. -/
def State.heldLow (s : State) : State := { s.packageReset with pkg := { s.packageReset.pkg with resetNLow := true } }

theorem exec_buResetNAssert (haon : s.pkg.vddAon = true) (hlow : s.pkg.resetNLow = false) :
    exec .buResetNAssert s = .next (s.heldLow.set AGT_BU_STAT.RESET_N_LOW 0 1) :=
  congrArg Outcome.next ((if_neg (by simp [hlow])).trans (if_neg (by simp [haon])))

/-- Parts of the state in which the ball holds the package. -/
theorem State.heldLow_parts (s : State) : Within 2050 s.resetBase (s.heldLow.set AGT_BU_STAT.RESET_N_LOW 0 1) :=
  State.set_within (k := 2050) rfl (Within.pkg (k := 2050) rfl (s.packageReset_of_base.mono (j := 2) rfl) _)

/-- A reset held by TEST_MODE counts no reset. -/
def State.testHeld (s : State) : State := { s.packageReset with bu := { s.packageReset.bu with resets := s.bu.resets } }

theorem State.testHeld_parts (s : State) : Within 268435458 s.resetBase s.testHeld :=
  Within.bu (k := 268435458) rfl (s.packageReset_of_base.mono (j := 2) rfl) _

/-- A cycle of the clock after a reset: nothing waits for it but package time. -/
theorem State.idle_of_testMode (haon : s.pkg.vddAon = true) (htest : s.pkg.testMode = true) : Within 134234112 s.testHeld s.idle := by
  have hhold : s.holdReset = s.testHeld := if_pos (by simp [haon, htest])
  have hrate : s.testHeld.rateCycle = s.testHeld := State.rateCycle_of_none (by rw [s.testHeld_parts.parts .time rfl]; rfl)
  have hcycle : Within 134234112 s.testHeld s.testHeld.timeCycle := by
    unfold State.timeCycle
    rw [hrate]
    exact State.advance_within (k := 134234112) rfl (.refl _ s.testHeld)
  unfold State.idle
  rw [hhold]
  split
  · rw [State.rfxDrain_of_empty (by rw [hcycle.parts .rfx rfl, s.testHeld_parts.parts .rfx rfl]; rfl)]
    exact hcycle
  · exact .refl _ _

/-- Settles O43. -/
theorem suppliesAndPins : Obligations.SuppliesAndPins := by
  intro s
  refine ⟨fun h => ?_, ⟨_, rfl, fun d => rfl, rfl, rfl, rfl⟩, fun haon hlow => ?_, fun haon hlow => ?_, fun haon htest hq => ?_,
    ⟨_, rfl, rfl, ?_, ?_⟩, ⟨_, rfl, rfl, rfl, ?_⟩, ⟨_, rfl, rfl, ?_⟩⟩
  · refine ⟨_, exec_vddAonApply h, rfl, rfl, s.domPowered_aonStarts, rfl, ?_, fun hlow => ?_, rfl, rfl, rfl, rfl, rfl⟩
    · refine (State.get_set_self ..).trans ?_
      cases s.pkg.resetNLow <;> rfl
    · rw [hlow]
      exact s.getO_aonStarts_high
  · have hw := s.heldLow_parts
    refine ⟨_, exec_buResetNAssert haon hlow, rfl, State.get_set_self .., s.packageReset_domPowered, ?_, ?_, ?_, ?_, ?_, ?_, ?_, ?_, ?_⟩
    · rw [hw.parts .time rfl]; rfl
    · rw [hw.parts .time rfl]; rfl
    · exact (State.get_set_apart (by decide)).trans s.get_packageReset_rate
    · rw [hw.parts .dic rfl]; rfl
    · exact hw.parts .fuses rfl
    · rw [hw.parts .sec rfl]; rfl
    · exact hw.parts .sched rfl
    · exact hw.parts .mem rfl
    · rw [hw.parts .sec rfl]; rfl
  · refine ⟨_, congrArg Outcome.next (if_neg (by simp [hlow])), rfl, State.get_set_self .., ?_⟩
    exact (State.set_within (k := 2050) rfl (Within.pkg (k := 2050) rfl (.refl _ s) _)).sameBut (by decide)
  · have hw := State.idle_of_testMode haon htest
    have hstep : step s = .next s.idle := by
      unfold step
      rw [hq]
    have hpkg : s.idle.pkg = s.resetBase.pkg := (hw.parts .pkg rfl).trans (s.testHeld_parts.parts .pkg rfl)
    have hsec : s.idle.sec = s.resetBase.sec := (hw.parts .sec rfl).trans (s.testHeld_parts.parts .sec rfl)
    have hdic : s.idle.dic = s.resetBase.dic := (hw.parts .dic rfl).trans (s.testHeld_parts.parts .dic rfl)
    refine ⟨_, hstep, fun d => ?_, ?_, ?_, ?_, ?_, ?_, ?_, ?_, ?_⟩
    · unfold State.domPowered
      rw [hpkg]
      exact s.domPowered_aonStarts d
    · exact (hw.parts .sched rfl).trans (s.testHeld_parts.parts .sched rfl)
    · exact (hw.parts .mem rfl).trans (s.testHeld_parts.parts .mem rfl)
    · rw [hw.parts .bu rfl]
      exact congrArg BringUp.run (s.packageReset_of_base.parts .bu rfl)
    · rw [hsec]
      rfl
    · exact (hw.parts .rfx rfl).trans (s.testHeld_parts.parts .rfx rfl)
    · exact (hw.parts .fuses rfl).trans (s.testHeld_parts.parts .fuses rfl)
    · rw [hdic]
      rfl
    · rw [hpkg]
      exact htest
  · simp [State.clocked]
  · exact (Within.pkg (k := 2048) rfl (.refl _ s) _).sameBut (by decide)
  · exact (Within.pkg (k := 2048) rfl (.refl _ s) _).sameBut (by decide)
  · exact (Within.pkg (k := 2048) rfl (.refl _ s) _).sameBut (by decide)

end Sys2Proof.Machine
end

section
/-! PROOFS. What has settled of a bring-up command or request completes, and what waits starts (O45). -/

namespace Sys2Proof.Machine

open Host Reg

variable {s t : State}

theorem Status.code_lt (st : Status) : st.code < 2 ^ 8 := by
  cases st <;> decide

/-! ## Domains (R27) -/

theorem State.setDom_parts (s : State) (d : Nat) (v : DomState) : tget .off (s.setDom d v).pkg.dom d = v ∧
    (∀ e, e ≠ d → tget .off (s.setDom d v).pkg.dom e = tget .off s.pkg.dom e) ∧
    (s.setDom d v).pkg.switchPlan = s.pkg.switchPlan ∧ (s.setDom d v).pkg.switchOn = s.pkg.switchOn :=
  ⟨tget_tput_self, fun _ h => tget_tput_ne h, rfl, rfl⟩

theorem State.buSettle_pkg (s : State) (st : Status) (res : Nat) : (s.buSettle st res).pkg = s.pkg :=
  (State.buSettle_within (k := butPkg) rfl (.refl _ s)).parts .pkg rfl

/-- The next domain of a plan begins to switch; the plan stands. -/
theorem State.switchNext_parts (s : State) : s.switchNext.pkg.switchPlan = s.pkg.switchPlan ∧ s.switchNext.pkg.switchOn = s.pkg.switchOn ∧
    (∀ d, s.pkg.switchPlan.head? = some d →
      tget .off s.switchNext.pkg.dom d = if s.pkg.switchOn then .switchingOn else .switchingOff) ∧
    (∀ e, s.pkg.switchPlan.head? ≠ some e → tget .off s.switchNext.pkg.dom e = tget .off s.pkg.dom e) := by
  unfold State.switchNext
  split
  · rename_i hplan
    refine ⟨rfl, rfl, fun d hd => ?_, fun e _ => rfl⟩
    rw [hplan] at hd
    exact absurd hd (by simp)
  · rename_i d rest hplan
    have hhead : s.pkg.switchPlan.head? = some d := by rw [hplan]; rfl
    rw [hhead]
    split
    · rename_i hon
      obtain ⟨hself, hne, hp, ho⟩ := s.setDom_parts d .switchingOn
      refine ⟨hp, ho, fun e he => ?_, fun e he => hne e (fun h => he (by rw [h]))⟩
      obtain rfl := Option.some.inj he
      exact hself
    · rename_i hoff
      obtain ⟨hself, hne, hp, ho⟩ := (s.loseDomain d).setDom_parts d .switchingOff
      rw [State.loseDomain_pkg] at hne hp ho
      refine ⟨hp, ho, fun e he => ?_, fun e he => hne e (fun h => he (by rw [h]))⟩
      obtain rfl := Option.some.inj he
      exact hself

theorem exec_domainSwitchDone {d : Nat} {rest : List Nat} (hs : s.clocked = true) (hplan : s.pkg.switchPlan = d :: rest) :
    ∃ t, exec .domainSwitchDone s = .next t ∧ t.pkg.switchPlan = rest ∧
      (d ∉ rest → tget .off t.pkg.dom d = if s.pkg.switchOn then .on else .off) := by
  have hexec : exec .domainSwitchDone s = execDomainSwitchDone s := rfl
  unfold execDomainSwitchDone at hexec
  rw [State.onClock_of hs, hplan] at hexec
  dsimp -zeta only at hexec
  extract_lets s1 p1 s2 at hexec
  have hdom : tget .off s2.pkg.dom d = if s.pkg.switchOn then .on else .off := by
    have hs1 : tget .off s1.pkg.dom d = if s.pkg.switchOn then .on else .off := by
      unfold s1
      split
      · rw [State.domainUp_pkg]
        exact (s.setDom_parts d .on).1
      · exact (s.setDom_parts d .off).1
    exact hs1
  refine ⟨_, hexec, ?_, fun hd => ?_⟩
  · split
    · exact congrArg Pkg.switchPlan (s2.buSettle_pkg .ok 0)
    · exact s2.switchNext_parts.1
  · split
    · rw [State.buSettle_pkg]
      exact hdom
    · refine (s2.switchNext_parts.2.2.2 d (fun h => hd ?_)).trans hdom
      exact List.mem_of_mem_head? h

/-! ## What has settled completes (R468 to R470, R487) -/

/-- The busy bit after a completion: something waits. -/
theorem busy_word (b : Bool) : (b2n (!b) % 2 ^ 1 == 1) = !b := by
  cases b <;> rfl

/-- The job that settled leaves, and BUSY shows whether a request waits. -/
def State.buFree (s : State) : State := (s.setBu { s.bu with run := none }).set AGT_BU_STAT.BUSY 0 (b2n (!s.bu.queue.isEmpty))

theorem State.busy_buFree (s : State) : s.buFree.isSet AGT_BU_STAT.BUSY 0 = !s.bu.queue.isEmpty := by
  refine (congrArg (· == 1) (State.get_set_self ..)).trans ?_
  exact busy_word _

/-- What a completed command shows. -/
def State.buShow (s : State) (op : Nat) (st : Status) (res : Nat) : State :=
  let s2 := ((s.set AGT_BU_STAT.STATUS 0 st.code).set AGT_BU_STAT.LAST_OP 0 op).set AGT_BU_RESULT.VALUE 0 res
  (if st = .ok ∧ 1 ≤ op ∧ op ≤ 10 then s2.set AGT_BU_STEPS.DONE 0 (setBit (s2.get AGT_BU_STEPS.DONE 0) (op - 1) true) else s2).emit .ibi

theorem State.buFinish_of {j : BuRun} {st : Status} {res : Nat} (hrun : s.bu.run = some j) (hdone : j.done = some (st, res)) :
    s.buFinish = if j.origin = 1 then s.buFree.setObj 0 0x5C00 2 st.code
      else if j.origin = 2 then s.buFree.setObj 0 0x5C02 2 st.code else s.buFree.buShow j.op st res := by
  unfold State.buFinish
  rw [hrun]
  dsimp only
  rw [hdone]
  rfl

theorem State.buShow_effect (s : State) (op : Nat) (st : Status) (res : Nat) : let t := s.buShow op st res
    t.bu = s.bu ∧ t.isSet AGT_BU_STAT.BUSY 0 = s.isSet AGT_BU_STAT.BUSY 0 ∧ t.get AGT_BU_STAT.STATUS 0 = st.code ∧
      t.get AGT_BU_STAT.LAST_OP 0 = op % 2 ^ AGT_BU_STAT.LAST_OP.width ∧ t.get AGT_BU_RESULT.VALUE 0 = res % 2 ^ AGT_BU_RESULT.VALUE.width ∧
      t.out = s.out ++ [.ibi] ∧ (st = .ok → 1 ≤ op → op ≤ 10 → t.stepDone op = true) := by
  unfold State.buShow
  extract_lets s2 t
  let s3 : State := if st = .ok ∧ 1 ≤ op ∧ op ≤ 10 then s2.set AGT_BU_STEPS.DONE 0 (setBit (s2.get AGT_BU_STEPS.DONE 0) (op - 1) true) else s2
  have hs3 : s3.bu = s2.bu ∧ s3.out = s2.out ∧ ∀ g : Fld, g.apart AGT_BU_STEPS.DONE = true → s3.get g 0 = s2.get g 0 := by
    unfold s3
    split
    · exact ⟨rfl, rfl, fun g h => State.get_set_apart h⟩
    · exact ⟨rfl, rfl, fun g h => rfl⟩
  obtain ⟨hbu, hout, hget⟩ := hs3
  have hlast : s2.get AGT_BU_STAT.STATUS 0 = st.code % 2 ^ 8 :=
    ((State.get_set_apart (by decide)).trans (State.get_set_apart (by decide))).trans (State.get_set_self ..)
  have hop : s2.get AGT_BU_STAT.LAST_OP 0 = op % 2 ^ AGT_BU_STAT.LAST_OP.width := (State.get_set_apart (by decide)).trans (State.get_set_self ..)
  have hbusy : s2.isSet AGT_BU_STAT.BUSY 0 = s.isSet AGT_BU_STAT.BUSY 0 := by
    unfold s2
    rw [State.isSet_set_apart (by decide), State.isSet_set_apart (by decide), State.isSet_set_apart (by decide)]
  refine ⟨hbu, (congrArg (· == 1) (hget AGT_BU_STAT.BUSY (by decide))).trans hbusy,
    ((hget AGT_BU_STAT.STATUS (by decide)).trans hlast).trans (Nat.mod_eq_of_lt (Status.code_lt st)),
    (hget AGT_BU_STAT.LAST_OP (by decide)).trans hop, (hget AGT_BU_RESULT.VALUE (by decide)).trans (State.get_set_self ..),
    congrArg (· ++ [Output.ibi]) hout, fun hok h1 h10 => ?_⟩
  have hdone : s3.get AGT_BU_STEPS.DONE 0 = setBit (s2.get AGT_BU_STEPS.DONE 0) (op - 1) true % 2 ^ 10 := by
    unfold s3
    rw [if_pos ⟨hok, h1, h10⟩]
    exact State.get_set_self ..
  exact (congrArg (bit · (op - 1)) hdone).trans ((bit_mod_two_pow (by omega) _).trans (bit_setBit_self ..))

theorem exec_buStepComplete {j : BuRun} {st : Status} {res : Nat} (hs : s.clocked = true) (hrun : s.bu.run = some j) (hdone : j.done = some (st, res))
    (hgo : j.op ≠ 10 ∨ s.cmp.running = true ∨ (st, res) ≠ (.ok, 0)) :
    ∃ t, exec .buStepComplete s = .next t ∧ t.bu.run = none ∧
      t.isSet AGT_BU_STAT.BUSY 0 = !s.bu.queue.isEmpty ∧
      (j.origin = 1 → t.obj 0 0x5C00 2 = st.code ∧ t.out = s.out) ∧ (j.origin = 2 → t.obj 0 0x5C02 2 = st.code ∧ t.out = s.out) ∧
      (j.origin ≠ 1 → j.origin ≠ 2 → t.get AGT_BU_STAT.STATUS 0 = st.code ∧ t.get AGT_BU_STAT.LAST_OP 0 = j.op % 2 ^ AGT_BU_STAT.LAST_OP.width ∧
        t.get AGT_BU_RESULT.VALUE 0 = res % 2 ^ AGT_BU_RESULT.VALUE.width ∧ t.out = s.out ++ [.ibi] ∧
        (st = .ok → 1 ≤ j.op → j.op ≤ 10 → t.stepDone j.op = true)) := by
  have hexec : exec .buStepComplete s = .next s.buFinish := by
    refine (State.onClock_of hs).trans ?_
    rw [hrun]
    dsimp only
    rw [if_neg]
    rw [hdone]
    rcases hgo with h | h | h
    · simp [h]
    · simp [h]
    · simp [show (some (st, res) == some (Status.ok, 0)) = false by simpa using h]
  refine ⟨_, hexec, ?_⟩
  rw [State.buFinish_of hrun hdone]
  by_cases h1 : j.origin = 1
  · rw [if_pos h1]
    exact ⟨rfl, s.busy_buFree, fun _ => ⟨State.obj_setObj_self .., rfl⟩, fun h2 => absurd (h1.symm.trans h2) (by decide), fun h => absurd h1 h⟩
  · rw [if_neg h1]
    by_cases h2 : j.origin = 2
    · rw [if_pos h2]
      exact ⟨rfl, s.busy_buFree, fun h => absurd h h1, fun _ => ⟨State.obj_setObj_self .., rfl⟩, fun _ h => absurd h2 h⟩
    · rw [if_neg h2]
      obtain ⟨hbu, hbusy, hrest⟩ := s.buFree.buShow_effect j.op st res
      exact ⟨by rw [hbu]; rfl, hbusy.trans s.busy_buFree, fun h => absurd h h1, fun h => absurd h h2, fun _ _ => hrest⟩

/-! ## Requests (R470, R487) -/

theorem exec_domainRequest {src : Src} {val : Nat} (hs : s.clocked = true) (hsrc : Src.maintOrHost src = true) :
    exec (.domainRequest src val) s = .next (s.queueRequest 1 (val % 2 ^ 16)).1 :=
  (State.onClock_of hs).trans (congrArg Outcome.next (if_pos hsrc))

theorem exec_resetRequest {src : Src} {val : Nat} (hs : s.clocked = true) (hsrc : Src.maintOrHost src = true) :
    exec (.resetRequest src val) s = .next (s.queueRequest 2 (val % 2 ^ 32)).1 :=
  (State.onClock_of hs).trans (congrArg Outcome.next (if_pos hsrc))

/-- A request is not a reset of LEVEL 3. -/
theorem State.queueRequest_of {o v : Nat} (h : ¬(o = 2 ∧ v % 4 = 3)) : s.queueRequest o v =
    if s.isSet AGT_BU_STAT.BUSY 0 then
      if 4 ≤ s.bu.queue.length then (s, .queueFull) else (s.setBu { s.bu with queue := s.bu.queue ++ [(o, v)] }, .ok)
    else (s.startRequest o v [], .ok) := if_neg h

theorem State.queueRequest_waits {o v : Nat} (h : ¬(o = 2 ∧ v % 4 = 3)) (hb : s.isSet AGT_BU_STAT.BUSY 0 = true) (hq : s.bu.queue.length < 4) :
    (s.queueRequest o v).1 = s.setBu { s.bu with queue := s.bu.queue ++ [(o, v)] } := by
  rw [State.queueRequest_of h, if_pos hb, if_neg (by omega)]

theorem State.queueRequest_full {o v : Nat} (hb : s.isSet AGT_BU_STAT.BUSY 0 = true) (hq : 4 ≤ s.bu.queue.length) : (s.queueRequest o v).1 = s := by
  by_cases h : o = 2 ∧ v % 4 = 3
  · exact congrArg Prod.fst (if_pos h)
  · rw [State.queueRequest_of h, if_pos hb, if_pos hq]

theorem State.queueRequest_starts {o v : Nat} (h : ¬(o = 2 ∧ v % 4 = 3)) (hb : s.isSet AGT_BU_STAT.BUSY 0 = false) :
    (s.queueRequest o v).1 = s.startRequest o v [] := by
  rw [State.queueRequest_of h, if_neg (by simp [hb])]

/-- Settles O45. -/
theorem commandsOfBringUpComplete : Obligations.CommandsOfBringUpComplete := by
  intro s hs
  refine ⟨fun d rest hplan => exec_domainSwitchDone hs hplan, fun j st res hrun hdone => ⟨exec_buStepComplete hs hrun hdone, fun hop hr hst => ?_⟩,
    fun o v rest got hrun hq => ?_, fun src val hsrc => ?_, fun src val h1 h2 => ?_⟩
  · refine (State.onClock_of hs).trans ?_
    rw [hrun]
    dsimp only
    rw [if_pos (by simp [hop, hr, hdone, hst])]
  · refine (State.onClock_of hs).trans ?_
    rw [hrun, hq]
    rfl
  · have hrole : Src.maintOrHost src = true := by
      rcases hsrc with rfl | rfl <;> rfl
    have hlow : val % 2 ^ 32 % 4 = val % 4 := Nat.mod_mod_of_dvd val (by decide)
    have hsetBu (q : List (Nat × Nat)) : s.sameBut [.bu] (s.setBu { s.bu with queue := q }) :=
      (State.setBu_within (k := 268435456) rfl (.refl _ s)).sameBut (by decide)
    have hone : ¬(1 = 2 ∧ val % 2 ^ 16 % 4 = 3) := fun h => absurd h.1 (by decide)
    have htwo (h3 : val % 4 ≠ 3) : ¬(2 = 2 ∧ val % 2 ^ 32 % 4 = 3) := fun h => h3 (hlow.symm.trans h.2)
    rw [exec_domainRequest hs hrole, exec_resetRequest hs hrole]
    refine ⟨fun hb hq => ⟨⟨_, rfl, ?_⟩, fun h3 => ⟨_, rfl, ?_⟩⟩, fun hb hq => ⟨?_, ?_⟩, fun hb => ⟨?_, fun h3 => ?_⟩, fun h3 => ?_⟩
    · rw [State.queueRequest_waits hone hb hq]
      exact ⟨rfl, hsetBu _⟩
    · rw [State.queueRequest_waits (htwo h3) hb hq]
      exact ⟨rfl, hsetBu _⟩
    · rw [State.queueRequest_full hb hq]
    · rw [State.queueRequest_full hb hq]
    · rw [State.queueRequest_starts hone hb]
    · rw [State.queueRequest_starts (htwo h3) hb]
    · exact congrArg (fun x : State × Status => Outcome.next x.1) (if_pos ⟨rfl, hlow.trans h3⟩)
  · have hrole : ¬Src.maintOrHost src = true := by simp [Src.maintOrHost, h1, h2]
    exact ⟨(State.onClock_of hs).trans (congrArg Outcome.next (if_neg hrole)), (State.onClock_of hs).trans (congrArg Outcome.next (if_neg hrole))⟩

end Sys2Proof.Machine
end

section
/-! PROOFS. Core, die, partition and package resets, and shutdown (O46, O47). -/

namespace Sys2Proof.Machine

open Host Reg

variable {s t : State}

/-! ## A write of AGT_BU_CMD (R469, R470) -/

/-- The state in which a command that is taken begins. -/
def State.buTaken (s : State) (op arg : Nat) : State := ((s.set AGT_BU_CMD.OP 0 op).set AGT_BU_CMD.ARG 0 arg).buBegin 0 op arg

theorem State.buWrite_taken {op arg : Nat} {act : State → State} (hr : s.buReached = true) (hheld : s.pkg.held = false)
    (hidle : s.isSet AGT_BU_STAT.BUSY 0 = false) : s.buWrite op arg act = act (s.buTaken op arg) := by
  unfold State.buWrite
  rw [if_neg (by simp [hr]), if_neg (by simp [hheld, hidle])]
  rfl

theorem State.buTaken_within (s : State) (op arg : Nat) : Within 268435458 s (s.buTaken op arg) :=
  State.set_within (k := 268435458) rfl (State.setBu_within (k := 268435458) rfl
    (State.set_within (k := 268435458) rfl (State.set_within (k := 268435458) rfl (.refl _ s))))

theorem State.agreesOn_buTaken {g : Fld} (h : [AGT_BU_CMD.OP, AGT_BU_CMD.ARG, AGT_BU_STAT.BUSY].all g.apart = true) (s : State) (op arg : Nat) :
    State.agreesOn g s (s.buTaken op arg) := by
  simp only [List.all_cons, List.all_nil, Bool.and_true, Bool.and_eq_true] at h
  obtain ⟨hop, harg, hbusy⟩ := h
  exact ((State.agreesOn_setO hop _ _ _).trans (State.agreesOn_setO harg _ _ _)).trans
    ((State.agreesOn_of_regs (t := ((s.set AGT_BU_CMD.OP 0 op).set AGT_BU_CMD.ARG 0 arg).setBu _) rfl).trans (State.agreesOn_setO hbusy _ _ _))

theorem State.admitted_buTaken (s : State) (op arg n : Nat) : (s.buTaken op arg).admitted n = s.admitted n :=
  State.admitted_congr ((State.agreesOn_buTaken (g := AGT_FAB_STATUS.ADMITTED) (by decide) s op arg).get 0)

theorem State.buTaken_kept (s : State) (op arg : Nat) : (s.buTaken op arg).bu.shut = s.bu.shut ∧ (s.buTaken op arg).pkg = s.pkg ∧
    (s.buTaken op arg).time = s.time ∧ (s.buTaken op arg).isSet AGT_BU_STAT.BUSY 0 = true :=
  ⟨rfl, rfl, rfl, congrArg (· == 1) (State.get_set_self ..)⟩

theorem State.domOn_congr (h : t.pkg = s.pkg) (h' : t.bu.shut = s.bu.shut) (d : Nat) : t.domOn d = s.domOn d := by
  unfold State.domOn State.domPowered State.underTest
  rw [h, h']

/-! ## A reset begins (R479, R480) -/

/-- The fields of a core reset's ARG. -/
theorem coreReset_arg {n c : Nat} (hn : n < 4) (hc : c < 4) : let a := withLevel 0 (2 ^ 2 + n * 2 ^ 4 + c * 2 ^ 8)
    a % 4 = 0 ∧ rstArgOk a = true ∧ rstMode a = 1 ∧ rstNode a = n ∧ rstCore a = c := by
  revert hc c
  revert hn n
  decide

theorem exec_coreReset {n c : Nat} (hr : s.buReached = true) (hheld : s.pkg.held = false) (hidle : s.isSet AGT_BU_STAT.BUSY 0 = false)
    (hshut : s.bu.shut = none) (hn : n < 4) (hc : c < 4) (hadm : s.admitted n = true) (hdom : s.domOn (8 * n + 4 + c) = true) :
    ∃ t, exec (.coreReset (2 ^ 2 + n * 2 ^ 4 + c * 2 ^ 8) []) s = .next t ∧
      t.bu.reset = some { level := 0, node := n, core := c, draining := true, start := s.time.now } ∧ s.sameBut [.regs, .bu] t := by
  obtain ⟨hlevel, hok, hmode, hnode, hcore⟩ := coreReset_arg hn hc
  generalize ha : withLevel 0 (2 ^ 2 + n * 2 ^ 4 + c * 2 ^ 8) = a at *
  obtain ⟨hshut', hpkg, htime, -⟩ := s.buTaken_kept 0x10 a
  have hact : (s.buTaken 0x10 a).coreReset a [] =
      (s.buTaken 0x10 a).setReset (some { level := 0, node := n, core := c, draining := true, start := s.time.now }) := by
    unfold State.coreReset
    dsimp only
    rw [hnode, hcore, hok, hmode, s.admitted_buTaken, hadm, State.domOn_congr hpkg hshut', hdom, hshut', hshut, htime]
    rfl
  refine ⟨(s.buTaken 0x10 a).setReset (some { level := 0, node := n, core := c, draining := true, start := s.time.now }), congrArg Outcome.next ?_, rfl,
    (State.setBu_within (k := 268435458) rfl (s.buTaken_within 0x10 a)).sameBut (by decide)⟩
  rw [ha, State.buWrite_taken hr hheld hidle]
  unfold State.resetAct
  rw [if_pos hlevel]
  exact hact

theorem dieReset_arg {n : Nat} (hn : n < 4) : let a := withLevel 1 (n * 2 ^ 4)
    a % 4 = 1 ∧ rstArgOk a = true ∧ rstMode a = 0 ∧ rstNode a = n := by
  revert hn n
  decide

theorem exec_dieReset {n : Nat} {got : List Nat} (hr : s.buReached = true) (hheld : s.pkg.held = false) (hidle : s.isSet AGT_BU_STAT.BUSY 0 = false)
    (hshut : s.bu.shut = none) (hn : n < 4) (hdom : s.domPowered 37 = true) (hadm : s.admitted n = true) :
    ∃ t, exec (.dieReset (n * 2 ^ 4) got) s = .next t ∧
      t.bu.reset = some { level := 1, node := n, draining := true, start := s.time.now } ∧ s.sameBut [.regs, .bu] t := by
  obtain ⟨hlevel, hok, hmode, hnode⟩ := dieReset_arg hn
  generalize ha : withLevel 1 (n * 2 ^ 4) = a at *
  obtain ⟨hshut', hpkg, htime, -⟩ := s.buTaken_kept 0x10 a
  have hpow : (s.buTaken 0x10 a).domPowered 37 = true := hdom
  have hact : (s.buTaken 0x10 a).dieReset a got =
      (s.buTaken 0x10 a).setReset (some { level := 1, node := n, draining := true, start := s.time.now }) := by
    unfold State.dieReset
    dsimp only
    rw [hnode, hok, hmode, s.admitted_buTaken, hadm, hpow, hshut', hshut, htime]
    rfl
  refine ⟨(s.buTaken 0x10 a).setReset (some { level := 1, node := n, draining := true, start := s.time.now }), congrArg Outcome.next ?_, rfl,
    (State.setBu_within (k := 268435458) rfl (s.buTaken_within 0x10 a)).sameBut (by decide)⟩
  rw [ha, State.buWrite_taken hr hheld hidle]
  unfold State.resetAct
  rw [if_neg (by omega), if_pos hlevel]
  exact hact

theorem State.foldl_haltCtx_bu (l : List Nat) (s : State) : (l.foldl (fun st c => st.haltCtx c) s).bu = s.bu :=
  (Within.foldl (k := 2) (.refl _ s) (fun _ _ h => State.haltCtx_within (k := 2) rfl h)).parts .bu rfl

/-- A context that is ACTIVE or halted, halted among others. -/
theorem State.ctxState_foldl_halt {l : List Nat} {k : Nat} (hl : ∀ c ∈ l, c < 512) (hk : k < 512) (s : State)
    (h : (k ∈ l ∧ s.ctxState k = 1) ∨ s.ctxState k = 2) : (l.foldl (fun st c => st.haltCtx c) s).ctxState k = 2 := by
  induction l generalizing s with
  | nil => exact h.resolve_left (fun h => List.not_mem_nil h.1)
  | cons c l ih =>
    refine ih (fun e he => hl e (List.mem_cons_of_mem _ he)) (s.haltCtx c) ?_
    have hself (hkc : k = c) : (s.haltCtx c).ctxState k = 2 := by
      subst c
      unfold State.haltCtx
      split
      · exact State.get_set_self ..
      · rcases h with ⟨-, h⟩ | h
        · exact absurd h ‹_›
        · exact h
    have hother (hkc : k ≠ c) : (s.haltCtx c).ctxState k = s.ctxState k := by
      unfold State.haltCtx
      split
      · exact State.get_set_ne (Fld.key_ne_of_index (by decide) hk (hl c List.mem_cons_self) hkc)
      · rfl
    by_cases hkc : k = c
    · exact .inr (hself hkc)
    · rw [hother hkc]
      rcases h with ⟨hmem, h⟩ | h
      · exact .inl ⟨(List.mem_cons.1 hmem).resolve_left hkc, h⟩
      · exact .inr h

theorem partReset_arg {q : Nat} (hq : q < 16) : let a := withLevel 2 (2 ^ 2 + q * 2 ^ 12)
    a % 4 = 2 ∧ rstArgOk a = true ∧ rstMode a = 1 ∧ rstPart a = q := by
  revert hq q
  decide

theorem exec_partitionReset {q : Nat} (hr : s.buReached = true) (hheld : s.pkg.held = false) (hidle : s.isSet AGT_BU_STAT.BUSY 0 = false)
    (hshut : s.bu.shut = none) (hq : q < 16) : ∃ t, exec (.partitionReset (2 ^ 2 + q * 2 ^ 12)) s = .next t ∧
      t.bu.reset = some { level := 2, part := q, draining := true, start := s.time.now } ∧
      ∀ k, k < 512 → s.ctxPart k = q → s.ctxState k = 1 → t.ctxState k = 2 := by
  obtain ⟨hlevel, hok, hmode, hpart⟩ := partReset_arg hq
  generalize ha : withLevel 2 (2 ^ 2 + q * 2 ^ 12) = a at *
  obtain ⟨hshut', hpkg, htime, -⟩ := s.buTaken_kept 0x10 a
  let u : State := (s.buTaken 0x10 a).setReset (some { level := 2, part := q, draining := true, start := s.time.now })
  have hact : (s.buTaken 0x10 a).partReset a = (u.partContexts q).foldl (fun st c => st.haltCtx c) u := by
    unfold State.partReset
    dsimp only
    rw [hpart, hok, hmode, hshut', hshut, htime]
    rfl
  have hgets (g : Fld) (h : [AGT_BU_CMD.OP, AGT_BU_CMD.ARG, AGT_BU_STAT.BUSY].all g.apart = true) (k : Nat) : u.get g k = s.get g k :=
    (State.agreesOn_buTaken h s 0x10 a).get k
  refine ⟨_, congrArg Outcome.next ?_, congrArg BringUp.reset (State.foldl_haltCtx_bu (u.partContexts q) u), fun k hk hkq hk1 => ?_⟩
  · rw [ha, State.buWrite_taken hr hheld hidle]
    unfold State.resetAct
    rw [if_neg (by omega), if_neg (by omega), if_pos hlevel]
    exact hact
  · have hstate : u.ctxState k = 1 := (hgets _ (by decide) k).trans hk1
    have hpartk : u.ctxPart k = q := (hgets _ (by decide) k).trans hkq
    refine State.ctxState_foldl_halt (fun c hc => ?_) hk u (.inl ⟨?_, hstate⟩)
    · exact List.mem_range.1 (List.mem_filter.1 hc).1
    · exact List.mem_filter.2 ⟨List.mem_range.2 hk, by simp [hpartk, hstate]⟩

theorem State.get_packageReset_pass (s : State) :
    s.packageReset.get AGT_BU_RETPASS.PASS 0 = s.get AGT_BU_RETPASS.PASS 0 % 2 ^ AGT_BU_RETPASS.PASS.width := by
  rw [State.packageReset_eq]
  unfold State.boundRate State.putRetained
  simp only [List.foldl_cons, List.foldl_nil]
  rw [State.get_set_apart (by decide), State.get_set_apart (by decide), State.get_set_apart (by decide)]
  exact State.get_set_self ..

theorem exec_packageReset (hr : s.buReached = true) (hheld : s.pkg.held = false) (hidle : s.isSet AGT_BU_STAT.BUSY 0 = false) :
    ∃ t, exec (.packageReset 0) s = .next t ∧ (∀ d, t.domPowered d = (d == 32)) ∧ t.time.now = s.time.now ∧ t.fuses = s.fuses ∧
      t.dic.copy0 = s.dic.copy0 ∧ t.dic.copy1 = s.dic.copy1 ∧ t.sched = {} ∧ t.mem = [] ∧ t.bu.run = none ∧
      t.get AGT_BU_RETPASS.PASS 0 = s.get AGT_BU_RETPASS.PASS 0 % 2 ^ AGT_BU_RETPASS.PASS.width := by
  have hw := (s.buTaken 0x10 3).packageReset_of_base
  have hexec : exec (.packageReset 0) s = .next (s.buTaken 0x10 3).packageReset := congrArg Outcome.next (State.buWrite_taken hr hheld hidle)
  refine ⟨_, hexec, (s.buTaken 0x10 3).packageReset_domPowered, ?_, hw.parts .fuses rfl, ?_, ?_, hw.parts .sched rfl, hw.parts .mem rfl, ?_, ?_⟩
  · rw [hw.parts .time rfl]; rfl
  · rw [hw.parts .dic rfl]; rfl
  · rw [hw.parts .dic rfl]; rfl
  · rw [hw.parts .bu rfl]; rfl
  · rw [State.get_packageReset_pass, (State.agreesOn_buTaken (by decide) s 0x10 3).get]

/-! ## A reset ends (R480, R481) -/

theorem State.buSettle_kept (s : State) (st : Status) (res : Nat) :
    (s.buSettle st res).bu.reset = s.bu.reset ∧ (s.buSettle st res).bu.shut = s.bu.shut := by
  unfold State.buSettle
  split <;> exact ⟨rfl, rfl⟩

theorem State.buFinish_kept (s : State) : s.buFinish.bu.reset = s.bu.reset ∧ s.buFinish.bu.shut = s.bu.shut := by
  unfold State.buFinish
  split
  · split
    · dsimp only
      split
      · exact ⟨rfl, rfl⟩
      · split
        · exact ⟨rfl, rfl⟩
        · split <;> exact ⟨rfl, rfl⟩
    · exact ⟨rfl, rfl⟩
  · exact ⟨rfl, rfl⟩

theorem State.resetEnds_reset (s : State) (st : Status) (res : Nat) : (s.resetEnds st res).bu.reset = none :=
  (State.buFinish_kept _).1.trans ((s.setReset none).buSettle_kept st res).1

/-- Settles O46. -/
theorem resetsRunAndEnd : Obligations.ResetsRunAndEnd := by
  refine ⟨fun s hr hheld hidle hshut => ⟨fun n c hn hc hadm hdom => exec_coreReset hr hheld hidle hshut hn hc hadm hdom,
      fun n got hn hdom hadm => exec_dieReset hr hheld hidle hshut hn hdom hadm, fun q hq => exec_partitionReset hr hheld hidle hshut hq,
      exec_packageReset hr hheld hidle⟩,
    fun s j hs hj => ⟨fun got hdr hlate => ?_, fun r hl hadm hdone => ?_, fun r hl hadm => ?_, fun r hl hdone => ?_, fun r hl hdr hnone => ?_,
      fun st res => s.resetEnds_reset st res⟩⟩
  · have hexec : exec (.resetDrainTimeout got) s = execResetDrainTimeout got s := rfl
    unfold execResetDrainTimeout at hexec
    rw [State.onClock_of hs, hj] at hexec
    dsimp -zeta only at hexec
    rw [if_neg (by simp [hdr, hlate])] at hexec
    extract_lets u at hexec
    exact ⟨u, (State.setBu_within (k := 268435456) rfl (.refl _ s)).sameBut (by decide), rfl, hexec⟩
  · have hexec : exec (.resetComplete r) s = .next
        (((if j.core = 1 then (s.preemptNamed j.node j.core).drainStep j.node else s.preemptNamed j.node j.core).loseCore j.node j.core).resetEnds .ok 0) := by
      refine (State.onClock_of hs).trans ?_
      rw [hj]
      dsimp only
      rw [if_pos hl, if_neg (by simp [hadm]), if_neg (by rcases hdone with h | h <;> simp [h])]
    exact ⟨_, hexec, State.resetEnds_reset .., rfl⟩
  · refine (State.onClock_of hs).trans ?_
    rw [hj]
    dsimp only
    rw [if_pos hl, if_pos (by simp [hadm])]
  · refine (State.onClock_of hs).trans ?_
    rw [hj]
    dsimp only
    rw [if_neg (by omega), if_pos hl, if_neg (by rcases hdone with h | h | h <;> simp [h])]
  · refine (State.onClock_of hs).trans ?_
    rw [hj]
    dsimp only
    rw [if_neg (by omega), if_neg (by omega)]
    simp only [hdr, Bool.false_and, Bool.false_eq_true, if_false, hnone, List.isEmpty_nil, if_true]

/-! ## Shutdown (R483 to R486) -/

theorem State.showRegion_eq (s : State) : ∃ r, s.showRegion = s.set AGT_BU_SHUT.REGION 0 r := by
  unfold State.showRegion
  split <;> exact ⟨_, rfl⟩

theorem State.get_showRegion {g : Fld} (h : g.apart AGT_BU_SHUT.REGION = true) (s : State) (i : Nat) : s.showRegion.get g i = s.get g i := by
  obtain ⟨r, hr⟩ := s.showRegion_eq
  rw [hr, State.get_set_apart h]

theorem State.showRegion_bu (s : State) : s.showRegion.bu = s.bu := by
  obtain ⟨r, hr⟩ := s.showRegion_eq
  rw [hr]
  rfl

theorem State.agreesOn_buSettle (g : Fld) (s : State) (st : Status) (res : Nat) : State.agreesOn g s (s.buSettle st res) :=
  State.agreesOn_of_regs ((State.buSettle_within (k := 268435456) rfl (.refl _ s)).parts .regs rfl)

/-- What a completion shows on AGT_BU. -/
def Fld.offCompletion (g : Fld) : Bool :=
  [AGT_BU_STAT.BUSY, AGT_BU_STAT.STATUS, AGT_BU_STAT.LAST_OP, AGT_BU_RESULT.VALUE, AGT_BU_STEPS.DONE].all g.apart

theorem State.agreesOn_buFinish {g : Fld} (h : g.offCompletion = true) (s : State) : State.agreesOn g s s.buFinish := by
  simp only [Fld.offCompletion, List.all_cons, List.all_nil, Bool.and_true, Bool.and_eq_true] at h
  obtain ⟨hbusy, hst, hop, hres, hdone⟩ := h
  have hfree : State.agreesOn g s s.buFree := (State.agreesOn_of_regs (t := s.setBu _) rfl).trans (State.agreesOn_setO hbusy _ _ _)
  have hshow (u : State) (op : Nat) (st : Status) (res : Nat) : State.agreesOn g u (u.buShow op st res) := by
    have hregs := ((State.agreesOn_setO (s := u) hst 4 0 st.code).trans (State.agreesOn_setO hop 4 0 op)).trans (State.agreesOn_setO hres 4 0 res)
    unfold State.buShow
    dsimp only
    split
    · exact hregs.trans ((State.agreesOn_setO hdone _ _ _).trans (State.agreesOn_of_regs rfl))
    · exact hregs.trans (State.agreesOn_of_regs rfl)
  cases hrun : s.bu.run with
  | none =>
    have hsame : s.buFinish = s := by
      unfold State.buFinish
      rw [hrun]
    rw [hsame]
    exact State.agreesOn_refl g s
  | some j =>
    cases hd : j.done with
    | none =>
      have hsame : s.buFinish = s := by
        unfold State.buFinish
        rw [hrun]
        dsimp only
        rw [hd]
      rw [hsame]
      exact State.agreesOn_refl g s
    | some x =>
      rw [State.buFinish_of hrun hd]
      split
      · exact hfree.trans (State.agreesOn_of_regs rfl)
      · split
        · exact hfree.trans (State.agreesOn_of_regs rfl)
        · exact hfree.trans (hshow s.buFree j.op x.1 x.2)

theorem State.regionOk_buTaken (s : State) (op arg d : Nat) : (s.buTaken op arg).regionOk d = s.regionOk d := by
  unfold State.regionOk
  rw [s.admitted_buTaken]
  rfl

theorem State.shutBegins (s : State) (j : ShutJob) : let t := ((s.set AGT_BU_SHUT.PHASE 0 1).set AGT_BU_SHUT.ABORTED 0 0).setShut (some j)
    t.bu.shut = some j ∧ t.get AGT_BU_SHUT.PHASE 0 = 1 ∧ t.get AGT_BU_SHUT.ABORTED 0 = 0 := by
  have hab : ((s.set AGT_BU_SHUT.PHASE 0 1).set AGT_BU_SHUT.ABORTED 0 0).get AGT_BU_SHUT.ABORTED 0 = 0 := State.get_set_self ..
  have hphase : ((s.set AGT_BU_SHUT.PHASE 0 1).set AGT_BU_SHUT.ABORTED 0 0).get AGT_BU_SHUT.PHASE 0 = 1 :=
    (State.get_set_apart (by decide)).trans (State.get_set_self ..)
  exact ⟨rfl, hphase, hab⟩

theorem exec_shutdown {arg : Nat} (hr : s.buReached = true) (hheld : s.pkg.held = false) (hidle : s.isSet AGT_BU_STAT.BUSY 0 = false)
    (harg : arg < 2 ^ 45) (hok : ∀ d, d < 44 → bit arg d = true → s.regionOk d = true) :
    ∃ t j, exec (.shutdown arg) s = .next t ∧ t.bu.shut = some j ∧
      j.plan = maskList 44 (bits arg 0 44) ∧ j.pwroff = bit arg 44 ∧ j.testing = [] ∧ t.get AGT_BU_SHUT.PHASE 0 = 1 ∧
      t.get AGT_BU_SHUT.ABORTED 0 = 0 := by
  have hall : (maskList 44 (bits arg 0 44)).all (s.buTaken 0x11 arg).regionOk = true := by
    rw [List.all_eq_true]
    intro d hd
    obtain ⟨hlt, hbit⟩ := mem_maskList.1 hd
    rw [bits_zero, bit_mod_two_pow hlt] at hbit
    rw [s.regionOk_buTaken]
    exact hok d hlt hbit
  have hexec : exec (.shutdown arg) s = execShutdown arg s := rfl
  unfold execShutdown at hexec
  rw [State.buWrite_taken hr hheld hidle] at hexec
  extract_lets ds s1 s2 at hexec
  rw [if_neg (by simp only [ds, hall]; simpa using harg)] at hexec
  obtain ⟨hshut, hphase, hab⟩ := s2.shutBegins { plan := ds, pwroff := bit arg 44, start := (s.buTaken 0x11 arg).time.now }
  exact ⟨_, _, hexec, hshut, rfl, rfl, rfl, hphase, hab⟩

/-! ### Power off -/

theorem mem_parentsFirst_all {d : Nat} (h : d < 44) : d ∈ parentsFirst (2 ^ 44 - 1) := by
  have hdepth : ∀ e < 44, depthOf e < 5 := by decide
  have hbit : ∀ e < 44, bit (2 ^ 44 - 1) e = true := by decide
  exact List.mem_flatMap.2 ⟨depthOf d, List.mem_range.2 (hdepth d h), List.mem_filter.2 ⟨mem_maskList.2 ⟨h, hbit d h⟩, by simp⟩⟩

/-- A domain goes off with all that it holds. -/
def State.dropDomain (s : State) (d : Nat) : State := (s.loseDomain d).setDom d .off

theorem State.domPowered_dropDomain (s : State) (d e : Nat) : (s.dropDomain d).domPowered e = (s.domPowered e && e != d) := by
  obtain ⟨hself, hne, -, -⟩ := (s.loseDomain d).setDom_parts d .off
  rw [State.loseDomain_pkg] at hne
  unfold State.domPowered State.dropDomain
  by_cases h : e = d
  · subst e
    rw [hself]
    simp
  · rw [hne e h]
    simp [h]

theorem State.domPowered_foldl_drop (l : List Nat) (s : State) (e : Nat) :
    (l.foldl State.dropDomain s).domPowered e = (s.domPowered e && !l.contains e) := by
  induction l generalizing s with
  | nil => simp
  | cons d l ih =>
    rw [List.foldl_cons, ih, State.domPowered_dropDomain]
    cases hp : s.domPowered e <;> by_cases he : e = d <;> simp [he]

theorem State.dropDomain_within (s : State) (d : Nat) : Within 117358583 s (s.dropDomain d) :=
  Within.pkg (k := 117358583) rfl (State.loseDomain_within (k := 117358583) rfl (.refl _ s)) _

/-- What a completion leaves of the package, of a shutdown and of the registers off AGT_BU. -/
theorem State.buEnds_kept (s : State) (st : Status) (res : Nat) : let t := (s.buSettle st res).buFinish
    t.pkg = s.pkg ∧ t.bu.shut = s.bu.shut ∧ ∀ g : Fld, g.offCompletion = true → t.get g 0 = s.get g 0 :=
  ⟨(State.buFinish_within (k := butPkg) rfl (State.buSettle_within rfl (.refl _ s))).parts .pkg rfl,
    (State.buFinish_kept _).2.trans (s.buSettle_kept st res).2,
    fun g hg => ((State.agreesOn_buFinish hg _).get 0).trans ((State.agreesOn_buSettle g s st res).get 0)⟩

/-- The last registers that a shutdown writes. -/
theorem State.domainsGone (s : State) : let t := (s.set AGT_FAB_STATUS.ADMITTED 0 0).set AGT_BU_SHUT.PHASE 0 4
    t.get AGT_BU_SHUT.PHASE 0 = 4 ∧ ∀ n, t.admitted n = false := by
  refine ⟨State.get_set_self .., fun n => ?_⟩
  have hadm : ((s.set AGT_FAB_STATUS.ADMITTED 0 0).set AGT_BU_SHUT.PHASE 0 4).get AGT_FAB_STATUS.ADMITTED 0 = 0 :=
    (State.get_set_apart (by decide)).trans (State.get_set_self ..)
  unfold State.admitted
  rw [hadm]
  simp [bit]

theorem exec_shutdownOff {j : ShutJob} (hs : s.clocked = true) (hj : s.bu.shut = some j) (hphase : s.get AGT_BU_SHUT.PHASE 0 = 3) :
    ∃ t, exec .shutdownOff s = .next t ∧ t.bu.shut = none ∧
      (∀ d, d ≠ 32 → d < 44 → t.domPowered d = false) ∧ t.get AGT_BU_SHUT.PHASE 0 = 4 ∧ ∀ n, t.admitted n = false := by
  have hexec : exec .shutdownOff s = execShutdownOff s := rfl
  unfold execShutdownOff at hexec
  rw [State.onClock_of hs, hj] at hexec
  dsimp -zeta only at hexec
  rw [if_neg (by simp [hphase])] at hexec
  extract_lets off s1 s2 at hexec
  have hfold : s1 = off.foldl State.dropDomain (s.setShut none) := rfl
  have hshut : s1.bu.shut = none := by
    rw [hfold, (Within.foldl (k := 117358583) (.refl _ (s.setShut none)) (fun u d h => h.trans (u.dropDomain_within d))).parts .bu rfl]
    rfl
  have hdown (d : Nat) (h32 : d ≠ 32) (h44 : d < 44) : s1.domPowered d = false := by
    have hset : (s.setShut none).domPowered d = s.domPowered d := rfl
    rw [hfold, State.domPowered_foldl_drop, hset]
    by_cases hp : s.domPowered d = true
    · have hmem : d ∈ off := List.mem_filter.2 ⟨List.mem_reverse.2 (mem_parentsFirst_all h44), by simp [h32, hp]⟩
      simp [hmem]
    · simp [hp]
  clear_value s1
  obtain ⟨hphase4, hadm⟩ := s1.domainsGone
  have hu : ∃ u : State, exec .shutdownOff s = .next (u.buSettle .ok 0).buFinish ∧ u.pkg = s1.pkg ∧ u.bu = s1.bu ∧ u.regs = s2.regs := by
    by_cases hp : j.pwroff = true
    · rw [if_pos hp] at hexec
      exact ⟨_, hexec, rfl, rfl, rfl⟩
    · rw [if_neg hp] at hexec
      exact ⟨_, hexec, rfl, rfl, rfl⟩
  obtain ⟨u, hexec', hpkg, hbu, hregs⟩ := hu
  obtain ⟨hpkg', hshut', hget⟩ := u.buEnds_kept .ok 0
  refine ⟨_, hexec', hshut'.trans ((congrArg BringUp.shut hbu).trans hshut), fun d h32 h44 => ?_, ?_, fun n => ?_⟩
  · unfold State.domPowered
    rw [hpkg', hpkg]
    exact hdown d h32 h44
  · exact ((hget _ (by decide)).trans (State.getO_congr hregs _ 4 0)).trans hphase4
  · exact (State.admitted_congr ((hget _ (by decide)).trans (State.getO_congr hregs _ 4 0))).trans (hadm n)

/-- Settles O47. -/
theorem shutdownRuns : Obligations.ShutdownRuns := by
  intro s
  refine ⟨fun arg hr hheld hidle harg hok => exec_shutdown hr hheld hidle harg hok,
    fun j hj hs => ⟨fun hphase hengines => ?_, fun d pass hd hab => ?_, fun hphase => exec_shutdownOff hs hj hphase⟩,
    fun j hr hheld hj hphase => ⟨fun htest => ?_, fun htest => ?_⟩, fun j hnext htest => ?_⟩
  · refine ⟨s.set AGT_BU_SHUT.PHASE 0 2, ?_, State.get_set_self .., (State.set_within (k := 2) rfl (.refl _ s)).sameBut (by decide)⟩
    refine (State.onClock_of hs).trans ?_
    rw [hj]
    dsimp only
    rw [if_neg (by simp [hphase, hengines])]
  · have hexec : exec (.regionBistComplete d pass) s = execRegionBistComplete d pass s := rfl
    unfold execRegionBistComplete at hexec
    rw [State.onClock_of hs, hj] at hexec
    dsimp -zeta only at hexec
    rw [if_neg (by simp [hd])] at hexec
    extract_lets j1 dies fab s1 at hexec
    rw [if_neg (by simp [j1, hab])] at hexec
    exact ⟨s1, (Within.fabric (k := 32768) rfl (.refl _ s) _).sameBut (by decide), hexec⟩
  · have hne : j.testing.isEmpty = false := by simpa using htest
    unfold exec execShutdownAbort
    rw [if_neg (by simp [hr]), if_neg (by simp [hheld]), hj]
    dsimp only
    rw [if_neg (by rcases hphase with h | h <;> simp [h]), if_neg (by simp [hne])]
    rfl
  · have hexec : exec .shutdownAbort s = .next s.abortShut := by
      unfold exec execShutdownAbort
      rw [if_neg (by simp [hr]), if_neg (by simp [hheld]), hj]
      dsimp only
      rw [if_neg (by rcases hphase with h | h <;> simp [h]), if_pos (by simp [htest])]
    refine ⟨_, hexec, ?_, ?_, ?_⟩
    · exact ((State.buFinish_kept _).2.trans (State.buSettle_kept _ .preempted 0).2).trans (congrArg BringUp.shut (s.setShut none).showRegion_bu)
    · refine ((State.agreesOn_buFinish (by decide) _).get 0).trans (((State.agreesOn_buSettle _ _ .preempted 0).get 0).trans ?_)
      exact (State.get_set_apart (by decide)).trans (State.get_set_self ..)
    · refine ((State.agreesOn_buFinish (by decide) _).get 0).trans (((State.agreesOn_buSettle _ _ .preempted 0).get 0).trans ?_)
      exact State.get_set_self ..
  · have hseal : s.bistNext j = ((s.setShut (some j)).sealShut j).showRegion := by
      unfold State.bistNext
      rw [hnext, htest]
      rfl
    rw [hseal]
    unfold State.sealShut
    refine ⟨?_, ?_, ?_⟩
    · rw [State.get_showRegion (by decide), State.get_set_apart (by decide), State.get_set_self]
      rfl
    · rw [State.get_showRegion (by decide), State.get_set_apart (by decide), State.get_set_apart (by decide), State.get_set_apart (by decide)]
      exact State.get_set_self ..
    · rw [State.get_showRegion (by decide), State.get_set_self]
      rfl

end Sys2Proof.Machine
end

section
/-! PROOFS. A function-level reset of one virtual function (O54). -/

namespace Sys2Proof.Machine

open Host Reg

/-- The reset of virtual function `v` concerns neither physical function, so the list of enabled functions stays (log entry 47). -/
theorem State.hostGone_vf_host (s : State) (v : Nat) (got : List Nat) : (s.hostGone (some (v + 1 + 1)) got).host = s.host := by
  have h0 : concerns (some (v + 1 + 1)) 0 = false := by simp [concerns]
  have h1 : concerns (some (v + 1 + 1)) 1 = false := by simp [concerns]
  unfold State.hostGone
  extract_lets t3 s1 hit s2 s3
  have hkeep : s2.host = s.host := by
    have hdrop : Within 37847 s s1 := Within.foldl (.refl _ s) (fun _ _ h => State.dropT3Tile_within (k := 37847) rfl h)
    have habort : Within 825303 s s2 :=
      Within.foldl (hdrop.mono (j := 37847) rfl) (fun _ _ h => State.abortCtx_within (k := 825303) rfl h)
    exact habort.parts .host rfl
  rw [h1, if_neg (by decide)]
  show { s2.host with vfEnabled := if concerns (some (v + 1 + 1)) 0 then [] else s2.host.vfEnabled } = s.host
  rw [h0, if_neg (by decide), hkeep]

/-- The state after power-up with virtual function 0 enabled. -/
def State.withVf0 (s : State) : State := { s with host := { s.host with vfEnabled := [0] } }

/-- Refutes O54: an FLR of virtual function 0 leaves it among the enabled functions, where the statement takes it out. -/
theorem not_hostAndNetworks : ¬ Obligations.HostAndNetworks := by
  unfold Obligations.HostAndNetworks
  intro h
  have hclk : (Tests.up.withVf0).clocked = true := by decide +kernel
  obtain ⟨-, hflr, -⟩ := h Tests.up.withVf0 [] hclk
  obtain ⟨t, hexec, hvf, -⟩ := hflr 0
  have hrun : exec (.flr (2 + 0) []) Tests.up.withVf0 = .next (Tests.up.withVf0.hostGone (some (0 + 1 + 1)) []) := State.onClock_of hclk
  rw [hrun] at hexec
  have ht : t.host.vfEnabled = [0] := by
    rw [← Outcome.next.inj hexec, State.hostGone_vf_host]; rfl
  simp [ht, State.withVf0] at hvf

end Sys2Proof.Machine
end

section
/-! PROOFS. Subdevice positions and the CoE mailbox (O53). -/

namespace Sys2Proof.Machine

open Host Reg

variable {s t : State} {m n : Nat}

/-! ## Positions (R380) -/

theorem State.sub_congr (h : t.ecat = s.ecat) (m : Nat) : t.sub m = s.sub m := by
  unfold State.sub
  rw [h]

@[simp] theorem State.sub_setSub_self (s : State) (n : Nat) (x : SubPos) : (s.setSub n x).sub n = x := tget_tput_self

theorem State.sub_setSub_ne (h : m ≠ n) (s : State) (x : SubPos) : (s.setSub n x).sub m = s.sub m := tget_tput_ne h

@[simp] theorem State.sub_ecatIrq (s : State) (m : Nat) : s.ecatIrq.sub m = s.sub m :=
  State.sub_congr ((State.ecatIrq_within (k := 1024) rfl (.refl _ s)).parts .ecat rfl) m

@[simp] theorem State.sub_emcyOpen (s : State) (m : Nat) : s.emcyOpen.sub m = s.sub m :=
  State.sub_congr ((State.emcyOpen_within (k := 1029) rfl (.refl _ s)).parts .ecat rfl) m

@[simp] theorem State.sub_readIdentity (s : State) (n m : Nat) : (s.readIdentity n).sub m = s.sub m :=
  State.sub_congr ((State.readIdentity_within (k := 1024) rfl (.refl _ s)).parts .ecat rfl) m

@[simp] theorem State.sub_ecatLink (s : State) (port v m : Nat) : (s.ecatLink port v).sub m = s.sub m :=
  State.sub_congr ((State.ecatLink_within (k := 2) rfl (.refl _ s)).parts .ecat rfl) m

@[simp] theorem State.sub_subGoes_self (s : State) (n : Nat) (st : SubState) : ((s.subGoes n st).sub n).st = st := by
  unfold State.subGoes
  rw [State.sub_ecatIrq, State.sub_setSub_self]

theorem State.sub_subGoes_ne (h : m ≠ n) (s : State) (st : SubState) : (s.subGoes n st).sub m = s.sub m := by
  unfold State.subGoes
  rw [State.sub_ecatIrq, State.sub_setSub_ne h]

@[simp] theorem State.sub_subAbsent_self (s : State) (n : Nat) : ((s.subAbsent n).sub n).st = .absent := by
  unfold State.subAbsent
  rw [State.sub_emcyOpen, State.sub_ecatIrq, State.sub_setSub_self]

theorem State.sub_subAbsent_ne (h : m ≠ n) (s : State) : (s.subAbsent n).sub m = s.sub m := by
  unfold State.subAbsent
  rw [State.sub_emcyOpen, State.sub_ecatIrq, State.sub_setSub_ne h]

/-- The positions listed go ABSENT and no other changes. -/
theorem State.sub_foldl_subAbsent (l : List Nat) (s : State) (m : Nat) :
    (m ∈ l → ((l.foldl (fun st n => st.subAbsent n) s).sub m).st = .absent) ∧
    (m ∉ l → (l.foldl (fun st n => st.subAbsent n) s).sub m = s.sub m) := by
  induction l generalizing s with
  | nil => exact ⟨fun h => absurd h List.not_mem_nil, fun _ => rfl⟩
  | cons n l ih =>
    obtain ⟨hin, hout⟩ := ih (s.subAbsent n)
    rw [List.foldl_cons]
    refine ⟨fun h => ?_, fun h => ?_⟩
    · by_cases hm : m ∈ l
      · exact hin hm
      · obtain rfl : m = n := (List.mem_cons.1 h).resolve_right hm
        rw [hout hm, State.sub_subAbsent_self]
    · obtain ⟨hne, hm⟩ := List.ne_and_not_mem_of_not_mem_cons h
      rw [hout hm, State.sub_subAbsent_ne hne]

theorem State.agreesOn_subAbsent (g : Fld) (s : State) (n : Nat) : State.agreesOn g s (s.subAbsent n) :=
  State.agreesOn_of_regs ((State.subAbsent_within (k := 33555461) rfl (.refl _ s)).parts .regs rfl)

/-- The link of a port shows as it was set. -/
theorem State.get_ecatLink (s : State) (port : Nat) :
    (port = 0 → (s.ecatLink port 0).get AGT_ECAT_STATUS.LINK0 0 = 0) ∧ (port = 1 → (s.ecatLink port 0).get AGT_ECAT_STATUS.LINK1 0 = 0) := by
  constructor
  all_goals
    rintro rfl
    exact State.get_set_self ..

/-- The three reads of an identity, in their order. -/
theorem State.readIdentity_out (s : State) (n : Nat) :
    (s.readIdentity n).out = s.out ++ [.coe n 0x1018 1 false [], .coe n 0x1018 2 false [], .coe n 0x1018 4 false []] := by
  simp [State.readIdentity, State.emit]

/-- What an answer at an ABSENT or LOST position leads to, from the state in which an expired RETRY has been applied. -/
theorem State.checks_of_kept {u : State} (hout : s.out <+: u.out) (hsub : ∀ m, m ≠ n → u.sub m = s.sub m) (port : Nat) :
    let t := ((u.ecatLink port 1).subGoes n .checking).readIdentity n
    ((t.sub n).st = .checking ∧ ∀ m, m ≠ n → t.sub m = s.sub m) ∧
      ∃ l, t.out = s.out ++ l ++ [.coe n 0x1018 1 false [], .coe n 0x1018 2 false [], .coe n 0x1018 4 false []] := by
  intro t
  refine ⟨⟨by rw [State.sub_readIdentity, State.sub_subGoes_self], fun m hm => ?_⟩, ?_⟩
  · rw [State.sub_readIdentity, State.sub_subGoes_ne hm, State.sub_ecatLink, hsub m hm]
  · have hwithin : Within 33555458 u ((u.ecatLink port 1).subGoes n .checking) :=
      State.subGoes_within (k := 33555458) rfl (State.ecatLink_within (k := 33555458) rfl (.refl _ u))
    obtain ⟨-, hext, -⟩ := hwithin.kept
    obtain ⟨l, hl⟩ := hout.trans hext
    exact ⟨l, by rw [State.readIdentity_out, hl]⟩

/-- A state that the expiry of RETRY at position `n` leaves. -/
theorem State.lost_parts (s : State) (n : Nat) : s.out <+: ((s.subGoes n .lost).emcyOpen).out ∧
    (((s.subGoes n .lost).emcyOpen).sub n).st = .lost ∧ ∀ m, m ≠ n → ((s.subGoes n .lost).emcyOpen).sub m = s.sub m := by
  have hwithin : Within 33555461 s ((s.subGoes n .lost).emcyOpen) :=
    State.emcyOpen_within (k := 33555461) rfl (State.subGoes_within (k := 33555461) rfl (.refl _ s))
  obtain ⟨-, hext, -⟩ := hwithin.kept
  exact ⟨hext, by rw [State.sub_emcyOpen, State.sub_subGoes_self],
    fun m hm => by rw [State.sub_emcyOpen, State.sub_subGoes_ne hm]⟩

/-- An answer at an ABSENT or LOST position starts the check of its identity. -/
theorem exec_subdeviceAnswer (hs : s.clocked = true) (hn : n < 128) (hdom : s.domOn 34 = true)
    (hst : (s.sub n).st = .absent ∨ (s.sub n).st = .lost) (port : Nat) :
    ∃ t, exec (.subdeviceAnswer n port) s = .next t ∧ ((t.sub n).st = .checking ∧ ∀ m, m ≠ n → t.sub m = s.sub m) ∧
      ∃ l, t.out = s.out ++ l ++ [.coe n 0x1018 1 false [], .coe n 0x1018 2 false [], .coe n 0x1018 4 false []] := by
  have hexec : exec (.subdeviceAnswer n port) s = _ := State.onClock_of hs
  rw [if_neg (by simp [hdom, hn])] at hexec
  rcases hst with hst | hst
  · rw [hst] at hexec
    by_cases hretry : s.retryOver n = true
    · obtain ⟨hout, -, hsub⟩ := s.lost_parts n
      dsimp only at hexec
      rw [if_pos hretry] at hexec
      exact ⟨_, hexec, State.checks_of_kept hout hsub port⟩
    · dsimp only at hexec
      rw [if_neg hretry] at hexec
      exact ⟨_, hexec, State.checks_of_kept (List.prefix_refl _) (fun _ _ => rfl) port⟩
  · rw [hst] at hexec
    exact ⟨_, hexec, State.checks_of_kept (List.prefix_refl _) (fun _ _ => rfl) port⟩

/-- The PRESENT positions of a segment that loses link go ABSENT. -/
theorem exec_ecatLinkLoss (hs : s.clocked = true) (hdom : s.domOn 34 = true) (port : Nat) (positions : List Nat) :
    ∃ t, exec (.ecatLinkLoss port positions) s = .next t ∧
      (port = 0 → t.get AGT_ECAT_STATUS.LINK0 0 = 0) ∧ (port = 1 → t.get AGT_ECAT_STATUS.LINK1 0 = 0) ∧
      ∀ m, (m ∈ positions → (s.sub m).st = .present → (t.sub m).st = .absent) ∧
        (m ∉ positions ∨ (s.sub m).st ≠ .present → t.sub m = s.sub m) := by
  have hexec : exec (.ecatLinkLoss port positions) s = _ := State.onClock_of hs
  rw [if_neg (by simp [hdom])] at hexec
  have hget (g : Fld) := (State.agreesOn_foldl (fun st (n : Nat) => State.agreesOn_subAbsent g st n)
    (positions.filter (fun n => (s.sub n).st == .present)) (s.ecatLink port 0)).get 0
  obtain ⟨hlink0, hlink1⟩ := s.get_ecatLink port
  refine ⟨_, hexec, fun h => (hget _).trans (hlink0 h), fun h => (hget _).trans (hlink1 h), fun m => ?_⟩
  obtain ⟨hin, hout⟩ := State.sub_foldl_subAbsent (positions.filter (fun n => (s.sub n).st == .present)) (s.ecatLink port 0) m
  rw [State.sub_ecatLink] at hout
  refine ⟨fun hm hp => hin (List.mem_filter.2 ⟨hm, by rw [hp]; rfl⟩), fun h => hout fun hmem => ?_⟩
  obtain ⟨hm, hp⟩ := List.mem_filter.1 hmem
  rcases h with h | h
  · exact h hm
  · exact h (eq_of_beq hp)

/-! ## The mailbox (R381) -/

theorem State.mbxEnd_parts (s : State) (st : Status) (size abort : Nat) :
    let t := s.mbxEnd st size abort
    t.isSet AGT_ECAT_MBX_RSP.BUSY 0 = false ∧ t.get AGT_ECAT_MBX_RSP.STATUS 0 = st.code ∧
      t.get AGT_ECAT_MBX_RSP.ABORT 0 = abort % 2 ^ 32 ∧ t.ecat.mbx = none ∧
      t.get AGT_ECAT_MBX_RSP.SIZE 0 = size % 2 ^ 16 ∧ t.ecat.staging = s.ecat.staging ∧
      t.get AGT_ECAT_MBX_DATA.VALUE 0 = s.get AGT_ECAT_MBX_DATA.VALUE 0 := by
  intro t
  refine ⟨?_, ?_, State.get_set_self .., rfl, ?_, rfl, ?_⟩
  · show State.isSet (State.set (State.set (State.set (State.set s _ 0 0) _ 0 _) _ 0 _) _ 0 _) _ 0 = false
    rw [State.isSet_set_apart (by decide), State.isSet_set_apart (by decide), State.isSet_set_apart (by decide)]
    exact congrArg (· == 1) (State.get_set_self ..)
  · show State.get (State.set (State.set (State.set (State.set s _ 0 0) _ 0 _) _ 0 _) _ 0 _) _ 0 = st.code
    rw [State.get_set_apart (by decide), State.get_set_apart (by decide), State.get_set_self]
    exact Nat.mod_eq_of_lt (Status.code_lt st)
  · show State.get (State.set (State.set (State.set (State.set s _ 0 0) _ 0 _) _ 0 _) _ 0 _) _ 0 = _
    rw [State.get_set_apart (by decide)]
    exact State.get_set_self ..
  · show State.get (State.set (State.set (State.set (State.set s _ 0 0) _ 0 _) _ 0 _) _ 0 _) _ 0 = _
    rw [State.get_set_apart (by decide), State.get_set_apart (by decide), State.get_set_apart (by decide),
      State.get_set_apart (by decide)]

/-- The end of a request, as an answer, a refusal or a timeout brings it. -/
theorem State.mbxEnds {u : State} {c : Instr} {st : Status} {size abort ab : Nat} {p : State → Prop} (hu : Within 33554434 s u)
    (hab : abort % 2 ^ 32 = ab) (hp : p (u.mbxEnd st size abort)) (hexec : exec c s = .next (u.mbxEnd st size abort)) :
    ∃ t, exec c s = .next t ∧ t.isSet AGT_ECAT_MBX_RSP.BUSY 0 = false ∧ t.get AGT_ECAT_MBX_RSP.STATUS 0 = st.code ∧
      t.get AGT_ECAT_MBX_RSP.ABORT 0 = ab ∧ t.ecat.mbx = none ∧ s.sameBut [.regs, .ecat] t ∧ p t := by
  obtain ⟨hbusy, hst, habort, hmbx, -⟩ := u.mbxEnd_parts st size abort
  exact ⟨_, hexec, hbusy, hst, habort.trans hab, hmbx, (State.mbxEnd_within (k := 33554434) rfl hu).sameBut (by decide), hp⟩

theorem State.mbxStart_parts (s : State) (j : MbxJob) : (s.mbxStart j).isSet AGT_ECAT_MBX_RSP.BUSY 0 = true ∧
    (s.mbxStart j).ecat.mbx = some j ∧ (s.mbxStart j).out = s.out ++ [.coe j.pos j.idx j.sub j.write j.bytes] :=
  ⟨congrArg (· == 1) (State.get_set_self (s := s) AGT_ECAT_MBX_RSP.BUSY 0 1), rfl, rfl⟩

theorem State.mbxTurnedAway_busy {src : Src} (hr : s.reaches src 4 8 0x40 = true) (hb : s.isSet AGT_ECAT_MBX_RSP.BUSY 0 = true) :
    s.mbxTurnedAway src = some (s.set AGT_ECAT_MBX_RSP.CFG_ERR 0 1) := by
  unfold State.mbxTurnedAway
  rw [if_neg (by simp [hr]), if_pos hb]

theorem State.mbxTurnedAway_idle {src : Src} (hr : s.reaches src 4 8 0x40 = true) (hb : s.isSet AGT_ECAT_MBX_RSP.BUSY 0 = false) :
    s.mbxTurnedAway src = none := by
  unfold State.mbxTurnedAway
  rw [if_neg (by simp [hr]), if_neg (by simp [hb])]

theorem leBytes_length (n v : Nat) : (leBytes n v).length = n := by
  induction n generalizing v with
  | zero => rfl
  | succ n ih => exact congrArg Nat.succ (ih _)

theorem bne_present {st : SubState} (h : st ≠ .present) : (st != .present) = true := bne_iff_ne.2 h

/-- Settles O53. -/
theorem subdevicesAndMailbox : Obligations.SubdevicesAndMailbox := by
  unfold Obligations.SubdevicesAndMailbox
  refine ⟨fun s n hs => ?_, fun s src val size hs => ?_⟩
  · intro goes
    refine ⟨fun hdom port positions => exec_ecatLinkLoss hs hdom port positions, fun port hn hdom hst => ?_, fun id hst => ⟨fun hid => ?_, fun hid => ?_⟩,
      fun hst hle => ?_, fun hdom hst => ?_⟩
    · obtain ⟨t, hexec, hgoes, hout⟩ := exec_subdeviceAnswer hs hn hdom hst port
      exact ⟨⟨t, hexec, hgoes⟩, t, hout.choose, hexec, hout.choose_spec⟩
    · have hexec : exec (.identityReadComplete n id) s = _ := State.onClock_of hs
      rw [if_neg (by rw [hst]; decide)] at hexec
      dsimp only at hexec
      rw [if_pos hid] at hexec
      exact ⟨_, hexec, State.sub_subGoes_self .., fun m hm => State.sub_subGoes_ne hm ..⟩
    · have hexec : exec (.identityReadComplete n id) s = _ := State.onClock_of hs
      rw [if_neg (by rw [hst]; decide)] at hexec
      dsimp only at hexec
      rw [if_neg hid] at hexec
      exact ⟨_, hexec, by rw [State.sub_emcyOpen, State.sub_subGoes_self],
        fun m hm => by rw [State.sub_emcyOpen, State.sub_subGoes_ne hm]⟩
    · have hover : s.retryOver n = true := by
        unfold State.retryOver
        rw [hst]
        exact decide_eq_true hle
      have hexec : exec (.retryExpire n) s = _ := State.onClock_of hs
      rw [if_pos hover] at hexec
      obtain ⟨-, hlost, hother⟩ := s.lost_parts n
      exact ⟨_, hexec, hlost, hother⟩
    · have hexec : exec (.recheck n) s = _ := State.onClock_of hs
      rw [if_pos hdom] at hexec
      unfold State.recheck at hexec
      rw [if_pos (by rw [hst]; rfl)] at hexec
      exact ⟨_, hexec, by rw [State.sub_readIdentity, State.sub_subGoes_self],
        fun m hm => by rw [State.sub_readIdentity, State.sub_subGoes_ne hm]⟩
  · intro pos ends runs
    refine ⟨fun hdom hr => ⟨fun hb => ?_, fun hb => ⟨fun hst => ⟨?_, ?_⟩, fun hst hofs => ⟨?_, fun hsize => ?_, fun hlow hhigh => ?_⟩⟩⟩, fun j hj => ?_⟩
    · have hread : exec (.mbxRead src val) s = _ := State.onClock_of hs
      have hwrite : exec (.mbxWrite src val size) s = _ := State.onClock_of hs
      rw [State.mbxTurnedAway_busy hr hb] at hread hwrite
      exact ⟨hread, hwrite⟩
    · have hexec : exec (.mbxRead src val) s = _ := State.onClock_of hs
      rw [State.mbxTurnedAway_idle hr hb] at hexec
      dsimp only at hexec
      rw [if_pos (bne_present hst)] at hexec
      exact State.mbxEnds (.refl _ s) rfl trivial hexec
    · have hexec : exec (.mbxWrite src val size) s = _ := State.onClock_of hs
      rw [State.mbxTurnedAway_idle hr hb] at hexec
      dsimp only at hexec
      rw [if_pos (by rw [bne_present hst]; rfl)] at hexec
      exact State.mbxEnds (.refl _ s) rfl trivial hexec
    · have hexec : exec (.mbxRead src val) s = _ := State.onClock_of hs
      rw [State.mbxTurnedAway_idle hr hb] at hexec
      dsimp only at hexec
      rw [if_neg (by rw [hst]; decide), if_pos hofs] at hexec
      exact ⟨_, hexec, State.mbxStart_parts ..⟩
    · have hexec : exec (.mbxWrite src val size) s = _ := State.onClock_of hs
      rw [State.mbxTurnedAway_idle hr hb] at hexec
      dsimp only at hexec
      rw [hofs, if_pos rfl, if_neg (by rw [hst]; simp; omega), List.nil_append, if_neg (by rw [leBytes_length]; omega)] at hexec
      exact ⟨_, hexec, State.mbxStart_parts ..⟩
    · have hexec : exec (.mbxWrite src val size) s = _ := State.onClock_of hs
      rw [State.mbxTurnedAway_idle hr hb] at hexec
      dsimp only at hexec
      rw [hofs, if_pos rfl, if_neg (by rw [hst]; simp; omega), List.nil_append, if_pos (by rw [leBytes_length]; omega)] at hexec
      exact State.mbxEnds (State.setEcat_within (k := 33554434) rfl (.refl _ s)) rfl rfl hexec
    · refine ⟨fun abort bytes habort => ?_, fun hw bytes => ?_, fun hw bytes hlen => ?_, ?_⟩
      · have hexec : exec (.mbxResponse abort bytes) s = _ := State.onClock_of hs
        rw [hj] at hexec
        dsimp only at hexec
        rw [if_pos habort] at hexec
        exact State.mbxEnds (.refl _ s) rfl trivial hexec
      · have hexec : exec (.mbxResponse 0 bytes) s = _ := State.onClock_of hs
        rw [hj] at hexec
        dsimp only at hexec
        rw [if_neg (by decide), if_pos hw] at hexec
        exact State.mbxEnds (.refl _ s) rfl trivial hexec
      · have hexec : exec (.mbxResponse 0 bytes) s = _ := State.onClock_of hs
        rw [hj] at hexec
        dsimp only at hexec
        rw [if_neg (by decide), if_neg (by simp [hw]), if_neg (by omega)] at hexec
        refine State.mbxEnds (State.set_within (k := 33554434) rfl (State.setEcat_within (k := 33554434) rfl (.refl _ s))) rfl ?_ hexec
        obtain ⟨-, -, -, -, hsize, hstaging, hvalue⟩ := State.mbxEnd_parts ((s.setEcat { s.ecat with
          staging := bytes, stagingOf := some (mbxObject false j.pos j.idx j.sub) }).set AGT_ECAT_MBX_DATA.VALUE 0 (leVal (bytes.take 8)))
          .ok bytes.length 0
        exact ⟨hstaging, hsize.trans (Nat.mod_eq_of_lt (by omega)), hvalue.trans (State.get_set_self ..)⟩
      · have hexec : exec .mbxTimeout s = _ := State.onClock_of hs
        rw [if_pos (by rw [hj]; rfl)] at hexec
        exact State.mbxEnds (.refl _ s) rfl trivial hexec

end Sys2Proof.Machine
end

section
/-! PROOFS. The EtherCAT cycle (O52). -/

namespace Sys2Proof.Machine

open Host Reg

variable {s t : State}

/-! ## The end of a cycle (R379, R381) -/

/-- A mask has the bits of the list it is made from. -/
theorem bit_maskOf_iff (l : List Nat) (n : Nat) : bit (maskOf l) n = true ↔ n ∈ l := by
  have hfold (l : List Nat) (m : Nat) :
      bit (l.foldl (fun m i => if bit m i then m else m + 2 ^ i) m) n = true ↔ n ∈ l ∨ bit m n = true := by
    induction l generalizing m with
    | nil => simp
    | cons i l ih =>
      rw [List.foldl_cons, maskOf_step, ih, List.mem_cons]
      by_cases h : n = i
      · subst h
        simp [bit_setBit_self]
      · rw [bit_eq_testBit, testBit_setBit, if_neg h, ← bit_eq_testBit]
        simp [h]
  refine (hfold l 0).trans (or_iff_left ?_)
  simp [bit]

/-- Bit `n` of a mask of 128 positions, as the two fields of AGT_ECAT_VALID hold it. -/
theorem bit_halves {v n : Nat} (h : n < 128) :
    bit ((if n / 64 = 0 then v % 2 ^ 64 else v / 2 ^ 64) % 2 ^ 64) (n % 64) = bit v n := by
  rw [bit_mod_two_pow (by omega)]
  split
  · rw [bit_mod_two_pow (by omega), show n % 64 = n by omega]
  · unfold bit
    rw [Nat.div_div_eq_div_mul, ← Nat.pow_add, show 64 + n % 64 = n by omega]

theorem State.agreesOn_forward {g : Fld} (h : g.apart SCB_CMP_STATUS.INPUT_LOSS = true) (s : State) (kind index : Nat) (b : List Byte) :
    State.agreesOn g s (s.forward kind index b) := by
  unfold State.forward
  split
  · exact State.agreesOn_refl g s
  · extract_lets d
    have hdraw : State.agreesOn g s d.2 := State.agreesOn_of_regs rfl
    split
    · exact hdraw.trans (State.agreesOn_setO h _ _ _)
    · exact hdraw.trans (State.agreesOn_of_regs rfl)

/-- What the end of a cycle writes into registers before the feeds. -/
def State.cycleShown (s : State) : State :=
  let valid := maskOf ((List.range 127).filter s.inputsValid)
  let s1 := s.indexed.foldl (fun st e =>
    match s.backGood e.2 e.1 with
    | some b => if e.1.inOfs = noData then st else st.poke (ecatIn + e.1.inOfs) (b.take e.1.len)
    | none => st) s
  (((s1.set AGT_ECAT_INSEQ.SEQ 0 (s1.get AGT_ECAT_STATUS.CYCLE 0)).set AGT_ECAT_VALID.POS 0 (valid % 2 ^ 64)).set
    AGT_ECAT_VALID.POS 1 (valid / 2 ^ 64)).set AGT_ECAT_STATUS.RING_BROKEN 0 (b2n (s.ecatRing && s.ecat.ports.length == 1))

/-- The feeds, the forwarding and the count of misses change none of the registers of the cycle. -/
theorem State.agreesOn_endCycle {g : Fld} (h : g.apart SCB_CMP_STATUS.INPUT_LOSS = true) (s : State) :
    State.agreesOn g s.cycleShown s.endCycle := by
  have hfeed (st : State) (f : Nat) : State.agreesOn g st (st.feed1 f) :=
    State.agreesOn_of_regs ((State.feed1_within (k := 33555348) rfl (.refl _ st)).parts .regs rfl)
  have hmiss (st : State) (n : Nat) : State.agreesOn g st (st.countMiss n) :=
    State.agreesOn_of_regs ((State.countMiss_within (k := 33555461) rfl (.refl _ st)).parts .regs rfl)
  unfold State.endCycle
  extract_lets valid s1 s2 s3 image s4
  have hs3 : State.agreesOn g s2 s3 := State.agreesOn_foldl hfeed _ _
  have hs4 : State.agreesOn g s3 s4 := (State.agreesOn_forward h s3 3 0 image).trans (State.agreesOn_foldl hmiss _ _)
  have hshown : s.cycleShown = s2 := rfl
  rw [hshown]
  have hset (u : State) (e : Ecat) : State.agreesOn g u (u.setEcat e) := State.agreesOn_of_regs rfl
  exact (hs3.trans hs4).trans (hset s4 _)

/-- Reading the input data changes no register. -/
theorem State.regs_foldl_poke (l : List (Datagram × Nat)) (s u : State) :
    (l.foldl (fun st e =>
      match s.backGood e.2 e.1 with
      | some b => if e.1.inOfs = noData then st else st.poke (ecatIn + e.1.inOfs) (b.take e.1.len)
      | none => st) u).regs = u.regs := by
  induction l generalizing u with
  | nil => rfl
  | cons e l ih =>
    rw [List.foldl_cons, ih]
    split
    · split <;> rfl
    · rfl

theorem State.cycleShown_parts (s : State) :
    s.cycleShown.get AGT_ECAT_INSEQ.SEQ 0 = s.get AGT_ECAT_STATUS.CYCLE 0 % 2 ^ 32 ∧
    ∀ n, n < 127 → (bit (s.cycleShown.get AGT_ECAT_VALID.POS (n / 64)) (n % 64) = true ↔ s.inputsValid n = true) := by
  unfold State.cycleShown
  extract_lets valid s1
  have hregs : s1.regs = s.regs := State.regs_foldl_poke _ s s
  constructor
  · rw [State.get_set_apart (by decide), State.get_set_apart (by decide), State.get_set_apart (by decide), State.get_set_self]
    exact congrArg (· % 2 ^ 32) (State.getO_congr hregs _ 4 0)
  · intro n hn
    have hget : State.get (State.set (State.set (State.set (State.set s1 AGT_ECAT_INSEQ.SEQ 0 (s1.get AGT_ECAT_STATUS.CYCLE 0))
        AGT_ECAT_VALID.POS 0 (valid % 2 ^ 64)) AGT_ECAT_VALID.POS 1 (valid / 2 ^ 64)) AGT_ECAT_STATUS.RING_BROKEN 0
        (b2n (s.ecatRing && s.ecat.ports.length == 1))) AGT_ECAT_VALID.POS (n / 64) =
        (if n / 64 = 0 then valid % 2 ^ 64 else valid / 2 ^ 64) % 2 ^ 64 := by
      rw [State.get_set_apart (by decide)]
      rcases (by omega : n / 64 = 0 ∨ n / 64 = 1) with h | h
      · rw [h, State.get_set_ne (by decide), if_pos rfl]
        exact State.get_set_self ..
      · rw [h, if_neg (by decide)]
        exact State.get_set_self ..
    rw [hget, bit_halves (by omega), bit_maskOf_iff, List.mem_filter]
    exact and_iff_right (List.mem_range.2 hn)

/-! ## The start of a cycle -/

/-- The outputs that a list of messages adds. -/
theorem State.out_foldl_emit {α : Type} (f : α → Output) (l : List α) (s : State) :
    (l.foldl (fun st a => st.emit (f a)) s).out = s.out ++ l.map f := by
  induction l generalizing s with
  | nil => simp
  | cons a l ih => rw [List.foldl_cons, ih]; simp [State.emit]

theorem self_mem_sinsert (l : List Nat) (a : Nat) : a ∈ sinsert l a := by
  induction l with
  | nil => exact List.mem_singleton_self a
  | cons x l ih =>
    unfold sinsert
    split
    · exact List.mem_cons_self
    · split
      · subst_vars; exact List.mem_cons_self
      · exact List.mem_cons_of_mem _ ih

theorem State.emits_within {α : Type} {k : Nat} {u : State} (hk : Sub 1024 k) (f : α → Output) (l : List α) (hu : Within k s u) :
    Within k s (l.foldl (fun st a => st.emit (f a)) u) :=
  Within.foldl hu (fun _ _ h => State.emit_within hk h _)

/-- A cycle start with no cycle under way. -/
theorem exec_ecatCycleStart (hs : s.clocked = true) (hr : s.ecatRuns = true) (ho : s.ecat.open' = false) :
    ∃ (t : State) (l : List Output), exec .ecatCycleStart s = .next t ∧ t.ecat.open' = true ∧
      t.get AGT_ECAT_STATUS.CYCLE 0 = (s.get AGT_ECAT_STATUS.CYCLE 0 + 1) % 2 ^ 32 ∧
      t.ecat.waiting = s.cycleFrames.flatMap (fun f => if s.ecatRing then [2 * f, 2 * f + 1] else [2 * f]) ∧ t.out = s.out ++ l ∧
      l.length = s.cycleFrames.length ∧
      (∀ i, i < l.length → ∃ dc grams, l[i]? = some (.ecat (s.cycleFrames.getD i 9) dc grams)) ∧ s.sameBut [.regs, .out, .cmp, .ecat] t := by
  have hlimit : s.returnLimit = s := if_pos (by rw [ho]; rfl)
  have hexec : exec .ecatCycleStart s = execEcatCycleStart s := rfl
  unfold execEcatCycleStart at hexec
  rw [State.onClock_of hs, if_neg (by simp [hr]), hlimit] at hexec
  extract_lets s' s1 r data frames s2 e at hexec
  have hr1 : Within 16777218 s r.1 :=
    State.placeGuarded_within (k := 16777218) rfl (State.set_within (k := 16777218) rfl (.refl _ s))
  have hr1' : r.1.regs = s1.regs := (State.placeGuarded_within (k := 16777216) rfl (.refl _ s1)).parts .regs rfl
  have hs2 : s2.out = s.out ++ _ := (State.out_foldl_emit _ frames r.1).trans (congrArg (· ++ _) (hr1.parts .out rfl))
  have hregs : s2.regs = r.1.regs := (State.emits_within (k := 1024) rfl _ frames (.refl _ r.1)).parts .regs rfl
  have hall : Within 50332674 s s2 :=
    State.emits_within (k := 50332674) rfl _ frames (hr1.mono (j := 16777218) rfl)
  have hset (u : State) (e : Ecat) : (u.setEcat e).regs = u.regs ∧ (u.setEcat e).out = u.out := ⟨rfl, rfl⟩
  refine ⟨_, _, hexec, rfl, ?_, rfl, (hset s2 _).2.trans hs2, by rw [List.length_map], fun i hi => ?_, ?_⟩
  · exact (State.getO_congr ((hset s2 _).1.trans (hregs.trans hr1')) _ 4 0).trans (State.get_set_self ..)
  · rw [List.length_map] at hi
    rw [List.getElem?_map, List.getElem?_eq_getElem hi]
    refine ⟨_, _, congrArg some (congrArg (fun f => Output.ecat f _ _) ?_)⟩
    rw [List.getD_eq_getElem?_getD, List.getElem?_eq_getElem hi]
    rfl
  · exact (State.setEcat_within (k := 50332674) rfl hall).sameBut (by decide)

/-- Settles O52. -/
theorem ethercatCycles : Obligations.EthercatCycles := by
  unfold Obligations.EthercatCycles
  intro s hs hr
  refine ⟨exec_ecatCycleStart hs hr, fun f port grams ho hw => ?_, fun ho hw => ?_, fun ho hw hring => ?_, ?_, fun f hf => ?_⟩
  · intro rest
    have hexec : exec (.ecatFrameReturn f port grams) s = execEcatFrameReturn f port grams s := rfl
    unfold execEcatFrameReturn at hexec
    rw [State.onClock_of hs, if_neg (by simp [hr, ho, hw])] at hexec
    extract_lets mine back e s1 at hexec
    have hs1 : Within 33554434 s s1 :=
      State.setEcat_within (k := 33554434) rfl (State.ecatLink_within (k := 33554434) rfl (.refl _ s))
    have hwait : s1.ecat.waiting = rest := rfl
    refine ⟨fun hrest => ⟨s1, ?_, hwait, ho, ?_, hs1.sameBut (by decide)⟩, fun hrest => ⟨s1, ?_, hwait.trans hrest, hs1.sameBut (by decide)⟩⟩
    · rw [hexec, if_neg (by rw [hwait, List.isEmpty_iff]; exact hrest)]
    · exact self_mem_sinsert _ _
    · rw [hexec, if_pos (by rw [hwait, hrest]; rfl)]
  · have hexec : exec .ecatReturnLimit s = _ := State.onClock_of hs
    rw [if_pos hr] at hexec
    unfold State.returnLimit at hexec
    rw [if_neg (by simp [ho])] at hexec
    rw [hexec, hw]
    rfl
  · have hexec : exec .ecatReturnLimit s = _ := State.onClock_of hs
    rw [if_pos hr] at hexec
    unfold State.returnLimit at hexec
    rw [if_neg (by simp [ho])] at hexec
    extract_lets late at hexec
    have hlate : 0 ∈ late := List.mem_filter.2 ⟨by decide, by simp [hw, hring]⟩
    rw [if_neg (by rw [List.isEmpty_iff]; exact List.ne_nil_of_mem hlate)] at hexec
    refine ⟨_, hexec, ?_, ?_⟩
    · have hirq (u : State) : u.ecatIrq.regs = u.regs := (State.ecatIrq_within (k := 1024) rfl (.refl _ u)).parts .regs rfl
      refine (State.getO_congr (hirq _) _ 4 0).trans ?_
      exact (State.get_count_apart (by decide)).trans (State.get_set_self ..)
    · exact (State.ecatIrq_within (k := 1026) rfl (State.count_within (k := 1026) rfl
        (State.set_within (k := 1026) rfl (.refl _ s)))).sameBut (by decide)
  · obtain ⟨hseq, hvalid⟩ := s.cycleShown_parts
    refine ⟨((State.agreesOn_endCycle (by decide) s).get 0).trans hseq, rfl, rfl, fun n hn => ?_⟩
    rw [(State.agreesOn_endCycle (by decide) s).get]
    exact hvalid n hn
  · have hexec : exec (.feedWriteComplete f) s = _ := State.onClock_of hs
    rw [if_pos (by simpa using hf)] at hexec
    exact hexec

end Sys2Proof.Machine
end

section
/-! PROOFS. The safe state: its latch, its release and the SAFE lines (O55). -/

namespace Sys2Proof.Machine

open Host Reg

variable {s t : State} {g : Fld}

/-! ## What a latch leaves as it was (R403, R405) -/

/-- The fields that a fault of a reflex channel writes lie elsewhere. -/
def Fld.offFaults (g : Fld) : Bool := g.offRfxState && g.apart AGT_RFX_CH_STAT.CAUSE && g.apart AGT_RFX_TELCNT.LOST

theorem State.agreesOn_rfxFault (h : g.offFaults = true) (s : State) (c k : Nat) : State.agreesOn g s (s.rfxFault c k) := by
  simp only [Fld.offFaults, Bool.and_eq_true] at h
  obtain ⟨⟨hstate, hcause⟩, hlost⟩ := h
  unfold State.rfxFault
  extract_lets s1 s2 s3
  have hlow : State.agreesOn g s (s.rfxLow c) := State.agreesOn_of_regs rfl
  have hs1 : State.agreesOn g s s1 := hlow.trans (State.agreesOn_setO hcause _ _ _)
  split
  · exact (hs1.trans (State.agreesOn_setRfxState hstate s1 c 2)).trans (State.agreesOn_reportFault hlost _ c)
  · split
    · exact hs1
    · split
      · have hs2 : State.agreesOn g s s2 := (hs1.trans (State.agreesOn_reportFault hlost s1 c)).trans (State.agreesOn_setO hcause _ _ _)
        exact hs2.trans (State.agreesOn_of_regs rfl)
      · exact hlow

theorem State.agreesOn_rfxSafe (h : g.offFaults = true) (s : State) : State.agreesOn g s s.rfxSafe :=
  State.agreesOn_foldl (fun st c => State.agreesOn_rfxFault h st c 2) _ s

theorem State.obj_congr (h : t.dict = s.dict) (d idx sub : Nat) : t.obj d idx sub = s.obj d idx sub := by
  unfold State.obj
  rw [h]

theorem State.obj_setObj_ne {idx sub idx' sub' : Nat} (h : 256 * idx' + sub' ≠ 256 * idx + sub) (s : State) (d v d' : Nat) :
    (s.setObj d idx sub v).obj d' idx' sub' = s.obj d' idx' sub' := tget_tput_ne h

/-- An EMCY changes no object before 0x1003. -/
theorem State.obj_emcy {idx sub : Nat} (h : 256 * idx + sub < 256 * 0x1003) (s : State) (code d : Nat) :
    (s.emcy code).obj d idx sub = s.obj d idx sub := by
  have hfold (l : List Nat) (u : State) :
      (l.foldl (fun st k => st.setObj 0 0x1003 (k + 1) (st.obj 0 0x1003 k)) u).obj d idx sub = u.obj d idx sub := by
    induction l generalizing u with
    | nil => rfl
    | cons k l ih => rw [List.foldl_cons, ih, State.obj_setObj_ne (by omega)]
  have hsend (b : Bool) (u : State) (c : Nat) : (if b = true then u.emit (.emcy c code) else u).obj d idx sub = u.obj d idx sub := by
    split <;> rfl
  unfold State.emcy
  extract_lets send s1 n s2
  have hs1 : s1.obj d idx sub = s.obj d idx sub := (hsend _ _ _).trans (hsend _ _ _)
  rw [State.obj_setObj_ne (by omega), State.obj_setObj_ne (by omega), hfold, State.obj_setObj_ne (by omega), hs1]

theorem State.get_count_self (s : State) (f : Fld) (i k : Nat) : (s.count f i k).get f i = min (2 ^ f.width - 1) (s.get f i + k) := by
  have hpos := Nat.two_pow_pos f.width
  refine (State.get_set_self ..).trans ((Nat.mod_eq_of_lt ?_).trans (Nat.min_comm _ _))
  unfold satAdd
  omega

/-- The EMCY of a latch and the reflex channels that follow it leave the comparator and object 0x1001. -/
theorem State.emcyRfxSafe_parts (s : State) (code : Nat) : (s.emcy code).rfxSafe.cmp = s.cmp ∧
    (s.emcy code).rfxSafe.obj 0 0x1001 0 = s.obj 0 0x1001 0 ∧
    ∀ g : Fld, g.offFaults = true → State.agreesOn g s (s.emcy code).rfxSafe := by
  have hemcy : Within 1028 s (s.emcy code) := State.emcy_within (k := 1028) rfl (.refl _ s)
  have hsafe : Within 8389634 (s.emcy code) (s.emcy code).rfxSafe := State.rfxSafe_within (k := 8389634) rfl (.refl _ _)
  refine ⟨(hsafe.parts .cmp rfl).trans (hemcy.parts .cmp rfl), ?_,
    fun g h => (State.agreesOn_of_regs (hemcy.parts .regs rfl)).trans (State.agreesOn_rfxSafe h _)⟩
  exact (State.obj_congr (hsafe.parts .dict rfl) ..).trans (s.obj_emcy (by decide) code 0)

/-- The latch with its causes, before the EMCY and the reflex channels follow. -/
def State.latchShown (s : State) (causes : Nat) : State :=
  let s1 := (((s.set AGT_CMP_STATUS.LATCHED 0 1).set AGT_CMP_STATUS.CAUSE 0 causes).count AGT_CMP_CNT.LATCHES 0 1).setCmp
    { s.cmp with latchedAt := s.time.now, safeA := false, safeB := false }
  s1.setObj 0 0x1001 0 (setBit (s1.obj 0 0x1001 0) 0 true)

theorem State.latchSafe_of {causes : Nat} (hon : s.guardedOn = true) (hl : s.latched = false) (h0 : causes ≠ 0) :
    s.latchSafe causes = ((s.latchShown causes).emcy 0xFF51).rfxSafe := by
  unfold State.latchSafe
  rw [if_neg (by simp [hon, h0]), if_neg (by simp [hl])]
  rfl

/-- The latch, where guarded outputs are on and it is not there yet. -/
theorem State.latchSafe_parts {causes : Nat} (hon : s.guardedOn = true) (hl : s.latched = false) (h0 : causes ≠ 0) (h16 : causes < 16) :
    (s.latchSafe causes).latched = true ∧ (s.latchSafe causes).get AGT_CMP_STATUS.CAUSE 0 = causes ∧
    (s.latchSafe causes).cmp = { s.cmp with latchedAt := s.time.now, safeA := false, safeB := false } ∧
    bit ((s.latchSafe causes).obj 0 0x1001 0) 0 = true ∧
    (s.latchSafe causes).get AGT_CMP_CNT.LATCHES 0 = min (2 ^ 16 - 1) (s.get AGT_CMP_CNT.LATCHES 0 + 1) := by
  rw [State.latchSafe_of hon hl h0]
  obtain ⟨hcmp, hobj, hagree⟩ := (s.latchShown causes).emcyRfxSafe_parts 0xFF51
  unfold State.latched State.isSet
  rw [hcmp, hobj, (hagree AGT_CMP_STATUS.LATCHED (by decide)).get, (hagree AGT_CMP_STATUS.CAUSE (by decide)).get,
    (hagree AGT_CMP_CNT.LATCHES (by decide)).get]
  unfold State.latchShown
  extract_lets c s1
  have hs1 (f : Fld) : s1.get f 0 = (((s.set AGT_CMP_STATUS.LATCHED 0 1).set AGT_CMP_STATUS.CAUSE 0 causes).count
    AGT_CMP_CNT.LATCHES 0 1).get f 0 := rfl
  rw [State.get_setObj, State.get_setObj, State.get_setObj, hs1, hs1, hs1, State.obj_setObj_self, bit_setBit_self]
  refine ⟨?_, ?_, rfl, rfl, ?_⟩
  · rw [State.get_count_apart (by decide), State.get_set_apart (by decide), State.get_set_self]
    rfl
  · rw [State.get_count_apart (by decide), State.get_set_self]
    exact Nat.mod_eq_of_lt h16
  · rw [State.get_count_self, State.get_set_apart (by decide), State.get_set_apart (by decide)]
    rfl

/-- What the latch shows outside. -/
theorem State.latchSafe_shows {causes : Nat} (hon : s.guardedOn = true) (hl : s.latched = false) (h0 : causes ≠ 0) (h16 : causes < 16) :
    (s.latchSafe causes).latched = true ∧ (s.latchSafe causes).get AGT_CMP_STATUS.CAUSE 0 = causes ∧
    (s.latchSafe causes).cmp.safeA = false ∧ (s.latchSafe causes).cmp.safeB = false ∧
    (s.latchSafe causes).cmp.latchedAt = s.time.now ∧ bit ((s.latchSafe causes).obj 0 0x1001 0) 0 = true ∧
    (s.latchSafe causes).get AGT_CMP_CNT.LATCHES 0 = min (2 ^ 16 - 1) (s.get AGT_CMP_CNT.LATCHES 0 + 1) := by
  obtain ⟨hlatched, hcause, hcmp, hbit, hcount⟩ := State.latchSafe_parts hon hl h0 h16
  exact ⟨hlatched, hcause, by rw [hcmp], by rw [hcmp], by rw [hcmp], hbit, hcount⟩

/-- A cause that arises while the safe state is latched and a release is accepted, or in the cycle of the latch. -/
theorem State.latchSafe_again (hon : s.guardedOn = true) (hl : s.latched = true) (h : s.cmp.releasing = true ∨ s.cmp.latchedAt = s.time.now) :
    s.latchSafe 4 = (s.setCmp { s.cmp with releasing := false }).set AGT_CMP_STATUS.CAUSE 0 (s.get AGT_CMP_STATUS.CAUSE 0 ||| 4) := by
  unfold State.latchSafe
  rw [if_neg (by simp [hon]), if_pos hl, if_pos (by simpa using h)]

theorem State.latched_set_cause (u : State) (v : Nat) : (u.set AGT_CMP_STATUS.CAUSE 0 v).latched = u.latched :=
  State.isSet_set_apart (by decide)

/-- Settles O55. -/
theorem safeState : Obligations.SafeState := by
  unfold Obligations.SafeState
  intro s src hs latchedBy
  have hreq : exec .latchReq s = .next (s.latchSafe 4) := State.onClock_of hs
  refine ⟨fun val => ⟨fun hdom hhalt hr => ?_, fun hsrc => ?_⟩, fun h40 h41 => ?_, fun hon hl => ?_, fun hoff => ?_, fun hon hl => ⟨fun hrel hat => ?_, fun h => ?_, fun h => ?_⟩,
    ⟨fun hok => ?_, fun hok => ?_⟩, fun hrun hl => ?_, fun h => ?_⟩
  · have hexec : exec (.hbWrite .scarab val) s = _ := State.onClock_of hs
    rw [if_neg (by simp), if_neg (by simp [hdom, hhalt]), if_pos hr] at hexec
    exact hexec
  · have hexec : exec (.hbWrite src val) s = _ := State.onClock_of hs
    rw [if_pos hsrc] at hexec
    exact hexec
  · intro v
    have hexec : exec .heartbeatCheck s = execHeartbeatCheck s := rfl
    unfold execHeartbeatCheck at hexec
    rw [State.onClock_of hs] at hexec
    extract_lets w same n s1 at hexec
    rw [if_neg (by simp [h40, h41])] at hexec
    have hbut : s.sameBut [.cmp] s1 := (State.setCmp_within (k := 16777216) rfl (.refl _ s)).sameBut (by decide)
    have hchanged (hv : v ≠ s.cmp.hbSeen) : n = 0 := if_neg (by simpa [same] using hv)
    have hkept (hv : v = s.cmp.hbSeen) : n = s.cmp.hbSame + 1 := if_pos (by simpa [same] using hv)
    refine ⟨fun hv => ⟨s1, ?_, hchanged hv, rfl, hbut⟩, fun hv hlt => ⟨s1, ?_, hkept hv, hbut⟩,
      fun hv hle hon hl => ⟨s1.latchSafe 8, ?_, ?_⟩⟩
    · rw [hexec, if_neg (by rw [hchanged hv]; decide)]
    · rw [hexec, if_neg (by rw [hkept hv]; omega)]
    · rw [hexec, if_pos (by rw [hkept hv]; exact hle)]
    · exact State.latchSafe_shows (s := s1) hon hl (by decide) (by decide)
  · exact ⟨_, hreq, State.latchSafe_shows hon hl (by decide) (by decide)⟩
  · have hsame : s.latchSafe 4 = s := if_pos (by simp [hoff])
    rw [hreq, hsame]
  · have hsame : s.latchSafe 4 = s := by
      unfold State.latchSafe
      rw [if_neg (by simp [hon]), if_pos hl, if_neg (by simp [hrel, hat])]
    rw [hreq, hsame]
  · rw [State.latchSafe_again hon hl h] at hreq
    exact ⟨_, hreq, State.get_set_self .., (State.latched_set_cause ..).trans hl,
      (State.set_within (k := 16777218) rfl (State.setCmp_within (k := 16777218) rfl (.refl _ s))).sameBut (by decide)⟩
  · rw [State.latchSafe_again hon hl (.inl h)] at hreq
    exact ⟨_, hreq, rfl, (State.latched_set_cause ..).trans hl,
      (State.set_within (k := 16777218) rfl (State.setCmp_within (k := 16777218) rfl (.refl _ s))).sameBut (by decide)⟩
  · have hexec : exec (.release .sideband) s = _ := State.onClock_of hs
    rw [if_pos rfl] at hexec
    unfold State.releaseReq at hexec
    rw [if_pos hok] at hexec
    exact ⟨_, hexec, rfl, (State.setCmp_within (k := 16777216) rfl (.refl _ s)).sameBut (by decide)⟩
  · have hexec : exec (.release .sideband) s = _ := State.onClock_of hs
    rw [if_pos rfl] at hexec
    unfold State.releaseReq at hexec
    rw [if_neg (by simp [hok])] at hexec
    exact hexec
  · have hexec : exec .safeLineEdge s = _ := State.onClock_of hs
    rw [if_pos (by simp [hrun, hl])] at hexec
    exact ⟨_, hexec, beq_iff_eq, rfl, (State.setCmp_within (k := 16777216) rfl (.refl _ s)).sameBut (by decide)⟩
  · have hexec : exec .safeLineEdge s = _ := State.onClock_of hs
    rw [if_neg (by rcases h with h | h <;> simp [h])] at hexec
    exact hexec

end Sys2Proof.Machine
end

section
/-! PROOFS. Guarded outputs: buffer writes, deadlines and frames (O56). -/

namespace Sys2Proof.Machine

open Host Reg

variable {s t : State} {g : Nat}

/-! ## Decisions (R398 to R402) -/

/-- The fields that a decision may write lie elsewhere. -/
def Fld.offDecisions (f : Fld) : Bool :=
  f.offFaults && [AGT_CMP_STATUS.LATCHED, AGT_CMP_STATUS.CAUSE, AGT_CMP_CNT.LATCHES, AGT_CMP_CNT.BADREC, AGT_CMP_CNT.NONAGREE,
    AGT_CMP_STATUS.WIN_COUNT, AGT_CMP_STATUS.CONSEC_RUN].all f.apart

theorem State.agreesOn_latchSafe {f : Fld} (h : f.offDecisions = true) (s : State) (causes : Nat) :
    State.agreesOn f s (s.latchSafe causes) := by
  simp only [Fld.offDecisions, List.all_cons, List.all_nil, Bool.and_true, Bool.and_eq_true] at h
  obtain ⟨hfault, hlatched, hcause, hlatches, -⟩ := h
  unfold State.latchSafe
  split
  · exact State.agreesOn_refl f s
  · split
    · split
      · exact (State.agreesOn_of_regs rfl).trans (State.agreesOn_setO hcause _ _ _)
      · exact State.agreesOn_refl f s
    · extract_lets c s1 s2
      have hs1 : State.agreesOn f s s1 :=
        (((State.agreesOn_setO hlatched _ _ _).trans (State.agreesOn_setO hcause _ _ _)).trans (State.agreesOn_setO hlatches _ _ _)).trans
          (State.agreesOn_of_regs rfl)
      have hs2 : State.agreesOn f s1 s2 := State.agreesOn_of_regs rfl
      exact (hs1.trans hs2).trans ((s2.emcyRfxSafe_parts 0xFF51).2.2 f hfault)

theorem State.agreesOn_showRun {f : Fld} (hwin : f.apart AGT_CMP_STATUS.WIN_COUNT = true) (hrun : f.apart AGT_CMP_STATUS.CONSEC_RUN = true)
    (s : State) : State.agreesOn f s s.showRun :=
  (State.agreesOn_setO hwin _ _ _).trans (State.agreesOn_setO hrun _ _ _)

theorem State.agreesOn_countBad {f : Fld} (h : f.apart AGT_CMP_CNT.BADREC = true) (s : State) (g : Nat) (t : RecTrack) :
    State.agreesOn f s (s.countBad g t) := by
  unfold State.countBad
  split
  · exact State.agreesOn_setO h _ _ _
  · exact State.agreesOn_refl f s

theorem State.agreesOn_nonAgree {f : Fld} (h : f.offDecisions = true) (s : State) : State.agreesOn f s s.nonAgree := by
  unfold State.nonAgree
  split
  · exact State.agreesOn_refl f s
  · extract_lets c s1
    have hparts := h
    simp only [Fld.offDecisions, List.all_cons, List.all_nil, Bool.and_true, Bool.and_eq_true] at hparts
    obtain ⟨-, -, -, -, -, hcount, hwin, hrun⟩ := hparts
    have hs1 : State.agreesOn f s s1 := (State.agreesOn_setO hcount _ _ _).trans (State.agreesOn_showRun hwin hrun _)
    exact hs1.trans (State.agreesOn_latchSafe h s1 _)

/-- Outcome and status of an output at its deadline, before the latch is looked at (R398, R400). -/
def State.verdict (s : State) (g : Nat) : Nat × Status :=
  let b := s.get AGT_CMP_FRAME.INDEX 0 % 2
  let m : RecTrack := tget {} s.cmp.tracks (trackKey 0 g b)
  let c : RecTrack := tget {} s.cmp.tracks (trackKey 1 g b)
  match m.vals, c.vals with
    | none, _ => (2, .deadlineMissed)
    | some _, none => (3, .outputInvalidated)
    | some x, some y => if (x.zip y).all (fun p => s.agrees g p.1 p.2) then (0, .ok) else (1, .outputInvalidated)

/-- The record of an output that a channel collects for the current frame. -/
def State.track (s : State) (ch g : Nat) : RecTrack := tget {} s.cmp.tracks (trackKey ch g (s.get AGT_CMP_FRAME.INDEX 0 % 2))

theorem State.verdict_of_main_absent (h : (s.track 0 g).vals = none) : s.verdict g = (2, .deadlineMissed) := by
  unfold State.track at h
  unfold State.verdict
  dsimp only
  rw [h]

theorem State.verdict_of_check_absent {x : List Nat} (hm : (s.track 0 g).vals = some x) (hc : (s.track 1 g).vals = none) :
    s.verdict g = (3, .outputInvalidated) := by
  unfold State.track at hm hc
  unfold State.verdict
  dsimp only
  rw [hm, hc]

theorem State.verdict_of_both {x y : List Nat} (hm : (s.track 0 g).vals = some x) (hc : (s.track 1 g).vals = some y) :
    s.verdict g = if (x.zip y).all (fun p => s.agrees g p.1 p.2) then (0, .ok) else (1, .outputInvalidated) := by
  unfold State.track at hm hc
  unfold State.verdict
  dsimp only
  rw [hm, hc]

/-- The decision of an output stands with its verdict, or with SAFE_STATE_LATCHED. -/
theorem State.decideOutput_decides (s : State) (g : Nat) : ∃ d, tfind (s.decideOutput g).cmp.decided g = some d ∧
    d.outcome = (s.verdict g).1 ∧ d.plain = (s.verdict g).2 ∧
    d.status = if (s.decideOutput g).latched then .safeStateLatched else (s.verdict g).2 := by
  unfold State.decideOutput
  extract_lets b km kc m c r s1 w1 s2 s3 st old good vals carry w3
  have hr : r = s.verdict g := rfl
  refine ⟨⟨r.1, st, r.2⟩, tfind_tset_self, ?_⟩
  rw [hr]
  exact ⟨rfl, rfl, rfl⟩

/-- What a decision leaves of the frame and of a release that is accepted; a safe state that is latched stays latched. -/
theorem State.decideOutput_keeps (s : State) (g : Nat) :
    (s.decideOutput g).get AGT_CMP_FRAME.INDEX 0 = s.get AGT_CMP_FRAME.INDEX 0 ∧
    (s.latched = true → (s.decideOutput g).latched = true ∧ (s.decideOutput g).cmp.releasing = s.cmp.releasing) := by
  unfold State.decideOutput
  extract_lets b km kc m c r s1 w1 s2 s3 st old good vals carry w3
  have hs2 {f : Fld} (h : f.apart AGT_CMP_CNT.BADREC = true) : State.agreesOn f s s2 :=
    ((State.agreesOn_countBad h s g m).trans (State.agreesOn_countBad h _ g c)).trans (State.agreesOn_of_regs rfl)
  have hs3 {f : Fld} (h : f.offDecisions = true) : State.agreesOn f s2 s3 := by
    unfold s3
    split
    · exact State.agreesOn_refl f s2
    · exact State.agreesOn_nonAgree h s2
  refine ⟨((hs2 (by decide)).trans (hs3 (by decide))).get 0, fun hl => ?_⟩
  have hl2 : s2.latched = true := (congrArg (· == 1) ((hs2 (f := AGT_CMP_STATUS.LATCHED) (by decide)).get 0)).trans hl
  have he : s3 = s2 := by
    unfold s3
    split
    · rfl
    · exact if_pos (by rw [hl2]; rfl)
  have hcmp1 : s1.cmp = s.cmp :=
    (State.countBad_within (k := 2) rfl (State.countBad_within (k := 2) rfl (.refl _ s))).parts .cmp rfl
  have hrel : s2.cmp.releasing = s1.cmp.releasing := rfl
  have hl3 : s3.latched = true := by rw [he, hl2]
  have hrel3 : s3.cmp.releasing = s.cmp.releasing := by rw [he, hrel, hcmp1]
  exact ⟨hl3, hrel3⟩

/-- The deadline of an output that is not decided yet. -/
theorem exec_outputDeadline_decides (hs : s.clocked = true) (hdue : s.recordDue g = false) (hrun : s.cmp.running = true)
    (hg : g ∈ s.outputs) (hnot : thas s.cmp.decided g = false) {outcome : Nat} {st : Status} (hv : s.verdict g = (outcome, st)) :
    ∃ t d, exec (.outputDeadline g) s = .next t ∧ tfind t.cmp.decided g = some d ∧ d.outcome = outcome ∧ d.plain = st ∧
      d.status = (if t.latched then .safeStateLatched else st) := by
  have hexec : exec (.outputDeadline g) s = _ := State.onClock_of hs
  rw [if_neg (by simp [hdue])] at hexec
  unfold State.deadline at hexec
  rw [if_pos (by simp [hrun, hg, hnot])] at hexec
  obtain ⟨d, hd, hout, hplain, hstatus⟩ := s.decideOutput_decides g
  rw [hv] at hout hplain hstatus
  exact ⟨_, d, hexec, hd, hout, hplain, hstatus⟩

/-! ## Frames (R401, R404, R407) -/

theorem State.foldl_decideOutput_keeps (l : List Nat) (s : State) :
    (l.foldl (fun st g => st.decideOutput g) s).get AGT_CMP_FRAME.INDEX 0 = s.get AGT_CMP_FRAME.INDEX 0 ∧
    (s.latched = true → (l.foldl (fun st g => st.decideOutput g) s).latched = true ∧
      (l.foldl (fun st g => st.decideOutput g) s).cmp.releasing = s.cmp.releasing) := by
  induction l generalizing s with
  | nil => exact ⟨rfl, fun h => ⟨h, rfl⟩⟩
  | cons g l ih =>
    obtain ⟨hindex, hlatch⟩ := ih (s.decideOutput g)
    obtain ⟨hindex', hlatch'⟩ := s.decideOutput_keeps g
    rw [List.foldl_cons]
    refine ⟨hindex.trans hindex', fun h => ?_⟩
    obtain ⟨hl, hrel⟩ := hlatch' h
    obtain ⟨hl2, hrel2⟩ := hlatch hl
    exact ⟨hl2, hrel2.trans hrel⟩

theorem State.endFrame_parts (s : State) : s.endFrame.get AGT_CMP_FRAME.INDEX 0 = (s.get AGT_CMP_FRAME.INDEX 0 + 1) % 2 ^ 32 ∧
    s.endFrame.cmp.decided = [] ∧
    (s.latched = true → s.endFrame.latched = true ∧ s.endFrame.cmp.releasing = s.cmp.releasing) := by
  unfold State.endFrame
  extract_lets u w s1 good hold e c
  obtain ⟨hindex, hlatch⟩ := State.foldl_decideOutput_keeps (s.outputs.filter (fun g => !thas s.cmp.decided g)) s
  have hput : Within 2098064 u s1 := State.ringPut_within (k := 2098064) rfl (.refl _ u)
  have hregs (f : Fld) : s1.get f 0 = u.get f 0 := State.getO_congr (hput.parts .regs rfl) f 4 0
  refine ⟨?_, rfl, fun h => ?_⟩
  · rw [State.get_set_self, hregs]
    exact congrArg (fun n => (n + 1) % 2 ^ 32) hindex
  · obtain ⟨hl, hrel⟩ := hlatch h
    have hkeep : (s1.set AGT_CMP_FRAME.INDEX 0 (s1.get AGT_CMP_FRAME.INDEX 0 + 1)).latched = s1.latched := State.isSet_set_apart (by decide)
    refine ⟨hkeep.trans ((congrArg (· == 1) (hregs AGT_CMP_STATUS.LATCHED)).trans hl), ?_⟩
    have hcmp : s1.cmp.releasing = u.cmp.releasing := by rw [hput.parts .cmp rfl]
    exact hcmp.trans hrel

/-- An accepted release takes effect. -/
theorem State.releaseNow_parts (s : State) : s.releaseNow.latched = false ∧
    s.releaseNow.get AGT_CMP_FRAME.INDEX 0 = s.get AGT_CMP_FRAME.INDEX 0 ∧ s.releaseNow.cmp.decided = s.cmp.decided ∧
    s.releaseNow.cmp.releasing = false := by
  unfold State.releaseNow
  extract_lets c s1 s2
  have hemcy : Within 1028 s2 (s2.emcy 0xFF52) := State.emcy_within (k := 1028) rfl (.refl _ s2)
  have hlines (u : State) : u.linesStart.regs = u.regs ∧ u.linesStart.cmp.decided = u.cmp.decided ∧
    u.linesStart.cmp.releasing = u.cmp.releasing := ⟨rfl, rfl, rfl⟩
  obtain ⟨hregs, hdecided, hrel⟩ := hlines (s2.emcy 0xFF52)
  have hget (f : Fld) : (s2.emcy 0xFF52).linesStart.get f 0 =
      ((s.set AGT_CMP_STATUS.LATCHED 0 0).set AGT_CMP_STATUS.CAUSE 0 0).get f 0 :=
    State.getO_congr (hregs.trans (hemcy.parts .regs rfl)) f 4 0
  refine ⟨?_, ?_, ?_, ?_⟩
  · unfold State.latched State.isSet
    rw [hget, State.get_set_apart (by decide), State.get_set_self]
    rfl
  · rw [hget, State.get_set_apart (by decide), State.get_set_apart (by decide)]
  · rw [hdecided, hemcy.parts .cmp rfl]
    rfl
  · rw [hrel, hemcy.parts .cmp rfl]
    rfl

/-- The counters of a frame that starts change neither its index nor the latch. -/
theorem State.showRun_start (u : State) (n : Nat) :
    (u.setCmp { u.cmp with start := n }).showRun.get AGT_CMP_FRAME.INDEX 0 = u.get AGT_CMP_FRAME.INDEX 0 ∧
    (u.setCmp { u.cmp with start := n }).showRun.latched = u.latched ∧
    (u.setCmp { u.cmp with start := n }).showRun.cmp.decided = u.cmp.decided ∧
    (u.setCmp { u.cmp with start := n }).showRun.cmp.start = n ∧
    (u.setCmp { u.cmp with start := n }).showRun.cmp.releasing = u.cmp.releasing := by
  have hget {f : Fld} (hwin : f.apart AGT_CMP_STATUS.WIN_COUNT = true) (hrun : f.apart AGT_CMP_STATUS.CONSEC_RUN = true) :
      (u.setCmp { u.cmp with start := n }).showRun.get f 0 = u.get f 0 := (State.agreesOn_showRun hwin hrun _).get 0
  exact ⟨hget (by decide) (by decide), congrArg (· == 1) (hget (f := AGT_CMP_STATUS.LATCHED) (by decide) (by decide)), rfl, rfl, rfl⟩

/-- The start of a frame after the first one. -/
theorem exec_guardedFrameStart_running (hs : s.clocked = true) (hon : s.guardedOn = true) (hrun : s.cmp.running = true) :
    ∃ t, exec .guardedFrameStart s = .next t ∧ t.get AGT_CMP_FRAME.INDEX 0 = (s.get AGT_CMP_FRAME.INDEX 0 + 1) % 2 ^ 32 ∧
      t.cmp.decided = [] ∧ t.cmp.start = s.time.now ∧
      (s.latched = true → t.latched = !s.cmp.releasing ∧ t.cmp.releasing = false) := by
  have hexec : exec .guardedFrameStart s = execGuardedFrameStart s := rfl
  unfold execGuardedFrameStart at hexec
  rw [State.onClock_of hs, if_neg (by simp [hon]), if_neg (by simp [hrun])] at hexec
  extract_lets s1 s2 c at hexec
  have hexec' : exec .guardedFrameStart s = .next (s2.setCmp { s2.cmp with start := s.time.now }).showRun := hexec
  obtain ⟨hsindex, hslatched, hsdecided, hsstart, hsrel⟩ := s2.showRun_start s.time.now
  obtain ⟨hindex, hdecided, hlatch⟩ := s.endFrame_parts
  obtain ⟨hrlatch, hrindex, hrdecided, hrrel⟩ := s1.releaseNow_parts
  have hindex2 : s2.get AGT_CMP_FRAME.INDEX 0 = s1.get AGT_CMP_FRAME.INDEX 0 := by
    unfold s2
    split
    · exact hrindex
    · rfl
  have hdecided2 : s2.cmp.decided = s1.cmp.decided := by
    unfold s2
    split
    · exact hrdecided
    · rfl
  refine ⟨_, hexec', (hsindex.trans hindex2).trans hindex, (hsdecided.trans hdecided2).trans hdecided, hsstart, fun hl => ?_⟩
  obtain ⟨hl1, hrel1⟩ := hlatch hl
  rw [hslatched, hsrel]
  by_cases hrel : s1.cmp.releasing = true
  · have he : s2 = s1.releaseNow := if_pos hrel
    rw [he, hrlatch, ← hrel1, hrel]
    exact ⟨rfl, hrrel⟩
  · have he : s2 = s1 := if_neg hrel
    rw [he, hl1, ← hrel1, eq_false_of_ne_true hrel]
    exact ⟨rfl, rfl⟩

/-! ## Buffer writes (R396) -/

/-- With no deadline waiting, nothing is decided. -/
theorem State.decideDue_of_none (h : s.cmp.waiting = []) : s.decideDue = s := by
  unfold State.decideDue
  rw [h]
  rfl

/-- A write that is allowed stores its bytes, and follows the record only where guarded outputs are on. -/
theorem State.bufferWrite_stores {src : Src} {off : Nat} (h0 : 0x10000 ≤ off) (h1 : off < 0x90000)
    (hsrc : (∃ n, src = .onyx n ∧ (if off < 0x50000 then 0 else 1) = 0 ∧ s.admitted n = true) ∨
      (src = .scarab ∧ (if off < 0x50000 then 0 else 1) = 1 ∧ s.domOn 40 = true ∧ s.pwr.scarabHalted = false ∧ s.scarabCut .scarab 4 = false))
    (b : List Byte) (poison : Bool) :
    let ch := if off < 0x50000 then 0 else 1
    let o := off - 0x10000 - 0x40000 * ch
    let s1 := s.writeRun 0 false (outBuffer ch (o / 8192) (o / 4096 % 2) + o % 4096) (b.take (4096 - o % 4096)) poison
    (s.bufferWrite src off b poison).mem = s1.mem ∧ (s.guardedOn = false → s.bufferWrite src off b poison = s1) := by
  unfold State.bufferWrite
  extract_lets ch o s1 allowed g buf data w k f r now late c s2 fwd
  have hcarried : (src == .scarab && (!s.domOn 40 || s.pwr.scarabHalted || s.scarabCut src 4)) = false := by
    rcases hsrc with ⟨n, rfl, -⟩ | ⟨rfl, -, hdom, hhalt, hcut⟩
    · rfl
    · simp [hdom, hhalt, hcut]
  have hallowed : allowed = true := by
    unfold allowed ch
    rcases hsrc with ⟨n, rfl, hch, hadm⟩ | ⟨rfl, hch, -⟩
    · simp [hch, hadm]
    · simp [hch]
  rw [if_neg (by simp [hcarried, h0, h1]), if_neg (by simp [hallowed])]
  have hw : w = s1 := rfl
  have hs2 : Within 16777216 w s2 := State.setCmp_within (k := 16777216) rfl (.refl _ w)
  clear_value s2
  rw [← hw]
  refine ⟨?_, fun hoff => if_pos (by simp [hoff])⟩
  split
  · rfl
  · split
    · exact ((State.forward_within (k := 1027) rfl (.refl _ s2)).parts .mem rfl).trans (hs2.parts .mem rfl)
    · exact hs2.parts .mem rfl

/-- A write outside the buffers, or one that Scarab cannot send, does nothing. -/
theorem State.bufferWrite_lost {src : Src} {off : Nat} (h : off < 0x10000 ∨ 0x90000 ≤ off ∨ (src = .scarab ∧
    ¬(s.domOn 40 = true ∧ s.pwr.scarabHalted = false ∧ s.scarabCut .scarab 4 = false))) (b : List Byte) (poison : Bool) :
    s.bufferWrite src off b poison = s := by
  refine if_pos ?_
  rcases h with h | h | ⟨rfl, h⟩
  · simp [h]
  · simp [h]
  · have hcut : (!s.domOn 40 || s.pwr.scarabHalted || s.scarabCut .scarab 4) = true := by
      by_contra hn
      simp only [Bool.or_eq_true, not_or, Bool.not_eq_true', Bool.not_eq_true, Bool.not_eq_false] at hn
      obtain ⟨⟨hdom, hhalt⟩, hlink⟩ := hn
      exact h ⟨hdom, hhalt, hlink⟩
    simp [hcut]

/-- A write into a buffer of the other channel, or from another source, is denied. -/
theorem State.bufferWrite_denied {src : Src} {off : Nat} (h0 : 0x10000 ≤ off) (h1 : off < 0x90000)
    (h : src = .sideband ∨ (src = .scarab ∧ (if off < 0x50000 then 0 else 1) = 0 ∧
      s.domOn 40 = true ∧ s.pwr.scarabHalted = false ∧ s.scarabCut .scarab 4 = false) ∨
      (∃ n, src = .onyx n ∧ (if off < 0x50000 then 0 else 1) = 1)) (b : List Byte) (poison : Bool) :
    s.bufferWrite src off b poison = s.denyWrite src := by
  unfold State.bufferWrite
  extract_lets ch o allowed
  have hcarried : (src == .scarab && (!s.domOn 40 || s.pwr.scarabHalted || s.scarabCut src 4)) = false := by
    rcases h with rfl | ⟨rfl, -, hdom, hhalt, hcut⟩ | ⟨n, rfl, -⟩
    · rfl
    · simp [hdom, hhalt, hcut]
    · rfl
  have hallowed : allowed = false := by
    unfold allowed ch
    rcases h with rfl | ⟨rfl, hch, -⟩ | ⟨n, rfl, hch⟩
    · rfl
    · simp [hch]
    · simp [hch]
  rw [if_neg (by simp [hcarried, h0, h1]), if_pos (by simp [hallowed])]

/-- Settles O56. -/
theorem guardedFrames : Obligations.GuardedFrames := by
  unfold Obligations.GuardedFrames
  intro s hs
  refine ⟨fun src off b poison => ?_, fun g hdue => ?_, fun g hdue hrun hg hnot => ?_, fun hon => ⟨fun hrun => ?_, fun hrun => ?_⟩⟩
  · intro ch o sends
    have hexec : exec (.guardedBufferWrite src off b poison) s = .next (s.bufferWrite src off b poison).decideDue := State.onClock_of hs
    refine ⟨fun h0 h1 hsrc => ⟨_, hexec, ?_, fun hoff hwait => ?_⟩, fun hwait h => ?_, fun hwait h0 h1 h => ?_⟩
    · obtain ⟨hmem, -⟩ := State.bufferWrite_stores h0 h1 hsrc b poison
      exact ((State.decideDue_within (k := 25166854) rfl (.refl _ _)).parts .mem rfl).trans hmem
    · obtain ⟨-, hstored⟩ := State.bufferWrite_stores h0 h1 hsrc b poison
      have hcmp : (s.bufferWrite src off b poison).cmp = s.cmp := by
        rw [hstored hoff]
        exact (State.writeRun_within (k := 912) rfl (.refl _ s)).parts .cmp rfl
      rw [State.decideDue_of_none (by rw [hcmp, hwait]), hcmp]
    · rw [State.bufferWrite_lost h, State.decideDue_of_none hwait] at hexec
      exact hexec
    · have hcmp : (s.denyWrite src).cmp = s.cmp := (State.denyWrite_within (k := 132096) rfl (.refl _ s)).parts .cmp rfl
      rw [State.bufferWrite_denied h0 h1 h, State.decideDue_of_none (by rw [hcmp, hwait])] at hexec
      exact hexec
  · have hexec : exec (.outputDeadline g) s = _ := State.onClock_of hs
    rw [if_pos hdue] at hexec
    exact ⟨_, hexec, self_mem_sinsert _ _, (State.setCmp_within (k := 16777216) rfl (.refl _ s)).sameBut (by decide)⟩
  · intro k m c is
    have hdecides {outcome : Nat} {st : Status} (hv : s.verdict g = (outcome, st)) : is outcome st :=
      exec_outputDeadline_decides hs hdue hrun hg hnot hv
    exact ⟨fun hm => hdecides (State.verdict_of_main_absent hm), fun x hm hc => hdecides (State.verdict_of_check_absent hm hc),
      fun x y hm hc => ⟨fun hall => hdecides ((State.verdict_of_both hm hc).trans (if_pos hall)),
        fun hall => hdecides ((State.verdict_of_both hm hc).trans (if_neg (by simp [hall])))⟩⟩
  · have hexec : exec .guardedFrameStart s = execGuardedFrameStart s := rfl
    unfold execGuardedFrameStart at hexec
    rw [State.onClock_of hs, if_neg (by simp [hon]), if_pos (by simp [hrun])] at hexec
    exact ⟨_, hexec, rfl, rfl, rfl, rfl, (State.linesStart_within (k := 16777216) rfl (State.setCmp_within (k := 16777216) rfl (.refl _ s))).sameBut (by decide)⟩
  · exact exec_guardedFrameStart_running hs hon hrun

end Sys2Proof.Machine
end

section
/-! PROOFS. A model load whose source lies in the area of another protected partition (O58). -/

namespace Sys2Proof.Machine

open Host Reg

/-- A session of owner 7, a key of its protected partition 15, and a protected partition 14 of another owner. -/
def twoOwners : State :=
  let own : Prot := { isProt := true, owner := 7, base := [0, 0, 0, 2], size := [0, 0, 0, 1] }
  let other : Prot := { isProt := true, owner := 8, base := [0, 0, 0, 4], size := [0, 0, 0, 1] }
  { Tests.secured with sec := { Tests.secured.sec with prots := [(14, other), (15, own)] } }

/-- A load of one chunk into partition 15 whose source and tags lie in partition 14. -/
def foreignLoad : Instr := .modelLoad 1 Tests.auth 31 0 false (glob 3 (4 * rangeUnit)) (glob 3 (4 * rangeUnit)) (glob 3 (2 * rangeUnit)) 1

/-- Does the answer that a command leaves at a mailbox port grant the request? -/
def grantsAt (o : Outcome State Fault Refusal) (p : Nat) : Option Bool :=
  match o with
  | .next t => (tfind t.sec.answers p).map (fun a => a.ok)
  | _ => none

/-- R426 refuses the source to partition 15. -/
theorem foreignLoad_refused : grantsAt (exec foreignLoad twoOwners) 1 = some false := by decide +kernel

/-- Refutes O58: the owner's MODEL_LOAD is refused where its source lies in an area of another protected partition (R426), which the
conditions of the statement do not exclude. -/
theorem not_ownerRequests : ¬ Obligations.OwnerRequests := by
  unfold Obligations.OwnerRequests
  intro h
  obtain ⟨howner, -⟩ := h twoOwners 1 (by decide +kernel) (by decide +kernel) (by decide +kernel) (by decide +kernel)
  obtain ⟨-, -, -, -, hkeys, -⟩ := howner Tests.auth { id := 1, owner := 7, keys := 1, lastRequest := 0 } (by decide +kernel) rfl rfl
  obtain ⟨-, hload⟩ := hkeys 31 ⟨15, 0, 1⟩ (by decide +kernel) (by decide +kernel)
  obtain ⟨t, a, hexec, hanswer, hok, -⟩ := hload 0 false (glob 3 (4 * rangeUnit)) (glob 3 (4 * rangeUnit)) (glob 3 (2 * rangeUnit)) 1
    (by decide +kernel) (by decide) (by decide) (by decide) (by decide) (by decide +kernel) (by decide +kernel)
  have hgrants := foreignLoad_refused
  unfold foreignLoad at hgrants
  rw [hexec] at hgrants
  simp [grantsAt, hanswer, hok] at hgrants

end Sys2Proof.Machine
end

section
/-! PROOFS. The security mailbox (O57). -/

namespace Sys2Proof.Machine

open Host Reg

variable {s u : State} {p op : Nat} {a : MbAnswer} {act : State → State × MbAnswer} {c : Instr}

/-! ## A request that is taken (R419, R420) -/

/-- The state in which a request takes effect: its operation shown, DONE fallen. -/
def State.asked (s : State) (p op : Nat) : State := (s.set AGT_SEC_MB_CMD.OP p op).set AGT_SEC_MB_RSP.DONE p 0

/-- A refusal is counted, and the answer kept for its port. -/
def State.posted (s : State) (p : Nat) (a : MbAnswer) : State :=
  let s1 := if a.ok then s else s.countRefusal
  s1.setSec { s1.sec with answers := tset s1.sec.answers p a }

theorem State.mailbox_taken (hr : s.portReached p = true) (hd : s.get AGT_SEC_MB_RSP.DONE p ≠ 0) (hact : act (s.asked p op) = (u, a)) :
    s.mailbox p op act = u.posted p a := by
  have h : s.mailbox p op act = (act (s.asked p op)).1.posted p (act (s.asked p op)).2 := by
    unfold State.mailbox
    rw [if_neg (by simp [hr]), if_neg hd]
    rfl
  rw [h, hact]

theorem State.mailbox_busy (hr : s.portReached p = true) (hd : s.get AGT_SEC_MB_RSP.DONE p = 0) :
    s.mailbox p op act = s.set AGT_SEC_MB_RSP.CFG_ERR p 1 := by
  unfold State.mailbox
  rw [if_neg (by simp [hr]), if_pos hd]

theorem State.posted_refused (h : a.ok = false) : (u.posted p a).sec.refusals = satAdd 32 u.sec.refusals 1 := by
  unfold State.posted
  rw [if_neg (by simp [h])]
  rfl

theorem State.posted_parts (u : State) (p : Nat) (a : MbAnswer) :
    (u.posted p a).regs = u.regs ∧ tfind (u.posted p a).sec.answers p = some a := by
  unfold State.posted
  extract_lets s1
  have hregs : s1.regs = u.regs := by
    unfold s1
    split <;> rfl
  exact ⟨hregs, tfind_tset_self⟩

/-- A request that is taken is answered, and DONE is 0 till then. -/
theorem State.taken_of (hr : s.portReached p = true) (hd : s.get AGT_SEC_MB_RSP.DONE p ≠ 0) {r : State → MbAnswer → Prop}
    (hexec : exec c s = .next (s.mailbox p op act)) (hact : act (s.asked p op) = (u, a)) (hregs : u.regs = (s.asked p op).regs)
    (hpost : r (u.posted p a) a) :
    ∃ t a, exec c s = .next t ∧ tfind t.sec.answers p = some a ∧ t.get AGT_SEC_MB_RSP.DONE p = 0 ∧ r t a := by
  obtain ⟨hpregs, hanswer⟩ := u.posted_parts p a
  rw [State.mailbox_taken hr hd hact] at hexec
  exact ⟨_, a, hexec, hanswer, (State.getO_congr (hpregs.trans hregs) _ 4 p).trans (State.get_set_self ..), hpost⟩

/-- A request that is refused is answered so, and counted. -/
theorem State.refused_of (hr : s.portReached p = true) (hd : s.get AGT_SEC_MB_RSP.DONE p ≠ 0)
    (hexec : exec c s = .next (s.mailbox p op act)) (hact : act (s.asked p op) = (s.asked p op).deny) :
    ∃ t a, exec c s = .next t ∧ tfind t.sec.answers p = some a ∧ t.get AGT_SEC_MB_RSP.DONE p = 0 ∧
      a.ok = false ∧ t.sec.refusals = min (2 ^ 32 - 1) (s.sec.refusals + 1) :=
  State.taken_of hr hd (r := fun t a => a.ok = false ∧ t.sec.refusals = min (2 ^ 32 - 1) (s.sec.refusals + 1)) hexec hact rfl
    ⟨rfl, (State.posted_refused rfl).trans (Nat.min_comm _ _)⟩

/-- The state in which a ticket has been given. -/
def State.withTicket (s : State) (p op : Nat) (session : Option Nat) (args : List Nat) : State :=
  s.setSec { s.sec with
    nextTicket := s.sec.nextTicket + 1
    tickets := s.sec.tickets ++ [{ id := s.sec.nextTicket, port := p, op := op, session := session, args := args }] }

theorem State.ticketed_of_room (h : (s.sec.tickets.filter (fun k => k.port == p)).length < 8) (session : Option Nat) (args : List Nat) :
    s.ticketed p op session args = (s.withTicket p op session args, { ok := true, ticket := s.sec.nextTicket % 2 ^ 32 }) :=
  if_neg (by omega)

theorem State.ticketed_of_full (h : ¬(s.sec.tickets.filter (fun k => k.port == p)).length < 8) (session : Option Nat) (args : List Nat) :
    s.ticketed p op session args = s.deny :=
  if_pos (by omega)

/-- A request outside its session, or with another tag or counter than the next, is refused. -/
theorem State.owned_of_stranger {b : Auth} (h : ∀ w, s.sec.sessions.find? (fun w => w.id == b.session && w.port == p) = some w →
      b.tagOk = false ∨ b.counter ≠ w.counter + 1) (f : Session → State → State × MbAnswer) : s.owned p b f = s.deny := by
  have hnone : s.inSession p b = none := by
    unfold State.inSession
    split
    case h_1 w hw =>
      refine if_neg ?_
      rcases h w hw with h | h <;> simp [h]
    case h_2 => rfl
  unfold State.owned
  rw [hnone]

/-! ## The answer (R420) -/

theorem State.poke_mem_congr {t : State} (hm : t.mem = s.mem) (hb : t.scrambled = s.scrambled) (x : Nat) (b : List Byte) :
    (t.poke x b).mem = (s.poke x b).mem := by
  have hblank : t.blank = s.blank := by
    funext y
    unfold State.blank
    rw [hb]
  unfold State.poke
  rw [hm, hblank]

/-- MAILBOX_ANSWER shows the answer that was kept. -/
theorem exec_mailboxAnswer (hs : s.clocked = true) (ha : tfind s.sec.answers p = some a) :
    ∃ t, exec (.mailboxAnswer p) s = .next t ∧ t.get AGT_SEC_MB_RSP.DONE p = 1 ∧
      t.get AGT_SEC_MB_RSP.STATUS p = (if a.ok then 0 else Status.code .denied) ∧ t.get AGT_SEC_MB_RSP.LEN p = a.bytes.length % 2 ^ 12 ∧
      t.get AGT_SEC_MB_RSP.TICKET p = a.ticket % 2 ^ 32 ∧ tfind t.sec.answers p = none ∧
      t.mem = (s.poke (regSpace 4 (0x700000 + 0x2000 * p + 0x1000)) a.bytes).mem := by
  have hexec : exec (.mailboxAnswer p) s = execMailboxAnswer p s := rfl
  unfold execMailboxAnswer at hexec
  rw [State.onClock_of hs, ha] at hexec
  extract_lets s1 at hexec
  have hget (u : State) (x : Nat) (b : List Byte) (f : Fld) : (u.poke x b).get f p = u.get f p := rfl
  refine ⟨_, hexec, ?_, ?_, ?_, ?_, ?_, ?_⟩
  · rw [hget]
    rw [State.get_set_apart (by decide), State.get_set_apart (by decide), State.get_set_apart (by decide), State.get_set_self]
    rfl
  · rw [hget]
    rw [State.get_set_apart (by decide), State.get_set_apart (by decide), State.get_set_self]
    split
    · rfl
    · exact Nat.mod_eq_of_lt (Status.code_lt .denied)
  · rw [hget]
    rw [State.get_set_apart (by decide), State.get_set_self]
    rfl
  · rw [hget]
    exact State.get_set_self ..
  · exact tfind_tdel_self _ _
  · exact State.poke_mem_congr rfl rfl _ _

/-- Settles O57. -/
theorem mailboxRequests : Obligations.MailboxRequests := by
  unfold Obligations.MailboxRequests
  intro s p hs hr room asked refused ticket
  have hmail {c : Instr} {op : Nat} {act : State → State × MbAnswer} (h : exec c s = s.onClock (.next (s.mailbox p op act))) :
      exec c s = .next (s.mailbox p op act) := h.trans (State.onClock_of hs)
  refine ⟨fun hd c hc => ?_, fun hd => ⟨?_, ?_, fun nonce hroom => ?_, fun nonce hroom => ?_, fun q hp hdebug hroom => ?_, fun q hq => ?_,
    fun o hp ho hroom => ?_, fun id k hk => ⟨fun hend => ?_, fun hend => ?_⟩, fun b hb k q r => ⟨?_, ?_, ?_, ?_⟩⟩, fun a ha => exec_mailboxAnswer hs ha⟩
  · obtain ⟨op, act, h⟩ : ∃ op act, exec c s = s.onClock (.next (s.mailbox p op act)) := by
      simp only [List.mem_cons, List.not_mem_nil, or_false] at hc
      rcases hc with ⟨r, rfl | rfl | rfl | rfl | rfl⟩ | ⟨a, r, k, q, rfl | rfl | rfl | rfl | rfl | rfl | rfl | rfl | rfl⟩
      all_goals exact ⟨_, _, rfl⟩
    rw [hmail h, State.mailbox_busy hr hd]
  · exact State.taken_of hr hd (hmail rfl) rfl rfl ⟨rfl, _, rfl⟩
  · by_cases hp : p = 0
    · subst hp
      exact State.taken_of hr hd (hmail rfl) rfl rfl ⟨rfl, (List.length_map _).trans List.length_range, fun _ => rfl⟩
    · refine State.taken_of (u := (s.asked p 0x0C).draw.2)
        (a := { ok := true, bytes := cryptoBytes 1 48 (leBytes 8 (s.asked p 0x0C).draw.1) }) hr hd (hmail rfl) ?_ rfl
        ⟨rfl, (List.length_map _).trans List.length_range, fun h => absurd h hp⟩
      dsimp only
      rw [if_neg hp]
      rfl
  · exact State.taken_of hr hd (hmail rfl) (State.ticketed_of_room (s := s.asked p _) hroom _ _) rfl ⟨rfl, rfl, rfl, rfl⟩
  · exact State.refused_of hr hd (hmail rfl) (State.ticketed_of_full (s := s.asked p _) hroom _ _)
  · have hmay : ¬(decide (p ≠ 1) || (s.asked p 3).sec.debugNow) = true := by
      rw [show (s.asked p 3).sec.debugNow = false from hdebug]
      simp [hp]
    exact State.taken_of hr hd (hmail rfl) ((if_neg hmay).trans (State.ticketed_of_room (s := s.asked p _) hroom _ _)) rfl
      ⟨rfl, rfl, rfl, rfl⟩
  · refine State.refused_of hr hd (hmail rfl) (if_pos ?_)
    rcases hq with hq | hq
    · simp [hq]
    · rw [show (s.asked p 3).sec.debugNow = true from hq, Bool.or_true]
  · let begun := (s.asked p 4).setSec { (s.asked p 4).sec with opening := none }
    refine State.taken_of (u := begun.withTicket p 4 none [o.1, o.2]) (a := { ok := true, ticket := begun.sec.nextTicket % 2 ^ 32 })
      hr hd (hmail rfl) ?_ rfl ⟨⟨rfl, rfl, rfl, rfl⟩, rfl⟩
    dsimp only
    rw [show (s.asked p 4).sec.opening = some o from ho]
    dsimp only
    rw [if_neg (by simp [hp])]
    exact State.ticketed_of_room (s := begun) hroom _ _
  · refine State.taken_of (u := s.asked p 0x0B) (a := { ok := true, bytes := k.result }) hr hd (hmail rfl) ?_ rfl ⟨rfl, rfl, rfl⟩
    rw [show (s.asked p 0x0B).sec.tickets.find? (fun v => v.port == p && v.id % 2 ^ 32 == id) = some k from hk]
    exact if_pos hend
  · refine State.refused_of hr hd (hmail rfl) ?_
    rw [show (s.asked p 0x0B).sec.tickets.find? (fun v => v.port == p && v.id % 2 ^ 32 == id) = some k from hk]
    exact if_neg hend
  · exact State.refused_of hr hd (hmail rfl) (State.owned_of_stranger (s := s.asked p _) hb _)
  · exact State.refused_of hr hd (hmail rfl) (State.owned_of_stranger (s := s.asked p _) hb _)
  · exact State.refused_of hr hd (hmail rfl) (State.owned_of_stranger (s := s.asked p _) hb _)
  · exact State.refused_of hr hd (hmail rfl) (State.owned_of_stranger (s := s.asked p _) hb _)

end Sys2Proof.Machine
end

section
/-! PROOFS. Tickets, session timeouts and the clearing of a partition (O59). -/

namespace Sys2Proof.Machine

open Host Reg

variable {s : State} {id q : Nat} {ok : Bool} {k : Ticket}

/-! ## Ticketed operations (R422) -/

/-- The state after a ticketed operation has ended as `r` says. -/
def State.ticketEnded (s : State) (id : Nat) (r : State × Bool × List Byte) : State :=
  r.1.setSec { r.1.sec with tickets := r.1.sec.tickets.map (fun u =>
    if u.id = id then { u with ended := some r.2.1, endTime := s.time.now, result := r.2.2 } else u) }

theorem exec_ticketOpComplete_waits (hs : s.clocked = true) (hk : s.sec.tickets.find? (fun v => v.id == id && v.ended.isNone) = some k)
    (hr : s.ticketEffect k ok = none) : exec (.ticketOpComplete id ok) s = .next s := by
  have hexec : exec (.ticketOpComplete id ok) s = _ := State.onClock_of hs
  rw [hk] at hexec
  dsimp only at hexec
  rw [hr] at hexec
  exact hexec

theorem exec_ticketOpComplete_ends (hs : s.clocked = true) (hk : s.sec.tickets.find? (fun v => v.id == id && v.ended.isNone) = some k)
    {r : State × Bool × List Byte} (hr : s.ticketEffect k ok = some r) :
    exec (.ticketOpComplete id ok) s = .next (s.ticketEnded id r) := by
  have hexec : exec (.ticketOpComplete id ok) s = _ := State.onClock_of hs
  rw [hk] at hexec
  dsimp only at hexec
  rw [hr] at hexec
  exact hexec

/-- Every ticket of the operation holds how it ended, with what, and when. -/
theorem State.ticketEnded_tickets (s : State) (id : Nat) (r : State × Bool × List Byte) :
    ∀ v ∈ (s.ticketEnded id r).sec.tickets, v.id = id → v.ended = some r.2.1 ∧ v.result = r.2.2 ∧ v.endTime = s.time.now := by
  intro v hv hid
  obtain ⟨u, -, rfl⟩ := List.mem_map.1 hv
  by_cases hu : u.id = id
  · rw [if_pos hu]
    exact ⟨rfl, rfl, rfl⟩
  · rw [if_neg hu] at hid
    exact absurd hid hu

theorem State.ticketEffect_report (h : k.op = 2) : s.ticketEffect k ok = some (s, true, s.report (lget 0 k.args 0)) := by
  unfold State.ticketEffect
  rw [h]
  rfl

/-- SESSION_FINISH opens one session more. -/
theorem State.ticketEffect_session (h : k.op = 4) (hok : ok = true) (hdebug : s.sec.debugNow = false) (hroom : s.sec.sessions.length < 4) :
    ∃ u : State, s.ticketEffect k ok = some (u, true, []) ∧ u.sec.sessions.length = s.sec.sessions.length + 1 := by
  unfold State.ticketEffect
  rw [h]
  exact ⟨_, if_neg (by simp [hok, hdebug, hroom]), List.length_append⟩

/-- DEBUG_ENABLE ends once no partition is protected. -/
theorem State.ticketEffect_debug (h : k.op = 0x0D) : s.ticketEffect k ok = if !s.sec.prots.isEmpty then none
    else some ({ s with sec := { s.sec with debugNow := true }, fuses := { s.fuses with debugCount := s.fuses.debugCount + 1 } }, true, []) := by
  unfold State.ticketEffect
  rw [h]
  rfl

theorem State.ticketEffect_release (h : k.op = 7) (hc : (s.prot (lget 0 k.args 0)).clearing = true) : s.ticketEffect k ok = none := by
  unfold State.ticketEffect
  rw [h]
  exact if_pos hc

/-! ## Timeouts (R422, R423) -/

theorem State.endSession_parts (s : State) (id : Nat) : (∀ v ∈ (s.endSession id).sec.sessions, v.id ≠ id) ∧
    (∀ v ∈ (s.endSession id).sec.tickets, v.session ≠ some id) ∧ s.sameBut [.sec] (s.endSession id) := by
  refine ⟨fun v hv => ?_, fun v hv => ?_, (State.endSession_within (k := 131072) rfl (.refl _ s)).sameBut (by decide)⟩
  · exact bne_iff_ne.1 (List.mem_filter.1 hv).2
  · exact bne_iff_ne.1 (List.mem_filter.1 hv).2

/-! ## Clearing (R430 to R433) -/

theorem State.foldl_dropLine_mem {α : Type} (n : Nat) (way set : α → Nat) (l : List α) (s : State) :
    (l.foldl (fun st e => st.dropLine n (way e) (set e)) s).mem = s.mem := by
  induction l generalizing s with
  | nil => rfl
  | cons e l ih => rw [List.foldl_cons, ih]; rfl

/-- Zeros over an area list no byte of it, and none that was not listed before. -/
theorem State.mem_zeroArea {n : Nat} {a : Nat × Nat} {c : Cell} (h : c ∈ (s.zeroArea n a).mem) :
    c ∈ s.mem ∧ ¬(glob n a.1 ≤ c.1 ∧ c.1 < glob n a.1 + a.2) := by
  unfold State.zeroArea at h
  extract_lets lo inside unit gone s1 at h
  have hs1 : s1.mem = s.mem := State.foldl_dropLine_mem n _ _ gone s
  obtain ⟨hc, hout⟩ := List.mem_filter.1 h
  rw [hs1] at hc
  refine ⟨hc, fun hin => ?_⟩
  simp [inside, lo, hin.1, hin.2] at hout

theorem State.mem_foldl_zeroArea (n : Nat) (l : List (Nat × Nat)) (s : State) {c : Cell} (h : c ∈ (l.foldl (fun u a => u.zeroArea n a) s).mem) :
    c ∈ s.mem ∧ ∀ a ∈ l, ¬(glob n a.1 ≤ c.1 ∧ c.1 < glob n a.1 + a.2) := by
  induction l generalizing s with
  | nil => exact ⟨h, fun a ha => absurd ha List.not_mem_nil⟩
  | cons b l ih =>
    obtain ⟨hc, hl⟩ := ih (s.zeroArea n b) h
    obtain ⟨hc, hb⟩ := State.mem_zeroArea hc
    exact ⟨hc, List.forall_mem_cons.2 ⟨hb, hl⟩⟩

theorem State.mem_foldl_zeroAreas (areas : Nat → List (Nat × Nat)) (l : List Nat) (s : State) {c : Cell}
    (h : c ∈ (l.foldl (fun st n => (areas n).foldl (fun u a => u.zeroArea n a) st) s).mem) :
    c ∈ s.mem ∧ ∀ n ∈ l, ∀ a ∈ areas n, ¬(glob n a.1 ≤ c.1 ∧ c.1 < glob n a.1 + a.2) := by
  induction l generalizing s with
  | nil => exact ⟨h, fun n hn => absurd hn List.not_mem_nil⟩
  | cons m l ih =>
    obtain ⟨hc, hl⟩ := ih _ h
    obtain ⟨hc, hm⟩ := State.mem_foldl_zeroArea m (areas m) s hc
    exact ⟨hc, List.forall_mem_cons.2 ⟨hm, hl⟩⟩

theorem State.prot_setProt_self (s : State) (q : Nat) (x : Prot) : (s.setProt q x).prot q = x := tget_tput_self

/-- The clear of a released partition begins once none of its contexts is enabled. -/
theorem exec_clearStart (hs : s.clocked = true) (hc : (s.prot q).clearing = true) (hf : (s.prot q).filling = false)
    (h6 : s.stepDone 6 = true) (hctx : ∀ c, c < 512 → s.ctxPart c ≠ q ∨ s.ctxState c = 0) :
    ∃ t, exec (.clearStart q) s = .next t ∧ (t.prot q).filling = true ∧
      (∀ n, n < 4 → s.admitted n = true → ∀ a ∈ s.protAreas q n, ∀ c ∈ t.mem, ¬(glob n a.1 ≤ c.1 ∧ c.1 < glob n a.1 + a.2)) ∧
      (∀ n, n < 4 → s.admitted n = false → s.protAreas q n ≠ [] →
        ∃ d ∈ t.sec.deferrals, d.part = q ∧ d.die = n ∧ d.areas = s.protAreas q n) := by
  have hidle : (List.range 512).any (fun c => s.ctxPart c == q && s.ctxState c != 0) = false := by
    refine List.any_eq_false.2 fun c hc' => ?_
    rcases hctx c (List.mem_range.1 hc') with h | h <;> simp [h]
  have hexec : exec (.clearStart q) s = execClearStart q s := rfl
  unfold execClearStart at hexec
  rw [State.onClock_of hs, if_neg (by rw [hidle]; simp [hc, hf, h6])] at hexec
  extract_lets dies now later s1 e s2 at hexec
  have hdies {n : Nat} (hn : n < 4) (hne : s.protAreas q n ≠ []) : n ∈ dies :=
    List.mem_filter.2 ⟨List.mem_range.2 hn, by simpa using hne⟩
  refine ⟨_, hexec, ?_, fun n hn hadm a ha c hcell => ?_, fun n hn hadm hne => ?_⟩
  · rw [State.prot_setProt_self]
  · have hnow : n ∈ now := List.mem_filter.2 ⟨hdies hn (List.ne_nil_of_mem ha), hadm⟩
    exact (State.mem_foldl_zeroAreas (s.protAreas q) now s hcell).2 n hnow a ha
  · have hlater : n ∈ later := List.mem_filter.2 ⟨hdies hn hne, by simp [hadm]⟩
    exact ⟨_, List.mem_append_right _ (List.mem_map_of_mem hlater), rfl, rfl, rfl⟩

/-- Settles O59. -/
theorem ticketsAndClears : Obligations.TicketsAndClears := by
  unfold Obligations.TicketsAndClears
  intro s hs
  refine ⟨fun id ok k hk => ⟨fun hr => exec_ticketOpComplete_waits hs hk hr, fun r hr => ?_, fun hop hc => State.ticketEffect_release hop hc⟩,
    fun id => ?_, fun id w hw => ⟨fun hle => ?_, fun hlt => ?_⟩, fun q hc hf h6 hctx => exec_clearStart hs hc hf h6 hctx, fun q hf => ?_⟩
  · refine ⟨_, exec_ticketOpComplete_ends hs hk hr, s.ticketEnded_tickets id r, rfl, rfl, rfl, rfl, fun hop => ?_, fun hop hok hdebug hroom => ?_, fun hop => ?_⟩
    · rw [State.ticketEffect_report hop] at hr
      obtain rfl := Option.some.inj hr
      rfl
    · obtain ⟨u, hu, hlen⟩ := State.ticketEffect_session hop hok hdebug hroom
      obtain rfl := Option.some.inj (hu.symm.trans hr)
      exact ⟨hlen, rfl⟩
    · rw [State.ticketEffect_debug hop] at hr
      split at hr
      · exact absurd hr (Option.some_ne_none r).symm
      · obtain rfl := Option.some.inj hr
        exact ⟨rfl, rfl⟩
  · have hexec : exec (.ticketExpire id) s = _ := State.onClock_of hs
    refine ⟨_, hexec, (State.setSec_within (k := 131072) rfl (.refl _ s)).sameBut (by decide), fun v => ?_⟩
    refine List.mem_filter.trans (and_congr_right fun _ => ?_)
    rw [Bool.not_eq_true', Bool.eq_false_iff]
    simp only [ne_eq, Bool.and_eq_true, beq_iff_eq, decide_eq_true_eq, and_assoc]
  · have hexec : exec (.sessionTimeout id) s = _ := State.onClock_of hs
    rw [hw] at hexec
    dsimp only at hexec
    rw [if_pos hle] at hexec
    exact ⟨_, hexec, s.endSession_parts id⟩
  · have hexec : exec (.sessionTimeout id) s = _ := State.onClock_of hs
    rw [hw] at hexec
    dsimp only at hexec
    rw [if_neg (by omega)] at hexec
    exact hexec
  · have hexec : exec (.clearComplete q) s = execClearComplete q s := rfl
    unfold execClearComplete at hexec
    rw [State.onClock_of hs] at hexec
    extract_lets x at hexec
    rw [if_pos hf] at hexec
    refine ⟨_, hexec, State.prot_setProt_self .., ?_, rfl, rfl,
      (State.setProt_within (k := 131072) rfl (State.clearRecord_within (k := 131072) rfl (.refl _ s))).sameBut (by decide)⟩
    exact List.length_take_le _ _

end Sys2Proof.Machine
end

section
/-! PROOFS. Firmware and trims (O60). -/

namespace Sys2Proof.Machine

open Host Reg

variable {s t : State} {i : Nat} {x : Component}

/-! ## Components (R489 to R492) -/

/-- A component is the one stored, but where component 3 is rolled out. -/
theorem State.component_of (h : t.storedComponent i = x) (hroll : x.state = 2 → i = 3 → t.rolledOut = false) : t.component i = x := by
  unfold State.component
  rw [h]
  refine if_neg fun hall => ?_
  obtain ⟨hi, hst, hr⟩ := hall
  rw [hroll hst hi] at hr
  exact absurd hr (by decide)

theorem State.storedComponent_setComponent (s : State) (i : Nat) (x : Component) : (s.setComponent i x).storedComponent i = x := tget_tset_self

/-- What is stored of a component shows, unless it is staged. -/
theorem State.component_setComponent (s : State) (i : Nat) (h : x.state ≠ 2) : (s.setComponent i x).component i = x :=
  State.component_of (s.storedComponent_setComponent i x) fun h2 => absurd h2 h

/-- The effect of a command on component `i`, and on no other part but bring-up. -/
theorem exec_setComponent {c : Instr} (hexec : exec c s = .next (s.setComponent i x)) (h : x.state ≠ 2) {p : Component → Prop} (hp : p x) :
    ∃ t, exec c s = .next t ∧ p (t.component i) ∧ s.sameBut [.bu] t :=
  ⟨_, hexec, by rw [State.component_setComponent s i h]; exact hp,
    (State.setComponent_within (k := 268435456) rfl (.refl _ s)).sameBut (by decide)⟩

theorem Component.slot_setSlot (c : Component) (k : Nat) (hk : k ≤ 1) (f : Option FwSlot) :
    (c.setSlot k f).slot k = f ∧ (c.setSlot k f).slot (1 - k) = c.slot (1 - k) := by
  rcases (by omega : k = 0 ∨ k = 1) with rfl | rfl
  · exact ⟨rfl, rfl⟩
  · exact ⟨rfl, rfl⟩

theorem Component.setSlot_running (c : Component) (k : Nat) (f : Option FwSlot) : (c.setSlot k f).running = c.running := by
  unfold Component.setSlot
  split <;> rfl

/-- A new image is written to the slot that does not run; the running one stays. -/
theorem Component.setSlot_other (c : Component) (f : Option FwSlot) :
    (c.setSlot (1 - c.running) f).slot (1 - c.running) = f ∧ (c.running ≤ 1 → (c.setSlot (1 - c.running) f).runSlot = c.runSlot) := by
  obtain ⟨hself, hother⟩ := c.slot_setSlot (1 - c.running) (by omega) f
  refine ⟨hself, fun h => ?_⟩
  rw [show 1 - (1 - c.running) = c.running by omega] at hother
  unfold Component.runSlot
  rw [Component.setSlot_running]
  exact hother

/-- A staged component shows as stored: no die has loaded it yet. -/
theorem exec_staged {c : Instr} (hexec : exec c s = .next (if i = 3 then
      (s.setComponent i { x with state := 2, writing := none }).setBu
        { (s.setComponent i { x with state := 2, writing := none }).bu with newer := 0 }
      else s.setComponent i { x with state := 2, writing := none }))
    {k : Nat} {f : Option FwSlot} (hslot : x.slot k = f) :
    ∃ t, exec c s = .next t ∧ (t.component i).state = 2 ∧ (t.component i).slot k = f ∧ (i = 3 → t.bu.newer = 0) ∧ s.sameBut [.bu] t := by
  have hset : Within 268435456 s (s.setComponent i { x with state := 2, writing := none }) :=
    State.setComponent_within (k := 268435456) rfl (.refl _ s)
  by_cases hi : i = 3
  · rw [if_pos hi] at hexec
    refine ⟨_, hexec, ?_⟩
    have hcomp : ((s.setComponent i { x with state := 2, writing := none }).setBu
        { (s.setComponent i { x with state := 2, writing := none }).bu with newer := 0 }).component i =
        { x with state := 2, writing := none } :=
      State.component_of (s.storedComponent_setComponent i _) fun _ _ => rfl
    rw [hcomp]
    exact ⟨rfl, hslot, fun _ => rfl, (State.setBu_within (k := 268435456) rfl hset).sameBut (by decide)⟩
  · rw [if_neg hi] at hexec
    refine ⟨_, hexec, ?_⟩
    rw [State.component_of (s.storedComponent_setComponent i _) fun _ h => absurd h hi]
    exact ⟨rfl, hslot, fun h => absurd h hi, hset.sameBut (by decide)⟩

/-! ## Loading (R491) -/

/-- Where every slot verifies, the newest one is loaded. -/
theorem Component.load_of_newest (c : Component) (i : Nat) (h : (c.slot c.newest).isSome = true) : c.load i 0 = (c, some (c.newest, false)) := by
  unfold Component.load
  extract_lets bad first
  have hgood : bad first = false := by
    simp [bad, bit]
  rw [if_neg (by rw [Option.isNone_iff_eq_none]; exact Option.isSome_iff_ne_none.1 h), if_pos (by rw [hgood]; rfl)]

theorem Component.load_of_empty (c : Component) (i : Nat) (h0 : c.slot0 = none) (h1 : c.slot1 = none) : c.load i 0 = (c, none) := by
  unfold Component.load Component.newest
  rw [h0, h1]
  exact if_pos (by simp [Component.slot, h0])

/-! ## Trims (R494) -/

theorem State.setTrim_parts (s : State) (c v : Nat) : (s.setTrim c v).get BRL_CH_TRIM.HI_OFS c = bits v 0 6 ∧
    (s.setTrim c v).get BRL_CH_TRIM.LO_OFS c = bits v 6 6 ∧ (s.setTrim c v).get BRL_CH_TRIM.CB_OFS c = bits v 12 6 := by
  unfold State.setTrim
  refine ⟨?_, ?_, ?_⟩
  · rw [State.get_set_apart (by decide), State.get_set_apart (by decide), State.get_set_self]
    exact Nat.mod_mod _ _
  · rw [State.get_set_apart (by decide), State.get_set_self]
    exact Nat.mod_mod _ _
  · rw [State.get_set_self]
    exact Nat.mod_mod _ _

/-- Settles O60. -/
theorem firmwareAndTrims : Obligations.FirmwareAndTrims := by
  unfold Obligations.FirmwareAndTrims
  intro s i hs c
  refine ⟨fun src image sigOk hsrc h1 h4 => ?_, fun hst => ⟨?_, ?_⟩, ?_, fun hst => ⟨fun hnew => ?_, fun h0 h1 => ?_⟩,
    fun src val hi hdom hr => ⟨fun harmed => ?_, fun harmed => ?_⟩⟩
  · intro may
    have hexec : exec (.image src i image sigOk) s = .next (s.imageWrite i image sigOk).1 := by
      have hrun : exec (.image src i image sigOk) s = _ := State.onClock_of hs
      rwa [if_pos (by rcases hsrc with rfl | rfl <;> simp [Src.maintOrHost, h1, h4])] at hrun
    have hmay : may ↔ ¬(s.flashBusy || c.state == 1 || c.state == 3 || (i == 3 && s.rollout)) = true := by
      simp only [may, Bool.or_eq_true, Bool.and_eq_true, beq_iff_eq, not_or, not_and, Bool.not_eq_true, and_assoc, ne_eq]
    unfold State.imageWrite at hexec
    refine ⟨fun hm hok => ?_, fun hm hok => ?_, fun hm => ?_⟩
    · dsimp only at hexec
      rw [if_neg (hmay.1 hm), if_neg (by simp [hok])] at hexec
      obtain ⟨hnone, hrun⟩ := c.setSlot_other none
      obtain ⟨t, ht, ⟨hstate, hwriting, hslot, hrunslot⟩, hbut⟩ := exec_setComponent (p := fun y => y.state = 1 ∧
        y.writing = some ⟨bits (leVal (image.take 256)) 96 32, bits (leVal (image.take 256)) 64 32, sha384 (image.drop 256), image⟩ ∧
        y.slot (1 - c.running) = none ∧ (c.running ≤ 1 → y.runSlot = c.runSlot)) hexec (show (1 : Nat) ≠ 2 by decide) ⟨rfl, rfl, hnone, hrun⟩
      exact ⟨t, _, ht, hstate, hwriting, rfl, rfl, hslot, hrunslot, hbut⟩
    · dsimp only at hexec
      rw [if_neg (hmay.1 hm), if_pos (by simp [hok])] at hexec
      obtain ⟨t, ht, ⟨hstate, hslot0, hslot1⟩, hbut⟩ := exec_setComponent (p := fun y => y.state = 4 ∧ y.slot0 = c.slot0 ∧ y.slot1 = c.slot1)
        hexec (show (4 : Nat) ≠ 2 by decide) ⟨rfl, rfl, rfl⟩
      exact ⟨t, ht, hstate, hslot0, hslot1, hbut⟩
    · dsimp only at hexec
      rwa [if_pos (not_not.1 (mt hmay.2 hm))] at hexec
  · have hexec : exec (.imageStageComplete i true) s = execImageStageComplete i true s := rfl
    unfold execImageStageComplete at hexec
    rw [State.onClock_of hs] at hexec
    dsimp only at hexec
    rw [if_neg (not_not.2 hst), if_neg (by decide)] at hexec
    obtain ⟨hslot, -⟩ := c.setSlot_other c.writing
    exact exec_staged hexec hslot
  · have hexec : exec (.imageStageComplete i false) s = execImageStageComplete i false s := rfl
    unfold execImageStageComplete at hexec
    rw [State.onClock_of hs] at hexec
    dsimp only at hexec
    rw [if_neg (not_not.2 hst), if_pos (by decide)] at hexec
    obtain ⟨t, ht, ⟨hstate, hslot0, hslot1⟩, hbut⟩ := exec_setComponent (p := fun y => y.state = 4 ∧ y.slot0 = c.slot0 ∧ y.slot1 = c.slot1)
      hexec (show (4 : Nat) ≠ 2 by decide) ⟨rfl, rfl, rfl⟩
    exact ⟨t, ht, hstate, hslot0, hslot1, hbut⟩
  · intro may
    have hexec : exec (.activate .sideband i 1) s = _ := State.onClock_of hs
    rw [if_pos rfl] at hexec
    unfold State.activateWrite at hexec
    have hmay : may ↔ ¬((i ≠ 2 ∧ i ≠ 4) ∨ (1 : Nat) ≠ 1 ∨ c.state ≠ 2 ∨ (s.guardedOn ∧ !s.latched)) := by
      simp only [may, not_or, ne_eq, not_true_eq_false, not_false_eq_true, true_and, not_not, not_and, Bool.not_eq_true', Bool.not_eq_false]
      tauto
    refine ⟨fun hm => ?_, fun hm => ?_⟩
    · dsimp only at hexec
      rw [if_neg (hmay.1 hm)] at hexec
      exact exec_setComponent (p := fun y => y.state = 3) hexec (show (3 : Nat) ≠ 2 by decide) rfl
    · dsimp only at hexec
      rwa [if_pos (not_not.1 (mt hmay.2 hm))] at hexec
  · have hexec : exec (.activateComplete i 0) s = execActivateComplete i 0 s := rfl
    unfold execActivateComplete at hexec
    rw [State.onClock_of hs] at hexec
    dsimp only at hexec
    rw [if_neg (not_not.2 hst), Component.load_of_newest (s.component i) i hnew] at hexec
    have hst' : (c.ran c.newest).state ≠ 2 := by
      show (if (c.state = 2 ∨ c.state = 3) ∧ c.newest ≠ c.running then 0 else c.state) ≠ 2
      split
      · decide
      · rw [hst]; decide
    have hcomp : ∀ u : State, u.bu.comps = (s.setComponent i (c.ran c.newest)).bu.comps → u.component i = c.ran c.newest := by
      intro u hu
      refine State.component_of ?_ fun h => absurd h hst'
      rw [← s.storedComponent_setComponent i (c.ran c.newest)]
      unfold State.storedComponent
      rw [hu]
    refine ⟨_, hexec, ?_⟩
    rw [hcomp _ (by split <;> rfl)]
    exact ⟨rfl, rfl, fun hne => if_pos ⟨.inr hst, hne⟩⟩
  · have hexec : exec (.activateComplete i 0) s = execActivateComplete i 0 s := rfl
    unfold execActivateComplete at hexec
    rw [State.onClock_of hs] at hexec
    dsimp only at hexec
    rw [if_neg (not_not.2 hst), Component.load_of_empty (s.component i) i h0 h1] at hexec
    obtain ⟨t, ht, ⟨hstate, hloaded⟩, -⟩ := exec_setComponent (p := fun y => y.state = 4 ∧ y.loaded = false) hexec
      (show (4 : Nat) ≠ 2 by decide) ⟨rfl, rfl⟩
    exact ⟨t, ht, hstate, hloaded⟩
  · have hexec : exec (.brlChTrimWrite src i val) s = _ := State.onClock_of hs
    rw [if_neg (by omega), if_neg (by simp [hr]), if_pos harmed] at hexec
    exact ⟨_, hexec, by rw [State.rfxChan_setRfx_self], (State.setRfx_within (k := 8388608) rfl (.refl _ s)).sameBut (by decide)⟩
  · have hexec : exec (.brlChTrimWrite src i val) s = _ := State.onClock_of hs
    rw [if_neg (by omega), if_neg (by simp [hr]), if_neg harmed] at hexec
    obtain ⟨hhi, hlo, hcb⟩ := s.setTrim_parts i val
    exact ⟨_, hexec, hhi, hlo, hcb, by rw [State.rfxChan_setRfx_self],
      (State.setRfx_within (k := 8388610) rfl (State.setTrim_within (k := 8388610) rfl (.refl _ s))).sameBut (by decide)⟩

end Sys2Proof.Machine
end

section
/-! PROOFS. Dictionary requests (O48). -/

namespace Sys2Proof.Machine

open Host Reg

variable {s t : State} {idx sub p rank : Nat} {src : Src}

/-! ## Answers of a port (R358, R359) -/

/-- The answer of request port `p`. -/
def State.portAnswer (s : State) (p : Nat) (v : Verdict) (size : Option Nat) (read : Option (List Byte)) : State :=
  let s2 := ((s.set AGT_UNC_DICT_RSP.BUSY p 0).set AGT_UNC_DICT_RSP.STATUS p v.1.code).set AGT_UNC_DICT_ABORT.CODE p v.2
  let s3 := size.elim s2 (fun n => s2.set AGT_UNC_DICT_RSP.SIZE p n)
  read.elim s3 (fun b => s3.set AGT_UNC_DICT_DATA.VALUE p (leVal b))

theorem State.dictAnswer_of_port (h : rank = 2 ∨ rank = 3) (s : State) (v : Verdict) (size : Option Nat) (read : Option (List Byte)) :
    s.dictAnswer rank false v size read = s.portAnswer (rank - 2) v size read := if_pos h

/-- The answers of the field buses and of the safety channel go out as SDOs. -/
theorem State.dictAnswer_of_bus (h : rank = 1 ∨ rank = 4 ∨ rank = 5) (s : State) (v : Verdict) (size : Option Nat)
    (read : Option (List Byte)) : s.dictAnswer rank false v size read = s.emit (.sdo rank v.2 (read.getD [])) := by
  unfold State.dictAnswer
  rw [if_neg (by omega), if_pos h]

theorem State.portAnswer_within {k : Nat} {r : State} {v : Verdict} {size : Option Nat} {read : Option (List Byte)} (hk : Sub 2 k)
    (hs : Within k r s) : Within k r (s.portAnswer p v size read) := by
  have h2 := State.set_within (f := AGT_UNC_DICT_ABORT.CODE) (i := p) (v := v.2) hk
    (State.set_within (f := AGT_UNC_DICT_RSP.STATUS) (i := p) (v := v.1.code) hk
      (State.set_within (f := AGT_UNC_DICT_RSP.BUSY) (i := p) (v := 0) hk hs))
  have h3 := Within.elimOf (o := size) h2 fun n => State.set_within (f := AGT_UNC_DICT_RSP.SIZE) (i := p) (v := n) hk h2
  exact Within.elimOf (o := read) h3 fun b => State.set_within (f := AGT_UNC_DICT_DATA.VALUE) (i := p) (v := leVal b) hk h3

/-- What the size and the bytes of an answer leave as it was. -/
theorem State.agreesOn_portAnswer {g : Fld} (hsize : g.apart AGT_UNC_DICT_RSP.SIZE = true) (hdata : g.apart AGT_UNC_DICT_DATA.VALUE = true)
    (s : State) (p : Nat) (v : Verdict) (size : Option Nat) (read : Option (List Byte)) :
    (s.portAnswer p v size read).get g p =
      (((s.set AGT_UNC_DICT_RSP.BUSY p 0).set AGT_UNC_DICT_RSP.STATUS p v.1.code).set AGT_UNC_DICT_ABORT.CODE p v.2).get g p := by
  unfold State.portAnswer
  cases size with
  | none =>
    cases read with
    | none => rfl
    | some b => exact State.get_set_apart hdata
  | some n =>
    cases read with
    | none => exact State.get_set_apart hsize
    | some b => exact (State.get_set_apart hdata).trans (State.get_set_apart hsize)

theorem State.portAnswer_parts (s : State) (p : Nat) (v : Verdict) (size : Option Nat) (read : Option (List Byte)) :
    (s.portAnswer p v size read).get AGT_UNC_DICT_RSP.STATUS p = v.1.code ∧
    (s.portAnswer p v size read).get AGT_UNC_DICT_ABORT.CODE p = v.2 % 2 ^ 32 ∧
    (s.portAnswer p v size read).isSet AGT_UNC_DICT_RSP.BUSY p = false ∧
    (s.portAnswer p v size read).get AGT_UNC_DICT_RSP.SIZE p = size.elim (s.get AGT_UNC_DICT_RSP.SIZE p) (fun n => n % 2 ^ 24) := by
  refine ⟨?_, ?_, ?_, ?_⟩
  · rw [State.agreesOn_portAnswer (by decide) (by decide), State.get_set_apart (by decide), State.get_set_self]
    exact Nat.mod_eq_of_lt (Status.code_lt v.1)
  · rw [State.agreesOn_portAnswer (by decide) (by decide), State.get_set_self]
    rfl
  · unfold State.isSet
    rw [State.agreesOn_portAnswer (by decide) (by decide), State.get_set_apart (by decide), State.get_set_apart (by decide),
      State.get_set_self]
    rfl
  · have hkeep : (((s.set AGT_UNC_DICT_RSP.BUSY p 0).set AGT_UNC_DICT_RSP.STATUS p v.1.code).set AGT_UNC_DICT_ABORT.CODE p v.2).get
        AGT_UNC_DICT_RSP.SIZE p = s.get AGT_UNC_DICT_RSP.SIZE p := by
      rw [State.get_set_apart (by decide), State.get_set_apart (by decide), State.get_set_apart (by decide)]
    unfold State.portAnswer
    cases size with
    | none =>
      cases read with
      | none => exact hkeep
      | some b => exact (State.get_set_apart (by decide)).trans hkeep
    | some n =>
      cases read with
      | none => exact State.get_set_self ..
      | some b => exact (State.get_set_apart (by decide)).trans (State.get_set_self ..)

/-- The bytes that were read stand in DATA. -/
theorem State.portAnswer_read (s : State) (p : Nat) (v : Verdict) (size : Option Nat) (b : List Byte) :
    (s.portAnswer p v size (some b)).get AGT_UNC_DICT_DATA.VALUE p = leVal b % 2 ^ 64 := State.get_set_self ..

/-! ## Refusals on arrival (R359) -/

/-- What a request meets depends on nothing but the fuses. -/
theorem State.dictCheck_congr (h : t.fuses = s.fuses) (role : Nat) (b : Option (List Byte)) (size : Bool) (idx sub : Nat) :
    t.dictCheck role b size idx sub = s.dictCheck role b size idx sub := by
  have henv : t.envelope = s.envelope := by
    unfold State.envelope
    rw [h]
  have hrange (r : ObjRow) (v : Nat) : t.inRange r idx sub v = s.inRange r idx sub v := by
    unfold State.inRange
    rw [henv]
  unfold State.dictCheck
  simp only [hrange]

theorem State.request_refused {v : Verdict} {write : Option (List Byte)} {size : Bool} {ofs : Nat}
    (h : s.dictCheck (roleMask rank false) write size idx sub = some v) : s.request rank src write size idx sub ofs = s.dictRefuse rank v := by
  unfold State.request
  rw [h]

theorem State.request_write {b : List Byte} {size : Bool} {ofs : Nat}
    (h : s.dictCheck (roleMask rank false) (some b) size idx sub = none) :
    s.request rank src (some b) size idx sub ofs = s.stage { rank := rank, src := src, obj := objKey idx sub, bytes := b } := by
  unfold State.request
  rw [h]

theorem State.request_read {size : Bool} {ofs : Nat} (h : s.dictCheck (roleMask rank false) none size idx sub = none) :
    s.request rank src none size idx sub ofs = s.dictAnswer rank false .ok (some (s.objBytes false idx sub).length)
      (some (if rank = 2 ∨ rank = 3 then ((s.objBytes false idx sub).drop ofs).take 8 else (s.objBytes false idx sub).drop ofs)) := by
  unfold State.request
  rw [h]

/-! ## Requests of a port -/

theorem exec_dictRead (hs : s.clocked = true) (hp : s.dictPort p = true) (hb : s.isSet AGT_UNC_DICT_RSP.BUSY p = false) (ofs : Nat) :
    exec (.dictRead p idx sub ofs) s = .next ((s.set AGT_UNC_DICT_RSP.BUSY p 1).request (2 + p) (portSrc p) none
      (ofs % 8 == 0 && (ofs == 0 || decide (ofs < (s.objBytes false idx sub).length))) idx sub ofs) := by
  have hexec : exec (.dictRead p idx sub ofs) s = _ := State.onClock_of hs
  rwa [if_neg (by simp [hp]), if_neg (by simp [hb])] at hexec

theorem State.port_lt (hp : s.dictPort p = true) : p < 2 := by
  simp only [State.dictPort, Bool.and_eq_true, decide_eq_true_eq] at hp
  exact hp.1.1

/-- The answer of port `p` to a request of its interface. -/
theorem State.dictAnswer_port (hp : p < 2) (s : State) (v : Verdict) (size : Option Nat) (read : Option (List Byte)) :
    s.dictAnswer (2 + p) false v size read = s.portAnswer p v size read := by
  rw [State.dictAnswer_of_port (by omega), show 2 + p - 2 = p by omega]

/-- A write that one segment holds. -/
theorem exec_dictWrite_whole (hs : s.clocked = true) (hp : s.dictPort p = true) (hb : s.isSet AGT_UNC_DICT_RSP.BUSY p = false)
    {n : Nat} (hsize : ∀ b, s.writeSize idx sub b = some n) (hn : n ≤ 8) :
    ∃ d : DictUnit, d.slot = s.dic.slot ∧ exec (.dictWrite p idx sub 0) s = .next (((s.set AGT_UNC_DICT_RSP.BUSY p 1).setDic d).request
      (2 + p) (portSrc p) (some ((leBytes 8 (s.get AGT_UNC_DICT_DATA.VALUE p)).take n)) true idx sub 0) := by
  have hexec : exec (.dictWrite p idx sub 0) s = execDictWrite p idx sub 0 s := rfl
  unfold execDictWrite at hexec
  rw [State.onClock_of hs, if_neg (by simp [hp]), if_neg (by simp [hb])] at hexec
  dsimp only at hexec
  rw [if_neg (by simp), hsize] at hexec
  dsimp only at hexec
  rw [if_neg (by unfold domainMax; omega), if_pos (by omega), List.take_zero, List.nil_append] at hexec
  exact ⟨{ s.dic with staged := tdel s.dic.staged (2 + p) }, rfl, hexec⟩

theorem State.writeSize_of_row {r : ObjRow} {n : Nat} (hr : objRow idx sub = some r) (ht : typeBytes r.typ = some n) (s : State)
    (b : List Byte) : s.writeSize idx sub b = some n := by
  unfold State.writeSize
  rw [hr]
  dsimp only
  rw [ht]

/-! ## Requests of the field buses and of the safety channel -/

/-- A request of an interface that answers with SDOs. -/
theorem State.busRequest_parts (hr : rank = 1 ∨ rank = 4 ∨ rank = 5) (s : State) (src : Src) (w : Option (List Byte)) (idx sub : Nat) :
    (s.agateReloads = true → rank ≠ 1 → s.busRequest rank src w idx sub = s.emit (.sdo rank 0x08000020 [])) ∧
    (s.agateReloads = false ∨ rank = 1 → s.dictCheck (roleMask rank false) w true idx sub = none →
      (w = none → s.busRequest rank src w idx sub = s.emit (.sdo rank 0 (s.objBytes false idx sub))) ∧
      (∀ b, w = some b → s.busRequest rank src w idx sub = s.stage { rank := rank, src := src, obj := objKey idx sub, bytes := b })) := by
  unfold State.busRequest
  refine ⟨fun hrel hne => ?_, fun hfree hcheck => ?_⟩
  · rw [if_pos (by simp [hrel, hne])]
    exact State.dictAnswer_of_bus hr s Verdict.busy none none
  · rw [if_neg (by rcases hfree with h | h <;> simp [h])]
    refine ⟨fun hw => ?_, fun b hw => ?_⟩
    · subst hw
      rw [State.request_read hcheck, if_neg (by omega), State.dictAnswer_of_bus hr]
      rfl
    · subst hw
      exact State.request_write hcheck

/-- The commands that carry a request of a field bus or of the safety channel. -/
theorem exec_busRequest (hs : s.clocked = true) {w : Option (List Byte)} {c : Instr}
    (h : (c = .safetyDictRequest idx sub w ∧ rank = 1 ∧ src = .scarab ∧ s.domOn 40 = true ∧ s.pwr.scarabHalted = false ∧ s.linkState 8 ≠ 0) ∨
      (∃ ch, c = .usdoRequest ch idx sub w ∧ rank = 4 ∧ src = .mgmt ∧ ch < 2 ∧ s.domOn 34 = true ∧ s.get AGT_NET_CANSTAT.STATE ch ≠ 2) ∨
      (∃ n, c = .coeSdoRequest n idx sub w ∧ rank = 5 ∧ src = .mgmt ∧ n < 128 ∧ s.ecatRuns = true)) :
    (rank = 1 ∨ rank = 4 ∨ rank = 5) ∧ exec c s = .next (s.busRequest rank src w idx sub) := by
  rcases h with ⟨rfl, rfl, rfl, hdom, hhalt, hlink⟩ | ⟨ch, rfl, rfl, rfl, hch, hdom, hst⟩ | ⟨n, rfl, rfl, rfl, hn, hrun⟩
  · refine ⟨.inl rfl, ?_⟩
    have hexec : exec (.safetyDictRequest idx sub w) s = _ := State.onClock_of hs
    rwa [if_neg (by simp [hdom, hhalt, hlink])] at hexec
  · refine ⟨.inr (.inl rfl), ?_⟩
    have hexec : exec (.usdoRequest ch idx sub w) s = _ := State.onClock_of hs
    rwa [if_neg (by simp [hdom, hst, hch])] at hexec
  · refine ⟨.inr (.inr rfl), ?_⟩
    have hexec : exec (.coeSdoRequest n idx sub w) s = _ := State.onClock_of hs
    rwa [if_neg (by simp [hn, hrun])] at hexec

/-- Settles O48. -/
theorem dictionaryRequests : Obligations.DictionaryRequests := by
  unfold Obligations.DictionaryRequests
  intro s idx sub hs staged
  refine ⟨fun p hp => ⟨fun ofs hb => ?_, fun hb => ⟨fun hcheck ofs h8 hofs => ?_, fun v hcheck hv => ?_, fun hcheck => ?_, fun r n hr ht hn => ?_⟩⟩,
    fun rank src w c hc => ?_, fun a k ha hmem => ?_⟩
  · have hread : exec (.dictRead p idx sub ofs) s = _ := State.onClock_of hs
    have hwrite : exec (.dictWrite p idx sub ofs) s = _ := State.onClock_of hs
    rw [if_neg (by simp [hp]), if_pos hb] at hread hwrite
    exact ⟨hread, hwrite⟩
  · have hexec := exec_dictRead (idx := idx) (sub := sub) hs hp hb ofs
    have hsize : (ofs % 8 == 0 && (ofs == 0 || decide (ofs < (s.objBytes false idx sub).length))) = true := by
      rcases hofs with h | h <;> simp [h8, h]
    have hrank : 2 + p = 2 ∨ 2 + p = 3 := by have := State.port_lt hp; omega
    rw [hsize, State.request_read (s := s.set AGT_UNC_DICT_RSP.BUSY p 1) ((State.dictCheck_congr rfl ..).trans hcheck), if_pos hrank, State.dictAnswer_port (State.port_lt hp)] at hexec
    obtain ⟨hst, hcode, hbusy, hlen⟩ := State.portAnswer_parts (s.set AGT_UNC_DICT_RSP.BUSY p 1) p .ok
      (some ((s.set AGT_UNC_DICT_RSP.BUSY p 1).objBytes false idx sub).length)
      (some ((((s.set AGT_UNC_DICT_RSP.BUSY p 1).objBytes false idx sub).drop ofs).take 8))
    exact ⟨_, hexec, hbusy, hst, hcode, ⟨State.portAnswer_read .., hlen⟩,
      (State.portAnswer_within (k := 2) rfl (State.set_within (k := 2) rfl (.refl _ s))).sameBut (by decide)⟩
  · have hexec := exec_dictRead (idx := idx) (sub := sub) hs hp hb 0
    rw [show ((0 % 8 == 0 && (0 == 0 || decide (0 < (s.objBytes false idx sub).length))) = true) from rfl,
      State.request_refused (s := s.set AGT_UNC_DICT_RSP.BUSY p 1) ((State.dictCheck_congr rfl ..).trans hcheck)] at hexec
    unfold State.dictRefuse at hexec
    rw [if_neg hv, State.dictAnswer_port (State.port_lt hp)] at hexec
    obtain ⟨hst, hcode, hbusy, hlen⟩ := State.portAnswer_parts (s.set AGT_UNC_DICT_RSP.BUSY p 1) p v none none
    exact ⟨_, hexec, hst, hcode, hbusy, hlen.trans (State.get_set_apart (by decide)),
      (State.portAnswer_within (k := 2) rfl (State.set_within (k := 2) rfl (.refl _ s))).sameBut (by decide)⟩
  · have hexec := exec_dictRead (idx := idx) (sub := sub) hs hp hb 0
    rw [show ((0 % 8 == 0 && (0 == 0 || decide (0 < (s.objBytes false idx sub).length))) = true) from rfl,
      State.request_refused (s := s.set AGT_UNC_DICT_RSP.BUSY p 1) ((State.dictCheck_congr rfl ..).trans hcheck)] at hexec
    unfold State.dictRefuse at hexec
    rw [if_pos (show Verdict.denied.1 = Status.denied from rfl)] at hexec
    exact ⟨_, hexec, congrArg (· == 1) (State.get_set_self (s := s) AGT_UNC_DICT_RSP.BUSY p 1), rfl, Nat.min_comm _ _⟩
  · intro b hcheck
    obtain ⟨d, hslot, hexec⟩ := exec_dictWrite_whole hs hp hb (State.writeSize_of_row hr ht s) hn
    rw [State.request_write (s := (s.set AGT_UNC_DICT_RSP.BUSY p 1).setDic d) ((State.dictCheck_congr rfl ..).trans hcheck)] at hexec
    refine ⟨_, hexec, congrArg (· == 1) (State.get_set_self (s := s) AGT_UNC_DICT_RSP.BUSY p 1), ?_,
      (State.stage_within (k := 67108866) rfl (State.setDic_within (k := 67108866) rfl
        (State.set_within (k := 67108866) rfl (.refl _ s)))).sameBut (by decide)⟩
    exact congrArg (· ++ _) hslot
  · obtain ⟨hrank, hexec⟩ := exec_busRequest hs hc
    obtain ⟨hbusy, hserved⟩ := s.busRequest_parts hrank src w idx sub
    refine ⟨fun hrel hne => by rw [hexec, hbusy hrel hne], fun hfree hcheck => ?_⟩
    obtain ⟨hread, hwrite⟩ := hserved hfree hcheck
    exact ⟨fun hw => by rw [hexec, hread hw], fun b hw => by rw [hexec, hwrite b hw]; rfl⟩
  · have hexec : exec (.deniedResponse true a k) s = _ := State.onClock_of hs
    rw [if_pos rfl, if_pos (by simpa using hmem), State.dictAnswer_of_port ha] at hexec
    obtain ⟨hst, -, hbusy, -⟩ := State.portAnswer_parts (s.setDic { s.dic with denied := s.dic.denied.erase a }) (a - 2) .denied none none
    have hdic := (State.portAnswer_within (k := 2) (p := a - 2) (v := .denied) (size := none) (read := none) rfl
      (.refl _ (s.setDic { s.dic with denied := s.dic.denied.erase a }))).parts .dic rfl
    exact ⟨_, hexec, congrArg DictUnit.denied hdic, hbusy, hst,
      (State.portAnswer_within (k := 67108866) rfl (State.setDic_within (k := 67108866) rfl (.refl _ s))).sameBut (by decide)⟩

end Sys2Proof.Machine
end

section
/-! PROOFS. Decisions of a slot (O49). -/

namespace Sys2Proof.Machine

open Host Reg

variable {s : State} {l : List SlotWrite} {w : SlotWrite} {i : Nat} {got : List Nat} {sigOk : Bool}

/-! ## The order of the decisions (R346) -/

theorem slotPlace_range (obj : Nat) : slotPlace obj = none ∨ slotPlace obj = some 1 ∨ slotPlace obj = some 2 ∨ slotPlace obj = some 3 := by
  unfold slotPlace
  split_ifs <;> simp

theorem slotOrder_eq (l : List SlotWrite) : slotOrder l =
    l.zipIdx.filter (fun e => slotPlace e.1.obj == none) ++ (l.zipIdx.filter (fun e => slotPlace e.1.obj == some 1) ++
      (l.zipIdx.filter (fun e => slotPlace e.1.obj == some 2) ++ l.zipIdx.filter (fun e => slotPlace e.1.obj == some 3))) := by
  unfold slotOrder
  simp

/-- Splitting a list by four values that are all a key takes loses nothing. -/
theorem filter_four_perm {α : Type} {f : α → Option Nat} (hf : ∀ a, f a = none ∨ f a = some 1 ∨ f a = some 2 ∨ f a = some 3) (L : List α) :
    (L.filter (fun a => f a == none) ++ (L.filter (fun a => f a == some 1) ++
      (L.filter (fun a => f a == some 2) ++ L.filter (fun a => f a == some 3)))).Perm L := by
  induction L with
  | nil => exact .refl _
  | cons a L ih =>
    rcases hf a with h | h | h | h <;> simp only [List.filter_cons, h, beq_self_eq_true, if_true]
    · exact ih.cons a
    · exact List.perm_middle.trans (ih.cons a)
    · rw [← List.append_assoc] at ih ⊢
      exact List.perm_middle.trans (ih.cons a)
    · rw [← List.append_assoc, ← List.append_assoc] at ih ⊢
      exact List.perm_middle.trans (ih.cons a)

theorem slotOrder_perm (l : List SlotWrite) : (slotOrder l).Perm l.zipIdx := by
  rw [slotOrder_eq]
  exact filter_four_perm (f := fun e : SlotWrite × Nat => slotPlace e.1.obj) (fun e => slotPlace_range e.1.obj) l.zipIdx

theorem zipIdx_pairwise (l : List SlotWrite) : l.zipIdx.Pairwise (fun e f => e.2 < f.2) := by
  rw [← List.pairwise_map (f := Prod.snd) (R := (· < ·)), List.zipIdx_map_snd]
  exact List.pairwise_lt_range'

/-- The writes of one place stand in their order of arrival. -/
theorem place_pairwise (l : List SlotWrite) (k : Option Nat) :
    (l.zipIdx.filter (fun e => slotPlace e.1.obj == k)).Pairwise (fun e f =>
      (slotPlace e.1.obj).getD 0 ≤ (slotPlace f.1.obj).getD 0 ∧ (slotPlace e.1.obj = slotPlace f.1.obj → e.2 < f.2)) := by
  refine ((zipIdx_pairwise l).filter _).imp_of_mem fun he hf hlt => ?_
  simp only [List.mem_filter, beq_iff_eq] at he hf
  rw [he.2, hf.2]
  exact ⟨Nat.le_refl _, fun _ => hlt⟩

/-- A write of an earlier place goes before one of a later place. -/
theorem place_before {a b : Option Nat} (hab : a.getD 0 < b.getD 0) {L : List (SlotWrite × Nat)} {e f : SlotWrite × Nat}
    (he : e ∈ L.filter (fun e => slotPlace e.1.obj == a)) (hf : f ∈ L.filter (fun e => slotPlace e.1.obj == b)) :
    (slotPlace e.1.obj).getD 0 ≤ (slotPlace f.1.obj).getD 0 ∧ (slotPlace e.1.obj = slotPlace f.1.obj → e.2 < f.2) := by
  simp only [List.mem_filter, beq_iff_eq] at he hf
  rw [he.2, hf.2]
  exact ⟨hab.le, fun heq => absurd hab (by rw [heq]; exact Nat.lt_irrefl _)⟩

theorem slotOrder_pairwise (l : List SlotWrite) : (slotOrder l).Pairwise (fun e f =>
    (slotPlace e.1.obj).getD 0 ≤ (slotPlace f.1.obj).getD 0 ∧ (slotPlace e.1.obj = slotPlace f.1.obj → e.2 < f.2)) := by
  rw [slotOrder_eq]
  refine List.pairwise_append.2 ⟨place_pairwise l _, List.pairwise_append.2 ⟨place_pairwise l _,
    List.pairwise_append.2 ⟨place_pairwise l _, place_pairwise l _, ?_⟩, ?_⟩, ?_⟩
  · exact fun e he f hf => place_before (by decide) he hf
  · intro e he f hf
    rcases List.mem_append.1 hf with hf | hf
    · exact place_before (by decide) he hf
    · exact place_before (by decide) he hf
  · intro e he f hf
    rcases List.mem_append.1 hf with hf | hf
    · exact place_before (by decide) he hf
    · rcases List.mem_append.1 hf with hf | hf
      · exact place_before (by decide) he hf
      · exact place_before (by decide) he hf

/-! ## The winner (R364, R365) -/

/-- Does the write `e` go before `x`: stop-ward first, then the higher rank, then the later? -/
def outranks (e x : SlotWrite × Nat) : Prop :=
  (e.1.stopward = false → x.1.stopward = false) ∧
  (x.1.stopward = e.1.stopward → e.1.rank ≤ x.1.rank ∧ (x.1.rank = e.1.rank → x.2 ≤ e.2))

theorem outranks_refl (e : SlotWrite × Nat) : outranks e e := ⟨id, fun _ => ⟨Nat.le_refl _, fun _ => Nat.le_refl _⟩⟩

theorem outranks_trans {a b c : SlotWrite × Nat} (hab : outranks a b) (hbc : outranks b c) : outranks a c := by
  obtain ⟨hsab, hab⟩ := hab
  obtain ⟨hsbc, hbc⟩ := hbc
  refine ⟨fun h => hsbc (hsab h), fun hca => ?_⟩
  have hba : b.1.stopward = a.1.stopward := by
    cases ha : a.1.stopward with
    | false => exact hsab ha
    | true =>
      cases hb : b.1.stopward with
      | false => exact absurd (hsbc hb) (by simp [hca, ha])
      | true => rfl
  have h1 := hab hba
  have h2 := hbc (hca.trans hba.symm)
  omega

/-- Of two writes the one that `beats` picks goes before both. -/
theorem beats_outranks {a b : SlotWrite × Nat} (h : a.2 < b.2) (hb : b.1.beats a.1 = true) : outranks b a := by
  unfold SlotWrite.beats at hb
  unfold outranks
  split at hb
  next heq =>
    have heq := beq_iff_eq.1 heq
    exact ⟨fun h0 => heq.trans h0, fun _ => ⟨of_decide_eq_true hb, fun _ => h.le⟩⟩
  next hne => simp_all

theorem outranks_of_not_beats {a b : SlotWrite × Nat} (hb : b.1.beats a.1 = false) : outranks a b := by
  unfold SlotWrite.beats at hb
  unfold outranks
  split at hb
  next heq =>
    have heq := beq_iff_eq.1 heq
    have hlt := of_decide_eq_false hb
    exact ⟨fun h0 => heq.symm.trans h0, fun _ => ⟨by omega, by omega⟩⟩
  next hne => simp_all

/-- The write ahead after `e` has arrived. -/
def ahead (acc : Option (SlotWrite × Nat)) (e : SlotWrite × Nat) : Option (SlotWrite × Nat) :=
  match acc with
  | none => some e
  | some a => if e.1.beats a.1 then some e else some a

/-- Over writes in order of arrival, the one ahead at the end is one of them and goes before all. -/
theorem foldl_ahead {L : List (SlotWrite × Nat)} {a : SlotWrite × Nat} (h : (a :: L).Pairwise (fun e f => e.2 < f.2)) :
    ∃ e ∈ a :: L, L.foldl ahead (some a) = some e ∧ ∀ x ∈ a :: L, outranks e x := by
  induction L generalizing a with
  | nil => exact ⟨a, by simp, rfl, by simpa using outranks_refl a⟩
  | cons b L ih =>
    obtain ⟨ha, hL⟩ := List.pairwise_cons.1 h
    cases hb : b.1.beats a.1 with
    | true =>
      obtain ⟨e, hmem, hfold, hbest⟩ := ih hL
      refine ⟨e, List.mem_cons_of_mem _ hmem, by rw [List.foldl_cons]; simpa [ahead, hb] using hfold, fun x hx => ?_⟩
      rcases List.mem_cons.1 hx with rfl | hx
      · exact outranks_trans (hbest b List.mem_cons_self) (beats_outranks (ha b List.mem_cons_self) hb)
      · exact hbest x hx
    | false =>
      obtain ⟨e, hmem, hfold, hbest⟩ := ih (a := a)
        (List.pairwise_cons.2 ⟨fun x hx => ha x (List.mem_cons_of_mem _ hx), (List.pairwise_cons.1 hL).2⟩)
      refine ⟨e, ?_, by rw [List.foldl_cons]; simpa [ahead, hb] using hfold, fun x hx => ?_⟩
      · rcases List.mem_cons.1 hmem with rfl | hmem
        · exact List.mem_cons_self
        · exact List.mem_cons_of_mem _ (List.mem_cons_of_mem _ hmem)
      · rcases List.mem_cons.1 hx with rfl | hx
        · exact hbest x List.mem_cons_self
        · rcases List.mem_cons.1 hx with rfl | hx
          · exact outranks_trans (hbest a List.mem_cons_self) (outranks_of_not_beats hb)
          · exact hbest x (List.mem_cons_of_mem _ hx)

theorem winner_eq (p : SlotWrite → Bool) (l : List SlotWrite) :
    winner p l = ((l.zipIdx.filter (fun e => p e.1)).foldl ahead none).map (·.2) := rfl

theorem winner_spec {p : SlotWrite → Bool} (h : winner p l = some i) (hi : l[i]? = some w) :
    p w = true ∧ ∀ j v, l[j]? = some v → p v = true → outranks (w, i) (v, j) := by
  rw [winner_eq] at h
  have hpair := (zipIdx_pairwise l).filter (fun e => p e.1)
  have hmem (v : SlotWrite) (j : Nat) : (v, j) ∈ l.zipIdx.filter (fun e => p e.1) ↔ l[j]? = some v ∧ p v = true := by
    rw [List.mem_filter, List.mk_mem_zipIdx_iff_getElem?]
  generalize l.zipIdx.filter (fun e => p e.1) = M at h hpair hmem
  cases M with
  | nil => exact absurd h (by simp)
  | cons a M =>
    obtain ⟨⟨v, j⟩, he, hfold, hbest⟩ := foldl_ahead hpair
    rw [List.foldl_cons, show ahead none a = some a from rfl, hfold] at h
    obtain rfl : j = i := Option.some.inj h
    obtain ⟨hv, hp⟩ := (hmem v j).1 he
    obtain rfl : v = w := Option.some.inj (hv.symm.trans hi)
    exact ⟨hp, fun k x hx hpx => hbest (x, k) ((hmem x k).2 ⟨hx, hpx⟩)⟩

/-! ## Deciding one write (R359, R360) -/

section
variable (hobj : w.obj < 2 ^ 24) (hreg : w.reg = false)
include hobj hreg

theorem State.decideWrite_won (hw : wins l w i = true) {v : Verdict} (hv : (s.writeObject w sigOk).2 = some v) :
    s.decideWrite l got sigOk (w, i) = (s.writeObject w sigOk).1.writeAnswer w.rank w.mute v w.bytes.length := by
  unfold State.decideWrite
  rw [if_neg (by simp [hreg]; omega)]
  dsimp only
  rw [if_pos hw, hv]

theorem State.decideWrite_lost (hw : wins l w i = false)
    (hv : (s.writeObject w sigOk).2 = none ∨ (s.writeObject w sigOk).2 = some Verdict.ok) :
    s.decideWrite l got sigOk (w, i) = s.dictAnswer w.rank w.mute Verdict.superseded none none := by
  unfold State.decideWrite
  rw [if_neg (by simp [hreg]; omega)]
  dsimp only
  rw [if_neg (by simp [hw])]
  rcases hv with hv | hv <;> rw [hv] <;> rfl

end

/-- A write that still reaches its register of R360. -/
theorem State.decideWrite_register (hobj : 2 ^ 24 ≤ w.obj) (hreg : w.reg = false)
    (hr : s.reaches w.src 4 ((w.obj - 2 ^ 24) / 0x100000) ((w.obj - 2 ^ 24) % 0x100000) = true) :
    s.decideWrite l got sigOk (w, i) =
      if w.rfxCmd then s.decideReflex l w i
      else if wins l w i then (s.writeContended w got).regAnswer w .ok else s.regAnswer w .superseded := by
  have hne : w.obj ≠ objKey 0x3000 1 := by
    unfold objKey
    omega
  unfold State.decideWrite State.decideRegister State.writeWon SlotWrite.place
  simp only [if_neg hne, hreg, Bool.false_or, decide_eq_true hobj, if_true, hr, Bool.not_true, Bool.false_eq_true, if_false]

/-- Settles O49. -/
theorem slotDecisions : Obligations.SlotDecisions := by
  unfold Obligations.SlotDecisions
  intro s
  refine ⟨fun got sigOk hs => State.onClock_of hs, fun l => ⟨slotOrder_perm l, slotOrder_pairwise l⟩,
    fun p l i w h hi => winner_spec h hi, fun l w i got sigOk => ⟨fun hobj hreg => ?_, fun hobj hreg hr => ?_⟩,
    fun rank hrank v size read => ?_⟩
  · exact ⟨fun hw v hv => State.decideWrite_won hobj hreg hw hv, fun hw hv => State.decideWrite_lost hobj hreg hw hv⟩
  · rw [State.decideWrite_register hobj hreg hr]
    refine ⟨fun hc hw => ?_, fun hc hw => ?_, fun hc => ?_⟩
    · simp only [hc, hw, Bool.false_eq_true, if_false, if_true]
      rfl
    · simp only [hc, hw, Bool.false_eq_true, if_false]
      rfl
    · simp only [hc, if_true]
      rfl
  · rw [State.dictAnswer_of_port hrank]
    obtain ⟨hst, hcode, hbusy, hlen⟩ := s.portAnswer_parts (rank - 2) v size read
    exact ⟨hst, hcode, hbusy, hlen, (State.portAnswer_within (k := 2) rfl (.refl _ s)).sameBut (by decide)⟩

end Sys2Proof.Machine
end

section
/-! PROOFS. How a bring-up step begins and is turned away (R469 to R472). -/

namespace Sys2Proof.Machine

open Host Reg

variable {s t : State} {k arg : Nat}

/-- The state in which the effect of step `k` runs. -/
def State.stepBegun (s : State) (k arg : Nat) : State :=
  (s.buTaken k arg).setBu { (s.buTaken k arg).bu with ran := setBit (s.buTaken k arg).bu.ran k true }

theorem State.stepMay_congr (h : t.bu.ran = s.bu.ran) (hr : t.get AGT_BU_STEPS.DONE 0 = s.get AGT_BU_STEPS.DONE 0) (k : Nat) :
    t.stepMay k = s.stepMay k := by
  unfold State.stepMay
  rw [h, hr]

theorem State.stepMay_buTaken (s : State) (op arg k : Nat) : (s.buTaken op arg).stepMay k = s.stepMay k :=
  State.stepMay_congr (t := s.buTaken op arg) (s := s) rfl ((State.agreesOn_buTaken (g := AGT_BU_STEPS.DONE) (by decide) s op arg).get 0) k

section
variable (hr : s.buReached = true) (hheld : s.pkg.held = false) (hidle : s.isSet AGT_BU_STAT.BUSY 0 = false)
include hr hheld hidle

/-- A step that may run has its effect. -/
theorem State.buStep_runs {n : Nat} {pre : Bool} {act : State → State} (hmay : s.stepMay k = true) (harg : arg < 2 ^ n) (hpre : pre = true) :
    s.buStep k arg n pre act = act (s.stepBegun k arg) := by
  unfold State.buStep
  rw [State.buWrite_taken hr hheld hidle, if_neg]
  · rfl
  · rw [State.stepMay_buTaken, hmay, hpre]
    simpa using harg

/-- A step out of order, with an illegal ARG or without its precondition. -/
theorem State.buStep_turned {n : Nat} {pre : Bool} {act : State → State} (h : s.stepMay k = false ∨ ¬(arg < 2 ^ n ∧ pre = true)) :
    s.buStep k arg n pre act = (s.buTaken k arg).buSettle .badDescriptor 0 := by
  unfold State.buStep
  rw [State.buWrite_taken hr hheld hidle, if_pos]
  rw [State.stepMay_buTaken]
  rcases h with h | h
  · simp [h]
  · cases pre <;> simp_all

end

theorem State.stepBegun_within (s : State) (k arg : Nat) : Within 268435458 s (s.stepBegun k arg) :=
  State.setBu_within (k := 268435458) rfl (s.buTaken_within k arg)

theorem State.agreesOn_stepBegun {g : Fld} (h : [AGT_BU_CMD.OP, AGT_BU_CMD.ARG, AGT_BU_STAT.BUSY].all g.apart = true) (s : State) (k arg : Nat) :
    State.agreesOn g s (s.stepBegun k arg) :=
  (State.agreesOn_buTaken h s k arg).trans (State.agreesOn_of_regs rfl)

theorem State.stepBegun_parts (s : State) (k arg : Nat) : (s.stepBegun k arg).bu.run = some { origin := 0, op := k, arg := arg } ∧
    (s.stepBegun k arg).bu.passed = s.bu.passed ∧ (s.stepBegun k arg).bu.failed = s.bu.failed ∧
    (s.stepBegun k arg).isSet AGT_BU_STAT.BUSY 0 = true := ⟨rfl, rfl, rfl, (s.buTaken_kept k arg).2.2.2⟩

theorem State.buSettle_run {j : BuRun} (h : s.bu.run = some j) (st : Status) (res : Nat) :
    (s.buSettle st res).bu.run = some { j with done := some (st, res) } := by
  unfold State.buSettle
  rw [h]
  rfl

end Sys2Proof.Machine
end

section
/-! PROOFS. Stores, restored defaults and the loading of the configuration image (O50). -/

namespace Sys2Proof.Machine

open Host Reg

variable {s t : State} {src : Src}

/-! ## Stores (R368) -/

theorem State.cfgCopy_setCfgCopy (s : State) (k : Nat) (c : Option CfgCopy) : (s.setCfgCopy k c).cfgCopy k = c := by
  unfold State.cfgCopy State.setCfgCopy
  split <;> rfl

/-- The other copy stays. -/
theorem State.cfgCopy_setCfgCopy_other {k : Nat} (hk : k ≤ 1) (s : State) (c : Option CfgCopy) :
    (s.setCfgCopy k c).cfgCopy (1 - k) = s.cfgCopy (1 - k) := by
  unfold State.cfgCopy State.setCfgCopy
  interval_cases k <;> rfl

/-- A copy changes nothing else of the dictionary. -/
theorem State.setCfgCopy_current (s : State) (k : Nat) (c : Option CfgCopy) : (s.setCfgCopy k c).dic.current = s.dic.current := by
  unfold State.setCfgCopy
  split <;> rfl

theorem State.cfgCopy_congr (h : t.dic.copy0 = s.dic.copy0) (h' : t.dic.copy1 = s.dic.copy1) (k : Nat) : t.cfgCopy k = s.cfgCopy k := by
  unfold State.cfgCopy
  rw [h, h']

/-- The store that `storeBegin` runs. -/
def State.storeJob (s : State) (src : Src) (mute : Bool) : StoreJob :=
  { copy := if s.dic.current = some 0 then 1 else 0
    seq := s.dic.current.elim 0 (fun _ => (s.copySeq s.dic.current + 1) % 2 ^ 32)
    records := s.snapshotObjects, src := src, mute := mute }

theorem State.storeBegin_parts (s : State) (src : Src) (mute : Bool) :
    (s.storeBegin src mute).dic.store = some (s.storeJob src mute) ∧ (s.storeBegin src mute).dic.current = s.dic.current ∧
    (s.storeBegin src mute).cfgCopy (s.storeJob src mute).copy = none ∧
    (s.storeBegin src mute).cfgCopy (1 - (s.storeJob src mute).copy) = s.cfgCopy (1 - (s.storeJob src mute).copy) := by
  have hk : (s.storeJob src mute).copy ≤ 1 := by
    unfold State.storeJob
    dsimp only
    split <;> omega
  have hjob : (s.storeBegin src mute).dic.store = some (s.storeJob src mute) := by
    unfold State.storeBegin State.storeJob
    cases s.dic.current <;> rfl
  have hcopy (k : Nat) : (s.storeBegin src mute).cfgCopy k = (s.setCfgCopy (s.storeJob src mute).copy none).cfgCopy k := rfl
  exact ⟨hjob, s.setCfgCopy_current _ none, (hcopy _).trans (s.cfgCopy_setCfgCopy _ none),
    (hcopy _).trans (s.cfgCopy_setCfgCopy_other hk none)⟩

/-- MAINT and HOST store and restore. -/
theorem maintOrHost_of (h : src = .sideband ∨ src = .pf1) : Src.maintOrHost src = true ∧ (Src.dictRank src = 2 ∨ Src.dictRank src = 3) := by
  rcases h with rfl | rfl <;> decide

theorem exec_storeParameters (hs : s.clocked = true) (h : src = .sideband ∨ src = .pf1) : exec (.storeParameters src) s =
    .next (if s.flashBusy then s.dictAnswer (Src.dictRank src) false .busy none none
      else (s.storeBegin src false).set AGT_UNC_DICT_RSP.BUSY (Src.dictRank src - 2) 1) := by
  have hexec : exec (.storeParameters src) s = execStoreParameters src s := rfl
  unfold execStoreParameters at hexec
  rw [State.onClock_of hs, if_neg (by simp [(maintOrHost_of h).1])] at hexec
  rw [hexec]
  split <;> rfl

/-- The store that ends well: its copy holds the snapshot and is current. -/
theorem exec_storeComplete_ok (hs : s.clocked = true) {j : StoreJob} (hj : s.dic.store = some j)
    (hfits : CfgCopy.fits ⟨j.seq, j.records⟩ = true) :
    ∃ t, exec (.storeComplete true) s = .next t ∧ t.dic.store = none ∧ t.cfgCopy j.copy = some ⟨j.seq, j.records⟩ ∧
      t.dic.current = some j.copy ∧ t.dict = s.dict := by
  have hexec : exec (.storeComplete true) s = execStoreComplete true s := rfl
  unfold execStoreComplete at hexec
  rw [State.onClock_of hs, hj] at hexec
  dsimp -zeta only at hexec
  extract_lets src1 s1 s2 src2 d at hexec
  rw [if_pos (by simp [hfits])] at hexec
  have hw := State.writeAnswer_within (k := 1026) (rank := Src.dictRank j.src) (mute := j.mute) (v := .ok) (n := 4) rfl
    (.refl _ (s2.setDic { s2.dic with current := some j.copy }))
  have hdic := hw.parts .dic rfl
  have hstore : s2.dic.store = none := by
    unfold s2 State.setCfgCopy
    split <;> rfl
  refine ⟨_, hexec, (congrArg DictUnit.store hdic).trans hstore, ?_, congrArg DictUnit.current hdic, ?_⟩
  · exact (State.cfgCopy_congr (congrArg DictUnit.copy0 hdic) (congrArg DictUnit.copy1 hdic) j.copy).trans (s1.cfgCopy_setCfgCopy j.copy _)
  · exact (hw.parts .dict rfl).trans ((State.setCfgCopy_within (k := 67108864)
      (x1 := j.copy) (c := some ⟨j.seq, j.records⟩) rfl (.refl _ s1)).parts .dict rfl)

/-- The store that fails: the copies stay as the erasure left them, and so does the current one. -/
theorem exec_storeComplete_failed (hs : s.clocked = true) {j : StoreJob} (hj : s.dic.store = some j) {ok : Bool}
    (hbad : ok = false ∨ CfgCopy.fits ⟨j.seq, j.records⟩ = false) :
    ∃ t, exec (.storeComplete ok) s = .next t ∧ t.dic.store = none ∧ t.dic.copy0 = s.dic.copy0 ∧ t.dic.copy1 = s.dic.copy1 ∧
      t.dic.current = s.dic.current := by
  have hexec : exec (.storeComplete ok) s = execStoreComplete ok s := rfl
  unfold execStoreComplete at hexec
  rw [State.onClock_of hs, hj] at hexec
  dsimp -zeta only at hexec
  extract_lets src1 s1 s2 src2 d at hexec
  rw [if_neg (by rcases hbad with h | h <;> simp [h])] at hexec
  have hdic : (d.2.writeAnswer (Src.dictRank j.src) j.mute (.tileUncorrectable, d.1 % 2 ^ 32) 4).dic = s1.dic :=
    (State.writeAnswer_within (k := 1026) rfl (.refl _ d.2)).parts .dic rfl
  refine ⟨_, hexec, ?_⟩
  rw [hdic]
  exact ⟨rfl, rfl, rfl, rfl⟩

/-! ## Restored defaults (R369) -/

theorem tget_filter_out {α : Type} {d : α} {p : Nat → Bool} {t : Tab α} {k : Nat} (h : p k = false) :
    tget d (t.filter (fun e => p e.1)) k = d := by
  induction t with
  | nil => rfl
  | cons a t ih =>
    obtain ⟨b, w⟩ := a
    rw [List.filter_cons]
    split
    next hb =>
      have hne : b ≠ k := fun heq => by simp_all
      simpa [tget, hne] using ih
    next => exact ih

theorem mirror_guarded {g sub : Nat} (hg : g < 32) (hsub : sub = 1 ∨ sub = 2) : (mirror (0x3C10 + g) sub).isSome = true := by
  unfold mirror
  rw [if_neg (by omega), if_pos (by omega)]
  rfl

theorem mirror_channel {c n : Nat} (hc : c < 32) (hn : n < 6) : (mirror (0x4400 + c) (3 + n)).isSome = true := by
  unfold mirror
  rw [if_neg (by omega), if_neg (by omega), if_pos (by omega)]
  dsimp only
  rw [if_neg (by omega)]
  split_ifs
  · rfl
  · rfl
  · omega

/-- An object that stands in a register. -/
theorem mirrorKeys_mirror : ∀ k ∈ mirrorKeys, (mirror (k / 256) (k % 256)).isSome = true ∨ k / 256 = 0x5800 := by
  intro k hk
  simp only [mirrorKeys, List.mem_append, List.mem_flatMap, List.mem_map, List.mem_range, List.mem_singleton, List.mem_cons,
    List.not_mem_nil, or_false, objKey] at hk
  have hsome (idx sub : Nat) (hsub : sub < 256) (h : (mirror idx sub).isSome = true) (heq : k = 256 * idx + sub) :
      (mirror (k / 256) (k % 256)).isSome = true ∨ k / 256 = 0x5800 := by
    rw [show k / 256 = idx by omega, show k % 256 = sub by omega]
    exact .inl h
  rcases hk with (((rfl | ⟨g, hg, h⟩) | ⟨c, hc, n, hn, rfl⟩) | rfl) | ⟨n, hn, rfl⟩
  · exact hsome 0x3000 1 (by omega) rfl rfl
  · rcases h with rfl | rfl
    · exact hsome (0x3C10 + g) 1 (by omega) (mirror_guarded hg (.inl rfl)) rfl
    · exact hsome (0x3C10 + g) 2 (by omega) (mirror_guarded hg (.inr rfl)) rfl
  · exact hsome (0x4400 + c) (3 + n) (by omega) (mirror_channel hc hn) rfl
  · exact hsome 0x4440 1 (by omega) rfl rfl
  · exact .inr (by omega)

/-- Loading such an object changes registers and channels of the reflex engine alone. -/
theorem State.loadObject_mirror_within {k : Nat} (h : (mirror (k / 256) (k % 256)).isSome = true ∨ k / 256 = 0x5800) (s : State)
    (b : List Byte) : Within 8388610 s (s.loadObject k b) := by
  unfold State.loadObject
  dsimp only
  split
  next off hoff =>
    split_ifs
    · exact State.setRfx_within (k := 8388610) rfl (.refl _ s)
    · exact State.setRfx_within (k := 8388610) rfl (State.setTrim_within (k := 8388610) rfl (.refl _ s))
    · exact State.putReg_within (k := 8388610) rfl (.refl _ s)
  next hnone =>
    rw [if_pos (h.resolve_left (by simp [hnone]))]
    exact State.setO_within (k := 8388610) rfl (.refl _ s) ..

/-- The persistent objects that do not stand in registers are taken off. -/
def State.dropPersistent (s : State) : State :=
  { s with dict := s.dict.filter (fun e => !persistent e.1), blobs := s.blobs.filter (fun e => !persistent e.1) }

theorem foldl_mirror_within {f : State → Nat → List Byte} {L : List Nat}
    (hL : ∀ k ∈ L, (mirror (k / 256) (k % 256)).isSome = true ∨ k / 256 = 0x5800) (s : State) :
    Within 8388610 s (L.foldl (fun st k => if st.unmappedObject k then st else st.loadObject k (f st k)) s) := by
  induction L generalizing s with
  | nil => exact .refl _ s
  | cons k L ih =>
    refine .trans ?_ (ih (fun j hj => hL j (List.mem_cons_of_mem _ hj)) _)
    dsimp only
    split
    · exact .refl _ s
    · exact State.loadObject_mirror_within (hL k List.mem_cons_self) s _

theorem State.restoreDefaults_mirror_within (s : State) : Within 8388610 s.dropPersistent s.restoreDefaults :=
  State.boundRate_within (k := 8388610) rfl (foldl_mirror_within mirrorKeys_mirror s.dropPersistent)

/-- Persistent objects read as their default afterwards, the others as before. -/
theorem State.restoreDefaults_parts (s : State) :
    (∀ k d, persistent k = true → tget d s.restoreDefaults.dict k = d ∧ tget [] s.restoreDefaults.blobs k = []) ∧
    (∀ k d, persistent k = false → tget d s.restoreDefaults.dict k = tget d s.dict k ∧
      tget [] s.restoreDefaults.blobs k = tget [] s.blobs k) ∧ s.restoreDefaults.dic = s.dic := by
  have hw := s.restoreDefaults_mirror_within
  rw [hw.parts .dict rfl, hw.parts .blobs rfl, hw.parts .dic rfl]
  refine ⟨fun k d hk => ?_, fun k d hk => ?_, rfl⟩
  · exact ⟨tget_filter_out (p := fun j => !persistent j) (by simp [hk]), tget_filter_out (p := fun j => !persistent j) (by simp [hk])⟩
  · exact ⟨tget_filter (p := fun j => !persistent j) (by simp [hk]), tget_filter (p := fun j => !persistent j) (by simp [hk])⟩

/-! ## Loading (R367, R472 step 8) -/

/-- A record that is loaded changes neither which copy was loaded nor which is current. -/
theorem State.loadRecord_dic (s : State) (e : CfgRecord) : (s.loadRecord e).dic.loaded = s.dic.loaded ∧
    (s.loadRecord e).dic.current = s.dic.current := by
  unfold State.loadRecord
  split
  · extract_lets src1 s1 s2
    have h1 : s1.dic.loaded = s.dic.loaded ∧ s1.dic.current = s.dic.current := ⟨rfl, rfl⟩
    have hload : s2.dic = s1.dic := (State.loadObject_within (k := 8388622) rfl (.refl _ s1)).parts .dic rfl
    split_ifs
    · exact h1
    · split
      · rw [(State.wrote_within (k := 2097154) rfl (.refl _ s2)).parts .dic rfl, hload]
        exact h1
      · rw [hload]
        exact h1
  · exact ⟨rfl, rfl⟩

theorem State.loadRecords_kept (L : List CfgRecord) (s : State) : (L.foldl State.loadRecord s).dic.loaded = s.dic.loaded ∧
    (L.foldl State.loadRecord s).dic.current = s.dic.current ∧ (L.foldl State.loadRecord s).bu = s.bu := by
  induction L generalizing s with
  | nil => exact ⟨rfl, rfl, rfl⟩
  | cons e L ih =>
    obtain ⟨hl, hc, hb⟩ := ih (s.loadRecord e)
    obtain ⟨hl', hc'⟩ := s.loadRecord_dic e
    exact ⟨hl.trans hl', hc.trans hc', hb.trans ((State.loadRecord_within (k := 77594638) rfl (.refl _ s)).parts .bu rfl)⟩

/-- The copies that are valid, by the signatures that verify. -/
def State.validCopies (s : State) (sigOk : Nat) : State := s.setDic { s.dic with
  copy0 := if bit sigOk 0 then s.dic.copy0.filter CfgCopy.fits else none
  copy1 := if bit sigOk 1 then s.dic.copy1.filter CfgCopy.fits else none
  skipped := 0, image := [] }

/-- Step 8 shows the copy selected, and its result names it with the records skipped. -/
theorem State.cfgLoad_parts {j : BuRun} (hj : s.bu.run = some j) (sigOk : Nat) :
    (s.cfgLoad sigOk).dic.loaded = (s.validCopies sigOk).selectCopy ∧ (s.cfgLoad sigOk).dic.current = (s.validCopies sigOk).selectCopy ∧
    (s.cfgLoad sigOk).pkg.rwlLocked = true ∧ (s.cfgLoad sigOk).bu.run =
      some { j with done := some (.ok, (s.cfgLoad sigOk).dic.loaded.getD 3 + (s.cfgLoad sigOk).dic.skipped * 2 ^ 32) } := by
  unfold State.cfgLoad
  extract_lets src0 s1 sel src1 s2 s3 src3 s4
  have h3 : s3.dic.loaded = sel ∧ s3.dic.current = sel ∧ s3.bu = s.bu := by
    unfold s3
    split
    · exact s2.loadRecords_kept _
    · exact ⟨rfl, rfl, rfl⟩
  clear_value s3
  obtain ⟨hl, hc, hb⟩ := h3
  have hrun : s4.bu.run = some j := (congrArg BringUp.run hb).trans hj
  have hw := State.buSettle_within (k := 268435456) (st := .ok) (result := sel.getD 3 + s4.dic.skipped * 2 ^ 32) rfl (.refl _ s4)
  rw [hw.parts .dic rfl, hw.parts .pkg rfl, State.buSettle_run hrun]
  exact ⟨hl, hc, rfl, by rw [show s4.dic.loaded = sel from hl]⟩

/-- The later of two valid copies. -/
theorem State.selectCopy_of (s : State) :
    (s.dic.copy0 = none → s.dic.copy1 = none → s.selectCopy = none) ∧
    (s.dic.copy0.isSome = true → s.dic.copy1 = none → s.selectCopy = some 0) ∧
    (s.dic.copy0 = none → s.dic.copy1.isSome = true → s.selectCopy = some 1) ∧
    (∀ x y, s.dic.copy0 = some x → s.dic.copy1 = some y →
      s.selectCopy = some (if x.seq != y.seq && serialGe y.seq x.seq then 1 else 0)) := by
  unfold State.selectCopy
  cases h0 : s.dic.copy0 <;> cases h1 : s.dic.copy1 <;> simp

/-- Settles O50. -/
theorem storesAndDefaults : Obligations.StoresAndDefaults := by
  unfold Obligations.StoresAndDefaults
  intro s src hsrc
  obtain ⟨hrole, hrank⟩ := maintOrHost_of hsrc
  refine ⟨fun hs => ⟨fun hfree => ?_, fun hbusy => ?_, fun j hj => ?_, ?_⟩, fun hr hheld hidle hmay sigOk => ?_⟩
  · obtain ⟨hstore, hcur, hnone, hother⟩ := s.storeBegin_parts src false
    have hexec := exec_storeParameters hs hsrc
    rw [if_neg (by simp [hfree])] at hexec
    refine ⟨_, s.storeJob src false, hexec, hstore, rfl, rfl, hnone, hother, hcur, fun k hk => ?_,
      (State.set_within (k := 67108866) rfl (State.storeBegin_within (k := 67108866) rfl (.refl _ s))).sameBut (by decide)⟩
    unfold State.storeJob
    rw [hk]
    rfl
  · have hexec := exec_storeParameters hs hsrc
    rw [if_pos hbusy, State.dictAnswer_of_port hrank] at hexec
    exact ⟨_, hexec, (s.portAnswer_parts (Src.dictRank src - 2) .busy none none).1,
      (State.portAnswer_within (k := 2) rfl (.refl _ s)).sameBut (by decide)⟩
  · exact ⟨exec_storeComplete_ok hs hj, fun ok => exec_storeComplete_failed hs hj⟩
  · have hexec : exec (.restoreDefaults src) s = _ := State.onClock_of hs
    rw [if_pos hrole] at hexec
    exact ⟨_, hexec, s.restoreDefaults_parts⟩
  · have hexec : exec (.cfgLoad 0 sigOk) s = .next ((s.stepBegun 8 0).cfgLoad sigOk) :=
      congrArg Outcome.next (State.buStep_runs hr hheld hidle hmay (by decide) rfl)
    obtain ⟨hloaded, hcurrent, hlocked, hrun⟩ := State.cfgLoad_parts (s.stepBegun_parts 8 0).1 sigOk
    refine ⟨_, _, _, hexec, hrun, rfl, rfl, hlocked, hcurrent.trans hloaded.symm, rfl, ?_⟩
    rw [hloaded]
    exact ((s.stepBegun 8 0).validCopies sigOk).selectCopy_of

end Sys2Proof.Machine
end

section
/-! PROOFS. Register writes, SRDOs and late refusals (O51). -/

namespace Sys2Proof.Machine

open Host Reg

variable {s : State} {src : Src} {a val off : Nat}

/-! ## Writes (R6, R15 to R20) -/

/-- A refusal counts, and nothing more. -/
theorem exec_registerWrite_refused {st : Status} (hs : s.clocked = true) (h : s.requestRefused src a true = some st) :
    ∃ u : State, exec (.registerWrite src a val) s = .next (u.completeWrite src st) ∧
      s.sameBut (if st = .denied then [.sec] else [.dict]) u := by
  have hexec : exec (.registerWrite src a val) s = _ := State.onClock_of hs
  rw [h] at hexec
  refine ⟨_, hexec, ?_⟩
  by_cases hst : st = .denied
  · rw [if_pos hst, if_pos hst]
    exact (State.countRefusal_within (k := 131072) rfl (.refl _ s)).sameBut (by decide)
  · rw [if_neg hst, if_neg hst]
    exact (State.turned_within (k := 4) rfl (.refl _ s)).sameBut (by decide)

/-- A place of memory takes nothing from the row. -/
theorem exec_registerWrite_outside (hs : s.clocked = true) (h : s.requestRefused src a true = none)
    (ha : localOf a < 0x2000000000 ∨ 0x2010000000 ≤ localOf a) : exec (.registerWrite src a val) s = .next s := by
  have hexec : exec (.registerWrite src a val) s = _ := State.onClock_of hs
  rw [h] at hexec
  dsimp only at hexec
  rwa [if_pos ha] at hexec

section
variable (hs : s.clocked = true) (h : s.requestRefused src a true = none) (hlo : 0x2000000000 ≤ localOf a) (hhi : localOf a < 0x2010000000)
  (hn : nodeOf a < 5) (hoff : localOf a - 0x2000000000 = off) (harr : s.arrives src (nodeOf a) (off / 0x100000) (off % 0x100000) = true)
include hs h hlo hhi hn hoff harr

/-- A write that arrives at a register of one node. -/
theorem exec_registerWrite_arrives : exec (.registerWrite src a val) s =
    .next (if s.writeDenied src (nodeOf a) off then s.denyWrite src
      else if defers (nodeOf a) off then s.regWrite src false (nodeOf a) off val
      else (s.regWrite src false (nodeOf a) off val).completeWrite src .ok) := by
  have hnode : s.nodeWrite src false a val = s.regWrite src false (nodeOf a) off val := by
    unfold State.nodeWrite
    rw [hoff]
    dsimp only
    rw [if_pos harr]
  have hexec : exec (.registerWrite src a val) s = _ := State.onClock_of hs
  rw [h] at hexec
  dsimp only at hexec
  rw [hoff, hnode, harr, if_neg (by omega), if_neg (c := nodeOf a = 0xF) (by omega)] at hexec
  simp only [Bool.and_true] at hexec
  rw [hexec]
  split_ifs <;> rfl

end

/-- A write past the request registers of the dictionary ports: it waits for its slot, has its row's effect or is stored. -/
theorem State.regWrite_of {n : Nat} (hport : n = 4 → off < 0x1000 ∨ 0x1040 ≤ off) (s : State) (src : Src) (mute : Bool) (val : Nat) :
    s.regWrite src mute n off val =
      if defers n off then s.stage { rank := Src.rank src, src := src, obj := (objectAt n off).getD (regKey off), bytes := leBytes 8 val,
                                      mute := mute, reg := (objectAt n off).isSome }
      else if (fieldsAt n off).any (fun e => ownFields.contains e.1) || (n != 4 && inWindow n off) then
        (if n = 4 then s.agateOwnWrite src off val else s.onyxOwnWrite src n off val)
      else s.storeReg n off val := by
  unfold State.regWrite
  rw [if_neg (by omega)]

/-! ## What a register takes (R6) -/

theorem fieldsAt_timeCtrl : fieldsAt 4 0x300000 =
    [(AGT_TIME_CTRL.MODE, 0), (AGT_TIME_CTRL.SRC_PORT, 0), (AGT_TIME_CTRL.PPS_EN, 0), (AGT_TIME_CTRL.IRQ_EN, 0), (AGT_TIME_CTRL.VECTOR, 0),
      (AGT_TIME_CTRL.DOMAIN, 0)] := by decide

theorem fieldsAt_capStat : fieldsAt 4 0xC00008 =
    [(AGT_PWR_CAPSTAT.PKG, 0), (AGT_PWR_CAPSTAT.CAP_PRESSURE, 0), (AGT_PWR_CAPSTAT.ALERT, 0), (AGT_PWR_CAPSTAT.CAP_OVER, 0)] := by decide

/-- Every field of AGT_TIME_CTRL is RW. -/
theorem State.putReg_timeCtrl (s : State) (v : Nat) : s.putReg 4 0x300000 v =
    (((((s.set AGT_TIME_CTRL.MODE 0 (bits v 0 2)).set AGT_TIME_CTRL.SRC_PORT 0 (bits v 2 1)).set AGT_TIME_CTRL.PPS_EN 0 (bits v 3 1)).set
      AGT_TIME_CTRL.IRQ_EN 0 (bits v 4 1)).set AGT_TIME_CTRL.VECTOR 0 (bits v 16 11)).set AGT_TIME_CTRL.DOMAIN 0 (bits v 27 8) := by
  unfold State.putReg
  rw [fieldsAt_timeCtrl]
  rfl

/-- Of AGT_PWR_CAPSTAT a write changes ALERT alone, which it clears. -/
theorem State.putReg_capStat (s : State) (v : Nat) :
    s.putReg 4 0xC00008 v = if bits v 17 1 = 1 then s.set AGT_PWR_CAPSTAT.ALERT 0 0 else s := by
  unfold State.putReg
  rw [fieldsAt_capStat]
  rfl

theorem bits_cut (v lo w : Nat) : bits v lo w % 2 ^ w = bits v lo w := Nat.mod_mod _ _

theorem State.putReg_takes (s : State) (v : Nat) : ∀ f ∈ [AGT_TIME_CTRL.PPS_EN, AGT_TIME_CTRL.SRC_PORT, AGT_TIME_CTRL.VECTOR],
    (s.putReg 4 0x300000 v).get f 0 = bits v f.lo f.width := by
  intro f hf
  simp only [List.mem_cons, List.not_mem_nil, or_false] at hf
  rw [State.putReg_timeCtrl]
  rcases hf with rfl | rfl | rfl
  · rw [State.get_set_apart (by decide), State.get_set_apart (by decide), State.get_set_apart (by decide), State.get_set_self]
    exact bits_cut v 3 1
  · rw [State.get_set_apart (by decide), State.get_set_apart (by decide), State.get_set_apart (by decide), State.get_set_apart (by decide),
      State.get_set_self]
    exact bits_cut v 2 1
  · rw [State.get_set_apart (by decide), State.get_set_self]
    exact bits_cut v 16 11

theorem State.putReg_clears (s : State) (v : Nat) : ∀ f ∈ [AGT_PWR_CAPSTAT.PKG, AGT_PWR_CAPSTAT.ALERT],
    (s.putReg 4 0xC00008 v).get f 0 = if f.acc = .w1c ∧ bits v f.lo f.width = 1 then 0 else s.get f 0 := by
  intro f hf
  simp only [List.mem_cons, List.not_mem_nil, or_false] at hf
  rw [State.putReg_capStat]
  rcases hf with rfl | rfl
  · rw [if_neg (c := _ ∧ _) (fun h => absurd h.1 (by decide))]
    split
    · exact State.get_set_apart (by decide)
    · rfl
  · by_cases hv : bits v 17 1 = 1
    · rw [if_pos hv, if_pos ⟨rfl, hv⟩]
      exact State.get_set_self ..
    · rw [if_neg hv, if_neg (fun h => hv h.2)]

/-! ## SRDOs and late refusals (R372, R436) -/

theorem exec_srdoTransmit {n : Nat} (hs : s.clocked = true) (h1 : 1 ≤ n) (h64 : n ≤ 64) (hdom : s.domOn 34 = true)
    (hobj : s.obj 0 (0x1300 + n) 1 = 1) (hvalid : s.obj 0 0x13FE 0 = 0xA5) :
    exec (.srdoTransmit n) s = .next (s.emit (.srdo n (s.srdoBytes n) ((s.srdoBytes n).map (fun b => ~~~b)))) := by
  have hexec : exec (.srdoTransmit n) s = _ := State.onClock_of hs
  rwa [if_neg (by simp [hdom, hobj, hvalid]; omega)] at hexec

theorem exec_deniedResponse_command {k b : Nat} {x : Cmd} (hs : s.clocked = true) (hx : s.cmd (k * 2 ^ 32 + b) = some x)
    (hphase : x.phase = .finished) (hst : x.status = .denied) :
    exec (.deniedResponse false k b) s = .next ((s.complete x .denied x.result 0xF).abortSweep k) := by
  have hexec : exec (.deniedResponse false k b) s = _ := State.onClock_of hs
  rw [if_neg (by simp), hx] at hexec
  dsimp only at hexec
  rwa [if_pos (by simp [hphase, hst])] at hexec

/-- Settles O51. -/
theorem registerWritesAndSrdos : Obligations.RegisterWritesAndSrdos := by
  unfold Obligations.RegisterWritesAndSrdos
  intro s hs
  refine ⟨fun src a val => ⟨fun st h => exec_registerWrite_refused hs h, fun h ha => exec_registerWrite_outside hs h ha,
    fun h hlo hhi => ?_⟩, fun v => ⟨s.putReg_takes v, s.putReg_clears v⟩,
    fun n h1 h64 hdom hobj hvalid => exec_srdoTransmit hs h1 h64 hdom hobj hvalid,
    fun k b x hx hphase hst => exec_deniedResponse_command hs hx hphase hst⟩
  intro n off own hn harr hport
  have hexec := exec_registerWrite_arrives (val := val) hs h hlo hhi hn (rfl : _ = off) harr
  refine ⟨fun hd => by rw [hexec, if_pos hd], fun hd => ?_⟩
  rw [if_neg (by rw [hd]; exact Bool.false_ne_true), State.regWrite_of hport] at hexec
  refine ⟨fun hdef => ?_, fun hdef hown hwin => ?_, fun hdef hown h4 => ?_, fun hdef hown h4 => ?_⟩
  · rw [hexec, if_pos hdef, if_pos hdef]
    rfl
  · rw [hexec, if_neg (by rw [hdef]; exact Bool.false_ne_true), if_neg (by rw [hdef]; exact Bool.false_ne_true), if_neg]
    change ¬((own || (n != 4 && inWindow n off)) = true)
    rcases hwin with hwin | hwin <;> simp [hown, hwin]
  · rw [hexec, if_neg (by rw [hdef]; exact Bool.false_ne_true), if_neg (by rw [hdef]; exact Bool.false_ne_true), if_pos, if_pos h4]
    change (own || (n != 4 && inWindow n off)) = true
    simp [hown]
  · rw [hexec, if_neg (by rw [hdef]; exact Bool.false_ne_true), if_neg (by rw [hdef]; exact Bool.false_ne_true), if_pos, if_neg h4]
    change (own || (n != 4 && inWindow n off)) = true
    rcases hown with hown | hown <;> simp [hown, h4]

end Sys2Proof.Machine
end

section
/-! PROOFS. Bring-up steps that are turned away, and steps 1, 2, 9 and 10 (O44). -/

namespace Sys2Proof.Machine

open Host Reg

variable {s t u : State} {c : Instr} {k arg res : Nat} {st : Status} {p : State → Prop}

/-! ## What settles -/

/-- The command `c` is step `k`, and it settles with a status and a result in a state that satisfies `p`. -/
def State.stepSettles (s : State) (c : Instr) (k : Nat) (st : Status) (res : Nat) (p : State → Prop) : Prop :=
  ∃ t j, exec c s = .next t ∧ t.bu.run = some j ∧ j.origin = 0 ∧ j.op = k ∧ j.done = some (st, res) ∧
    t.isSet AGT_BU_STAT.BUSY 0 = true ∧ p t

/-- A state in which step `k` runs. -/
def State.stepRuns (u : State) (k : Nat) : Prop :=
  (∃ j, u.bu.run = some j ∧ j.origin = 0 ∧ j.op = k) ∧ u.isSet AGT_BU_STAT.BUSY 0 = true

theorem State.stepSettles_of (hexec : exec c s = .next (u.buSettle st res)) (hu : u.stepRuns k) (hp : p (u.buSettle st res)) :
    s.stepSettles c k st res p := by
  obtain ⟨⟨j, hj, horigin, hop⟩, hbusy⟩ := hu
  exact ⟨_, _, hexec, State.buSettle_run hj st res, horigin, hop, rfl,
    (congrArg (· == 1) ((State.agreesOn_buSettle AGT_BU_STAT.BUSY u st res).get 0)).trans hbusy, hp⟩

theorem State.stepRuns_begun (s : State) (k arg : Nat) : (s.stepBegun k arg).stepRuns k := by
  obtain ⟨hrun, -, -, hbusy⟩ := s.stepBegun_parts k arg
  exact ⟨⟨_, hrun, rfl, rfl⟩, hbusy⟩

/-- Step `k` runs on where the bring-up unit's run and BUSY stay. -/
theorem State.stepRuns.keep (h : s.stepRuns k) (hrun : t.bu.run = s.bu.run) (hbusy : State.agreesOn AGT_BU_STAT.BUSY s t) : t.stepRuns k := by
  obtain ⟨⟨j, hj, horigin, hop⟩, hset⟩ := h
  exact ⟨⟨j, hrun.trans hj, horigin, hop⟩, (congrArg (· == 1) (hbusy.get 0)).trans hset⟩

theorem State.stepRuns.set (h : s.stepRuns k) {f : Fld} (hf : AGT_BU_STAT.BUSY.apart f = true) (i v : Nat) : (s.set f i v).stepRuns k :=
  h.keep rfl (State.agreesOn_setO hf 4 i v)

/-! ## Steps that do nothing (R469 to R471) -/

/-- How a step of bring-up runs: a write of AGT_BU_CMD with its width of ARG and its precondition `pre`, met where `P`. -/
def State.isStep (s : State) (c : Instr) (k arg : Nat) (P : Prop) : Prop :=
  ∃ n pre act, exec c s = .next (s.buStep k arg n pre act) ∧ (P ↔ arg < 2 ^ n ∧ pre = true)

theorem State.isStep_ignored {P : Prop} (h : s.isStep c k arg P) (hr : s.buReached = true)
    (hbusy : s.pkg.held = true ∨ s.isSet AGT_BU_STAT.BUSY 0 = true) : exec c s = .next (s.set AGT_BU_STAT.CFG_ERR 0 1) := by
  obtain ⟨n, pre, act, hexec, -⟩ := h
  rw [hexec]
  unfold State.buStep State.buWrite
  rw [if_neg (by simp [hr]), if_pos (by rcases hbusy with h | h <;> simp [h])]
  rfl

theorem State.isStep_turned {P : Prop} (h : s.isStep c k arg P) (hr : s.buReached = true) (hheld : s.pkg.held = false)
    (hidle : s.isSet AGT_BU_STAT.BUSY 0 = false) (hbad : s.stepMay k = false ∨ ¬P) :
    s.stepSettles c k .badDescriptor 0 (fun t => s.sameBut [.regs, .bu] t) := by
  obtain ⟨n, pre, act, hexec, hP⟩ := h
  rw [State.buStep_turned hr hheld hidle (by rwa [← hP])] at hexec
  exact State.stepSettles_of hexec ⟨⟨_, rfl, rfl, rfl⟩, (s.buTaken_kept k arg).2.2.2⟩
    ((State.buSettle_within (k := 268435458) rfl (s.buTaken_within k arg)).sameBut (by decide))

/-- The domains that each node's start test needs. -/
def State.testable (s : State) (nodes : List Nat) : Prop := ∀ n ∈ nodes,
  (n < 4 → ∀ i, i < 8 → s.domPowered (8 * n + i) = true) ∧ (n = 4 → s.domPowered 39 = true) ∧
  (n = 5 → s.domPowered 40 = true ∧ s.domPowered 41 = true)

theorem State.testable_iff (s : State) (m : Nat) : s.testable (maskList 6 m) ↔ (maskList 6 m).all (fun n =>
    if n < 4 then (List.range 8).all (fun i => s.domPowered (8 * n + i))
    else if n = 4 then s.domPowered 39 else s.domPowered 40 && s.domPowered 41) = true := by
  unfold State.testable
  rw [List.all_eq_true]
  refine forall₂_congr fun n hn => ?_
  have h6 : n < 6 := (mem_maskList.1 hn).1
  by_cases h4 : n < 4
  · simp [h4, Nat.ne_of_lt h4, show n ≠ 5 by omega]
  · rcases (by omega : n = 4 ∨ n = 5) with rfl | rfl <;> simp

section
variable (s : State) (r : TestResult) (arg bad trained half info pass : Nat) (agateOk : Bool)

theorem isStep_domains : s.isStep (.domains arg) 1 arg (arg < 2 ^ 45) := ⟨45, true, _, rfl, by simp⟩
theorem isStep_rootPll : s.isStep (.rootPll arg agateOk) 2 arg (arg = 0) := ⟨0, true, _, rfl, by simp⟩
theorem isStep_fuseLoad : s.isStep (.fuseLoad arg agateOk bad) 3 arg (arg = 0) := ⟨0, true, _, rfl, by simp⟩
theorem isStep_startTest : s.isStep (.startTest arg r) 4 arg (arg < 2 ^ 7 ∧ s.testable (maskList 6 (bits arg 0 6))) :=
  ⟨7, _, _, rfl, and_congr_right fun _ => s.testable_iff _⟩
theorem isStep_fmax : s.isStep (.fmax arg r) 5 arg (arg = 0) := ⟨0, true, _, rfl, by simp⟩
theorem isStep_discover : s.isStep (.discover arg trained half info) 6 arg
    (arg = 0 ∧ s.domPowered 37 = true ∧ s.domPowered 40 = true ∧ s.domPowered 41 = true) :=
  ⟨0, _, _, rfl, by simp [and_assoc]⟩
theorem isStep_fwLoad : s.isStep (.fwLoad arg bad) 7 arg
    (arg = 0 ∧ s.domPowered 38 = true ∧ s.domPowered 40 = true ∧ s.domPowered 41 = true) :=
  ⟨0, _, _, rfl, by simp [and_assoc]⟩
theorem isStep_cfgLoad : s.isStep (.cfgLoad arg bad) 8 arg (arg = 0) := ⟨0, true, _, rfl, by simp⟩
theorem isStep_inject : s.isStep (.inject arg pass) 9 arg (arg = 0 ∧ s.guardedOn = false) := ⟨0, _, _, rfl, by simp⟩
theorem isStep_outputEnable : s.isStep (.outputEnable arg) 10 arg (arg = 0 ∧ s.enableOk = true) := ⟨0, _, _, rfl, by simp⟩

end

/-! ## Steps 2, 9 and 10 -/

/-- The counts of the injected errors leave BUSY as it is. -/
theorem State.agreesOn_injectCounts (s : State) (pass : Nat) : State.agreesOn AGT_BU_STAT.BUSY s (s.injectCounts pass) := by
  unfold State.injectCounts
  extract_lets s1
  have h1 : State.agreesOn AGT_BU_STAT.BUSY s s1 := by
    unfold s1
    split
    · refine State.agreesOn_foldl (fun st n => ?_) _ s
      exact (State.agreesOn_setO (g := AGT_BU_STAT.BUSY) (f := ONX_T1_ECCCNT.CORRECTED) (by decide) n 0 _).trans (State.agreesOn_of_regs rfl)
    · exact State.agreesOn_refl _ s
  split
  · exact h1.trans (State.agreesOn_foldl (fun st l => State.agreesOn_countPacket (by decide) st l true) _ s1)
  · exact h1

section
variable (hr : s.buReached = true) (hheld : s.pkg.held = false) (hidle : s.isSet AGT_BU_STAT.BUSY 0 = false)
include hr hheld hidle

theorem exec_rootPll (hmay : s.stepMay 2 = true) (locks : Bool) : exec (.rootPll 0 locks) s =
    .next (if locks then ((s.stepBegun 2 0).set AGT_PWR_CLKSTAT.ROOT_LOCK 0 1).buSettle .ok 0
      else ((s.stepBegun 2 0).set AGT_PWR_CLKSTAT.ROOT_FAIL 0 1).buSettle .lowerTierTimeout 0) :=
  congrArg Outcome.next (State.buStep_runs hr hheld hidle hmay (by decide) rfl)

theorem rootPll_settles (hmay : s.stepMay 2 = true) :
    s.stepSettles (.rootPll 0 true) 2 .ok 0 (fun t => t.isSet AGT_PWR_CLKSTAT.ROOT_LOCK 0 = true) ∧
    s.stepSettles (.rootPll 0 false) 2 .lowerTierTimeout 0 (fun t => t.isSet AGT_PWR_CLKSTAT.ROOT_FAIL 0 = true) := by
  have hruns := s.stepRuns_begun 2 0
  constructor
  · have hexec := exec_rootPll hr hheld hidle hmay true
    rw [if_pos rfl] at hexec
    refine State.stepSettles_of hexec (hruns.set (by decide) 0 1) ?_
    exact congrArg (· == 1) (((State.agreesOn_buSettle AGT_PWR_CLKSTAT.ROOT_LOCK _ _ _).get 0).trans (State.get_set_self ..))
  · have hexec := exec_rootPll hr hheld hidle hmay false
    rw [if_neg Bool.false_ne_true] at hexec
    refine State.stepSettles_of hexec (hruns.set (by decide) 0 1) ?_
    exact congrArg (· == 1) (((State.agreesOn_buSettle AGT_PWR_CLKSTAT.ROOT_FAIL _ _ _).get 0).trans (State.get_set_self ..))

theorem inject_settles (hmay : s.stepMay 9 = true) (hoff : s.guardedOn = false) (pass : Nat) :
    s.stepSettles (.inject 0 pass) 9 .ok (pass % 64) (fun t => t.get AGT_CMP_INJ.PASS 0 = pass % 64 ∧ t.get AGT_CMP_INJ.DONE 0 = 1) := by
  have hexec : exec (.inject 0 pass) s = .next (((((s.stepBegun 9 0).injectCounts pass).set AGT_CMP_INJ.PASS 0 pass).set
      AGT_CMP_INJ.DONE 0 1).buSettle .ok (pass % 64)) :=
    congrArg Outcome.next (State.buStep_runs hr hheld hidle hmay (by decide) (by rw [hoff]; rfl))
  have hruns := (s.stepRuns_begun 9 0).keep (t := (s.stepBegun 9 0).injectCounts pass)
    (congrArg BringUp.run ((State.injectCounts_within (k := 6) rfl (.refl _ _)).parts .bu rfl)) (State.agreesOn_injectCounts _ pass)
  refine State.stepSettles_of hexec ((hruns.set (by decide) 0 pass).set (by decide) 0 1) ⟨?_, ?_⟩
  · rw [(State.agreesOn_buSettle _ _ _ _).get, State.get_set_apart (by decide), State.get_set_self]
    rfl
  · rw [(State.agreesOn_buSettle _ _ _ _).get, State.get_set_self]
    rfl

theorem outputEnable_settles (hmay : s.stepMay 10 = true) (hok : s.enableOk = true) :
    s.stepSettles (.outputEnable 0) 10 .ok 0 (fun t => t.guardedOn = true) := by
  have hexec : exec (.outputEnable 0) s = .next ((s.stepBegun 10 0).enableGuarded.buSettle .ok 0) :=
    congrArg Outcome.next (State.buStep_runs hr hheld hidle hmay (by decide) hok)
  have hruns : (s.stepBegun 10 0).enableGuarded.stepRuns 10 :=
    (((s.stepRuns_begun 10 0).set (f := AGT_CMP_STATUS.ENABLED) (by decide) 0 1).set (f := AGT_CMP_FRAME.INDEX) (by decide) 0 0).keep rfl
      (State.agreesOn_of_regs rfl)
  have hon : (s.stepBegun 10 0).enableGuarded.get AGT_CMP_STATUS.ENABLED 0 = 1 :=
    (State.get_set_apart (s := (s.stepBegun 10 0).set AGT_CMP_STATUS.ENABLED 0 1) (f := AGT_CMP_FRAME.INDEX) (i := 0) (v := 0)
      (by decide)).trans (State.get_set_self ..)
  exact State.stepSettles_of hexec hruns
    (congrArg (· == 1) (((State.agreesOn_buSettle AGT_CMP_STATUS.ENABLED _ _ _).get 0).trans hon))

end

end Sys2Proof.Machine
end

section
/-! PROOFS. A domain that goes off leaves BUSY of AGT_BU_STAT as it is (O44): what ends with the host, a core, the reflex engine and Beryl
writes other registers. -/

namespace Sys2Proof.Machine

open Host Reg

variable {s t : State}

/-- BUSY stays. -/
abbrev State.busyStays (s t : State) : Prop := State.agreesOn AGT_BU_STAT.BUSY s t

theorem State.busyStays_setO {f : Fld} (h : AGT_BU_STAT.BUSY.apart f = true) (s : State) (n i v : Nat) : s.busyStays (s.setO f n i v) :=
  State.agreesOn_setO h n i v

/-- Nothing but other parts of the state than the register file changes. -/
theorem State.busyStays_of_within {k : Nat} (h : Within k s t) (hk : k.testBit 1 = false) : s.busyStays t :=
  State.agreesOn_of_regs (h.parts .regs (by simp [Part.num, hk]))

theorem State.busyStays_foldlFst {α β : Type} {f : State × β → α → State × β} (hf : ∀ (p : State × β) a, p.1.busyStays (f p a).1) (l : List α)
    (p : State × β) : p.1.busyStays (l.foldl f p).1 := by
  induction l generalizing p with
  | nil => exact State.agreesOn_refl _ _
  | cons a l ih => exact (hf p a).trans (ih _)

theorem State.busyStays_foldl_mem {f : State → Nat → State} {l : List Nat} (hf : ∀ a ∈ l, ∀ u : State, u.busyStays (f u a)) (s : State) :
    s.busyStays (l.foldl f s) := by
  induction l generalizing s with
  | nil => exact State.agreesOn_refl _ s
  | cons a l ih =>
    exact (hf a List.mem_cons_self s).trans (ih (fun b hb => hf b (List.mem_cons_of_mem _ hb)) _)

/-! ## Completion of commands (R287 to R295) -/

theorem State.busyStays_seqDone (s : State) (c seq : Nat) : s.busyStays (s.seqDone c seq) := by
  unfold State.seqDone
  extract_lets x l r
  have hset : s.busyStays ((s.setCtx c { x with doneAbove := r.2 }).set AGT_SCHED_CTX_STAT.CDONE c r.1) :=
    (State.agreesOn_of_regs rfl).trans (State.busyStays_setO (by decide) _ _ _ _)
  exact hset.trans (State.busyStays_of_within (State.latchWaits_within (k := 4096) rfl (.refl _ _)) rfl)

theorem apart_mapPhys (i : Nat) : AGT_BU_STAT.BUSY.apart (mapPhys i) = true := by
  match i with
  | 0 | 1 | 2 | 3 => decide
  | _ + 4 => exact (by decide : AGT_BU_STAT.BUSY.apart AGT_SCHED_CTX_MAP.PHYS_0 = true)

theorem apart_mapAltEn (i : Nat) : AGT_BU_STAT.BUSY.apart (mapAltEn i) = true := by
  match i with
  | 0 | 1 | 2 | 3 => decide
  | _ + 4 => exact (by decide : AGT_BU_STAT.BUSY.apart AGT_SCHED_CTX_MAP.ALT_EN_0 = true)

theorem State.busyStays_event (s : State) (ring : Nat) (st : Status) (kind node part a0 addr a1 : Nat) :
    s.busyStays (s.event ring st kind node part a0 addr a1) := State.agreesOn_event (by decide) s ring st kind node part a0 addr a1

theorem State.busyStays_remapNode (s : State) (c n : Nat) : s.busyStays (s.remapNode c n) := by
  unfold State.remapNode
  extract_lets hit can heldSeqs arg1 part s1
  have h1 : s.busyStays s1 := by
    refine State.agreesOn_foldl (fun st i => ?_) _ s
    split
    · exact ((State.busyStays_setO (apart_mapPhys i) _ _ _ _).trans (State.busyStays_setO (apart_mapAltEn i) _ _ _ _)).trans
        (State.busyStays_event _ _ _ _ _ _ _ _ _)
    · exact st.busyStays_event _ _ _ _ _ _ _ _
  split_ifs
  · exact h1
  · exact h1.trans (State.busyStays_setO (by decide) _ _ _ _)
  · exact h1

theorem State.busyStays_boundary (s : State) (c : Nat) (next : Bool) : s.busyStays (s.boundary c next) := by
  unfold State.boundary
  extract_lets x s1
  split
  · exact State.agreesOn_of_regs rfl
  · have h1 : s.busyStays s1 := by
      unfold s1
      split
      · exact State.agreesOn_foldl (fun st n => st.busyStays_remapNode c n) _ s
      · exact State.agreesOn_refl _ s
    exact h1.trans (State.agreesOn_of_regs rfl)

theorem State.busyStays_checkBoundary (s : State) (c : Nat) : s.busyStays (s.checkBoundary c) := by
  unfold State.checkBoundary
  extract_lets x past
  split
  · exact (s.busyStays_boundary c _).trans (State.agreesOn_of_regs rfl)
  · exact State.agreesOn_of_regs rfl

theorem State.busyStays_releaseBias (s : State) : s.busyStays s.releaseBias := by
  refine (State.agreesOn_of_regs rfl).trans (State.agreesOn_foldl (fun st h => ?_) _ _)
  unfold State.applyBias
  split
  · exact ((State.busyStays_setO (by decide) _ _ _ _).trans (State.busyStays_setO (by decide) _ _ _ _)).trans
      (State.busyStays_setO (by decide) _ _ _ _)
  · exact State.agreesOn_of_regs rfl

theorem State.busyStays_releaseGate (s : State) : s.busyStays s.releaseGate := by
  refine (State.agreesOn_of_regs rfl).trans (State.agreesOn_foldl (fun st h => ?_) _ _)
  unfold State.applyGate
  split
  · exact (((State.busyStays_setO (by decide) _ _ _ _).trans (State.busyStays_setO (by decide) _ _ _ _)).trans
      (State.busyStays_setO (by decide) _ _ _ _)).trans (State.busyStays_setO (by decide) _ _ _ _)
  · exact State.agreesOn_of_regs rfl

theorem State.busyStays_completeOne (s : State) (x : Cmd) (st : Status) (result node : Nat) :
    s.busyStays (s.completeOne x st result node) := by
  unfold State.completeOne
  extract_lets s1 s2 s3
  have h1 : s.busyStays s1 := State.busyStays_of_within (State.record_within (k := 6096) rfl (.refl _ s)) rfl
  have h2 : s1.busyStays s2 := (State.agreesOn_of_regs rfl).trans (State.busyStays_setO (by decide) _ _ _ _)
  have h3 : s2.busyStays s3 := (s2.busyStays_seqDone x.ctx x.seq).trans (State.busyStays_checkBoundary _ x.ctx)
  refine ((h1.trans h2).trans h3).trans (State.agreesOn.trans ?_ ((State.busyStays_releaseBias _).trans (State.busyStays_releaseGate _)))
  split
  · exact State.busyStays_setO (by decide) _ _ _ _
  · exact State.agreesOn_refl _ s3

theorem State.busyStays_settleWaits (n : Nat) (s : State) : s.busyStays (State.settleWaits n s) := by
  induction n generalizing s with
  | zero => exact State.agreesOn_refl _ s
  | succ n ih =>
    unfold State.settleWaits
    split
    · exact (s.busyStays_completeOne _ _ _ _).trans (ih _)
    · exact State.agreesOn_refl _ s

theorem State.busyStays_preemptOne (s : State) (x : Cmd) : s.busyStays (s.preemptOne x) := by
  unfold State.preemptOne
  split
  · exact s.busyStays_completeOne _ _ _ _
  · extract_lets s1
    split
    · exact (s.busyStays_completeOne _ _ _ _).trans (State.busyStays_setO (by decide) _ _ _ _)
    · exact s.busyStays_completeOne _ _ _ _

theorem State.busyStays_abortSweep (s : State) (c : Nat) : s.busyStays (s.abortSweep c) := by
  unfold State.abortSweep
  extract_lets s1
  have h1 : s.busyStays s1 := State.agreesOn_foldl State.busyStays_preemptOne _ s
  split_ifs
  · exact State.agreesOn_refl _ s
  · exact State.agreesOn_refl _ s
  · exact (h1.trans (State.busyStays_setO (by decide) _ _ _ _)).trans (State.busyStays_settleWaits _ _)
  · exact h1.trans (State.busyStays_settleWaits _ _)

/-! ## Contexts (R167, R287) -/

theorem State.busyStays_closeStream (s : State) (k : Nat) (w : Stream) : s.busyStays (s.closeStream k w) := by
  unfold State.closeStream
  split
  · exact State.agreesOn_of_regs rfl
  · exact (((State.busyStays_setO (f := ONX_Q_STREAM.OPEN) (by decide) _ _ _ _).trans
      (State.busyStays_setO (f := ONX_Q_STREAM.PENDING) (by decide) _ _ _ _)).trans
      (State.busyStays_setO (f := ONX_Q_STATUS.OPEN) (by decide) _ _ _ _)).trans (State.agreesOn_of_regs rfl)

theorem State.busyStays_abortCtx (s : State) (c : Nat) : s.busyStays (s.abortCtx c) := by
  unfold State.abortCtx
  split
  · extract_lets s1
    have hdrop : (s.set AGT_SCHED_CTX_STAT.STATE c 3).busyStays ((s.set AGT_SCHED_CTX_STAT.STATE c 3).dropRegions c) :=
      State.busyStays_of_within (State.dropRegions_within (k := 4096) rfl (.refl _ _)) rfl
    have h1 : s.busyStays s1 := ((State.busyStays_setO (by decide) s 4 c 3).trans hdrop).trans
      (State.agreesOn_foldl (fun st (e : Nat × Stream) => st.busyStays_closeStream e.1 e.2) _ _)
    exact (h1.trans (s1.busyStays_abortSweep c)).trans (State.busyStays_settleWaits _ _)
  · exact State.agreesOn_refl _ s

/-! ## Tiles (R72, R75) -/

theorem State.busyStays_putSector (s : State) (part : Nat) (alloc : Bool) (d : Run) (j : Nat) (b : List Byte) (p : Bool) :
    s.busyStays (s.putSector part alloc d j b p) := State.busyStays_of_within (State.putSector_within (k := 976) rfl (.refl _ s)) rfl

theorem State.busyStays_closeT3 (s : State) (d : Run) (e : T3End) : s.busyStays (s.closeT3 d e).1 :=
  State.busyStays_of_within (State.closeT3_within (k := 65) rfl (.refl _ s)) rfl

theorem State.busyStays_copyTile (s : State) (part : Nat) (alloc : Bool) (src : Run) (dsts : List Run) (errs : ReadErrs) (e : T3End) :
    s.busyStays (s.copyTile part alloc src dsts errs e).1 := by
  unfold State.copyTile
  extract_lets js
  split
  · refine State.agreesOn_foldl (fun st j => State.agreesOn_foldl (fun st' d => ?_) _ st) _ s
    split
    · exact st'.busyStays_putSector part alloc d j _ false
    · exact State.busyStays_of_within (State.missSector_within (k := 912) rfl (.refl _ st')) rfl
  · refine ((State.agreesOn_readSectors (by decide) s part alloc errs _).trans
      (State.agreesOn_foldl (fun st j => State.agreesOn_foldl (fun st' d => ?_) _ st) _ _)).trans
      (State.busyStays_foldlFst (fun q d => ?_) _ _)
    · exact st'.busyStays_putSector part alloc d j _ _
    · exact q.1.busyStays_closeT3 d e

theorem State.busyStays_fillTile (s : State) (part : Nat) (alloc : Bool) (pattern : Nat) (d : Run) (e : T3End) :
    s.busyStays (s.fillTile part alloc pattern d e).1 :=
  (State.agreesOn_foldl (fun st j => st.busyStays_putSector part alloc d j _ false) _ s).trans (State.busyStays_closeT3 _ d e)

theorem State.busyStays_flushLine (s : State) (back drop : Bool) (errs : ReadErrs) (node way set : Nat) :
    s.busyStays (s.flushLine back drop errs node way set).1 := by
  unfold State.flushLine
  split
  · exact State.agreesOn_refl _ s
  · extract_lets base dirty bad s1 s2 s3
    have h1 : s.busyStays s1 := State.agreesOn_foldl
      (fun st a => State.busyStays_of_within (State.setPoison_within (k := 128) rfl (.refl _ st) _ true) rfl) _ s
    have h2 : s1.busyStays s2 := by
      unfold s2
      split
      · exact State.agreesOn_foldl (fun st a => State.agreesOn_countCorrected (by decide) st a) _ s1
      · exact State.agreesOn_refl _ s1
    have h3 : s2.busyStays s3 := by
      unfold s3
      split
      · exact State.busyStays_of_within (State.writeBack_within (k := 400) rfl (.refl _ s2)) rfl
      · exact State.agreesOn_refl _ s2
    refine ((h1.trans h2).trans h3).trans ?_
    dsimp only
    split
    · exact State.busyStays_of_within (State.dropLine_within (k := 256) rfl (.refl _ s3) node way set) rfl
    · exact State.agreesOn_refl _ s3

theorem State.busyStays_flushTile (s : State) (back drop : Bool) (errs : ReadErrs) (d : Run) :
    s.busyStays (s.flushTile back drop errs d).1 := by
  refine State.busyStays_foldlFst (fun q i => ?_) _ (s, [])
  dsimp only
  split
  · exact q.1.busyStays_flushLine back drop errs _ _ _
  · exact State.agreesOn_refl _ q.1

theorem State.busyStays_wayFlush (s : State) (errs : ReadErrs) (node mask : Nat) : s.busyStays (s.wayFlush errs node mask).1 := by
  refine State.busyStays_foldlFst (fun q e => ?_) _ (s, [])
  exact q.1.busyStays_flushLine true true errs node _ _

theorem State.busyStays_moveTile (s : State) (n part : Nat) (x : Xfer) (f : TileFlight) (errs : ReadErrs) (e : T3End) :
    s.busyStays (s.moveTile n part x f errs e).1 := by
  unfold State.moveTile
  extract_lets src dst dsts e' q r
  have hr : s.busyStays r.1 := by
    unfold r
    split
    · exact s.busyStays_copyTile part x.alloc src dsts errs e'
    · exact s.busyStays_fillTile part x.alloc x.pattern dst e'
    · exact s.busyStays_flushTile true false errs dst
    · exact s.busyStays_flushTile true true errs dst
    · exact s.busyStays_flushTile false true errs dst
    · exact State.agreesOn_readSectors (by decide) s part x.alloc errs _
    · exact s.busyStays_wayFlush errs n x.pattern
  exact hr

theorem State.busyStays_tileEnds (s : State) (c seq index : Nat) (errs : ReadErrs) (e : T3End) :
    s.busyStays (s.tileEnds c seq index errs e) := by
  unfold State.tileEnds
  split
  · exact State.agreesOn_refl _ s
  next x hx =>
    split
    · exact State.agreesOn_refl _ s
    next t ht =>
      split
      · exact State.agreesOn_refl _ s
      next f hf =>
        extract_lets r
        have hsent : s.busyStays r.1 := (s.busyStays_moveTile x.node (s.ctxPart c) (xfer x.body) f errs e).trans
          (State.busyStays_of_within (State.sentPackets_within (k := 32768) rfl (.refl _ _)) rfl)
        exact hsent.trans (State.busyStays_of_within (State.keepTransfer_within (k := 4096) rfl (.refl _ r.1)) rfl)

theorem State.busyStays_hostGone (s : State) (fn : Option Nat) (got : List Nat) : s.busyStays (s.hostGone fn got) := by
  unfold State.hostGone
  extract_lets t3 s1 hit s2 host2 s3 s4 sec4 dic4
  have h1 : s.busyStays s1 := by
    refine State.agreesOn_foldl (fun st t => ?_) _ s
    unfold State.dropT3Tile
    split
    · exact State.agreesOn_refl _ st
    · exact st.busyStays_tileEnds _ _ _ _ _
  have h2 : s.busyStays s2 := h1.trans (State.agreesOn_foldl State.busyStays_abortCtx hit s1)
  clear_value s2
  have h23 : s2.busyStays s3 := State.agreesOn_of_regs rfl
  have h3 : s.busyStays s3 := h2.trans h23
  split
  · refine h3.trans ?_
    unfold s4
    split
    · exact (State.busyStays_setO (f := AGT_UNC_DICT_RSP.BUSY) (by decide) s3 4 1 0).trans (State.agreesOn_of_regs rfl)
    · exact State.agreesOn_of_regs rfl
  · exact h3

/-! ## Blocks of registers (R8, R480) -/

/-- BUSY stands at one bit address. -/
theorem busy_key (n i : Nat) : AGT_BU_STAT.BUSY.key n i = 2 ^ 53 + 2 ^ 40 + 8 * 0x100008 := by
  have hnode : AGT_BU_STAT.BUSY.node n = 4 := rfl
  have hbase : AGT_BU_STAT.BUSY.base = 8 * 0x100008 := rfl
  have hstride : AGT_BU_STAT.BUSY.stride = 0 ∧ AGT_BU_STAT.BUSY.stride2 = 0 := ⟨rfl, rfl⟩
  rw [Fld.key_eq, hnode, hbase, hstride.1, hstride.2]
  omega

/-- Every block but AGT_BU itself leaves BUSY where it is. -/
theorem State.busyStays_resetBlock {node blk : Nat} (h : node ≠ 4 ∨ blk ≠ 1) (hb : blk < 16) (s : State) : s.busyStays (s.resetBlock node blk) := by
  intro n i
  unfold State.getO State.resetBlock State.resetRange
  refine tget_filter (p := fun k => decide (k < 8 * regSpace node (0x100000 * blk)) ||
    decide (8 * (regSpace node (0x100000 * blk) + 0x100000) ≤ k)) ?_
  rw [busy_key]
  unfold regSpace
  simp only [Bool.or_eq_true, decide_eq_true_eq]
  omega

theorem State.busyStays_loseCore {n c : Nat} (hn : n < 4) (hc : c < 4) (s : State) : s.busyStays (s.loseCore n c) := by
  unfold State.loseCore
  extract_lets s0 s1 sched1 s2 kv2 seq2
  have h0 : s.busyStays s0 := (State.busyStays_of_within (State.forget_within (k := 144) rfl (.refl _ s)) rfl).trans
    (State.busyStays_resetBlock (.inl (by omega)) (by omega) _)
  have h1 : s0.busyStays s1 := by
    unfold s1
    split
    · unfold State.loadCap
      split
      · exact State.busyStays_setO (by decide) s0 n 0 _
      · exact State.agreesOn_refl _ s0
    · exact State.agreesOn_refl _ s0
  have h2 : s.busyStays s2 := (h0.trans h1).trans (State.agreesOn_of_regs rfl)
  split_ifs
  · exact h2.trans (State.agreesOn_of_regs rfl)
  · exact h2.trans (State.agreesOn_of_regs rfl)
  · exact h2.trans (State.agreesOn_of_regs rfl)
  · exact h2

/-! ## The reflex engine and Beryl (R332, R335) -/

/-- A field that software writes lies apart from BUSY, or beyond AGT_RFX. -/
theorem regFields_apart_busy : ∀ f ∈ regFields, AGT_BU_STAT.BUSY.apart f = true ∨ f.acc = .ro ∨ 0x500000 ≤ f.blk + f.off := by
  simp only [regFields, List.forall_mem_append]
  and_intros <;> decide

theorem mem_fieldsAt {n off : Nat} {e : Fld × Nat} (h : e ∈ fieldsAt n off) : e.1 ∈ regFields ∧ e.1.blk + e.1.off ≤ off := by
  unfold fieldsAt at h
  obtain ⟨f, hf, hfe⟩ := List.mem_filterMap.1 h
  split at hfe
  · obtain ⟨i, hi, rfl⟩ := Option.map_eq_some_iff.1 hfe
    refine ⟨hf, Nat.le_of_not_lt fun hlt => ?_⟩
    have hif : (if off < f.blk + f.off then (none : Option Nat) else _) = some i := hi
    rw [if_pos hlt] at hif
    exact absurd hif (by simp)
  · exact absurd hfe (by simp)

theorem State.busyStays_putReg {off : Nat} (hoff : off < 0x500000) (s : State) (n v : Nat) : s.busyStays (s.putReg n off v) := by
  have hfold (l : List (Fld × Nat)) (hl : ∀ e ∈ l, AGT_BU_STAT.BUSY.apart e.1 = true ∨ e.1.acc = .ro) (s : State) :
      s.busyStays (l.foldl (fun st e =>
        let v' := bits v e.1.lo e.1.width
        match e.1.acc with
        | .rw => st.setO e.1 n e.2 v'
        | .w1c => if v' = 1 then st.setO e.1 n e.2 0 else st
        | .wo => if e.1 = AGT_NET_RXDB.HEAD then st.setO e.1 n e.2 v' else st
        | _ => st) s) := by
    induction l generalizing s with
    | nil => exact State.agreesOn_refl _ s
    | cons e l ih =>
      refine State.agreesOn.trans ?_ (ih (fun x hx => hl x (List.mem_cons_of_mem _ hx)) _)
      rcases hl e List.mem_cons_self with hapart | hro
      · have hset (w : Nat) : s.busyStays (s.setO e.1 n e.2 w) := State.busyStays_setO hapart s n e.2 w
        dsimp only
        split
        · exact hset _
        · split
          · exact hset _
          · exact State.agreesOn_refl _ s
        · split
          · exact hset _
          · exact State.agreesOn_refl _ s
        · exact State.agreesOn_refl _ s
      · dsimp only
        rw [hro]
        exact State.agreesOn_refl _ s
  refine hfold _ (fun e he => ?_) s
  obtain ⟨hmem, hle⟩ := mem_fieldsAt he
  rcases regFields_apart_busy e.1 hmem with h | h | h
  · exact .inl h
  · exact .inr h
  · omega

theorem State.busyStays_wrote (s : State) (off : Nat) : s.busyStays (s.wrote off) := by
  unfold State.wrote
  extract_lets s1
  have h1 : s.busyStays s1 := by
    unfold s1
    split
    · exact State.agreesOn_of_regs rfl
    · exact State.agreesOn_refl _ s
  split
  · refine h1.trans ?_
    unfold State.rfxDacs
    split
    · exact State.agreesOn_refl _ s1
    · exact ((State.busyStays_setO (by decide) _ _ _ _).trans (State.busyStays_setO (by decide) _ _ _ _)).trans
        (State.busyStays_setO (by decide) _ _ _ _)
  · exact h1

theorem State.busyStays_loadReg {off : Nat} (hoff : off < 0x500000) (s : State) (idx sub : Nat) : s.busyStays (s.loadReg idx sub off) := by
  unfold State.loadReg
  split
  · exact (State.busyStays_putReg hoff s 4 _).trans (State.busyStays_wrote _ off)
  · exact State.agreesOn_refl _ s

/-- The registers of the channels take what the loaded image holds for them. -/
theorem State.busyStays_loadChannel {c : Nat} (hc : c < 32) (s : State) : s.busyStays ((List.range 5).foldl (fun u k =>
    u.loadReg (0x4400 + c) (3 + k) (0x401000 + 64 * c + 8 * k)) s) := by
  refine State.busyStays_foldl_mem (fun k hk u => State.busyStays_loadReg ?_ u _ _) s
  have := List.mem_range.1 hk
  omega

theorem State.busyStays_resetReflex (s : State) : s.busyStays s.resetReflex := by
  have h1 : s.busyStays { s.resetBlock 4 4 with rfx := {} } :=
    (State.busyStays_resetBlock (node := 4) (blk := 4) (.inr (by decide)) (by decide) s).trans (State.agreesOn_of_regs rfl)
  unfold State.resetReflex
  generalize ({ s.resetBlock 4 4 with rfx := {} } : State) = s1 at h1
  refine (h1.trans (State.busyStays_foldl_mem (fun c hc u => State.busyStays_loadChannel (List.mem_range.1 hc) u) s1)).trans ?_
  exact State.busyStays_loadReg (off := 0x400020) (by decide) _ 0x4440 1

theorem State.busyStays_resetBeryl (s : State) : s.busyStays s.resetBeryl := by
  refine (State.busyStays_resetBlock (.inr (by decide)) (by decide) s).trans (State.agreesOn_foldl (fun st c => ?_) _ _)
  split
  · exact ((State.busyStays_setO (f := BRL_CH_TRIM.HI_OFS) (by decide) _ _ _ _).trans
      (State.busyStays_setO (f := BRL_CH_TRIM.LO_OFS) (by decide) _ _ _ _)).trans
      (State.busyStays_setO (f := BRL_CH_TRIM.CB_OFS) (by decide) _ _ _ _)
  · exact State.agreesOn_refl _ st

/-! ## Any domain (R26) -/

theorem State.busyStays_loseDomain (s : State) (d : Nat) : s.busyStays (s.loseDomain d) := by
  unfold State.loseDomain
  extract_lets n
  split
  · rename_i hd
    have hn : n < 4 := by omega
    split_ifs
    · exact State.busyStays_foldl_mem (fun b hb u => State.busyStays_resetBlock (.inl (by omega)) (by
        have : ∀ b ∈ [0, 5, 7, 8], b < 16 := by decide
        exact this b hb) u) s
    · exact (State.busyStays_of_within (State.loseT2_within (k := 262320) rfl (.refl _ s)) rfl).trans
        (State.busyStays_resetBlock (.inl (by omega)) (by decide) _)
    · exact State.busyStays_of_within (State.loseWays_within (k := 400) rfl (.refl _ s)) rfl
    · exact State.busyStays_of_within (State.loseWays_within (k := 400) rfl (.refl _ s)) rfl
    · exact State.busyStays_loseCore hn (by omega) s
  · split_ifs
    · exact (s.busyStays_hostGone none []).trans (State.busyStays_resetBlock (.inr (by decide)) (by decide) _)
    · exact ((State.busyStays_resetBlock (.inr (by decide)) (by decide) s).trans
        (State.busyStays_resetBlock (blk := 9) (.inr (by decide)) (by decide) _)).trans (State.agreesOn_of_regs rfl)
    · exact (State.busyStays_resetBlock (.inr (by decide)) (by decide) s).trans (State.agreesOn_of_regs rfl)
    · exact s.busyStays_resetReflex
    · exact State.busyStays_of_within (State.forget_within (k := 144) rfl (.refl _ s)) rfl
    · exact State.busyStays_foldl_mem (fun b hb u => State.busyStays_resetBlock (.inl (by decide)) (by
        have : ∀ b ∈ [0, 1, 2], b < 16 := by decide
        exact this b hb) u) s
    · exact State.busyStays_of_within (State.forget_within (k := 144) rfl (.refl _ s)) rfl
    · exact s.busyStays_resetBeryl
    · exact State.agreesOn_refl _ s

/-- The next domain of a plan begins to switch. -/
theorem State.busyStays_switchNext (s : State) : s.busyStays s.switchNext := by
  unfold State.switchNext
  split
  · exact State.agreesOn_refl _ s
  · split
    · exact State.agreesOn_of_regs rfl
    · exact (s.busyStays_loseDomain _).trans (State.agreesOn_of_regs rfl)

end Sys2Proof.Machine
end

section
/-! PROOFS. Bring-up steps 1, 3, 5, 6 and 7 (O44). -/

namespace Sys2Proof.Machine

open Host Reg

variable {s t u : State} {arg k : Nat}

/-! ## Step 1: domains (R23 to R27) -/

/-- A step that begins changes nothing that R24 and R25 look at. -/
theorem State.offRefused_stepBegun (s : State) (k arg d : Nat) : (s.stepBegun k arg).offRefused d = s.offRefused d := by
  have hregs {g : Fld} (hg : [AGT_BU_CMD.OP, AGT_BU_CMD.ARG, AGT_BU_STAT.BUSY].all g.apart = true) (i : Nat) :
      (s.stepBegun k arg).get g i = s.get g i := (State.agreesOn_stepBegun hg s k arg).get i
  have hfenced (n : Nat) : (s.stepBegun k arg).fenced n = s.fenced n := by
    unfold State.fenced
    rw [hregs (by decide)]
  have hrfx (c : Nat) : (s.stepBegun k arg).rfxState c = s.rfxState c := hregs (g := AGT_RFX_CH_STAT.STATE) (by decide) c
  have hguard : (s.stepBegun k arg).guardedOn = s.guardedOn := by
    unfold State.guardedOn State.isSet
    rw [hregs (by decide)]
  have hdirty (n m : Nat) : (s.stepBegun k arg).dirtyIn n m = s.dirtyIn n m := rfl
  have hmoving (n : Nat) : (s.stepBegun k arg).t2Moving n = s.t2Moving n := rfl
  have hruns (n c : Nat) : (s.stepBegun k arg).coreRuns n c = s.coreRuns n c := rfl
  unfold State.offRefused
  simp only [hfenced, hrfx, hguard, hdirty, hmoving, hruns]

theorem State.switchPlanFor_congr (hpkg : t.pkg = s.pkg) (hoff : ∀ d, t.offRefused d = s.offRefused d) (mask : Nat) (up : Bool) :
    t.switchPlanFor mask up = s.switchPlanFor mask up := by
  have hon : t.domPowered = s.domPowered := by
    funext d
    unfold State.domPowered
    rw [hpkg]
  unfold State.switchPlanFor
  simp only [hon, hoff]

section
variable (hr : s.buReached = true) (hheld : s.pkg.held = false) (hidle : s.isSet AGT_BU_STAT.BUSY 0 = false)
include hr hheld hidle

theorem exec_domains (hmay : s.stepMay 1 = true) (harg : arg < 2 ^ 45) :
    exec (.domains arg) s = .next ((s.stepBegun 1 arg).domainsAct (bits arg 0 44) (bit arg 44)) :=
  congrArg Outcome.next (State.buStep_runs hr hheld hidle hmay harg rfl)

/-- A request that is refused, or that has nothing to switch, settles at once. -/
theorem domains_settles (hmay : s.stepMay 1 = true) (harg : arg < 2 ^ 45) :
    (s.switchPlanFor (bits arg 0 44) (bit arg 44) = some [] → s.stepSettles (.domains arg) 1 .ok 0 (fun t => t.pkg = s.pkg)) ∧
    (s.switchPlanFor (bits arg 0 44) (bit arg 44) = none → s.stepSettles (.domains arg) 1 .badDescriptor 0 (fun t => t.pkg = s.pkg)) := by
  have hexec := exec_domains hr hheld hidle hmay harg
  unfold State.domainsAct at hexec
  rw [State.switchPlanFor_congr (t := s.stepBegun 1 arg) (s := s) rfl (s.offRefused_stepBegun 1 arg)] at hexec
  constructor
  · intro hplan
    rw [hplan] at hexec
    exact State.stepSettles_of hexec (s.stepRuns_begun 1 arg) (State.buSettle_pkg _ _ _)
  · intro hplan
    rw [hplan] at hexec
    exact State.stepSettles_of hexec (s.stepRuns_begun 1 arg) (State.buSettle_pkg _ _ _)

/-- Otherwise the first domain of the plan begins to switch, and the command goes on. -/
theorem domains_switches (hmay : s.stepMay 1 = true) (harg : arg < 2 ^ 45) {d : Nat} {l : List Nat}
    (hplan : s.switchPlanFor (bits arg 0 44) (bit arg 44) = some (d :: l)) : ∃ t, exec (.domains arg) s = .next t ∧
      t.pkg.switchPlan = d :: l ∧ t.pkg.switchOn = bit arg 44 ∧
      tget .off t.pkg.dom d = (if bit arg 44 then .switchingOn else .switchingOff) ∧ t.isSet AGT_BU_STAT.BUSY 0 = true := by
  have hexec := exec_domains hr hheld hidle hmay harg
  unfold State.domainsAct at hexec
  rw [State.switchPlanFor_congr (t := s.stepBegun 1 arg) (s := s) rfl (s.offRefused_stepBegun 1 arg), hplan] at hexec
  let v : State := { s.stepBegun 1 arg with pkg := { (s.stepBegun 1 arg).pkg with switchPlan := d :: l, switchOn := bit arg 44 } }
  obtain ⟨hp, ho, hdom, -⟩ := v.switchNext_parts
  have hbusy : v.switchNext.isSet AGT_BU_STAT.BUSY 0 = true :=
    (congrArg (· == 1) (v.busyStays_switchNext.get 0)).trans (s.stepRuns_begun 1 arg).2
  exact ⟨_, hexec, hp, ho, hdom d rfl, hbusy⟩

end

/-! ## The fused clocks of a die (R446) -/

/-- Show KMAX and K of core `c`. -/
def State.clockCore (s : State) (n c v : Nat) : State := (s.setO ONX_UNC_CLK.KMAX n c v).setO ONX_UNC_CLK.K n c v

theorem State.busyStays_clockCore (s : State) (n c v : Nat) : s.busyStays (s.clockCore n c v) :=
  (State.busyStays_setO (by decide) s n c v).trans (State.busyStays_setO (by decide) _ n c v)

theorem State.loadClocks_eq (s : State) (n : Nat) :
    s.loadClocks n = (List.range 4).foldl (fun st c => st.clockCore n c (s.kFused n c)) (s.setDiePwr n {}) := rfl

theorem State.busyStays_loadClocks (s : State) (n : Nat) : s.busyStays (s.loadClocks n) := by
  rw [State.loadClocks_eq]
  exact (State.agreesOn_of_regs (t := s.setDiePwr n {}) rfl).trans
    (State.agreesOn_foldl (fun st c => st.busyStays_clockCore n c (s.kFused n c)) _ _)

/-- The registers of the cores of a die lie apart from one another and from those of other dies. -/
theorem clk_key_iff {f : Fld} (hf : f = ONX_UNC_CLK.K ∨ f = ONX_UNC_CLK.KMAX) {n m c d : Nat} (hc : c < 4) (hd : d < 4) :
    f.key n c = f.key m d ↔ n = m ∧ c = d := by
  have hdata : f.node n = n ∧ f.node m = m ∧ f.stride = 8 ∧ f.stride2 = 0 ∧ f.count = 4 ∧ f.base < 2 ^ 20 := by
    rcases hf with rfl | rfl
    · exact ⟨rfl, rfl, rfl, rfl, rfl, by decide⟩
    · exact ⟨rfl, rfl, rfl, rfl, rfl, by decide⟩
  obtain ⟨hn, hm, hstride, hstride2, hcount, -⟩ := hdata
  rw [Fld.key_eq, Fld.key_eq, hn, hm, hstride, hstride2, hcount]
  omega

theorem State.getO_setO_clk {f : Fld} (hf : f = ONX_UNC_CLK.K ∨ f = ONX_UNC_CLK.KMAX) {n m c d : Nat} (hc : c < 4) (hd : d < 4) (s : State)
    (v : Nat) : (s.setO f m d v).getO f n c = if m = n ∧ d = c then v % 2 ^ 5 else s.getO f n c := by
  have hwidth : f.width = 5 := by rcases hf with rfl | rfl <;> rfl
  split
  · rename_i h
    obtain ⟨rfl, rfl⟩ := h
    rw [State.getO_setO_self, hwidth]
  · rename_i h
    exact State.getO_setO_ne (fun hkey => h (((clk_key_iff hf hc hd).1 hkey).imp Eq.symm Eq.symm))

theorem State.k_clockCore {n m c d : Nat} (hc : c < 4) (hd : d < 4) (s : State) (v : Nat) :
    (s.clockCore m d v).k n c = (if m = n ∧ d = c then v % 2 ^ 5 else s.k n c) ∧
    (s.clockCore m d v).kMax n c = (if m = n ∧ d = c then v % 2 ^ 5 else s.kMax n c) := by
  constructor
  · refine (State.getO_setO_clk (.inl rfl) hc hd _ v).trans ?_
    rw [State.getO_setO_apart (by decide)]
    rfl
  · exact (State.getO_setO_apart (by decide)).trans (State.getO_setO_clk (.inr rfl) hc hd s v)

theorem State.kFused_congr (h : t.fuses = s.fuses) (n c : Nat) : t.kFused n c = s.kFused n c := by
  unfold State.kFused
  rw [h]

theorem State.loadClocks_fuses (s : State) (n : Nat) : (s.loadClocks n).fuses = s.fuses :=
  (State.loadClocks_within (k := 134217730) rfl (.refl _ s)).parts .fuses rfl

/-- A die's cores show, and run at, what is fused; those of the others stay. -/
theorem State.k_loadClocks {n m c : Nat} (hc : c < 4) (s : State) :
    (s.loadClocks m).k n c = (if m = n then s.kFused n c % 2 ^ 5 else s.k n c) ∧
    (s.loadClocks m).kMax n c = (if m = n then s.kFused n c % 2 ^ 5 else s.kMax n c) := by
  have hrun : s.loadClocks m = ((((s.setDiePwr m {}).clockCore m 0 (s.kFused m 0)).clockCore m 1 (s.kFused m 1)).clockCore m 2
      (s.kFused m 2)).clockCore m 3 (s.kFused m 3) := rfl
  have hbase : (s.setDiePwr m {}).k n c = s.k n c ∧ (s.setDiePwr m {}).kMax n c = s.kMax n c := ⟨rfl, rfl⟩
  rw [hrun]
  simp only [State.k_clockCore hc (by decide : 0 < 4), State.k_clockCore hc (by decide : 1 < 4), State.k_clockCore hc (by decide : 2 < 4),
    State.k_clockCore hc (by decide : 3 < 4), hbase.1, hbase.2]
  by_cases hm : m = n
  · subst hm
    interval_cases c <;> simp
  · simp [hm]

theorem State.k_foldl_loadClocks {n c : Nat} (hc : c < 4) (L : List Nat) (s : State) :
    (L.foldl (fun u m => u.loadClocks m) s).k n c = (if n ∈ L then s.kFused n c % 2 ^ 5 else s.k n c) ∧
    (L.foldl (fun u m => u.loadClocks m) s).kMax n c = (if n ∈ L then s.kFused n c % 2 ^ 5 else s.kMax n c) := by
  induction L generalizing s with
  | nil => simp
  | cons a L ih =>
    obtain ⟨hk, hmax⟩ := ih (s.loadClocks a)
    obtain ⟨hk', hmax'⟩ := s.k_loadClocks (n := n) (m := a) hc
    rw [List.foldl_cons, hk, hmax, hk', hmax', State.kFused_congr (s.loadClocks_fuses a)]
    by_cases hL : n ∈ L
    · simp [hL]
    · by_cases ha : a = n
      · simp [hL, ha]
      · simp [hL, ha, Ne.symm ha]

theorem State.foldl_loadClocks_kept (L : List Nat) (s : State) : s.busyStays (L.foldl (fun u m => u.loadClocks m) s) ∧
    Within 134217730 s (L.foldl (fun u m => u.loadClocks m) s) :=
  ⟨State.agreesOn_foldl (fun u m => u.busyStays_loadClocks m) L s,
    Within.foldl (.refl _ s) (fun _ _ h => State.loadClocks_within (k := 134217730) rfl h)⟩

/-! ## Step 3: fuses -/

section
variable (hr : s.buReached = true) (hheld : s.pkg.held = false) (hidle : s.isSet AGT_BU_STAT.BUSY 0 = false)
include hr hheld hidle

/-- The dies with power whose fuses fail their code are named, and the others run at what is fused. -/
theorem fuseLoad_settles (hmay : s.stepMay 3 = true) (agateOk : Bool) (bad : Nat) :
    s.stepSettles (.fuseLoad 0 agateOk bad) 3 (if agateOk then .ok else .tileUncorrectable)
      (maskOf ((List.range 4).filter (fun n => s.domPowered (8 * n) && bit bad n)))
      (fun t => ∀ n c, n < 4 → c < 4 → s.domPowered (8 * n) = true → bit bad n = false →
        t.k n c = s.kFused n c % 2 ^ 5 ∧ t.kMax n c = s.kFused n c % 2 ^ 5) := by
  have hexec : exec (.fuseLoad 0 agateOk bad) s = _ := congrArg Outcome.next (State.buStep_runs hr hheld hidle hmay (by decide) rfl)
  extract_lets here failed s1 at hexec
  have hhere : here = (List.range 4).filter (fun n => s.domPowered (8 * n)) := rfl
  have hfailed : failed = maskOf ((List.range 4).filter (fun n => s.domPowered (8 * n) && bit bad n)) := by
    unfold failed
    rw [hhere, List.filter_filter]
    simp only [Bool.and_comm]
  obtain ⟨hbusy, hw⟩ := (s.stepBegun 3 0).foldl_loadClocks_kept (here.filter (fun n => !bit bad n))
  have hruns : (s1.setBu { s1.bu with failed := s1.bu.failed ||| failed }).stepRuns 3 :=
    ((s.stepRuns_begun 3 0).keep (congrArg BringUp.run (hw.parts .bu rfl)) hbusy).keep rfl (State.agreesOn_of_regs rfl)
  rw [← hfailed]
  refine State.stepSettles_of hexec hruns fun n c hn hc hpow hgood => ?_
  have hmem : n ∈ here.filter (fun n => !bit bad n) := by
    rw [hhere]
    simp [hn, hpow, hgood]
  obtain ⟨hk, hmax⟩ := State.k_foldl_loadClocks (n := n) hc (here.filter (fun n => !bit bad n)) (s.stepBegun 3 0)
  rw [if_pos hmem] at hk hmax
  have hkeep (g : Fld) := State.agreesOn_buSettle g (s1.setBu { s1.bu with failed := s1.bu.failed ||| failed })
    (if agateOk then .ok else .tileUncorrectable) failed n c
  exact ⟨(hkeep ONX_UNC_CLK.K).trans hk, (hkeep ONX_UNC_CLK.KMAX).trans hmax⟩

end

/-! ## Step 5: FMAX (R446) -/

theorem bit_setBit_true (v w i : Nat) : bit (setBit v w true) i = (bit v i || i == w) := by
  rw [bit_eq_testBit, bit_eq_testBit, testBit_setBit]
  by_cases h : i = w
  · simp [h]
  · simp [h]

/-- The test of core `c` of a die: LOWERED bits go down to the ratio that passes. -/
def fmaxCore (n : Nat) (speeds : List Nat) (acc : State × Bool × Nat) (c : Nat) : State × Bool × Nat :=
  let i := 4 * n + c
  let goal := lget 0 speeds i
  let st := acc.1
  let down := st.kFused n c - max 1 (min goal (st.kFused n c))
  let low := tget 0 st.fuses.lowered i
  let bitsNow := ((List.range 16).filter (bit low)).length
  ({ st with fuses := { st.fuses with lowered := tput 0 st.fuses.lowered i (2 ^ (bitsNow + down) - 1) } },
   acc.2.1 && goal != 0, acc.2.2 + down)

theorem State.fmaxDie_eq (s : State) (n : Nat) (speeds : List Nat) : s.fmaxDie n speeds =
    (((List.range 4).foldl (fmaxCore n speeds) (s, true, 0)).1.loadClocks n, ((List.range 4).foldl (fmaxCore n speeds) (s, true, 0)).2) := rfl

/-- A core passes where some ratio was found for it; the tests blow fuses alone. -/
theorem foldl_fmaxCore (n : Nat) (speeds : List Nat) (L : List Nat) (acc : State × Bool × Nat) :
    (L.foldl (fmaxCore n speeds) acc).2.1 = (acc.2.1 && L.all (fun c => lget 0 speeds (4 * n + c) != 0)) ∧
    (L.foldl (fmaxCore n speeds) acc).1.regs = acc.1.regs ∧ (L.foldl (fmaxCore n speeds) acc).1.bu = acc.1.bu := by
  induction L generalizing acc with
  | nil => simp
  | cons c L ih =>
    obtain ⟨hpass, hregs, hbu⟩ := ih (fmaxCore n speeds acc c)
    rw [List.foldl_cons, hpass, hregs, hbu]
    exact ⟨by simp [fmaxCore, Bool.and_assoc], rfl, rfl⟩

/-- Do all cores of a die find a ratio? -/
def fmaxOk (n : Nat) (speeds : List Nat) : Bool := (List.range 4).all (fun c => lget 0 speeds (4 * n + c) != 0)

theorem State.fmaxDie_parts (s : State) (n : Nat) (speeds : List Nat) : (s.fmaxDie n speeds).2.1 = fmaxOk n speeds ∧
    s.busyStays (s.fmaxDie n speeds).1 ∧ (s.fmaxDie n speeds).1.bu = s.bu := by
  obtain ⟨hpass, hregs, hbu⟩ := foldl_fmaxCore n speeds (List.range 4) (s, true, 0)
  rw [State.fmaxDie_eq]
  refine ⟨hpass, ?_, ?_⟩
  · exact (State.agreesOn_of_regs hregs).trans (State.busyStays_loadClocks _ n)
  · exact ((State.loadClocks_within (k := 134217730) rfl (.refl _ _)).parts .bu rfl).trans hbu

/-- The test of die `n`, after those before it: the state, the dies that failed, and the fuses blown. -/
def fmaxNext (speeds : List Nat) (a : State × Nat × Nat) (n : Nat) : State × Nat × Nat :=
  let f := a.1.fmaxDie n speeds
  (f.1, (if f.2.1 then a.2.1 else setBit a.2.1 n true), a.2.2 + f.2.2)

theorem foldl_fmaxNext (speeds : List Nat) (L : List Nat) (a : State × Nat × Nat) :
    a.1.busyStays (L.foldl (fmaxNext speeds) a).1 ∧ (L.foldl (fmaxNext speeds) a).1.bu = a.1.bu ∧
    Within 134283266 a.1 (L.foldl (fmaxNext speeds) a).1 ∧
    ∀ i, bit (L.foldl (fmaxNext speeds) a).2.1 i = (bit a.2.1 i || (L.contains i && !fmaxOk i speeds)) := by
  induction L generalizing a with
  | nil => exact ⟨State.agreesOn_refl _ _, rfl, .refl _ _, by simp⟩
  | cons n L ih =>
    obtain ⟨hbusy, hbu, hw, hbits⟩ := ih (fmaxNext speeds a n)
    obtain ⟨hok, hbusy', hbu'⟩ := a.1.fmaxDie_parts n speeds
    have hfst : (fmaxNext speeds a n).1 = (a.1.fmaxDie n speeds).1 := rfl
    rw [hfst] at hbusy hbu hw
    rw [List.foldl_cons]
    refine ⟨hbusy'.trans hbusy, hbu.trans hbu', (State.fmaxDie_within (k := 134283266) rfl (.refl _ a.1)).trans hw, fun i => ?_⟩
    have hnext : bit (fmaxNext speeds a n).2.1 i = (bit a.2.1 i || (i == n && !fmaxOk n speeds)) := by
      unfold fmaxNext
      dsimp only
      rw [hok]
      cases fmaxOk n speeds
      · simp [bit_setBit_true]
      · simp
    rw [hbits, hnext, List.contains_cons]
    by_cases hi : i = n
    · subst hi
      cases bit a.2.1 i <;> cases fmaxOk i speeds <;> simp
    · rw [beq_eq_false_iff_ne.2 hi]
      simp

section
variable (hr : s.buReached = true) (hheld : s.pkg.held = false) (hidle : s.isSet AGT_BU_STAT.BUSY 0 = false)
include hr hheld hidle

/-- The nodes that passed their start test still do, but for the dies with a core for which no ratio was found. -/
theorem fmax_settles (hmay : s.stepMay 5 = true) (r : TestResult) : ∃ m, s.stepSettles (.fmax 0 r) 5 .ok m (fun t =>
    s.fuses.kept t.fuses ∧ ∀ n, n < 6 → (bit t.bu.passed n = true ↔
      bit s.bu.passed n = true ∧ (n < 4 → ∀ c, c < 4 → lget 0 r.speeds (4 * n + c) ≠ 0))) := by
  have hexec : exec (.fmax 0 r) s = _ := congrArg Outcome.next (State.buStep_runs hr hheld hidle hmay (by decide) rfl)
  extract_lets dies q bu1 s1 at hexec
  have hq : q = dies.foldl (fmaxNext r.speeds) (s.stepBegun 5 0, 0, 0) := rfl
  have hdies : dies = (List.range 4).filter (bit s.bu.passed) := rfl
  obtain ⟨hbusy, hbu, hw, hbits⟩ := foldl_fmaxNext r.speeds dies (s.stepBegun 5 0, 0, 0)
  rw [← hq] at hbusy hbu hw hbits
  have hruns : s1.stepRuns 5 :=
    ((s.stepRuns_begun 5 0).keep (congrArg BringUp.run hbu) hbusy).keep rfl (State.agreesOn_of_regs rfl)
  refine ⟨_, State.stepSettles_of hexec hruns ⟨?_, fun n hn => ?_⟩⟩
  · have hfuses : (s1.buSettle .ok (q.2.1 + 2 ^ 32 * (q.2.2 % 256))).fuses = q.1.fuses :=
      (State.buSettle_within (k := 268435456) rfl (.refl _ s1)).parts .fuses rfl
    rw [hfuses]
    exact hw.kept.2.2
  · have hpassed : (s1.buSettle .ok (q.2.1 + 2 ^ 32 * (q.2.2 % 256))).bu.passed = s1.bu.passed := by
      obtain ⟨⟨j, hj, -, -⟩, -⟩ := hruns
      unfold State.buSettle
      rw [hj]
      rfl
    have hs1 : s1.bu.passed = maskOf ((maskList 6 q.1.bu.passed).filter (fun n => !bit q.2.1 n)) := rfl
    rw [hpassed, hs1, bit_maskOf_iff, List.mem_filter, mem_maskList, hbits, hbu, hdies]
    have hst : (s.stepBegun 5 0).bu.passed = s.bu.passed := rfl
    have hok : fmaxOk n r.speeds = true ↔ ∀ c, c < 4 → lget 0 r.speeds (4 * n + c) ≠ 0 := by
      unfold fmaxOk
      simp
    have hzero : bit 0 n = false := by simp [bit_eq_testBit]
    rw [hst, hzero, ← hok]
    by_cases h4 : n < 4
    · by_cases hp : bit s.bu.passed n = true
      · simp [hn, h4, hp]
      · simp [hp]
    · simp [hn, h4]

end

end Sys2Proof.Machine
end

section
/-! PROOFS. Bring-up steps 6 and 7: discovery and the firmware loads (O44). -/

namespace Sys2Proof.Machine

open Host Reg

variable {s t : State}

/-! ## Step 6: discovery (R267, R268) -/

theorem State.busyStays_links {f : Nat → Nat} {half : Nat} (up : Nat → State → State)
    (hup : ∀ l u, up l u = u.setLink l (if bit half l then 2 else 1) (bit half l)) (L : List Nat) (s : State) :
    s.busyStays (L.foldl (fun u l => up (f l) u) s) ∧ (L.foldl (fun u l => up (f l) u) s).bu = s.bu := by
  induction L generalizing s with
  | nil => exact ⟨State.agreesOn_refl _ s, rfl⟩
  | cons l L ih =>
    obtain ⟨hbusy, hbu⟩ := ih (up (f l) s)
    have hnext : s.busyStays (up (f l) s) ∧ (up (f l) s).bu = s.bu := by
      rw [hup]
      exact ⟨State.agreesOn_setLink (by decide) s _ _ _, (State.setLink_within (k := 2) rfl (.refl _ s)).parts .bu rfl⟩
    exact ⟨hnext.1.trans hbusy, hbu.trans hnext.2⟩

section
variable (hr : s.buReached = true) (hheld : s.pkg.held = false) (hidle : s.isSet AGT_BU_STAT.BUSY 0 = false)
include hr hheld hidle

theorem discover_settles (hmay : s.stepMay 6 = true) (h37 : s.domPowered 37 = true)
    (hscb : s.domPowered 40 = true ∧ s.domPowered 41 = true) (trained half info : Nat) :
    let found := bit trained 8 = true ∧ bit info 5 = true ∧ bit s.bu.passed 5 = true
    (found → ∃ m, s.stepSettles (.discover 0 trained half info) 6 .ok m (fun t => t.get AGT_FAB_STATUS.EPOCH 0 = 1 ∧ ∀ n, n < 4 →
      (t.admitted n = true ↔ s.domPowered (8 * n) = true ∧ bit trained (4 + n) = true ∧ bit info n = true ∧ bit s.bu.passed n = true))) ∧
    (¬found → s.stepSettles (.discover 0 trained half info) 6 .nodeLost 0 (fun t => s.sameBut [.regs, .bu] t)) := by
  have hexec : exec (.discover 0 trained half info) s = _ := congrArg Outcome.next (State.buStep_runs hr hheld hidle hmay (by decide)
    (by simp [h37, hscb]))
  extract_lets up here found s1 rings s2 passed s3 s4 fabric4 s5 at hexec
  have hup (l : Nat) (u : State) : up l u = u.setLink l (if bit half l then 2 else 1) (bit half l) := rfl
  have h1 : (s.stepBegun 6 0).busyStays s1 ∧ s1.bu = (s.stepBegun 6 0).bu := by
    obtain ⟨hbusy, hbu⟩ := State.busyStays_links (f := fun n => 4 + n) up hup found (up 8 (s.stepBegun 6 0))
    obtain ⟨hbusy', hbu'⟩ := State.busyStays_links (f := id) up hup [8] (s.stepBegun 6 0)
    exact ⟨hbusy'.trans hbusy, hbu.trans hbu'⟩
  have h2 : s2.stepRuns 6 := by
    obtain ⟨hbusy, hbu⟩ := State.busyStays_links (f := id) up hup rings s1
    exact (s.stepRuns_begun 6 0).keep (congrArg BringUp.run (hbu.trans h1.2)) (h1.1.trans hbusy)
  clear_value s2
  have h5 : s5.stepRuns 6 := (((h2.set (f := AGT_FAB_STATUS.ADMITTED) (by decide) 0 _).set (f := AGT_FAB_STATUS.FENCED) (by decide) 0 _).set
    (f := AGT_FAB_STATUS.EPOCH) (by decide) 0 1).keep rfl (State.agreesOn_of_regs rfl)
  have hpassed (n : Nat) : n ∈ passed ↔ n < 4 ∧ s.domPowered (8 * n) = true ∧ bit trained (4 + n) = true ∧ bit info n = true ∧
      bit s.bu.passed n = true := by
    have hst : (s.stepBegun 6 0).bu.passed = s.bu.passed ∧ ∀ d, (s.stepBegun 6 0).domPowered d = s.domPowered d := ⟨rfl, fun _ => rfl⟩
    unfold passed found here
    simp only [List.mem_filter, List.mem_range, Bool.and_eq_true, hst]
    tauto
  intro all
  have hall : (!bit trained 8 || !bit info 5 || !bit (s.stepBegun 6 0).bu.passed 5) = true ↔ ¬all := by
    have hst : (s.stepBegun 6 0).bu.passed = s.bu.passed := rfl
    rw [hst]
    unfold all
    cases bit trained 8 <;> cases bit info 5 <;> cases bit s.bu.passed 5 <;> decide
  refine ⟨fun hfound => ⟨maskOf passed, ?_⟩, fun hfound => ?_⟩
  · rw [if_neg (by rw [hall]; exact not_not_intro hfound)] at hexec
    refine State.stepSettles_of hexec h5 ⟨?_, fun n hn => ?_⟩
    · rw [(State.agreesOn_buSettle _ s5 _ _).get]
      exact State.get_set_self (s := s3) AGT_FAB_STATUS.EPOCH 0 1
    · have hadm : s5.get AGT_FAB_STATUS.ADMITTED 0 = maskOf passed % 2 ^ 4 :=
        (State.get_set_apart (s := s3) (f := AGT_FAB_STATUS.EPOCH) (i := 0) (v := 1) (by decide)).trans
          ((State.get_set_apart (s := s2.set AGT_FAB_STATUS.ADMITTED 0 (maskOf passed)) (f := AGT_FAB_STATUS.FENCED) (by decide)).trans
            (State.get_set_self ..))
      unfold State.admitted
      rw [(State.agreesOn_buSettle _ s5 _ _).get, hadm, bit_mod_two_pow hn, Bool.and_eq_true, bit_maskOf_iff, hpassed]
      simp [hn]
  · rw [if_pos (hall.2 hfound)] at hexec
    exact State.stepSettles_of hexec (s.stepRuns_begun 6 0)
      ((State.buSettle_within (k := 268435458) rfl (s.stepBegun_within 6 0)).sameBut (by decide))

end

/-! ## Step 7: firmware (R475, R491) -/

variable {unverified : Nat}

/-- A rollout changes the running slot and STATE of a component, not whether it is loaded. -/
theorem State.component_loaded (s : State) (i : Nat) : (s.component i).loaded = (s.storedComponent i).loaded := by
  unfold State.component
  dsimp only
  split <;> rfl

/-- A component depends on what is stored of it, on which dies run the newer slot, and on which are admitted. -/
theorem State.component_eq_of {j : Nat} (hcomp : t.storedComponent j = s.storedComponent j) (hadm : ∀ n, t.admitted n = s.admitted n)
    (hnewer : j = 3 → t.bu.newer = s.bu.newer) : t.component j = s.component j := by
  unfold State.component
  rw [hcomp]
  by_cases hj : j = 3
  · have hroll : t.rolledOut = s.rolledOut := by
      unfold State.rolledOut
      simp only [hnewer hj, hadm]
    rw [hroll]
  · simp [hj]

theorem State.storedComponent_setComponent_ne {i j : Nat} (h : j ≠ i) (s : State) (x : Component) :
    (s.setComponent i x).storedComponent j = s.storedComponent j := tget_tset_ne h

/-- Does component `i` load? -/
def State.loads (s : State) (unverified i : Nat) : Bool := ((s.component i).load i unverified).2.isSome

/-- One component is loaded: the flag, its LOADED, and what stays. -/
theorem State.loadStep_parts (unverified : Nat) (acc : State × Bool × Nat) (i : Nat) :
    (State.loadStep unverified acc i).2.1 = (acc.2.1 && acc.1.loads unverified i) ∧
    ((State.loadStep unverified acc i).1.storedComponent i).loaded = acc.1.loads unverified i ∧
    (∀ j, j ≠ i → (State.loadStep unverified acc i).1.component j = acc.1.component j) ∧
    (State.loadStep unverified acc i).1.bu.run = acc.1.bu.run ∧ (State.loadStep unverified acc i).1.regs = acc.1.regs := by
  obtain ⟨s, ok, mask⟩ := acc
  unfold State.loadStep State.loads
  dsimp only
  cases hload : ((s.component i).load i unverified).2 with
  | none =>
    refine ⟨by simp, ?_, fun j hj => ?_, rfl, rfl⟩
    · rw [State.storedComponent_setComponent]
      rfl
    · exact State.component_eq_of (s.storedComponent_setComponent_ne hj _) (fun _ => rfl) fun _ => rfl
  | some b =>
    obtain ⟨k, fb⟩ := b
    dsimp only
    generalize hx : ((s.component i).load i unverified).1.ran k = x
    have hloaded : x.loaded = true := by rw [← hx]; rfl
    generalize ((s.component i).load i unverified).1 = c
    have hstored (v : State) (hv : v.bu.comps = (s.setComponent i x).bu.comps) (j : Nat) :
        v.storedComponent j = (s.setComponent i x).storedComponent j := by
      unfold State.storedComponent
      rw [hv]
    refine ⟨by simp, ?_, fun j hj => ?_, ?_, ?_⟩
    · rw [hstored _ (by split_ifs <;> rfl), State.storedComponent_setComponent, hloaded]
      rfl
    · refine State.component_eq_of ((hstored _ (by split_ifs <;> rfl) j).trans (s.storedComponent_setComponent_ne hj x))
        (fun n => State.admitted_congr (State.getO_congr (by split_ifs <;> rfl) _ _ _)) fun h3 => ?_
      rw [if_neg (by omega)]
      split_ifs <;> rfl
    · split_ifs <;> rfl
    · split_ifs <;> rfl

/-- Components that are loaded one after another do not meet. -/
theorem foldl_loadStep (unverified : Nat) {L : List Nat} (hL : L.Nodup) (acc : State × Bool × Nat) :
    (L.foldl (State.loadStep unverified) acc).2.1 = (acc.2.1 && L.all (acc.1.loads unverified)) ∧
    (∀ i ∈ L, ((L.foldl (State.loadStep unverified) acc).1.component i).loaded = acc.1.loads unverified i) ∧
    (∀ j, j ∉ L → (L.foldl (State.loadStep unverified) acc).1.component j = acc.1.component j) ∧
    (L.foldl (State.loadStep unverified) acc).1.bu.run = acc.1.bu.run ∧ (L.foldl (State.loadStep unverified) acc).1.regs = acc.1.regs := by
  induction L generalizing acc with
  | nil => simp
  | cons a L ih =>
    obtain ⟨ha, hnd⟩ := List.nodup_cons.1 hL
    obtain ⟨hflag, hin, hout, hrun, hregs⟩ := ih hnd (State.loadStep unverified acc a)
    obtain ⟨hflag', hself, hothers, hrun', hregs'⟩ := State.loadStep_parts unverified acc a
    have hloads (i : Nat) (hi : i ∈ L) : (State.loadStep unverified acc a).1.loads unverified i = acc.1.loads unverified i := by
      unfold State.loads
      rw [hothers i (fun h => ha (h ▸ hi))]
    refine ⟨?_, fun i hi => ?_, fun j hj => ?_, hrun.trans hrun', hregs.trans hregs'⟩
    · have hall : L.all ((State.loadStep unverified acc a).1.loads unverified) = L.all (acc.1.loads unverified) := by
        rw [Bool.eq_iff_iff, List.all_eq_true, List.all_eq_true]
        exact forall₂_congr fun i hi => by rw [hloads i hi]
      rw [List.foldl_cons, hflag, hflag', List.all_cons, Bool.and_assoc, hall]
    · rw [List.foldl_cons]
      rcases List.mem_cons.1 hi with rfl | hi
      · rw [hout i ha, State.component_loaded, hself]
      · rw [hin i hi, hloads i hi]
    · rw [List.foldl_cons, hout j (fun h => hj (List.mem_cons_of_mem _ h)), hothers j (fun h => hj (h ▸ List.mem_cons_self))]

section
variable (hr : s.buReached = true) (hheld : s.pkg.held = false) (hidle : s.isSet AGT_BU_STAT.BUSY 0 = false)
include hr hheld hidle

/-- Each component shows whether a slot of it verified, and the step is OK where one of every component did. -/
theorem fwLoad_settles (hmay : s.stepMay 7 = true) (h38 : s.domPowered 38 = true) (hscb : s.domPowered 40 = true ∧ s.domPowered 41 = true)
    (unverified : Nat) : ∃ m, s.stepSettles (.fwLoad 0 unverified) 7
      (if s.loads unverified 1 && s.loads unverified 2 && s.loads unverified 3 && s.loads unverified 4 then .ok else .badLayout) m
      (fun t => ∀ i, 1 ≤ i → i ≤ 4 → (t.component i).loaded = s.loads unverified i) := by
  have hexec : exec (.fwLoad 0 unverified) s = _ := congrArg Outcome.next (State.buStep_runs hr hheld hidle hmay (by decide)
    (by simp [h38, hscb]))
  extract_lets r at hexec
  obtain ⟨hflag, hin, -, hrun, hregs⟩ := foldl_loadStep unverified (by decide : [1, 2, 3, 4].Nodup) (s.stepBegun 7 0, true, 0)
  have hfold : r = [1, 2, 3, 4].foldl (State.loadStep unverified) (s.stepBegun 7 0, true, 0) := rfl
  rw [← hfold] at hflag hin hrun hregs
  clear_value r
  have hloads (i : Nat) : (s.stepBegun 7 0).loads unverified i = s.loads unverified i := by
    unfold State.loads
    rw [State.component_eq_of (t := s.stepBegun 7 0) (s := s) rfl (fun n => s.admitted_buTaken 7 0 n) fun _ => rfl]
  have hst : r.2.1 = (s.loads unverified 1 && s.loads unverified 2 && s.loads unverified 3 && s.loads unverified 4) := by
    refine hflag.trans ?_
    simp [hloads, Bool.and_assoc]
  have hruns : r.1.stepRuns 7 := (s.stepRuns_begun 7 0).keep hrun (State.agreesOn_of_regs hregs)
  rw [← hst]
  refine ⟨r.2.2, State.stepSettles_of hexec hruns fun i h1 h4 => ?_⟩
  have hcomps : (r.1.buSettle (if r.2.1 then .ok else .badLayout) r.2.2).storedComponent i = r.1.storedComponent i := by
    obtain ⟨⟨j, hj, -, -⟩, -⟩ := hruns
    unfold State.buSettle
    rw [hj]
    rfl
  have hi : i ∈ [1, 2, 3, 4] := by
    simp only [List.mem_cons, List.not_mem_nil, or_false]
    omega
  rw [State.component_loaded, hcomps, ← State.component_loaded]
  exact (hin i hi).trans (hloads i)

end

end Sys2Proof.Machine
end

section
/-! PROOFS. The start test (step 4), and with it all of bring-up (O44). -/

namespace Sys2Proof.Machine

open Host Reg

variable {s t : State} {nodes : List Nat} {r : TestResult} {n : Nat}

/-! ## The defect list (R477) -/

/-- The number of the boot that an entry carries leaves its node and kind as they are. -/
theorem entry_stamped (e x : Nat) : entryNode (bits e 0 48 + x * 2 ^ 48) = entryNode e ∧ entryKind (bits e 0 48 + x * 2 ^ 48) = entryKind e := by
  unfold entryNode entryKind bits
  omega

/-- What the tests of `nodes` found, as entries of the list. -/
def State.testFound (s : State) (nodes : List Nat) (r : TestResult) : List Nat :=
  (r.found.filter (fun e => nodes.contains (entryNode e))).map (fun e => bits e 0 48 + s.bu.resets % 2 ^ 16 * 2 ^ 48)

/-- Does node `n` pass, as the model judges it? -/
def State.testPass (s : State) (nodes : List Nat) (r : TestResult) (n : Nat) : Bool :=
  !bit r.bad n && !(n < 4 && bit s.bu.failed n) &&
    (s.defects.1.entries ++ s.testFound nodes r).all (fun e => !(entryNode e == n && entryKind e == 2))

/-- Can what was found be stored? -/
def State.testStored (s : State) (nodes : List Nat) (r : TestResult) : Bool :=
  (s.testFound nodes r).isEmpty || (r.stored && decide ((s.defects.1.entries ++ s.testFound nodes r).length ≤ 4096))

/-- Does node `n` pass (R473, R474, R477)? -/
def State.passesTest (s : State) (r : TestResult) (n : Nat) : Prop :=
  bit r.bad n = false ∧ (n < 4 → bit s.bu.failed n = false) ∧
    ∀ e ∈ s.defects.1.entries ++ r.found, entryNode e = n → entryKind e ≠ 2

theorem State.testPass_iff (hn : n ∈ nodes) : s.testPass nodes r n = true ↔ s.passesTest r n := by
  have hentry (e : Nat) : (!(entryNode e == n && entryKind e == 2)) = true ↔ (entryNode e = n → entryKind e ≠ 2) := by
    by_cases h : entryNode e = n <;> simp [h]
  have hfound : (∀ e ∈ s.testFound nodes r, entryNode e = n → entryKind e ≠ 2) ↔ ∀ e ∈ r.found, entryNode e = n → entryKind e ≠ 2 := by
    unfold State.testFound
    simp only [List.forall_mem_map, List.mem_filter, List.contains_iff_mem, entry_stamped]
    exact ⟨fun h e he heq => h e ⟨he, heq ▸ hn⟩ heq, fun h e he => h e he.1⟩
  have hfailed : (!(n < 4 && bit s.bu.failed n)) = true ↔ (n < 4 → bit s.bu.failed n = false) := by
    by_cases h : n < 4 <;> simp [h]
  unfold State.testPass State.passesTest
  rw [Bool.and_eq_true, Bool.and_eq_true, List.all_eq_true, hfailed, Bool.not_eq_true', and_assoc, List.forall_mem_append,
    List.forall_mem_append]
  simp only [hentry, hfound]

theorem State.testStored_iff : s.testStored nodes r = true ↔
    let here := r.found.filter (fun e => nodes.contains (entryNode e))
    here = [] ∨ (r.stored = true ∧ (s.defects.1.entries ++ here).length ≤ 4096) := by
  unfold State.testStored State.testFound
  simp

/-! ## Testing nodes (R473, R474) -/

/-- Objects 0x5C10:(n + 1) show what each node tested was judged as. -/
theorem State.obj_foldl_setObj {v : Nat → Nat} (L : List Nat) (s : State) (m : Nat) :
    (L.foldl (fun st n => st.setObj 0 0x5C10 (n + 1) (v n)) s).obj 0 0x5C10 (m + 1) =
      if m ∈ L then v m else s.obj 0 0x5C10 (m + 1) := by
  induction L generalizing s with
  | nil => simp
  | cons a L ih =>
    rw [List.foldl_cons, ih]
    by_cases hL : m ∈ L
    · simp [hL]
    · by_cases ha : m = a
      · subst ha
        simp [hL]
      · rw [State.obj_setObj_ne (by omega)]
        simp [hL, ha]

theorem bit_replaced {a M p n : Nat} (hM : bit M n = true) : bit ((a ||| M) ^^^ M ||| p) n = bit p n := by
  rw [bit_eq_testBit] at hM
  simp [bit_eq_testBit, hM]

theorem State.writeDefects_run (s : State) (l : List Nat) : (s.writeDefects l).bu.run = s.bu.run := by
  unfold State.writeDefects
  dsimp only
  split <;> rfl

theorem State.testNodes_parts (s : State) (nodes : List Nat) (r : TestResult) :
    (s.testNodes nodes r).2 = (maskOf (nodes.filter (s.testPass nodes r)), s.testStored nodes r) ∧
    (s.testNodes nodes r).1.bu.run = s.bu.run ∧ (s.testNodes nodes r).1.regs = s.regs ∧
    ∀ n ∈ nodes, (bit (s.testNodes nodes r).1.bu.passed n = s.testPass nodes r n) ∧
      ((s.testNodes nodes r).1.obj 0 0x5C10 (n + 1) = 3 ↔ s.testPass nodes r n = false) := by
  refine ⟨rfl, ?_, (State.testNodes_within (k := 268435460) rfl (.refl _ s)).parts .regs rfl, fun n hn => ⟨?_, ?_⟩⟩
  · unfold State.testNodes
    extract_lets found old stored s1 pass s2 passed failed
    have h1 : s1.bu.run = s.bu.run := by
      unfold s1
      split
      · rfl
      · exact s.writeDefects_run _
    have h2 : s2.bu = s1.bu :=
      (Within.foldl (k := 4) (.refl _ s1) fun u m h => State.setObj_within (k := 4) rfl h ..).parts .bu rfl
    exact (congrArg BringUp.run h2).trans h1
  · refine (bit_replaced ((bit_maskOf_iff _ _).2 hn)).trans ?_
    rw [Bool.eq_iff_iff, bit_maskOf_iff, List.mem_filter]
    exact ⟨fun h => h.2, fun h => ⟨hn, h⟩⟩
  · unfold State.testNodes
    extract_lets found old stored s1 pass s2 passed failed
    have hobj : s2.obj 0 0x5C10 (n + 1) = if !pass n then 3 else if found.any (fun e => entryNode e == n) then 2 else 1 := by
      unfold s2
      rw [State.obj_foldl_setObj (v := fun n => if !pass n then 3 else if found.any (fun e => entryNode e == n) then 2 else 1), if_pos hn]
    have hpass : pass n = s.testPass nodes r n := rfl
    refine (Eq.congr_left (hobj : _ = _)).trans ?_
    rw [← hpass]
    cases pass n
    · simp
    · simp only [Bool.not_true, Bool.false_eq_true, if_false, reduceCtorEq, iff_false]
      split <;> decide

/-! ## Step 4 (R472 to R474) -/

/-- The low byte of the result names the nodes that passed. -/
theorem bit_result {p x n : Nat} (hn : n < 8) : bit (p + 2 ^ 8 * x) n = bit p n := by
  unfold bit
  interval_cases n <;> simp <;> omega

/-- Was the list stored, and did Agate pass if it was tested? -/
def State.testGood (s : State) (nodes : List Nat) (r : TestResult) : Prop :=
  let here := r.found.filter (fun e => nodes.contains (entryNode e))
  (here = [] ∨ (r.stored = true ∧ (s.defects.1.entries ++ here).length ≤ 4096)) ∧ (4 ∈ nodes → s.passesTest r 4)

/-- What the end of the start test shows, with `m` as its result. -/
def State.testShown (s : State) (nodes : List Nat) (r : TestResult) (m : Nat) (t : State) : Prop :=
  t.get AGT_BU_RETPASS.SEALED 0 = 0 ∧ ∀ n ∈ nodes, (bit m n = true ↔ s.passesTest r n) ∧
    (bit t.bu.passed n = true ↔ s.passesTest r n) ∧ (t.obj 0 0x5C10 (n + 1) = 3 ↔ ¬s.passesTest r n)

theorem State.testGood_iff : s.testGood nodes r ↔
    (!s.testStored nodes r || nodes.contains 4 && !bit (maskOf (nodes.filter (s.testPass nodes r))) 4) = false := by
  have hbit (h : 4 ∈ nodes) : bit (maskOf (nodes.filter (s.testPass nodes r))) 4 = true ↔ s.passesTest r 4 := by
    rw [bit_maskOf_iff, List.mem_filter, State.testPass_iff h]
    exact ⟨fun hp => hp.2, fun hp => ⟨h, hp⟩⟩
  unfold State.testGood
  rw [Bool.or_eq_false_iff, Bool.not_eq_false', State.testStored_iff]
  refine and_congr_right fun _ => ?_
  by_cases h : 4 ∈ nodes
  · simp [h, hbit h]
  · simp [h]

section
variable (hr : s.buReached = true) (hheld : s.pkg.held = false) (hidle : s.isSet AGT_BU_STAT.BUSY 0 = false) {arg : Nat}
include hr hheld hidle

theorem startTest_settles (hmay : s.stepMay 4 = true) (harg : arg < 2 ^ 7) (r : TestResult) {nodes : List Nat}
    (hnodes : nodes = maskList 6 (bits arg 0 6)) (htest : s.testable nodes) :
    ∃ m, (s.testGood nodes r → s.stepSettles (.startTest arg r) 4 .ok m (s.testShown nodes r m)) ∧
      (¬s.testGood nodes r → s.stepSettles (.startTest arg r) 4 .tileUncorrectable m (s.testShown nodes r m)) := by
  subst hnodes
  have hexec : exec (.startTest arg r) s = _ :=
    congrArg Outcome.next (State.buStep_runs hr hheld hidle hmay harg ((s.testable_iff _).1 htest))
  extract_lets lost bu0 s1 quick q grown result bu1 s2 at hexec
  have hlt (n : Nat) (hn : n ∈ maskList 6 (bits arg 0 6)) : n < 8 := by
    have := (mem_maskList.1 hn).1
    omega
  have hqdef : q = s1.testNodes (maskList 6 (bits arg 0 6)) r := rfl
  clear_value q grown quick
  generalize maskList 6 (bits arg 0 6) = nodes at *
  obtain ⟨hq, hrun, hregs, hshown⟩ := s1.testNodes_parts nodes r
  have hpass (n : Nat) : s1.testPass nodes r n = s.testPass nodes r n := rfl
  have hstored : s1.testStored nodes r = s.testStored nodes r := rfl
  simp only [funext hpass, hstored] at hq
  simp only [hpass] at hshown
  rw [← hqdef] at hq hrun hregs hshown
  have hruns : s2.stepRuns 4 :=
    (((s.stepRuns_begun 4 arg).keep (t := s1) rfl (State.agreesOn_of_regs rfl)).keep (t := q.1.setBu { q.1.bu with fullNext := false }) hrun
      (State.agreesOn_of_regs hregs)).set (by decide) 0 0
  have hend (st : Status) : s.testShown nodes r result (s2.buSettle st result) := by
    refine ⟨?_, fun n hn => ?_⟩
    · rw [(State.agreesOn_buSettle _ s2 _ _).get, State.get_set_self]
      rfl
    · obtain ⟨hpassed, hobj⟩ := hshown n hn
      have hiff := State.testPass_iff (s := s) (r := r) hn
      have hresult : result = q.2.1 + 2 ^ 8 * (grown + 2 ^ 8 * quick + 2 ^ 16 * b2n lost) := by
        unfold result
        omega
      have hbu : (s2.buSettle st result).bu.passed = q.1.bu.passed := by
        obtain ⟨⟨j, hj, -, -⟩, -⟩ := hruns
        unfold State.buSettle
        rw [hj]
        rfl
      have hdict : (s2.buSettle st result).obj 0 0x5C10 (n + 1) = q.1.obj 0 0x5C10 (n + 1) :=
        State.obj_congr ((State.buSettle_within (k := 268435456) rfl (.refl _ s2)).parts .dict rfl) ..
      rw [hbu, hdict, hpassed, hobj, hresult, bit_result (hlt n hn), hq, bit_maskOf_iff, List.mem_filter, hiff]
      refine ⟨⟨fun h => h.2, fun h => ⟨hn, h⟩⟩, Iff.rfl, ?_⟩
      rw [← hiff, Bool.not_eq_true]
  rw [hq] at hexec
  refine ⟨result, fun hgood => ?_, fun hbad => ?_⟩
  · rw [if_neg (by rw [State.testGood_iff.1 hgood]; exact Bool.false_ne_true)] at hexec
    exact State.stepSettles_of hexec hruns (hend .ok)
  · rw [if_pos (Bool.not_eq_false _ ▸ fun h => hbad (State.testGood_iff.2 h))] at hexec
    exact State.stepSettles_of hexec hruns (hend .tileUncorrectable)

end

/-! ## All of bring-up -/

/-- Settles O44. -/
theorem bringUpStepsSettle : Obligations.BringUpStepsSettle := by
  unfold Obligations.BringUpStepsSettle
  intro s r arg bad trained half info pass agateOk hr
  intro settled nodes testable scarabUp steps
  have hsteps : ∀ e ∈ steps, s.isStep e.1 e.2.1 arg e.2.2 := by
    intro e he
    simp only [steps, List.mem_cons, List.not_mem_nil, or_false] at he
    rcases he with rfl | rfl | rfl | rfl | rfl | rfl | rfl | rfl | rfl | rfl
    · exact isStep_domains s arg
    · exact isStep_rootPll s arg agateOk
    · exact isStep_fuseLoad s arg bad agateOk
    · exact isStep_startTest s r arg
    · exact isStep_fmax s r arg
    · exact isStep_discover s arg trained half info
    · exact isStep_fwLoad s arg bad
    · exact isStep_cfgLoad s arg bad
    · exact isStep_inject s arg pass
    · exact isStep_outputEnable s arg
  refine ⟨fun e he => ⟨State.isStep_ignored (hsteps e he) hr, State.isStep_turned (hsteps e he) hr⟩, fun hheld hidle => ?_⟩
  refine ⟨fun hmay harg => ?_, rootPll_settles hr hheld hidle, fun hmay => fuseLoad_settles hr hheld hidle hmay agateOk bad,
    fun hmay harg htest => startTest_settles hr hheld hidle hmay harg r rfl htest, fun hmay => fmax_settles hr hheld hidle hmay r,
    fun hmay h37 hscb => discover_settles hr hheld hidle hmay h37 hscb trained half info,
    fun hmay h38 hscb => fwLoad_settles hr hheld hidle hmay h38 hscb bad,
    fun hmay hoff => inject_settles hr hheld hidle hmay hoff pass, fun hmay hok => outputEnable_settles hr hheld hidle hmay hok⟩
  obtain ⟨hnothing, hrefused⟩ := domains_settles hr hheld hidle hmay harg
  exact ⟨hnothing, fun d l hplan => domains_switches hr hheld hidle hmay harg hplan, hrefused⟩

end Sys2Proof.Machine
end
